-- ==== Sys2Proof/Word.lean ====
section
/-! DEFINITION. The word types and their plainest arithmetic: 64-bit register words, bytes, bit fields of a number,
two's complement, saturation, and clamping between bounds. -/

namespace Sys2Proof

/-- A control-space register word (R6). -/
abbrev Word := BitVec 64

/-- One byte of memory. -/
abbrev Byte := BitVec 8

/-- The `w` bits of `x` from bit `lsb` up, as a number. -/
def bitsAt (x lsb w : Nat) : Nat := (x >>> lsb) % 2 ^ w

/-- `w` bits read as a two's complement number. -/
def toSigned (w x : Nat) : Int :=
  if x % 2 ^ w < 2 ^ (w - 1) then (x % 2 ^ w : Nat) else (x % 2 ^ w : Nat) - (2 ^ w : Nat)

/-- A number as `w` bits of two's complement, modulo 2^w. -/
def ofSigned (w : Nat) (x : Int) : Nat := (x % (2 ^ w : Nat)).toNat

/-- The nearest number that `w` bits of two's complement hold. -/
def satSigned (w : Nat) (x : Int) : Int :=
  if x < -(2 ^ (w - 1) : Nat) then -(2 ^ (w - 1) : Nat)
  else if x ≥ (2 ^ (w - 1) : Nat) then (2 ^ (w - 1) : Nat) - 1 else x

/-- Saturating sum of a `w`-bit counter. -/
def satAdd (w x k : Nat) : Nat := min (x + k) (2 ^ w - 1)

/-- The nearest value between two bounds. -/
def clampNat (lo hi x : Nat) : Nat := if x < lo then lo else if x > hi then hi else x

end Sys2Proof
end

