-- ==== Sys2Proof/Syntax.lean ====
section
/-! DEFINITION. The commands of the block: `Instr`, one constructor per row of the opcode table, and the types of their
operands. -/

namespace Sys2Proof

/-- The sender of a control-space access (R446, R450): master class and index. Class 0: a core (index the hart); 1: a wing,
or the runner from 64 on; 2: a Flask; 3: a module of the tray (index the slot); 4: a light engine; 5: management (index the
session, 0xFFF the service processor). -/
structure Master where
  cls : Nat
  idx : Nat
  deriving DecidableEq, Repr

/-- The service processor (R446). -/
def Master.sp : Master := ⟨5, 0xFFF⟩

/-- The 16-bit master ID of a capture: class above twelve bits of index (log entry 11). -/
def Master.code (m : Master) : Nat := m.cls * 4096 + m.idx

/-- What the self-test reports of one array (R119): failing positions, lowest first, and the test-bar unit. -/
structure BistResult where
  fails : List Nat
  tbFail : Bool
  deriving DecidableEq, Repr

/-- One port's request to a tile store in one step (R144, R146): port of Table 5-5 (0 loader, 1 vector engine, 2 FILL,
3 DRAIN and cores), byte offset of the line, the line to write (64 bytes) or a read, and the bits found in error in each
of its words. -/
structure PortReq where
  port : Nat
  off : Nat
  wdata : Option (List Byte)
  errs : List Nat
  deriving DecidableEq, Repr

/-- What a receiver measured of one line over the last millisecond (R290): OMA in 0.1 dBm, whether it has stood below RX_SWAP
for 10 ms, corrected symbols of the rest of the last second and symbols received in it, and the codewords of this millisecond that
arrived with errors, each as its 1,360 PAM4 levels (R280). -/
structure RxLine where
  oma : Int
  low : Bool
  corr : Nat
  syms : Nat
  words : List (List Nat)
  deriving DecidableEq, Repr

/-- A fabric cell (R303): the fields of Table 11-1, MASK for a multicast cell, and 64 (56) bytes of payload. -/
structure Cell where
  cls : Nat := 0
  mc : Bool := false
  rank : Nat := 0
  epoch : Nat := 0
  poison : Bool := false
  kind : Nat := 1
  inc : Nat := 0
  dst : Nat := 0
  src : Nat := 0
  seq : Nat := 0
  opn : Bool := false
  mask : List Nat := []
  payload : List Byte := []
  deriving DecidableEq, Repr

/-- A link unit (R306, R307): its cell (none: IDLE) with the tail of Table 11-4, and the credit counts of a link-control
unit (reserved credits of the 8 channels, then shared). -/
structure LinkUnit where
  cell : Option Cell
  lseq : Nat := 0
  lack : Nat := 0
  cvc : Nat := 0
  ccnt : Nat := 0
  cpool : Nat := 0
  fpool : Nat := 0
  counts : Option (List Nat × List Nat) := none
  deriving DecidableEq, Repr

/-- The atomic operations of a core (R341, R383): the A extension, with LR and SC, and Zacas. -/
inductive CoreAmo where
  | add | min | max | minu | maxu | cas | swap | and | or | xor | lr | sc
  deriving DecidableEq, Repr

/-- What the bring-up of one Flask edge found (R263 to R265): whether forwarded-clock training succeeded, slices left inactive
(numbered as in Table 9-9), wires mapped to spares by slice, and the eye widths. -/
structure EdgeWork where
  trained : Bool
  bad : List Nat := []
  repairs : List (Nat × List Nat) := []
  eyes : List Nat := []
  deriving DecidableEq, Repr

/-- What the bring-up of one stack found (R225, R226): its identity, whether it is a 12-high 36 GiB stack, whether its PHY trained,
and the redundant lanes in use. -/
structure StackWork where
  maker : Nat
  part : Nat
  rev : Nat
  sized : Bool := true
  trained : Bool := true
  lanes : Nat := 0
  deriving DecidableEq, Repr

/-- The self-test of a wing recorded out of service, and whether its field's spare position passes the same test (R120). -/
structure WingWork where
  w : Nat
  results : List BistResult
  spareOk : Bool
  deriving DecidableEq, Repr

/-- What a full temper pass measured of one domain (R51): slack at the applied voltage in quarter elements, the voltage slope in
quarter elements per 10 mV, and the erosion coefficient. -/
structure DomWork where
  slack : Int
  slope : Int
  erosion : Nat
  deriving DecidableEq, Repr

/-- The header of a management message as it arrives (R403): the fabric source it came over (none: the port), VERSION, SESSION,
COUNTER, and whether its tag verifies under the session key and its body has the length of its TYPE. -/
structure MgtHdr where
  via : Option Nat := none
  version : Nat := 1
  session : Nat := 0
  counter : Nat := 0
  tagOk : Bool := true
  lenOk : Bool := true
  deriving DecidableEq, Repr

/-- An activity figure measured outside the model, over the last millisecond where it is in parts per thousand (R59, R149, R183,
R254, R334): of wing `w`, of the light crossing of lane `x`, of stack `k`, of fabric port `p`. -/
inductive Figure where
  | wingRate (w mega : Nat)
  | wingBusy (w pm : Nat)
  | wingHeld (w pm : Nat)
  | vecBusy (w pm : Nat)
  | vecPort (w pm : Nat)
  | vecGather (w pm : Nat)
  | vecWait (w pm : Nat)
  | crossUse (x pm : Nat)
  | crossStall (x pm : Nat)
  | stackData (k pm : Nat)
  | stackTurn (k pm : Nat)
  | stackRefresh (k pm : Nat)
  | stackHeld (k pm : Nat)
  | portTrip (p ns : Nat)
  | portUse (p pm : Nat)
  deriving DecidableEq, Repr

/-- The unit of a figure is one of the block's, and a fraction at most the whole. -/
def Figure.ok : Figure → Bool
  | .wingRate w v => decide (w < 64 ∧ v < 65536)
  | .wingBusy w v | .wingHeld w v | .vecBusy w v | .vecPort w v | .vecGather w v | .vecWait w v => decide (w < 64 ∧ v ≤ 1000)
  | .crossUse x v | .crossStall x v => decide (x < 8 ∧ v ≤ 1000)
  | .stackData k v | .stackTurn k v | .stackRefresh k v | .stackHeld k v => decide (k < 16 ∧ v ≤ 1000)
  | .portTrip p v => decide (p < 16 ∧ v < 65536)
  | .portUse p v => decide (p < 16 ∧ v ≤ 1000)

/-- The work of one boot stage as it ends (Table 14-6), with what the firmware found. -/
inductive BootWork where
  /-- Stage 1; whether the life-cycle and counter fuses read consistently (Table 15-8). -/
  | rom (fusesOk : Bool)
  /-- Stage 2. -/
  | fuse
  /-- Stage 3: spares mapped per Crucible link, and the slices (link, slice) that could not be repaired. -/
  | links (spares : List Nat) (bad : List (Nat × Nat))
  /-- Stage 5, edge by edge. -/
  | edges (es : List EdgeWork)
  /-- Stage 6, stack by stack. -/
  | memory (ks : List StackWork)
  /-- Stage 7, each wing recorded out of service. -/
  | wings (ws : List WingWork)
  /-- Stage 8, domain by domain. -/
  | temper (ds : List DomWork)
  /-- Stage 9. -/
  | zero
  /-- Stage 10; whether the hold-up store is charged (R517). -/
  | image (charged : Bool)
  /-- Stage 11. -/
  | dispatch
  /-- Stage 12. -/
  | release
  /-- The running stage fails. -/
  | fail
  deriving DecidableEq, Repr

/-- What becomes of a die-to-die frame on its way: the bits that change on the wires (a number, 0 for none), and the classes that
have traffic at the sender (R257, R259, R266). -/
structure FrameWay where
  flips : Nat
  offered : List Nat
  deriving DecidableEq, Repr

/-- What becomes of a unit of a port on its way: the bits that change, its first symbol's place in the striping, and the lanes whose
codewords are lost (R281, R306). -/
structure UnitWay where
  flips : Nat
  first : Nat
  lost : List Nat
  deriving DecidableEq, Repr

/-- A ring's error signal, and whether a re-acquisition that it starts locks again (R285). -/
structure RingLoss where
  err : Int
  reacquired : Bool
  deriving DecidableEq, Repr

/-- A heater's code, the frame count, and whether a re-acquisition that it starts locks again (R285). -/
structure HeaterData where
  code : Nat
  frame : Nat
  reacquired : Bool
  deriving DecidableEq, Repr

/-- A reading in 0.1 °C of one of the parts that feed a sensor (R275, R491). -/
structure Reading where
  part : Nat
  temp : Int
  deriving DecidableEq, Repr

/-- What the power control's millisecond brings beside the input power: the hold, and the activity figures (R24, R495). -/
structure TickData where
  hold : Nat
  figures : List Figure
  deriving DecidableEq, Repr

/-- The commands the block takes, one constructor per row of the opcode table, in the table's order. The table gives the
rows no operands: those here are the model's (log entry 3). `m` is the master that sends a control-space access (R446). -/
inductive Instr where
  /-- REG_WRITE (R8). A control-space write to a register or field that has no row of its own takes effect as its access code states, with width, alignment and reserved-bit checks. -/
  | regWrite (addr width value : Nat) (m : Master)
  /-- SLACK_WINDOW_END (R37). At the end of each 1 µs window a domain's monitor reports the minimum canary slack, self-launching the canary if the domain did not step. -/
  | slackWindowEnd (d : Nat) (slack : Int)
  /-- TAP_WIDEN (R39). While slack is below WIDEN and AUTO_WIDEN is 1, the controller widens the current tap by one code every 4 µs until TARGET or code 63. -/
  | tapWiden (d : Nat)
  /-- HOLD_WIDEN (R42). Every 0.5 µs of a hold the controller widens by one code and measures, releasing the hold when slack reaches WIDEN. -/
  | holdWiden (d : Nat) (slack : Int)
  /-- TAP_RELAX (R41). After 10 ms of slack at or above RELAX_ABOVE the controller narrows the current tap by one code, or defers if the floor would rise. -/
  | tapRelax (d : Nat)
  /-- RELAX_REEVALUATE (R41). At least every 1 ms during a deferral the controller re-evaluates and narrows once the floor no longer rises above VCORE. -/
  | relaxReevaluate (d : Nat)
  /-- MARGIN_EXHAUSTED (R43). A domain still held 20 µs after its hold began becomes margin-exhausted, sets EXHAUSTED and raises its Eyespot source. -/
  | marginExhausted (d : Nat)
  /-- SHADOW_LATCH_FLAG (R44). A shadow latch that flags a capture makes the stage withhold its acknowledge, widen one code, resample and count the event. -/
  | shadowLatchFlag (d : Nat)
  /-- VFLOOR_RECOMPUTE (R46). Within 10 µs of a tap change the controller recomputes the voltage floor of the rail. -/
  | vfloorRecompute (r : Nat)
  /-- PLANNED_WRITE (R47). A write to MGN_DOM[d]_TAP.PLANNED stores the new plan, raising CURRENT at the next step boundary or leaving it to relaxing. -/
  | plannedWrite (d value : Nat) (m : Master)
  /-- SWEEP_OFF_WRITE (R48). A write to SWEEP_OFF runs an array domain below its current tap during a margin sweep, or stores 0 when not allowed. -/
  | sweepOffWrite (d value : Nat) (m : Master)
  /-- MGN_PEAK_CLR (R60). A write of 1 to MGN_DOM[d]_TAP.PEAK_CLR makes PEAK take CURRENT. -/
  | mgnPeakClr (d : Nat) (m : Master)
  /-- SLACK_MIN_CLR (R60). A write of 1 to MGN_DOM[d]_SLACK.MIN_CLR makes MIN take NOW. -/
  | slackMinClr (d : Nat) (m : Master)
  /-- MGN_CTRL_WRITE (R60). A write to MGN_CTRL that breaks the threshold order or minimums is refused as a configuration error; otherwise it sets the thresholds. -/
  | mgnCtrlWrite (value : Nat) (m : Master)
  /-- TEMPER_START (R51). A write of 1 to MGN_TEMPER.START starts a requested pass on one domain or a full rotation, or is refused. -/
  | temperStart (m : Master)
  /-- TEMPER_ROTATION_DUE (R51). Every PERIOD_H powered hours the in-service rotation starts a pass domain by domain. -/
  | temperRotationDue
  /-- TEMPER_TRIGGERED (R51). When CURRENT has exceeded PLANNED by 8 codes or more for 1 s, a triggered pass runs on that domain. -/
  | temperTriggered (d : Nat)
  /-- TEMPER_WING_SKIP (R52). A wing that is not idle within 100 ms of its in-service pass is skipped and tried again after the rotation. -/
  | temperWingSkip (w : Nat)
  /-- TEMPER_DOMAIN_PASS (R54). An in-service pass on one domain measures slack and sets PLANNED and CURRENT to the lowest code meeting TARGET. -/
  | temperDomainPass (d : Nat) (slack : Int) (erosion : Nat)
  /-- BASK_TAP_REMOVE (R57). Once every die sensor on a rail reads 10 °C or above, the bask codes are removed one code every 1 ms. -/
  | baskTapRemove (r : Nat)
  /-- STEPS_READ (R58). A 64-bit read of MGN_RATE[w]_STEPS latches the time base into MGN_RATE[w]_TIME. -/
  | stepsRead (w : Nat)
  /-- MATMUL (R100). The MATMUL command is clamped, checked and dispatched to the arrays of the queue's wing. -/
  | matmul (q : Nat)
  /-- ACTIVATION_LOAD (R105). The feeder broadcasts activation rows from the tile store into the named buffer of all four arrays and forms the test-bar row sums. -/
  | activationLoad (w : Nat)
  /-- ARRAY_STEP (R93). When every masked array holds its next slab, the arrays jointly take one step and accumulate the slab products. -/
  | arrayStep (w : Nat) (errs : List (Nat × Nat × Nat))
  /-- TESTBAR_CHECK (R109). Within 150 ns of the last array step into a column the check sequencer compares T with S and counts pass, fail or skip. -/
  | testbarCheck (w a c : Nat)
  /-- EPILOGUE_RUN (R107). After the last array step of a sweep group the wing runs the EPILOGUE VEC_RUN block on that group's columns. -/
  | epilogueRun (w : Nat)
  /-- WING_HANG (R116). A wing with a command dispatched and full FIFOs that takes no step for HANG_US hangs and raises the wing-hang source. -/
  | wingHang (w : Nat)
  /-- WING_TAKE_OUT (R115). A write of 1 to WNG[w]_CTRL.TAKE_OUT drains the wing and takes it out of service with cause 1. -/
  | wingTakeOut (w : Nat) (m : Master)
  /-- WING_RESTORE (R115). A write of 1 to WNG[w]_CTRL.RESTORE returns a wing out with cause 1 to service. -/
  | wingRestore (w : Nat) (m : Master)
  /-- ARRAY_FENCE (R117). A write of 1 to WNG[w]_ARR[a]_STAT.FENCE fences the array and takes its wing out of service with cause 3. -/
  | arrayFence (w a : Nat) (m : Master)
  /-- BIST_START (R119). A write of 1 to WNG[w]_BIST.START begins the self-test when the wing is OFFLINE, OUT or in a sweep's TEMPER, or sets REFUSED. -/
  | bistStart (w : Nat) (m : Master)
  /-- BIST_DONE (R119). The self-test ends, reports failing positions per array and returns the wing to its previous state. -/
  | bistDone (w : Nat) (results : List BistResult)
  /-- ACC_WINDOW_READ (R121). A read of the accumulator window returns entries while the wing is OFFLINE or OUT, and zero with an access error otherwise. -/
  | accWindowRead (w off width : Nat) (m : Master)
  /-- STITCH_CODE_ERROR (R126). A stitch crossing that receives an illegal dual-rail code withholds its acknowledge, resends the token and raises its source. -/
  | stitchCodeError (x : Nat)
  /-- STREAM_VALIDATE (R130). A write of 1 to a descriptor's VALID checks the descriptor and marks it valid, or sets ERR and reports a configuration error. -/
  | streamValidate (i : Nat) (m : Master)
  /-- STREAM_DESC_WRITE (R131). A write to any word of a descriptor, or of 0 to VALID, clears VALID while open instances continue on their copy. -/
  | streamDescWrite (i word value : Nat) (m : Master)
  /-- STREAM_INSTANCE_OPEN (R132). An instance of a descriptor opens once the dispatching wing, or every wing of the receiver set, has dispatched a MATMUL naming it. -/
  | streamInstanceOpen (i w : Nat)
  /-- JOIN_TIMEOUT (R133). A multicast instance not open JOIN_US after its first MATMUL opens for the wings that joined and sets JOIN_PARTIAL. -/
  | joinTimeout (i : Nat)
  /-- RUNNER_SLAB_PASS (R136). The runner passes a slab to the next link once every receiver beyond it has room. -/
  | runnerSlabPass (inst : Nat)
  /-- RECEIVER_PRUNE (R137). At the next slab boundary a receiver whose wing left service or whose MATMUL was aborted is pruned from the instance. -/
  | receiverPrune (inst w : Nat)
  /-- INSTANCE_CLOSE (R138). An instance closes when every remaining receiver has accepted its last slab, and BUSY clears. -/
  | instanceClose (inst : Nat)
  /-- TILE_STORE_ACCESS (R146). A port reads or writes a whole 64-byte tile-store line, with bank arbitration and SECDED correction or poisoning. -/
  | tileStoreAccess (w : Nat) (reqs : List PortReq)
  /-- VEC_RUN (R157). The VEC_RUN command fetches and checks its block and runs its pattern over the grid on the queue's wing. -/
  | vecRun (q : Nat)
  /-- PATTERN_NOP (R166). Pattern opcode NOP does nothing for the element. -/
  | patternNop (w : Nat)
  /-- MOV (R167). Pattern opcode MOV copies source a to the destination without flags. -/
  | mov (w : Nat)
  /-- ADD (R77). Pattern opcode ADD writes a + b, correctly rounded. -/
  | add (w : Nat)
  /-- SUB (R77). Pattern opcode SUB writes a − b, correctly rounded. -/
  | sub (w : Nat)
  /-- MUL (R77). Pattern opcode MUL writes a × b, correctly rounded. -/
  | mul (w : Nat)
  /-- FMA (R77). Pattern opcode FMA writes a × b + c with one rounding. -/
  | fma (w : Nat)
  /-- FMS (R77). Pattern opcode FMS writes a × b − c with one rounding. -/
  | fms (w : Nat)
  /-- FNMA (R77). Pattern opcode FNMA writes −(a × b) + c with one rounding. -/
  | fnma (w : Nat)
  /-- DIV (R77). Pattern opcode DIV writes a / b, correctly rounded. -/
  | div (w : Nat)
  /-- SQRT (R77). Pattern opcode SQRT writes the square root of a, correctly rounded. -/
  | sqrt (w : Nat)
  /-- MIN (R77). Pattern opcode MIN writes the IEEE minimum of a and b. -/
  | min (w : Nat)
  /-- MAX (R77). Pattern opcode MAX writes the IEEE maximum of a and b. -/
  | max (w : Nat)
  /-- MINN (R77). Pattern opcode MINN writes minimumNumber of a and b. -/
  | minn (w : Nat)
  /-- MAXN (R77). Pattern opcode MAXN writes maximumNumber of a and b. -/
  | maxn (w : Nat)
  /-- ABS (R79). Pattern opcode ABS writes the magnitude of a as a quiet operation. -/
  | abs (w : Nat)
  /-- NEG (R79). Pattern opcode NEG writes the negation of a as a quiet operation. -/
  | neg (w : Nat)
  /-- CMPEQ (R167). Pattern opcode CMPEQ writes all ones when a equals b under compareQuietEqual, else zero. -/
  | cmpeq (w : Nat)
  /-- CMPLT (R167). Pattern opcode CMPLT writes all ones when a < b under compareSignalingLess, else zero. -/
  | cmplt (w : Nat)
  /-- CMPLE (R167). Pattern opcode CMPLE writes all ones when a ≤ b under compareSignalingLessEqual, else zero. -/
  | cmple (w : Nat)
  /-- CMPUN (R167). Pattern opcode CMPUN writes all ones when a and b are unordered, else zero. -/
  | cmpun (w : Nat)
  /-- SEL (R167). Pattern opcode SEL writes c when the bits of a are zero and b otherwise. -/
  | sel (w : Nat)
  /-- SCALE (R84). Pattern opcode SCALE writes the exact product a × b rounded once, reading an INT32 accumulator exactly. -/
  | scale (w : Nat)
  /-- CVT (R81). Pattern opcode CVT converts a from the instruction TYPE to the TYPE in B. -/
  | cvt (w : Nat)
  /-- RINT (R77). Pattern opcode RINT rounds a to an integral value under roundToIntegralExact. -/
  | rint (w : Nat)
  /-- QNT (R83). Pattern opcode QNT quantises a with scale b and threshold c into a weight-format output. -/
  | qnt (w : Nat)
  /-- IADD (R167). Pattern opcode IADD writes a + b modulo 2^32. -/
  | iadd (w : Nat)
  /-- ISUB (R167). Pattern opcode ISUB writes a − b modulo 2^32. -/
  | isub (w : Nat)
  /-- IMUL (R167). Pattern opcode IMUL writes the low 32 bits of a × b. -/
  | imul (w : Nat)
  /-- AND (R167). Pattern opcode AND writes the bitwise AND of a and b. -/
  | and (w : Nat)
  /-- OR (R167). Pattern opcode OR writes the bitwise OR of a and b. -/
  | or (w : Nat)
  /-- XOR (R167). Pattern opcode XOR writes the bitwise XOR of a and b. -/
  | xor (w : Nat)
  /-- SHL (R166). Pattern opcode SHL shifts a left by b mod 32. -/
  | shl (w : Nat)
  /-- SHR (R166). Pattern opcode SHR shifts a logically right by b mod 32. -/
  | shr (w : Nat)
  /-- SRA (R166). Pattern opcode SRA shifts a arithmetically right by b mod 32. -/
  | sra (w : Nat)
  /-- IMIN (R166). Pattern opcode IMIN writes the signed or unsigned minimum by TYPE. -/
  | imin (w : Nat)
  /-- IMAX (R166). Pattern opcode IMAX writes the signed or unsigned maximum by TYPE. -/
  | imax (w : Nat)
  /-- EXP2 (R169). Pattern opcode EXP2 writes 2^a within the bound of Table 6-9. -/
  | exp2 (w : Nat)
  /-- EXP (R169). Pattern opcode EXP writes e^a within the bound of Table 6-9. -/
  | exp (w : Nat)
  /-- LOG2 (R169). Pattern opcode LOG2 writes log₂ a within the bound of Table 6-9. -/
  | log2 (w : Nat)
  /-- LOG (R169). Pattern opcode LOG writes ln a within the bound of Table 6-9. -/
  | log (w : Nat)
  /-- RCP (R169). Pattern opcode RCP writes 1 / a within 1 ulp. -/
  | rcp (w : Nat)
  /-- RSQRT (R169). Pattern opcode RSQRT writes 1 / √a within 2 ulp. -/
  | rsqrt (w : Nat)
  /-- TANH (R169). Pattern opcode TANH writes tanh a within 3 ulp. -/
  | tanh (w : Nat)
  /-- SIGM (R169). Pattern opcode SIGM writes 1 / (1 + e^−a) within 3 ulp. -/
  | sigm (w : Nat)
  /-- ERF (R169). Pattern opcode ERF writes erf a within 4 ulp. -/
  | erf (w : Nat)
  /-- SIN (R169). Pattern opcode SIN writes sin a within the bound of Table 6-9. -/
  | sin (w : Nat)
  /-- COS (R169). Pattern opcode COS writes cos a within the bound of Table 6-9. -/
  | cos (w : Nat)
  /-- GATH (R170). Pattern opcode GATH reads element a of the IN1 region, reading zero with NV for an out-of-range index. -/
  | gath (w : Nat)
  /-- SCAT (R170). Pattern opcode SCAT writes b to element a of the OUT1 region, keeping the last write of duplicates. -/
  | scat (w : Nat)
  /-- LXCH (R171). Pattern opcode LXCH reads a from the lane at own index XOR b within the lane group. -/
  | lxch (w : Nat)
  /-- LSUM (R171). Pattern opcode LSUM sums a over the lane group in a pairwise tree. -/
  | lsum (w : Nat)
  /-- LSHF (R180). Aqsal opcode LSHF reads a from the lane at index b mod AQ_WIDTH in the group. -/
  | lshf (w : Nat)
  /-- VEC_REDUCTION (R173). Once the pattern has finished on every element of the commit unit, the run reduces the tile register and writes the results. -/
  | vecReduction (w : Nat)
  /-- TR_WINDOW_READ (R184). A read of the tile-register window returns elements while the wing is OFFLINE or OUT, and zero with an access error otherwise. -/
  | trWindowRead (w off width : Nat) (m : Master)
  /-- QUEUE_DOORBELL (R188). A write to QE_Q[q]_TAIL posts commands when the value is in range, or sets TAIL_ERR and reports a configuration error. -/
  | queueDoorbell (q value : Nat) (m : Master)
  /-- RHEAD_WRITE (R188). A write to QE_Q[q]_RHEAD records replies consumed, or sets RHEAD_ERR when out of range. -/
  | rheadWrite (q value : Nat) (m : Master)
  /-- COMMAND_DISPATCH (R195). When the head command's gate waits are met and its wing is available, the queue engine reads, clamps, checks and dispatches it. -/
  | commandDispatch (q : Nat)
  /-- TILE_COMMIT (R196). Once every required check has passed and earlier commands have committed, a command's staged outputs are written as one act. -/
  | tileCommit (q seq : Nat)
  /-- COMMAND_RETIRE (R198). The retire stage writes the completion record, deciding the status between completion, abort, drain and replay. -/
  | commandRetire (q seq : Nat)
  /-- GATE_SIGNAL (R201). A retired command adds SIG_INC to SIG_GATE once every earlier ORDERED command of its queue has retired. -/
  | gateSignal (q seq : Nat)
  /-- REPLY_WRITE (R205). A command's reply is written after every earlier reply of its queue, raising the queue interrupt when asked. -/
  | replyWrite (q : Nat)
  /-- QUEUE_WAIT_LONG (R203). A head command waiting longer than WAIT_MS sets WAIT_LONG and raises the queue-stall source. -/
  | queueWaitLong (q : Nat)
  /-- NOP (R193). The NOP command only waits and signals. -/
  | nop (q : Nat)
  /-- GATE_ADD (R194). The GATE_ADD command adds VALUE to a gate counter modulo 2^48. -/
  | gateAdd (q : Nat)
  /-- GATE_SET (R194). The GATE_SET command writes VALUE to a gate counter. -/
  | gateSet (q : Nat)
  /-- ABORT (R213). The ABORT command stops a target command as decided at the target's retire stage. -/
  | abort (q : Nat)
  /-- QE_GATE_VAL_WRITE (R202). A write to QE_GATE[g]_VAL sets the counter in arrival order with other updates. -/
  | qeGateValWrite (g value : Nat) (m : Master)
  /-- QE_GATE_ADD_WRITE (R202). A write to QE_GATE[g]_ADD adds its value to the counter atomically. -/
  | qeGateAddWrite (g value : Nat) (m : Master)
  /-- QUEUE_ENABLE (R185). A write of 1 to QE_Q[q]_CFG.ENABLE from DISABLED zeroes TAIL, HEAD and RHEAD and runs the queue. -/
  | queueEnable (q : Nat) (m : Master)
  /-- QUEUE_DISABLE (R215). A write of 0 to QE_Q[q]_CFG.ENABLE while running starts a finish-mode drain ending in DISABLED. -/
  | queueDisable (q : Nat) (m : Master)
  /-- QUEUE_DRAIN_FINISH (R215). A write of 1 to QE_Q[q]_STATE.DRAIN discards posted commands as DRAINED and runs dispatched ones to retire. -/
  | queueDrainFinish (q : Nat) (m : Master)
  /-- QUEUE_DRAIN_ABORT (R215). A write of 2 to QE_Q[q]_STATE.DRAIN discards posted commands and aborts dispatched ones. -/
  | queueDrainAbort (q : Nat) (m : Master)
  /-- QUEUE_DRAIN_DONE (R216). When every command covered by a drain has retired, the queue enters STOPPED or DISABLED. -/
  | queueDrainDone (q : Nat)
  /-- QUEUE_RESUME (R211). A write of 1 to QE_Q[q]_STATE.RESUME runs a queue from STOPPED or ERROR. -/
  | queueResume (q : Nat) (m : Master)
  /-- CLAMP_CLR (R224). A write of 1 to QE_Q[q]_CLAMP.CLR makes the clamp count 0. -/
  | clampClr (q : Nat) (m : Master)
  /-- WING_DRAIN_TIMEOUT (R215). Commands of a draining wing not retired within WING_DRAIN_US are replayed on its adopter. -/
  | wingDrainTimeout (w : Nat)
  /-- CHAIN_REPLAY (R219). The queue engine replays a wing's replay set in original order, retiring CHECK_FAILED after REPLAY_MAX replays. -/
  | chainReplay (w : Nat)
  /-- ADOPTION_COPY_DONE (R221). When the tile-store copy ends, the alias is set, the queues are rebound and the replay set dispatches on the adopter. -/
  | adoptionCopyDone (w : Nat)
  /-- MEM_QUAL_OVERRIDE (R227). A write of 1 to FLK[f]_MEM_QUAL.OVERRIDE in MAKER or RETURN admits stacks that failed only the identity check. -/
  | memQualOverride (f : Nat) (m : Master)
  /-- LADLE_READ (R232). A read request to a stack is served by the ladle, hitting or fetching the touched sectors, acting on its hint. -/
  | ladleRead (a n hint : Nat) (m : Master)
  /-- LADLE_WRITE (R232). A write is accepted by the ladle, allocating or merging sectors, and is then visible to every agent. -/
  | ladleWrite (a : Nat) (data : List Byte) (hint : Nat) (m : Master)
  /-- LADLE_MISS_FILL (R231). Sectors fetched from a stack for a miss arrive and are returned, allocated or passed through under the hint. -/
  | ladleMissFill (k : Nat) (errs : List Nat) (ondie : Bool)
  /-- LADLE_WRITEBACK (R235). LADLE_OP WRITEBACK writes back the dirty sectors of a range and keeps the lines. -/
  | ladleWriteback (q : Nat)
  /-- LADLE_EVICT (R235). LADLE_OP EVICT writes back and then invalidates the lines of a range. -/
  | ladleEvict (q : Nat)
  /-- LADLE_UNPROTECT (R235). LADLE_OP UNPROTECT removes protection from the lines of a range. -/
  | ladleUnprotect (q : Nat)
  /-- LADLE_PREFETCH (R235). LADLE_OP PREFETCH fetches the lines of a range with the given hint. -/
  | ladlePrefetch (q : Nat)
  /-- LADLE_ZERO (R235). LADLE_OP ZERO writes zeros to whole lines of a range without reading the stacks. -/
  | ladleZero (q : Nat)
  /-- PER_BANK_REFRESH (R225). At each refresh interval the controller issues per-bank refresh, halving the interval above 85 °C case. -/
  | perBankRefresh (k : Nat)
  /-- REFRESH_MANAGEMENT_REQUEST (R225). A refresh management request from a stack is served within the stack's window. -/
  | refreshManagementRequest (k : Nat)
  /-- STACK_TEMP_READ (R238). Every 1 ms the case temperature is read through the test port and the refresh rate and HOT state are updated. -/
  | stackTempRead (k : Nat) (temp : Int)
  /-- SCRUB_READ (R242). While SCRUB_EN is 1 the controller reads each unit once per PERIOD_H and writes back each corrected unit. -/
  | scrubRead (k : Nat) (errs : List Nat)
  /-- PARITY_ERROR (R243). A command/address or write-data parity error is retried up to three times, then the stack is retrained. -/
  | parityError (k : Nat) (retryOk : Bool)
  /-- PHY_LOCK_LOSS (R243). A PHY's loss of lock starts retraining of the stack, holding its accesses. -/
  | phyLockLoss (k : Nat)
  /-- STACK_RETRAIN_DONE (R243). Retraining ends, returning the stack to READY or, on failure, to LOST with the stack-lost source. -/
  | stackRetrainDone (k : Nat) (ok : Bool)
  /-- TURN_WRITE (R248). TURN MODE 0 transposes a forward image and writes the turned output to DST_ADDR without staging. -/
  | turnWrite (q : Nat)
  /-- TURN_ARM (R248). TURN MODE 1 copies the fields into a job slot and arms it, waiting for any open instance. -/
  | turnArm (q : Nat)
  /-- TURN_DISARM (R248). TURN MODE 2 disarms a job slot, waiting for any open instance. -/
  | turnDisarm (q : Nat)
  /-- D2D_FRAME_RECEIVE (R266). A receiver checks a frame's CRC and delivers it in SEQ order, or discards it and sends a NAK. -/
  | d2dFrameReceive (l dir x tag : Nat) (payload : List Byte) (way : FrameWay)
  /-- D2D_NAK (R266). A NAK makes the sender resend the named frame from its retry buffer on the next active slice. -/
  | d2dNak (l dir cls seq : Nat)
  /-- D2D_LINK_CONTROL (R257). A link-control frame delivers cumulative acknowledgements and credits per class to the sender. -/
  | d2dLinkControl (l dir : Nat) (acks credits : List Nat)
  /-- SLICE_RETRAIN_DONE (R267). A removed slice's retraining ends, and the slice rejoins or stays inactive until module reset. -/
  | sliceRetrainDone (l n : Nat) (ok : Bool) (repairs : List Nat) (eye : Nat)
  /-- D2D_SWITCH (R262). A write of 1 to FLK[f]_D2D_CTRL.SWITCH holds the edge, waits for empty retry buffers and changes its mode. -/
  | d2dSwitch (f : Nat) (m : Master)
  /-- D2D_MODE_CHANGE_DONE (R262). The edge's mode change completes and the senders resume. -/
  | d2dModeChangeDone (f : Nat) (work : Option EdgeWork)
  /-- D2D_LOCK_LOSS (R268). A sender PLL losing lock or a receiver losing its strobe holds the edge and retrains it. -/
  | d2dLockLoss (f : Nat)
  /-- EDGE_RETRAIN_DONE (R268). An edge retraining ends, resuming traffic or falling back or failing under R265. -/
  | edgeRetrainDone (f : Nat) (work : Option EdgeWork)
  /-- RING_LOCK_LOSS (R285). A ring whose lock error exceeds 8 GHz for 100 µs or whose heater reaches full code re-acquires once or becomes FAILED. -/
  | ringLockLoss (p r frame : Nat) (loss : RingLoss)
  /-- COMB_MONITOR (R288). Every 1 ms the controller measures comb bias and line powers and acts on the thresholds of Table 10-4. -/
  | combMonitor (e c bias : Nat) (temp : Int) (powers : List Int) (lasing : Bool) (frame : Nat)
  /-- LINE_SOURCE_FAIL (R288). A line power below LINE_MIN for 10 ms marks the line failed at its source and requests line swaps. -/
  | lineSourceFail (e n frame : Nat)
  /-- RX_MONITOR (R290). Every 1 ms each receiver measures OMA and error counts per line and requests line swaps per Table 10-5. -/
  | rxMonitor (p : Nat) (lines : List RxLine) (frame : Nat)
  /-- LOSS_OF_SIGNAL (R290). No frame alignment for 10 µs narrows the port at once. -/
  | lossOfSignal (p n frame : Nat)
  /-- PEER_ID (R291). A received PEER_ID message records the peer's endpoint and port for the cabling check. -/
  | peerId (p num addr port : Nat)
  /-- LSWAP_REQ (R292). A received LSWAP_REQ makes the sender send the lane on both lines from frame F and send LSWAP_DUP. -/
  | lswapReq (p num lane spare frame : Nat)
  /-- LSWAP_DUP (R292). A received LSWAP_DUP makes the receiver align to the spare and start verifying it. -/
  | lswapDup (p num lane spare f : Nat)
  /-- LSWAP_VERIFY_DONE (R292). After 32 frames of verification the receiver schedules reading from the spare at F′ and sends LSWAP_DONE, or abandons. -/
  | lswapVerifyDone (p frame : Nat) (ok : Bool)
  /-- LSWAP_DONE (R292). A received LSWAP_DONE makes the sender stop modulating the old line from F′ or the next boundary. -/
  | lswapDone (p num lane spare f : Nat)
  /-- LSWAP_CUTOVER (R292). At frame boundary F′ the receiver reads the lane from the spare and the old line is marked failed. -/
  | lswapCutover (p frame : Nat) (sender : Bool)
  /-- LSWAP_ABANDON (R293). A received LSWAP_ABANDON ends the swap, leaves the lane in place and marks a failed spare. -/
  | lswapAbandon (p num lane spare frame : Nat) (verify : Bool)
  /-- LSWAP_TIMEOUT (R293). No message from the peer for 1 ms during a swap makes either end send LSWAP_ABANDON. -/
  | lswapTimeout (p frame : Nat) (sender : Bool)
  /-- LE_LSWAP (R292). A write of 1 to LE[e]_PORT[j]_CTRL.LSWAP swaps LSWAP_LANE to a free spare. -/
  | leLswap (p lane frame : Nat) (m : Master)
  /-- NARROW_AT (R295). A received NARROW_AT schedules striping over the remaining lanes from frame F. -/
  | narrowAt (p num : Nat) (lanes : List Nat) (f : Nat)
  /-- WIDEN_AT (R295). A received WIDEN_AT schedules restoring a lane from frame F. -/
  | widenAt (p num : Nat) (lanes : List Nat) (f : Nat)
  /-- STRIPE_CHANGE (R295). At frame F both ends stripe over the named lane set and the port reports its lane count, going DOWN below MIN_LANES. -/
  | stripeChange (p : Nat)
  /-- COMB_SWAP (R294). A write of 1 to LE[e]_CTRL.COMB_SWAP, or a threshold, lights the standby comb to replace the active one. -/
  | combSwap (e frame : Nat) (requested : Bool)
  /-- COMB_LOCKED (R286). A standby comb offset-locked for 10 ms enters LOCKED, and the swap checks line powers and sends CSWAP_AT. -/
  | combLocked (e c frame : Nat)
  /-- COMB_LOCK_TIMEOUT (R294). A standby that cannot lock within 500 ms refuses the swap and sets SWAP_REFUSED. -/
  | combLockTimeout (e : Nat)
  /-- CSWAP_AT (R291). A received CSWAP_AT tells the peer to ignore failing codewords in frame F of the comb cut-over. -/
  | cswapAt (p num f : Nat)
  /-- COMB_CUTOVER (R294). At frame F the port's selector switches comb, and after both ports the old comb goes dark. -/
  | combCutover (p frame : Nat)
  /-- LANE_ACK (R291). A received ACK with a message number stops the repetition of that lane-control message. -/
  | laneAck (p num : Nat)
  /-- PORT_OFF (R298). A received PORT_OFF tells the receiver that the sender is disabling the port. -/
  | portOff (p num : Nat)
  /-- PORT_DISABLE (R298). A write of 1 to LE[e]_PORT[j]_CTRL.DISABLE drains the port and sends PORT_OFF. -/
  | portDisable (p : Nat) (m : Master)
  /-- PORT_ENABLE (R298). A write of 0 to LE[e]_PORT[j]_CTRL.DISABLE returns the port to TRAIN. -/
  | portEnable (p : Nat) (m : Master)
  /-- PORT_DRAIN_DONE (R298). When every cell in the retry buffer is acknowledged, or DRAIN_US elapses, the port sends PORT_OFF and enters DISABLED. -/
  | portDrainDone (p : Nat)
  /-- LE_ENABLE_WRITE (R298). A write to LE[e]_CTRL.ENABLE is refused unless both ports are DISABLED, OFF or DOWN; at 0 both combs go dark. -/
  | leEnableWrite (e value : Nat) (m : Master)
  /-- LE_THRESH_WRITE (R288). A write to LE[e]_THRESH that breaks BIAS_WARN < BIAS_SWAP < 160 % is refused as a configuration error. -/
  | leThreshWrite (e value : Nat) (m : Master)
  /-- LINK_UNIT_RECEIVE (R308). A received link unit is accepted when its CRC is good and its LSEQ expected, otherwise discarded with a NAK. -/
  | linkUnitReceive (p : Nat) (u : LinkUnit) (way : UnitWay)
  /-- LINK_NAK (R308). A NAK makes the link sender resend from the named LSEQ in order. -/
  | linkNak (p lseq : Nat)
  /-- LINK_RESEND_TIMEOUT (R308). When LACK has not advanced for 20 µs the sender resends from the oldest unit, entering LINK_FAIL after 16 resends. -/
  | linkResendTimeout (p : Nat)
  /-- LINK_CONTROL_UNIT (R307). At least once every 256 units the sender emits a link-control unit with a NAK value and the credit counts. -/
  | linkControlUnit (p : Nat)
  /-- CELL_ROUTE (R316). A router chooses the output for an arriving cell from its bank's tables and the rank rule, or ejects or discards it. -/
  | cellRoute (p v : Nat)
  /-- PORT_USABILITY_CHANGE (R317). A change of a port's usability takes effect in the router within 1 µs, turning routes to ALT. -/
  | portUsabilityChange (p : Nat)
  /-- E2E_DATA_RECEIVE (R323). A receiver accepts, opens an entry for, duplicates, resets or discards an arriving DATA cell. -/
  | e2eDataReceive (c : Nat)
  /-- E2E_CLOSE_RECEIVE (R323). An accepted CLOSE frees the receiver's entry, and a CLOSE without entry is answered ACK. -/
  | e2eCloseReceive (c : Nat)
  /-- E2E_ACK_RECEIVE (R326). An ACK advances the sender's window, frees acknowledged cells and resets the retransmission time. -/
  | e2eAckReceive (c : Nat)
  /-- E2E_RESET_RECEIVE (R324). A RESET with the current INC reopens the entry with a new INC and resends from the oldest unacknowledged cell. -/
  | e2eResetReceive (c : Nat)
  /-- E2E_ACK_DELAY_EXPIRE (R324). ACK_DELAY_NS after the first unacknowledged acceptance, the receiver sends an ACK. -/
  | e2eAckDelayExpire (peer c group : Nat)
  /-- E2E_RETRANSMIT (R326). When no acknowledgement has advanced for the retransmission time the sender resends all unacknowledged cells and doubles the time. -/
  | e2eRetransmit (peer c : Nat) (mc : Bool)
  /-- PEER_EVICT (R322). An entry idle for EVICT_US, or needed for space, sends CLOSE in each class and is freed once acknowledged. -/
  | peerEvict (peer : Nat)
  /-- RT_LOAD (R319). A write of 1 to FAB_RT_CTRL.LOAD moves the non-CURRENT bank from IDLE to LOADING, or sets REFUSED. -/
  | rtLoad (m : Master)
  /-- RT_ARM (R319). A write of 1 to FAB_RT_CTRL.ARM moves a LOADING bank to READY, or sets REFUSED. -/
  | rtArm (m : Master)
  /-- RT_FLIP (R319). A write of 1 to FAB_RT_CTRL.FLIP makes the READY bank CURRENT and the old one DRAINING, or sets REFUSED. -/
  | rtFlip (m : Master)
  /-- RT_BANK_DRAINED (R318). A DRAINING bank whose occupancy count reaches zero becomes IDLE. -/
  | rtBankDrained (b : Nat)
  /-- RT_ENTRY_WRITE (R319). A write to a routing-table entry updates all four copies while the bank is LOADING, or is ignored with a configuration error. -/
  | rtEntryWrite (b : Nat) (loc : Bool) (r value : Nat) (m : Master)
  /-- FAB_ADDR_WRITE (R334). A write to FAB_ADDR sets RACK and RACKS, recomputes every EXPECT, or is refused as a configuration error. -/
  | fabAddrWrite (value : Nat) (m : Master)
  /-- FAB_ENABLE (R334). A write to FAB_CTRL.ENABLE starts or stops forwarding and injection, ignored while RACK_VALID is 0. -/
  | fabEnable (value : Nat) (m : Master)
  /-- PEER_CLEAR (R327). A write to FAB_PEER_CLR makes the named peer no longer unreachable. -/
  | peerClear (peer : Nat) (m : Master)
  /-- CABLE_ACCEPT (R332). A write of 1 to FAB_PORT[k]_CHECK.ACCEPT makes a MISMATCH, SWAP or UNPLANNED port usable until it retrains. -/
  | cableAccept (p : Nat) (m : Master)
  /-- CABLE_RECHECK (R330). A write of 1 to FAB_PORT[k]_CHECK.RECHECK evaluates the check again against the present EXPECT. -/
  | cableRecheck (p : Nat) (m : Master)
  /-- FENCE (R328). The FENCE command records next sequences for its scope and completes when all are acknowledged. -/
  | fence (q : Nat)
  /-- FENCE_TIMEOUT (R329). A FENCE whose TIMEOUT_US elapses first completes FENCE_TIMEOUT. -/
  | fenceTimeout (q seq : Nat)
  /-- TRAY_LOAD (R338). A core load to a tray address sends one request to the home and waits for the data. -/
  | trayLoad (h a n : Nat) (cached : Bool)
  /-- TRAY_STORE (R338). A core store to a tray address is posted and complete when the home ladle accepts it. -/
  | trayStore (h a : Nat) (data : List Byte) (cached : Bool)
  /-- TRAY_ATOMIC (R341). A core atomic on a tray address executes indivisibly at the home Flask and returns the old value. -/
  | trayAtomic (h a n : Nat) (o : CoreAmo) (operand compare : Nat)
  /-- CORE_FENCE (R340). A RISC-V FENCE with W or O in its predecessor set completes when the hart's earlier tray stores and atomics are complete. -/
  | coreFence (h : Nat) (pred : Bool)
  /-- CORE_LOCAL_ATOMIC (R385). A core atomic or LR/SC on the module's own memory executes in cache, at the home Flask, or faults as Table 14-24 decides. -/
  | coreLocalAtomic (h a n : Nat) (o : CoreAmo) (operand compare : Nat)
  /-- READ (R346). A READ descriptor cell reads up to 64 bytes at the home and replies DATA. -/
  | read (src : Nat)
  /-- READ_LINE (R345). A READ_LINE request recalls any owner and adds the requester as SHARED holder of the granule. -/
  | readLine (src : Nat)
  /-- READ_OWN (R345). A READ_OWN request invalidates other holders, recalls the owner and makes the requester OWNER. -/
  | readOwn (src : Nat)
  /-- WRITE (R345). A WRITE request invalidates holders, recalls the owner and is accepted at the home ladle. -/
  | write (src : Nat)
  /-- WRITE_BURST (R346). A WRITE_BURST descriptor and its data cells are written at the home for consecutive addresses. -/
  | writeBurst (src : Nat)
  /-- ATOMIC (R341). An ATOMIC descriptor cell executes at its home as one indivisible access and replies with the old value. -/
  | atomic (src : Nat)
  /-- WRITEBACK (R345). A WRITEBACK from the owner is accepted at the home and removes the directory entry. -/
  | writeback (src : Nat)
  /-- INVAL (R345). An INVAL makes a holder drop its copy, writing back dirty data, and answer INVAL_ACK. -/
  | inval (src : Nat)
  /-- INVAL_ACK (R345). An INVAL_ACK tells the home that a holder has dropped the granule. -/
  | invalAck (src : Nat)
  /-- TRAY_DATA_REPLY (R346). A DATA reply delivers read data or an old atomic value to the requester. -/
  | trayDataReply (src : Nat)
  /-- TRAY_REFUSED (R353). A REFUSED reply makes a core access fault or a COPY complete COPY_REFUSED_REMOTE. -/
  | trayRefused (src : Nat)
  /-- ARRIVE (R347). An ARRIVE adds its increment to a gate once every earlier request cell from its source is in the home ladle. -/
  | arrive (src : Nat)
  /-- JOIN (R354). A received JOIN sets the slot's PEERS bit when passed both ways, treating an earlier peer as departed. -/
  | join (src : Nat)
  /-- LEAVE (R356). A received LEAVE clears the peer's PEERS bit. -/
  | leave (src : Nat)
  /-- TRAY_JOIN_START (R354). A write of 1 to TRY_CTRL.ENABLE in OFF sends JOIN to the other slots and enters ON. -/
  | trayJoinStart (m : Master)
  /-- TRAY_LEAVE_START (R355). A write of 0 to TRY_CTRL.ENABLE in ON starts LEAVING, refusing new accesses and recalling granules. -/
  | trayLeaveStart (m : Master)
  /-- TRAY_LEAVE_DONE (R355). When accepted requests complete and granules are recalled and dropped, LEAVE is sent and the module enters OFF. -/
  | trayLeaveDone
  /-- TRY_WIN_WRITE (R358). A write to TRY_WIN sets the coherent window in OFF, or is refused as a configuration error. -/
  | tryWinWrite (value : Nat) (m : Master)
  /-- COPY_LINEAR (R348). COPY MODE LINEAR moves one row from the source to the destination. -/
  | copyLinear (q : Nat)
  /-- COPY_STRIDED (R348). COPY MODE STRIDED moves ROWS rows at source and destination pitches. -/
  | copyStrided (q : Nat)
  /-- COPY_GATHER (R348). COPY MODE GATHER moves source rows chosen by an index list to consecutive destination rows. -/
  | copyGather (q : Nat)
  /-- COPY_SCATTER (R348). COPY MODE SCATTER moves consecutive source rows to destination rows chosen by an index list. -/
  | copyScatter (q : Nat)
  /-- COPY_ATOMIC (R348). COPY MODE ATOMIC performs one atomic at the destination and writes the old value locally. -/
  | copyAtomic (q : Nat)
  /-- GROUP_ENABLE (R360). A write of 1 to COL_GRP[g]_CTRL.ENABLE validates the group and makes it ACTIVE, or sets CFG_ERR. -/
  | groupEnable (g : Nat) (m : Master)
  /-- GROUP_DISABLE (R378). A write of 1 to COL_GRP[g]_CTRL.DISABLE puts the group into DRAINING. -/
  | groupDisable (g : Nat) (m : Master)
  /-- GROUP_DRAIN_TIMEOUT (R378). An instance not complete within DRAIN_US is aborted with GROUP_DRAIN and the group enters DISABLED. -/
  | groupDrainTimeout (g : Nat)
  /-- COL_GRP_CFG_WRITE (R382). A write to COL_GRP[g]_CFG or LIST while the group is not DISABLED is refused as a configuration error. -/
  | colGrpCfgWrite (g : Nat) (list : Bool) (value : Nat) (m : Master)
  /-- ALL_REDUCE (R364). COLLECTIVE ALL_REDUCE combines each half up its tree and sends the result down. -/
  | allReduce (q : Nat)
  /-- REDUCE_SCATTER (R364). COLLECTIVE REDUCE_SCATTER combines as ALL_REDUCE and each rank writes its own slice. -/
  | reduceScatter (q : Nat)
  /-- ALL_GATHER (R364). COLLECTIVE ALL_GATHER gathers slices up each tree and sends them down. -/
  | allGather (q : Nat)
  /-- REDUCE (R364). COLLECTIVE REDUCE combines each half up its tree and sends it to ROOT. -/
  | reduce (q : Nat)
  /-- BROADCAST (R364). COLLECTIVE BROADCAST sends ROOT's buffer to each tree root and down the tree. -/
  | broadcast (q : Nat)
  /-- BARRIER (R364). COLLECTIVE BARRIER sends signature cells only, up tree 0 and down it. -/
  | barrier (q : Nat)
  /-- COLL_SIG (R371). An arriving SIG cell is compared for signature, N and sender rank, starting a mismatch abort on any difference. -/
  | collSig (src gid : Nat)
  /-- COLL_DATA (R372). An arriving collective DATA cell is combined or forwarded and written under the operation's path. -/
  | collData (src gid : Nat)
  /-- COLL_END (R372). An arriving END cell closes an edge's half and carries the OR of flags. -/
  | collEnd (src gid : Nat)
  /-- COLL_ABORT (R374). An arriving ABORT cell stops the instance, is forwarded to other neighbours, or is recorded or discarded. -/
  | collAbort (src gid : Nat)
  /-- COLL_TIMEOUT (R375). A collective whose TIMEOUT_US elapses starts an abort with reason TIMEOUT. -/
  | collTimeout (q seq : Nat)
  /-- COLL_STAGE_EXPIRE (R379). Staged cells whose GID has named no ACTIVE group for STAGE_MS are discarded and acknowledged. -/
  | collStageExpire (gid : Nat)
  /-- STEP_COMMIT (R471). The STEP_COMMIT command snapshots the taint and runs the commit agreement as an instance of its group. -/
  | stepCommit (q : Nat)
  /-- PUSH (R469). BUDDY_PUSH MODE PUSH writes the generation header, records and range data to the buddy's aperture and marks it COMPLETE. -/
  | push (q : Nat)
  /-- RESTORE (R478). BUDDY_PUSH MODE RESTORE copies every range of a complete generation to TARGET, or retires RESTORE_MISSING. -/
  | restore (q : Nat)
  /-- BUDDY_TIMEOUT (R482). A PUSH or RESTORE whose TIMEOUT_US elapses retires BUDDY_FAILED. -/
  | buddyTimeout (q seq : Nat)
  /-- TAINT_SET (R470). A write of 1 to CRU_RES_CTRL.TAINT sets taint bit 7. -/
  | taintSet (m : Master)
  /-- LAST_WRITE (R477). A write of CRU_RES_COMMIT.LAST commits the held generation of that step and clears UNRESOLVED, or is refused. -/
  | lastWrite (value : Nat) (m : Master)
  /-- RES_CTRL_WRITE (R462). A write to CRU_RES_CTRL sets ENABLE and BUDDY, or is refused for an illegal buddy. -/
  | resCtrlWrite (value : Nat) (m : Master)
  /-- CRU_RESET_MODULE (R397). A write of 1 to CRU_RESET.MODULE starts a module reset. -/
  | cruResetModule (m : Master)
  /-- BOOT_STAGE_ADVANCE (R399). When a boot stage's work completes the keel firmware records and starts the next stage, or stops in stage 15. -/
  | bootStageAdvance (work : BootWork)
  /-- IDENT (R428). The IDENT management command returns part, state, address and the device certificate chain. -/
  | ident (h : MgtHdr)
  /-- HELLO (R404). A HELLO verifies the client certificate and replies with the module's key, nonce, session and signature, or DENIED or BUSY. -/
  | hello (h : MgtHdr) (key nonce cert : List Byte)
  /-- FINISH (R404). A FINISH completes session opening with the client's signature and derives the session keys. -/
  | finish (h : MgtHdr) (sig : List Byte)
  /-- STATUS (R410). The STATUS command returns the body of Table 14-10. -/
  | status (h : MgtHdr)
  /-- READ_REG (R407). The READ_REG command performs one 64-bit control-space read. -/
  | readReg (h : MgtHdr) (addr : Nat)
  /-- WRITE_REG (R407). The WRITE_REG command performs one 64-bit control-space write and replies after it completes. -/
  | writeReg (h : MgtHdr) (addr value : Nat)
  /-- READ_LOG (R406). The READ_LOG command returns up to 1 KiB of the wear log or Eyespot log. -/
  | readLog (h : MgtHdr) (eye : Bool) (first count : Nat)
  /-- TIME_SYNC_MEASURE (R406). TIME_SYNC MEASURE returns the PHY timestamps t2 and t3. -/
  | timeSyncMeasure (h : MgtHdr)
  /-- TIME_SYNC_ADJUST (R395). TIME_SYNC ADJUST slews or steps the time base by the given offset. -/
  | timeSyncAdjust (h : MgtHdr) (offset : Int)
  /-- SLEW_DONE (R395). When the slewed offset is absorbed the time base state becomes SYNCED. -/
  | slewDone
  /-- MGT_RESET (R406). The management RESET command replies and then begins a module reset or a restart from STOPPED or TRIPPED. -/
  | mgtReset (h : MgtHdr)
  /-- POWER_CAP (R495). The POWER_CAP command sets the power cap, clamped to 1,200–2,600 W. -/
  | powerCap (h : MgtHdr) (watts : Nat)
  /-- IMAGE_BEGIN (R423). IMAGE BEGIN opens a transfer into the class's inactive slot, or is answered BUSY. -/
  | imageBegin (h : MgtHdr) (cls total : Nat)
  /-- IMAGE_CHUNK (R423). IMAGE CHUNK appends data at the expected offset, or is answered BAD_REQ. -/
  | imageChunk (h : MgtHdr) (cls offset : Nat) (data : List Byte)
  /-- IMAGE_END (R421). IMAGE END verifies the object and makes it PENDING or acts on it, or answers DENIED with the cause. -/
  | imageEnd (h : MgtHdr) (cls : Nat)
  /-- IMAGE_CANCEL (R423). IMAGE CANCEL discards the open transfer. -/
  | imageCancel (h : MgtHdr) (cls : Nat)
  /-- IMAGE_TRANSFER_TIMEOUT (R423). A transfer with no command for 60 s is discarded. -/
  | imageTransferTimeout
  /-- BYE (R405). The BYE command closes the session after its reply. -/
  | bye (h : MgtHdr)
  /-- SESSION_IDLE_CLOSE (R405). A session idle for 300 s closes. -/
  | sessionIdleClose (session : Nat)
  /-- ATTEST_START (R429). A write of 1 to SEC_ATT[k]_CTRL.START begins a report, or sets REFUSED while BUSY or ZEROISING. -/
  | attestStart (k : Nat) (m : Master)
  /-- ATTEST_DONE (R430). The keel firmware fills the signed attestation report and sets DONE. -/
  | attestDone (k : Nat)
  /-- MGT_FRAGMENT_RECEIVE (R411). A management-class fabric cell for the service processor is reassembled into a management message. -/
  | mgtFragmentReceive (src : Nat)
  /-- MGT_FRAGMENT_TIMEOUT (R411). Fragments of a message not completed within 10 ms are discarded. -/
  | mgtFragmentTimeout (src num : Nat)
  /-- OS_FRAME_RECEIVE (R408). A received frame not for management, neighbour discovery or echo enters the OS receive ring, or is discarded when full. -/
  | osFrameReceive (frame : List Byte) (control full : Bool)
  /-- OS_FRAME_TRANSMIT (R408). A frame from the OS transmit ring is sent on the lane below management traffic. -/
  | osFrameTransmit (n : Nat)
  /-- ROUTER_ADVERTISEMENT (R402). A router advertisement forms up to four autoconfigured addresses. -/
  | routerAdvertisement (pre : List Byte) (ext : Bool)
  /-- NEIGHBOUR_DISCOVERY (R402). A neighbour discovery message is answered by the management port. -/
  | neighbourDiscovery (target : List Byte) (ext : Bool)
  /-- ICMPV6_ECHO (R402). An ICMPv6 echo request is answered. -/
  | icmpv6Echo (target data : List Byte) (ext : Bool)
  /-- SMB_READ_IDENTITY (R413). SMBus command 0x00 returns CRU_ID[31:0] and the fused serial. -/
  | smbReadIdentity (pec : Bool)
  /-- SMB_READ_STATUS (R413). SMBus command 0x01 returns STATUS bytes 8–19 and 48–51. -/
  | smbReadStatus (pec : Bool)
  /-- SMB_READ_POWER (R413). SMBus command 0x02 returns the input power. -/
  | smbReadPower (pec : Bool)
  /-- SMB_READ_TJ (R413). SMBus command 0x03 returns TJ_MAX. -/
  | smbReadTj (pec : Bool)
  /-- SMB_STOP_REQUEST (R413). SMBus command 0x10 with value 0xA5 requests an orderly stop, or sets STOP_IGNORED outside ON. -/
  | smbStopRequest (value : Nat) (pec : Bool)
  /-- SOURCE_OCCURRENCE (R443). An Eyespot source occurrence is counted, recorded and captured, and starts threshold reactions when COUNT reaches THRESH. -/
  | sourceOccurrence (n addr : Nat) (master : Nat) (atype : Nat)
  /-- QUIET_EXPIRE (R447). After QUIET_MS a source leaves QUIET, counts a recovery, and returns to IDLE or latches. -/
  | quietExpire (n : Nat)
  /-- COUNT_WINDOW_EXPIRE (R443). WINDOW_H powered hours after the first counted occurrence, COUNT returns to 0. -/
  | countWindowExpire (n : Nat)
  /-- SOURCE_UNLATCH (R449). A write of 0 to EYE_SRC[n]_STAT.LATCHED unlatches the source and clears its exit times. -/
  | sourceUnlatch (n : Nat) (m : Master)
  /-- SOURCE_LATCH (R449). A write of 1 to EYE_SRC[n]_STAT.LATCHED latches the source at once and raises source 83/10. -/
  | sourceLatch (n : Nat) (m : Master)
  /-- EYE_SRC_CFG_WRITE (R445). A write to EYE_SRC[n]_CFG sets reactions and threshold, refusing illegal PIN codes and unauthorised masters. -/
  | eyeSrcCfgWrite (n value : Nat) (m : Master)
  /-- LOG_RECORD_MOVE (R452). The keel firmware moves each Eyespot record into the non-volatile log within 10 ms. -/
  | logRecordMove
  /-- ALERT_PULSE_END (R454). After the 2 ms minimum an alert pin is released unless its HOLD field is 1. -/
  | alertPulseEnd (sec : Bool)
  /-- EYE_PIN_HOLD_WRITE (R454). A class-5 write of ALERT_HOLD or SECALERT_HOLD holds or releases the alert pin at once. -/
  | eyePinHoldWrite (alert sec : Nat) (m : Master)
  /-- KEEL_KICK (R455). A write of 1 to EYE_KICK.KEEL from the service processor restarts the keel watchdog. -/
  | keelKick (m : Master)
  /-- OS_KICK (R455). A write of 1 to EYE_KICK.OS restarts the OS watchdog interval. -/
  | osKick (m : Master)
  /-- KEEL_WATCHDOG_EXPIRE (R455). 200 ms without a keel kick asserts source 83/8. -/
  | keelWatchdogExpire
  /-- OS_WATCHDOG_EXPIRE (R455). An OS_MS interval without an OS kick raises source 83/9. -/
  | osWatchdogExpire
  /-- INJECTION_ARM (R457). A write of 1 to EYE_INJ_CTRL.ARM arms an injection in MAKER, DEPLOYED or RETURN, or is a violation. -/
  | injectionArm (m : Master)
  /-- SWEEP_STRESS_POINT (R458). When the wing's Tj and VCORE return to the last mismatch's values, the sweep takes the wing into TEMPER and runs. -/
  | sweepStressPoint (w a : Nat)
  /-- SWEEP_ABANDON (R458). A sweep whose stress point has not recurred within WINDOW_H is abandoned and logged. -/
  | sweepAbandon (w a : Nat)
  /-- SWEEP_END (R459). A sweep ends PASS, THIN or FAIL, acts on the result and raises the wing's sweep source. -/
  | sweepEnd (w a : Nat)
  /-- INPUT_VALID (R488). Input within 40–60 V for 10 ms raises VSTBY, samples the straps and starts the power-on sequence. -/
  | inputValid (straps : Nat)
  /-- RAIL_POWER_GOOD (R488). When every rail of a power-up step reaches power-good the next step is enabled, or the sequence fails after 2 ms. -/
  | railPowerGood (bad : Option Nat)
  /-- RAIL_FAULT (R506). Loss of power-good or overcurrent on a rail in ON cuts the main rails and raises source 85/5. -/
  | railFault (r : Nat)
  /-- INPUT_SAMPLE (R490). Every 10 µs input voltage and current are sampled, starting the power-fail stop below 38 V. -/
  | inputSample (mv avg : Nat) (rails : List (Nat × Nat × Nat))
  /-- INPUT_OUT_OF_RANGE (R503). Input outside 40–60 V for 1 ms starts an orderly stop with trigger 4. -/
  | inputOutOfRange
  /-- THERMAL_SENSOR_UPDATE (R491). A sensor update computes the rate and compares readings with the temperature thresholds of Table 18-4. -/
  | thermalSensorUpdate (n : Nat) (reading : Reading)
  /-- SENSOR_STALE (R492). A die sensor that stops updating for 1 ms is marked FAILED and raises source 84/11. -/
  | sensorStale (n : Nat)
  /-- SENSOR_MAX_CLR (R508). A write of 1 to THM_SENS[n].MAX_CLR makes MAX take TEMP. -/
  | sensorMaxClr (n : Nat) (m : Master)
  /-- SETPOINT_SETTLE (R494). A requested VCORE change settles within 50 + 25n µs, restarting any temper measurement on the rail. -/
  | setpointSettle (r : Nat)
  /-- POWER_CONTROL_TICK (R495). The power controller lowers or raises its shared request at most one step per 1 ms, holding wings when at the floor. -/
  | powerControlTick (watts fit : Nat) (tick : TickData)
  /-- PWR_CAP_WRITE (R495). A write to PWR_CAP.CAP_W sets the cap, storing the nearest bound outside 1,200–2,600 W. -/
  | pwrCapWrite (value : Nat) (m : Master)
  /-- PWR_PEAK_CLR (R508). A write of 1 to PWR_IN.PEAK_CLR makes PEAK_W 0. -/
  | pwrPeakClr (m : Master)
  /-- THROTTLE_STEP (R497). While a rail's Tj is at THROTTLE, each 1 ms the thermal request falls one step or holds the wings further. -/
  | throttleStep (r : Nat)
  /-- THROTTLE_RECOVER_STEP (R497). Once the rail's Tj is below 97 °C, holds are released and the request rises one step every 10 ms. -/
  | throttleRecoverStep (r : Nat)
  /-- TRIP (R498). A die sensor reaching TRIP makes the hardware turn off every main rail within 100 µs and enter TRIPPED. -/
  | trip (n : Nat)
  /-- DTDT_HOLD_EXPIRE (R499). After the rate stays below threshold for DTDT_HOLD_MS the lowered request returns. -/
  | dtdtHoldExpire (r : Nat)
  /-- COLD_HOLD_CHECK (R500). Every 100 ms in cold hold the module checks whether any die sensor is still below −10 °C. -/
  | coldHoldCheck
  /-- BASK_TIMEOUT (R502). HEATING for TIMEOUT_S in total raises source 84/7 and stops the boot in stage 15. -/
  | baskTimeout
  /-- PWR_STOP (R503). A write of 1 to PWR_STATE.STOP starts an orderly stop with trigger 7. -/
  | pwrStop (m : Master)
  /-- STOP_ABORT_POINT (R504). 4 ms into an orderly stop unretired commands are aborted and every light-engine port is disabled. -/
  | stopAbortPoint
  /-- POWER_DOWN (R489). At stop completion stacks enter self-refresh and the main rails go off in order, leaving STOPPED. -/
  | powerDown
  /-- AUTO_RESTART (R505). With AUTO_RESTART 1, once restart conditions have held 10 s, the module leaves STOPPED or TRIPPED and boots. -/
  | autoRestart
  /-- RESET_N_LOW (R514). RESET_N going low in stage 2 or later holds the module in module reset. -/
  | resetNLow
  /-- RESET_N_HIGH (R514). RESET_N rising releases the module to run the boot from stage 2. -/
  | resetNHigh
  /-- REFCLK_LOSS (R518). Loss or drift of the reference clock unlocks every clocked island and leaves the time base FREE. -/
  | refclkLoss
  /-- INPUT_LOSS (R517). Loss of input, including withdrawal, runs the power-fail stop on the hold-up store or drops all rails before stage 11. -/
  | inputLoss
  /-- RING_ACQUISITION_DONE (R284). The rings of a port finish acquiring their lines and the port PHY trains its electrical lanes, moving the port from ACQUIRE to TRAIN. -/
  | ringAcquisitionDone (p frame : Nat) (crossings : List (List (Nat × Nat)))
  /-- PEER_ALIGNED (R297). The receiver of a port in TRAIN gains frame alignment with its peer's frames, and the port enters UP or NARROW. -/
  | peerAligned (p : Nat) (lines : List (Nat × Nat))
  /-- HEATER_LIMIT (R285). A ring heater passes 95 % of full code, and the HEATER_LIMIT event is raised. -/
  | heaterLimit (p r : Nat) (heat : HeaterData)
  /-- MGT_LINK_CHANGE (R401). The management lane completes training and FEC alignment, or loses it, and CRU_MGT_STAT.LINK_UP changes. -/
  | mgtLinkChange (up : Bool)
  /-- REFCLK_RETURN (R518). The 100 MHz reference returns within tolerance after a loss, so that the clocked islands can lock again. -/
  | refclkReturn
  /-- FACTORY_TEST_PROGRAM (R432). The factory test program, acting over the debug interface, moves the module from BLANK to MAKER. -/
  | factoryTestProgram (cert : Bool) (images : List (Nat × List Byte))
  deriving DecidableEq, Repr

end Sys2Proof
end

