-- ==== Sys2Proof/Machine/Maps.lean ====
section
/-! DEFINITION. Association lists: the plain-data maps of the state, with one reading and one writing function. -/

namespace Sys2Proof.Machine

/-- The entry of a key, if there is one. -/
def mget {κ ν : Type} [DecidableEq κ] (m : List (κ × ν)) (k : κ) : Option ν :=
  match m with
  | [] => none
  | (x, v) :: t => if x = k then some v else mget t k

/-- The entry of a key, or the value an absent key stands for. -/
def mgetD {κ ν : Type} [DecidableEq κ] (m : List (κ × ν)) (k : κ) (d : ν) : ν := (mget m k).getD d

/-- Writing a key: its entry is replaced in place, or a new one is put last. -/
def mset {κ ν : Type} [DecidableEq κ] (m : List (κ × ν)) (k : κ) (v : ν) : List (κ × ν) :=
  match m with
  | [] => [(k, v)]
  | (x, y) :: t => if x = k then (k, v) :: t else (x, y) :: mset t k v

/-- Removing a key. -/
def mdel {κ ν : Type} [DecidableEq κ] (m : List (κ × ν)) (k : κ) : List (κ × ν) := m.filter fun p => p.1 ≠ k

/-- The list with the value at position `i` replaced. -/
def listSet {α : Type} : List α → Nat → α → List α
  | [], _, _ => []
  | _ :: t, 0, v => v :: t
  | x :: t, i + 1, v => x :: listSet t i v

/-- The first `n` numbers from `a`. -/
def natRange (a n : Nat) : List Nat := (List.range n).map (a + ·)

/-- Repeating an operation over a list of indices. -/
def foldS {α σ : Type} (xs : List α) (f : α → σ → σ) (s : σ) : σ := xs.foldl (fun s x => f x s) s

end Sys2Proof.Machine
end

