-- ==== Sys2Proof/Config.lean ====
section
/-! DEFINITION. What one module fixes and the spec leaves open: the free values, the fuse map, the ladle's set hash, and the
cryptographic functions the spec takes from other standards. Each is opaque: nothing in Lean can evaluate it, so a
statement about it holds for every value. -/

namespace Sys2Proof.Config

/-- The n-th free value drawn (log entry 4): the value the spec calls undefined or does not state. -/
opaque freeWord : Nat → BitVec 64

/-- The word the fuse map holds for the register at a control-space address (R11; log entry 12). -/
opaque fuseWord : Nat → BitVec 64

/-- The set of the ladle that the line number of an address falls in, below 49,152: the fixed hash of R230 (log entry 13). -/
opaque ladleSet : Nat → Nat

/-- Verification of an ECDSA P-384 signature: public key, message, signature (R404, R420; log entry 14). -/
opaque ecdsaVerify : List Nat → List Nat → List Nat → Bool

/-- An ECDSA P-384 signature by the module's own key over a message (R404, R429; log entry 14). -/
opaque ecdsaSign : Nat → List Nat → List Nat

/-- SHA-384 of a message (R420; log entry 14). -/
opaque sha384 : List Nat → List Nat

/-- HMAC-SHA-384 under a key (R403; log entry 14). -/
opaque hmac384 : List Nat → List Nat → List Nat

/-- The ECDH P-384 public key of an ephemeral private value, and the shared secret with a peer's key (R404). -/
opaque ecdhPublic : Nat → List Nat
opaque ecdhShared : Nat → List Nat → List Nat

/-- One-step key derivation of SP 800-56C with SHA-384: shared secret, transcript hash, direction (R404). -/
opaque kdf : List Nat → List Nat → Nat → List Nat

/-- The upper half of the fused serial number, of which CRU_ID.SERIAL_LO holds the lower (R415; log entry 12). -/
opaque serialHi : Nat

/-- The four vendor root public keys in ROM and the ROLES of their certificates (R416, R418; log entry 14). -/
opaque vendorRoot : Nat → List Nat
opaque vendorRootRoles : Nat → Nat

/-- The alias private key that the ROM derives from the keel payload's hash, its SVN and the life-cycle state (R427). -/
opaque aliasKey : List Nat → Nat → Nat → Nat

/-- What a boot image's header names (R400), whose layout the spec does not give: load address, entry point, BASE_G, SIZE_G. -/
opaque bootLoad : List Nat → Nat
opaque bootEntry : List Nat → Nat
opaque bootBase : List Nat → Nat
opaque bootSize : List Nat → Nat

/-- The certificate chain of IDENT as bytes (R428): it ends in the ALIAS certificate of an alias key. -/
opaque certChain : Nat → List Nat

/-- The set of a Flask's directory that a granule falls in, below 8,192 (R344; log entry 13). -/
opaque dirSet : Nat → Nat

/-- Which crossing of a ring's sweep the factory calibration names: port, ring, engine temperature in °C (R284). -/
opaque ringCrossing : Nat → Nat → Int → Nat

/-- The date of manufacture that the FRU EEPROM holds, and its bytes of which Table 19-10 gives no content (R528; log entry 155). -/
opaque fruYear : Nat
opaque fruWeek : Nat
opaque fruRest : Nat → BitVec 8

/-- Whether code 0xE of a routing-table entry means no route rather than port 14: R317 gives it both meanings (log entry 29). -/
opaque codeENone : Bool

end Sys2Proof.Config
end

