-- ==== Sys2Proof/Machine/Num.lean ====
section
/-! DEFINITION. Numbers and formats: exact values, rounding, the IEEE 754 formats and the Gnois formats with their
flags (R61 to R69, R77 to R83). Values are exact dyadic numbers; a result is rounded once, by the rounding mode. -/

namespace Sys2Proof.Machine

/-! Flag byte of Table 3-7. -/
def flagNV : Nat := 1
def flagDZ : Nat := 2
def flagOF : Nat := 4
def flagUF : Nat := 8
def flagNX : Nat := 16
def flagCLAMP : Nat := 32
def flagSAT : Nat := 64
def flagFLUSH : Nat := 128

/-- Format codes of Table 3-1. -/
inductive Fmt where
  | b1 | t2 | q2 | int8 | k8e | k8m | k6 | k4 | int16 | int32 | b16 | f16 | f32 | f64
  deriving DecidableEq, Repr

/-- R61: codes 0xE and 0xF name no format. -/
def Fmt.ofCode : Nat → Option Fmt
  | 0 => some .b1 | 1 => some .t2 | 2 => some .q2 | 3 => some .int8 | 4 => some .k8e | 5 => some .k8m
  | 6 => some .k6 | 7 => some .k4 | 8 => some .int16 | 9 => some .int32 | 10 => some .b16 | 11 => some .f16
  | 12 => some .f32 | 13 => some .f64 | _ => none

/-- Bits of one element (Table 3-1; a K4 element without its block exponent). -/
def Fmt.bits : Fmt → Nat
  | .b1 => 1 | .t2 => 2 | .q2 => 2 | .int8 => 8 | .k8e => 8 | .k8m => 8 | .k6 => 6 | .k4 => 4
  | .int16 => 16 | .int32 => 32 | .b16 => 16 | .f16 => 16 | .f32 => 32 | .f64 => 64

/-- Formats the arrays take as weights (R61, Table 3-1). -/
def Fmt.isWeight : Fmt → Bool
  | .b1 => true | .t2 => true | .q2 => true | .int8 => true | .k8e => true | .k8m => true | .b16 => true | .f16 => true | _ => false

/-- The integer formats of R66. -/
def Fmt.isInt : Fmt → Bool
  | .int8 => true | .int16 => true | .int32 => true | _ => false

/-- An exact value: a NaN, an infinity, or (−1)^s × m × 2^e (a zero keeps its sign). -/
inductive FVal where
  | nan (signalling : Bool)
  | inf (s : Bool)
  | fin (s : Bool) (m : Nat) (e : Int)
  deriving DecidableEq, Repr

/-- The parameters of a binary interchange format: width, precision, least and greatest exponent. -/
structure BinFmt where
  w : Nat
  p : Nat
  emin : Int
  emax : Int
  deriving DecidableEq, Repr

def bin16 : BinFmt := ⟨16, 11, -14, 15⟩
def bin32 : BinFmt := ⟨32, 24, -126, 127⟩
def bin64 : BinFmt := ⟨64, 53, -1022, 1023⟩

/-- The canonical quiet NaN of a format (R79). -/
def BinFmt.qnan (f : BinFmt) : Nat := (2 ^ (f.w - f.p) - 1) * 2 ^ (f.p - 1) + 2 ^ (f.p - 2)
/-- The code of an infinity. -/
def BinFmt.infCode (f : BinFmt) (s : Bool) : Nat := (if s then 2 ^ (f.w - 1) else 0) + (2 ^ (f.w - f.p) - 1) * 2 ^ (f.p - 1)
/-- The code of the largest finite magnitude. -/
def BinFmt.maxCode (f : BinFmt) (s : Bool) : Nat := f.infCode s - 1

/-- The value of a code of an interchange format (R68). -/
def BinFmt.decode (f : BinFmt) (x : Nat) : FVal :=
  let s := bitsAt x (f.w - 1) 1 == 1
  let ex := bitsAt x (f.p - 1) (f.w - f.p)
  let fr := bitsAt x 0 (f.p - 1)
  if ex = 2 ^ (f.w - f.p) - 1 then
    (if fr = 0 then .inf s else .nan (decide (fr < 2 ^ (f.p - 2))))
  else if ex = 0 then .fin s fr (f.emin - (f.p - 1 : Nat))
  else .fin s (2 ^ (f.p - 1) + fr) ((ex : Int) - 1 + f.emin - (f.p - 1 : Nat))

/-- The rounding mode a 3-bit code names (Table 3-6; codes 5 to 7 act as 0). -/
inductive RM where
  | ne | tz | dn | up | na
  deriving DecidableEq, Repr

def RM.ofCode : Nat → RM
  | 1 => .tz | 2 => .dn | 3 => .up | 4 => .na | _ => .ne

/-- `m / 2^k` rounded to a whole number of units, for a value of sign `s`; `st`: the value lies above `m` by less than 1. -/
def roundShift (rm : RM) (s : Bool) (m k : Nat) (st : Bool := false) : Nat :=
  let q := m >>> k
  let r := m % 2 ^ k
  let half := 2 ^ (k - 1)
  let exact := r == 0 && !st
  let above := if k = 0 then false else decide (r > half) || (r == half && st)
  let tie := k != 0 && r == half && !st
  let upward :=
    match rm with
    | .ne => above || (tie && q % 2 == 1)
    | .na => above || tie
    | .tz => false
    | .dn => s && !exact
    | .up => !s && !exact
  if upward then q + 1 else q

/-- Number of bits of a magnitude. -/
def bitLen (m : Nat) : Nat := if m = 0 then 0 else m.log2 + 1

/-- The code of (−1)^s × M × 2^q, M below 2^p or equal to it, not below the least subnormal unit. -/
def BinFmt.pack (f : BinFmt) (s : Bool) (mm : Nat) (q : Int) : Nat :=
  let sb := if s then 2 ^ (f.w - 1) else 0
  let (mm, q) := if mm ≥ 2 ^ f.p then (mm / 2, q + 1) else (mm, q)
  if mm < 2 ^ (f.p - 1) then sb + mm
  else sb + (q + (f.p - 1 : Nat) - f.emin + 1).toNat * 2 ^ (f.p - 1) + (mm - 2 ^ (f.p - 1))

/-- (−1)^s × m × 2^e rounded once to the format, with its flags; `st`: the magnitude lies above m by less than one unit
of 2^e. Tininess is detected after rounding (R79). -/
def BinFmt.round (f : BinFmt) (rm : RM) (s : Bool) (m : Nat) (e : Int) (st : Bool := false) : Nat × Nat :=
  if m = 0 ∧ st = false then (if s then 2 ^ (f.w - 1) else 0, 0)
  else
    -- with a sticky part, work on a magnitude with guard bits so that every shift is visible
    let (m, e) := if st then (m * 2 ^ (f.p + 4), e - (f.p + 4 : Nat)) else (m, e)
    let len := bitLen m
    let qUnb : Int := e + len - f.p
    let qMin : Int := f.emin - (f.p - 1 : Nat)
    let q := if qUnb < qMin then qMin else qUnb
    let k := (q - e).toNat
    let up := (e - q).toNat
    let m1 := if q ≤ e then m <<< up else roundShift rm s m k st
    let inexact := st || (decide (q > e) && m % 2 ^ k != 0)
    -- the tininess test: rounded to p bits with an unbounded exponent
    let kU := (qUnb - e).toNat
    let mU := if qUnb ≤ e then m <<< (e - qUnb).toNat else roundShift rm s m kU st
    let tiny := decide (qUnb + (bitLen mU : Nat) - 1 < f.emin)
    let ex := q + (bitLen m1 : Nat) - 1
    if m1 ≠ 0 ∧ ex > f.emax then
      let toInf := match rm with
        | .ne => true | .na => true | .tz => false | .dn => s | .up => !s
      (if toInf then f.infCode s else f.maxCode s, flagOF ||| flagNX)
    else
      (f.pack s m1 q, (if inexact then flagNX else 0) ||| (if inexact && tiny then flagUF else 0))

/-- A value rounded once to a format; every NaN result is the canonical quiet NaN, and a signalling one raises NV. -/
def BinFmt.ofVal (f : BinFmt) (rm : RM) : FVal → Nat × Nat
  | .nan sg => (f.qnan, if sg then flagNV else 0)
  | .inf s => (f.infCode s, 0)
  | .fin s m e => f.round rm s m e

/-! ### Exact arithmetic on dyadic numbers -/

/-- Signed integer mantissa of a finite value at exponent `e0`, at or below its own. -/
def finAt (s : Bool) (m : Nat) (e e0 : Int) : Int :=
  let v : Int := (m <<< (e - e0).toNat : Nat)
  if s then -v else v

/-- The exact sum of two finite values, with the sign IEEE 754 gives a zero sum. -/
def addFin (rm : RM) (s1 : Bool) (m1 : Nat) (e1 : Int) (s2 : Bool) (m2 : Nat) (e2 : Int) : FVal :=
  let e0 := min e1 e2
  let v := finAt s1 m1 e1 e0 + finAt s2 m2 e2 e0
  if v = 0 then
    .fin (if m1 = 0 ∧ m2 = 0 ∧ s1 = s2 then s1 else decide (rm = .dn)) 0 e0
  else .fin (decide (v < 0)) v.natAbs e0

def FVal.neg : FVal → FVal
  | .nan g => .nan g
  | .inf s => .inf (!s)
  | .fin s m e => .fin (!s) m e

def FVal.abs : FVal → FVal
  | .nan g => .nan g
  | .inf _ => .inf false
  | .fin _ m e => .fin false m e

def FVal.isNan : FVal → Bool
  | .nan _ => true
  | _ => false

def FVal.isSnan : FVal → Bool
  | .nan g => g
  | _ => false

def FVal.isZero : FVal → Bool
  | .fin _ 0 _ => true
  | _ => false

def FVal.sign : FVal → Bool
  | .nan _ => false
  | .inf s => s
  | .fin s _ _ => s

/-- Flags of an invalid operation by a signalling operand. -/
def snanFlag (a b : FVal) : Nat := if a.isSnan || b.isSnan then flagNV else 0

/-- Addition (R77). -/
def FVal.add (f : BinFmt) (rm : RM) (a b : FVal) : Nat × Nat :=
  if a.isNan || b.isNan then (f.qnan, snanFlag a b) else
  match a, b with
  | .inf s, .inf t => if s = t then (f.infCode s, 0) else (f.qnan, flagNV)
  | .inf s, _ => (f.infCode s, 0)
  | _, .inf t => (f.infCode t, 0)
  | .fin s1 m1 e1, .fin s2 m2 e2 => f.ofVal rm (addFin rm s1 m1 e1 s2 m2 e2)
  | _, _ => (f.qnan, 0)

/-- The exact product of two values; `none` where it is an invalid operation. -/
def FVal.mulExact (a b : FVal) : Option FVal :=
  match a, b with
  | .inf s, .inf t => some (.inf (s != t))
  | .inf s, .fin t m _ => if m = 0 then none else some (.inf (s != t))
  | .fin s m _, .inf t => if m = 0 then none else some (.inf (s != t))
  | .fin s m e, .fin t n k => some (.fin (s != t) (m * n) (e + k))
  | .nan g, _ => some (.nan g)
  | _, .nan g => some (.nan g)

/-- Multiplication (R77), and the one rounding of SCALE (R84). -/
def FVal.mul (f : BinFmt) (rm : RM) (a b : FVal) : Nat × Nat :=
  if a.isNan || b.isNan then (f.qnan, snanFlag a b) else
  match a.mulExact b with
  | none => (f.qnan, flagNV)
  | some v => f.ofVal rm v

/-- Fused multiply-add: a × b + c with one rounding (R77). Invalid also when 0 × ∞ meets a quiet NaN c. -/
def FVal.fma (f : BinFmt) (rm : RM) (a b c : FVal) : Nat × Nat :=
  let sg := snanFlag a b ||| snanFlag c c
  if a.isNan || b.isNan then (f.qnan, sg) else
  match a.mulExact b with
  | none => (f.qnan, flagNV)
  | some p =>
    if c.isNan then (f.qnan, sg) else
    match p, c with
    | .inf s, .inf t => if s = t then (f.infCode s, 0) else (f.qnan, flagNV)
    | .inf s, _ => (f.infCode s, 0)
    | _, .inf t => (f.infCode t, 0)
    | .fin s1 m1 e1, .fin s2 m2 e2 => f.ofVal rm (addFin rm s1 m1 e1 s2 m2 e2)
    | _, _ => (f.qnan, 0)

/-- Division (R77): the quotient to more bits than any format holds, with a sticky bit. -/
def FVal.div (f : BinFmt) (rm : RM) (a b : FVal) : Nat × Nat :=
  if a.isNan || b.isNan then (f.qnan, snanFlag a b) else
  match a, b with
  | .inf _, .inf _ => (f.qnan, flagNV)
  | .inf s, .fin t _ _ => (f.infCode (s != t), 0)
  | .fin s _ _, .inf t => f.round rm (s != t) 0 0
  | .fin s m e, .fin t n k =>
    if n = 0 then (if m = 0 then (f.qnan, flagNV) else (f.infCode (s != t), flagDZ))
    else if m = 0 then f.round rm (s != t) 0 0
    else
      let sh := f.p + 4 + bitLen n
      let q := (m <<< sh) / n
      let st := (m <<< sh) % n != 0
      f.round rm (s != t) q (e - k - sh) st
  | _, _ => (f.qnan, 0)

/-- Whole square root by Newton's method from above; `fuel` bounds the steps. -/
def isqrtAux (n : Nat) : Nat → Nat → Nat
  | 0, x => x
  | fuel + 1, x =>
    let y := (x + n / x) / 2
    if y < x then isqrtAux n fuel y else x

def isqrt (n : Nat) : Nat := if n = 0 then 0 else isqrtAux n (bitLen n + 8) (2 ^ ((bitLen n + 1) / 2))

/-- Square root (R77). -/
def FVal.sqrt (f : BinFmt) (rm : RM) : FVal → Nat × Nat
  | .nan g => (f.qnan, if g then flagNV else 0)
  | .inf s => if s then (f.qnan, flagNV) else (f.infCode false, 0)
  | .fin s m e =>
    if m = 0 then f.round rm s 0 0
    else if s then (f.qnan, flagNV)
    else
      let sh := 2 * (f.p + 4)
      let sh := if (e - sh) % 2 = 0 then sh else sh + 1
      let n := m <<< sh
      let r := isqrt n
      f.round rm false r ((e - sh) / 2) (r * r != n)

/-- Three-way comparison of two values that are no NaN; zeros of either sign are equal. -/
def FVal.cmp (a b : FVal) : Ordering :=
  match a, b with
  | .inf s, .inf t => if s = t then .eq else if s then .lt else .gt
  | .inf s, _ => if s then .lt else .gt
  | _, .inf t => if t then .gt else .lt
  | .fin s1 m1 e1, .fin s2 m2 e2 =>
    let e0 := min e1 e2
    let x := finAt s1 m1 e1 e0
    let y := finAt s2 m2 e2 e0
    if x < y then .lt else if x = y then .eq else .gt
  | _, _ => .eq

/-- −0 below +0, for the minimum and maximum of IEEE 754-2019. -/
def FVal.leTotal (a b : FVal) : Bool :=
  match a.cmp b with
  | .lt => true
  | .gt => false
  | .eq => a.sign || !b.sign

/-- minimum, maximum (`number = false`), minimumNumber, maximumNumber (`number = true`). -/
def FVal.minmax (f : BinFmt) (isMin number : Bool) (a b : FVal) : Nat × Nat :=
  let fl := snanFlag a b
  if a.isNan && b.isNan then (f.qnan, fl)
  else if a.isNan || b.isNan then
    (if number then ((f.ofVal .ne (if a.isNan then b else a)).1, fl) else (f.qnan, fl))
  else
    let lo := if a.leTotal b then a else b
    let hi := if a.leTotal b then b else a
    ((f.ofVal .ne (if isMin then lo else hi)).1, 0)

/-- Nearest whole number by the rounding mode, as a signed integer. -/
def roundInt (rm : RM) (s : Bool) (m : Nat) (e : Int) : Int :=
  let n : Nat := if e ≥ 0 then m <<< e.toNat else roundShift rm s m (-e).toNat
  if s then -(n : Int) else n

/-- Whether a finite value is a whole number. -/
def isWhole (m : Nat) (e : Int) : Bool := decide (e ≥ 0) || m % 2 ^ (-e).toNat == 0

/-- roundToIntegralExact: the sign of a zero result is that of the operand. -/
def FVal.rint (f : BinFmt) (rm : RM) : FVal → Nat × Nat
  | .nan g => (f.qnan, if g then flagNV else 0)
  | .inf s => (f.infCode s, 0)
  | .fin s m e =>
    let n := roundInt rm s m e
    ((f.round .ne s n.natAbs 0).1, if isWhole m e then 0 else flagNX)

/-- A whole number as an exact value. -/
def FVal.ofInt (x : Int) : FVal := .fin (decide (x < 0)) x.natAbs 0

/-- Conversion to an integer range [lo, hi] (Table 3-8, integer rows): nearest bound and NV outside, 0 and NV for a NaN. -/
def FVal.toIntRange (rm : RM) (lo hi : Int) : FVal → Int × Nat
  | .nan _ => (0, flagNV)
  | .inf s => (if s then lo else hi, flagNV)
  | .fin s m e =>
    let n := roundInt rm s m e
    if n < lo then (lo, flagNV) else if n > hi then (hi, flagNV)
    else (n, if isWhole m e then 0 else flagNX)

/-- An integer into an integer range, exactly or at the nearest bound with NV (R167). -/
def intToRange (lo hi x : Int) : Int × Nat :=
  if x < lo then (lo, flagNV) else if x > hi then (hi, flagNV) else (x, 0)

/-! ### The small floating formats (R64, R67, R69, R81) -/

/-- A sign-exponent-fraction format without infinities: exponent bits, fraction bits, bias, code magnitude of the largest
finite value. -/
structure SmallFmt where
  eb : Nat
  fb : Nat
  bias : Int
  maxMag : Nat
  deriving DecidableEq, Repr

def smallK8e : SmallFmt := ⟨4, 3, 7, 0x7E⟩
def smallK8m : SmallFmt := ⟨5, 2, 15, 0x7B⟩
def smallK6 : SmallFmt := ⟨3, 2, 3, 0x1F⟩

/-- Reading a code: its value and the CLAMP flag of a reserved one, which reads as the largest finite value (Table 3-4). -/
def SmallFmt.read (f : SmallFmt) (x : Nat) : FVal × Nat :=
  let s := bitsAt x (f.eb + f.fb) 1 == 1
  let mag0 := bitsAt x 0 (f.eb + f.fb)
  let fl := if mag0 > f.maxMag then flagCLAMP else 0
  let mag := if mag0 > f.maxMag then f.maxMag else mag0
  let ex := bitsAt mag f.fb f.eb
  let fr := bitsAt mag 0 f.fb
  if ex = 0 then (.fin s fr (1 - f.bias - (f.fb : Nat)), fl)
  else (.fin s (2 ^ f.fb + fr) ((ex : Int) - f.bias - (f.fb : Nat)), fl)

/-- The exponent E of R72 of an operand code: that of a subnormal is the smallest normal exponent. -/
def SmallFmt.exponent (f : SmallFmt) (x : Nat) : Int :=
  let mag0 := bitsAt x 0 (f.eb + f.fb)
  let mag := if mag0 > f.maxMag then f.maxMag else mag0
  let ex := bitsAt mag f.fb f.eb
  (if ex = 0 then 1 else (ex : Int)) - f.bias

/-- Conversion of a value to the format (Table 3-8): nearest even, largest finite with OF and NX outside, zero with NV for
a NaN, UF and NX where inexact in the subnormal range; a zero result has sign bit 0. -/
def SmallFmt.write (f : SmallFmt) : FVal → Nat × Nat
  | .nan _ => (0, flagNV)
  | .inf s => ((if s then 2 ^ (f.eb + f.fb) else 0) + f.maxMag, flagOF ||| flagNX)
  | .fin s m e =>
    if m = 0 then (0, 0) else
    let len := bitLen m
    let qMin : Int := 1 - f.bias - (f.fb : Nat)
    let qUnb : Int := e + len - (f.fb + 1 : Nat)
    let q := if qUnb < qMin then qMin else qUnb
    let m1 := if q ≤ e then m <<< (e - q).toNat else roundShift .ne s m (q - e).toNat
    let inexact := decide (q > e) && m % 2 ^ (q - e).toNat != 0
    let sb := if s then 2 ^ (f.eb + f.fb) else 0
    let (m1, q) := if m1 ≥ 2 ^ (f.fb + 1) then (m1 / 2, q + 1) else (m1, q)
    let mag := if m1 < 2 ^ f.fb then m1 else (q - qMin + 1).toNat * 2 ^ f.fb + (m1 - 2 ^ f.fb)
    if mag > f.maxMag then (sb + f.maxMag, flagOF ||| flagNX)
    else if mag = 0 then (0, flagUF ||| flagNX)
    else
      let mU := if qUnb ≤ e then m <<< (e - qUnb).toNat else roundShift .ne s m (qUnb - e).toNat
      let tiny := decide (qUnb + (bitLen mU : Nat) - 1 < 1 - f.bias)
      (sb + mag, (if inexact then flagNX else 0) ||| (if inexact && tiny then flagUF else 0))

/-- Reading a B16 code (R67, R69): exponent field 0 is a zero with the code's sign, FLUSH where its fraction is non-zero;
exponent field 255 reads as the largest finite value, CLAMP. -/
def readB16 (x : Nat) : FVal × Nat :=
  let s := bitsAt x 15 1 == 1
  let ex := bitsAt x 7 8
  let fr := bitsAt x 0 7
  if ex = 0 then (.fin s 0 0, if fr = 0 then 0 else flagFLUSH)
  else if ex = 255 then (.fin s 255 120, flagCLAMP)
  else (.fin s (128 + fr) ((ex : Int) - 134), 0)

/-- Conversion to B16 (Table 3-8): nearest even; ±0x7F7F with OF and NX outside; a subnormal-range result is 0 with UF, NX
and FLUSH; a zero result has sign bit 0. -/
def writeB16 : FVal → Nat × Nat
  | .nan _ => (0, flagNV)
  | .inf s => ((if s then 0x8000 else 0) + 0x7F7F, flagOF ||| flagNX)
  | .fin s m e =>
    if m = 0 then (0, 0) else
    let q : Int := e + bitLen m - 8
    let m1 := if q ≤ e then m <<< (e - q).toNat else roundShift .ne s m (q - e).toNat
    let inexact := decide (q > e) && m % 2 ^ (q - e).toNat != 0
    let (m1, q) := if m1 ≥ 256 then (m1 / 2, q + 1) else (m1, q)
    let ex : Int := q + 134
    if ex > 254 then ((if s then 0x8000 else 0) + 0x7F7F, flagOF ||| flagNX)
    else if ex < 1 then (0, flagUF ||| flagNX ||| flagFLUSH)
    else ((if s then 0x8000 else 0) + ex.toNat * 128 + (m1 - 128), if inexact then flagNX else 0)

/-- The value of a weight code and its CLAMP flag (Tables 3-2 and 3-4). -/
def readWeight (f : Fmt) (x : Nat) : Int × Nat :=
  match f with
  | .b1 => (if x % 2 = 1 then 1 else -1, 0)
  | .t2 => (match x % 4 with | 1 => (1, 0) | 3 => (-1, 0) | 2 => (0, flagCLAMP) | _ => (0, 0))
  | _ => (match x % 4 with | 0 => (1, 0) | 1 => (3, 0) | 2 => (-1, 0) | _ => (-3, 0))

/-- A K4 element with its block exponent (R65): element 0b1000 and exponent 0xFF are reserved. -/
def readK4 (x ex : Nat) : FVal × Nat :=
  let fl := (if x % 16 = 8 then flagCLAMP else 0) ||| (if ex = 0xFF then flagCLAMP else 0)
  let ex := if ex = 0xFF then 0xFE else ex
  (.fin (decide (x % 16 > 8)) (x % 8) ((ex : Int) - 127), fl)

/-- Reading one element of a format by the vector engine (R63 to R69); `ex` is the block exponent of a K4 element. -/
def Fmt.read (f : Fmt) (x ex : Nat) : FVal × Nat :=
  match f with
  | .b1 => let (v, fl) := readWeight .b1 x; (FVal.ofInt v, fl)
  | .t2 => let (v, fl) := readWeight .t2 x; (FVal.ofInt v, fl)
  | .q2 => let (v, fl) := readWeight .q2 x; (FVal.ofInt v, fl)
  | .int8 => (FVal.ofInt (toSigned 8 x), 0)
  | .int16 => (FVal.ofInt (toSigned 16 x), 0)
  | .int32 => (FVal.ofInt (toSigned 32 x), 0)
  | .k8e => smallK8e.read x
  | .k8m => smallK8m.read x
  | .k6 => smallK6.read x
  | .k4 => readK4 x ex
  | .b16 => readB16 x
  | .f16 => (bin16.decode x, 0)
  | .f32 => (bin32.decode x, 0)
  | .f64 => (bin64.decode x, 0)

/-- Writing a floating value in a storage format (Table 3-8); K4 and the weight formats have their own rules. -/
def Fmt.write (f : Fmt) (rm : RM) (v : FVal) : Nat × Nat :=
  match f with
  | .int8 => let (x, fl) := v.toIntRange rm (-128) 127; (ofSigned 8 x, fl)
  | .int16 => let (x, fl) := v.toIntRange rm (-32768) 32767; (ofSigned 16 x, fl)
  | .int32 => let (x, fl) := v.toIntRange rm (-2147483648) 2147483647; (ofSigned 32 x, fl)
  | .k8e => smallK8e.write v
  | .k8m => smallK8m.write v
  | .k6 => smallK6.write v
  | .b16 => writeB16 v
  | .f16 => bin16.ofVal rm v
  | .f32 => bin32.ofVal rm v
  | .f64 => bin64.ofVal rm v
  | _ => (0, 0)

/-- The code of R83 of x under scale s and threshold θ, and the NV flag of a NaN (Table 3-8). -/
def quantCode (f : Fmt) (x s th : FVal) : Nat × Nat :=
  if x.isNan then ((match f with | .b1 => 1 | _ => 0), flagNV) else
  match f with
  | .b1 => (if x.cmp (.fin false 0 0) = .lt then 0 else 1, 0)
  | .t2 =>
    match th.mulExact s with
    | none => (0, 0)
    | some b =>
      if b.isNan then (0, 0)
      else if x.cmp b ≠ .lt then (1, 0)
      else if x.cmp b.neg ≠ .gt then (3, 0)
      else (0, 0)
  | _ =>
    let neg := match x.cmp (.fin false 0 0) with | .lt => true | _ => false
    let big : Bool := match s with
      | .fin t m e => x.abs.cmp (.fin t m (e + 1)) != .lt
      | .inf t => x.abs.cmp (.inf t) != .lt
      | .nan _ => false
    ((if neg then 2 else 0) + (if big then 1 else 0), 0)

/-- Quantisation of R83, with NX where a finite x is not the value of its code (R81; log entry 143). -/
def quantise (f : Fmt) (x s th : FVal) : Nat × Nat :=
  let r := quantCode f x s th
  match x with
  | .fin .. => (r.1, r.2 ||| (if x.cmp (FVal.ofInt (readWeight f r.1).1) = .eq then 0 else flagNX))
  | _ => r

/-- The largest magnitude quotient of R82, rounded to nearest even, at block exponent `ex`. -/
def k4Mag (m : Nat) (e : Int) (ex : Nat) : Nat :=
  let d : Int := e - ((ex : Int) - 127)
  if d ≥ 0 then (if bitLen m + d.toNat > 8 then 255 else m <<< d.toNat) else roundShift .ne false m (-d).toNat

/-- R82: the smallest block exponent from `n` up at which every magnitude is at most 7; 254 where none is. -/
def k4Search (mags : List (Nat × Int)) : Nat → Nat → Nat
  | 0, n => min n 254
  | fuel + 1, n => if mags.all (fun p => k4Mag p.1 p.2 n ≤ 7) then n else k4Search mags fuel (n + 1)

/-- R82: block exponent, element codes and flags of a K4 block. -/
def writeK4 (vs : List FVal) : Nat × List Nat × Nat :=
  let mags := vs.filterMap fun v => match v with | .fin _ m e => (if m = 0 then none else some (m, e)) | _ => none
  let ex := if vs.any (fun v => match v with | .inf _ => true | _ => false) then 254 else k4Search mags 254 0
  let one := fun (v : FVal) =>
    match v with
    | .nan _ => (0, flagNV)
    | .inf s => ((if s then 8 else 0) + 7, flagOF ||| flagNX)
    | .fin s m e =>
      let k := k4Mag m e ex
      let d : Int := e - ((ex : Int) - 127)
      let exact := m == 0 || (if d ≥ 0 then true else m % 2 ^ (-d).toNat == 0)
      if k > 7 then ((if s then 8 else 0) + 7, flagOF ||| flagNX)
      else ((if s && k != 0 then 8 else 0) + k, if exact then 0 else flagNX)
  let rs := vs.map one
  (ex, rs.map (·.1), rs.foldl (fun a r => a ||| r.2) 0)

end Sys2Proof.Machine
end

