-- ==== Sys2Proof/Machine/ArrayMath.lean ====
section
/-! DEFINITION. Array arithmetic (R70 to R75) and the test-bar unit's arithmetic (R86 to R89): the modes of Table 3-5, one
slab of one DPU, the addition into an accumulator entry, the row sums, and the values T, B, P, M and τ. -/

namespace Sys2Proof.Machine

/-- An array mode: Table 3-5 with the widths of Table 4-2. `int`: an integer mode. `limit`: DEPTH limit of a buffer half. -/
structure Mode where
  wfmt : Fmt
  afmt : Fmt
  k : Nat
  actBytes : Nat
  wBytes : Nat
  int : Bool
  ff : Nat
  gg : Nat
  limit : Nat
  deriving DecidableEq, Repr

/-- R70: the operand pairs the arrays support. -/
def Mode.of (w a : Fmt) : Option Mode :=
  match w, a with
  | .b1, .int8 => some ⟨w, a, 512, 512, 64, true, 0, 0, 2048⟩
  | .t2, .int8 => some ⟨w, a, 256, 256, 64, true, 0, 0, 2048⟩
  | .q2, .int8 => some ⟨w, a, 256, 256, 64, true, 0, 0, 2048⟩
  | .int8, .int8 => some ⟨w, a, 64, 64, 64, true, 0, 0, 2048⟩
  | .t2, .b16 => some ⟨w, a, 128, 256, 32, false, 7, 4, 1024⟩
  | .q2, .b16 => some ⟨w, a, 128, 256, 32, false, 8, 4, 1024⟩
  | .k8e, .k8e => some ⟨w, a, 64, 64, 64, false, 6, 3, 2048⟩
  | .k8e, .k8m => some ⟨w, a, 64, 64, 64, false, 5, 3, 2048⟩
  | .k8m, .k8e => some ⟨w, a, 64, 64, 64, false, 5, 3, 2048⟩
  | .k8m, .k8m => some ⟨w, a, 64, 64, 64, false, 4, 3, 2048⟩
  | .b16, .b16 => some ⟨w, a, 32, 64, 64, false, 14, 4, 1024⟩
  | .f16, .f16 => some ⟨w, a, 32, 64, 64, false, 20, 4, 1024⟩
  | _, _ => none

/-- DEPTH limit of Table 4-2. -/
def Mode.depthLimit (m : Mode) (wide : Bool) : Nat := if wide then 2 * m.limit else m.limit

/-- Bytes of `n` activation elements. -/
def Mode.rowBytes (m : Mode) (n : Nat) : Nat := n * m.afmt.bits / 8

/-- An array operand: exact signed mantissa and exponent, the exponent E of R72, and the flags of reading it. -/
structure AOp where
  v : Int
  e : Int
  ex : Int
  fl : Nat
  deriving DecidableEq, Repr

/-- The signed mantissa of a finite value. -/
def signedMant (s : Bool) (m : Nat) : Int := if s then -(m : Int) else m

/-- Reading one array operand (R63 to R69, R72). -/
def arrayRead (f : Fmt) (x : Nat) : AOp :=
  match f with
  | .int8 => ⟨toSigned 8 x, 0, 0, 0⟩
  | .b1 => let r := readWeight .b1 x; ⟨r.1, 0, 0, r.2⟩
  | .t2 => let r := readWeight .t2 x; ⟨r.1, 0, 0, r.2⟩
  | .q2 => let r := readWeight .q2 x; ⟨r.1, 0, if r.1 = 3 ∨ r.1 = -3 then 1 else 0, r.2⟩
  | .k8e =>
    match smallK8e.read x with
    | (.fin s m e, fl) => ⟨signedMant s m, e, smallK8e.exponent x, fl⟩
    | (_, fl) => ⟨0, 0, 0, fl⟩
  | .k8m =>
    match smallK8m.read x with
    | (.fin s m e, fl) => ⟨signedMant s m, e, smallK8m.exponent x, fl⟩
    | (_, fl) => ⟨0, 0, 0, fl⟩
  | .b16 =>
    match readB16 x with
    | (.fin s m e, fl) => ⟨signedMant s m, e, e + 7, fl⟩
    | (_, fl) => ⟨0, 0, 0, fl⟩
  | .f16 =>
    match bin16.decode x with
    | .fin s m e => ⟨signedMant s m, e, e + 10, 0⟩
    | .inf s => ⟨signedMant s 2047, 5, 15, flagCLAMP⟩
    | .nan _ => ⟨0, -24, -14, flagCLAMP⟩
  | _ => ⟨0, 0, 0, 0⟩

/-- An exact product with its exponent E. -/
structure AProd where
  v : Int
  e : Int
  ex : Int
  deriving DecidableEq, Repr

def AOp.times (a b : AOp) : AProd := ⟨a.v * b.v, a.e + b.e, a.ex + b.ex⟩

/-- The exact sum of products in an integer mode (R71). -/
def sumInt (ps : List AProd) : Int := ps.foldl (fun a p => a + p.v) 0

/-- E_max of R72: the largest E over the non-zero products. -/
def maxExp (ps : List AProd) : Option Int :=
  ps.foldl (fun (a : Option Int) (p : AProd) => if p.v == (0 : Int) then a else
    match a with
    | none => some p.ex
    | some x => some (max x p.ex)) none

/-- A magnitude in units of 2^u, truncated, and whether truncation changed it (R73). -/
def truncTo (p : AProd) (u : Int) : Int × Bool :=
  if p.e ≥ u then (p.v * (2 ^ (p.e - u).toNat : Nat), false)
  else
    let k := (u - p.e).toNat
    let q := p.v.natAbs / 2 ^ k
    (if p.v < 0 then -(q : Int) else q, p.v.natAbs % 2 ^ k != 0)

/-- A slab sum of an aligned mode (R72, R73): the tree sum is `v × 2^u`, and `c` products were changed by truncation. -/
structure SlabSum where
  v : Int
  u : Int
  c : Nat
  deriving DecidableEq, Repr

def sumAligned (ff gg : Nat) (ps : List AProd) : SlabSum :=
  match maxExp ps with
  | none => ⟨0, 0, 0⟩
  | some em =>
    let u := em - (ff : Int) - (gg : Int)
    ps.foldl (fun a p =>
      let t := truncTo p u
      ⟨a.v + t.1, u, a.c + (if t.2 then 1 else 0)⟩) ⟨0, u, 0⟩

/-- Products of an activation slab with a weight slab; only the first `n` positions are read (R95). -/
def slabProducts (m : Mode) (n : Nat) (act wt : List Nat) : List AProd :=
  ((act.take n).zip (wt.take n)).map fun p => (arrayRead m.afmt p.1).times (arrayRead m.wfmt p.2)

/-- Flags of reading the operands of a slab (R69). -/
def slabFlags (m : Mode) (n : Nat) (act wt : List Nat) : Nat :=
  (act.take n).foldl (fun a x => a ||| (arrayRead m.afmt x).fl) 0 |||
  (wt.take n).foldl (fun a x => a ||| (arrayRead m.wfmt x).fl) 0

/-- Addition into an INT32 accumulator (R71): the entry and the SAT flag. -/
def accInt (acc : Nat) (x : Int) : Nat × Nat :=
  let v := toSigned 32 acc + x
  if v < -2147483648 then (0x80000000, flagSAT)
  else if v > 2147483647 then (0x7FFFFFFF, flagSAT)
  else (ofSigned 32 v, 0)

/-- The exact sum of a binary32 entry and `v × 2^u`, as a finite value. -/
def accExact (acc : Nat) (v u : Int) : FVal :=
  match bin32.decode acc with
  | .fin s m e => addFin .ne s m e (decide (v < 0)) v.natAbs u
  | x => x

/-- Whether 32 bits are no binary32 number: an infinity or a NaN. -/
def notNumber32 (x : Nat) : Bool := bitsAt x 23 8 == 255

/-- Addition into a binary32 accumulator (R74, R75): overflow holds at the largest finite magnitude with SAT, a subnormal
result becomes a zero of its sign with FLUSH. The spec gives no sum for an entry that is no number: it is `free`, without
flags (log entry 140). -/
def accF32 (acc : Nat) (v u : Int) (free : Nat) : Nat × Nat :=
  match accExact acc v u with
  | .fin s m e =>
    if m = 0 then (0, 0) else
    -- rounded to 24 bits with an unbounded exponent
    let q : Int := e + bitLen m - 24
    let m1 := if q ≤ e then m <<< (e - q).toNat else roundShift .ne s m (q - e).toNat
    let ex : Int := q + bitLen m1 - 1
    if ex > 127 then (bin32.maxCode s, flagSAT)
    else if ex < -126 then (if s then 0x80000000 else 0, flagFLUSH)
    else (bin32.pack s m1 q, 0)
  | _ => (free % 2 ^ 32, 0)

/-- A binary32 sum rounded once by the mode and held at the largest finite magnitude (R86); `true` where it was held. -/
def holdF32 (rm : RM) (v : FVal) : Nat × Bool :=
  match v with
  | .fin s m e =>
    let r := bin32.round rm s m e
    if r.1 = bin32.infCode s then (bin32.maxCode s, true)
    else if r.2 &&& flagOF ≠ 0 then (bin32.maxCode s, true)
    else (r.1, false)
  | _ => (0, false)

/-- A row sum of the test-bar unit (R86): exact in the integer modes, binary32 in the aligned ones. -/
structure RowSum where
  i : Int
  f : Nat
  held : Bool
  deriving DecidableEq, Repr

/-- The sum of one column of activation elements over the rows. -/
def rowSum (f : Fmt) (int : Bool) (xs : List Nat) : RowSum :=
  if int then ⟨xs.foldl (fun (a : Int) x => a + (arrayRead f x).v) 0, 0, false⟩
  else
    let v := xs.foldl (fun (a : FVal) x =>
      let o := arrayRead f x
      match a with
      | .fin s m e => addFin .ne s m e (decide (o.v < 0)) o.v.natAbs o.e
      | y => y) (.fin false 0 0)
    let h := holdF32 .ne v
    ⟨0, h.1, h.2⟩

/-- A row sum as an operand of the test-bar unit's tree: its unbiased exponent is that of its binary32 value. -/
def RowSum.op (r : RowSum) : AOp :=
  match bin32.decode r.f with
  | .fin s m e => ⟨signedMant s m, e, e + 23, 0⟩
  | _ => ⟨0, 0, 0, 0⟩

/-- The check values of one column (R86): T and, in the aligned modes, B and P as binary32 codes; `held` where a row sum
used, T, B or P was held at the largest finite magnitude. -/
structure CheckVals where
  ti : Int := 0
  tf : Nat := 0
  b : Nat := 0
  p : Nat := 0
  held : Bool := false
  deriving DecidableEq, Repr

/-- Adding an exact value to a binary32 code and rounding once, held at the largest finite magnitude. -/
def addHold (rm : RM) (acc : Nat) (v : Int) (u : Int) : Nat × Bool := holdF32 rm (accExact acc v u)

/-- One array step of the test-bar unit: the products of the row sums with the weight slab join T, the sum of c × u over
the DPUs and its own tree joins B, and the magnitudes join P. `cus` are the pairs (c, u) the DPUs report. -/
def CheckVals.step (c : CheckVals) (m : Mode) (n : Nat) (rows : List RowSum) (wt : List Nat) (cus : List (Nat × Int)) :
    CheckVals :=
  if m.int then
    { c with ti := c.ti + ((rows.take n).zip (wt.take n)).foldl (fun a p => a + p.1.i * (arrayRead m.wfmt p.2).v) 0 }
  else
    let ps := ((rows.take n).zip (wt.take n)).map fun p => p.1.op.times (arrayRead m.wfmt p.2)
    let own := sumAligned m.ff m.gg ps
    let t := addHold .ne c.tf own.v own.u
    let cu := ((own.c, own.u) :: cus).filter (fun p => p.1 != 0)
    let u0 := cu.foldl (fun a p => min a p.2) (match cu with | [] => 0 | p :: _ => p.2)
    let csum := cu.foldl (fun (a : Int) p => a + (p.1 <<< (p.2 - u0).toNat : Nat)) 0
    let b := addHold .up c.b csum u0
    let e0 := ps.foldl (fun a p => min a p.e) 0
    let mags := ps.foldl (fun (a : Int) p => a + (p.v.natAbs <<< (p.e - e0).toNat : Nat)) 0
    let pp := addHold .up c.p mags e0
    { c with tf := t.1, b := b.1, p := pp.1
             held := c.held || t.2 || b.2 || pp.2 || (rows.take n).any (·.held) }

/-- A rounding-up binary32 sum or product of R88; `none` where it leaves the binary32 range. -/
def up32 (r : Nat × Nat) : Option Nat := if r.1 = bin32.infCode false ∨ r.2 &&& flagOF ≠ 0 then none else some r.1

def addUp (a b : Nat) : Option Nat := up32 (FVal.add bin32 .up (bin32.decode a) (bin32.decode b))
def mulUp (a b : Nat) : Option Nat := up32 (FVal.mul bin32 .up (bin32.decode a) (bin32.decode b))

/-- The magnitude code of a binary32 code. -/
def abs32 (x : Nat) : Nat := x % 2 ^ 31

/-- M of R88: the magnitudes of the entries in row order and then of T, each addition rounded up (the order is log entry 142).
An entry that is no number leaves the binary32 range (log entry 141). -/
def sumMags (es : List Nat) (t : Nat) : Option Nat :=
  if es.any notNumber32 then none else
  (es ++ [t]).foldl (fun a x => a.bind fun y => addUp y (abs32 x)) (some 0)

/-- τ of R88, each operation rounded up in binary32; `none` where one leaves the range. -/
def tauOf (sigma n : Nat) (c : CheckVals) (es : List Nat) : Option Nat := do
  let m ← sumMags es c.tf
  let nb := (bin32.round .up false n 0).1
  let nm ← mulUp nb m
  let s ← addUp nm c.p
  let x ← mulUp (bin32.round .ne false 1 (-24)).1 s
  let y ← addUp c.b x
  mulUp (bin32.round .ne false sigma 0).1 y

/-- The outcome of a column check (R87 to R89): `none` is skipped, otherwise pass or fail. The compared values go into a
mismatch record: T − S in the integer modes, |T − S| and τ in the aligned ones. -/
structure CheckOut where
  res : Option Bool
  idiff : Int := 0
  adiff : Nat := 0
  tau : Nat := 0
  deriving DecidableEq, Repr

/-- The check of a column. Where an entry is no number the evaluation of M leaves the binary32 range, and the column is skipped
(R89; log entry 141). -/
def checkColumn (int : Bool) (sigma n : Nat) (c : CheckVals) (es : List Nat) (exempt : Bool) : CheckOut :=
  if exempt || c.held then ⟨none, 0, 0, 0⟩
  else if int then
    let s := es.foldl (fun a x => a + toSigned 32 x) 0
    ⟨some (decide (s = c.ti)), c.ti - s, 0, 0⟩
  else
    match tauOf sigma n c es with
    | none => ⟨none, 0, 0, 0⟩
    | some tau =>
      let sv := es.foldl (fun (a : FVal) x =>
        match a, bin32.decode x with
        | .fin s m e, .fin s2 m2 e2 => addFin .ne s m e s2 m2 e2
        | y, _ => y) (.fin false 0 0)
      let d := match bin32.decode c.tf, sv with
        | .fin s m e, .fin s2 m2 e2 => (addFin .ne s m e (!s2) m2 e2).abs
        | x, _ => x.abs
      ⟨some (d.cmp (bin32.decode tau) != .gt), 0, (bin32.ofVal .up d).1, tau⟩

end Sys2Proof.Machine
end

