-- ==== Sys2Proof/Machine/Regs.lean ====
section
/-! DEFINITION. The control-space registers (R4 to R12, R391 and the register rules of every chapter): their names,
where they stand, their fields with access code, reset value, range and persistence. The tables are those of the
register rules R60, R122, R149, R150, R183, R224, R254, R273, R274, R302, R334, R358, R382, R415, R439, R461, R485 and R508. -/

namespace Sys2Proof.Machine

/-- One name per control-space register of the field tables. A register with several instances is one name with
indices (`RegKey`); the prefix FLK[f]_ of R4 is dropped where the chapter drops it. -/
inductive RegName where
  | MGN_CTRL | MGN_STATUS | MGN_TEMPER | MGN_VFLOOR | MGN_DOM_TAP | MGN_DOM_SLACK
  | MGN_DOM_CNT | MGN_RATE_STEPS | MGN_RATE_TIME | MGN_RATE_ACT | WNG_ID | WNG_STATUS
  | WNG_CTRL | WNG_TB_CTRL | WNG_BIST | WNG_ARR_MAP | WNG_ARR_SOFT | WNG_ARR_BIST
  | WNG_ARR_STAT | WNG_ARR_TBCNT | WNG_TB_REC_ID | WNG_TB_REC_DIFF | WNG_TB_REC_ENV | WNG_TB_REC_TIME
  | RUN_CTRL | RUN_SHARE | RUN_STATUS | RUN_XLINK_STAT | RUN_STREAM_SRC | RUN_STREAM_LEN
  | RUN_STREAM_SHAPE | RUN_STREAM_WINGS | WNG_TS_ECC | WNG_TS_POISON | WNG_VEC_STATUS | WNG_VEC_CNT
  | WNG_VEC_ACT | WNG_VEC_STEPS | QE_CTRL | QE_STATUS | QE_ADOPT | QE_ALIAS
  | QE_Q_CMD_BASE | QE_Q_RPL_BASE | QE_Q_CFG | QE_Q_TAIL | QE_Q_HEAD | QE_Q_RHEAD
  | QE_Q_STATE | QE_Q_CLAMP | QE_GATE_VAL | QE_GATE_ADD | FLK_MEM_CTRL | FLK_MEM_SCRUB
  | FLK_MEM_QUAL | FLK_MEM_STACK_STAT | FLK_MEM_STACK_ECC | FLK_MEM_STACK_ACT | FLK_LDL_CTRL | FLK_LDL_CNT
  | FLK_LDL_STAT | FLK_TRN_STATUS | FLK_TRN_SLOT | FLK_D2D_CTRL | FLK_D2D_STATUS | FLK_D2D_CNT
  | FLK_D2D_SLICE | CRU_D2D_STAT | LE_CTRL | LE_STATUS | LE_THRESH | LE_LOOP
  | LE_COMB_HEALTH | LE_COMB_AGE | LE_LINEPWR | LE_PORT_CTRL | LE_PORT_STATUS | LE_PORT_LANEMAP0
  | LE_PORT_LANEMAP1 | LE_PORT_CNT | LE_PORT_RING | LE_PORT_RX | FAB_ADDR | FAB_CTRL
  | FAB_E2E | FAB_RT_CTRL | FAB_RT_OCC | FAB_STATUS | FAB_CNT | FAB_PEER_CLR
  | FAB_CABLE | FAB_PORT_STAT | FAB_PORT_EXPECT | FAB_PORT_CHECK | FAB_PORT_CNT | FAB_RT_RACK
  | FAB_RT_LOCAL | TRY_CTRL | TRY_WIN | TRY_STATUS | TRY_DIR | TRY_CNT
  | TRY_COPY | COL_CTRL | COL_STATUS | COL_CNT | COL_ACT | COL_GRP_CFG
  | COL_GRP_LIST | COL_GRP_CTRL | COL_GRP_STAT | CRU_ID | CRU_BOOT | CRU_RESET
  | CRU_TIME | CRU_TIME_STAT | CRU_NOTICE | CRU_MGT_MAC | CRU_MGT_STAT | CRU_MGT_CNT
  | CRU_MGT_OSQ | CRU_SMB_STAT | SEC_LCS | SEC_ROLLBACK | SEC_CHAL | SEC_EVENT
  | SEC_ROOTS | SEC_IMG_STAT | SEC_ATT_CTRL | SEC_ATT_NONCE | SEC_ATT_REPORT | EYE_CTRL
  | EYE_STATUS | EYE_NMI | EYE_PIN | EYE_KICK | EYE_INJ_CTRL | EYE_INJ_ADDR
  | EYE_SWEEP | EYE_LOG | EYE_GRP_PEND | EYE_GRP_CAP_ADDR | EYE_GRP_CAP_INFO | EYE_GRP_CAP_TIME
  | EYE_SRC_CFG | EYE_SRC_STAT | CRU_RES_CTRL | CRU_RES_RESV | CRU_RES_COMMIT | CRU_RES_PUSH
  | CRU_RES_TAINT | CRU_RES_QMASK | CRU_RES_HELD | CRU_RES_CNT | PWR_CTRL | PWR_CAP
  | PWR_IN | PWR_STATE | PWR_HOLD | PWR_RAIL | PWR_RAIL_MEAS | PWR_BASK
  | THM_CTRL | THM_STATUS | THM_SENS
  deriving DecidableEq, Repr

/-- One register instance. `i` is the first index; a port of a light engine is counted `2e + j` and a fabric port or a
stack module-wide, so each has one number; `j` is the second index. A module-wide register of a Flask block (R4) has
index 0 through each of the four blocks. -/
structure RegKey where
  name : RegName
  i : Nat := 0
  j : Nat := 0
  deriving DecidableEq, Repr

/-- Access codes of Table 0-2. -/
inductive Acc where
  | RW | RO | WO | W1C | RWS | RWL
  deriving DecidableEq, Repr

/-- The Reset column of a field table: a number, the fuse map, the straps, or a table that gives each instance its own. -/
inductive Rst where
  | val (v : Nat) | fuse | strap | table
  deriving DecidableEq, Repr

/-- One row of a field table. `keep`: kept over a module reset (RWS, or R12). `lo`, `hi`: a write outside is stored as the
nearest bound the Meaning names. `lcs`: the life-cycle states in which an RWL field is writable (empty: all). -/
structure FieldInfo where
  lsb : Nat
  w : Nat
  acc : Acc
  rst : Rst
  keep : Bool := false
  lo : Nat := 0
  hi : Nat := 2 ^ w - 1
  lcs : List Nat := []
  deriving DecidableEq, Repr

/-- One index of a register: how many instances, their stride in bytes, and what it adds to `RegKey.i` and `RegKey.j`. -/
structure Dim where
  count : Nat
  stride : Nat
  mi : Nat
  mj : Nat
  deriving DecidableEq, Repr

/-- One register head with its field table. -/
structure RegInfo where
  base : Nat
  off : Nat
  dims : List Dim
  fields : List FieldInfo
  deriving DecidableEq, Repr

/-- A named field of a named register. -/
structure Fld where
  reg : RegName
  lsb : Nat
  w : Nat
  deriving DecidableEq, Repr

/-- MGN_CTRL (R60). -/
def infoMGN_CTRL : RegInfo := ⟨0xf00003000000, 0x40000, [],
  [⟨0, 1, .RW, .val 1, false, 0, 1, []⟩,
   ⟨1, 1, .RW, .val 1, false, 0, 1, []⟩,
   ⟨8, 8, .RW, .val 8, false, 0, 255, []⟩,
   ⟨16, 8, .RW, .val 5, false, 0, 255, []⟩,
   ⟨24, 8, .RW, .val 1, false, 0, 255, []⟩,
   ⟨32, 8, .RW, .val 11, false, 0, 255, []⟩,
   ⟨40, 8, .RW, .val 6, false, 0, 255, []⟩,
   ⟨48, 8, .RW, .val 4, false, 0, 255, []⟩]⟩

/-- MGN_STATUS (R60). -/
def infoMGN_STATUS : RegInfo := ⟨0xf00003000000, 0x40008, [],
  [⟨0, 1, .W1C, .val 0, false, 0, 1, []⟩,
   ⟨1, 1, .W1C, .val 0, false, 0, 1, []⟩,
   ⟨2, 1, .W1C, .val 0, false, 0, 1, []⟩,
   ⟨3, 1, .W1C, .val 0, false, 0, 1, []⟩,
   ⟨4, 1, .W1C, .val 0, false, 0, 1, []⟩,
   ⟨5, 1, .RWS, .val 0, true, 0, 1, []⟩,
   ⟨8, 1, .RO, .val 0, false, 0, 1, []⟩,
   ⟨16, 9, .RO, .val 0, false, 0, 511, []⟩]⟩

/-- MGN_TEMPER (R60). -/
def infoMGN_TEMPER : RegInfo := ⟨0xf00003000000, 0x40010, [],
  [⟨0, 1, .WO, .val 0, false, 0, 1, []⟩,
   ⟨1, 1, .RW, .val 0, false, 0, 1, []⟩,
   ⟨16, 9, .RW, .val 0, false, 0, 511, []⟩,
   ⟨32, 1, .W1C, .val 0, false, 0, 1, []⟩,
   ⟨48, 16, .RW, .val 24, false, 0, 8760, []⟩]⟩

/-- MGN_VFLOOR (R60). -/
def infoMGN_VFLOOR : RegInfo := ⟨0xf00003000000, 0x40100, [⟨8, 0x8, 1, 0⟩],
  [⟨0, 16, .RO, .val 600, false, 0, 65535, []⟩,
   ⟨16, 9, .RO, .val 0, false, 0, 511, []⟩]⟩

/-- MGN_DOM_TAP (R60). -/
def infoMGN_DOM_TAP : RegInfo := ⟨0xf00003000000, 0x41000, [⟨408, 0x20, 1, 0⟩],
  [⟨0, 6, .RO, .fuse, false, 0, 63, []⟩,
   ⟨8, 6, .RWS, .fuse, true, 0, 63, []⟩,
   ⟨16, 6, .RO, .fuse, false, 0, 63, []⟩,
   ⟨24, 6, .RO, .val 0, false, 0, 63, []⟩,
   ⟨30, 1, .WO, .val 0, false, 0, 1, []⟩,
   ⟨32, 1, .RO, .val 0, false, 0, 1, []⟩,
   ⟨33, 3, .RW, .val 0, false, 0, 7, []⟩]⟩

/-- MGN_DOM_SLACK (R60). -/
def infoMGN_DOM_SLACK : RegInfo := ⟨0xf00003000000, 0x41008, [⟨408, 0x20, 1, 0⟩],
  [⟨0, 8, .RO, .val 0, false, 0, 255, []⟩,
   ⟨8, 8, .RO, .val 127, false, 0, 255, []⟩,
   ⟨16, 1, .WO, .val 0, false, 0, 1, []⟩,
   ⟨24, 8, .RO, .val 0, false, 0, 255, []⟩,
   ⟨32, 8, .RO, .val 0, false, 0, 255, []⟩]⟩

/-- MGN_DOM_CNT (R60). -/
def infoMGN_DOM_CNT : RegInfo := ⟨0xf00003000000, 0x41010, [⟨408, 0x20, 1, 0⟩],
  [⟨0, 16, .RO, .val 0, false, 0, 65535, []⟩,
   ⟨16, 16, .RO, .val 0, false, 0, 65535, []⟩,
   ⟨32, 16, .RO, .val 0, false, 0, 65535, []⟩,
   ⟨48, 16, .RO, .val 0, false, 0, 65535, []⟩]⟩

/-- MGN_RATE_STEPS (R60). -/
def infoMGN_RATE_STEPS : RegInfo := ⟨0xf00003000000, 0x48000, [⟨64, 0x20, 1, 0⟩],
  [⟨0, 64, .RO, .val 0, false, 0, 18446744073709551615, []⟩]⟩

/-- MGN_RATE_TIME (R60). -/
def infoMGN_RATE_TIME : RegInfo := ⟨0xf00003000000, 0x48008, [⟨64, 0x20, 1, 0⟩],
  [⟨0, 64, .RO, .val 0, false, 0, 18446744073709551615, []⟩]⟩

/-- MGN_RATE_ACT (R60). -/
def infoMGN_RATE_ACT : RegInfo := ⟨0xf00003000000, 0x48010, [⟨64, 0x20, 1, 0⟩],
  [⟨0, 16, .RO, .val 0, false, 0, 65535, []⟩,
   ⟨16, 10, .RO, .val 0, false, 0, 1023, []⟩,
   ⟨32, 10, .RO, .val 0, false, 0, 1023, []⟩,
   ⟨48, 10, .RO, .val 0, false, 0, 1023, []⟩]⟩

/-- WNG_ID (R122). -/
def infoWNG_ID : RegInfo := ⟨0xf00020000000, 0x0, [⟨64, 0x100000, 1, 0⟩],
  [⟨0, 5, .RO, .fuse, false, 0, 31, []⟩,
   ⟨8, 2, .RO, .fuse, false, 0, 3, []⟩,
   ⟨12, 1, .RO, .val 0, false, 0, 1, []⟩,
   ⟨16, 1, .RWS, .val 0, true, 0, 1, []⟩,
   ⟨24, 4, .RWS, .val 0, true, 0, 15, []⟩]⟩

/-- WNG_STATUS (R122). -/
def infoWNG_STATUS : RegInfo := ⟨0xf00020000000, 0x8, [⟨64, 0x100000, 1, 0⟩],
  [⟨0, 3, .RO, .val 0, false, 0, 7, []⟩,
   ⟨4, 3, .RO, .val 0, false, 0, 7, []⟩,
   ⟨8, 4, .RO, .val 0, false, 0, 15, []⟩,
   ⟨16, 1, .RO, .val 0, false, 0, 1, []⟩,
   ⟨17, 1, .RO, .val 0, false, 0, 1, []⟩,
   ⟨18, 1, .RO, .val 0, false, 0, 1, []⟩]⟩

/-- WNG_CTRL (R122). -/
def infoWNG_CTRL : RegInfo := ⟨0xf00020000000, 0x10, [⟨64, 0x100000, 1, 0⟩],
  [⟨0, 1, .WO, .val 0, false, 0, 1, []⟩,
   ⟨1, 1, .WO, .val 0, false, 0, 1, []⟩,
   ⟨16, 16, .RW, .val 1000, false, 100, 65535, []⟩]⟩

/-- WNG_TB_CTRL (R122). -/
def infoWNG_TB_CTRL : RegInfo := ⟨0xf00020000000, 0x18, [⟨64, 0x100000, 1, 0⟩],
  [⟨0, 1, .RWL, .val 1, false, 0, 1, [1, 4]⟩,
   ⟨4, 4, .RW, .val 2, false, 1, 15, []⟩,
   ⟨16, 3, .RO, .val 0, false, 0, 7, []⟩,
   ⟨24, 8, .RO, .val 0, false, 0, 255, []⟩]⟩

/-- WNG_BIST (R122). -/
def infoWNG_BIST : RegInfo := ⟨0xf00020000000, 0x20, [⟨64, 0x100000, 1, 0⟩],
  [⟨0, 1, .WO, .val 0, false, 0, 1, []⟩,
   ⟨4, 2, .RW, .val 0, false, 0, 3, []⟩,
   ⟨8, 1, .RO, .val 0, false, 0, 1, []⟩,
   ⟨9, 1, .W1C, .val 0, false, 0, 1, []⟩,
   ⟨10, 1, .W1C, .val 0, false, 0, 1, []⟩]⟩

/-- WNG_ARR_MAP (R122). -/
def infoWNG_ARR_MAP : RegInfo := ⟨0xf00020000000, 0x100, [⟨64, 0x100000, 1, 0⟩, ⟨4, 0x40, 0, 1⟩],
  [⟨0, 8, .RO, .fuse, false, 0, 255, []⟩,
   ⟨8, 8, .RO, .fuse, false, 0, 255, []⟩,
   ⟨16, 8, .RO, .fuse, false, 0, 255, []⟩,
   ⟨24, 8, .RO, .fuse, false, 0, 255, []⟩,
   ⟨32, 4, .RO, .val 0, false, 0, 15, []⟩]⟩

/-- WNG_ARR_SOFT (R122). -/
def infoWNG_ARR_SOFT : RegInfo := ⟨0xf00020000000, 0x108, [⟨64, 0x100000, 1, 0⟩, ⟨4, 0x40, 0, 1⟩],
  [⟨0, 8, .RWS, .val 255, true, 0, 255, []⟩,
   ⟨8, 8, .RWS, .val 255, true, 0, 255, []⟩,
   ⟨16, 8, .RWS, .val 255, true, 0, 255, []⟩,
   ⟨24, 8, .RWS, .val 255, true, 0, 255, []⟩]⟩

/-- WNG_ARR_BIST (R122). -/
def infoWNG_ARR_BIST : RegInfo := ⟨0xf00020000000, 0x110, [⟨64, 0x100000, 1, 0⟩, ⟨4, 0x40, 0, 1⟩],
  [⟨0, 8, .RO, .val 255, false, 0, 255, []⟩,
   ⟨8, 8, .RO, .val 255, false, 0, 255, []⟩,
   ⟨16, 8, .RO, .val 255, false, 0, 255, []⟩,
   ⟨24, 8, .RO, .val 255, false, 0, 255, []⟩,
   ⟨32, 1, .RO, .val 0, false, 0, 1, []⟩,
   ⟨33, 1, .RO, .val 0, false, 0, 1, []⟩,
   ⟨34, 1, .RO, .val 0, false, 0, 1, []⟩]⟩

/-- WNG_ARR_STAT (R122). -/
def infoWNG_ARR_STAT : RegInfo := ⟨0xf00020000000, 0x118, [⟨64, 0x100000, 1, 0⟩, ⟨4, 0x40, 0, 1⟩],
  [⟨0, 8, .RO, .val 0, false, 0, 255, []⟩,
   ⟨8, 1, .RO, .val 0, false, 0, 1, []⟩,
   ⟨9, 1, .WO, .val 0, false, 0, 1, []⟩]⟩

/-- WNG_ARR_TBCNT (R122). -/
def infoWNG_ARR_TBCNT : RegInfo := ⟨0xf00020000000, 0x120, [⟨64, 0x100000, 1, 0⟩, ⟨4, 0x40, 0, 1⟩],
  [⟨0, 32, .RO, .val 0, false, 0, 4294967295, []⟩,
   ⟨32, 16, .RO, .val 0, false, 0, 65535, []⟩,
   ⟨48, 16, .RO, .val 0, false, 0, 65535, []⟩]⟩

/-- WNG_TB_REC_ID (R122). -/
def infoWNG_TB_REC_ID : RegInfo := ⟨0xf00020000000, 0x200, [⟨64, 0x100000, 1, 0⟩, ⟨8, 0x20, 0, 1⟩],
  [⟨0, 2, .RO, .val 0, false, 0, 3, []⟩,
   ⟨8, 6, .RO, .val 0, false, 0, 63, []⟩,
   ⟨16, 1, .RO, .val 0, false, 0, 1, []⟩,
   ⟨24, 24, .RO, .val 0, false, 0, 16777215, []⟩,
   ⟨56, 8, .RO, .val 0, false, 0, 255, []⟩]⟩

/-- WNG_TB_REC_DIFF (R122). -/
def infoWNG_TB_REC_DIFF : RegInfo := ⟨0xf00020000000, 0x208, [⟨64, 0x100000, 1, 0⟩, ⟨8, 0x20, 0, 1⟩],
  [⟨0, 64, .RO, .val 0, false, 0, 18446744073709551615, []⟩,
   ⟨0, 32, .RO, .val 0, false, 0, 4294967295, []⟩,
   ⟨32, 32, .RO, .val 0, false, 0, 4294967295, []⟩]⟩

/-- WNG_TB_REC_ENV (R122). -/
def infoWNG_TB_REC_ENV : RegInfo := ⟨0xf00020000000, 0x210, [⟨64, 0x100000, 1, 0⟩, ⟨8, 0x20, 0, 1⟩],
  [⟨0, 8, .RO, .val 0, false, 0, 255, []⟩,
   ⟨8, 16, .RO, .val 0, false, 0, 65535, []⟩,
   ⟨24, 16, .RO, .val 0, false, 0, 65535, []⟩,
   ⟨40, 8, .RO, .val 0, false, 0, 255, []⟩]⟩

/-- WNG_TB_REC_TIME (R122). -/
def infoWNG_TB_REC_TIME : RegInfo := ⟨0xf00020000000, 0x218, [⟨64, 0x100000, 1, 0⟩, ⟨8, 0x20, 0, 1⟩],
  [⟨0, 64, .RO, .val 0, false, 0, 18446744073709551615, []⟩]⟩

/-- RUN_CTRL (R149). -/
def infoRUN_CTRL : RegInfo := ⟨0xf00040000000, 0x0, [],
  [⟨0, 16, .RW, .val 200, false, 10, 65535, []⟩]⟩

/-- RUN_SHARE (R149). -/
def infoRUN_SHARE : RegInfo := ⟨0xf00040000000, 0x8, [],
  [⟨0, 4, .RW, .val 10, false, 1, 15, []⟩,
   ⟨8, 4, .RW, .val 3, false, 1, 15, []⟩,
   ⟨16, 4, .RW, .val 2, false, 1, 15, []⟩,
   ⟨24, 4, .RW, .val 1, false, 1, 15, []⟩]⟩

/-- RUN_STATUS (R149). -/
def infoRUN_STATUS : RegInfo := ⟨0xf00040000000, 0x10, [],
  [⟨0, 1, .W1C, .val 0, false, 0, 1, []⟩,
   ⟨1, 1, .W1C, .val 0, false, 0, 1, []⟩,
   ⟨2, 1, .W1C, .val 0, false, 0, 1, []⟩,
   ⟨3, 1, .W1C, .val 0, false, 0, 1, []⟩,
   ⟨16, 12, .RO, .val 0, false, 0, 4095, []⟩]⟩

/-- RUN_XLINK_STAT (R149). -/
def infoRUN_XLINK_STAT : RegInfo := ⟨0xf00040000000, 0x100, [⟨8, 0x8, 1, 0⟩],
  [⟨0, 10, .RO, .val 0, false, 0, 1023, []⟩,
   ⟨16, 10, .RO, .val 0, false, 0, 1023, []⟩,
   ⟨32, 7, .RO, .fuse, false, 0, 127, []⟩]⟩

/-- RUN_STREAM_SRC (R149). -/
def infoRUN_STREAM_SRC : RegInfo := ⟨0xf00040000000, 0x100000, [⟨4096, 0x20, 1, 0⟩],
  [⟨0, 48, .RW, .val 0, false, 0, 281474976710655, []⟩,
   ⟨48, 2, .RW, .val 0, false, 0, 3, []⟩,
   ⟨50, 2, .RW, .val 0, false, 0, 3, []⟩,
   ⟨61, 1, .RO, .val 0, false, 0, 1, []⟩,
   ⟨62, 1, .RO, .val 0, false, 0, 1, []⟩,
   ⟨63, 1, .RW, .val 0, false, 0, 1, []⟩]⟩

/-- RUN_STREAM_LEN (R149). -/
def infoRUN_STREAM_LEN : RegInfo := ⟨0xf00040000000, 0x100008, [⟨4096, 0x20, 1, 0⟩],
  [⟨0, 40, .RW, .val 0, false, 0, 1099511627775, []⟩]⟩

/-- RUN_STREAM_SHAPE (R149). -/
def infoRUN_STREAM_SHAPE : RegInfo := ⟨0xf00040000000, 0x100010, [⟨4096, 0x20, 1, 0⟩],
  [⟨0, 24, .RW, .val 0, false, 0, 16777215, []⟩,
   ⟨24, 40, .RW, .val 0, false, 0, 1099511627775, []⟩]⟩

/-- RUN_STREAM_WINGS (R149). -/
def infoRUN_STREAM_WINGS : RegInfo := ⟨0xf00040000000, 0x100018, [⟨4096, 0x20, 1, 0⟩],
  [⟨0, 64, .RW, .val 0, false, 0, 18446744073709551615, []⟩]⟩

/-- WNG_TS_ECC (R150). -/
def infoWNG_TS_ECC : RegInfo := ⟨0xf00020000000, 0x1000, [⟨64, 0x100000, 1, 0⟩],
  [⟨0, 16, .RO, .val 0, false, 0, 65535, []⟩,
   ⟨16, 16, .RO, .val 0, false, 0, 65535, []⟩]⟩

/-- WNG_TS_POISON (R150). -/
def infoWNG_TS_POISON : RegInfo := ⟨0xf00020000000, 0x1008, [⟨64, 0x100000, 1, 0⟩],
  [⟨0, 23, .RO, .val 0, false, 0, 8388607, []⟩,
   ⟨63, 1, .W1C, .val 0, false, 0, 1, []⟩]⟩

/-- WNG_VEC_STATUS (R183). -/
def infoWNG_VEC_STATUS : RegInfo := ⟨0xf00020000000, 0x2000, [⟨64, 0x100000, 1, 0⟩],
  [⟨0, 1, .RO, .val 0, false, 0, 1, []⟩,
   ⟨1, 1, .RO, .val 0, false, 0, 1, []⟩,
   ⟨8, 8, .RO, .val 0, false, 0, 255, []⟩,
   ⟨16, 4, .RO, .val 0, false, 0, 15, []⟩,
   ⟨24, 8, .RO, .val 255, false, 0, 255, []⟩,
   ⟨32, 1, .W1C, .val 0, false, 0, 1, []⟩]⟩

/-- WNG_VEC_CNT (R183). -/
def infoWNG_VEC_CNT : RegInfo := ⟨0xf00020000000, 0x2008, [⟨64, 0x100000, 1, 0⟩],
  [⟨0, 32, .RO, .val 0, false, 0, 4294967295, []⟩,
   ⟨32, 16, .RO, .val 0, false, 0, 65535, []⟩]⟩

/-- WNG_VEC_ACT (R183). -/
def infoWNG_VEC_ACT : RegInfo := ⟨0xf00020000000, 0x2010, [⟨64, 0x100000, 1, 0⟩],
  [⟨0, 10, .RO, .val 0, false, 0, 1023, []⟩,
   ⟨16, 10, .RO, .val 0, false, 0, 1023, []⟩,
   ⟨32, 10, .RO, .val 0, false, 0, 1023, []⟩,
   ⟨48, 10, .RO, .val 0, false, 0, 1023, []⟩]⟩

/-- WNG_VEC_STEPS (R183). -/
def infoWNG_VEC_STEPS : RegInfo := ⟨0xf00020000000, 0x2018, [⟨64, 0x100000, 1, 0⟩],
  [⟨0, 64, .RO, .val 0, false, 0, 18446744073709551615, []⟩]⟩

/-- QE_CTRL (R224). -/
def infoQE_CTRL : RegInfo := ⟨0xf00010000000, 0x0, [],
  [⟨0, 1, .RW, .val 0, false, 0, 1, []⟩,
   ⟨8, 4, .RW, .val 2, false, 0, 15, []⟩,
   ⟨16, 16, .RW, .val 1000, false, 100, 65535, []⟩]⟩

/-- QE_STATUS (R224). -/
def infoQE_STATUS : RegInfo := ⟨0xf00010000000, 0x8, [],
  [⟨0, 1, .W1C, .val 0, false, 0, 1, []⟩,
   ⟨1, 1, .W1C, .val 0, false, 0, 1, []⟩,
   ⟨16, 6, .RO, .val 0, false, 0, 63, []⟩,
   ⟨24, 6, .RO, .val 0, false, 0, 63, []⟩]⟩

/-- QE_ADOPT (R224). -/
def infoQE_ADOPT : RegInfo := ⟨0xf00010000000, 0x10, [],
  [⟨0, 64, .RW, .val 0, false, 0, 18446744073709551615, []⟩]⟩

/-- QE_ALIAS (R224). -/
def infoQE_ALIAS : RegInfo := ⟨0xf00010000000, 0x400, [⟨64, 0x8, 1, 0⟩],
  [⟨0, 6, .RO, .val 0, false, 0, 63, []⟩,
   ⟨8, 1, .RO, .val 0, false, 0, 1, []⟩]⟩

/-- QE_Q_CMD_BASE (R224). -/
def infoQE_Q_CMD_BASE : RegInfo := ⟨0xf00010000000, 0x10000, [⟨256, 0x40, 1, 0⟩],
  [⟨0, 48, .RW, .val 0, false, 0, 281474976710655, []⟩,
   ⟨48, 4, .RW, .val 6, false, 6, 16, []⟩]⟩

/-- QE_Q_RPL_BASE (R224). -/
def infoQE_Q_RPL_BASE : RegInfo := ⟨0xf00010000000, 0x10008, [⟨256, 0x40, 1, 0⟩],
  [⟨0, 48, .RW, .val 0, false, 0, 281474976710655, []⟩]⟩

/-- QE_Q_CFG (R224). -/
def infoQE_Q_CFG : RegInfo := ⟨0xf00010000000, 0x10010, [⟨256, 0x40, 1, 0⟩],
  [⟨0, 6, .RW, .val 0, false, 0, 63, []⟩,
   ⟨8, 1, .RW, .val 0, false, 0, 1, []⟩,
   ⟨9, 1, .RW, .val 1, false, 0, 1, []⟩,
   ⟨10, 1, .RW, .val 1, false, 0, 1, []⟩,
   ⟨16, 16, .RW, .val 0, false, 0, 65535, []⟩]⟩

/-- QE_Q_TAIL (R224). -/
def infoQE_Q_TAIL : RegInfo := ⟨0xf00010000000, 0x10018, [⟨256, 0x40, 1, 0⟩],
  [⟨0, 64, .RW, .val 0, false, 0, 18446744073709551615, []⟩]⟩

/-- QE_Q_HEAD (R224). -/
def infoQE_Q_HEAD : RegInfo := ⟨0xf00010000000, 0x10020, [⟨256, 0x40, 1, 0⟩],
  [⟨0, 64, .RO, .val 0, false, 0, 18446744073709551615, []⟩]⟩

/-- QE_Q_RHEAD (R224). -/
def infoQE_Q_RHEAD : RegInfo := ⟨0xf00010000000, 0x10028, [⟨256, 0x40, 1, 0⟩],
  [⟨0, 64, .RW, .val 0, false, 0, 18446744073709551615, []⟩]⟩

/-- QE_Q_STATE (R224). -/
def infoQE_Q_STATE : RegInfo := ⟨0xf00010000000, 0x10030, [⟨256, 0x40, 1, 0⟩],
  [⟨0, 3, .RO, .val 0, false, 0, 7, []⟩,
   ⟨8, 1, .W1C, .val 0, false, 0, 1, []⟩,
   ⟨9, 1, .W1C, .val 0, false, 0, 1, []⟩,
   ⟨10, 1, .W1C, .val 0, false, 0, 1, []⟩,
   ⟨16, 2, .WO, .val 0, false, 0, 3, []⟩,
   ⟨20, 1, .WO, .val 0, false, 0, 1, []⟩,
   ⟨24, 5, .RO, .val 0, false, 0, 31, []⟩]⟩

/-- QE_Q_CLAMP (R224). -/
def infoQE_Q_CLAMP : RegInfo := ⟨0xf00010000000, 0x10038, [⟨256, 0x40, 1, 0⟩],
  [⟨0, 32, .RO, .val 0, false, 0, 4294967295, []⟩,
   ⟨32, 8, .RO, .val 0, false, 0, 255, []⟩,
   ⟨40, 8, .RO, .val 0, false, 0, 255, []⟩,
   ⟨63, 1, .WO, .val 0, false, 0, 1, []⟩]⟩

/-- QE_GATE_VAL (R224). -/
def infoQE_GATE_VAL : RegInfo := ⟨0xf00010000000, 0x100000, [⟨4096, 0x10, 1, 0⟩],
  [⟨0, 48, .RW, .val 0, false, 0, 281474976710655, []⟩]⟩

/-- QE_GATE_ADD (R224). -/
def infoQE_GATE_ADD : RegInfo := ⟨0xf00010000000, 0x100008, [⟨4096, 0x10, 1, 0⟩],
  [⟨0, 48, .WO, .val 0, false, 0, 281474976710655, []⟩]⟩

/-- FLK_MEM_CTRL (R254). -/
def infoFLK_MEM_CTRL : RegInfo := ⟨0xf00050000000, 0x0, [⟨4, 0x1000000, 1, 0⟩],
  [⟨0, 2, .RWS, .val 0, true, 0, 3, []⟩,
   ⟨8, 7, .RW, .val 16, false, 1, 64, []⟩,
   ⟨16, 1, .RW, .val 1, false, 0, 1, []⟩]⟩

/-- FLK_MEM_SCRUB (R254). -/
def infoFLK_MEM_SCRUB : RegInfo := ⟨0xf00050000000, 0x8, [⟨4, 0x1000000, 1, 0⟩],
  [⟨0, 16, .RW, .val 24, false, 1, 8760, []⟩,
   ⟨32, 16, .RO, .val 0, false, 0, 65535, []⟩,
   ⟨56, 7, .RO, .val 0, false, 0, 127, []⟩]⟩

/-- FLK_MEM_QUAL (R254). -/
def infoFLK_MEM_QUAL : RegInfo := ⟨0xf00050000000, 0x10, [⟨4, 0x1000000, 1, 0⟩],
  [⟨0, 4, .RO, .val 0, false, 0, 15, []⟩,
   ⟨8, 4, .RO, .val 0, false, 0, 15, []⟩,
   ⟨12, 4, .RO, .val 0, false, 0, 15, []⟩,
   ⟨16, 1, .RO, .val 0, false, 0, 1, []⟩,
   ⟨24, 1, .RWL, .val 0, false, 0, 1, [1, 4]⟩]⟩

/-- FLK_MEM_STACK_STAT (R254). -/
def infoFLK_MEM_STACK_STAT : RegInfo := ⟨0xf00050000000, 0x100, [⟨4, 0x1000000, 4, 0⟩, ⟨4, 0x20, 1, 0⟩],
  [⟨0, 3, .RO, .val 0, false, 0, 7, []⟩,
   ⟨8, 8, .RO, .val 0, false, 0, 255, []⟩,
   ⟨16, 1, .RO, .val 0, false, 0, 1, []⟩,
   ⟨24, 4, .RO, .val 0, false, 0, 15, []⟩,
   ⟨32, 16, .RO, .val 0, false, 0, 65535, []⟩]⟩

/-- FLK_MEM_STACK_ECC (R254). -/
def infoFLK_MEM_STACK_ECC : RegInfo := ⟨0xf00050000000, 0x108, [⟨4, 0x1000000, 4, 0⟩, ⟨4, 0x20, 1, 0⟩],
  [⟨0, 16, .RO, .val 0, false, 0, 65535, []⟩,
   ⟨16, 16, .RO, .val 0, false, 0, 65535, []⟩,
   ⟨32, 16, .RO, .val 0, false, 0, 65535, []⟩,
   ⟨48, 16, .RO, .val 0, false, 0, 65535, []⟩]⟩

/-- FLK_MEM_STACK_ACT (R254). -/
def infoFLK_MEM_STACK_ACT : RegInfo := ⟨0xf00050000000, 0x110, [⟨4, 0x1000000, 4, 0⟩, ⟨4, 0x20, 1, 0⟩],
  [⟨0, 10, .RO, .val 0, false, 0, 1023, []⟩,
   ⟨16, 10, .RO, .val 0, false, 0, 1023, []⟩,
   ⟨32, 10, .RO, .val 0, false, 0, 1023, []⟩,
   ⟨48, 10, .RO, .val 0, false, 0, 1023, []⟩]⟩

/-- FLK_LDL_CTRL (R254). -/
def infoFLK_LDL_CTRL : RegInfo := ⟨0xf00050000000, 0x100000, [⟨4, 0x1000000, 1, 0⟩],
  [⟨0, 4, .RW, .val 12, false, 0, 15, []⟩,
   ⟨8, 1, .RW, .val 1, false, 0, 1, []⟩]⟩

/-- FLK_LDL_CNT (R254). -/
def infoFLK_LDL_CNT : RegInfo := ⟨0xf00050000000, 0x100008, [⟨4, 0x1000000, 1, 0⟩],
  [⟨0, 32, .RO, .val 0, false, 0, 4294967295, []⟩,
   ⟨32, 32, .RO, .val 0, false, 0, 4294967295, []⟩]⟩

/-- FLK_LDL_STAT (R254). -/
def infoFLK_LDL_STAT : RegInfo := ⟨0xf00050000000, 0x100010, [⟨4, 0x1000000, 1, 0⟩],
  [⟨0, 20, .RO, .val 0, false, 0, 1048575, []⟩,
   ⟨20, 21, .RO, .val 0, false, 0, 2097151, []⟩,
   ⟨48, 16, .RO, .val 0, false, 0, 65535, []⟩]⟩

/-- FLK_TRN_STATUS (R254). -/
def infoFLK_TRN_STATUS : RegInfo := ⟨0xf00050000000, 0x200000, [⟨4, 0x1000000, 1, 0⟩],
  [⟨0, 5, .RO, .val 0, false, 0, 31, []⟩,
   ⟨8, 1, .W1C, .val 0, false, 0, 1, []⟩,
   ⟨16, 4, .RO, .val 0, false, 0, 15, []⟩]⟩

/-- FLK_TRN_SLOT (R254). -/
def infoFLK_TRN_SLOT : RegInfo := ⟨0xf00050000000, 0x200100, [⟨4, 0x1000000, 1, 0⟩, ⟨64, 0x8, 0, 1⟩],
  [⟨0, 1, .RO, .val 0, false, 0, 1, []⟩,
   ⟨1, 1, .RO, .val 0, false, 0, 1, []⟩,
   ⟨8, 40, .RO, .val 0, false, 0, 1099511627775, []⟩]⟩

/-- FLK_D2D_CTRL (R273). -/
def infoFLK_D2D_CTRL : RegInfo := ⟨0xf00050000000, 0x300000, [⟨4, 0x1000000, 1, 0⟩],
  [⟨0, 1, .RWS, .val 0, true, 0, 1, []⟩,
   ⟨1, 1, .WO, .val 0, false, 0, 1, []⟩,
   ⟨2, 1, .RWS, .val 1, true, 0, 1, []⟩,
   ⟨8, 4, .RW, .val 4, false, 1, 15, []⟩,
   ⟨16, 7, .RWS, .val 32, true, 1, 64, []⟩]⟩

/-- FLK_D2D_STATUS (R273). -/
def infoFLK_D2D_STATUS : RegInfo := ⟨0xf00050000000, 0x300008, [⟨4, 0x1000000, 1, 0⟩],
  [⟨0, 2, .RO, .val 0, false, 0, 3, []⟩,
   ⟨16, 7, .RO, .val 0, false, 0, 127, []⟩,
   ⟨24, 7, .RO, .val 0, false, 0, 127, []⟩,
   ⟨32, 1, .W1C, .val 0, false, 0, 1, []⟩,
   ⟨33, 1, .W1C, .val 0, false, 0, 1, []⟩,
   ⟨34, 1, .W1C, .val 0, false, 0, 1, []⟩,
   ⟨35, 1, .W1C, .val 0, false, 0, 1, []⟩]⟩

/-- FLK_D2D_CNT (R273). -/
def infoFLK_D2D_CNT : RegInfo := ⟨0xf00050000000, 0x300010, [⟨4, 0x1000000, 1, 0⟩],
  [⟨0, 32, .RO, .val 0, false, 0, 4294967295, []⟩,
   ⟨32, 16, .RO, .val 0, false, 0, 65535, []⟩,
   ⟨48, 16, .RO, .val 0, false, 0, 65535, []⟩]⟩

/-- FLK_D2D_SLICE (R273). -/
def infoFLK_D2D_SLICE : RegInfo := ⟨0xf00050000000, 0x300100, [⟨4, 0x1000000, 1, 0⟩, ⟨128, 0x8, 0, 1⟩],
  [⟨0, 7, .RO, .val 127, false, 0, 127, []⟩,
   ⟨8, 7, .RO, .val 127, false, 0, 127, []⟩,
   ⟨16, 7, .RO, .val 127, false, 0, 127, []⟩,
   ⟨24, 7, .RO, .val 127, false, 0, 127, []⟩,
   ⟨32, 1, .RO, .val 0, false, 0, 1, []⟩,
   ⟨40, 8, .RO, .val 0, false, 0, 255, []⟩,
   ⟨48, 16, .RO, .val 0, false, 0, 65535, []⟩]⟩

/-- CRU_D2D_STAT (R274). -/
def infoCRU_D2D_STAT : RegInfo := ⟨0xf00000000000, 0x80000, [⟨5, 0x8, 1, 0⟩],
  [⟨0, 1, .RO, .val 0, false, 0, 1, []⟩,
   ⟨1, 3, .RO, .val 0, false, 0, 7, []⟩,
   ⟨4, 3, .RO, .val 0, false, 0, 7, []⟩,
   ⟨8, 8, .RO, .val 0, false, 0, 255, []⟩,
   ⟨16, 32, .RO, .val 0, false, 0, 4294967295, []⟩]⟩

/-- LE_CTRL (R302). -/
def infoLE_CTRL : RegInfo := ⟨0xf00060000000, 0x0, [⟨8, 0x100000, 1, 0⟩],
  [⟨0, 1, .RW, .val 1, false, 0, 1, []⟩,
   ⟨1, 1, .RW, .val 1, false, 0, 1, []⟩,
   ⟨2, 1, .RW, .val 1, false, 0, 1, []⟩,
   ⟨3, 1, .WO, .val 0, false, 0, 1, []⟩,
   ⟨4, 1, .RW, .val 0, false, 0, 1, []⟩]⟩

/-- LE_STATUS (R302). -/
def infoLE_STATUS : RegInfo := ⟨0xf00060000000, 0x8, [⟨8, 0x100000, 1, 0⟩],
  [⟨0, 1, .RO, .val 0, false, 0, 1, []⟩,
   ⟨1, 1, .RO, .val 0, false, 0, 1, []⟩,
   ⟨2, 1, .RO, .val 0, false, 0, 1, []⟩,
   ⟨8, 8, .RO, .val 0, false, 0, 255, []⟩,
   ⟨16, 1, .W1C, .val 0, false, 0, 1, []⟩,
   ⟨17, 1, .W1C, .val 0, false, 0, 1, []⟩,
   ⟨18, 1, .W1C, .val 0, false, 0, 1, []⟩,
   ⟨19, 1, .W1C, .val 0, false, 0, 1, []⟩,
   ⟨20, 1, .W1C, .val 0, false, 0, 1, []⟩,
   ⟨21, 1, .W1C, .val 0, false, 0, 1, []⟩,
   ⟨22, 1, .W1C, .val 0, false, 0, 1, []⟩]⟩

/-- LE_THRESH (R302). -/
def infoLE_THRESH : RegInfo := ⟨0xf00060000000, 0x10, [⟨8, 0x100000, 1, 0⟩],
  [⟨0, 8, .RW, .val 125, false, 0, 255, []⟩,
   ⟨8, 8, .RW, .val 140, false, 0, 255, []⟩,
   ⟨16, 16, .RW, .val 30, false, 0, 65535, []⟩,
   ⟨32, 16, .RW, .val 65406, false, 0, 65535, []⟩,
   ⟨48, 4, .RW, .val 5, false, 3, 15, []⟩]⟩

/-- LE_LOOP (R302). -/
def infoLE_LOOP : RegInfo := ⟨0xf00060000000, 0x18, [⟨8, 0x100000, 1, 0⟩],
  [⟨0, 8, .RW, .val 128, false, 1, 255, []⟩,
   ⟨8, 1, .RWL, .val 0, false, 0, 1, [1, 4]⟩]⟩

/-- LE_COMB_HEALTH (R302). -/
def infoLE_COMB_HEALTH : RegInfo := ⟨0xf00060000000, 0x100, [⟨8, 0x100000, 1, 0⟩, ⟨2, 0x20, 0, 1⟩],
  [⟨0, 3, .RO, .val 0, false, 0, 7, []⟩,
   ⟨8, 8, .RO, .val 0, false, 0, 255, []⟩,
   ⟨16, 16, .RO, .fuse, false, 0, 65535, []⟩,
   ⟨32, 16, .RO, .val 0, false, 0, 65535, []⟩,
   ⟨48, 8, .RO, .val 0, false, 0, 255, []⟩,
   ⟨56, 5, .RO, .val 0, false, 0, 31, []⟩]⟩

/-- LE_COMB_AGE (R302). -/
def infoLE_COMB_AGE : RegInfo := ⟨0xf00060000000, 0x108, [⟨8, 0x100000, 1, 0⟩, ⟨2, 0x20, 0, 1⟩],
  [⟨0, 32, .RO, .val 0, true, 0, 4294967295, []⟩,
   ⟨32, 32, .RO, .val 4294967295, true, 0, 4294967295, []⟩]⟩

/-- LE_LINEPWR (R302). -/
def infoLE_LINEPWR : RegInfo := ⟨0xf00060000000, 0x200, [⟨8, 0x100000, 1, 0⟩, ⟨18, 0x8, 0, 1⟩],
  [⟨0, 16, .RO, .val 32768, false, 0, 65535, []⟩,
   ⟨16, 16, .RO, .val 32768, false, 0, 65535, []⟩,
   ⟨32, 1, .RO, .val 0, false, 0, 1, []⟩]⟩

/-- LE_PORT_CTRL (R302). -/
def infoLE_PORT_CTRL : RegInfo := ⟨0xf00060000000, 0x10000, [⟨8, 0x100000, 2, 0⟩, ⟨2, 0x1000, 1, 0⟩],
  [⟨0, 1, .RW, .val 0, false, 0, 1, []⟩,
   ⟨1, 1, .WO, .val 0, false, 0, 1, []⟩,
   ⟨8, 4, .RW, .val 0, false, 0, 15, []⟩,
   ⟨16, 5, .RW, .val 12, false, 8, 16, []⟩,
   ⟨32, 16, .RW, .val 100, false, 10, 65535, []⟩]⟩

/-- LE_PORT_STATUS (R302). -/
def infoLE_PORT_STATUS : RegInfo := ⟨0xf00060000000, 0x10008, [⟨8, 0x100000, 2, 0⟩, ⟨2, 0x1000, 1, 0⟩],
  [⟨0, 3, .RO, .val 0, false, 0, 7, []⟩,
   ⟨4, 5, .RO, .val 0, false, 0, 31, []⟩,
   ⟨12, 2, .RO, .val 0, false, 0, 3, []⟩,
   ⟨14, 1, .RO, .val 0, false, 0, 1, []⟩,
   ⟨16, 16, .RO, .val 0, false, 0, 65535, []⟩,
   ⟨32, 4, .RO, .val 0, false, 0, 15, []⟩,
   ⟨36, 1, .RO, .val 0, false, 0, 1, []⟩]⟩

/-- LE_PORT_LANEMAP0 (R302). -/
def infoLE_PORT_LANEMAP0 : RegInfo := ⟨0xf00060000000, 0x10010, [⟨8, 0x100000, 2, 0⟩, ⟨2, 0x1000, 1, 0⟩],
  [⟨0, 5, .RO, .val 0, false, 0, 31, []⟩,
   ⟨8, 5, .RO, .val 1, false, 0, 31, []⟩,
   ⟨16, 5, .RO, .val 2, false, 0, 31, []⟩,
   ⟨24, 5, .RO, .val 3, false, 0, 31, []⟩,
   ⟨32, 5, .RO, .val 4, false, 0, 31, []⟩,
   ⟨40, 5, .RO, .val 5, false, 0, 31, []⟩,
   ⟨48, 5, .RO, .val 6, false, 0, 31, []⟩,
   ⟨56, 5, .RO, .val 7, false, 0, 31, []⟩]⟩

/-- LE_PORT_LANEMAP1 (R302). -/
def infoLE_PORT_LANEMAP1 : RegInfo := ⟨0xf00060000000, 0x10018, [⟨8, 0x100000, 2, 0⟩, ⟨2, 0x1000, 1, 0⟩],
  [⟨0, 5, .RO, .val 8, false, 0, 31, []⟩,
   ⟨8, 5, .RO, .val 9, false, 0, 31, []⟩,
   ⟨16, 5, .RO, .val 10, false, 0, 31, []⟩,
   ⟨24, 5, .RO, .val 11, false, 0, 31, []⟩,
   ⟨32, 5, .RO, .val 12, false, 0, 31, []⟩,
   ⟨40, 5, .RO, .val 13, false, 0, 31, []⟩,
   ⟨48, 5, .RO, .val 14, false, 0, 31, []⟩,
   ⟨56, 5, .RO, .val 15, false, 0, 31, []⟩]⟩

/-- LE_PORT_CNT (R302). -/
def infoLE_PORT_CNT : RegInfo := ⟨0xf00060000000, 0x10020, [⟨8, 0x100000, 2, 0⟩, ⟨2, 0x1000, 1, 0⟩],
  [⟨0, 16, .RO, .val 0, false, 0, 65535, []⟩,
   ⟨16, 16, .RO, .val 0, false, 0, 65535, []⟩,
   ⟨32, 16, .RO, .val 0, false, 0, 65535, []⟩,
   ⟨48, 16, .RO, .val 0, false, 0, 65535, []⟩]⟩

/-- LE_PORT_RING (R302). -/
def infoLE_PORT_RING : RegInfo := ⟨0xf00060000000, 0x10100, [⟨8, 0x100000, 2, 0⟩, ⟨2, 0x1000, 1, 0⟩, ⟨36, 0x8, 0, 1⟩],
  [⟨0, 16, .RO, .val 0, false, 0, 65535, []⟩,
   ⟨16, 1, .RO, .val 0, false, 0, 1, []⟩,
   ⟨17, 1, .RO, .val 0, false, 0, 1, []⟩,
   ⟨24, 8, .RO, .val 0, false, 0, 255, []⟩,
   ⟨32, 16, .RO, .val 0, false, 0, 65535, []⟩]⟩

/-- LE_PORT_RX (R302). -/
def infoLE_PORT_RX : RegInfo := ⟨0xf00060000000, 0x10400, [⟨8, 0x100000, 2, 0⟩, ⟨2, 0x1000, 1, 0⟩, ⟨18, 0x8, 0, 1⟩],
  [⟨0, 16, .RO, .val 32768, false, 0, 65535, []⟩,
   ⟨16, 24, .RO, .val 0, false, 0, 16777215, []⟩,
   ⟨40, 16, .RO, .val 0, false, 0, 65535, []⟩,
   ⟨56, 1, .RO, .val 1, false, 0, 1, []⟩]⟩

/-- FAB_ADDR (R334). -/
def infoFAB_ADDR : RegInfo := ⟨0xf00050000000, 0x400000, [⟨4, 0x1000000, 0, 0⟩],
  [⟨0, 3, .RO, .strap, false, 0, 7, []⟩,
   ⟨4, 3, .RO, .strap, false, 0, 7, []⟩,
   ⟨8, 8, .RWS, .val 0, true, 0, 255, []⟩,
   ⟨16, 1, .RO, .val 0, true, 0, 1, []⟩,
   ⟨24, 8, .RWS, .val 1, true, 0, 255, []⟩]⟩

/-- FAB_CTRL (R334). -/
def infoFAB_CTRL : RegInfo := ⟨0xf00050000000, 0x400008, [⟨4, 0x1000000, 0, 0⟩],
  [⟨0, 1, .RW, .val 0, false, 0, 1, []⟩,
   ⟨1, 1, .RW, .val 1, false, 0, 1, []⟩,
   ⟨16, 16, .RW, .val 100, false, 1, 65535, []⟩]⟩

/-- FAB_E2E (R334). -/
def infoFAB_E2E : RegInfo := ⟨0xf00050000000, 0x400010, [⟨4, 0x1000000, 0, 0⟩],
  [⟨0, 16, .RW, .val 100, false, 10, 65535, []⟩,
   ⟨16, 4, .RW, .val 8, false, 1, 15, []⟩,
   ⟨24, 8, .RW, .val 32, false, 1, 128, []⟩,
   ⟨32, 16, .RW, .val 1000, false, 100, 65535, []⟩]⟩

/-- FAB_RT_CTRL (R334). -/
def infoFAB_RT_CTRL : RegInfo := ⟨0xf00050000000, 0x400018, [⟨4, 0x1000000, 0, 0⟩],
  [⟨0, 1, .RO, .val 0, false, 0, 1, []⟩,
   ⟨4, 3, .RO, .val 3, false, 0, 7, []⟩,
   ⟨8, 3, .RO, .val 0, false, 0, 7, []⟩,
   ⟨16, 1, .WO, .val 0, false, 0, 1, []⟩,
   ⟨17, 1, .WO, .val 0, false, 0, 1, []⟩,
   ⟨18, 1, .WO, .val 0, false, 0, 1, []⟩,
   ⟨24, 1, .W1C, .val 0, false, 0, 1, []⟩]⟩

/-- FAB_RT_OCC (R334). -/
def infoFAB_RT_OCC : RegInfo := ⟨0xf00050000000, 0x400020, [⟨4, 0x1000000, 0, 0⟩],
  [⟨0, 24, .RO, .val 0, false, 0, 16777215, []⟩,
   ⟨24, 24, .RO, .val 0, false, 0, 16777215, []⟩,
   ⟨48, 16, .RO, .val 0, false, 0, 65535, []⟩]⟩

/-- FAB_STATUS (R334). -/
def infoFAB_STATUS : RegInfo := ⟨0xf00050000000, 0x400028, [⟨4, 0x1000000, 0, 0⟩],
  [⟨0, 1, .W1C, .val 0, false, 0, 1, []⟩,
   ⟨1, 1, .W1C, .val 0, false, 0, 1, []⟩,
   ⟨2, 1, .W1C, .val 0, false, 0, 1, []⟩,
   ⟨3, 1, .W1C, .val 0, false, 0, 1, []⟩,
   ⟨16, 16, .RO, .val 0, false, 0, 65535, []⟩,
   ⟨32, 13, .RO, .val 0, false, 0, 8191, []⟩]⟩

/-- FAB_CNT (R334). -/
def infoFAB_CNT : RegInfo := ⟨0xf00050000000, 0x400030, [⟨4, 0x1000000, 1, 0⟩],
  [⟨0, 32, .RO, .val 0, false, 0, 4294967295, []⟩,
   ⟨32, 16, .RO, .val 0, false, 0, 65535, []⟩,
   ⟨48, 16, .RO, .val 0, false, 0, 65535, []⟩]⟩

/-- FAB_PEER_CLR (R334). -/
def infoFAB_PEER_CLR : RegInfo := ⟨0xf00050000000, 0x400038, [⟨4, 0x1000000, 0, 0⟩],
  [⟨0, 16, .WO, .val 0, false, 0, 65535, []⟩]⟩

/-- FAB_CABLE (R334). -/
def infoFAB_CABLE : RegInfo := ⟨0xf00050000000, 0x400040, [⟨4, 0x1000000, 0, 0⟩],
  [⟨0, 16, .RO, .val 0, false, 0, 65535, []⟩,
   ⟨16, 16, .RO, .val 0, false, 0, 65535, []⟩,
   ⟨32, 16, .RO, .val 0, false, 0, 65535, []⟩,
   ⟨48, 16, .RO, .val 65535, false, 0, 65535, []⟩]⟩

/-- FAB_PORT_STAT (R334). -/
def infoFAB_PORT_STAT : RegInfo := ⟨0xf00050000000, 0x400100, [⟨4, 0x1000000, 4, 0⟩, ⟨4, 0x20, 1, 0⟩],
  [⟨0, 1, .RO, .val 0, false, 0, 1, []⟩,
   ⟨1, 1, .RO, .val 0, false, 0, 1, []⟩,
   ⟨4, 3, .RO, .val 0, false, 0, 7, []⟩,
   ⟨7, 1, .RO, .val 0, false, 0, 1, []⟩,
   ⟨16, 16, .RO, .val 0, false, 0, 65535, []⟩,
   ⟨32, 10, .RO, .val 0, false, 0, 1023, []⟩]⟩

/-- FAB_PORT_EXPECT (R334). -/
def infoFAB_PORT_EXPECT : RegInfo := ⟨0xf00050000000, 0x400108, [⟨4, 0x1000000, 4, 0⟩, ⟨4, 0x20, 1, 0⟩],
  [⟨0, 16, .RW, .val 0, false, 0, 65535, []⟩,
   ⟨16, 4, .RW, .val 0, false, 0, 15, []⟩,
   ⟨20, 1, .RW, .val 0, false, 0, 1, []⟩]⟩

/-- FAB_PORT_CHECK (R334). -/
def infoFAB_PORT_CHECK : RegInfo := ⟨0xf00050000000, 0x400110, [⟨4, 0x1000000, 4, 0⟩, ⟨4, 0x20, 1, 0⟩],
  [⟨0, 1, .WO, .val 0, false, 0, 1, []⟩,
   ⟨1, 1, .WO, .val 0, false, 0, 1, []⟩]⟩

/-- FAB_PORT_CNT (R334). -/
def infoFAB_PORT_CNT : RegInfo := ⟨0xf00050000000, 0x400118, [⟨4, 0x1000000, 4, 0⟩, ⟨4, 0x20, 1, 0⟩],
  [⟨0, 32, .RO, .val 0, false, 0, 4294967295, []⟩,
   ⟨32, 16, .RO, .val 0, false, 0, 65535, []⟩,
   ⟨48, 16, .RO, .val 0, false, 0, 65535, []⟩]⟩

/-- FAB_RT_RACK (R334). -/
def infoFAB_RT_RACK : RegInfo := ⟨0xf00050000000, 0x410000, [⟨4, 0x1000000, 0, 0⟩, ⟨2, 0x1000, 1, 0⟩, ⟨129, 0x8, 0, 1⟩],
  [⟨0, 4, .RW, .val 14, false, 0, 15, []⟩,
   ⟨4, 4, .RW, .val 14, false, 0, 15, []⟩]⟩

/-- FAB_RT_LOCAL (R334). -/
def infoFAB_RT_LOCAL : RegInfo := ⟨0xf00050000000, 0x410800, [⟨4, 0x1000000, 0, 0⟩, ⟨2, 0x1000, 1, 0⟩, ⟨64, 0x8, 0, 1⟩],
  [⟨0, 4, .RW, .val 14, false, 0, 15, []⟩,
   ⟨4, 4, .RW, .val 14, false, 0, 15, []⟩]⟩

/-- TRY_CTRL (R358). -/
def infoTRY_CTRL : RegInfo := ⟨0xf00050000000, 0x600000, [⟨4, 0x1000000, 0, 0⟩],
  [⟨0, 1, .RW, .val 0, false, 0, 1, []⟩]⟩

/-- TRY_WIN (R358). -/
def infoTRY_WIN : RegInfo := ⟨0xf00050000000, 0x600008, [⟨4, 0x1000000, 0, 0⟩],
  [⟨0, 10, .RW, .val 0, false, 0, 1023, []⟩,
   ⟨16, 5, .RW, .val 0, false, 0, 16, []⟩]⟩

/-- TRY_STATUS (R358). -/
def infoTRY_STATUS : RegInfo := ⟨0xf00050000000, 0x600010, [⟨4, 0x1000000, 0, 0⟩],
  [⟨0, 2, .RO, .val 0, false, 0, 3, []⟩,
   ⟨8, 8, .RO, .val 0, false, 0, 255, []⟩,
   ⟨16, 1, .W1C, .val 0, false, 0, 1, []⟩,
   ⟨17, 1, .W1C, .val 0, false, 0, 1, []⟩,
   ⟨18, 1, .W1C, .val 0, false, 0, 1, []⟩,
   ⟨24, 3, .RO, .val 0, false, 0, 7, []⟩]⟩

/-- TRY_DIR (R358). -/
def infoTRY_DIR : RegInfo := ⟨0xf00050000000, 0x600018, [⟨4, 0x1000000, 1, 0⟩],
  [⟨0, 18, .RO, .val 0, false, 0, 262143, []⟩,
   ⟨32, 16, .RO, .val 0, false, 0, 65535, []⟩]⟩

/-- TRY_CNT (R358). -/
def infoTRY_CNT : RegInfo := ⟨0xf00050000000, 0x600020, [⟨4, 0x1000000, 1, 0⟩],
  [⟨0, 32, .RO, .val 0, false, 0, 4294967295, []⟩,
   ⟨32, 16, .RO, .val 0, false, 0, 65535, []⟩,
   ⟨48, 16, .RO, .val 0, false, 0, 65535, []⟩]⟩

/-- TRY_COPY (R358). -/
def infoTRY_COPY : RegInfo := ⟨0xf00050000000, 0x600028, [⟨4, 0x1000000, 1, 0⟩],
  [⟨0, 4, .RO, .val 0, false, 0, 15, []⟩,
   ⟨16, 48, .RO, .val 0, false, 0, 281474976710655, []⟩]⟩

/-- COL_CTRL (R382). -/
def infoCOL_CTRL : RegInfo := ⟨0xf00050000000, 0x500000, [⟨4, 0x1000000, 0, 0⟩],
  [⟨0, 16, .RW, .val 1000, false, 10, 65535, []⟩,
   ⟨16, 16, .RW, .val 100, false, 1, 65535, []⟩]⟩

/-- COL_STATUS (R382). -/
def infoCOL_STATUS : RegInfo := ⟨0xf00050000000, 0x500008, [⟨4, 0x1000000, 1, 0⟩],
  [⟨0, 1, .W1C, .val 0, false, 0, 1, []⟩,
   ⟨1, 1, .W1C, .val 0, false, 0, 1, []⟩,
   ⟨2, 1, .W1C, .val 0, false, 0, 1, []⟩,
   ⟨3, 1, .W1C, .val 0, false, 0, 1, []⟩,
   ⟨4, 1, .W1C, .val 0, false, 0, 1, []⟩,
   ⟨8, 8, .RO, .val 0, false, 0, 255, []⟩,
   ⟨16, 16, .RO, .val 0, false, 0, 65535, []⟩,
   ⟨32, 32, .RO, .val 0, false, 0, 4294967295, []⟩]⟩

/-- COL_CNT (R382). -/
def infoCOL_CNT : RegInfo := ⟨0xf00050000000, 0x500010, [⟨4, 0x1000000, 1, 0⟩],
  [⟨0, 32, .RO, .val 0, false, 0, 4294967295, []⟩,
   ⟨32, 16, .RO, .val 0, false, 0, 65535, []⟩,
   ⟨48, 16, .RO, .val 0, false, 0, 65535, []⟩]⟩

/-- COL_ACT (R382). -/
def infoCOL_ACT : RegInfo := ⟨0xf00050000000, 0x500018, [⟨4, 0x1000000, 1, 0⟩],
  [⟨0, 5, .RO, .val 0, false, 0, 31, []⟩,
   ⟨16, 13, .RO, .val 0, false, 0, 8191, []⟩]⟩

/-- COL_GRP_CFG (R382). -/
def infoCOL_GRP_CFG : RegInfo := ⟨0xf00050000000, 0x501000, [⟨4, 0x1000000, 0, 0⟩, ⟨256, 0x20, 1, 0⟩],
  [⟨0, 16, .RW, .val 0, false, 0, 65535, []⟩,
   ⟨16, 14, .RW, .val 1, false, 0, 16383, []⟩,
   ⟨32, 14, .RW, .val 0, false, 0, 16383, []⟩,
   ⟨48, 8, .RW, .val 0, false, 0, 255, []⟩]⟩

/-- COL_GRP_LIST (R382). -/
def infoCOL_GRP_LIST : RegInfo := ⟨0xf00050000000, 0x501008, [⟨4, 0x1000000, 0, 0⟩, ⟨256, 0x20, 1, 0⟩],
  [⟨0, 48, .RW, .val 0, false, 0, 281474976710655, []⟩]⟩

/-- COL_GRP_CTRL (R382). -/
def infoCOL_GRP_CTRL : RegInfo := ⟨0xf00050000000, 0x501010, [⟨4, 0x1000000, 0, 0⟩, ⟨256, 0x20, 1, 0⟩],
  [⟨0, 1, .WO, .val 0, false, 0, 1, []⟩,
   ⟨1, 1, .WO, .val 0, false, 0, 1, []⟩]⟩

/-- COL_GRP_STAT (R382). -/
def infoCOL_GRP_STAT : RegInfo := ⟨0xf00050000000, 0x501018, [⟨4, 0x1000000, 0, 0⟩, ⟨256, 0x20, 1, 0⟩],
  [⟨0, 2, .RO, .val 0, false, 0, 3, []⟩,
   ⟨16, 32, .RO, .val 0, false, 0, 4294967295, []⟩,
   ⟨48, 8, .RO, .val 0, false, 0, 255, []⟩]⟩

/-- CRU_ID (R415). -/
def infoCRU_ID : RegInfo := ⟨0xf00000000000, 0x0, [],
  [⟨0, 16, .RO, .val 25622, false, 0, 65535, []⟩,
   ⟨16, 4, .RO, .val 1, false, 0, 15, []⟩,
   ⟨20, 4, .RO, .val 1, false, 0, 15, []⟩,
   ⟨24, 8, .RO, .val 1, false, 0, 255, []⟩,
   ⟨32, 32, .RO, .fuse, false, 0, 4294967295, []⟩]⟩

/-- CRU_BOOT (R415). -/
def infoCRU_BOOT : RegInfo := ⟨0xf00000000000, 0x8, [],
  [⟨0, 4, .RO, .val 0, false, 0, 15, []⟩,
   ⟨8, 8, .RO, .val 0, false, 0, 255, []⟩,
   ⟨16, 1, .RO, .val 0, false, 0, 1, []⟩,
   ⟨17, 1, .RO, .val 1, false, 0, 1, []⟩,
   ⟨18, 1, .RO, .val 0, false, 0, 1, []⟩,
   ⟨20, 4, .RO, .val 0, false, 0, 15, []⟩]⟩

/-- CRU_RESET (R415). -/
def infoCRU_RESET : RegInfo := ⟨0xf00000000000, 0x10, [],
  [⟨0, 1, .WO, .val 0, false, 0, 1, []⟩,
   ⟨32, 32, .RWS, .val 0, true, 0, 4294967295, []⟩]⟩

/-- CRU_TIME (R415). -/
def infoCRU_TIME : RegInfo := ⟨0xf00000000000, 0x100, [],
  [⟨0, 64, .RO, .val 0, true, 0, 18446744073709551615, []⟩]⟩

/-- CRU_TIME_STAT (R415). -/
def infoCRU_TIME_STAT : RegInfo := ⟨0xf00000000000, 0x108, [],
  [⟨0, 2, .RO, .val 0, true, 0, 3, []⟩,
   ⟨32, 32, .RO, .val 0, true, 0, 4294967295, []⟩]⟩

/-- CRU_NOTICE (R415). -/
def infoCRU_NOTICE : RegInfo := ⟨0xf00000000000, 0x200, [],
  [⟨0, 8, .RO, .val 0, false, 0, 255, []⟩,
   ⟨8, 1, .W1C, .val 0, false, 0, 1, []⟩,
   ⟨9, 1, .W1C, .val 0, false, 0, 1, []⟩]⟩

/-- CRU_MGT_MAC (R415). -/
def infoCRU_MGT_MAC : RegInfo := ⟨0xf00000000000, 0x10000, [],
  [⟨0, 48, .RO, .fuse, false, 0, 281474976710655, []⟩]⟩

/-- CRU_MGT_STAT (R415). -/
def infoCRU_MGT_STAT : RegInfo := ⟨0xf00000000000, 0x10008, [],
  [⟨0, 1, .RO, .val 0, true, 0, 1, []⟩,
   ⟨1, 1, .RO, .val 0, true, 0, 1, []⟩,
   ⟨8, 7, .RO, .val 0, true, 0, 127, []⟩]⟩

/-- CRU_MGT_CNT (R415). -/
def infoCRU_MGT_CNT : RegInfo := ⟨0xf00000000000, 0x10010, [],
  [⟨0, 16, .RO, .val 0, true, 0, 65535, []⟩,
   ⟨16, 16, .RO, .val 0, true, 0, 65535, []⟩,
   ⟨32, 16, .RO, .val 0, true, 0, 65535, []⟩,
   ⟨48, 16, .RO, .val 0, true, 0, 65535, []⟩]⟩

/-- CRU_MGT_OSQ (R415). -/
def infoCRU_MGT_OSQ : RegInfo := ⟨0xf00000000000, 0x10018, [],
  [⟨0, 48, .RW, .val 0, false, 0, 281474976710655, []⟩,
   ⟨48, 4, .RW, .val 8, false, 4, 12, []⟩,
   ⟨56, 1, .RW, .val 0, false, 0, 1, []⟩]⟩

/-- CRU_SMB_STAT (R415). -/
def infoCRU_SMB_STAT : RegInfo := ⟨0xf00000000000, 0x20000, [],
  [⟨0, 7, .RO, .strap, false, 0, 127, []⟩,
   ⟨8, 1, .W1C, .val 0, true, 0, 1, []⟩,
   ⟨9, 1, .W1C, .val 0, true, 0, 1, []⟩,
   ⟨16, 32, .RO, .val 0, true, 0, 4294967295, []⟩]⟩

/-- SEC_LCS (R439). -/
def infoSEC_LCS : RegInfo := ⟨0xf00001000000, 0x0, [],
  [⟨0, 3, .RO, .fuse, false, 0, 7, []⟩,
   ⟨4, 2, .RO, .fuse, false, 0, 3, []⟩,
   ⟨8, 2, .RO, .val 0, true, 0, 3, []⟩,
   ⟨10, 2, .RO, .val 0, true, 0, 3, []⟩,
   ⟨12, 1, .RO, .val 0, false, 0, 1, []⟩]⟩

/-- SEC_ROLLBACK (R439). -/
def infoSEC_ROLLBACK : RegInfo := ⟨0xf00001000000, 0x8, [],
  [⟨0, 7, .RO, .fuse, false, 0, 127, []⟩,
   ⟨8, 7, .RO, .fuse, false, 0, 127, []⟩,
   ⟨16, 7, .RO, .fuse, false, 0, 127, []⟩,
   ⟨24, 7, .RO, .fuse, false, 0, 127, []⟩]⟩

/-- SEC_CHAL (R439). -/
def infoSEC_CHAL : RegInfo := ⟨0xf00001000000, 0x10, [⟨6, 0x8, 1, 0⟩],
  [⟨0, 64, .RO, .val 0, false, 0, 18446744073709551615, []⟩]⟩

/-- SEC_EVENT (R439). -/
def infoSEC_EVENT : RegInfo := ⟨0xf00001000000, 0x40, [],
  [⟨0, 1, .W1C, .val 0, false, 0, 1, []⟩,
   ⟨1, 1, .W1C, .val 0, false, 0, 1, []⟩,
   ⟨2, 1, .W1C, .val 0, false, 0, 1, []⟩,
   ⟨3, 1, .W1C, .val 0, false, 0, 1, []⟩,
   ⟨4, 1, .W1C, .val 0, false, 0, 1, []⟩,
   ⟨16, 4, .RO, .val 0, false, 0, 15, []⟩,
   ⟨20, 4, .RO, .val 0, false, 0, 15, []⟩]⟩

/-- SEC_ROOTS (R439). -/
def infoSEC_ROOTS : RegInfo := ⟨0xf00001000000, 0x48, [],
  [⟨0, 3, .RO, .val 0, true, 0, 7, []⟩,
   ⟨8, 8, .RO, .val 0, false, 0, 255, []⟩]⟩

/-- SEC_IMG_STAT (R439). -/
def infoSEC_IMG_STAT : RegInfo := ⟨0xf00001000000, 0x100, [⟨4, 0x8, 1, 0⟩],
  [⟨0, 1, .RO, .val 0, true, 0, 1, []⟩,
   ⟨1, 1, .RO, .val 0, false, 0, 1, []⟩,
   ⟨2, 1, .W1C, .val 0, false, 0, 1, []⟩,
   ⟨8, 8, .RO, .val 0, false, 0, 255, []⟩,
   ⟨16, 8, .RO, .val 0, false, 0, 255, []⟩]⟩

/-- SEC_ATT_CTRL (R439). -/
def infoSEC_ATT_CTRL : RegInfo := ⟨0xf00001000000, 0x1000, [⟨4, 0x400, 1, 0⟩],
  [⟨0, 1, .WO, .val 0, false, 0, 1, []⟩,
   ⟨1, 1, .RO, .val 0, false, 0, 1, []⟩,
   ⟨2, 1, .W1C, .val 0, false, 0, 1, []⟩,
   ⟨3, 1, .W1C, .val 0, false, 0, 1, []⟩]⟩

/-- SEC_ATT_NONCE (R439). -/
def infoSEC_ATT_NONCE : RegInfo := ⟨0xf00001000000, 0x1008, [⟨4, 0x400, 1, 0⟩, ⟨6, 0x8, 0, 1⟩],
  [⟨0, 64, .RW, .val 0, false, 0, 18446744073709551615, []⟩]⟩

/-- SEC_ATT_REPORT (R439). -/
def infoSEC_ATT_REPORT : RegInfo := ⟨0xf00001000000, 0x1100, [⟨4, 0x400, 1, 0⟩, ⟨56, 0x8, 0, 1⟩],
  [⟨0, 64, .RO, .val 0, false, 0, 18446744073709551615, []⟩]⟩

/-- EYE_CTRL (R461). -/
def infoEYE_CTRL : RegInfo := ⟨0xf00002000000, 0x0, [],
  [⟨0, 16, .RWS, .val 500, true, 1, 65535, []⟩,
   ⟨16, 4, .RWS, .val 8, true, 1, 15, []⟩,
   ⟨24, 8, .RWS, .val 60, true, 1, 255, []⟩,
   ⟨32, 16, .RWS, .val 24, true, 1, 65535, []⟩]⟩

/-- EYE_STATUS (R461). -/
def infoEYE_STATUS : RegInfo := ⟨0xf00002000000, 0x8, [],
  [⟨0, 11, .RO, .val 0, false, 0, 2047, []⟩,
   ⟨16, 1, .W1C, .val 0, false, 0, 1, []⟩,
   ⟨17, 1, .W1C, .val 0, false, 0, 1, []⟩,
   ⟨18, 1, .W1C, .val 0, false, 0, 1, []⟩,
   ⟨32, 12, .RO, .val 0, false, 0, 4095, []⟩,
   ⟨48, 12, .RO, .val 0, false, 0, 4095, []⟩]⟩

/-- EYE_NMI (R461). -/
def infoEYE_NMI : RegInfo := ⟨0xf00002000000, 0x10, [],
  [⟨0, 16, .RWS, .val 65535, true, 0, 65535, []⟩]⟩

/-- EYE_PIN (R461). -/
def infoEYE_PIN : RegInfo := ⟨0xf00002000000, 0x18, [],
  [⟨0, 4, .RO, .val 0, false, 0, 15, []⟩,
   ⟨4, 1, .RO, .val 0, false, 0, 1, []⟩,
   ⟨5, 1, .RO, .val 0, false, 0, 1, []⟩,
   ⟨8, 1, .RW, .val 0, false, 0, 1, []⟩,
   ⟨9, 1, .RW, .val 0, false, 0, 1, []⟩]⟩

/-- EYE_KICK (R461). -/
def infoEYE_KICK : RegInfo := ⟨0xf00002000000, 0x20, [],
  [⟨0, 1, .WO, .val 0, false, 0, 1, []⟩,
   ⟨1, 1, .WO, .val 0, false, 0, 1, []⟩,
   ⟨16, 16, .RW, .val 0, false, 0, 65535, []⟩]⟩

/-- EYE_INJ_CTRL (R461). -/
def infoEYE_INJ_CTRL : RegInfo := ⟨0xf00002000000, 0x100, [],
  [⟨0, 3, .RWL, .val 0, false, 0, 7, [1, 3, 4]⟩,
   ⟨8, 4, .RWL, .val 1, false, 1, 15, [1, 3, 4]⟩,
   ⟨16, 8, .RWL, .val 0, false, 0, 255, [1, 3, 4]⟩,
   ⟨24, 1, .WO, .val 0, false, 0, 1, [1, 3, 4]⟩,
   ⟨25, 1, .RO, .val 0, false, 0, 1, []⟩,
   ⟨26, 1, .W1C, .val 0, false, 0, 1, []⟩]⟩

/-- EYE_INJ_ADDR (R461). -/
def infoEYE_INJ_ADDR : RegInfo := ⟨0xf00002000000, 0x108, [],
  [⟨0, 48, .RWL, .val 0, false, 0, 281474976710655, [1, 3, 4]⟩]⟩

/-- EYE_SWEEP (R461). -/
def infoEYE_SWEEP : RegInfo := ⟨0xf00002000000, 0x200, [],
  [⟨0, 1, .RW, .val 1, false, 0, 1, []⟩,
   ⟨4, 4, .RW, .val 2, false, 1, 15, []⟩,
   ⟨8, 4, .RW, .val 2, false, 1, 6, []⟩,
   ⟨16, 1, .RO, .val 0, false, 0, 1, []⟩,
   ⟨24, 6, .RO, .val 0, false, 0, 63, []⟩,
   ⟨32, 2, .RO, .val 0, false, 0, 3, []⟩]⟩

/-- EYE_LOG (R461). -/
def infoEYE_LOG : RegInfo := ⟨0xf00002000000, 0x300, [],
  [⟨0, 15, .RO, .val 0, true, 0, 32767, []⟩,
   ⟨16, 32, .RO, .val 0, true, 0, 4294967295, []⟩]⟩

/-- EYE_GRP_PEND (R461). -/
def infoEYE_GRP_PEND : RegInfo := ⟨0xf00002000000, 0x1000, [⟨128, 0x20, 1, 0⟩],
  [⟨0, 16, .W1C, .val 0, false, 0, 65535, []⟩,
   ⟨16, 16, .RW, .val 0, false, 0, 65535, []⟩]⟩

/-- EYE_GRP_CAP_ADDR (R461). -/
def infoEYE_GRP_CAP_ADDR : RegInfo := ⟨0xf00002000000, 0x1008, [⟨128, 0x20, 1, 0⟩],
  [⟨0, 64, .RO, .val 0, false, 0, 18446744073709551615, []⟩]⟩

/-- EYE_GRP_CAP_INFO (R461). -/
def infoEYE_GRP_CAP_INFO : RegInfo := ⟨0xf00002000000, 0x1010, [⟨128, 0x20, 1, 0⟩],
  [⟨0, 16, .RO, .val 0, false, 0, 65535, []⟩,
   ⟨16, 8, .RO, .val 0, false, 0, 255, []⟩,
   ⟨24, 4, .RO, .val 0, false, 0, 15, []⟩,
   ⟨63, 1, .W1C, .val 0, false, 0, 1, []⟩]⟩

/-- EYE_GRP_CAP_TIME (R461). -/
def infoEYE_GRP_CAP_TIME : RegInfo := ⟨0xf00002000000, 0x1018, [⟨128, 0x20, 1, 0⟩],
  [⟨0, 64, .RO, .val 0, false, 0, 18446744073709551615, []⟩]⟩

/-- EYE_SRC_CFG (R461). -/
def infoEYE_SRC_CFG : RegInfo := ⟨0xf00002000000, 0x10000, [⟨2048, 0x10, 1, 0⟩],
  [⟨0, 1, .RWS, .table, true, 0, 1, []⟩,
   ⟨1, 1, .RWS, .table, true, 0, 1, []⟩,
   ⟨2, 1, .RWS, .table, true, 0, 1, []⟩,
   ⟨3, 1, .RWS, .table, true, 0, 1, []⟩,
   ⟨4, 3, .RWS, .table, true, 0, 7, []⟩,
   ⟨8, 4, .RWS, .table, true, 1, 15, []⟩,
   ⟨16, 2, .RO, .table, false, 0, 3, []⟩,
   ⟨18, 1, .RO, .table, false, 0, 1, []⟩]⟩

/-- EYE_SRC_STAT (R461). -/
def infoEYE_SRC_STAT : RegInfo := ⟨0xf00002000000, 0x10008, [⟨2048, 0x10, 1, 0⟩],
  [⟨0, 1, .RO, .val 0, false, 0, 1, []⟩,
   ⟨1, 1, .RO, .val 0, false, 0, 1, []⟩,
   ⟨2, 1, .RWS, .val 0, true, 0, 1, []⟩,
   ⟨4, 8, .RO, .val 0, false, 0, 255, []⟩,
   ⟨16, 16, .RWS, .val 0, true, 0, 65535, []⟩,
   ⟨32, 32, .RO, .val 0, false, 0, 4294967295, []⟩]⟩

/-- CRU_RES_CTRL (R485). -/
def infoCRU_RES_CTRL : RegInfo := ⟨0xf00000000000, 0x400000, [],
  [⟨0, 1, .RW, .val 0, false, 0, 1, []⟩,
   ⟨16, 16, .RW, .val 0, false, 0, 65535, []⟩,
   ⟨32, 1, .WO, .val 0, false, 0, 1, []⟩]⟩

/-- CRU_RES_RESV (R485). -/
def infoCRU_RES_RESV : RegInfo := ⟨0xf00000000000, 0x400008, [],
  [⟨0, 8, .RWS, .val 0, true, 0, 128, []⟩,
   ⟨8, 8, .RO, .val 0, false, 0, 255, []⟩]⟩

/-- CRU_RES_COMMIT (R485). -/
def infoCRU_RES_COMMIT : RegInfo := ⟨0xf00000000000, 0x400010, [],
  [⟨0, 48, .RW, .val 0, false, 0, 281474976710655, []⟩,
   ⟨48, 1, .RO, .val 0, false, 0, 1, []⟩]⟩

/-- CRU_RES_PUSH (R485). -/
def infoCRU_RES_PUSH : RegInfo := ⟨0xf00000000000, 0x400018, [],
  [⟨0, 48, .RO, .val 0, false, 0, 281474976710655, []⟩,
   ⟨48, 1, .RO, .val 0, false, 0, 1, []⟩,
   ⟨49, 1, .RO, .val 0, false, 0, 1, []⟩]⟩

/-- CRU_RES_TAINT (R485). -/
def infoCRU_RES_TAINT : RegInfo := ⟨0xf00000000000, 0x400020, [],
  [⟨0, 8, .RO, .val 0, false, 0, 255, []⟩,
   ⟨8, 8, .RO, .val 0, false, 0, 255, []⟩]⟩

/-- CRU_RES_QMASK (R485). -/
def infoCRU_RES_QMASK : RegInfo := ⟨0xf00000000000, 0x400040, [⟨4, 0x8, 1, 0⟩],
  [⟨0, 64, .RW, .val 18446744073709551615, false, 0, 18446744073709551615, []⟩]⟩

/-- CRU_RES_HELD (R485). -/
def infoCRU_RES_HELD : RegInfo := ⟨0xf00000000000, 0x400100, [⟨2, 0x8, 1, 0⟩],
  [⟨0, 48, .RO, .val 0, false, 0, 281474976710655, []⟩,
   ⟨48, 2, .RO, .val 0, false, 0, 3, []⟩,
   ⟨50, 1, .RO, .val 0, false, 0, 1, []⟩]⟩

/-- CRU_RES_CNT (R485). -/
def infoCRU_RES_CNT : RegInfo := ⟨0xf00000000000, 0x400200, [],
  [⟨0, 16, .RO, .val 0, false, 0, 65535, []⟩,
   ⟨16, 16, .RO, .val 0, false, 0, 65535, []⟩,
   ⟨32, 16, .RO, .val 0, false, 0, 65535, []⟩,
   ⟨48, 16, .RO, .val 0, false, 0, 65535, []⟩]⟩

/-- PWR_CTRL (R508). -/
def infoPWR_CTRL : RegInfo := ⟨0xf00003000000, 0x0, [],
  [⟨0, 1, .RWS, .val 0, true, 0, 1, []⟩,
   ⟨1, 1, .RW, .val 1, false, 0, 1, []⟩]⟩

/-- PWR_CAP (R508). -/
def infoPWR_CAP : RegInfo := ⟨0xf00003000000, 0x8, [],
  [⟨0, 12, .RWS, .val 2600, true, 1200, 2600, []⟩,
   ⟨16, 12, .RO, .val 2600, false, 0, 4095, []⟩,
   ⟨32, 1, .RO, .val 0, false, 0, 1, []⟩]⟩

/-- PWR_IN (R508). -/
def infoPWR_IN : RegInfo := ⟨0xf00003000000, 0x10, [],
  [⟨0, 16, .RO, .val 0, false, 0, 65535, []⟩,
   ⟨16, 16, .RO, .val 0, false, 0, 65535, []⟩,
   ⟨32, 16, .RO, .val 0, false, 0, 65535, []⟩,
   ⟨48, 1, .WO, .val 0, false, 0, 1, []⟩]⟩

/-- PWR_STATE (R508). -/
def infoPWR_STATE : RegInfo := ⟨0xf00003000000, 0x18, [],
  [⟨0, 3, .RO, .val 1, false, 0, 7, []⟩,
   ⟨8, 4, .RO, .val 0, false, 0, 15, []⟩,
   ⟨16, 1, .WO, .val 0, false, 0, 1, []⟩,
   ⟨17, 1, .W1C, .val 0, false, 0, 1, []⟩]⟩

/-- PWR_HOLD (R508). -/
def infoPWR_HOLD : RegInfo := ⟨0xf00003000000, 0x20, [],
  [⟨0, 10, .RO, .val 0, false, 0, 1023, []⟩]⟩

/-- PWR_RAIL (R508). -/
def infoPWR_RAIL : RegInfo := ⟨0xf00003000000, 0x100, [⟨16, 0x10, 1, 0⟩],
  [⟨0, 16, .RO, .val 0, false, 0, 65535, []⟩,
   ⟨16, 16, .RO, .val 0, false, 0, 65535, []⟩,
   ⟨32, 16, .RO, .val 0, false, 0, 65535, []⟩,
   ⟨48, 16, .RWS, .val 720, true, 650, 800, []⟩]⟩

/-- PWR_RAIL_MEAS (R508). -/
def infoPWR_RAIL_MEAS : RegInfo := ⟨0xf00003000000, 0x108, [⟨16, 0x10, 1, 0⟩],
  [⟨0, 16, .RO, .val 0, false, 0, 65535, []⟩,
   ⟨16, 16, .RO, .val 0, false, 0, 65535, []⟩,
   ⟨32, 16, .RO, .val 0, false, 0, 65535, []⟩,
   ⟨48, 1, .RO, .val 0, false, 0, 1, []⟩,
   ⟨49, 1, .RO, .val 0, true, 0, 1, []⟩]⟩

/-- PWR_BASK (R508). -/
def infoPWR_BASK : RegInfo := ⟨0xf00003000000, 0x200, [],
  [⟨0, 16, .RWS, .val 1600, true, 400, 2600, []⟩,
   ⟨16, 16, .RWS, .val 300, true, 120, 65535, []⟩,
   ⟨32, 2, .RO, .val 0, false, 0, 3, []⟩,
   ⟨48, 16, .RO, .val 0, false, 0, 65535, []⟩]⟩

/-- THM_CTRL (R508). -/
def infoTHM_CTRL : RegInfo := ⟨0xf00003000000, 0x20000, [],
  [⟨0, 8, .RW, .val 10, false, 1, 50, []⟩,
   ⟨8, 8, .RW, .val 1, false, 1, 255, []⟩]⟩

/-- THM_STATUS (R508). -/
def infoTHM_STATUS : RegInfo := ⟨0xf00003000000, 0x20008, [],
  [⟨0, 16, .RO, .val 0, false, 0, 65535, []⟩,
   ⟨16, 16, .RO, .val 0, false, 0, 65535, []⟩,
   ⟨32, 7, .RO, .val 0, false, 0, 127, []⟩,
   ⟨40, 1, .RO, .val 0, false, 0, 1, []⟩,
   ⟨41, 1, .RO, .val 0, false, 0, 1, []⟩,
   ⟨42, 1, .RO, .val 0, false, 0, 1, []⟩,
   ⟨43, 1, .RO, .val 0, false, 0, 1, []⟩,
   ⟨44, 1, .RO, .val 0, false, 0, 1, []⟩,
   ⟨48, 1, .W1C, .val 0, false, 0, 1, []⟩,
   ⟨49, 1, .W1C, .val 0, true, 0, 1, []⟩]⟩

/-- THM_SENS (R508). -/
def infoTHM_SENS : RegInfo := ⟨0xf00003000000, 0x21000, [⟨104, 0x8, 1, 0⟩],
  [⟨0, 16, .RO, .val 32768, false, 0, 65535, []⟩,
   ⟨16, 16, .RO, .val 32768, false, 0, 65535, []⟩,
   ⟨32, 16, .RO, .val 0, false, 0, 65535, []⟩,
   ⟨48, 1, .RO, .val 0, false, 0, 1, []⟩,
   ⟨49, 1, .WO, .val 0, false, 0, 1, []⟩]⟩

/-- The field table of a register. -/
def RegName.info : RegName → RegInfo
  | .MGN_CTRL => infoMGN_CTRL
  | .MGN_STATUS => infoMGN_STATUS
  | .MGN_TEMPER => infoMGN_TEMPER
  | .MGN_VFLOOR => infoMGN_VFLOOR
  | .MGN_DOM_TAP => infoMGN_DOM_TAP
  | .MGN_DOM_SLACK => infoMGN_DOM_SLACK
  | .MGN_DOM_CNT => infoMGN_DOM_CNT
  | .MGN_RATE_STEPS => infoMGN_RATE_STEPS
  | .MGN_RATE_TIME => infoMGN_RATE_TIME
  | .MGN_RATE_ACT => infoMGN_RATE_ACT
  | .WNG_ID => infoWNG_ID
  | .WNG_STATUS => infoWNG_STATUS
  | .WNG_CTRL => infoWNG_CTRL
  | .WNG_TB_CTRL => infoWNG_TB_CTRL
  | .WNG_BIST => infoWNG_BIST
  | .WNG_ARR_MAP => infoWNG_ARR_MAP
  | .WNG_ARR_SOFT => infoWNG_ARR_SOFT
  | .WNG_ARR_BIST => infoWNG_ARR_BIST
  | .WNG_ARR_STAT => infoWNG_ARR_STAT
  | .WNG_ARR_TBCNT => infoWNG_ARR_TBCNT
  | .WNG_TB_REC_ID => infoWNG_TB_REC_ID
  | .WNG_TB_REC_DIFF => infoWNG_TB_REC_DIFF
  | .WNG_TB_REC_ENV => infoWNG_TB_REC_ENV
  | .WNG_TB_REC_TIME => infoWNG_TB_REC_TIME
  | .RUN_CTRL => infoRUN_CTRL
  | .RUN_SHARE => infoRUN_SHARE
  | .RUN_STATUS => infoRUN_STATUS
  | .RUN_XLINK_STAT => infoRUN_XLINK_STAT
  | .RUN_STREAM_SRC => infoRUN_STREAM_SRC
  | .RUN_STREAM_LEN => infoRUN_STREAM_LEN
  | .RUN_STREAM_SHAPE => infoRUN_STREAM_SHAPE
  | .RUN_STREAM_WINGS => infoRUN_STREAM_WINGS
  | .WNG_TS_ECC => infoWNG_TS_ECC
  | .WNG_TS_POISON => infoWNG_TS_POISON
  | .WNG_VEC_STATUS => infoWNG_VEC_STATUS
  | .WNG_VEC_CNT => infoWNG_VEC_CNT
  | .WNG_VEC_ACT => infoWNG_VEC_ACT
  | .WNG_VEC_STEPS => infoWNG_VEC_STEPS
  | .QE_CTRL => infoQE_CTRL
  | .QE_STATUS => infoQE_STATUS
  | .QE_ADOPT => infoQE_ADOPT
  | .QE_ALIAS => infoQE_ALIAS
  | .QE_Q_CMD_BASE => infoQE_Q_CMD_BASE
  | .QE_Q_RPL_BASE => infoQE_Q_RPL_BASE
  | .QE_Q_CFG => infoQE_Q_CFG
  | .QE_Q_TAIL => infoQE_Q_TAIL
  | .QE_Q_HEAD => infoQE_Q_HEAD
  | .QE_Q_RHEAD => infoQE_Q_RHEAD
  | .QE_Q_STATE => infoQE_Q_STATE
  | .QE_Q_CLAMP => infoQE_Q_CLAMP
  | .QE_GATE_VAL => infoQE_GATE_VAL
  | .QE_GATE_ADD => infoQE_GATE_ADD
  | .FLK_MEM_CTRL => infoFLK_MEM_CTRL
  | .FLK_MEM_SCRUB => infoFLK_MEM_SCRUB
  | .FLK_MEM_QUAL => infoFLK_MEM_QUAL
  | .FLK_MEM_STACK_STAT => infoFLK_MEM_STACK_STAT
  | .FLK_MEM_STACK_ECC => infoFLK_MEM_STACK_ECC
  | .FLK_MEM_STACK_ACT => infoFLK_MEM_STACK_ACT
  | .FLK_LDL_CTRL => infoFLK_LDL_CTRL
  | .FLK_LDL_CNT => infoFLK_LDL_CNT
  | .FLK_LDL_STAT => infoFLK_LDL_STAT
  | .FLK_TRN_STATUS => infoFLK_TRN_STATUS
  | .FLK_TRN_SLOT => infoFLK_TRN_SLOT
  | .FLK_D2D_CTRL => infoFLK_D2D_CTRL
  | .FLK_D2D_STATUS => infoFLK_D2D_STATUS
  | .FLK_D2D_CNT => infoFLK_D2D_CNT
  | .FLK_D2D_SLICE => infoFLK_D2D_SLICE
  | .CRU_D2D_STAT => infoCRU_D2D_STAT
  | .LE_CTRL => infoLE_CTRL
  | .LE_STATUS => infoLE_STATUS
  | .LE_THRESH => infoLE_THRESH
  | .LE_LOOP => infoLE_LOOP
  | .LE_COMB_HEALTH => infoLE_COMB_HEALTH
  | .LE_COMB_AGE => infoLE_COMB_AGE
  | .LE_LINEPWR => infoLE_LINEPWR
  | .LE_PORT_CTRL => infoLE_PORT_CTRL
  | .LE_PORT_STATUS => infoLE_PORT_STATUS
  | .LE_PORT_LANEMAP0 => infoLE_PORT_LANEMAP0
  | .LE_PORT_LANEMAP1 => infoLE_PORT_LANEMAP1
  | .LE_PORT_CNT => infoLE_PORT_CNT
  | .LE_PORT_RING => infoLE_PORT_RING
  | .LE_PORT_RX => infoLE_PORT_RX
  | .FAB_ADDR => infoFAB_ADDR
  | .FAB_CTRL => infoFAB_CTRL
  | .FAB_E2E => infoFAB_E2E
  | .FAB_RT_CTRL => infoFAB_RT_CTRL
  | .FAB_RT_OCC => infoFAB_RT_OCC
  | .FAB_STATUS => infoFAB_STATUS
  | .FAB_CNT => infoFAB_CNT
  | .FAB_PEER_CLR => infoFAB_PEER_CLR
  | .FAB_CABLE => infoFAB_CABLE
  | .FAB_PORT_STAT => infoFAB_PORT_STAT
  | .FAB_PORT_EXPECT => infoFAB_PORT_EXPECT
  | .FAB_PORT_CHECK => infoFAB_PORT_CHECK
  | .FAB_PORT_CNT => infoFAB_PORT_CNT
  | .FAB_RT_RACK => infoFAB_RT_RACK
  | .FAB_RT_LOCAL => infoFAB_RT_LOCAL
  | .TRY_CTRL => infoTRY_CTRL
  | .TRY_WIN => infoTRY_WIN
  | .TRY_STATUS => infoTRY_STATUS
  | .TRY_DIR => infoTRY_DIR
  | .TRY_CNT => infoTRY_CNT
  | .TRY_COPY => infoTRY_COPY
  | .COL_CTRL => infoCOL_CTRL
  | .COL_STATUS => infoCOL_STATUS
  | .COL_CNT => infoCOL_CNT
  | .COL_ACT => infoCOL_ACT
  | .COL_GRP_CFG => infoCOL_GRP_CFG
  | .COL_GRP_LIST => infoCOL_GRP_LIST
  | .COL_GRP_CTRL => infoCOL_GRP_CTRL
  | .COL_GRP_STAT => infoCOL_GRP_STAT
  | .CRU_ID => infoCRU_ID
  | .CRU_BOOT => infoCRU_BOOT
  | .CRU_RESET => infoCRU_RESET
  | .CRU_TIME => infoCRU_TIME
  | .CRU_TIME_STAT => infoCRU_TIME_STAT
  | .CRU_NOTICE => infoCRU_NOTICE
  | .CRU_MGT_MAC => infoCRU_MGT_MAC
  | .CRU_MGT_STAT => infoCRU_MGT_STAT
  | .CRU_MGT_CNT => infoCRU_MGT_CNT
  | .CRU_MGT_OSQ => infoCRU_MGT_OSQ
  | .CRU_SMB_STAT => infoCRU_SMB_STAT
  | .SEC_LCS => infoSEC_LCS
  | .SEC_ROLLBACK => infoSEC_ROLLBACK
  | .SEC_CHAL => infoSEC_CHAL
  | .SEC_EVENT => infoSEC_EVENT
  | .SEC_ROOTS => infoSEC_ROOTS
  | .SEC_IMG_STAT => infoSEC_IMG_STAT
  | .SEC_ATT_CTRL => infoSEC_ATT_CTRL
  | .SEC_ATT_NONCE => infoSEC_ATT_NONCE
  | .SEC_ATT_REPORT => infoSEC_ATT_REPORT
  | .EYE_CTRL => infoEYE_CTRL
  | .EYE_STATUS => infoEYE_STATUS
  | .EYE_NMI => infoEYE_NMI
  | .EYE_PIN => infoEYE_PIN
  | .EYE_KICK => infoEYE_KICK
  | .EYE_INJ_CTRL => infoEYE_INJ_CTRL
  | .EYE_INJ_ADDR => infoEYE_INJ_ADDR
  | .EYE_SWEEP => infoEYE_SWEEP
  | .EYE_LOG => infoEYE_LOG
  | .EYE_GRP_PEND => infoEYE_GRP_PEND
  | .EYE_GRP_CAP_ADDR => infoEYE_GRP_CAP_ADDR
  | .EYE_GRP_CAP_INFO => infoEYE_GRP_CAP_INFO
  | .EYE_GRP_CAP_TIME => infoEYE_GRP_CAP_TIME
  | .EYE_SRC_CFG => infoEYE_SRC_CFG
  | .EYE_SRC_STAT => infoEYE_SRC_STAT
  | .CRU_RES_CTRL => infoCRU_RES_CTRL
  | .CRU_RES_RESV => infoCRU_RES_RESV
  | .CRU_RES_COMMIT => infoCRU_RES_COMMIT
  | .CRU_RES_PUSH => infoCRU_RES_PUSH
  | .CRU_RES_TAINT => infoCRU_RES_TAINT
  | .CRU_RES_QMASK => infoCRU_RES_QMASK
  | .CRU_RES_HELD => infoCRU_RES_HELD
  | .CRU_RES_CNT => infoCRU_RES_CNT
  | .PWR_CTRL => infoPWR_CTRL
  | .PWR_CAP => infoPWR_CAP
  | .PWR_IN => infoPWR_IN
  | .PWR_STATE => infoPWR_STATE
  | .PWR_HOLD => infoPWR_HOLD
  | .PWR_RAIL => infoPWR_RAIL
  | .PWR_RAIL_MEAS => infoPWR_RAIL_MEAS
  | .PWR_BASK => infoPWR_BASK
  | .THM_CTRL => infoTHM_CTRL
  | .THM_STATUS => infoTHM_STATUS
  | .THM_SENS => infoTHM_SENS

/-- The registers of one block of Table 14-3. -/
def regsCru : List RegName :=
  [.CRU_D2D_STAT, .CRU_ID, .CRU_BOOT, .CRU_RESET, .CRU_TIME, .CRU_TIME_STAT, .CRU_NOTICE, .CRU_MGT_MAC, .CRU_MGT_STAT, .CRU_MGT_CNT, .CRU_MGT_OSQ, .CRU_SMB_STAT, .CRU_RES_CTRL, .CRU_RES_RESV, .CRU_RES_COMMIT, .CRU_RES_PUSH, .CRU_RES_TAINT, .CRU_RES_QMASK, .CRU_RES_HELD, .CRU_RES_CNT]

/-- The registers of one block of Table 14-3. -/
def regsSec : List RegName :=
  [.SEC_LCS, .SEC_ROLLBACK, .SEC_CHAL, .SEC_EVENT, .SEC_ROOTS, .SEC_IMG_STAT, .SEC_ATT_CTRL, .SEC_ATT_NONCE, .SEC_ATT_REPORT]

/-- The registers of one block of Table 14-3. -/
def regsEye : List RegName :=
  [.EYE_CTRL, .EYE_STATUS, .EYE_NMI, .EYE_PIN, .EYE_KICK, .EYE_INJ_CTRL, .EYE_INJ_ADDR, .EYE_SWEEP, .EYE_LOG, .EYE_GRP_PEND, .EYE_GRP_CAP_ADDR, .EYE_GRP_CAP_INFO, .EYE_GRP_CAP_TIME, .EYE_SRC_CFG, .EYE_SRC_STAT]

/-- The registers of one block of Table 14-3. -/
def regsPwr : List RegName :=
  [.MGN_CTRL, .MGN_STATUS, .MGN_TEMPER, .MGN_VFLOOR, .MGN_DOM_TAP, .MGN_DOM_SLACK, .MGN_DOM_CNT, .MGN_RATE_STEPS, .MGN_RATE_TIME, .MGN_RATE_ACT, .PWR_CTRL, .PWR_CAP, .PWR_IN, .PWR_STATE, .PWR_HOLD, .PWR_RAIL, .PWR_RAIL_MEAS, .PWR_BASK, .THM_CTRL, .THM_STATUS, .THM_SENS]

/-- The registers of one block of Table 14-3. -/
def regsQe : List RegName :=
  [.QE_CTRL, .QE_STATUS, .QE_ADOPT, .QE_ALIAS, .QE_Q_CMD_BASE, .QE_Q_RPL_BASE, .QE_Q_CFG, .QE_Q_TAIL, .QE_Q_HEAD, .QE_Q_RHEAD, .QE_Q_STATE, .QE_Q_CLAMP, .QE_GATE_VAL, .QE_GATE_ADD]

/-- The registers of one block of Table 14-3. -/
def regsWng : List RegName :=
  [.WNG_ID, .WNG_STATUS, .WNG_CTRL, .WNG_TB_CTRL, .WNG_BIST, .WNG_ARR_MAP, .WNG_ARR_SOFT, .WNG_ARR_BIST, .WNG_ARR_STAT, .WNG_ARR_TBCNT, .WNG_TB_REC_ID, .WNG_TB_REC_DIFF, .WNG_TB_REC_ENV, .WNG_TB_REC_TIME, .WNG_TS_ECC, .WNG_TS_POISON, .WNG_VEC_STATUS, .WNG_VEC_CNT, .WNG_VEC_ACT, .WNG_VEC_STEPS]

/-- The registers of one block of Table 14-3. -/
def regsRun : List RegName :=
  [.RUN_CTRL, .RUN_SHARE, .RUN_STATUS, .RUN_XLINK_STAT, .RUN_STREAM_SRC, .RUN_STREAM_LEN, .RUN_STREAM_SHAPE, .RUN_STREAM_WINGS]

/-- The registers of one block of Table 14-3. -/
def regsFlk : List RegName :=
  [.FLK_MEM_CTRL, .FLK_MEM_SCRUB, .FLK_MEM_QUAL, .FLK_MEM_STACK_STAT, .FLK_MEM_STACK_ECC, .FLK_MEM_STACK_ACT, .FLK_LDL_CTRL, .FLK_LDL_CNT, .FLK_LDL_STAT, .FLK_TRN_STATUS, .FLK_TRN_SLOT, .FLK_D2D_CTRL, .FLK_D2D_STATUS, .FLK_D2D_CNT, .FLK_D2D_SLICE, .FAB_ADDR, .FAB_CTRL, .FAB_E2E, .FAB_RT_CTRL, .FAB_RT_OCC, .FAB_STATUS, .FAB_CNT, .FAB_PEER_CLR, .FAB_CABLE, .FAB_PORT_STAT, .FAB_PORT_EXPECT, .FAB_PORT_CHECK, .FAB_PORT_CNT, .FAB_RT_RACK, .FAB_RT_LOCAL, .TRY_CTRL, .TRY_WIN, .TRY_STATUS, .TRY_DIR, .TRY_CNT, .TRY_COPY, .COL_CTRL, .COL_STATUS, .COL_CNT, .COL_ACT, .COL_GRP_CFG, .COL_GRP_LIST, .COL_GRP_CTRL, .COL_GRP_STAT]

/-- The registers of one block of Table 14-3. -/
def regsLe : List RegName :=
  [.LE_CTRL, .LE_STATUS, .LE_THRESH, .LE_LOOP, .LE_COMB_HEALTH, .LE_COMB_AGE, .LE_LINEPWR, .LE_PORT_CTRL, .LE_PORT_STATUS, .LE_PORT_LANEMAP0, .LE_PORT_LANEMAP1, .LE_PORT_CNT, .LE_PORT_RING, .LE_PORT_RX]

/-! The fields by name. -/

def F.MGN_CTRL_AUTO_WIDEN : Fld := ⟨.MGN_CTRL, 0, 1⟩
def F.MGN_CTRL_AUTO_RELAX : Fld := ⟨.MGN_CTRL, 1, 1⟩
def F.MGN_CTRL_TARGET : Fld := ⟨.MGN_CTRL, 8, 8⟩
def F.MGN_CTRL_WIDEN : Fld := ⟨.MGN_CTRL, 16, 8⟩
def F.MGN_CTRL_FLOOR : Fld := ⟨.MGN_CTRL, 24, 8⟩
def F.MGN_CTRL_RELAX_ABOVE : Fld := ⟨.MGN_CTRL, 32, 8⟩
def F.MGN_CTRL_BASK_TAPS : Fld := ⟨.MGN_CTRL, 40, 8⟩
def F.MGN_CTRL_NARROW_LIMIT : Fld := ⟨.MGN_CTRL, 48, 8⟩
def F.MGN_STATUS_WIDEN_SEEN : Fld := ⟨.MGN_STATUS, 0, 1⟩
def F.MGN_STATUS_HOLD_SEEN : Fld := ⟨.MGN_STATUS, 1, 1⟩
def F.MGN_STATUS_SHADOW_SEEN : Fld := ⟨.MGN_STATUS, 2, 1⟩
def F.MGN_STATUS_EXHAUSTED : Fld := ⟨.MGN_STATUS, 3, 1⟩
def F.MGN_STATUS_TEMPER_DONE : Fld := ⟨.MGN_STATUS, 4, 1⟩
def F.MGN_STATUS_RESERVE_USED : Fld := ⟨.MGN_STATUS, 5, 1⟩
def F.MGN_STATUS_TEMPER_BUSY : Fld := ⟨.MGN_STATUS, 8, 1⟩
def F.MGN_STATUS_LAST_DOMAIN : Fld := ⟨.MGN_STATUS, 16, 9⟩
def F.MGN_TEMPER_START : Fld := ⟨.MGN_TEMPER, 0, 1⟩
def F.MGN_TEMPER_MODE : Fld := ⟨.MGN_TEMPER, 1, 1⟩
def F.MGN_TEMPER_DOMAIN : Fld := ⟨.MGN_TEMPER, 16, 9⟩
def F.MGN_TEMPER_REFUSED : Fld := ⟨.MGN_TEMPER, 32, 1⟩
def F.MGN_TEMPER_PERIOD_H : Fld := ⟨.MGN_TEMPER, 48, 16⟩
def F.MGN_VFLOOR_FLOOR_MV : Fld := ⟨.MGN_VFLOOR, 0, 16⟩
def F.MGN_VFLOOR_LIMIT_DOMAIN : Fld := ⟨.MGN_VFLOOR, 16, 9⟩
def F.MGN_DOM_TAP_FACTORY : Fld := ⟨.MGN_DOM_TAP, 0, 6⟩
def F.MGN_DOM_TAP_PLANNED : Fld := ⟨.MGN_DOM_TAP, 8, 6⟩
def F.MGN_DOM_TAP_CURRENT : Fld := ⟨.MGN_DOM_TAP, 16, 6⟩
def F.MGN_DOM_TAP_PEAK : Fld := ⟨.MGN_DOM_TAP, 24, 6⟩
def F.MGN_DOM_TAP_PEAK_CLR : Fld := ⟨.MGN_DOM_TAP, 30, 1⟩
def F.MGN_DOM_TAP_EXHAUSTED : Fld := ⟨.MGN_DOM_TAP, 32, 1⟩
def F.MGN_DOM_TAP_SWEEP_OFF : Fld := ⟨.MGN_DOM_TAP, 33, 3⟩
def F.MGN_DOM_SLACK_NOW : Fld := ⟨.MGN_DOM_SLACK, 0, 8⟩
def F.MGN_DOM_SLACK_MIN : Fld := ⟨.MGN_DOM_SLACK, 8, 8⟩
def F.MGN_DOM_SLACK_MIN_CLR : Fld := ⟨.MGN_DOM_SLACK, 16, 1⟩
def F.MGN_DOM_SLACK_EROSION : Fld := ⟨.MGN_DOM_SLACK, 24, 8⟩
def F.MGN_DOM_SLACK_SLOPE : Fld := ⟨.MGN_DOM_SLACK, 32, 8⟩
def F.MGN_DOM_CNT_WIDENS : Fld := ⟨.MGN_DOM_CNT, 0, 16⟩
def F.MGN_DOM_CNT_HOLDS : Fld := ⟨.MGN_DOM_CNT, 16, 16⟩
def F.MGN_DOM_CNT_SHADOW : Fld := ⟨.MGN_DOM_CNT, 32, 16⟩
def F.MGN_DOM_CNT_RELAXES : Fld := ⟨.MGN_DOM_CNT, 48, 16⟩
def F.MGN_RATE_STEPS_STEPS : Fld := ⟨.MGN_RATE_STEPS, 0, 64⟩
def F.MGN_RATE_TIME_TIME : Fld := ⟨.MGN_RATE_TIME, 0, 64⟩
def F.MGN_RATE_ACT_RATE : Fld := ⟨.MGN_RATE_ACT, 0, 16⟩
def F.MGN_RATE_ACT_BUSY_PM : Fld := ⟨.MGN_RATE_ACT, 16, 10⟩
def F.MGN_RATE_ACT_MHOLD_PM : Fld := ⟨.MGN_RATE_ACT, 32, 10⟩
def F.MGN_RATE_ACT_PHOLD_PM : Fld := ⟨.MGN_RATE_ACT, 48, 10⟩
def F.WNG_ID_PHYS : Fld := ⟨.WNG_ID, 0, 5⟩
def F.WNG_ID_FIELD : Fld := ⟨.WNG_ID, 8, 2⟩
def F.WNG_ID_SPARE_USED : Fld := ⟨.WNG_ID, 12, 1⟩
def F.WNG_ID_SOFT_SWAP : Fld := ⟨.WNG_ID, 16, 1⟩
def F.WNG_ID_FENCES : Fld := ⟨.WNG_ID, 24, 4⟩
def F.WNG_STATUS_STATE : Fld := ⟨.WNG_STATUS, 0, 3⟩
def F.WNG_STATUS_OUT_CAUSE : Fld := ⟨.WNG_STATUS, 4, 3⟩
def F.WNG_STATUS_HELD : Fld := ⟨.WNG_STATUS, 8, 4⟩
def F.WNG_STATUS_HALF0_VALID : Fld := ⟨.WNG_STATUS, 16, 1⟩
def F.WNG_STATUS_HALF1_VALID : Fld := ⟨.WNG_STATUS, 17, 1⟩
def F.WNG_STATUS_WHOLE_VALID : Fld := ⟨.WNG_STATUS, 18, 1⟩
def F.WNG_CTRL_TAKE_OUT : Fld := ⟨.WNG_CTRL, 0, 1⟩
def F.WNG_CTRL_RESTORE : Fld := ⟨.WNG_CTRL, 1, 1⟩
def F.WNG_CTRL_HANG_US : Fld := ⟨.WNG_CTRL, 16, 16⟩
def F.WNG_TB_CTRL_ENABLE : Fld := ⟨.WNG_TB_CTRL, 0, 1⟩
def F.WNG_TB_CTRL_SIGMA : Fld := ⟨.WNG_TB_CTRL, 4, 4⟩
def F.WNG_TB_CTRL_REC_NEXT : Fld := ⟨.WNG_TB_CTRL, 16, 3⟩
def F.WNG_TB_CTRL_REC_TOTAL : Fld := ⟨.WNG_TB_CTRL, 24, 8⟩
def F.WNG_BIST_START : Fld := ⟨.WNG_BIST, 0, 1⟩
def F.WNG_BIST_ARRAY : Fld := ⟨.WNG_BIST, 4, 2⟩
def F.WNG_BIST_BUSY : Fld := ⟨.WNG_BIST, 8, 1⟩
def F.WNG_BIST_DONE : Fld := ⟨.WNG_BIST, 9, 1⟩
def F.WNG_BIST_REFUSED : Fld := ⟨.WNG_BIST, 10, 1⟩
def F.WNG_ARR_MAP_SLOT0 : Fld := ⟨.WNG_ARR_MAP, 0, 8⟩
def F.WNG_ARR_MAP_SLOT1 : Fld := ⟨.WNG_ARR_MAP, 8, 8⟩
def F.WNG_ARR_MAP_SLOT2 : Fld := ⟨.WNG_ARR_MAP, 16, 8⟩
def F.WNG_ARR_MAP_SLOT3 : Fld := ⟨.WNG_ARR_MAP, 24, 8⟩
def F.WNG_ARR_MAP_SOFT_SRC : Fld := ⟨.WNG_ARR_MAP, 32, 4⟩
def F.WNG_ARR_SOFT_SOFT0 : Fld := ⟨.WNG_ARR_SOFT, 0, 8⟩
def F.WNG_ARR_SOFT_SOFT1 : Fld := ⟨.WNG_ARR_SOFT, 8, 8⟩
def F.WNG_ARR_SOFT_SOFT2 : Fld := ⟨.WNG_ARR_SOFT, 16, 8⟩
def F.WNG_ARR_SOFT_SOFT3 : Fld := ⟨.WNG_ARR_SOFT, 24, 8⟩
def F.WNG_ARR_BIST_FAIL0 : Fld := ⟨.WNG_ARR_BIST, 0, 8⟩
def F.WNG_ARR_BIST_FAIL1 : Fld := ⟨.WNG_ARR_BIST, 8, 8⟩
def F.WNG_ARR_BIST_FAIL2 : Fld := ⟨.WNG_ARR_BIST, 16, 8⟩
def F.WNG_ARR_BIST_FAIL3 : Fld := ⟨.WNG_ARR_BIST, 24, 8⟩
def F.WNG_ARR_BIST_OVER : Fld := ⟨.WNG_ARR_BIST, 32, 1⟩
def F.WNG_ARR_BIST_TB_FAIL : Fld := ⟨.WNG_ARR_BIST, 33, 1⟩
def F.WNG_ARR_BIST_PASS : Fld := ⟨.WNG_ARR_BIST, 34, 1⟩
def F.WNG_ARR_STAT_FLAGS : Fld := ⟨.WNG_ARR_STAT, 0, 8⟩
def F.WNG_ARR_STAT_FENCED : Fld := ⟨.WNG_ARR_STAT, 8, 1⟩
def F.WNG_ARR_STAT_FENCE : Fld := ⟨.WNG_ARR_STAT, 9, 1⟩
def F.WNG_ARR_TBCNT_CHECKS : Fld := ⟨.WNG_ARR_TBCNT, 0, 32⟩
def F.WNG_ARR_TBCNT_MISMATCH : Fld := ⟨.WNG_ARR_TBCNT, 32, 16⟩
def F.WNG_ARR_TBCNT_SKIPPED : Fld := ⟨.WNG_ARR_TBCNT, 48, 16⟩
def F.WNG_TB_REC_ID_ARRAY : Fld := ⟨.WNG_TB_REC_ID, 0, 2⟩
def F.WNG_TB_REC_ID_COLUMN : Fld := ⟨.WNG_TB_REC_ID, 8, 6⟩
def F.WNG_TB_REC_ID_ALIGNED : Fld := ⟨.WNG_TB_REC_ID, 16, 1⟩
def F.WNG_TB_REC_ID_N : Fld := ⟨.WNG_TB_REC_ID, 24, 24⟩
def F.WNG_TB_REC_ID_QUEUE : Fld := ⟨.WNG_TB_REC_ID, 56, 8⟩
def F.WNG_TB_REC_DIFF_IDIFF : Fld := ⟨.WNG_TB_REC_DIFF, 0, 64⟩
def F.WNG_TB_REC_DIFF_ADIFF : Fld := ⟨.WNG_TB_REC_DIFF, 0, 32⟩
def F.WNG_TB_REC_DIFF_TAU : Fld := ⟨.WNG_TB_REC_DIFF, 32, 32⟩
def F.WNG_TB_REC_ENV_TJ : Fld := ⟨.WNG_TB_REC_ENV, 0, 8⟩
def F.WNG_TB_REC_ENV_VCORE_MV : Fld := ⟨.WNG_TB_REC_ENV, 8, 16⟩
def F.WNG_TB_REC_ENV_RATE : Fld := ⟨.WNG_TB_REC_ENV, 24, 16⟩
def F.WNG_TB_REC_ENV_SLACK : Fld := ⟨.WNG_TB_REC_ENV, 40, 8⟩
def F.WNG_TB_REC_TIME_TIME : Fld := ⟨.WNG_TB_REC_TIME, 0, 64⟩
def F.RUN_CTRL_JOIN_US : Fld := ⟨.RUN_CTRL, 0, 16⟩
def F.RUN_SHARE_WEIGHT : Fld := ⟨.RUN_SHARE, 0, 4⟩
def F.RUN_SHARE_FILL : Fld := ⟨.RUN_SHARE, 8, 4⟩
def F.RUN_SHARE_DRAIN : Fld := ⟨.RUN_SHARE, 16, 4⟩
def F.RUN_SHARE_TRANSIT : Fld := ⟨.RUN_SHARE, 24, 4⟩
def F.RUN_STATUS_DESC_INVALID : Fld := ⟨.RUN_STATUS, 0, 1⟩
def F.RUN_STATUS_JOIN_PARTIAL : Fld := ⟨.RUN_STATUS, 1, 1⟩
def F.RUN_STATUS_PRUNED : Fld := ⟨.RUN_STATUS, 2, 1⟩
def F.RUN_STATUS_STITCH_ERR : Fld := ⟨.RUN_STATUS, 3, 1⟩
def F.RUN_STATUS_LAST_DESC : Fld := ⟨.RUN_STATUS, 16, 12⟩
def F.RUN_XLINK_STAT_UTIL_PM : Fld := ⟨.RUN_XLINK_STAT, 0, 10⟩
def F.RUN_XLINK_STAT_STALL_PM : Fld := ⟨.RUN_XLINK_STAT, 16, 10⟩
def F.RUN_XLINK_STAT_SPARES_USED : Fld := ⟨.RUN_XLINK_STAT, 32, 7⟩
def F.RUN_STREAM_SRC_SRC_ADDR : Fld := ⟨.RUN_STREAM_SRC, 0, 48⟩
def F.RUN_STREAM_SRC_SRC_KIND : Fld := ⟨.RUN_STREAM_SRC, 48, 2⟩
def F.RUN_STREAM_SRC_HINT : Fld := ⟨.RUN_STREAM_SRC, 50, 2⟩
def F.RUN_STREAM_SRC_ERR : Fld := ⟨.RUN_STREAM_SRC, 61, 1⟩
def F.RUN_STREAM_SRC_BUSY : Fld := ⟨.RUN_STREAM_SRC, 62, 1⟩
def F.RUN_STREAM_SRC_VALID : Fld := ⟨.RUN_STREAM_SRC, 63, 1⟩
def F.RUN_STREAM_LEN_LENGTH : Fld := ⟨.RUN_STREAM_LEN, 0, 40⟩
def F.RUN_STREAM_SHAPE_ROW_BYTES : Fld := ⟨.RUN_STREAM_SHAPE, 0, 24⟩
def F.RUN_STREAM_SHAPE_ROW_PITCH : Fld := ⟨.RUN_STREAM_SHAPE, 24, 40⟩
def F.RUN_STREAM_WINGS_WINGS : Fld := ⟨.RUN_STREAM_WINGS, 0, 64⟩
def F.WNG_TS_ECC_CORRECTED : Fld := ⟨.WNG_TS_ECC, 0, 16⟩
def F.WNG_TS_ECC_UNCORR : Fld := ⟨.WNG_TS_ECC, 16, 16⟩
def F.WNG_TS_POISON_OFFSET : Fld := ⟨.WNG_TS_POISON, 0, 23⟩
def F.WNG_TS_POISON_VALID : Fld := ⟨.WNG_TS_POISON, 63, 1⟩
def F.WNG_VEC_STATUS_BUSY : Fld := ⟨.WNG_VEC_STATUS, 0, 1⟩
def F.WNG_VEC_STATUS_PROFILE : Fld := ⟨.WNG_VEC_STATUS, 1, 1⟩
def F.WNG_VEC_STATUS_FLAGS : Fld := ⟨.WNG_VEC_STATUS, 8, 8⟩
def F.WNG_VEC_STATUS_REFUSE : Fld := ⟨.WNG_VEC_STATUS, 16, 4⟩
def F.WNG_VEC_STATUS_REFUSE_INSN : Fld := ⟨.WNG_VEC_STATUS, 24, 8⟩
def F.WNG_VEC_STATUS_REFUSED : Fld := ⟨.WNG_VEC_STATUS, 32, 1⟩
def F.WNG_VEC_CNT_RUNS : Fld := ⟨.WNG_VEC_CNT, 0, 32⟩
def F.WNG_VEC_CNT_REFUSALS : Fld := ⟨.WNG_VEC_CNT, 32, 16⟩
def F.WNG_VEC_ACT_BUSY_PM : Fld := ⟨.WNG_VEC_ACT, 0, 10⟩
def F.WNG_VEC_ACT_PORT_PM : Fld := ⟨.WNG_VEC_ACT, 16, 10⟩
def F.WNG_VEC_ACT_GATHER_PM : Fld := ⟨.WNG_VEC_ACT, 32, 10⟩
def F.WNG_VEC_ACT_WAIT_PM : Fld := ⟨.WNG_VEC_ACT, 48, 10⟩
def F.WNG_VEC_STEPS_STEPS : Fld := ⟨.WNG_VEC_STEPS, 0, 64⟩
def F.QE_CTRL_DISPATCH_EN : Fld := ⟨.QE_CTRL, 0, 1⟩
def F.QE_CTRL_REPLAY_MAX : Fld := ⟨.QE_CTRL, 8, 4⟩
def F.QE_CTRL_WING_DRAIN_US : Fld := ⟨.QE_CTRL, 16, 16⟩
def F.QE_STATUS_ADOPTED : Fld := ⟨.QE_STATUS, 0, 1⟩
def F.QE_STATUS_NO_ADOPTER : Fld := ⟨.QE_STATUS, 1, 1⟩
def F.QE_STATUS_LAST_FAILED : Fld := ⟨.QE_STATUS, 16, 6⟩
def F.QE_STATUS_LAST_ADOPTER : Fld := ⟨.QE_STATUS, 24, 6⟩
def F.QE_ADOPT_MASK : Fld := ⟨.QE_ADOPT, 0, 64⟩
def F.QE_ALIAS_TARGET : Fld := ⟨.QE_ALIAS, 0, 6⟩
def F.QE_ALIAS_VALID : Fld := ⟨.QE_ALIAS, 8, 1⟩
def F.QE_Q_CMD_BASE_BASE : Fld := ⟨.QE_Q_CMD_BASE, 0, 48⟩
def F.QE_Q_CMD_BASE_LOG2_SIZE : Fld := ⟨.QE_Q_CMD_BASE, 48, 4⟩
def F.QE_Q_RPL_BASE_BASE : Fld := ⟨.QE_Q_RPL_BASE, 0, 48⟩
def F.QE_Q_CFG_WING : Fld := ⟨.QE_Q_CFG, 0, 6⟩
def F.QE_Q_CFG_ENABLE : Fld := ⟨.QE_Q_CFG, 8, 1⟩
def F.QE_Q_CFG_STOP_ON_ERR : Fld := ⟨.QE_Q_CFG, 9, 1⟩
def F.QE_Q_CFG_IRQ_EN : Fld := ⟨.QE_Q_CFG, 10, 1⟩
def F.QE_Q_CFG_WAIT_MS : Fld := ⟨.QE_Q_CFG, 16, 16⟩
def F.QE_Q_TAIL_TAIL : Fld := ⟨.QE_Q_TAIL, 0, 64⟩
def F.QE_Q_HEAD_HEAD : Fld := ⟨.QE_Q_HEAD, 0, 64⟩
def F.QE_Q_RHEAD_RHEAD : Fld := ⟨.QE_Q_RHEAD, 0, 64⟩
def F.QE_Q_STATE_STATE : Fld := ⟨.QE_Q_STATE, 0, 3⟩
def F.QE_Q_STATE_WAIT_LONG : Fld := ⟨.QE_Q_STATE, 8, 1⟩
def F.QE_Q_STATE_TAIL_ERR : Fld := ⟨.QE_Q_STATE, 9, 1⟩
def F.QE_Q_STATE_RHEAD_ERR : Fld := ⟨.QE_Q_STATE, 10, 1⟩
def F.QE_Q_STATE_DRAIN : Fld := ⟨.QE_Q_STATE, 16, 2⟩
def F.QE_Q_STATE_RESUME : Fld := ⟨.QE_Q_STATE, 20, 1⟩
def F.QE_Q_STATE_INFLIGHT : Fld := ⟨.QE_Q_STATE, 24, 5⟩
def F.QE_Q_CLAMP_COUNT : Fld := ⟨.QE_Q_CLAMP, 0, 32⟩
def F.QE_Q_CLAMP_LAST_OFFSET : Fld := ⟨.QE_Q_CLAMP, 32, 8⟩
def F.QE_Q_CLAMP_LAST_OPCODE : Fld := ⟨.QE_Q_CLAMP, 40, 8⟩
def F.QE_Q_CLAMP_CLR : Fld := ⟨.QE_Q_CLAMP, 63, 1⟩
def F.QE_GATE_VAL_VALUE : Fld := ⟨.QE_GATE_VAL, 0, 48⟩
def F.QE_GATE_ADD_VALUE : Fld := ⟨.QE_GATE_ADD, 0, 48⟩
def F.FLK_MEM_CTRL_RATE : Fld := ⟨.FLK_MEM_CTRL, 0, 2⟩
def F.FLK_MEM_CTRL_WBATCH : Fld := ⟨.FLK_MEM_CTRL, 8, 7⟩
def F.FLK_MEM_CTRL_SCRUB_EN : Fld := ⟨.FLK_MEM_CTRL, 16, 1⟩
def F.FLK_MEM_SCRUB_PERIOD_H : Fld := ⟨.FLK_MEM_SCRUB, 0, 16⟩
def F.FLK_MEM_SCRUB_PASSES : Fld := ⟨.FLK_MEM_SCRUB, 32, 16⟩
def F.FLK_MEM_SCRUB_PROGRESS : Fld := ⟨.FLK_MEM_SCRUB, 56, 7⟩
def F.FLK_MEM_QUAL_PASS : Fld := ⟨.FLK_MEM_QUAL, 0, 4⟩
def F.FLK_MEM_QUAL_FAIL_ID : Fld := ⟨.FLK_MEM_QUAL, 8, 4⟩
def F.FLK_MEM_QUAL_FAIL_TRAIN : Fld := ⟨.FLK_MEM_QUAL, 12, 4⟩
def F.FLK_MEM_QUAL_LIST_BAD : Fld := ⟨.FLK_MEM_QUAL, 16, 1⟩
def F.FLK_MEM_QUAL_OVERRIDE : Fld := ⟨.FLK_MEM_QUAL, 24, 1⟩
def F.FLK_MEM_STACK_STAT_STATE : Fld := ⟨.FLK_MEM_STACK_STAT, 0, 3⟩
def F.FLK_MEM_STACK_STAT_CASE_C : Fld := ⟨.FLK_MEM_STACK_STAT, 8, 8⟩
def F.FLK_MEM_STACK_STAT_REFRESH_2X : Fld := ⟨.FLK_MEM_STACK_STAT, 16, 1⟩
def F.FLK_MEM_STACK_STAT_LANES_REPAIRED : Fld := ⟨.FLK_MEM_STACK_STAT, 24, 4⟩
def F.FLK_MEM_STACK_STAT_RETRAINS : Fld := ⟨.FLK_MEM_STACK_STAT, 32, 16⟩
def F.FLK_MEM_STACK_ECC_CORRECTED : Fld := ⟨.FLK_MEM_STACK_ECC, 0, 16⟩
def F.FLK_MEM_STACK_ECC_UNCORR : Fld := ⟨.FLK_MEM_STACK_ECC, 16, 16⟩
def F.FLK_MEM_STACK_ECC_ONDIE : Fld := ⟨.FLK_MEM_STACK_ECC, 32, 16⟩
def F.FLK_MEM_STACK_ECC_PARITY_RETRY : Fld := ⟨.FLK_MEM_STACK_ECC, 48, 16⟩
def F.FLK_MEM_STACK_ACT_DATA_PM : Fld := ⟨.FLK_MEM_STACK_ACT, 0, 10⟩
def F.FLK_MEM_STACK_ACT_TURN_PM : Fld := ⟨.FLK_MEM_STACK_ACT, 16, 10⟩
def F.FLK_MEM_STACK_ACT_REFRESH_PM : Fld := ⟨.FLK_MEM_STACK_ACT, 32, 10⟩
def F.FLK_MEM_STACK_ACT_HOLD_PM : Fld := ⟨.FLK_MEM_STACK_ACT, 48, 10⟩
def F.FLK_LDL_CTRL_KEEP_WAYS : Fld := ⟨.FLK_LDL_CTRL, 0, 4⟩
def F.FLK_LDL_CTRL_HINTS_EN : Fld := ⟨.FLK_LDL_CTRL, 8, 1⟩
def F.FLK_LDL_CNT_HITS : Fld := ⟨.FLK_LDL_CNT, 0, 32⟩
def F.FLK_LDL_CNT_MISSES : Fld := ⟨.FLK_LDL_CNT, 32, 32⟩
def F.FLK_LDL_STAT_PROTECTED : Fld := ⟨.FLK_LDL_STAT, 0, 20⟩
def F.FLK_LDL_STAT_DIRTY : Fld := ⟨.FLK_LDL_STAT, 20, 21⟩
def F.FLK_LDL_STAT_REFETCH : Fld := ⟨.FLK_LDL_STAT, 48, 16⟩
def F.FLK_TRN_STATUS_ACTIVE : Fld := ⟨.FLK_TRN_STATUS, 0, 5⟩
def F.FLK_TRN_STATUS_REFUSED : Fld := ⟨.FLK_TRN_STATUS, 8, 1⟩
def F.FLK_TRN_STATUS_LAST_CAUSE : Fld := ⟨.FLK_TRN_STATUS, 16, 4⟩
def F.FLK_TRN_SLOT_ARMED : Fld := ⟨.FLK_TRN_SLOT, 0, 1⟩
def F.FLK_TRN_SLOT_BUSY : Fld := ⟨.FLK_TRN_SLOT, 1, 1⟩
def F.FLK_TRN_SLOT_LENGTH : Fld := ⟨.FLK_TRN_SLOT, 8, 40⟩
def F.FLK_D2D_CTRL_MODE_REQ : Fld := ⟨.FLK_D2D_CTRL, 0, 1⟩
def F.FLK_D2D_CTRL_SWITCH : Fld := ⟨.FLK_D2D_CTRL, 1, 1⟩
def F.FLK_D2D_CTRL_AUTO_FALLBACK : Fld := ⟨.FLK_D2D_CTRL, 2, 1⟩
def F.FLK_D2D_CTRL_ERR_LIMIT : Fld := ⟨.FLK_D2D_CTRL, 8, 4⟩
def F.FLK_D2D_CTRL_MIN_SLICES : Fld := ⟨.FLK_D2D_CTRL, 16, 7⟩
def F.FLK_D2D_STATUS_MODE : Fld := ⟨.FLK_D2D_STATUS, 0, 2⟩
def F.FLK_D2D_STATUS_ACTIVE_I2F : Fld := ⟨.FLK_D2D_STATUS, 16, 7⟩
def F.FLK_D2D_STATUS_ACTIVE_F2I : Fld := ⟨.FLK_D2D_STATUS, 24, 7⟩
def F.FLK_D2D_STATUS_FALLBACK : Fld := ⟨.FLK_D2D_STATUS, 32, 1⟩
def F.FLK_D2D_STATUS_SLICE_OUT : Fld := ⟨.FLK_D2D_STATUS, 33, 1⟩
def F.FLK_D2D_STATUS_TRAIN_FAIL : Fld := ⟨.FLK_D2D_STATUS, 34, 1⟩
def F.FLK_D2D_STATUS_SWITCH_REFUSED : Fld := ⟨.FLK_D2D_STATUS, 35, 1⟩
def F.FLK_D2D_CNT_CRC_ERR : Fld := ⟨.FLK_D2D_CNT, 0, 32⟩
def F.FLK_D2D_CNT_RETRAINS : Fld := ⟨.FLK_D2D_CNT, 32, 16⟩
def F.FLK_D2D_CNT_REMOVALS : Fld := ⟨.FLK_D2D_CNT, 48, 16⟩
def F.FLK_D2D_SLICE_REPAIR0 : Fld := ⟨.FLK_D2D_SLICE, 0, 7⟩
def F.FLK_D2D_SLICE_REPAIR1 : Fld := ⟨.FLK_D2D_SLICE, 8, 7⟩
def F.FLK_D2D_SLICE_REPAIR2 : Fld := ⟨.FLK_D2D_SLICE, 16, 7⟩
def F.FLK_D2D_SLICE_REPAIR3 : Fld := ⟨.FLK_D2D_SLICE, 24, 7⟩
def F.FLK_D2D_SLICE_ACTIVE : Fld := ⟨.FLK_D2D_SLICE, 32, 1⟩
def F.FLK_D2D_SLICE_EYE_PS : Fld := ⟨.FLK_D2D_SLICE, 40, 8⟩
def F.FLK_D2D_SLICE_ERRS : Fld := ⟨.FLK_D2D_SLICE, 48, 16⟩
def F.CRU_D2D_STAT_UP : Fld := ⟨.CRU_D2D_STAT, 0, 1⟩
def F.CRU_D2D_STAT_ACTIVE_OUT : Fld := ⟨.CRU_D2D_STAT, 1, 3⟩
def F.CRU_D2D_STAT_ACTIVE_IN : Fld := ⟨.CRU_D2D_STAT, 4, 3⟩
def F.CRU_D2D_STAT_SPARES_USED : Fld := ⟨.CRU_D2D_STAT, 8, 8⟩
def F.CRU_D2D_STAT_CRC_ERR : Fld := ⟨.CRU_D2D_STAT, 16, 32⟩
def F.LE_CTRL_ENABLE : Fld := ⟨.LE_CTRL, 0, 1⟩
def F.LE_CTRL_AUTO_COMB : Fld := ⟨.LE_CTRL, 1, 1⟩
def F.LE_CTRL_AUTO_LINE : Fld := ⟨.LE_CTRL, 2, 1⟩
def F.LE_CTRL_COMB_SWAP : Fld := ⟨.LE_CTRL, 3, 1⟩
def F.LE_CTRL_STANDBY_WARM : Fld := ⟨.LE_CTRL, 4, 1⟩
def F.LE_STATUS_ACTIVE_COMB : Fld := ⟨.LE_STATUS, 0, 1⟩
def F.LE_STATUS_SWAP_BUSY : Fld := ⟨.LE_STATUS, 1, 1⟩
def F.LE_STATUS_HOT : Fld := ⟨.LE_STATUS, 2, 1⟩
def F.LE_STATUS_TEMP_C : Fld := ⟨.LE_STATUS, 8, 8⟩
def F.LE_STATUS_BIAS_WARN_SEEN : Fld := ⟨.LE_STATUS, 16, 1⟩
def F.LE_STATUS_COMB_SWAPPED : Fld := ⟨.LE_STATUS, 17, 1⟩
def F.LE_STATUS_LINE_SWAPPED : Fld := ⟨.LE_STATUS, 18, 1⟩
def F.LE_STATUS_NARROWED : Fld := ⟨.LE_STATUS, 19, 1⟩
def F.LE_STATUS_LOCK_LOSS : Fld := ⟨.LE_STATUS, 20, 1⟩
def F.LE_STATUS_SWAP_REFUSED : Fld := ⟨.LE_STATUS, 21, 1⟩
def F.LE_STATUS_HEATER_LIMIT : Fld := ⟨.LE_STATUS, 22, 1⟩
def F.LE_THRESH_BIAS_WARN_PC : Fld := ⟨.LE_THRESH, 0, 8⟩
def F.LE_THRESH_BIAS_SWAP_PC : Fld := ⟨.LE_THRESH, 8, 8⟩
def F.LE_THRESH_LINE_MIN : Fld := ⟨.LE_THRESH, 16, 16⟩
def F.LE_THRESH_RX_SWAP : Fld := ⟨.LE_THRESH, 32, 16⟩
def F.LE_THRESH_SER_SWAP_EXP : Fld := ⟨.LE_THRESH, 48, 4⟩
def F.LE_LOOP_MOD_SLOPE : Fld := ⟨.LE_LOOP, 0, 8⟩
def F.LE_LOOP_HOLD : Fld := ⟨.LE_LOOP, 8, 1⟩
def F.LE_COMB_HEALTH_STATE : Fld := ⟨.LE_COMB_HEALTH, 0, 3⟩
def F.LE_COMB_HEALTH_BIAS_PC : Fld := ⟨.LE_COMB_HEALTH, 8, 8⟩
def F.LE_COMB_HEALTH_I0 : Fld := ⟨.LE_COMB_HEALTH, 16, 16⟩
def F.LE_COMB_HEALTH_BIAS : Fld := ⟨.LE_COMB_HEALTH, 32, 16⟩
def F.LE_COMB_HEALTH_TEMP_C : Fld := ⟨.LE_COMB_HEALTH, 48, 8⟩
def F.LE_COMB_HEALTH_WEAKEST : Fld := ⟨.LE_COMB_HEALTH, 56, 5⟩
def F.LE_COMB_AGE_LIT_H : Fld := ⟨.LE_COMB_AGE, 0, 32⟩
def F.LE_COMB_AGE_PROJ_H : Fld := ⟨.LE_COMB_AGE, 32, 32⟩
def F.LE_LINEPWR_A_PWR : Fld := ⟨.LE_LINEPWR, 0, 16⟩
def F.LE_LINEPWR_B_PWR : Fld := ⟨.LE_LINEPWR, 16, 16⟩
def F.LE_LINEPWR_FAILED : Fld := ⟨.LE_LINEPWR, 32, 1⟩
def F.LE_PORT_CTRL_DISABLE : Fld := ⟨.LE_PORT_CTRL, 0, 1⟩
def F.LE_PORT_CTRL_LSWAP : Fld := ⟨.LE_PORT_CTRL, 1, 1⟩
def F.LE_PORT_CTRL_LSWAP_LANE : Fld := ⟨.LE_PORT_CTRL, 8, 4⟩
def F.LE_PORT_CTRL_MIN_LANES : Fld := ⟨.LE_PORT_CTRL, 16, 5⟩
def F.LE_PORT_CTRL_DRAIN_US : Fld := ⟨.LE_PORT_CTRL, 32, 16⟩
def F.LE_PORT_STATUS_STATE : Fld := ⟨.LE_PORT_STATUS, 0, 3⟩
def F.LE_PORT_STATUS_LANES : Fld := ⟨.LE_PORT_STATUS, 4, 5⟩
def F.LE_PORT_STATUS_SPARES_FREE : Fld := ⟨.LE_PORT_STATUS, 12, 2⟩
def F.LE_PORT_STATUS_SWAP_BUSY : Fld := ⟨.LE_PORT_STATUS, 14, 1⟩
def F.LE_PORT_STATUS_PEER : Fld := ⟨.LE_PORT_STATUS, 16, 16⟩
def F.LE_PORT_STATUS_PEER_PORT : Fld := ⟨.LE_PORT_STATUS, 32, 4⟩
def F.LE_PORT_STATUS_PEER_VALID : Fld := ⟨.LE_PORT_STATUS, 36, 1⟩
def F.LE_PORT_LANEMAP0_LANE0 : Fld := ⟨.LE_PORT_LANEMAP0, 0, 5⟩
def F.LE_PORT_LANEMAP0_LANE1 : Fld := ⟨.LE_PORT_LANEMAP0, 8, 5⟩
def F.LE_PORT_LANEMAP0_LANE2 : Fld := ⟨.LE_PORT_LANEMAP0, 16, 5⟩
def F.LE_PORT_LANEMAP0_LANE3 : Fld := ⟨.LE_PORT_LANEMAP0, 24, 5⟩
def F.LE_PORT_LANEMAP0_LANE4 : Fld := ⟨.LE_PORT_LANEMAP0, 32, 5⟩
def F.LE_PORT_LANEMAP0_LANE5 : Fld := ⟨.LE_PORT_LANEMAP0, 40, 5⟩
def F.LE_PORT_LANEMAP0_LANE6 : Fld := ⟨.LE_PORT_LANEMAP0, 48, 5⟩
def F.LE_PORT_LANEMAP0_LANE7 : Fld := ⟨.LE_PORT_LANEMAP0, 56, 5⟩
def F.LE_PORT_LANEMAP1_LANE8 : Fld := ⟨.LE_PORT_LANEMAP1, 0, 5⟩
def F.LE_PORT_LANEMAP1_LANE9 : Fld := ⟨.LE_PORT_LANEMAP1, 8, 5⟩
def F.LE_PORT_LANEMAP1_LANE10 : Fld := ⟨.LE_PORT_LANEMAP1, 16, 5⟩
def F.LE_PORT_LANEMAP1_LANE11 : Fld := ⟨.LE_PORT_LANEMAP1, 24, 5⟩
def F.LE_PORT_LANEMAP1_LANE12 : Fld := ⟨.LE_PORT_LANEMAP1, 32, 5⟩
def F.LE_PORT_LANEMAP1_LANE13 : Fld := ⟨.LE_PORT_LANEMAP1, 40, 5⟩
def F.LE_PORT_LANEMAP1_LANE14 : Fld := ⟨.LE_PORT_LANEMAP1, 48, 5⟩
def F.LE_PORT_LANEMAP1_LANE15 : Fld := ⟨.LE_PORT_LANEMAP1, 56, 5⟩
def F.LE_PORT_CNT_LSWAPS : Fld := ⟨.LE_PORT_CNT, 0, 16⟩
def F.LE_PORT_CNT_NARROWS : Fld := ⟨.LE_PORT_CNT, 16, 16⟩
def F.LE_PORT_CNT_LOCKLOSS : Fld := ⟨.LE_PORT_CNT, 32, 16⟩
def F.LE_PORT_CNT_ABANDONS : Fld := ⟨.LE_PORT_CNT, 48, 16⟩
def F.LE_PORT_RING_HEATER : Fld := ⟨.LE_PORT_RING, 0, 16⟩
def F.LE_PORT_RING_LOCKED : Fld := ⟨.LE_PORT_RING, 16, 1⟩
def F.LE_PORT_RING_FAILED : Fld := ⟨.LE_PORT_RING, 17, 1⟩
def F.LE_PORT_RING_ERR : Fld := ⟨.LE_PORT_RING, 24, 8⟩
def F.LE_PORT_RING_LOSSES : Fld := ⟨.LE_PORT_RING, 32, 16⟩
def F.LE_PORT_RX_OMA : Fld := ⟨.LE_PORT_RX, 0, 16⟩
def F.LE_PORT_RX_CORR : Fld := ⟨.LE_PORT_RX, 16, 24⟩
def F.LE_PORT_RX_UNCORR : Fld := ⟨.LE_PORT_RX, 40, 16⟩
def F.LE_PORT_RX_LOS : Fld := ⟨.LE_PORT_RX, 56, 1⟩
def F.FAB_ADDR_TRAY : Fld := ⟨.FAB_ADDR, 0, 3⟩
def F.FAB_ADDR_SLOT : Fld := ⟨.FAB_ADDR, 4, 3⟩
def F.FAB_ADDR_RACK : Fld := ⟨.FAB_ADDR, 8, 8⟩
def F.FAB_ADDR_RACK_VALID : Fld := ⟨.FAB_ADDR, 16, 1⟩
def F.FAB_ADDR_RACKS : Fld := ⟨.FAB_ADDR, 24, 8⟩
def F.FAB_CTRL_ENABLE : Fld := ⟨.FAB_CTRL, 0, 1⟩
def F.FAB_CTRL_FAILOVER_EN : Fld := ⟨.FAB_CTRL, 1, 1⟩
def F.FAB_CTRL_EVICT_US : Fld := ⟨.FAB_CTRL, 16, 16⟩
def F.FAB_E2E_RTO_US : Fld := ⟨.FAB_E2E, 0, 16⟩
def F.FAB_E2E_RETRY_MAX : Fld := ⟨.FAB_E2E, 16, 4⟩
def F.FAB_E2E_ACK_EVERY : Fld := ⟨.FAB_E2E, 24, 8⟩
def F.FAB_E2E_ACK_DELAY_NS : Fld := ⟨.FAB_E2E, 32, 16⟩
def F.FAB_RT_CTRL_CUR : Fld := ⟨.FAB_RT_CTRL, 0, 1⟩
def F.FAB_RT_CTRL_STATE0 : Fld := ⟨.FAB_RT_CTRL, 4, 3⟩
def F.FAB_RT_CTRL_STATE1 : Fld := ⟨.FAB_RT_CTRL, 8, 3⟩
def F.FAB_RT_CTRL_LOAD : Fld := ⟨.FAB_RT_CTRL, 16, 1⟩
def F.FAB_RT_CTRL_ARM : Fld := ⟨.FAB_RT_CTRL, 17, 1⟩
def F.FAB_RT_CTRL_FLIP : Fld := ⟨.FAB_RT_CTRL, 18, 1⟩
def F.FAB_RT_CTRL_REFUSED : Fld := ⟨.FAB_RT_CTRL, 24, 1⟩
def F.FAB_RT_OCC_OCC0 : Fld := ⟨.FAB_RT_OCC, 0, 24⟩
def F.FAB_RT_OCC_OCC1 : Fld := ⟨.FAB_RT_OCC, 24, 24⟩
def F.FAB_RT_OCC_PROMOTED : Fld := ⟨.FAB_RT_OCC, 48, 16⟩
def F.FAB_STATUS_ROUTE_ERR : Fld := ⟨.FAB_STATUS, 0, 1⟩
def F.FAB_STATUS_NO_ROUTE : Fld := ⟨.FAB_STATUS, 1, 1⟩
def F.FAB_STATUS_PEER_FULL : Fld := ⟨.FAB_STATUS, 2, 1⟩
def F.FAB_STATUS_UNREACH : Fld := ⟨.FAB_STATUS, 3, 1⟩
def F.FAB_STATUS_LAST_UNREACH : Fld := ⟨.FAB_STATUS, 16, 16⟩
def F.FAB_STATUS_PEERS : Fld := ⟨.FAB_STATUS, 32, 13⟩
def F.FAB_CNT_RETX : Fld := ⟨.FAB_CNT, 0, 32⟩
def F.FAB_CNT_OOO_DISCARD : Fld := ⟨.FAB_CNT, 32, 16⟩
def F.FAB_CNT_ROUTE_DISCARD : Fld := ⟨.FAB_CNT, 48, 16⟩
def F.FAB_PEER_CLR_PEER : Fld := ⟨.FAB_PEER_CLR, 0, 16⟩
def F.FAB_CABLE_MISMATCH : Fld := ⟨.FAB_CABLE, 0, 16⟩
def F.FAB_CABLE_SWAP : Fld := ⟨.FAB_CABLE, 16, 16⟩
def F.FAB_CABLE_OTHER : Fld := ⟨.FAB_CABLE, 32, 16⟩
def F.FAB_CABLE_PENDING : Fld := ⟨.FAB_CABLE, 48, 16⟩
def F.FAB_PORT_STAT_USABLE : Fld := ⟨.FAB_PORT_STAT, 0, 1⟩
def F.FAB_PORT_STAT_LINK_FAIL : Fld := ⟨.FAB_PORT_STAT, 1, 1⟩
def F.FAB_PORT_STAT_CHECK : Fld := ⟨.FAB_PORT_STAT, 4, 3⟩
def F.FAB_PORT_STAT_ACCEPTED : Fld := ⟨.FAB_PORT_STAT, 7, 1⟩
def F.FAB_PORT_STAT_RTT_NS : Fld := ⟨.FAB_PORT_STAT, 16, 16⟩
def F.FAB_PORT_STAT_UTIL_PM : Fld := ⟨.FAB_PORT_STAT, 32, 10⟩
def F.FAB_PORT_EXPECT_PEER : Fld := ⟨.FAB_PORT_EXPECT, 0, 16⟩
def F.FAB_PORT_EXPECT_PEER_PORT : Fld := ⟨.FAB_PORT_EXPECT, 16, 4⟩
def F.FAB_PORT_EXPECT_PLANNED : Fld := ⟨.FAB_PORT_EXPECT, 20, 1⟩
def F.FAB_PORT_CHECK_ACCEPT : Fld := ⟨.FAB_PORT_CHECK, 0, 1⟩
def F.FAB_PORT_CHECK_RECHECK : Fld := ⟨.FAB_PORT_CHECK, 1, 1⟩
def F.FAB_PORT_CNT_CRC_ERR : Fld := ⟨.FAB_PORT_CNT, 0, 32⟩
def F.FAB_PORT_CNT_RESENDS : Fld := ⟨.FAB_PORT_CNT, 32, 16⟩
def F.FAB_PORT_CNT_FAILOVERS : Fld := ⟨.FAB_PORT_CNT, 48, 16⟩
def F.FAB_RT_RACK_PORT : Fld := ⟨.FAB_RT_RACK, 0, 4⟩
def F.FAB_RT_RACK_ALT : Fld := ⟨.FAB_RT_RACK, 4, 4⟩
def F.FAB_RT_LOCAL_PORT : Fld := ⟨.FAB_RT_LOCAL, 0, 4⟩
def F.FAB_RT_LOCAL_ALT : Fld := ⟨.FAB_RT_LOCAL, 4, 4⟩
def F.TRY_CTRL_ENABLE : Fld := ⟨.TRY_CTRL, 0, 1⟩
def F.TRY_WIN_BASE_G : Fld := ⟨.TRY_WIN, 0, 10⟩
def F.TRY_WIN_SIZE_G : Fld := ⟨.TRY_WIN, 16, 5⟩
def F.TRY_STATUS_STATE : Fld := ⟨.TRY_STATUS, 0, 2⟩
def F.TRY_STATUS_PEERS : Fld := ⟨.TRY_STATUS, 8, 8⟩
def F.TRY_STATUS_OWNER_LOST : Fld := ⟨.TRY_STATUS, 16, 1⟩
def F.TRY_STATUS_LINE_LOST : Fld := ⟨.TRY_STATUS, 17, 1⟩
def F.TRY_STATUS_REFUSED_IN : Fld := ⟨.TRY_STATUS, 18, 1⟩
def F.TRY_STATUS_LAST_SLOT : Fld := ⟨.TRY_STATUS, 24, 3⟩
def F.TRY_DIR_ENTRIES : Fld := ⟨.TRY_DIR, 0, 18⟩
def F.TRY_DIR_EVICTS : Fld := ⟨.TRY_DIR, 32, 16⟩
def F.TRY_CNT_SERVED : Fld := ⟨.TRY_CNT, 0, 32⟩
def F.TRY_CNT_INVALS : Fld := ⟨.TRY_CNT, 32, 16⟩
def F.TRY_CNT_REFUSED : Fld := ⟨.TRY_CNT, 48, 16⟩
def F.TRY_COPY_ACTIVE : Fld := ⟨.TRY_COPY, 0, 4⟩
def F.TRY_COPY_BYTES : Fld := ⟨.TRY_COPY, 16, 48⟩
def F.COL_CTRL_DRAIN_US : Fld := ⟨.COL_CTRL, 0, 16⟩
def F.COL_CTRL_STAGE_MS : Fld := ⟨.COL_CTRL, 16, 16⟩
def F.COL_STATUS_MISMATCH_SEEN : Fld := ⟨.COL_STATUS, 0, 1⟩
def F.COL_STATUS_ABORT_SEEN : Fld := ⟨.COL_STATUS, 1, 1⟩
def F.COL_STATUS_TIMEOUT_SEEN : Fld := ⟨.COL_STATUS, 2, 1⟩
def F.COL_STATUS_STAGE_FULL : Fld := ⟨.COL_STATUS, 3, 1⟩
def F.COL_STATUS_CFG_ERR : Fld := ⟨.COL_STATUS, 4, 1⟩
def F.COL_STATUS_LAST_GROUP : Fld := ⟨.COL_STATUS, 8, 8⟩
def F.COL_STATUS_LAST_PEER : Fld := ⟨.COL_STATUS, 16, 16⟩
def F.COL_STATUS_LAST_SIG_LO : Fld := ⟨.COL_STATUS, 32, 32⟩
def F.COL_CNT_DONE : Fld := ⟨.COL_CNT, 0, 32⟩
def F.COL_CNT_MISMATCH : Fld := ⟨.COL_CNT, 32, 16⟩
def F.COL_CNT_ABORTS : Fld := ⟨.COL_CNT, 48, 16⟩
def F.COL_ACT_ACTIVE : Fld := ⟨.COL_ACT, 0, 5⟩
def F.COL_ACT_STAGE_KIB : Fld := ⟨.COL_ACT, 16, 13⟩
def F.COL_GRP_CFG_GID : Fld := ⟨.COL_GRP_CFG, 0, 16⟩
def F.COL_GRP_CFG_N : Fld := ⟨.COL_GRP_CFG, 16, 14⟩
def F.COL_GRP_CFG_RANK : Fld := ⟨.COL_GRP_CFG, 32, 14⟩
def F.COL_GRP_CFG_QUEUE : Fld := ⟨.COL_GRP_CFG, 48, 8⟩
def F.COL_GRP_LIST_LIST_ADDR : Fld := ⟨.COL_GRP_LIST, 0, 48⟩
def F.COL_GRP_CTRL_ENABLE : Fld := ⟨.COL_GRP_CTRL, 0, 1⟩
def F.COL_GRP_CTRL_DISABLE : Fld := ⟨.COL_GRP_CTRL, 1, 1⟩
def F.COL_GRP_STAT_STATE : Fld := ⟨.COL_GRP_STAT, 0, 2⟩
def F.COL_GRP_STAT_INST : Fld := ⟨.COL_GRP_STAT, 16, 32⟩
def F.COL_GRP_STAT_LAST_STATUS : Fld := ⟨.COL_GRP_STAT, 48, 8⟩
def F.CRU_ID_PART : Fld := ⟨.CRU_ID, 0, 16⟩
def F.CRU_ID_STEP_NUM : Fld := ⟨.CRU_ID, 16, 4⟩
def F.CRU_ID_STEP_LETTER : Fld := ⟨.CRU_ID, 20, 4⟩
def F.CRU_ID_ROM_REV : Fld := ⟨.CRU_ID, 24, 8⟩
def F.CRU_ID_SERIAL_LO : Fld := ⟨.CRU_ID, 32, 32⟩
def F.CRU_BOOT_STAGE : Fld := ⟨.CRU_BOOT, 0, 4⟩
def F.CRU_BOOT_CAUSE : Fld := ⟨.CRU_BOOT, 8, 8⟩
def F.CRU_BOOT_FUSE_DONE : Fld := ⟨.CRU_BOOT, 16, 1⟩
def F.CRU_BOOT_POWER_ON : Fld := ⟨.CRU_BOOT, 17, 1⟩
def F.CRU_BOOT_FUSE_CRU : Fld := ⟨.CRU_BOOT, 18, 1⟩
def F.CRU_BOOT_LAST_RESET : Fld := ⟨.CRU_BOOT, 20, 4⟩
def F.CRU_RESET_MODULE : Fld := ⟨.CRU_RESET, 0, 1⟩
def F.CRU_RESET_COUNT : Fld := ⟨.CRU_RESET, 32, 32⟩
def F.CRU_TIME_NOW : Fld := ⟨.CRU_TIME, 0, 64⟩
def F.CRU_TIME_STAT_STATE : Fld := ⟨.CRU_TIME_STAT, 0, 2⟩
def F.CRU_TIME_STAT_REMAIN_NS : Fld := ⟨.CRU_TIME_STAT, 32, 32⟩
def F.CRU_NOTICE_CODE : Fld := ⟨.CRU_NOTICE, 0, 8⟩
def F.CRU_NOTICE_PENDING : Fld := ⟨.CRU_NOTICE, 8, 1⟩
def F.CRU_NOTICE_NOTICE_LOST : Fld := ⟨.CRU_NOTICE, 9, 1⟩
def F.CRU_MGT_MAC_MAC : Fld := ⟨.CRU_MGT_MAC, 0, 48⟩
def F.CRU_MGT_STAT_LINK_UP : Fld := ⟨.CRU_MGT_STAT, 0, 1⟩
def F.CRU_MGT_STAT_ADDR_GLOBAL : Fld := ⟨.CRU_MGT_STAT, 1, 1⟩
def F.CRU_MGT_STAT_SESSIONS : Fld := ⟨.CRU_MGT_STAT, 8, 7⟩
def F.CRU_MGT_CNT_TAG_FAIL : Fld := ⟨.CRU_MGT_CNT, 0, 16⟩
def F.CRU_MGT_CNT_STALE : Fld := ⟨.CRU_MGT_CNT, 16, 16⟩
def F.CRU_MGT_CNT_BUSY : Fld := ⟨.CRU_MGT_CNT, 32, 16⟩
def F.CRU_MGT_CNT_FRAME_DROP : Fld := ⟨.CRU_MGT_CNT, 48, 16⟩
def F.CRU_MGT_OSQ_BASE : Fld := ⟨.CRU_MGT_OSQ, 0, 48⟩
def F.CRU_MGT_OSQ_LOG2_SLOTS : Fld := ⟨.CRU_MGT_OSQ, 48, 4⟩
def F.CRU_MGT_OSQ_ENABLE : Fld := ⟨.CRU_MGT_OSQ, 56, 1⟩
def F.CRU_SMB_STAT_ADDR : Fld := ⟨.CRU_SMB_STAT, 0, 7⟩
def F.CRU_SMB_STAT_PEC_ERR : Fld := ⟨.CRU_SMB_STAT, 8, 1⟩
def F.CRU_SMB_STAT_STOP_IGNORED : Fld := ⟨.CRU_SMB_STAT, 9, 1⟩
def F.CRU_SMB_STAT_TRANSACTIONS : Fld := ⟨.CRU_SMB_STAT, 16, 32⟩
def F.SEC_LCS_STATE : Fld := ⟨.SEC_LCS, 0, 3⟩
def F.SEC_LCS_RESEALS : Fld := ⟨.SEC_LCS, 4, 2⟩
def F.SEC_LCS_DEBUG : Fld := ⟨.SEC_LCS, 8, 2⟩
def F.SEC_LCS_DEBUG_SEEN : Fld := ⟨.SEC_LCS, 10, 2⟩
def F.SEC_LCS_ZEROISING : Fld := ⟨.SEC_LCS, 12, 1⟩
def F.SEC_ROLLBACK_KEEL : Fld := ⟨.SEC_ROLLBACK, 0, 7⟩
def F.SEC_ROLLBACK_BOOT : Fld := ⟨.SEC_ROLLBACK, 8, 7⟩
def F.SEC_ROLLBACK_QUAL : Fld := ⟨.SEC_ROLLBACK, 16, 7⟩
def F.SEC_ROLLBACK_LEC : Fld := ⟨.SEC_ROLLBACK, 24, 7⟩
def F.SEC_CHAL_CHAL : Fld := ⟨.SEC_CHAL, 0, 64⟩
def F.SEC_EVENT_TOKEN_OK : Fld := ⟨.SEC_EVENT, 0, 1⟩
def F.SEC_EVENT_TOKEN_DENIED : Fld := ⟨.SEC_EVENT, 1, 1⟩
def F.SEC_EVENT_OBJECT_DENIED : Fld := ⟨.SEC_EVENT, 2, 1⟩
def F.SEC_EVENT_ROOTS_CHANGED : Fld := ⟨.SEC_EVENT, 3, 1⟩
def F.SEC_EVENT_DEBUG_OPENED : Fld := ⟨.SEC_EVENT, 4, 1⟩
def F.SEC_EVENT_LAST_CAUSE : Fld := ⟨.SEC_EVENT, 16, 4⟩
def F.SEC_EVENT_LAST_CLASS : Fld := ⟨.SEC_EVENT, 20, 4⟩
def F.SEC_ROOTS_COUNT : Fld := ⟨.SEC_ROOTS, 0, 3⟩
def F.SEC_ROOTS_ROLES_ANY : Fld := ⟨.SEC_ROOTS, 8, 8⟩
def F.SEC_IMG_STAT_ACTIVE_SLOT : Fld := ⟨.SEC_IMG_STAT, 0, 1⟩
def F.SEC_IMG_STAT_PENDING : Fld := ⟨.SEC_IMG_STAT, 1, 1⟩
def F.SEC_IMG_STAT_FELL_BACK : Fld := ⟨.SEC_IMG_STAT, 2, 1⟩
def F.SEC_IMG_STAT_SVN_ACTIVE : Fld := ⟨.SEC_IMG_STAT, 8, 8⟩
def F.SEC_IMG_STAT_SVN_PENDING : Fld := ⟨.SEC_IMG_STAT, 16, 8⟩
def F.SEC_ATT_CTRL_START : Fld := ⟨.SEC_ATT_CTRL, 0, 1⟩
def F.SEC_ATT_CTRL_BUSY : Fld := ⟨.SEC_ATT_CTRL, 1, 1⟩
def F.SEC_ATT_CTRL_DONE : Fld := ⟨.SEC_ATT_CTRL, 2, 1⟩
def F.SEC_ATT_CTRL_REFUSED : Fld := ⟨.SEC_ATT_CTRL, 3, 1⟩
def F.SEC_ATT_NONCE_NONCE : Fld := ⟨.SEC_ATT_NONCE, 0, 64⟩
def F.SEC_ATT_REPORT_WORD : Fld := ⟨.SEC_ATT_REPORT, 0, 64⟩
def F.EYE_CTRL_QUIET_MS : Fld := ⟨.EYE_CTRL, 0, 16⟩
def F.EYE_CTRL_LATCH_N : Fld := ⟨.EYE_CTRL, 16, 4⟩
def F.EYE_CTRL_LATCH_S : Fld := ⟨.EYE_CTRL, 24, 8⟩
def F.EYE_CTRL_WINDOW_H : Fld := ⟨.EYE_CTRL, 32, 16⟩
def F.EYE_STATUS_LAST_SRC : Fld := ⟨.EYE_STATUS, 0, 11⟩
def F.EYE_STATUS_LATCH_SEEN : Fld := ⟨.EYE_STATUS, 16, 1⟩
def F.EYE_STATUS_NMI_SEEN : Fld := ⟨.EYE_STATUS, 17, 1⟩
def F.EYE_STATUS_LOG_WRAP : Fld := ⟨.EYE_STATUS, 18, 1⟩
def F.EYE_STATUS_QUIET_NOW : Fld := ⟨.EYE_STATUS, 32, 12⟩
def F.EYE_STATUS_LATCHED_NOW : Fld := ⟨.EYE_STATUS, 48, 12⟩
def F.EYE_NMI_HARTS : Fld := ⟨.EYE_NMI, 0, 16⟩
def F.EYE_PIN_HB_RUN : Fld := ⟨.EYE_PIN, 0, 4⟩
def F.EYE_PIN_ALERT : Fld := ⟨.EYE_PIN, 4, 1⟩
def F.EYE_PIN_SECALERT : Fld := ⟨.EYE_PIN, 5, 1⟩
def F.EYE_PIN_ALERT_HOLD : Fld := ⟨.EYE_PIN, 8, 1⟩
def F.EYE_PIN_SECALERT_HOLD : Fld := ⟨.EYE_PIN, 9, 1⟩
def F.EYE_KICK_KEEL : Fld := ⟨.EYE_KICK, 0, 1⟩
def F.EYE_KICK_OS : Fld := ⟨.EYE_KICK, 1, 1⟩
def F.EYE_KICK_OS_MS : Fld := ⟨.EYE_KICK, 16, 16⟩
def F.EYE_INJ_CTRL_TARGET : Fld := ⟨.EYE_INJ_CTRL, 0, 3⟩
def F.EYE_INJ_CTRL_COUNT : Fld := ⟨.EYE_INJ_CTRL, 8, 4⟩
def F.EYE_INJ_CTRL_UNIT : Fld := ⟨.EYE_INJ_CTRL, 16, 8⟩
def F.EYE_INJ_CTRL_ARM : Fld := ⟨.EYE_INJ_CTRL, 24, 1⟩
def F.EYE_INJ_CTRL_ARMED : Fld := ⟨.EYE_INJ_CTRL, 25, 1⟩
def F.EYE_INJ_CTRL_FIRED : Fld := ⟨.EYE_INJ_CTRL, 26, 1⟩
def F.EYE_INJ_ADDR_ADDR : Fld := ⟨.EYE_INJ_ADDR, 0, 48⟩
def F.EYE_SWEEP_EN : Fld := ⟨.EYE_SWEEP, 0, 1⟩
def F.EYE_SWEEP_SWEEP_AT : Fld := ⟨.EYE_SWEEP, 4, 4⟩
def F.EYE_SWEEP_GUARD : Fld := ⟨.EYE_SWEEP, 8, 4⟩
def F.EYE_SWEEP_BUSY : Fld := ⟨.EYE_SWEEP, 16, 1⟩
def F.EYE_SWEEP_WING : Fld := ⟨.EYE_SWEEP, 24, 6⟩
def F.EYE_SWEEP_LAST_RESULT : Fld := ⟨.EYE_SWEEP, 32, 2⟩
def F.EYE_LOG_NEXT : Fld := ⟨.EYE_LOG, 0, 15⟩
def F.EYE_LOG_TOTAL : Fld := ⟨.EYE_LOG, 16, 32⟩
def F.EYE_GRP_PEND_PENDING : Fld := ⟨.EYE_GRP_PEND, 0, 16⟩
def F.EYE_GRP_PEND_MASK : Fld := ⟨.EYE_GRP_PEND, 16, 16⟩
def F.EYE_GRP_CAP_ADDR_ADDR : Fld := ⟨.EYE_GRP_CAP_ADDR, 0, 64⟩
def F.EYE_GRP_CAP_INFO_MASTER : Fld := ⟨.EYE_GRP_CAP_INFO, 0, 16⟩
def F.EYE_GRP_CAP_INFO_ATYPE : Fld := ⟨.EYE_GRP_CAP_INFO, 16, 8⟩
def F.EYE_GRP_CAP_INFO_SRC : Fld := ⟨.EYE_GRP_CAP_INFO, 24, 4⟩
def F.EYE_GRP_CAP_INFO_VALID : Fld := ⟨.EYE_GRP_CAP_INFO, 63, 1⟩
def F.EYE_GRP_CAP_TIME_TIME : Fld := ⟨.EYE_GRP_CAP_TIME, 0, 64⟩
def F.EYE_SRC_CFG_IRQ : Fld := ⟨.EYE_SRC_CFG, 0, 1⟩
def F.EYE_SRC_CFG_NMI : Fld := ⟨.EYE_SRC_CFG, 1, 1⟩
def F.EYE_SRC_CFG_BLOCK : Fld := ⟨.EYE_SRC_CFG, 2, 1⟩
def F.EYE_SRC_CFG_MODULE : Fld := ⟨.EYE_SRC_CFG, 3, 1⟩
def F.EYE_SRC_CFG_PIN : Fld := ⟨.EYE_SRC_CFG, 4, 3⟩
def F.EYE_SRC_CFG_THRESH : Fld := ⟨.EYE_SRC_CFG, 8, 4⟩
def F.EYE_SRC_CFG_CLASS : Fld := ⟨.EYE_SRC_CFG, 16, 2⟩
def F.EYE_SRC_CFG_LEVEL : Fld := ⟨.EYE_SRC_CFG, 18, 1⟩
def F.EYE_SRC_STAT_QUIET : Fld := ⟨.EYE_SRC_STAT, 0, 1⟩
def F.EYE_SRC_STAT_ASSERTED : Fld := ⟨.EYE_SRC_STAT, 1, 1⟩
def F.EYE_SRC_STAT_LATCHED : Fld := ⟨.EYE_SRC_STAT, 2, 1⟩
def F.EYE_SRC_STAT_COUNT : Fld := ⟨.EYE_SRC_STAT, 4, 8⟩
def F.EYE_SRC_STAT_RECOVERIES : Fld := ⟨.EYE_SRC_STAT, 16, 16⟩
def F.EYE_SRC_STAT_TOTAL : Fld := ⟨.EYE_SRC_STAT, 32, 32⟩
def F.CRU_RES_CTRL_ENABLE : Fld := ⟨.CRU_RES_CTRL, 0, 1⟩
def F.CRU_RES_CTRL_BUDDY : Fld := ⟨.CRU_RES_CTRL, 16, 16⟩
def F.CRU_RES_CTRL_TAINT : Fld := ⟨.CRU_RES_CTRL, 32, 1⟩
def F.CRU_RES_RESV_SIZE_G : Fld := ⟨.CRU_RES_RESV, 0, 8⟩
def F.CRU_RES_RESV_ACTIVE_G : Fld := ⟨.CRU_RES_RESV, 8, 8⟩
def F.CRU_RES_COMMIT_LAST : Fld := ⟨.CRU_RES_COMMIT, 0, 48⟩
def F.CRU_RES_COMMIT_UNRESOLVED : Fld := ⟨.CRU_RES_COMMIT, 48, 1⟩
def F.CRU_RES_PUSH_PUSHED_STEP : Fld := ⟨.CRU_RES_PUSH, 0, 48⟩
def F.CRU_RES_PUSH_BUSY : Fld := ⟨.CRU_RES_PUSH, 48, 1⟩
def F.CRU_RES_PUSH_COMPLETE : Fld := ⟨.CRU_RES_PUSH, 49, 1⟩
def F.CRU_RES_TAINT_NOW : Fld := ⟨.CRU_RES_TAINT, 0, 8⟩
def F.CRU_RES_TAINT_SNAP : Fld := ⟨.CRU_RES_TAINT, 8, 8⟩
def F.CRU_RES_QMASK_MASK : Fld := ⟨.CRU_RES_QMASK, 0, 64⟩
def F.CRU_RES_HELD_STEP : Fld := ⟨.CRU_RES_HELD, 0, 48⟩
def F.CRU_RES_HELD_STATE : Fld := ⟨.CRU_RES_HELD, 48, 2⟩
def F.CRU_RES_HELD_COMMITTED : Fld := ⟨.CRU_RES_HELD, 50, 1⟩
def F.CRU_RES_CNT_COMMITS : Fld := ⟨.CRU_RES_CNT, 0, 16⟩
def F.CRU_RES_CNT_ROLLBACKS : Fld := ⟨.CRU_RES_CNT, 16, 16⟩
def F.CRU_RES_CNT_FAILED : Fld := ⟨.CRU_RES_CNT, 32, 16⟩
def F.CRU_RES_CNT_RESTORES : Fld := ⟨.CRU_RES_CNT, 48, 16⟩
def F.PWR_CTRL_AUTO_RESTART : Fld := ⟨.PWR_CTRL, 0, 1⟩
def F.PWR_CTRL_LOW_HEAT_EN : Fld := ⟨.PWR_CTRL, 1, 1⟩
def F.PWR_CAP_CAP_W : Fld := ⟨.PWR_CAP, 0, 12⟩
def F.PWR_CAP_IN_FORCE_W : Fld := ⟨.PWR_CAP, 16, 12⟩
def F.PWR_CAP_LIMITING : Fld := ⟨.PWR_CAP, 32, 1⟩
def F.PWR_IN_VIN_MV : Fld := ⟨.PWR_IN, 0, 16⟩
def F.PWR_IN_POWER_W : Fld := ⟨.PWR_IN, 16, 16⟩
def F.PWR_IN_PEAK_W : Fld := ⟨.PWR_IN, 32, 16⟩
def F.PWR_IN_PEAK_CLR : Fld := ⟨.PWR_IN, 48, 1⟩
def F.PWR_STATE_STATE : Fld := ⟨.PWR_STATE, 0, 3⟩
def F.PWR_STATE_STOP_CAUSE : Fld := ⟨.PWR_STATE, 8, 4⟩
def F.PWR_STATE_STOP : Fld := ⟨.PWR_STATE, 16, 1⟩
def F.PWR_STATE_RESTART_REFUSED : Fld := ⟨.PWR_STATE, 17, 1⟩
def F.PWR_HOLD_HOLD_PM : Fld := ⟨.PWR_HOLD, 0, 10⟩
def F.PWR_RAIL_SET_MV : Fld := ⟨.PWR_RAIL, 0, 16⟩
def F.PWR_RAIL_PWR_REQ_MV : Fld := ⟨.PWR_RAIL, 16, 16⟩
def F.PWR_RAIL_THM_REQ_MV : Fld := ⟨.PWR_RAIL, 32, 16⟩
def F.PWR_RAIL_TARGET_MV : Fld := ⟨.PWR_RAIL, 48, 16⟩
def F.PWR_RAIL_MEAS_MEAS_MV : Fld := ⟨.PWR_RAIL_MEAS, 0, 16⟩
def F.PWR_RAIL_MEAS_CURRENT : Fld := ⟨.PWR_RAIL_MEAS, 16, 16⟩
def F.PWR_RAIL_MEAS_POWER_W : Fld := ⟨.PWR_RAIL_MEAS, 32, 16⟩
def F.PWR_RAIL_MEAS_PGOOD : Fld := ⟨.PWR_RAIL_MEAS, 48, 1⟩
def F.PWR_RAIL_MEAS_FAULT : Fld := ⟨.PWR_RAIL_MEAS, 49, 1⟩
def F.PWR_BASK_BASK_W : Fld := ⟨.PWR_BASK, 0, 16⟩
def F.PWR_BASK_TIMEOUT_S : Fld := ⟨.PWR_BASK, 16, 16⟩
def F.PWR_BASK_STATE : Fld := ⟨.PWR_BASK, 32, 2⟩
def F.PWR_BASK_ELAPSED_S : Fld := ⟨.PWR_BASK, 48, 16⟩
def F.THM_CTRL_DTDT_C_MS : Fld := ⟨.THM_CTRL, 0, 8⟩
def F.THM_CTRL_DTDT_HOLD_MS : Fld := ⟨.THM_CTRL, 8, 8⟩
def F.THM_STATUS_TJ_MAX : Fld := ⟨.THM_STATUS, 0, 16⟩
def F.THM_STATUS_TJ_MIN : Fld := ⟨.THM_STATUS, 16, 16⟩
def F.THM_STATUS_HOT_SENSOR : Fld := ⟨.THM_STATUS, 32, 7⟩
def F.THM_STATUS_WARN : Fld := ⟨.THM_STATUS, 40, 1⟩
def F.THM_STATUS_THROTTLE : Fld := ⟨.THM_STATUS, 41, 1⟩
def F.THM_STATUS_LOW_WARN : Fld := ⟨.THM_STATUS, 42, 1⟩
def F.THM_STATUS_STACK_HOT : Fld := ⟨.THM_STATUS, 43, 1⟩
def F.THM_STATUS_INLET_OUT : Fld := ⟨.THM_STATUS, 44, 1⟩
def F.THM_STATUS_DTDT_SEEN : Fld := ⟨.THM_STATUS, 48, 1⟩
def F.THM_STATUS_TRIP_SEEN : Fld := ⟨.THM_STATUS, 49, 1⟩
def F.THM_SENS_TEMP : Fld := ⟨.THM_SENS, 0, 16⟩
def F.THM_SENS_MAX : Fld := ⟨.THM_SENS, 16, 16⟩
def F.THM_SENS_RATE : Fld := ⟨.THM_SENS, 32, 16⟩
def F.THM_SENS_FAILED : Fld := ⟨.THM_SENS, 48, 1⟩
def F.THM_SENS_MAX_CLR : Fld := ⟨.THM_SENS, 49, 1⟩

end Sys2Proof.Machine
end

