-- ==== Sys2Proof/Machine/State.lean ====
section
/-! DEFINITION. The state of the block as plain data: the register file, memory, everything the spec gives the module beside
its registers, the queue of waiting commands, the outputs, and the machine right after a power-on reset. -/

namespace Sys2Proof.Machine

/-- Why the machine stops with a fault. -/
inductive Fault where
  /-- Raised by every meaning whose command names a unit the module does not have (a wing 64, a queue 256) or a shape no unit
  takes (a core access of 3 bytes): there is no such command on this hardware. Safe: nothing is claimed of such a command. -/
  | noSuchUnit
  deriving DecidableEq, Repr

/-- Why a command has no meaning. -/
inductive Refusal where
  /-- Raised by an arm of `exec` without a meaning; every arm has one. Safe: nothing is claimed of such a command. -/
  | notModelled (mnemonic : String)
  deriving DecidableEq, Repr

/-! ### Fixed structures shared by several parts -/

/-- What a capture or a record holds of one occurrence (R450, R452): address, master ID, access-type byte. -/
structure Cap where
  addr : Nat := 0
  master : Nat := 0
  atype : Nat := 0
  deriving DecidableEq, Repr

/-! ### Margin control (R37 to R57) -/

/-- One margin domain beside its registers: held under R42, widening under R39, a deferred narrowing of R41, the bask codes
now in its tap (R57), restarts of the running pass (R55), and the counts its previous wear record held (R56). -/
structure DomSt where
  held : Bool := false
  widening : Bool := false
  deferred : Bool := false
  bask : Nat := 0
  restarts : Nat := 0
  recHolds : Nat := 0
  recShadow : Nat := 0
  deriving DecidableEq, Repr

/-- A temper pass in service (R51): its kind (1 rotation, 2 triggered, 3 requested), the domains still to examine, and those
put off to the end (R52, R55). -/
structure TemperRun where
  kind : Nat
  todo : List Nat
  retry : List Nat := []
  deriving DecidableEq, Repr

/-- A wear-log record (R56). `kind`: 0 full pass, 1 rotation, 2 triggered, 3 requested, 4 margin-exhausted. -/
structure WearRec where
  time : Nat
  hours : Nat
  domain : Nat
  kind : Nat
  before : Nat
  after : Nat
  slack : Int
  vcore : Nat
  tj : Int
  erosion : Nat
  holds : Nat
  shadow : Nat
  deriving DecidableEq, Repr

/-- Margin control beside its registers: the domains, the pass in service and those that wait for it, and the wear log. -/
structure MarginSt where
  dom : List (Nat × DomSt) := []
  temper : Option TemperRun := none
  waiting : List TemperRun := []
  wear : List WearRec := []
  deriving DecidableEq, Repr

/-! ### Eyespot (R440 to R459) -/

/-- A record of the ring (R452). `extra` carries the values of R112 for a test-bar record. -/
structure EyeRec where
  src : Nat
  cls : Nat
  time : Nat
  cap : Cap
  tj : Int
  vcore : Nat
  rate : Nat
  extra : List Int := []
  deriving DecidableEq, Repr

/-- One source beside its registers: exit times (R449), the powered hour of the first counted occurrence (R443), the PIN code
its threshold reaction took, whether that reaction holds a heartbeat pin (R453, R454), and the capture fields of its last
occurrence, which an occurrence at the end of a quiet period repeats (R447). -/
structure EyeSrcSt where
  exits : List Nat := []
  winStart : Nat := 0
  pin : Nat := 0
  hb : Bool := false
  cap : Cap := {}
  deriving DecidableEq, Repr

/-- A reaction started and not yet performed (Table 16-4). -/
inductive Reaction where
  | block (src : Nat)
  | module
  deriving DecidableEq, Repr

/-- A margin sweep (R458): wing, array, whether its stress point was reached (it then waits its turn), whether it runs,
the m in test, CURRENT of the domain when it began, and whether its self-tests are over, the last of them failing. -/
structure Sweep where
  wing : Nat
  arr : Nat
  reached : Bool := false
  running : Bool := false
  m : Nat := 0
  c0 : Nat := 0
  since : Nat := 0
  ended : Bool := false
  failed : Bool := false
  deriving DecidableEq, Repr

/-- Values of an array's most recent mismatch: Tj and VCORE (R458). -/
structure Stress where
  tj : Int
  vcore : Nat
  deriving DecidableEq, Repr

structure EyeSt where
  src : List (Nat × EyeSrcSt) := []
  ring : List EyeRec := []
  log : List EyeRec := []
  react : List Reaction := []
  sweeps : List Sweep := []
  abandoned : List (Nat × Nat × Nat) := []
  osKick : Nat := 0
  stress : List ((Nat × Nat) × Stress) := []
  deriving DecidableEq, Repr

/-! ### Wings (R90 to R119), the feeder and the vector engine (R151 to R178) -/

/-- An activation tile in a buffer (R105, R106): element codes row by row, and the row sums with the rows they cover. -/
structure Tile where
  afmt : Fmt
  rows : Nat
  depth : Nat
  data : List (List Nat)
  sumRows : Nat
  sums : List RowSum
  deriving DecidableEq, Repr

/-- Outcome of the most recent check of a column (R109). -/
inductive ChkSt where
  | none | pending | passed | failed
  deriving DecidableEq, Repr

/-- One accumulator column with its chain (R96 to R98, R109). `ent` is `none` where the contents are undefined. -/
structure ColSt where
  opened : Bool := false
  int : Bool := true
  ent : Option (List Nat) := none
  cv : CheckVals := {}
  n : Nat := 0
  mats : Nat := 0
  rows : Nat := 0
  exempt : Bool := false
  chk : ChkSt := .none
  cmds : List (Nat × Nat) := []
  deriving DecidableEq, Repr

/-- The VEC_RUN block of Table 6-1, clamped; constants K0 to K7; and whether it is an epilogue (R158). -/
structure Blk where
  plen : Nat := 1
  round : Nat := 0
  srcAcc : Bool := false
  release : Bool := false
  profile : Nat := 0
  aqWidth : Nat := 0
  mask : Nat := 0
  rows : Nat := 1
  colBase : Nat := 0
  ncol : Nat := 1
  reps : Nat := 1
  redOp : Nat := 0
  redAxis : Nat := 0
  redInt : Bool := false
  redAddr : Nat := 0
  inAddr : List Nat := [0, 0]
  inFmt : List Nat := [0, 0]
  inEn : List Bool := [false, false]
  inStr : List Nat := [0, 0]
  outAddr : List Nat := [0, 0]
  outFmt : List Nat := [0, 0]
  outEn : List Bool := [false, false]
  outStr : List Nat := [0, 0]
  cv : Nat := 0
  rv : Nat := 0
  aCols : Nat := 0
  gCols : Nat := 0
  glen : Nat := 0
  outExp : Nat := 0
  inExp : List Nat := [0, 0]
  kk : List Nat := []
  grpQ : Nat := 0
  deriving DecidableEq, Repr

/-- The opcodes of Tables 6-8 and 6-12. -/
inductive PatOp where
  | nop | mov | add | sub | mul | fma | fms | fnma | div | sqrt | min | max | minn | maxn | abs | neg
  | cmpeq | cmplt | cmple | cmpun | sel | scale | cvt | rint | qnt
  | iadd | isub | imul | and | or | xor | shl | shr | sra | imin | imax
  | exp2 | exp | log2 | log | rcp | rsqrt | tanh | sigm | erf | sin | cos
  | gath | scat | lxch | lsum | lshf
  deriving DecidableEq, Repr

/-- A pattern instruction in the native operand codes of Table 6-5. An Aqsal LANE source has code 32. -/
structure Insn where
  op : PatOp
  d : Nat
  a : Nat
  b : Nat
  c : Nat
  rm : Nat
  ty : Nat
  deriving DecidableEq, Repr

/-- One staged output element: first byte, first bit in it, width in bits, code (R176). -/
structure OutElem where
  addr : Nat
  bit : Nat
  w : Nat
  v : Nat
  deriving DecidableEq, Repr

/-- A value staged for a K4 output, converted when its block is whole (R82, R175): logical row, column, value. -/
structure K4Elem where
  row : Nat
  col : Nat
  v : FVal
  deriving DecidableEq, Repr

/-- What a chunk of a run has used so far (R178): Pattern steps, lines first touched, bits of outputs bound elsewhere; and every line
the run has touched. -/
structure Meter where
  cost : Nat := 0
  port : Nat := 0
  far : Nat := 0
  seen : List Nat := []
  deriving DecidableEq, Repr

/-- A vector run (R154, R176, R177): its command, its block and pattern as fetched (R159), the repetition or group, the
chunk and instruction it has reached, the pattern registers of the chunk's 256 elements, memory as it was when the commit
unit began, and what it has staged. -/
structure VecRun where
  q : Nat
  seq : Nat
  epi : Bool := false
  grp : Nat := 0
  blk : Blk
  pat : List Insn
  rep : Nat := 0
  chunk : Nat := 0
  pc : Nat := 0
  lanes : List (List Nat) := []
  snap : List Host.Cell := []
  snapPoison : List Nat := []
  outs : List OutElem := []
  k4 : List K4Elem := []
  trW : List ((Nat × Nat) × Nat) := []
  flags : Nat := 0
  uncorr : Bool := false
  meter : Meter := {}
  patDone : Bool := false
  unitDone : Bool := false
  deriving DecidableEq, Repr

/-- A MATMUL dispatched to a wing (R92, R93, R107): its clamped fields, the instance that feeds each array, and the step it
has reached; `epiFlags`: the flags of its last epilogue run; `ord`: its place in the wing's dispatch order (R191). -/
structure MatJob where
  q : Nat
  seq : Nat
  mode : Mode
  mask : Nat
  acc : Nat
  aload : Bool
  abuf : Nat
  wide : Bool
  rows : Nat
  depth : Nat
  colBase : Nat
  ncol : Nat
  streams : List Nat
  atile : Nat
  astride : Nat
  groups : Nat
  outStride : Nat
  epi : Option (Blk × List Insn) := none
  loaded : Bool := false
  g : Nat := 0
  j : Nat := 0
  c : Nat := 0
  stepped : Bool := false
  insts : List (Nat × Nat) := []
  epiDone : Nat := 0
  committed : Nat := 0
  skipTo : Nat := 0
  flags : Nat := 0
  epiFlags : Nat := 0
  ord : Nat := 0
  uncorr : Bool := false
  failed : Bool := false
  deriving DecidableEq, Repr

/-- A VEC_RUN dispatched to a wing; repetitions below `skipTo` were committed before a replay (R218). -/
structure VecJob where
  q : Nat
  seq : Nat
  blk : Blk
  pat : List Insn
  done : Bool := false
  flags : Nat := 0
  uncorr : Bool := false
  committed : Nat := 0
  skipTo : Nat := 0
  ord : Nat := 0
  meter : Meter := {}
  deriving DecidableEq, Repr

/-- Work dispatched to a wing, in dispatch order (R191). -/
inductive Job where
  | mat (m : MatJob)
  | vec (v : VecJob)
  deriving DecidableEq, Repr

/-- One wing beside its registers. `tr` holds the elements of the tile register that have a defined value (R153);
`past` holds retired MATMULs whose chains are not released (R218); `bistRet`
is the state a self-test returns to (R119); `waits` counts the steps each tile-store port has waited (R144); `ord` counts the
commands dispatched. -/
structure WingSt where
  half0 : Option Tile := none
  half1 : Option Tile := none
  whole : Option Tile := none
  fifo : List (List Byte) := [[], [], [], []]
  cols : List ((Nat × Nat) × ColSt) := []
  tr : List ((Nat × Nat) × Nat) := []
  jobs : List Job := []
  past : List MatJob := []
  run : Option VecRun := none
  bistRet : Nat := 0
  sweep : Bool := false
  draining : Bool := false
  waits : List Nat := [0, 0, 0, 0]
  ord : Nat := 0
  deriving DecidableEq, Repr

/-! ### The runner (R128 to R138) -/

/-- A receiver of an instance: wing, its arrays, the command that joined, and the slabs it has accepted (in bytes). -/
structure Recv where
  w : Nat
  arrs : List Nat
  slab : Nat
  q : Nat
  seq : Nat
  pos : Nat := 0
  deriving DecidableEq, Repr

/-- The fields of a turn-engine job (Table 8-8, R248), clamped. -/
structure TurnJob where
  src : Nat
  fmt : Nat
  hint : Nat
  depth : Nat
  groups : Nat
  ncol : Nat
  ks : Nat
  kd : Nat
  ncolD : Nat
  dst : Nat
  kstart : Nat
  kcount : Nat
  deriving DecidableEq, Repr

/-- An instance of a stream descriptor (R132): forming or open, with its copy of the descriptor (R131). `set`: the receiver set at forming. -/
structure Inst where
  id : Nat
  desc : Nat
  unicast : Bool
  isOpen : Bool := false
  src : Nat := 0
  kind : Nat := 0
  hint : Nat := 0
  len : Nat := 0
  rowBytes : Nat := 0
  rowPitch : Nat := 0
  turned : List Byte := []
  turnPoison : List Nat := []
  job : Option TurnJob := none
  set : List Nat := []
  recv : List Recv := []
  pruneDue : List Nat := []
  deriving DecidableEq, Repr

/-! ### The queue engine (R185 to R223) -/

/-- One command from its dispatch or discard on (R195): sequence number, the packet as read and clamped, the stage it has
passed, and its completion record. -/
structure Cmd where
  q : Nat
  seq : Nat
  pkt : List Nat
  clamped : Bool := false
  wing : Option Nat := none
  execDone : Bool := false
  noOutputs : Bool := false
  committed : Bool := false
  retired : Bool := false
  signalled : Bool := false
  replied : Bool := false
  status : Nat := 0
  flags : Nat := 0
  detail : Nat := 0
  time : Nat := 0
  unit : Nat := 0x80
  replays : Nat := 0
  awaitReplay : Bool := false
  dispatched : Bool := true
  deriving DecidableEq, Repr

/-- One queue beside its registers: a drain in progress (mode, the TAIL it covers, and whether DISABLED follows), replies
written, and the pending interrupt (R205, R215, R216). -/
structure QxSt where
  drain : Option (Nat × Nat) := none
  thenDisable : Bool := false
  written : Nat := 0
  errAfter : Option Nat := none
  deriving DecidableEq, Repr

/-- A tile-store copy from a failed wing to its adopter (R221) and the replay set that waits for it (R218). -/
structure Adoption where
  failed : Nat
  adopter : Nat
  set : List (Nat × Nat)
  jobs : List Job
  deriving DecidableEq, Repr

structure QeSt where
  cmds : List Cmd := []
  q : List (Nat × QxSt) := []
  adopt : List Adoption := []
  replay : List (Nat × List Job) := []
  deriving DecidableEq, Repr

/-- The interrupt controllers (R392, R396): pending and claimed PLIC sources, and the words of PLIC and ACLINT registers
that software has written, by offset. -/
structure PlicSt where
  pending : List Nat := []
  claimed : List Nat := []
  regs : List (Nat × Nat) := []
  deriving DecidableEq, Repr

/-! ### Memory, ladle and turn engine (R225 to R252) -/

/-- A line the ladle holds (R230): line number, sectors valid and dirty, protection. Lines stand most recently used first. -/
structure LdlLine where
  tag : Nat
  v0 : Bool
  v1 : Bool
  d0 : Bool
  d1 : Bool
  prot : Bool
  deriving DecidableEq, Repr

/-- A request that waits at the ladle (R231, R232): a read that missed, or a write (`data`) that cannot be accepted yet. -/
structure Fetch where
  addr : Nat
  len : Nat
  hint : Nat
  m : Nat
  data : Option (List Byte)
  deriving DecidableEq, Repr

/-- The memory system beside its registers: ladle lines of all Flasks, most recently used first; requests that wait; lines whose
write-back waits for a stack (R253); ladle words in error (bits inverted); bytes scrubbed per stack; refresh commands issued and
refresh-management requests served per stack; parity retries in a row per stack; the data rate in force per Flask (Table 8-1);
turn slots (by 64 f + slot), and the MODE 0 jobs in service: Flask, queue, sequence number, fields. -/
structure MemSt where
  ladle : List LdlLine := []
  fetch : List Fetch := []
  owed : List Nat := []
  words : List (Nat × Nat) := []
  scrub : List (Nat × Nat) := []
  refresh : List (Nat × Nat) := []
  rfm : List (Nat × Nat) := []
  parity : List (Nat × Nat) := []
  rates : List (Nat × Nat) := []
  slots : List (Nat × TurnJob) := []
  jobs : List (Nat × Nat × Nat × TurnJob) := []
  deriving DecidableEq, Repr
/-! ### Die-to-die links (R255 to R272). Link 0 to 3: edge of that Flask; 4 + l: Crucible link l -/

/-- A frame in a retry buffer (R258): sequence number, payload, the slice it went on. -/
structure D2dFrame where
  seq : Nat
  data : List Byte
  slice : Nat
  deriving DecidableEq, Repr

/-- One class of one direction of a link: the sender's next and oldest unacknowledged SEQ, its retry buffer and its credits, the
frames it may have sent beyond the acknowledged ones (log entry 152); the receiver's expected SEQ and the frames it holds until those before them arrive. -/
structure D2dCls where
  next : Nat := 0
  acked : Nat := 0
  retry : List D2dFrame := []
  credits : Nat := 2048
  expect : Nat := 0
  early : List D2dFrame := []
  deriving DecidableEq, Repr

/-- A frame in a receiver's crossing FIFO (R270): class, SEQ, payload. -/
structure D2dRx where
  cls : Nat
  seq : Nat
  data : List Byte
  deriving DecidableEq, Repr

/-- One direction of a link: frames (class, SEQ) that wait to be sent again; frames of each class served in the present round, and
frames since the last of CTRL (R259); the receiver's crossing FIFO of each slice, 16 frames deep (R270). -/
structure D2dDir where
  due : List (Nat × Nat) := []
  share : List Nat := [0, 0, 0, 0, 0]
  since : Nat := 63
  rx : List (Nat × List D2dRx) := []
  deriving DecidableEq, Repr

/-- One link: the mode an edge left when it began to change, whether it retrains (R268), slices waiting for retraining in order,
and the times of CRC failures per slice within the last microsecond. -/
structure EdgeSt where
  fromMode : Nat := 0
  retraining : Bool := false
  slices : List Nat := []
  errs : List (Nat × List Nat) := []
  deriving DecidableEq, Repr

/-- The links: classes and directions, edges, and the slices of Crucible links (link, slice) that carry no frames. -/
structure D2dSt where
  cls : List ((Nat × Nat × Nat) × D2dCls) := []
  dir : List ((Nat × Nat) × D2dDir) := []
  edge : List (Nat × EdgeSt) := []
  off : List (Nat × Nat) := []
  deriving DecidableEq, Repr

/-! ### Light engines (R275 to R302). Port p = 2e + j -/

/-- Lane-control messages (Table 10-6). -/
inductive LaneMsg where
  | peerId (addr port : Nat)
  | lswapReq (lane spare : Nat)
  | lswapDup (lane spare f : Nat)
  | lswapDone (lane spare f : Nat)
  | lswapAbandon (lane spare : Nat) (verify : Bool)
  | narrowAt (lanes : List Nat) (f : Nat)
  | widenAt (lanes : List Nat) (f : Nat)
  | cswapAt (f : Nat)
  | portOff
  deriving DecidableEq, Repr

/-- A line swap in one direction (R292): lane, its line and the spare; `stage` 0: LSWAP_REQ sent, 1: both lines carry the
lane, 2: LSWAP_DONE sent or received; the frame boundary of the stage; whether this end began it. -/
structure LSwap where
  lane : Nat
  line : Nat
  spare : Nat
  stage : Nat := 0
  f : Nat := 0
  own : Bool := true
  deriving DecidableEq, Repr

/-- One port beside its registers: lines failed on it, the swap of each direction, lanes whose trigger waits, a striping
change due (removed lanes restored or not, the lanes, F), the frame of its own comb cut-over and of its peer's, messages not
yet acknowledged, the number of the last message acted on, and what waits for a swap to end (Table 10-10). -/
structure PortSt where
  failed : List Nat := []
  tx : Option LSwap := none
  rx : Option LSwap := none
  queue : List (Bool × Nat) := []
  stripe : Option (List Nat × Nat) := none
  cswap : Option Nat := none
  cut : Bool := false
  peerCswap : Option Nat := none
  msgNo : Nat := 0
  sent : List (Nat × LaneMsg) := []
  seen : Option Nat := none
  peerOff : Bool := false
  drainAfter : Bool := false
  cutAfter : Bool := false
  deriving DecidableEq, Repr

/-- A comb swap (R294): the comb to light, whether software asked for it, and whether the cut-overs have begun. -/
structure CombSwap where
  comb : Nat
  requested : Bool
  cutting : Bool := false
  deriving DecidableEq, Repr

/-- The engines beside their registers: ports, comb swaps, engines that wait for 0 °C (R297), the readings of each engine's four
sensors in 0.1 °C (R275), and the keel firmware's store of comb states, active combs and ages: lit milliseconds, projection (R12,
R289, R297). -/
structure LeSt where
  port : List (Nat × PortSt) := []
  swap : List (Nat × CombSwap) := []
  waiting : List Nat := []
  sens : List ((Nat × Nat) × Int) := []
  combNv : List ((Nat × Nat) × Nat) := []
  activeNv : List (Nat × Nat) := []
  ageNv : List ((Nat × Nat) × (Nat × Nat)) := []
  deriving DecidableEq, Repr

/-! ### Fabric (R303 to R334) -/

/-- Who waits for a cell to be acknowledged: nobody, a command, a core's store or atomic, or the write-back of a recalled
granule (its home slot, tag and granule). -/
inductive Own where
  | none
  | cmd (q seq : Nat)
  | core (hart tag : Nat)
  | recall (slot tag gran : Nat)
  deriving DecidableEq, Repr

/-- A cell with the one who waits for it. -/
structure TxCell where
  cell : Cell
  own : Own
  deriving DecidableEq, Repr

/-- What the sender holds of one peer and class, or of one multicast group (R322, R326): next sequence, cells not yet
acknowledged oldest first, whether its next cell is the first of the incarnation, expiries in a row, whether CLOSE is out. -/
structure TxCls where
  next : Nat
  unacked : List TxCell := []
  fresh : Bool := true
  expiries : Nat := 0
  closing : Bool := false
  deriving DecidableEq, Repr

/-- The sending side of a peer entry (R321, R322): incarnation, its classes, and the time of its last cell. -/
structure TxEnt where
  inc : Nat
  cls : List (Nat × TxCls) := []
  last : Nat := 0
  deriving DecidableEq, Repr

/-- The receiving side of a peer and class, or of a multicast group of a source (R323, R324): incarnation, the next sequence
expected, acceptances not yet acknowledged. -/
structure RxCls where
  inc : Nat
  expect : Nat
  pend : Nat := 0
  deriving DecidableEq, Repr

/-- A cell that a unit has issued and the end-to-end layer has not numbered yet (R321, R322). -/
structure TxReq where
  dst : Nat
  cls : Nat
  mc : Bool
  mask : List Nat
  poison : Bool
  payload : List Byte
  own : Own
  deriving DecidableEq, Repr

/-- A unit in a retry buffer (R308): sequence, channel, pool, cell. -/
structure RetryUnit where
  lseq : Nat
  vc : Nat
  pool : Nat
  cell : Cell
  deriving DecidableEq, Repr

/-- A unit in a receive buffer: channel, pool, cell (R307). -/
structure RxUnit where
  vc : Nat
  pool : Nat
  cell : Cell
  deriving DecidableEq, Repr

/-- The link layer of one port (R306 to R309): next LSEQ, retry buffer, resends since LACK advanced, credits held per channel
and shared, LSEQ expected, receive buffer, credits to return, the last NAK sent with its time; the units between the router and the
port PHY, of which 64 stand in the crossing FIFO and others wait by handshake (R277), each with whether an injection inverts its CRC;
and the PHY's time left over, in 32nds of a unit. -/
structure LinkSt where
  next : Nat := 0
  retry : List RetryUnit := []
  resends : Nat := 0
  resv : List Nat := [256, 256, 256, 256, 256, 256, 256, 256]
  shared : Nat := 22528
  expect : Nat := 0
  rx : List RxUnit := []
  owed : List (Nat × Nat) := []
  nak : Option (Nat × Nat) := none
  fifo : List (LinkUnit × Bool) := []
  phase : Nat := 0
  deriving DecidableEq, Repr

/-- A FENCE in progress (R328): recorded sequences by peer and class. -/
structure FenceJob where
  q : Nat
  seq : Nat
  targets : List (Nat × Nat × Nat)
  deriving DecidableEq, Repr

/-- What the end-to-end layer tells the units that use it. -/
inductive FabEvent where
  | unreachable (peer : Nat) (owners : List Own)
  | reset (peer : Nat)
  | newInc (peer : Nat)
  deriving DecidableEq, Repr

structure FabSt where
  link : List (Nat × LinkSt) := []
  inject : List Cell := []
  eject : List Cell := []
  inbox : List Cell := []
  backlog : List TxReq := []
  tx : List (Nat × TxEnt) := []
  mctx : List ((Nat × Nat) × TxCls) := []
  rx : List ((Nat × Nat × Nat) × RxCls) := []
  incNext : Nat := 0
  unreach : List Nat := []
  events : List FabEvent := []
  fences : List FenceJob := []
  deriving DecidableEq, Repr

/-! ### Collectives (R359 to R382) -/

/-- A part of a member's edges that brings cells (R369): the neighbour, its rank, TREE and DIR of its cells; whether its SIG
agreed (R371), the DATA cells so far, whether END has come, END's flags and its bytes 8, 9 and 10–11 (R473). -/
structure ColIn where
  ep : Nat
  rank : Nat
  tree : Nat
  dir : Nat
  sig : Bool := false
  cells : List (List Byte × Bool) := []
  ended : Bool := false
  flags : Nat := 0
  verdict : Nat := 0
  bit : Nat := 0
  low : Nat := 0
  deriving DecidableEq, Repr

/-- What a member has done for one half: its own cells, cells combined (with the results the tree's root keeps), cells that
have come down, ENDs sent, flags raised here. -/
structure ColHalf where
  tree : Nat
  n : Nat
  own : List (List Byte × Bool)
  up : Nat := 0
  res : List (List Byte × Bool) := []
  upEnd : Bool := false
  down : Nat := 0
  downEnd : Bool := false
  flags : Nat := 0
  deriving DecidableEq, Repr

/-- An instance in progress: its command, group, number, parameters and signature; edges to send on (endpoint, TREE, DIR);
whether its destination is undefined by overlap (R373), the lowest poisoned element written, the verdict of a STEP_COMMIT
(bad, bit, endpoint), whether it has begun and finished. -/
structure ColInst where
  q : Nat
  seq : Nat
  g : Nat
  inst : Nat
  op : Nat
  dtype : Nat := 0
  red : Nat := 0
  root : Nat := 0
  src : Nat := 0
  dst : Nat := 0
  count : Nat := 0
  sig : Nat
  begun : Bool := false
  ins : List ColIn := []
  outs : List (Nat × Nat × Nat) := []
  half : List ColHalf := []
  scramble : Bool := false
  poison : Option Nat := none
  verdict : Nat := 0
  bit : Nat := 0
  low : Nat := 0
  fin : Bool := false
  deriving DecidableEq, Repr

/-- An ABORT recorded for an instance not dispatched yet (R374): low 16 bits of its number, reason, cause, origin, sender. -/
structure ColRec where
  inst : Nat
  reason : Nat
  cause : Nat
  origin : Nat
  sender : Nat
  deriving DecidableEq, Repr

/-- A group beside its registers: the list read at enable (R360) and recorded aborts. -/
structure ColGroup where
  members : List Nat
  recs : List ColRec := []
  deriving DecidableEq, Repr

structure CollSt where
  group : List (Nat × ColGroup) := []
  insts : List ColInst := []
  deriving DecidableEq, Repr

/-! ### Tray memory domain and copies (R335 to R357) -/

/-- What a core learns of an access: data, completion, or an access fault (R338 to R341). -/
inductive CoreReply where
  | data (bytes : List Byte)
  | done
  | fault
  deriving DecidableEq, Repr

/-- A request of this module to a tray slot that has not been answered: what for (0 load, 1 store, 2 atomic, 3 granule load,
4 store into a granule, 5 COPY ATOMIC), the tray address, the width, the data to store, and the command of a COPY. -/
structure TrayReq where
  slot : Nat
  tag : Nat
  hart : Nat
  kind : Nat
  addr : Nat
  n : Nat
  data : List Byte := []
  q : Nat := 0
  seq : Nat := 0
  deriving DecidableEq, Repr

/-- A granule of a peer's window held in the core caches (R343): slot, granule number there, ownership, dirtiness, its bytes. -/
structure CacheGran where
  slot : Nat
  gran : Nat
  owned : Bool
  dirty : Bool
  bytes : List Byte
  deriving DecidableEq, Repr

/-- A directory entry (R344): granule of the own window, holders, owner, time of last use. -/
structure DirEnt where
  gran : Nat
  shared : List Nat
  owner : Option Nat
  used : Nat
  deriving DecidableEq, Repr

/-- A recall in progress (R345): its granule, the request it serves (a source endpoint, or `none` for a local writer), the
slots that have not answered. -/
structure Recall where
  gran : Nat
  by_ : Option Nat
  waits : List Nat
  deriving DecidableEq, Repr

/-- A copy in service (R351, R352): command, engine, destination endpoint (none: local), outcome so far, what it announces,
whether the announcement has left. -/
structure CopyJob where
  q : Nat
  seq : Nat
  f : Nat
  tag : Nat := 0
  ep : Option Nat
  status : Nat := 0
  detail : Nat := 0
  arr : Option (Nat × Nat) := none
  arrSent : Bool := false
  waitReply : Bool := false
  deriving DecidableEq, Repr

structure TraySt where
  reqs : List TrayReq := []
  nextTag : Nat := 0
  cache : List CacheGran := []
  dir : List DirEnt := []
  recalls : List Recall := []
  sent : List Nat := []
  recv : List Nat := []
  acks : List (Nat × Nat × Nat) := []
  fences : List Nat := []
  copies : List CopyJob := []
  clock : Nat := 0
  deriving DecidableEq, Repr

/-! ### Resilience engine (R462 to R484) -/

/-- A PUSH or RESTORE in progress (R469, R478): command, kind, tag of its cells, the endpoint it writes to, the step, the
generation a RESTORE reads, whether a PUSH appends, its ranges (address, length) and where its records and data begin, whether
it has begun, whether its closing header has left, outcome. -/
structure ResJob where
  q : Nat
  seq : Nat
  restore : Bool
  tag : Nat
  ep : Nat
  step : Nat
  gen : Nat := 0
  append : Bool := false
  list : List (Nat × Nat) := []
  recBase : Nat := 0
  dataBase : Nat := 0
  begun : Bool := false
  last : Bool := false
  arr : Option (Nat × Nat) := none
  status : Nat := 0
  detail : Nat := 0
  deriving DecidableEq, Repr

/-- The engine beside its registers: the pending generation (R465), jobs, the open step of the own push with its records and
bytes so far, and whether a STEP_COMMIT of the last PUSH's step has retired (Table 17-4). -/
structure ResSt where
  pending : Option Nat := none
  jobs : List ResJob := []
  openStep : Option Nat := none
  openRanges : Nat := 0
  openBytes : Nat := 0
  committed : Bool := true
  deriving DecidableEq, Repr

/-! ### Power and temperature (R486 to R507) -/

/-- The controllers beside their registers: the power-up step whose rails come up (1 to 6; 0: none) and whether the boot then
goes on at stage 2 (R488, R505); per rail the request the throttle leaves (R497), the lowering of a rate-of-rise event with
whether a further event has lowered it (R499), the throttle holds in 1/64 (R497); rails at THROTTLE; the power hold in parts
per thousand and the milliseconds at the cap (R495); the last ten readings of each die sensor (R491); heating time so far and
since when it runs (R502). -/
structure PwrSt where
  step : Nat := 1
  resume : Bool := false
  thr : List (Nat × Nat) := []
  dtdt : List (Nat × (Nat × Bool)) := []
  hold : List (Nat × Nat) := []
  hot : List Nat := []
  phold : Nat := 0
  limTicks : Nat := 0
  hist : List (Nat × List Int) := []
  baskNs : Nat := 0
  baskAt : Option Nat := none
  deriving DecidableEq, Repr

/-! ### Boot (R397 to R400, R120) -/

/-- The boot beside CRU_BOOT: harts released and the entry point (stage 12), stacks to let in (R227), image classes whose pending
image this boot tries (R424), and the firmware's store: wings out of service with their cause, soft entries and swaps (R120); and whether
this boot found no light-engine controller image (R425). -/
structure BootSt where
  harts : List Nat := []
  entry : Nat := 0
  trial : List Nat := []
  wingsOut : List (Nat × Nat) := []
  softNv : List ((Nat × Nat) × Nat) := []
  swapNv : List Nat := []
  lecBad : Bool := false
  deriving DecidableEq, Repr

/-! ### Security (R416 to R438) -/

/-- An IMAGE transfer (R423): class, total bytes, bytes so far, the time of its last command. -/
structure Xfer where
  cls : Nat
  total : Nat
  data : List Byte := []
  last : Nat := 0
  deriving DecidableEq, Repr

/-- The root of trust and its non-volatile store: objects by class and slot, active slots, classes with a pending image, operator
roots, whether a DEVICE_ID certificate is stored, the marker of a state change (R435), whether the device key is withdrawn
(Table 15-12), the transfer, and the class and slot of the keel that runs. -/
structure SecSt where
  slots : List ((Nat × Nat) × List Byte) := []
  active : List (Nat × Nat) := []
  pendImg : List Nat := []
  roots : List (List Byte) := []
  deviceCert : Bool := false
  marker : Option Nat := none
  withdrawn : Bool := false
  xfer : Option Xfer := none
  keelSlot : Nat := 0
  deriving DecidableEq, Repr

/-! ### Management (R401 to R413) -/

/-- A session (R404, R405): identity, index, whether FINISH has closed its opening, role bits, client certificate, transcript,
keys towards the module and from it, counter of the last accepted command, the last 16 replies, time of last use. -/
structure Sess where
  id : Nat
  idx : Nat
  opened : Bool := false
  roles : Nat
  cert : List Byte
  transcript : List Nat
  keyIn : List Nat
  keyOut : List Nat
  last : Nat := 0
  cache : List (Nat × List Byte) := []
  used : Nat := 0
  deriving DecidableEq, Repr

/-- A management message coming in fragments over the fabric (R411): source, message number, fragment count, the time of the
first, and the fragments. -/
structure MgtFrag where
  src : Nat
  num : Nat
  count : Nat
  time : Nat
  parts : List (Nat × List Byte) := []
  deriving DecidableEq, Repr

/-- The management port: sessions, datagrams and HELLOs in the present second (R404, R409), times of the tag failures in a row
(R437), fragments, the number of the next message sent over the fabric, autoconfigured addresses, slots of the OS rings next
used (R408), nanoseconds since the last slewed one and the
offset still to slew (R395). -/
structure MgtSt where
  sess : List Sess := []
  load : Nat × Nat := (0, 0)
  hellos : Nat × Nat := (0, 0)
  storm : List Nat := []
  frags : List MgtFrag := []
  msgNo : Nat := 0
  addrs : List (List Byte) := []
  osRx : Nat := 0
  osTx : Nat := 0
  slew : Nat := 0
  remain : Int := 0
  deriving DecidableEq, Repr


/-- What the block has sent and not handed over (log entry 6). -/
inductive OutMsg where
  /-- An interrupt delivered: a PLIC source (R396). -/
  | irq (src : Nat)
  /-- Data returned by the ladle to a requester, with its poison (R232, R240). -/
  | data (addr : Nat) (bytes : List Byte) (poison : Bool)
  /-- A die-to-die data frame resent: link, direction, slice, class, SEQ, payload (R266). -/
  | d2dFrame (l dir x cls seq : Nat) (data : List Byte)
  /-- A die-to-die NAK naming the failed frame: whether it was a data frame, class or kind, SEQ (R257, R266). -/
  | d2dNak (l dir : Nat) (data : Bool) (cls seq : Nat)
  /-- A receiver's link control: acknowledged SEQ and credits per class (R257). -/
  | d2dControl (l dir : Nat) (acks credits : List Nat)
  /-- A receiver's link control that removes a slice (R267). -/
  | d2dRemove (l dir x : Nat)
  /-- An idle frame of a sender without credits (R271). -/
  | d2dIdle (l dir x : Nat)
  /-- A die-to-die frame delivered to the runner, a Flask or Crucible (R258). -/
  | d2dData (l dir cls seq : Nat) (data : List Byte)
  /-- A lane-control message on a light-engine port, with its number, repeated in each frame until acknowledged (R291). -/
  | lane (p num : Nat) (m : LaneMsg)
  /-- The acknowledgement of a lane-control message (R291). -/
  | laneAck (p num : Nat)
  /-- A link unit sent on a port; `bad`: its CRC is inverted by an injection (R306, R457). -/
  | unit (p : Nat) (u : LinkUnit) (bad : Bool)
  /-- A NAK of the expected LSEQ (R308). -/
  | linkNak (p lseq : Nat)
  /-- The end of a core's access (R338 to R341). -/
  | core (hart : Nat) (r : CoreReply)
  /-- A management message sent on the management lane (R403). -/
  | mgt (bytes : List Byte)
  /-- A frame of the operating system sent on the management lane (R408). -/
  | frame (bytes : List Byte)
  /-- An answer to neighbour discovery for an address of the module, with the MAC address (R402). -/
  | neighbour (addr : List Byte) (mac : Nat)
  /-- An ICMPv6 echo reply (R402). -/
  | echo (data : List Byte)
  /-- The bytes an SMBus read returns (R413). -/
  | smb (bytes : List Byte)
  deriving DecidableEq, Repr

/-- The fuses and fused counters (R416, R422, R431): burnt values; `lcs` is the life-cycle state, `revoked` bit k the fuse that
revokes vendor root key k. -/
structure Fuses where
  lcs : Nat := 0
  reseals : Nat := 0
  rollback : List Nat := [0, 0, 0, 0]
  revoked : Nat := 0
  deriving DecidableEq, Repr

/-- Levels outside the registers: RESET_N, the reference clock, the straps as sampled, whether VSTBY stands and whether the
input is lost while the hold-up store carries it (R488, R513, R514, R517, R518), and alert pulses running (R454). -/
structure Pins where
  resetN : Bool := true
  refclk : Bool := true
  straps : Nat := 0
  vstby : Bool := true
  lost : Bool := false
  alertPulse : Bool := false
  secPulse : Bool := false
  deriving DecidableEq, Repr

/-- The whole block. `resv`: the LR/SC reservations of the harts, as granules (R385). `engFused`: the light engines whose fuse maps
are loaded, and 8 once the planned taps have taken theirs since power-on (R8, R11). `fru`: the bytes the tray has written in its
area of the FRU EEPROM (R528). -/
structure State where
  pending : List Instr := []
  regs : List (RegKey × Word) := []
  mem : List Host.Cell := []
  poison : List Nat := []
  latent : List (Nat × Nat) := []
  free : Nat := 0
  busReply : Option Nat := none
  out : List OutMsg := []
  poweredH : Nat := 0
  fuses : Fuses := {}
  pins : Pins := {}
  margin : MarginSt := {}
  eye : EyeSt := {}
  wings : List (Nat × WingSt) := []
  insts : List Inst := []
  nextInst : Nat := 0
  nmi : Nat := 0
  engFused : List Nat := []
  qe : QeSt := {}
  ms : MemSt := {}
  plic : PlicSt := {}
  injLeft : Nat := 0
  d2d : D2dSt := {}
  le : LeSt := {}
  fab : FabSt := {}
  tray : TraySt := {}
  res : ResSt := {}
  coll : CollSt := {}
  resv : List (Nat × Nat) := []
  pw : PwrSt := {}
  boot : BootSt := {}
  sec : SecSt := {}
  mgt : MgtSt := {}
  fru : List (Nat × Byte) := []
  deriving DecidableEq, Repr

/-- The registers that a power-on leaves off their Reset column: while a fixed rail is up its SET_MV reads its level (R486), and
VSTBY, rail 9, is up at 750 mV and power-good from the power-on reset on. -/
def standbyRail : List (RegKey × Word) := [(⟨.PWR_RAIL, 9, 0⟩, 0x02D00000000002EE), (⟨.PWR_RAIL_MEAS, 9, 0⟩, 0x0001000000000000)]

/-- The machine right after a power-on reset: every register at its Reset column (a register nothing has written holds its
reset word, `resetWord`), memory with nothing listed, VSTBY up and the first power-up step begun, every other part empty
(R397, R399, R488). -/
def State.reset : State := { regs := standbyRail }

end Sys2Proof.Machine
end

