-- ==== Sys2Proof/Machine/Ops.lean ====
section
/-! DEFINITION. The named operations over registers, memory, free values, outputs and Eyespot that every meaning uses. -/

namespace Sys2Proof.Machine

/-! ### Registers (R4 to R12) -/

/-- Bit field of a word, as a number. -/
def getBits (x : Word) (lsb w : Nat) : Nat := (x.toNat >>> lsb) % 2 ^ w

/-- The word with a bit field replaced. -/
def setBits (x : Word) (lsb w v : Nat) : Word :=
  (x &&& ~~~(BitVec.ofNat 64 (2 ^ w - 1) <<< lsb)) ||| (BitVec.ofNat 64 (v % 2 ^ w) <<< lsb)

/-- The control-space address of a register instance whose two indices add up as its dimensions say. -/
def RegKey.addrAux : List Dim → Nat → Nat → Nat
  | [], _, _ => 0
  | d :: ds, i, j =>
    if d.mi > 0 then ((i / d.mi) % d.count) * d.stride + addrAux ds (i % d.mi) j
    else if d.mj > 0 then ((j / d.mj) % d.count) * d.stride + addrAux ds i (j % d.mj)
    else addrAux ds i j

def RegKey.addr (k : RegKey) : Nat := k.name.info.base + k.name.info.off + RegKey.addrAux k.name.info.dims k.i k.j

/-- Defaults of one source as Tables 16-2, 17-9 and 18-7 give them: IRQ, NMI, BLOCK, MODULE, PIN, THRESH, class, level. -/
structure SrcDef where
  irq : Nat
  nmi : Nat
  block : Nat
  module : Nat
  pin : Nat
  thresh : Nat
  cls : Nat
  level : Nat
  deriving DecidableEq, Repr

/-- The sources of one group; `none` for an index that is not listed. -/
def srcDef (n : Nat) : Option SrcDef :=
  let g := n / 16
  let i := n % 16
  if g ≤ 63 then
    if i ≤ 3 then some ⟨1, 0, 1, 0, 0, 4, 1, 0⟩
    else if i = 4 then some ⟨1, 0, 0, 0, 0, 1, 2, 0⟩
    else if i = 5 then some ⟨1, 0, 1, 0, 0, 1, 2, 0⟩
    else if i = 6 then some ⟨1, 0, 0, 0, 0, 1, 2, 0⟩
    else if i ≤ 8 then some ⟨1, 0, 0, 0, 0, 1, 0, 0⟩
    else none
  else if g = 64 then some ⟨1, 1, 0, 1, 1, 1, 3, 0⟩
  else if g = 65 then
    if i ≤ 3 then some ⟨1, 0, 0, 0, 0, 1, 1, 0⟩
    else if i ≤ 5 then some ⟨1, 0, 0, 0, 0, 1, 0, 0⟩
    else if i = 6 then some ⟨1, 0, 0, 0, 0, 1, 2, 0⟩
    else none
  else if g ≤ 69 then
    if i ≤ 3 then some ⟨1, 0, 0, 0, 0, 1, 2, 0⟩
    else if i ≤ 7 then some ⟨1, 1, 0, 0, 1, 1, 3, 1⟩
    else if i = 8 then some ⟨0, 0, 0, 0, 1, 1, 3, 1⟩
    else if i ≤ 10 then some ⟨1, 1, 0, 1, 1, 1, 3, 0⟩
    else none
  else if g ≤ 73 then
    if i = 0 then some ⟨1, 0, 0, 0, 0, 1, 1, 0⟩
    else if i = 1 then some ⟨1, 0, 0, 0, 0, 1, 0, 0⟩
    else if i = 2 then some ⟨1, 1, 1, 0, 1, 1, 3, 1⟩
    else if i ≤ 6 then some ⟨1, 0, 1, 0, 0, 1, 2, 0⟩
    else if i ≤ 11 then some ⟨1, 0, 0, 0, 0, 1, 0, 0⟩
    else if i ≤ 14 then some ⟨1, 0, 0, 0, 0, 1, 2, 0⟩
    else none
  else if g ≤ 81 then
    if i = 0 then some ⟨1, 0, 0, 0, 0, 1, 0, 0⟩
    else if i = 1 then some ⟨1, 0, 1, 0, 0, 1, 2, 0⟩
    else if i = 2 then some ⟨1, 0, 0, 0, 0, 1, 0, 1⟩
    else if i = 3 then some ⟨1, 0, 0, 0, 1, 1, 2, 1⟩
    else if i ≤ 5 then some ⟨1, 0, 1, 0, 0, 1, 2, 1⟩
    else if i = 6 then some ⟨1, 0, 0, 0, 0, 1, 1, 0⟩
    else none
  else if g = 82 then (if i ≤ 5 then some ⟨1, 0, 0, 0, 3, 1, 0, 0⟩ else none)
  else if g = 83 then
    if i = 0 then some ⟨1, 0, 0, 0, 0, 1, 2, 0⟩
    else if i = 1 then some ⟨1, 0, 0, 0, 0, 1, 0, 0⟩
    else if i = 2 then some ⟨1, 0, 0, 0, 3, 1, 0, 0⟩
    else if i ≤ 7 then some ⟨1, 1, 0, 0, 1, 1, 3, 1⟩
    else if i = 8 then some ⟨0, 0, 0, 0, 1, 1, 3, 1⟩
    else if i = 9 then some ⟨0, 1, 0, 0, 0, 1, 2, 0⟩
    else if i ≤ 12 then some ⟨1, 0, 0, 0, 0, 1, 0, 0⟩
    else none
  else if g = 84 then
    match i with
    | 0 => some ⟨1, 0, 0, 0, 0, 1, 0, 1⟩
    | 1 => some ⟨1, 0, 0, 0, 2, 1, 2, 1⟩
    | 2 => some ⟨1, 1, 0, 0, 4, 1, 3, 0⟩
    | 3 => some ⟨0, 0, 0, 0, 4, 1, 3, 0⟩
    | 4 => some ⟨1, 0, 0, 0, 0, 1, 0, 1⟩
    | 5 => some ⟨1, 1, 0, 0, 4, 1, 3, 0⟩
    | 6 => some ⟨0, 0, 0, 0, 2, 1, 0, 1⟩
    | 7 => some ⟨0, 0, 0, 0, 2, 1, 3, 0⟩
    | 8 => some ⟨1, 0, 0, 0, 0, 1, 0, 0⟩
    | 9 => some ⟨1, 0, 0, 0, 0, 1, 2, 1⟩
    | 10 => some ⟨1, 1, 0, 0, 4, 1, 3, 0⟩
    | 11 => some ⟨1, 0, 0, 0, 0, 1, 2, 0⟩
    | 12 => some ⟨1, 0, 0, 0, 2, 1, 0, 1⟩
    | _ => none
  else if g = 85 then
    match i with
    | 0 => some ⟨1, 0, 0, 0, 0, 1, 0, 1⟩
    | 1 => some ⟨1, 0, 0, 0, 0, 1, 0, 1⟩
    | 2 => some ⟨1, 0, 0, 0, 2, 1, 0, 1⟩
    | 3 => some ⟨1, 1, 0, 0, 4, 1, 3, 0⟩
    | 4 => some ⟨0, 0, 0, 0, 4, 1, 3, 0⟩
    | 5 => some ⟨1, 0, 0, 0, 4, 1, 3, 0⟩
    | 6 => some ⟨1, 0, 0, 0, 2, 1, 2, 0⟩
    | 7 => some ⟨1, 0, 0, 0, 0, 1, 0, 0⟩
    | _ => none
  else if g = 86 then
    if i ≤ 3 then some ⟨1, 0, 0, 0, 0, 1, 2, 0⟩
    else if i = 4 then some ⟨1, 0, 0, 0, 0, 1, 0, 0⟩
    else if i = 5 then some ⟨1, 0, 0, 0, 0, 1, 2, 1⟩
    else none
  else none

/-- Whether a source has a block reset (last column of Table 16-2). -/
def srcHasBlock (n : Nat) : Bool :=
  let g := n / 16
  let i := n % 16
  (decide (g ≤ 63) && (decide (i ≤ 3) || i == 5)) ||
  (decide (70 ≤ g) && decide (g ≤ 73) && decide (2 ≤ i) && decide (i ≤ 6)) ||
  (decide (74 ≤ g) && decide (g ≤ 81) && (i == 1 || i == 4 || i == 5))

/-- The reset word of EYE_SRC[n]_CFG; a reserved source reads zero. -/
def srcCfgReset (n : Nat) : Nat :=
  match srcDef n with
  | none => 0
  | some d => d.irq + d.nmi * 2 + d.block * 4 + d.module * 8 + d.pin * 16 + d.thresh * 256 + d.cls * 65536 + d.level * 262144

/-- Which fuse map holds the fused fields of a register (R11): 0 Crucible, 1 Imago and the Flasks, 2 a light engine. -/
def RegName.fuseMap (n : RegName) : Nat :=
  let b := n.info.base
  if b = 0xF00000000000 ∨ b = 0xF00001000000 then 0 else if b = 0xF00060000000 then 2 else 1

/-- `n` different members of a list, chosen by a sequence of numbers. -/
def pickList (pick : Nat → Nat) : Nat → List Nat → List Nat
  | 0, _ => []
  | n + 1, l => let x := l.getD (pick n % max 1 l.length) 0; x :: pickList pick n (l.filter (· != x))

/-- The physical positions of a field's sixteen wings in order: sixteen of its seventeen (R19; log entry 12). -/
def fieldPlaces (f : Nat) : List Nat :=
  pickList (fun n => (Config.fuseWord (RegKey.addr ⟨.WNG_ID, 16 * f + n, 0⟩)).toNat) 16 (List.range 17)

/-- What a fused field takes from the fuse map (R11). The maps keep what their owners state of them: FIELD is ⌊w / 16⌋ and the
PHYS of a field differ (R19), a map slot names a position once or is unused (Table 4-14), at most 64 lanes are assigned (Table 5-9). -/
def fuseVal (k : RegKey) (lsb w : Nat) : Nat :=
  let raw := fun (l : Nat) => getBits (Config.fuseWord k.addr) l w
  match k.name with
  | .WNG_ID => if lsb = 8 then k.i / 16 else (fieldPlaces (k.i / 16)).getD (k.i % 16) 0
  | .WNG_ARR_MAP =>
    let used := (List.range (lsb / 8)).map fun n => raw (8 * n)
    if raw lsb < 132 ∧ !used.contains (raw lsb) then raw lsb else 0xFF
  | .RUN_XLINK_STAT => min (raw lsb) 64
  | _ => raw lsb

/-- The word of a register whose fields all hold the value of their Reset column; fused fields read zero until their fuse
map is loaded (R11), and a strapped field has the straps' value. The fused fields of SEC_LCS and SEC_ROLLBACK are the counters of `Fuses`. -/
def resetWord (k : RegKey) (straps : Nat) (fusesLoaded : Bool) : Word :=
  if k.name = .EYE_SRC_CFG then BitVec.ofNat 64 (srcCfgReset k.i) else
  k.name.info.fields.foldl (fun x f =>
    match f.rst with
    | .val v => setBits x f.lsb f.w v
    | .fuse => if k.name = .SEC_LCS ∨ k.name = .SEC_ROLLBACK then x else if fusesLoaded then setBits x f.lsb f.w (fuseVal k f.lsb f.w) else x
    | .strap =>
      -- FAB_ADDR: TRAY and SLOT; CRU_SMB_STAT.ADDR: 0x40 + slot (R412, R513)
      if k.name = .CRU_SMB_STAT then setBits x f.lsb f.w (0x40 + straps % 8)
      else setBits x f.lsb f.w (if f.lsb = 0 then straps / 8 % 8 else straps % 8)
    | .table => x) 0

/-- Whether the fuse map of a register's fused fields has been loaded: FUSE_CRU, FUSE_DONE, or the engine's start (R11). -/
def State.fusesIn (s : State) (k : RegKey) : Bool :=
  let boot := (mgetD s.regs ⟨.CRU_BOOT, 0, 0⟩ 0x20000)
  match k.name.fuseMap with
  | 0 => getBits boot 18 1 == 1
  | 1 => getBits boot 16 1 == 1
  | _ => s.engFused.contains (if k.name = .LE_COMB_HEALTH then k.i else k.i / 2)

/-- The word of a register with its fused fields at the values of the fuse map. A field kept over a module reset (RWS) takes
its value at the first load after a power-on alone (R8). -/
def fusedWord (first : Bool) (k : RegKey) (x : Word) : Word :=
  if k.name = .SEC_LCS ∨ k.name = .SEC_ROLLBACK then x else
  k.name.info.fields.foldl (fun x f =>
    if f.rst = .fuse ∧ (first ∨ !f.keep) then setBits x f.lsb f.w (fuseVal k f.lsb f.w) else x) x

/-- A fuse map is loaded (R11): the fused fields it holds take their values in every register that has been written. -/
def State.loadFuses (s : State) (p : RegKey → Bool) (first : Bool := true) : State :=
  { s with regs := s.regs.map (fun e => if p e.1 then (e.1, fusedWord first e.1 e.2) else e) }

/-- Reading a register word. A register nothing has written holds its reset word. -/
def State.rd (s : State) (n : RegName) (i : Nat := 0) (j : Nat := 0) : Word :=
  mgetD s.regs ⟨n, i, j⟩ (resetWord ⟨n, i, j⟩ s.pins.straps (s.fusesIn ⟨n, i, j⟩))

/-- Writing a register word, without any effect of the write. -/
def State.wr (s : State) (n : RegName) (v : Word) (i : Nat := 0) (j : Nat := 0) : State :=
  { s with regs := mset s.regs ⟨n, i, j⟩ v }

/-- Reading a field. -/
def State.f (s : State) (x : Fld) (i : Nat := 0) (j : Nat := 0) : Nat := getBits (s.rd x.reg i j) x.lsb x.w

/-- Setting a field; the rest of the register stays. -/
def State.setF (s : State) (x : Fld) (v : Nat) (i : Nat := 0) (j : Nat := 0) : State :=
  s.wr x.reg (setBits (s.rd x.reg i j) x.lsb x.w v) i j

/-- A field read as two's complement. -/
def State.fS (s : State) (x : Fld) (i : Nat := 0) (j : Nat := 0) : Int := toSigned x.w (s.f x i j)

/-- A saturating count. -/
def State.bump (s : State) (x : Fld) (k : Nat := 1) (i : Nat := 0) (j : Nat := 0) : State :=
  s.setF x (satAdd x.w (s.f x i j) k) i j

/-- The time base (R394). -/
def State.now (s : State) : Nat := (s.rd .CRU_TIME).toNat

/-- Powered hours: those before the last power-on and those since (R56; the time base starts at zero there, R394). -/
def State.hours (s : State) : Nat := s.poweredH + s.now / 3600000000000

/-- Drawing a free value. -/
def State.draw (s : State) : Nat × State := ((Config.freeWord s.free).toNat, { s with free := s.free + 1 })

/-- A cyclic redundancy check of width `w` over bits in the order given, without final inversion. -/
def crcBits (w poly init : Nat) (bits : List Bool) : Nat :=
  bits.foldl (fun c b =>
    let x := (c * 2) % 2 ^ w
    if (bitsAt c (w - 1) 1 == 1) != b then x ^^^ poly else x) init

/-- Sending a message out of the block. -/
def State.send (s : State) (m : OutMsg) : State := { s with out := s.out ++ [m] }

/-- The outcome of a command that names a unit the module has; any other command is a fault. -/
def onUnit (ok : Bool) (k : Host.Outcome State Fault Refusal) : Host.Outcome State Fault Refusal :=
  if ok then k else .fault .noSuchUnit

/-! ### Memory (R143, R228): one byte store for the stacks and the tile stores -/

/-- Reading one byte; an unlisted address reads 0 (log entry 5). -/
def cellGet : List Host.Cell → Nat → Byte
  | [], _ => 0
  | (x, v) :: t, a => if x = a then v else cellGet t a

/-- Writing one byte in canonical form: addresses rising, no entry equal to 0. -/
def cellSet : List Host.Cell → Nat → Byte → List Host.Cell
  | [], a, b => if b = 0 then [] else [(a, b)]
  | (x, v) :: t, a, b =>
    if a < x then (if b = 0 then (x, v) :: t else (a, b) :: (x, v) :: t)
    else if a = x then (if b = 0 then t else (a, b) :: t)
    else (x, v) :: cellSet t a b

/-- The canonical form of memory. -/
def cellsWf : List Host.Cell → Bool
  | [] => true
  | [(_, v)] => v != 0
  | (x, v) :: (y, w) :: t => v != 0 && decide (x < y) && cellsWf ((y, w) :: t)

/-- The memory with a range made zero. -/
def cellsZero (m : List Host.Cell) (lo n : Nat) : List Host.Cell := m.filter fun c => c.1 < lo || lo + n ≤ c.1

/-- Bytes of memory from an address on. -/
def cellsRead (m : List Host.Cell) (a : Nat) : Nat → List Byte
  | 0 => []
  | n + 1 => cellGet m a :: cellsRead m (a + 1) n

/-- Writing bytes from an address on. -/
def cellsWrite (m : List Host.Cell) (a : Nat) : List Byte → List Host.Cell
  | [] => m
  | b :: bs => cellsWrite (cellSet m a b) (a + 1) bs

/-- Copying a range, the source read before anything is written. -/
def cellsCopy (m : List Host.Cell) (src dst n : Nat) : List Host.Cell :=
  ((m.filter fun c => src ≤ c.1 && c.1 < src + n).foldl
    (fun acc c => cellSet acc (dst + (c.1 - src)) c.2) (cellsZero m dst n))

/-- Little-endian number of bytes (R13). -/
def leNat : List Byte → Nat
  | [] => 0
  | b :: bs => b.toNat + 256 * leNat bs

/-- `n` bytes of a number, little-endian. -/
def leBytes : Nat → Nat → List Byte
  | 0, _ => []
  | n + 1, v => BitVec.ofNat 8 v :: leBytes n (v / 256)

/-- Big-endian number of bytes (the exceptions of R13). -/
def beNat (bs : List Byte) : Nat := bs.foldl (fun a b => a * 256 + b.toNat) 0

def beBytes (n v : Nat) : List Byte := (leBytes n v).reverse

/-- Memory bounds (R28, R143, R228). -/
def hbmEnd : Nat := 0x9000000000
def stackSize : Nat := 0x900000000
def tileBase : Nat := 0xE00000000000
def tileSize : Nat := 0x600000
def tileStride : Nat := 0x800000
def tileAddr (w off : Nat) : Nat := tileBase + w * tileStride + off

/-- The wing whose tile-store range holds an address, with its offset, where it is one of the 6 MiB. -/
def tileOf (a : Nat) : Option (Nat × Nat) :=
  if a < tileBase then none
  else
    let x := a - tileBase
    let w := x / tileStride
    let o := x % tileStride
    if w < 64 ∧ o < tileSize then some (w, o) else none

/-- Reserved regions of local HBM: the Crucible reserved region (Table 14-2), and the reserve region at the top of the
stacks that CRU_RES_RESV.ACTIVE_G sizes (R463). -/
def State.reserveG (s : State) : Nat := s.f F.CRU_RES_RESV_ACTIVE_G

/-- The stack of a local address (R228). -/
def stackOf (a : Nat) : Nat := a / stackSize

/-- The Flask that homes a local address. -/
def flaskOf (a : Nat) : Nat := stackOf a / 4

def State.readBytes (s : State) (a n : Nat) : List Byte := cellsRead s.mem a n
def State.readNat (s : State) (a n : Nat) : Nat := leNat (s.readBytes a n)

/-- Sector addresses a byte range touches. -/
def sectorsOf (a n : Nat) : List Nat := if n = 0 then [] else (natRange (a / 64) ((a + n - 1) / 64 - a / 64 + 1)).map (· * 64)

/-- Whether a byte range touches a poisoned sector. -/
def poisonIn (p : List Nat) (a n : Nat) : Bool := p.any fun x => decide (x < a + n) && decide (a < x + 64) && decide (n > 0)

def State.poisoned (s : State) (a n : Nat) : Bool := poisonIn s.poison a n

/-- Writing bytes: a write of a whole sector clears its poison, a partial write leaves it (R147, R240); it ends the reservations
on the granules it touches (R385). -/
def State.writeBytes (s : State) (a : Nat) (bs : List Byte) : State :=
  { s with mem := cellsWrite s.mem a bs
           poison := s.poison.filter fun x => !(decide (a ≤ x) && decide (x + 64 ≤ a + bs.length))
           latent := s.latent.filter fun p => !(decide (a ≤ p.1) && decide (p.1 + 64 ≤ a + bs.length))
           resv := s.resv.filter fun r => !(decide (r.2 * 128 < a + bs.length) && decide (a < r.2 * 128 + 128)) }

def State.writeNat (s : State) (a n v : Nat) : State := s.writeBytes a (leBytes n v)

/-- A stack that is LOST discards writes (R243). -/
def State.lostAt (s : State) (a : Nat) : Bool := decide (a < hbmEnd) && s.f F.FLK_MEM_STACK_STAT_STATE (stackOf a) == 4

/-- Poisoning the sector of an address. -/
def State.poisonAt (s : State) (a : Nat) : State :=
  let x := a / 64 * 64
  if s.poison.contains x then s else { s with poison := x :: s.poison }

/-! ### Eyespot: occurrences (R443 to R452) -/

def srcOf (g i : Nat) : Nat := 16 * g + i

/-- The environment of the detecting unit where it has one (R452): Tj, VCORE and array step rate of a wing. -/
def State.envOf (s : State) (n : Nat) : Int × Nat × Nat :=
  if n / 16 < 64 then
    let w := n / 16
    (s.fS F.THM_SENS_TEMP w, s.f F.PWR_RAIL_SET_MV (w / 16), s.f F.MGN_RATE_ACT_RATE w)
  else (0, 0, 0)

def State.eyeSrc (s : State) (n : Nat) : EyeSrcSt := mgetD s.eye.src n {}
def State.setEyeSrc (s : State) (n : Nat) (x : EyeSrcSt) : State :=
  { s with eye := { s.eye with src := mset s.eye.src n x } }

/-- The heartbeat domain of a source (Table 16-1). -/
def hbOf (n : Nat) : Nat :=
  let g := n / 16
  if g ≤ 65 then 0 else if g ≤ 69 then 1 else if g ≤ 81 then 2 else 3

/-- Whether a source holds pins: it is QUIET or LATCHED since its threshold reaction (R453). -/
def State.holding (s : State) (n : Nat) : Bool := s.f F.EYE_SRC_STAT_QUIET n == 1 || s.f F.EYE_SRC_STAT_LATCHED n == 1

/-- HB_RUN of R453 and Table 19-3: a heartbeat runs when its domain is up and no source holds it; HB3 needs the keel's kicks. -/
def State.refreshPins (s : State) : State :=
  let stage := s.f F.CRU_BOOT_STAGE
  let held := fun (k : Nat) => s.eye.src.any fun p =>
    p.2.hb && hbOf p.1 == k && s.holding p.1
  let off := s.f F.PWR_STATE_STATE == 4 || s.f F.PWR_STATE_STATE == 5
  let up := fun (k : Nat) => if k = 3 then (decide (2 ≤ stage) || off) && s.f F.EYE_SRC_STAT_ASSERTED (16 * 83 + 8) == 0
    else stage == 13
  let bits := (List.range 4).foldl (fun a k => if up k && !held k then a + 2 ^ k else a) 0
  s.setF F.EYE_PIN_HB_RUN bits

/-- The condition of an alert pin (R454); `codes`: the PIN codes that name it. -/
def State.pinCond (s : State) (codes : List Nat) : Bool :=
  s.eye.src.any fun p => codes.contains p.2.pin && (s.holding p.1 || s.f F.EYE_SRC_STAT_ASSERTED p.1 == 1)

/-- An alert pin is released when its pulse is over and HOLD is 0 (R454). -/
def State.releasePins (s : State) : State :=
  let s := if !s.pins.alertPulse ∧ s.f F.EYE_PIN_ALERT_HOLD = 0 then s.setF F.EYE_PIN_ALERT 0 else s
  if !s.pins.secPulse ∧ s.f F.EYE_PIN_SECALERT_HOLD = 0 then s.setF F.EYE_PIN_SECALERT 0 else s

/-- A change of sources' states with what it does to the pins: the keel firmware writes HOLD 0 when a condition ends (R454). -/
def State.withPins (s : State) (f : State → State) : State :=
  let a := s.pinCond [2, 4]
  let b := s.pinCond [3, 5]
  let s := f s
  let s := if a && !s.pinCond [2, 4] then s.setF F.EYE_PIN_ALERT_HOLD 0 else s
  let s := if b && !s.pinCond [3, 5] then s.setF F.EYE_PIN_SECALERT_HOLD 0 else s
  s.releasePins.refreshPins

/-- The PIN reaction (Table 16-5, R454): heartbeat pins stop, alert pins start a new minimum pulse, and the keel firmware
holds them while the condition is present. -/
def State.pinReact (s : State) (n : Nat) : State :=
  let code := s.f F.EYE_SRC_CFG_PIN n
  let s := s.setEyeSrc n { s.eyeSrc n with pin := code, hb := code == 1 || code == 4 || code == 5 }
  if code = 0 then s
  else
    if code = 2 ∨ code = 4 then
      { (s.setF F.EYE_PIN_ALERT 1).setF F.EYE_PIN_ALERT_HOLD 1 with pins := { s.pins with alertPulse := true } }
    else if code = 3 ∨ code = 5 then
      { (s.setF F.EYE_PIN_SECALERT 1).setF F.EYE_PIN_SECALERT_HOLD 1 with pins := { s.pins with secPulse := true } }
    else s

/-- First-error capture of a group (R450): taken when none is held, otherwise MORE is set. -/
def State.capture (s : State) (n : Nat) (c : Cap) : State :=
  let g := n / 16
  if s.f F.EYE_GRP_CAP_INFO_VALID g = 0 then
    let s := s.setF F.EYE_GRP_CAP_ADDR_ADDR c.addr g
    let s := s.setF F.EYE_GRP_CAP_TIME_TIME s.now g
    let s := s.setF F.EYE_GRP_CAP_INFO_MASTER c.master g
    let s := s.setF F.EYE_GRP_CAP_INFO_ATYPE c.atype g
    let s := s.setF F.EYE_GRP_CAP_INFO_SRC (n % 16) g
    s.setF F.EYE_GRP_CAP_INFO_VALID 1 g
  else s.setF F.EYE_GRP_CAP_INFO_ATYPE (s.f F.EYE_GRP_CAP_INFO_ATYPE g ||| 0x80) g

/-- A record into the ring of 256 (R452); `true` where it overwrote one. -/
def State.record (s : State) (n : Nat) (c : Cap) (extra : List Int) : State × Bool :=
  let e := s.envOf n
  let r : EyeRec := ⟨n, s.f F.EYE_SRC_CFG_CLASS n, s.now, c, e.1, e.2.1, e.2.2, extra⟩
  if s.eye.ring.length < 256 then ({ s with eye := { s.eye with ring := s.eye.ring ++ [r] } }, false)
  else
    (({ s with eye := { s.eye with ring := s.eye.ring.drop 1 ++ [r] } }).setF F.EYE_STATUS_LOG_WRAP 1, true)

/-- Sweeps that end without a result (R458, Table 16-11): a running one gives its wing back to READY and its tap offset
ends; `logged`: the firmware logs the abandonment. -/
def State.dropSweeps (s : State) (p : Sweep → Bool) (logged : Bool) : State :=
  let gone := s.eye.sweeps.filter p
  if gone.isEmpty then s else
  let s : State := foldS (gone.filter Sweep.running) (fun (x : Sweep) (s : State) =>
    let s : State := foldS (List.range 4) (fun a s => s.setF F.MGN_DOM_TAP_SWEEP_OFF 0 (6 * x.wing + a)) s
    let s := s.setF F.WNG_BIST_BUSY 0 x.wing
    let s := if s.f F.WNG_STATUS_STATE x.wing = 1 then s.setF F.WNG_STATUS_STATE 2 x.wing else s
    let v := mgetD s.wings x.wing ({} : WingSt)
    { s with wings := mset s.wings x.wing { v with sweep := false } }) s
  let left := s.eye.sweeps.filter fun x => !p x
  let s := s.setF F.EYE_SWEEP_BUSY (if left.isEmpty then 0 else 1)
  let notes := if logged then gone.map fun x => (x.wing, x.arr, s.now) else []
  { s with eye := { s.eye with sweeps := left, abandoned := s.eye.abandoned ++ notes } }

/-- The threshold reactions in their order (R443, R444): NMI, PIN, then MODULE, which supersedes BLOCK; the source enters
QUIET. BLOCK and MODULE are performed when the command's own effects are complete. -/
def State.react (s : State) (n : Nat) : State :=
  let s := if s.f F.EYE_SRC_CFG_NMI n = 1 then
      { s.setF F.EYE_STATUS_NMI_SEEN 1 with nmi := (s.nmi ||| s.f F.EYE_NMI_HARTS) } else s
  let s := s.setF F.EYE_SRC_STAT_COUNT 0 n
  let s := s.setF F.EYE_SRC_STAT_QUIET 1 n
  let s := s.bump F.EYE_STATUS_QUIET_NOW
  let s := (s.pinReact n).refreshPins
  -- a test-bar source at THRESH abandons its wing's sweeps (Table 16-11)
  let s := if n / 16 < 64 ∧ n % 16 ≤ 3 then s.dropSweeps (fun x => x.wing == n / 16) false else s
  if s.f F.EYE_SRC_CFG_MODULE n = 1 then { s with eye := { s.eye with react := s.eye.react ++ [.module] } }
    else if s.f F.EYE_SRC_CFG_BLOCK n = 1 then { s with eye := { s.eye with react := s.eye.react ++ [.block n] } }
    else s

/-- Setting a taint bit (R470, Table 17-5). -/
def State.taint (s : State) (b : Nat) : State := s.setF F.CRU_RES_TAINT_NOW (s.f F.CRU_RES_TAINT_NOW ||| 2 ^ b)

/-- Sources whose occurrence taints the step (Table 17-5, bit 6). -/
def taints (n : Nat) : Bool :=
  (srcDef n).any (fun d => d.cls == 3) || (decide (n / 16 ≤ 63) && (n % 16 == 5 || n % 16 == 6)) ||
  (decide (66 ≤ n / 16) && decide (n / 16 ≤ 69) && decide (n % 16 ≤ 3)) ||
  (decide (70 ≤ n / 16) && decide (n / 16 ≤ 73) && decide (12 ≤ n % 16) && decide (n % 16 ≤ 14))

/-- One occurrence of a source (R443): in QUIET or LATCHED it is counted in TOTAL alone. `rec`: the source is recorded. -/
def State.occur (s : State) (n : Nat) (c : Cap) (extra : List Int) (recd : Bool) : State × Bool :=
  if (srcDef n).isNone then (s, false) else
  let s := s.bump F.EYE_SRC_STAT_TOTAL 1 n
  let s := s.setEyeSrc n { s.eyeSrc n with cap := c }
  let s := if taints n then s.taint 6 else s
  if s.f F.EYE_SRC_STAT_QUIET n = 1 ∨ s.f F.EYE_SRC_STAT_LATCHED n = 1 then (s, false)
  else
    let s := if s.f F.EYE_SRC_STAT_COUNT n = 0 then s.setEyeSrc n { s.eyeSrc n with winStart := s.hours } else s
    let s := s.bump F.EYE_SRC_STAT_COUNT 1 n
    let s := s.setF F.EYE_STATUS_LAST_SRC n
    let (s, lost) := if recd then s.record n c extra else (s, false)
    let s := s.capture n c
    let s := if s.f F.EYE_SRC_CFG_IRQ n = 1 then
        s.setF F.EYE_GRP_PEND_PENDING (s.f F.EYE_GRP_PEND_PENDING (n / 16) ||| 2 ^ (n % 16)) (n / 16) else s
    let s := if s.f F.EYE_SRC_STAT_COUNT n ≥ s.f F.EYE_SRC_CFG_THRESH n then s.react n else s
    (s, lost)

/-- The sweep that a test-bar mismatch count schedules (R458): at SWEEP_AT, below THRESH, one per array. -/
def State.sweepTrigger (s : State) (n : Nat) : State :=
  let w := n / 16
  let a := n % 16
  if w < 64 ∧ a ≤ 3 ∧ s.f F.EYE_SWEEP_EN = 1 ∧ 0 < s.f F.EYE_SRC_STAT_COUNT n ∧
      s.f F.EYE_SWEEP_SWEEP_AT ≤ s.f F.EYE_SRC_STAT_COUNT n ∧
      !(s.eye.sweeps.any fun x => x.wing == w && x.arr == a) then
    { s.setF F.EYE_SWEEP_BUSY 1 with eye := { s.eye with sweeps := s.eye.sweeps ++ [{ wing := w, arr := a, since := s.hours }] } }
  else s

/-- Raising a source with the values of its record; an overwritten record raises 83/12, which is exempt from recording
while the ring is full (R452). -/
def State.raiseX (s : State) (n : Nat) (c : Cap) (extra : List Int) : State :=
  let (s, lost) := s.occur n c extra true
  let s := s.sweepTrigger n
  if lost then (s.occur (srcOf 83 12) {} [] (decide (s.eye.ring.length < 256))).1 else s

/-- Raising a source. -/
def State.raise (s : State) (n : Nat) (c : Cap := {}) : State := s.raiseX n c []

/-- A level source's condition arises: it occurs once and stays asserted while the condition lasts (R441). -/
def State.raiseLevel (s : State) (n : Nat) (c : Cap := {}) : State :=
  if s.f F.EYE_SRC_STAT_ASSERTED n = 1 then s
  else (s.setF F.EYE_SRC_STAT_ASSERTED 1 n).raise n c

/-- A level source's condition ends. -/
def State.lowerLevel (s : State) (n : Nat) : State :=
  if s.f F.EYE_SRC_STAT_ASSERTED n = 0 then s else s.withPins fun s =>
    let s := s.setF F.EYE_SRC_STAT_ASSERTED 0 n
    if s.holding n then s else s.setEyeSrc n { s.eyeSrc n with pin := 0 }

/-! Access-type byte (Table 16-7). -/
def atRead : Nat := 1
def atWrite : Nat := 2
def atAtomic : Nat := 3
def atCmd : Nat := 5
def atCheck : Nat := 6
def atBack : Nat := 7
def atCtrl : Nat := 8
def atTray : Nat := 16
def atRemote : Nat := 32
def atInjected : Nat := 64

/-- An access error (83/0): the address accessed and the requesting master (Table 16-6). -/
def State.accessErr (s : State) (a : Nat) (m : Master) (atype : Nat) : State := s.raise (srcOf 83 0) ⟨a, m.code, atype⟩

/-- A configuration error (83/1): the control-space address written and the writer. -/
def State.cfgErr (s : State) (a : Nat) (m : Master) : State := s.raise (srcOf 83 1) ⟨a, m.code, atCtrl + atWrite⟩

/-- A life-cycle write violation (83/2, R10). -/
def State.lcViolation (s : State) (a : Nat) (m : Master) : State := s.raise (srcOf 83 2) ⟨a, m.code, atCtrl + atWrite⟩

/-- The life-cycle state (R431): 0 BLANK, 1 MAKER, 2 SEALED, 3 DEPLOYED, 4 RETURN, 5 SCRAPPED. -/
def State.lcs (s : State) : Nat := s.fuses.lcs

/-- Refusing a write that only master class 5 may make (R446). -/
def State.class5 (s : State) (a : Nat) (m : Master) (k : State → State) : State :=
  if m.cls = 5 then k s else s.accessErr a m (atCtrl + atWrite)

/-- An armed injection that matches fires (R457): ARMED clears, FIRED sets, source 83/11. The result says how many bits,
bytes or frames are inverted. -/
def State.injected (s : State) (target : Nat) (hit : Bool) : Option Nat :=
  if s.f F.EYE_INJ_CTRL_ARMED = 1 ∧ s.f F.EYE_INJ_CTRL_TARGET = target ∧ hit then some (s.f F.EYE_INJ_CTRL_COUNT) else none

def State.injFire (s : State) : State :=
  let s := (s.setF F.EYE_INJ_CTRL_ARMED 0).setF F.EYE_INJ_CTRL_FIRED 1
  s.raise (srcOf 83 11) ⟨s.f F.EYE_INJ_ADDR_ADDR, Master.sp.code, atInjected⟩

/-- Numbers in rising order. -/
def sortNat (l : List Nat) : List Nat :=
  l.foldr (fun x t => (t.takeWhile fun y => decide (y < x)) ++ x :: t.dropWhile fun y => decide (y < x)) []

/-! ### Wings and margin domains -/

def State.wing (s : State) (w : Nat) : WingSt := mgetD s.wings w {}
def State.setWing (s : State) (w : Nat) (x : WingSt) : State := { s with wings := mset s.wings w x }
def State.wingState (s : State) (w : Nat) : Nat := s.f F.WNG_STATUS_STATE w
def State.setWingState (s : State) (w x : Nat) : State := s.setF F.WNG_STATUS_STATE x w

/-- The wing of a wing domain. -/
def domWing (d : Nat) : Option Nat := if d < 384 then some (d / 6) else none

/-- The domain a running pass comes to next, where it has one. -/
def TemperRun.head (t : TemperRun) : Option Nat := match t.todo with | d :: _ => some d | [] => t.retry.head?

/-- A pass has started on a domain at the head of its list (R52): on a wing domain once the wing is in TEMPER for it, or out of
service with nothing dispatched. -/
def State.examined (s : State) (d : Nat) : Bool :=
  match s.margin.temper with
  | none => false
  | some t => t.head == some d &&
    match domWing d with
    | none => true
    | some w => (s.wing w).jobs.isEmpty &&
        ((s.wingState w == 1 && !(s.wing w).sweep) || s.wingState w == 0 || s.wingState w == 5)

/-- A margin domain held under R42, margin-exhausted (R43), or, outside the wings, held by the pass that examines it (R52). -/
def State.held (s : State) (d : Nat) : Bool :=
  (mgetD s.margin.dom d {}).held || s.f F.MGN_DOM_TAP_EXHAUSTED d == 1 || (decide (384 ≤ d) && s.examined d)

end Sys2Proof.Machine
end

