-- ==== Sys2Proof/Machine/D2d.lean ====
section
/-! DEFINITION. The die-to-die links (R255 to R274): frames and their CRC, sharing, retry, crossing FIFOs, slices, mode changes and
retraining. Links 0 to 3 are the edges of the Flasks, 4 + l the Crucible links; direction 0 is Imago to Flask, or out of
Crucible. -/

namespace Sys2Proof.Machine

def State.d2dCls (s : State) (l dir c : Nat) : D2dCls := mgetD s.d2d.cls (l, dir, c) {}
def State.setD2dCls (s : State) (l dir c : Nat) (x : D2dCls) : State :=
  { s with d2d := { s.d2d with cls := mset s.d2d.cls (l, dir, c) x } }
def State.d2dDir (s : State) (l dir : Nat) : D2dDir := mgetD s.d2d.dir (l, dir) {}
def State.setD2dDir (s : State) (l dir : Nat) (x : D2dDir) : State :=
  { s with d2d := { s.d2d with dir := mset s.d2d.dir (l, dir) x } }
def State.edge (s : State) (f : Nat) : EdgeSt := mgetD s.d2d.edge f {}
def State.setEdge (s : State) (f : Nat) (x : EdgeSt) : State := { s with d2d := { s.d2d with edge := mset s.d2d.edge f x } }

/-! ### Slices (R255, R256, R264) -/

/-- Slices of a direction (Table 9-1). -/
def linkSlices (l : Nat) : Nat := if l < 4 then 64 else 4

/-- Classes a link carries (Table 9-1): 0 CTRL, 1 WEIGHT, 2 FILL, 3 DRAIN, 4 TRANSIT, 5 CORE. -/
def linkClasses (l : Nat) : List Nat := if l < 4 then [0, 1, 2, 3, 4] else [0, 5]

/-- Slices by the numbers of Table 9-9: the first direction's from 0, the second's from 64. -/
def sliceNo (dir x : Nat) : Nat := 64 * dir + x

/-- The active-slice count of a Crucible link's direction (Table 9-10). -/
def cruActive (dir : Nat) : Fld := if dir = 0 then F.CRU_D2D_STAT_ACTIVE_OUT else F.CRU_D2D_STAT_ACTIVE_IN

/-- Whether a slice carries frames. -/
def State.sliceOn (s : State) (l dir x : Nat) : Bool :=
  decide (x < linkSlices l) &&
  (if l < 4 then s.f F.FLK_D2D_SLICE_ACTIVE l (sliceNo dir x) == 1
   else s.f (cruActive dir) (l - 4) != 0 && !s.d2d.off.contains (l, sliceNo dir x))

/-- The active slices of a direction after a slice, in ascending order and round, without that slice (R266). -/
def State.slicesAfter (s : State) (l dir x : Nat) : List Nat :=
  let n := linkSlices l
  ((List.range (n - 1)).map fun k => (x + 1 + k) % n).filter fun y => s.sliceOn l dir y

/-- A die-to-die capture: the slice, or 0xFF for the whole edge (Table 16-6). -/
def edgeCap (f x : Nat) : Cap := ⟨x, (Master.mk 2 f).code, 0⟩

/-- ACTIVE counts of Table 9-7 follow the slices. -/
def State.countEdge (s : State) (f : Nat) : State :=
  let n := fun (dir : Nat) => ((List.range 64).filter fun x => s.f F.FLK_D2D_SLICE_ACTIVE f (sliceNo dir x) == 1).length
  (s.setF F.FLK_D2D_STATUS_ACTIVE_I2F (n 0) f).setF F.FLK_D2D_STATUS_ACTIVE_F2I (n 1) f

/-- The counts of a Crucible link (Table 9-10); it is UP while both directions have a slice, and failed otherwise: source 83/3 + l. -/
def State.countCru (s : State) (l : Nat) : State :=
  let n := fun (dir : Nat) => ((List.range 4).filter fun x => !s.d2d.off.contains (l, sliceNo dir x)).length
  let s := (s.setF F.CRU_D2D_STAT_ACTIVE_OUT (n 0) (l - 4)).setF F.CRU_D2D_STAT_ACTIVE_IN (n 1) (l - 4)
  if n 0 = 0 ∨ n 1 = 0 then (s.setF F.CRU_D2D_STAT_UP 0 (l - 4)).raiseLevel (srcOf 83 (l - 1))
  else (s.setF F.CRU_D2D_STAT_UP 1 (l - 4)).lowerLevel (srcOf 83 (l - 1))

/-- An edge without an active slice in a direction has failed; a DOWN edge stays failed (R268). -/
def State.edgeCheck (s : State) (f : Nat) : State :=
  if s.f F.FLK_D2D_STATUS_ACTIVE_I2F f = 0 ∨ s.f F.FLK_D2D_STATUS_ACTIVE_F2I f = 0 then s.raiseLevel (srcOf (70 + f) 2) (edgeCap f 0xFF)
  else if s.f F.FLK_D2D_STATUS_MODE f = 0 then s
  else s.lowerLevel (srcOf (70 + f) 2)

/-- A slice stops or resumes carrying frames. -/
def State.setSlice (s : State) (l n : Nat) (on : Bool) : State :=
  if l < 4 then ((s.setF F.FLK_D2D_SLICE_ACTIVE (if on then 1 else 0) l n).countEdge l).edgeCheck l
  else
    let off := s.d2d.off.filter fun p => p != (l, n)
    ({ s with d2d := { s.d2d with off := if on then off else (l, n) :: off } } : State).countCru l

/-- Frames may pass on a link at all: both directions have an active slice, and an edge is in a mode or still drains before it
changes (R262, R268). -/
def State.linkPasses (s : State) (l : Nat) : Bool :=
  [0, 1].all (fun dir => (List.range (linkSlices l)).any fun x => s.sliceOn l dir x) &&
  (decide (4 ≤ l) || (s.f F.FLK_D2D_STATUS_MODE l != 0 && !(s.f F.FLK_D2D_STATUS_MODE l == 3 && (s.edge l).retraining)))

/-! ### Frames (R257, R266) -/

/-- The bits of a number, the most significant first. -/
def bitsDown (x n : Nat) : List Bool := (List.range n).map fun k => bitsAt x (n - 1 - k) 1 == 1

/-- The CRC-16 of a frame (R257) over its 64 payload bytes and then its tag, each most significant bit first (the order is log entry
150). -/
def frameCrc (tag payload : Nat) : Nat :=
  crcBits 16 0x1021 0xFFFF (((List.range 64).flatMap fun k => bitsDown (bitsAt payload (8 * k) 8) 8) ++ bitsDown tag 16)

/-- A frame as it arrives: tag, payload, and whether its CRC agrees. `flips` are the bits that changed on the way: 512 of payload,
16 of tag, 16 of check bits; `inv` inverts the check bits the sender formed. -/
def frameArrives (tag : Nat) (payload : List Byte) (flips : Nat) (inv : Bool) : Nat × List Byte × Bool :=
  let p := leNat (payload.take 64)
  let t := tag % 65536
  let c := frameCrc t p
  let p' := p ^^^ bitsAt flips 0 512
  let t' := t ^^^ bitsAt flips 512 16
  let c' := (if inv then c ^^^ 0xFFFF else c) ^^^ bitsAt flips 528 16
  (t', leBytes 64 p', frameCrc t' p' == c')

/-! ### The sender (R258, R259, R266, R267) -/

/-- The weight of a class on an edge (R140, R259). -/
def State.classWeight (s : State) (c : Nat) : Nat :=
  s.f (if c = 1 then F.RUN_SHARE_WEIGHT else if c = 2 then F.RUN_SHARE_FILL else if c = 3 then F.RUN_SHARE_DRAIN else F.RUN_SHARE_TRANSIT)

/-- Frames of a class served in the present round. -/
def D2dDir.used (d : D2dDir) (c : Nat) : Nat := d.share.getD c 0

/-- Whether a class is next (R259), `offered` being the classes with traffic, and what is then counted. On a Crucible link CTRL comes
first. On an edge CTRL comes first for one frame in 64, and the other classes have their weights in frames per round; a round ends
when every class that has traffic has had them. -/
def State.classTurn (s : State) (l dir c : Nat) (offered : List Nat) : Option D2dDir :=
  let d := s.d2dDir l dir
  if 4 ≤ l then (if c = 0 ∨ !offered.contains 0 then some d else none)
  else
    let rest := (c :: offered).filter fun x => decide (1 ≤ x) && decide (x ≤ 4)
    let ctrlMay := decide (63 ≤ d.since) || rest.isEmpty
    if c = 0 then (if ctrlMay then some { d with since := 0 } else none)
    else if offered.contains 0 && decide (63 ≤ d.since) then none
    else if d.used c < s.classWeight c then some { d with since := d.since + 1, share := listSet d.share c (d.used c + 1) }
    else if rest.all fun x => decide (s.classWeight x ≤ d.used x) then
      some { d with since := d.since + 1, share := listSet [0, 0, 0, 0, 0] c 1 }
    else none

/-- Frames sent beyond the acknowledged ones, up to a SEQ. -/
def D2dCls.ahead (k : D2dCls) (seq : Nat) : Nat := (seq + 4096 - k.acked) % 4096

/-- Whether a frame of this SEQ has been sent before. -/
def D2dCls.known (k : D2dCls) (seq : Nat) : Bool := decide (k.ahead seq < k.ahead k.next)

/-- A frame stands in its sender's retry buffer, on the slice it went on; the frames before it have been sent too (R258). -/
def D2dCls.sent (k : D2dCls) (seq x : Nat) (data : List Byte) : D2dCls :=
  { k with next := if k.known seq then k.next else (seq + 1) % 4096
           retry := if k.retry.any fun r => r.seq == seq then k.retry.map fun r => if r.seq = seq then { r with slice := x } else r
             else k.retry ++ [⟨seq, data, x⟩] }

/-- Frames to be sent again, each on another active slice than the one it went on, one slice after the other in ascending order; while
the link is held, or has no other slice, they wait (R266 to R268). -/
def State.d2dResend (s : State) (l dir x : Nat) (fs : List (Nat × Nat)) : State :=
  let ys := s.slicesAfter l dir x
  if ys.isEmpty || !s.linkPasses l then
    let d := s.d2dDir l dir
    s.setD2dDir l dir { d with due := d.due ++ fs.filter fun p => !d.due.contains p }
  else
    foldS ((List.range fs.length).zip fs) (fun p s =>
      let k := s.d2dCls l dir p.2.1
      let y := ys.getD (p.1 % ys.length) 0
      match k.retry.find? fun r => r.seq == p.2.2 with
      | none => s
      | some r => (s.setD2dCls l dir p.2.1 (k.sent p.2.2 y r.data)).send (.d2dFrame l dir y p.2.1 p.2.2 r.data)) s

/-- The unacknowledged frames of a direction on one slice, by class. -/
def State.framesOn (s : State) (l dir x : Nat) : List (Nat × Nat) :=
  (linkClasses l).flatMap fun c => ((s.d2dCls l dir c).retry.filter fun r => r.slice == x).map fun r => (c, r.seq)

/-- Frames that waited are sent again once the link passes (R262, R268). -/
def State.flushDue (s : State) (l : Nat) : State :=
  if !s.linkPasses l then s else
  foldS [0, 1] (fun dir s =>
    let d := s.d2dDir l dir
    let s := s.setD2dDir l dir { d with due := [] }
    foldS d.due (fun p s =>
      let k := s.d2dCls l dir p.1
      match k.retry.find? fun r => r.seq == p.2 with
      | none => s
      | some r =>
        -- a frame whose slice is the only active one left has no other to go on
        if (s.slicesAfter l dir r.slice).isEmpty then (s.setD2dDir l dir { s.d2dDir l dir with due := (s.d2dDir l dir).due ++ [p] })
        else s.d2dResend l dir r.slice [p]) s) s

/-! ### CRC failures and slice removal (R266, R267) -/

/-- The removal of a slice (R267): the sender is told, its unacknowledged frames go to other slices, and it waits for its
retraining. -/
def State.removeSlice (s : State) (l dir x : Nat) : State :=
  let n := sliceNo dir x
  let s := s.setSlice l n false
  let s := if l < 4 then ((s.setF F.FLK_D2D_STATUS_SLICE_OUT 1 l).bump F.FLK_D2D_CNT_REMOVALS 1 l).raise (srcOf (70 + l) 0) (edgeCap l n)
    else s
  let e := s.edge l
  let s := s.setEdge l { e with slices := e.slices ++ [n], errs := mset e.errs n [] }
  (s.send (.d2dRemove l dir x)).d2dResend l dir x (s.framesOn l dir x)

/-- ERR_LIMIT; a Crucible link has no such register and takes its reset value (log entry 151). -/
def State.errLimit (s : State) (l : Nat) : Nat := if l < 4 then s.f F.FLK_D2D_CTRL_ERR_LIMIT l else 4

/-- A CRC failure on a slice (R266, R267): counted, and the slice removed at ERR_LIMIT failures within 1 µs. -/
def State.crcFail (s : State) (l dir x : Nat) : State :=
  let n := sliceNo dir x
  let s := if l < 4 then (s.bump F.FLK_D2D_CNT_CRC_ERR 1 l).bump F.FLK_D2D_SLICE_ERRS 1 l n else s.bump F.CRU_D2D_STAT_CRC_ERR 1 (l - 4)
  let e := s.edge l
  let ts := ((mgetD e.errs n []).filter fun t => decide (s.now < t + 1000)) ++ [s.now]
  let s := s.setEdge l { e with errs := mset e.errs n ts }
  if ts.length ≥ s.errLimit l ∧ s.sliceOn l dir x then s.removeSlice l dir x else s

/-! ### The receiver (R258, R270, R271) -/

/-- Delivering held frames whose turn has come (R258). -/
def State.deliver (s : State) (l dir c : Nat) : Nat → State
  | 0 => s
  | n + 1 =>
    let k := s.d2dCls l dir c
    match k.early.find? fun r => r.seq == k.expect with
    | none => s
    | some r =>
      let s := s.setD2dCls l dir c { k with expect := (k.expect + 1) % 4096, early := k.early.filter fun y => y.seq != r.seq }
      (s.send (.d2dData l dir c r.seq r.data)).deliver l dir c n

/-- A frame reaches the handshake side: kept unless it has been before, and delivered in its turn. -/
def State.frameIn (s : State) (l dir c x seq : Nat) (data : List Byte) : State :=
  let k := s.d2dCls l dir c
  if (seq + 4096 - k.expect) % 4096 < 2048 ∧ !(k.early.any fun r => r.seq == seq) then
    (s.setD2dCls l dir c { k with early := k.early ++ [⟨seq, data, x⟩] }).deliver l dir c 2048
  else s

/-- The handshake side of an edge's receiver is held: the ladle's domain of the Flask, or the hub of its field on Imago (R42,
R271). -/
def State.rxHeld (s : State) (l dir : Nat) : Bool :=
  decide (l < 4) && s.held (if dir = 0 then 400 + l else 384 + 4 * l)

/-- The receiver's crossing FIFO of a slice (R270). -/
def D2dDir.fifo (d : D2dDir) (x : Nat) : List D2dRx := mgetD d.rx x []

/-- A frame finds room at the receiver: its handshake side takes it, or, in forwarded-clock mode, the 16 frames of the slice's crossing
FIFO are not all taken; in wire mode the sender waits for the acknowledge (R261, R270). -/
def State.rxRoom (s : State) (l dir x : Nat) : Bool :=
  !s.rxHeld l dir || (s.f F.FLK_D2D_STATUS_MODE l == 2 && decide (((s.d2dDir l dir).fifo x).length < 16))

/-- Once the handshake side is free it reads what its FIFOs hold. -/
def State.drainRx (s : State) (l dir : Nat) : State :=
  if s.rxHeld l dir then s else
  let d := s.d2dDir l dir
  let s := s.setD2dDir l dir { d with rx := [] }
  foldS d.rx (fun p s => foldS p.2 (fun r s => s.frameIn l dir r.cls p.1 r.seq r.data) s) s

/-- The receiver's link control: per class the SEQ up to which everything has arrived, and the credits, none while a FIFO is full
(R257, R271; log entry 152). -/
def State.sendControl (s : State) (l dir : Nat) : State :=
  let full := (s.d2dDir l dir).rx.any fun p => decide (16 ≤ p.2.length)
  let ks := (List.range 6).map fun c => s.d2dCls l dir c
  s.send (.d2dControl l dir (ks.map (·.expect)) (ks.map fun k => if full then 0 else 2048 - k.early.length))

/-- A data frame whose CRC agrees. -/
def State.frameAccept (s : State) (l dir c x seq : Nat) (data : List Byte) : State :=
  let s := if s.rxHeld l dir then
      let d := s.d2dDir l dir
      s.setD2dDir l dir { d with rx := mset d.rx x (d.fifo x ++ [⟨c, seq, data⟩]) }
    else s.frameIn l dir c x seq data
  s.sendControl l dir

/-- An armed injection inverts the CRC of the next COUNT data frames from Imago on its edge (R457, target 3). -/
def State.injFrame (s : State) (l dir : Nat) : Bool × State :=
  if dir ≠ 0 ∨ l ≥ 4 ∨ s.f F.EYE_INJ_CTRL_TARGET ≠ 3 ∨ s.f F.EYE_INJ_CTRL_UNIT ≠ l then (false, s)
  else if s.f F.EYE_INJ_CTRL_ARMED = 1 then
    (true, { s.injFire with injLeft := s.f F.EYE_INJ_CTRL_COUNT - 1 })
  else if s.injLeft > 0 then (true, { s with injLeft := s.injLeft - 1 })
  else (false, s)

/-- A frame that fails is discarded, named in a NAK, and counted (R266). -/
def State.frameFails (s : State) (l dir x tag : Nat) : State :=
  (s.send (.d2dNak l dir (bitsAt tag 3 1 == 1) (bitsAt tag 0 3) (bitsAt tag 4 12))).crcFail l dir x

/-- A new data frame may be sent (R258, R259, R262, R271): no mode change, the window, the credits, the class's turn. -/
def State.maySend (s : State) (l dir c seq : Nat) (offered : List Nat) : Option D2dDir :=
  let k := s.d2dCls l dir c
  if (l < 4 ∧ s.f F.FLK_D2D_STATUS_MODE l = 3) ∨ k.ahead seq ≥ min 2048 k.credits then none
  else s.classTurn l dir c offered

/-- A data frame on its way: sent new, or again, and received. What the sender cannot send or the receiver cannot take now is held
(log entry 139); a sender without credits sends an idle frame instead (R271). -/
def State.dataFrame (s : State) (l dir x tag : Nat) (payload : List Byte) (flips : Nat) (offered : List Nat) : State :=
  let c := bitsAt tag 0 3
  let seq := bitsAt tag 4 12
  let k := s.d2dCls l dir c
  let go := fun (s : State) =>
    let z := (s.setD2dCls l dir c (k.sent seq x payload)).injFrame l dir
    let a := frameArrives tag payload flips z.1
    let c' := bitsAt a.1 0 3
    if !a.2.2 || bitsAt a.1 3 1 == 0 || !(linkClasses l).contains c' then z.2.frameFails l dir x tag
    else z.2.frameAccept l dir c' x (bitsAt a.1 4 12) a.2.1
  if !(linkClasses l).contains c || !s.rxRoom l dir x then s
  else if k.known seq then go s
  else match s.maySend l dir c seq offered with
    | some d => go (s.setD2dDir l dir d)
    | none => if k.credits ≤ k.ahead seq then s.send (.d2dIdle l dir x) else s

/-- A frame between its sender and its receiver (R257, R258, R266): `tag` and `payload` as sent, `flips` the bits that changed on the
wires, `offered` the classes that have traffic at the sender. Idle frames are checked too; what a NAK or a link-control frame says
is the command of that name. -/
def State.frameReceive (s : State) (l dir x tag : Nat) (payload : List Byte) (flips : Nat) (offered : List Nat) : State :=
  if !s.sliceOn l dir x ∨ !s.linkPasses l then s else
  let s := s.drainRx l dir
  if bitsAt tag 3 1 = 1 then
    (if bitsAt tag 0 3 ≥ 6 then s.frameFails l dir x tag else s.dataFrame l dir x tag payload flips offered)
  else
    let a := frameArrives tag payload flips false
    if !a.2.2 || (bitsAt a.1 3 1 == 0 && decide (3 ≤ bitsAt a.1 0 3)) then s.frameFails l dir x tag else s

/-- A NAK at the sender (R266): the frame it names goes again, never on the slice that failed it. -/
def State.nakReceive (s : State) (l dir c seq : Nat) : State :=
  match (s.d2dCls l dir c).retry.find? fun r => r.seq == seq with
  | none => s
  | some r => s.d2dResend l dir r.slice [(c, seq)]

/-- A link-control frame (R257): per class the SEQ up to which everything has arrived, and the credits. -/
def State.linkControl (s : State) (l dir : Nat) (acks credits : List Nat) : State :=
  foldS (linkClasses l) (fun c s =>
    let k := s.d2dCls l dir c
    match acks[c]? with
    | none => s
    | some a =>
      if k.ahead a ≤ k.ahead k.next then
        s.setD2dCls l dir c { k with acked := a % 4096, credits := credits.getD c k.credits
                                     retry := k.retry.filter fun r => !decide (k.ahead r.seq < k.ahead a) }
      else s) s

/-! ### Training (R263 to R265) -/

/-- What a training of a slice leaves in its registers: repairs, and the eye width of forwarded-clock mode. -/
def State.sliceTrained (s : State) (f n : Nat) (repairs : List Nat) (eye : Option Nat) : State :=
  let s := s.setF F.FLK_D2D_SLICE_REPAIR0 (repairs.getD 0 0x7F) f n
  let s := s.setF F.FLK_D2D_SLICE_REPAIR1 (repairs.getD 1 0x7F) f n
  let s := s.setF F.FLK_D2D_SLICE_REPAIR2 (repairs.getD 2 0x7F) f n
  let s := s.setF F.FLK_D2D_SLICE_REPAIR3 (repairs.getD 3 0x7F) f n
  match eye with
  | some e => s.setF F.FLK_D2D_SLICE_EYE_PS e f n
  | none => s

/-- A slice comes out of a training of its edge: not one that is listed bad, nor one of more than four failed wires (R264). -/
def edgeKeeps (e : EdgeWork) (n : Nat) : Bool := !e.bad.contains n && decide ((mgetD e.repairs n []).length ≤ 4)

/-- A training of all slices of an edge that were in use (R263, R264); `fwd`: with the eyes of forwarded-clock mode. -/
def State.edgeTrained (s : State) (f : Nat) (e : EdgeWork) (fwd : Bool) (use : Nat → Bool) : State :=
  (foldS (List.range 128) (fun n s =>
    if !use n then s else
    (s.setF F.FLK_D2D_SLICE_ACTIVE (if edgeKeeps e n then 1 else 0) f n).sliceTrained f n (mgetD e.repairs n [])
      (if fwd then some (e.eyes.getD n 0) else none)) s).countEdge f

/-- A direction has fewer active slices than MIN_SLICES (R265). -/
def State.fewSlices (s : State) (f : Nat) : Bool :=
  decide (s.f F.FLK_D2D_STATUS_ACTIVE_I2F f < s.f F.FLK_D2D_CTRL_MIN_SLICES f) ||
  decide (s.f F.FLK_D2D_STATUS_ACTIVE_F2I f < s.f F.FLK_D2D_CTRL_MIN_SLICES f)

/-- An edge that has failed in service (R268). -/
def State.edgeFailed (s : State) (f : Nat) : State :=
  (s.setF F.FLK_D2D_STATUS_MODE 0 f).raiseLevel (srcOf (70 + f) 2) (edgeCap f 0xFF)

/-- The failure of a training (R265, R268). -/
def State.trainFailed (s : State) (f : Nat) : State :=
  let s := s.setF F.FLK_D2D_STATUS_TRAIN_FAIL 1 f
  if s.f F.FLK_D2D_CTRL_AUTO_FALLBACK f = 1 then
    ((s.setF F.FLK_D2D_STATUS_MODE 1 f).setF F.FLK_D2D_STATUS_FALLBACK 1 f).raise (srcOf (70 + f) 1) (edgeCap f 0xFF)
  else s.edgeFailed f

/-- The end of a training towards forwarded-clock mode in service: what a full one found, or `none` where the stored results of an
earlier one apply (R262, R264, R265, R268). -/
def State.trainEnds (s : State) (f : Nat) (work : Option EdgeWork) : State :=
  let act := fun (n : Nat) => s.f F.FLK_D2D_SLICE_ACTIVE f n == 1
  let s := match work with
    | none => (s.setF F.FLK_D2D_STATUS_MODE 2 f).edgeCheck f
    | some e =>
      if !e.trained then s.trainFailed f
      else
        let s := s.edgeTrained f e true act
        if s.fewSlices f then (s.setF F.FLK_D2D_STATUS_TRAIN_FAIL 1 f).edgeFailed f
        else (s.setF F.FLK_D2D_STATUS_MODE 2 f).edgeCheck f
  s.flushDue f

/-! ### Mode changes and retraining (R262, R267, R268, R272) -/

/-- Every retry buffer of an edge is empty (R262). -/
def State.edgeDrained (s : State) (f : Nat) : Bool :=
  s.d2d.cls.all fun p => p.1.1 != f || p.2.retry.isEmpty

/-- A write of 1 to SWITCH (R262, R272). -/
def State.d2dSwitch (s : State) (f : Nat) : State :=
  let mode := s.f F.FLK_D2D_STATUS_MODE f
  let want := if s.f F.FLK_D2D_CTRL_MODE_REQ f = 0 then 2 else 1
  if mode = 3 then s.setF F.FLK_D2D_STATUS_SWITCH_REFUSED 1 f
  else if mode = want ∨ mode = 0 then s
  else (s.setEdge f { s.edge f with fromMode := mode, retraining := false }).setF F.FLK_D2D_STATUS_MODE 3 f

/-- The end of a mode change (R262): wire mode, or the end of a training. -/
def State.modeDone (s : State) (f : Nat) (work : Option EdgeWork) : State :=
  let e := s.edge f
  if s.f F.FLK_D2D_STATUS_MODE f ≠ 3 ∨ e.retraining ∨ !s.edgeDrained f then s
  else if e.fromMode = 1 then s.trainEnds f work
  else (s.setF F.FLK_D2D_STATUS_MODE 1 f).flushDue f

/-- Loss of lock or strobe in forwarded-clock mode (R268). -/
def State.lockLoss (s : State) (f : Nat) : State :=
  if s.f F.FLK_D2D_STATUS_MODE f ≠ 2 then s
  else
    let s := (s.setEdge f { s.edge f with fromMode := 2, retraining := true }).setF F.FLK_D2D_STATUS_MODE 3 f
    s.bump F.FLK_D2D_CNT_RETRAINS 1 f

/-- The end of an edge retraining (R268). -/
def State.edgeRetrained (s : State) (f : Nat) (work : Option EdgeWork) : State :=
  let e := s.edge f
  if s.f F.FLK_D2D_STATUS_MODE f ≠ 3 ∨ !e.retraining then s
  else (s.setEdge f { e with retraining := false }).trainEnds f work

/-- The end of a slice's retraining (R264, R267, R272): it rejoins with its repairs, or stays out. Slices retrain one after the
other, and not while the edge changes mode. -/
def State.sliceRetrained (s : State) (l n : Nat) (ok : Bool) (repairs : List Nat) (eye : Nat) : State :=
  let e := s.edge l
  if e.slices.head? ≠ some n ∨ (l < 4 ∧ s.f F.FLK_D2D_STATUS_MODE l = 3) then s
  else
    let s := s.setEdge l { e with slices := e.slices.drop 1 }
    if !ok ∨ repairs.length > 4 then (if l < 4 then s.setF F.FLK_D2D_STATUS_TRAIN_FAIL 1 l else s)
    else
      let s := if l < 4 then s.sliceTrained l n repairs (if s.f F.FLK_D2D_STATUS_MODE l = 2 then some eye else none)
        else s.bump F.CRU_D2D_STAT_SPARES_USED repairs.length (l - 4)
      (s.setSlice l n true).flushDue l

/-- The block reset of an edge (Table 16-2): brought up again under R263; a mode change in progress is abandoned and the edge
comes up in wire mode (R272). -/
def State.edgeReset (s : State) (f : Nat) : State :=
  let e := s.edge f
  let changing := s.f F.FLK_D2D_STATUS_MODE f = 3 ∧ !e.retraining
  if changing then ((s.setEdge f { e with retraining := false }).setF F.FLK_D2D_STATUS_MODE 1 f).flushDue f
  else if s.f F.FLK_D2D_CTRL_MODE_REQ f = 0 then
    (s.setEdge f { e with fromMode := 2, retraining := true }).setF F.FLK_D2D_STATUS_MODE 3 f
  else (s.setF F.FLK_D2D_STATUS_MODE 1 f).flushDue f

end Sys2Proof.Machine
end

