-- ==== Sys2Proof/Machine/LineCode.lean ====
section
/-! DEFINITION. The coding of an optical line (R280, R281): Gray-coded PAM4, the code RS(272,258) over GF(2^10) with its encoder and
its decoder of up to seven symbol errors, the frame, and the striping of a port's payload over its lanes. -/

namespace Sys2Proof.Machine

/-- Codewords of a frame; the first is the lane-control codeword (R280, R291). -/
def frameWords : Nat := 129
/-- Symbols of a codeword, and those of them that carry data. -/
def wordSymbols : Nat := 272
def dataSymbols : Nat := 258

/-! ### PAM4 (R280) -/

/-- The level that carries two bits, and the bits of a level: neighbouring levels differ in one bit. -/
def pamLevel (b : Nat) : Nat := b ^^^ (b / 2)
def pamBits (l : Nat) : Nat := (l ^^^ (l / 2)) % 4

/-- A 10-bit symbol of five levels, the most significant bits first (the order is log entry 153). -/
def levelSymbol (ls : List Nat) : Nat := ls.foldl (fun a l => a * 4 + pamBits (l % 4)) 0
def symbolLevels (x : Nat) : List Nat := (List.range 5).map fun k => pamLevel (bitsAt x (8 - 2 * k) 2)

/-- The symbols of a received codeword, five levels each. -/
def wordOfLevels (ls : List Nat) : List Nat := (List.range wordSymbols).map fun k => levelSymbol ((ls.drop (5 * k)).take 5)

/-! ### GF(2^10) with primitive polynomial x^10 + x^3 + 1 -/

/-- Multiplication by α. -/
def gfDouble (x : Nat) : Nat := if 512 ≤ x % 1024 then (2 * (x % 1024)) ^^^ 0x409 else 2 * (x % 1024)

def gfMul (a b : Nat) : Nat :=
  (List.range 10).foldl (fun acc i => gfDouble acc ^^^ (if bitsAt b (9 - i) 1 = 1 then a % 1024 else 0)) 0

/-- α^n. -/
def gfExp : Nat → Nat
  | 0 => 1
  | n + 1 => gfDouble (gfExp n)

/-- The inverse a^1022, as the product of a^2, a^4, ..., a^512. -/
def gfInv (a : Nat) : Nat :=
  ((List.range 9).foldl (fun (p : Nat × Nat) _ => let q := gfMul p.1 p.1; (q, gfMul p.2 q)) (a, 1)).2

/-! Polynomials are lists of coefficients, the lowest degree first. -/

def polyAdd : List Nat → List Nat → List Nat
  | [], ys => ys
  | xs, [] => xs
  | x :: xs, y :: ys => (x ^^^ y) :: polyAdd xs ys

def polyScale (c : Nat) (p : List Nat) : List Nat := p.map (gfMul c)
def polyMul (p q : List Nat) : List Nat := p.foldr (fun c acc => polyAdd (polyScale c q) (0 :: acc)) []
def polyEval (p : List Nat) (x : Nat) : Nat := p.foldr (fun c acc => c ^^^ gfMul acc x) 0

/-- The coefficients of odd degree, one degree lower: the derivative in characteristic 2. -/
def polyDeriv : List Nat → List Nat
  | [] => []
  | [_] => []
  | _ :: b :: rest => b :: 0 :: polyDeriv rest

/-! ### RS(272,258), roots α^0 to α^13 -/

/-- The generator polynomial. -/
def rsGen : List Nat := (List.range 14).foldl (fun g j => polyMul g [gfExp j, 1]) [1]

/-- The 14 check symbols of 258 data symbols, by division; the first symbol sent has the highest degree. -/
def rsParity (data : List Nat) : List Nat :=
  data.foldl (fun r d =>
    let c := d ^^^ r.headD 0
    polyAdd (r.drop 1 ++ [0]) (polyScale c ((rsGen.take 14).reverse))) (List.replicate 14 0)

def rsEncode (data : List Nat) : List Nat := data ++ rsParity data

/-- The syndromes of a received word. -/
def rsSyndromes (w : List Nat) : List Nat := (List.range 14).map fun j => w.foldl (fun a x => gfMul a (gfExp j) ^^^ x) 0

/-- Berlekamp and Massey: the locator under construction, the one before the last length change, the length, the shift since, and the
discrepancy then. -/
structure RsStep where
  loc : List Nat
  old : List Nat
  len : Nat
  gap : Nat
  disc : Nat
  deriving DecidableEq, Repr

def rsNext (syn : List Nat) (s : RsStep) (n : Nat) : RsStep :=
  let d := (List.range (s.len + 1)).foldl (fun a i => a ^^^ (if i ≤ n then gfMul (s.loc.getD i 0) (syn.getD (n - i) 0) else 0)) 0
  if d = 0 then { s with gap := s.gap + 1 }
  else
    let t := polyAdd s.loc (List.replicate s.gap 0 ++ polyScale (gfMul d (gfInv s.disc)) s.old)
    if 2 * s.len ≤ n then { loc := t, old := s.loc, len := n + 1 - s.len, gap := 1, disc := d }
    else { s with loc := t, gap := s.gap + 1 }

def rsLocator (syn : List Nat) : RsStep := (List.range 14).foldl (rsNext syn) ⟨[1], [1], 0, 1, 1⟩

/-- The codeword within seven symbols of a received word, with the number of symbols corrected; `none` where there is none. -/
def rsDecode (w : List Nat) : Option (List Nat × Nat) :=
  let syn := rsSyndromes w
  if syn.all (· == 0) then some (w, 0)
  else
    let l := rsLocator syn
    let at_ := (List.range wordSymbols).filter fun i => polyEval l.loc (gfExp ((1023 - i) % 1023)) == 0
    if 7 < l.len ∨ at_.length ≠ l.len then none
    else
      let om := (polyMul syn l.loc).take 14
      let de := polyDeriv l.loc
      let fix := at_.map fun i =>
        let xi := gfExp ((1023 - i) % 1023)
        (i, gfMul (gfExp i) (gfMul (polyEval om xi) (gfInv (polyEval de xi))))
      let v := fix.foldl (fun w p => w.set (wordSymbols - 1 - p.1) (w.getD (wordSymbols - 1 - p.1) 0 ^^^ p.2)) w
      if (rsSyndromes v).all (· == 0) then some (v, l.len) else none

/-- What the decoder counts of received codewords: symbols corrected, and codewords that cannot be corrected (R290). -/
def lineCounts (words : List (List Nat)) : Nat × Nat :=
  words.foldl (fun c ls => match rsDecode (wordOfLevels ls) with
    | some r => (c.1 + r.2, c.2)
    | none => (c.1, c.2 + 1)) (0, 0)

/-! ### Striping (R281) -/

/-- The lane of payload symbol `k` over the active lanes in increasing order. -/
def stripeLane (lanes : List Nat) (k : Nat) : Nat := lanes.getD (k % lanes.length) 0

/-- Symbols of a link unit: 80 bytes. -/
def unitSymbols : Nat := 64

/-- The lanes that carry a unit whose first symbol is symbol `first` of the payload. -/
def unitLanes (lanes : List Nat) (first : Nat) : List Nat := (List.range unitSymbols).map fun i => stripeLane lanes (first + i)

/-- Codewords by which a receiver can deskew lanes. -/
def deskewMax : Nat := 4

end Sys2Proof.Machine
end

