-- ==== Sys2Proof/Machine/LightEngine.lean ====
section
/-! DEFINITION. The light engines (R275 to R302): rings, combs, lane control, line and comb swaps, narrowing, port states.
Port `p = 2e + j`. One lane map per port stands for both directions, as the registers show it. -/

namespace Sys2Proof.Machine

def State.port (s : State) (p : Nat) : PortSt := mgetD s.le.port p {}
def State.setPort (s : State) (p : Nat) (x : PortSt) : State := { s with le := { s.le with port := mset s.le.port p x } }

/-- States of Table 10-9 and of a comb (Table 10-17). -/
def pOff : Nat := 0
def pAcquire : Nat := 1
def pTrain : Nat := 2
def pUp : Nat := 3
def pNarrow : Nat := 4
def pDraining : Nat := 5
def pDisabled : Nat := 6
def pDown : Nat := 7
def cOff : Nat := 0
def cWarming : Nat := 1
def cLocked : Nat := 2
def cActive : Nat := 3
def cRetired : Nat := 4
def cFailed : Nat := 5

def State.portState (s : State) (p : Nat) : Nat := s.f F.LE_PORT_STATUS_STATE p
def State.setPortState (s : State) (p v : Nat) : State := s.setF F.LE_PORT_STATUS_STATE v p
def State.combState (s : State) (e c : Nat) : Nat := s.f F.LE_COMB_HEALTH_STATE e c

/-- A comb's state, kept by the keel firmware when it is RETIRED or FAILED (R289). -/
def State.setCombState (s : State) (e c v : Nat) : State :=
  let s := s.setF F.LE_COMB_HEALTH_STATE v e c
  if v = cRetired ∨ v = cFailed then { s with le := { s.le with combNv := mset s.le.combNv (e, c) v } } else s

/-- The field of a lane in the lane map (Table 10-22); 0x1F: removed. -/
def laneFld (k : Nat) : Fld := ⟨if k < 8 then .LE_PORT_LANEMAP0 else .LE_PORT_LANEMAP1, 8 * (k % 8), 5⟩

def State.laneLine (s : State) (p k : Nat) : Nat := s.f (laneFld k) p

/-- Active lanes, the lane of a line, and the free spares of a port: lines that no lane uses and that have not failed, on the port or at
their source (R279, R288). -/
def State.lanesOn (s : State) (p : Nat) : List Nat := (List.range 16).filter fun k => s.laneLine p k != 0x1F
def State.laneOf (s : State) (p n : Nat) : Option Nat := (List.range 16).find? fun k => s.laneLine p k == n
def State.spares (s : State) (p : Nat) : List Nat :=
  (List.range 18).filter fun n => (s.laneOf p n).isNone && !(s.port p).failed.contains n && s.f F.LE_LINEPWR_FAILED (p / 2) n == 0

/-- LANES, SPARES_FREE and SWAP_BUSY follow the port. -/
def State.portCounts (s : State) (p : Nat) : State :=
  let s := s.setF F.LE_PORT_STATUS_SPARES_FREE (min 2 (s.spares p).length) p
  let s := s.setF F.LE_PORT_STATUS_SWAP_BUSY (if (s.port p).tx.isSome ∨ (s.port p).rx.isSome then 1 else 0) p
  s.setF F.LE_PORT_STATUS_LANES (if s.portState p = pOff ∨ s.portState p = pDown then 0 else (s.lanesOn p).length) p

/-- Lane-control messages (R291): numbered, and repeated until acknowledged. -/
def State.sendLane (s : State) (p : Nat) (m : LaneMsg) : State :=
  let x := s.port p
  let s := s.setPort p { x with msgNo := (x.msgNo + 1) % 256, sent := x.sent ++ [(x.msgNo, m)] }
  s.send (.lane p x.msgNo m)

/-- A received message: acknowledged, and acted on at its first intact copy (R291). -/
def State.laneMsg (s : State) (p num : Nat) (k : State → State) : State :=
  let again := (s.port p).seen == some num
  let s := s.send (.laneAck p num)
  if again then s else k (s.setPort p { s.port p with seen := some num })

/-- A capture of an engine (Table 16-6): port j in bit 0, line in bits 12:8; its controller is the master (R275). -/
def leCap (e j n : Nat) : Cap := ⟨j + 256 * n, (Master.mk 4 e).code, 0⟩

/-- A port goes DOWN (R295, R301). -/
def State.portDown (s : State) (p : Nat) : State :=
  let s := s.setPort p { s.port p with tx := none, rx := none, queue := [], stripe := none }
  (((s.setPortState p pDown).portCounts p)).raiseLevel (srcOf (74 + p / 2) (4 + p % 2)) (leCap (p / 2) (p % 2) 0)

/-- F named in a message first carried by the next frame: two frames after that (R291; Table 10-7). -/
def frameAfter (now : Nat) : Nat := (now + 3) % 2 ^ 32

/-- Narrowing (R295): the receiver names the lanes that remain, and both ends stripe over them from F. -/
def State.laneNarrow (s : State) (p lane now : Nat) : State :=
  let x := s.port p
  let left := (match x.stripe with | some y => y.1 | none => s.lanesOn p).filter fun k => k != lane
  let s := s.setPort p { x with stripe := some (left, frameAfter now) }
  s.sendLane p (.narrowAt left (frameAfter now))

/-- A line swap begins in a direction for a lane: on a free spare, after a running swap, or by narrowing (R292, R293, R299).
`snd`: the sender found that the line failed at its source and starts at step 2. -/
def State.startSwap (s : State) (p lane now : Nat) (snd : Bool) : State :=
  let x := s.port p
  let st := s.portState p
  if (st ≠ pUp ∧ st ≠ pNarrow) ∨ s.laneLine p lane = 0x1F then s
  else if (if snd then x.tx else x.rx).isSome then
    if x.queue.contains (snd, lane) ∨ ((if snd then x.tx else x.rx).any fun w => w.lane == lane) then s
    else s.setPort p { x with queue := x.queue ++ [(snd, lane)] }
  else
    match (s.spares p).find? fun n => !((x.tx.any fun w => w.spare == n) || (x.rx.any fun w => w.spare == n)) with
    | none => if snd then s else s.laneNarrow p lane now
    | some m =>
      let w : LSwap := { lane := lane, line := s.laneLine p lane, spare := m }
      let s := if snd then
          (s.setPort p { x with tx := some { w with stage := 1, f := frameAfter now } }).sendLane p (.lswapDup lane m (frameAfter now))
        else (s.setPort p { x with rx := some w }).sendLane p (.lswapReq lane m)
      s.portCounts p

/-- A swap of a direction has ended: the next waiting trigger starts (Table 10-10). -/
def State.nextSwap (s : State) (p now : Nat) (snd : Bool) : State :=
  let x := s.port p
  match x.queue.find? fun y => y.1 == snd with
  | none => s
  | some y => (s.setPort p { x with queue := x.queue.erase y }).startSwap p y.2 now snd

/-- Both directions of a port without a swap. -/
def State.swapsDone (s : State) (p : Nat) : Bool := (s.port p).tx.isNone && (s.port p).rx.isNone

/-- The drain of R298, step 4: PORT_OFF is sent and the port is DISABLED. -/
def State.portOff (s : State) (p : Nat) : State :=
  ((s.sendLane p .portOff).setPortState p pDisabled).portCounts p

/-- DISABLE = 1 (R298): the port drains once no swap runs; a port that carries no cells has nothing to drain. -/
def State.portDrain (s : State) (p : Nat) : State :=
  let st := s.portState p
  if st = pUp ∨ st = pNarrow then
    if s.swapsDone p then s.setPortState p pDraining else s.setPort p { s.port p with drainAfter := true }
  else if st = pTrain then s.portOff p
  else s

/-- CSWAP_AT(F) on a port whose frames run (R294, step 3); a cut-over waits for a line swap (Table 10-10). -/
def State.cutOrder (s : State) (p now : Nat) : State :=
  let st := s.portState p
  let x := s.port p
  if st = pTrain ∨ st = pUp ∨ st = pNarrow ∨ st = pDraining ∨ st = pDisabled then
    if s.swapsDone p then
      (s.setPort p { x with cswap := some ((now + 16) % 2 ^ 32), cutAfter := false }).sendLane p (.cswapAt ((now + 16) % 2 ^ 32))
    else s.setPort p { x with cutAfter := true }
  else s.setPort p { x with cut := true }

/-- What waited for a swap to end goes on. -/
def State.afterSwap (s : State) (p now : Nat) (snd : Bool) : State :=
  let s := (s.nextSwap p now snd).portCounts p
  if s.swapsDone p then
    let x := s.port p
    let s := if x.cutAfter then s.cutOrder p now else s
    if x.drainAfter then (s.setPort p { s.port p with drainAfter := false }).portDrain p else s
  else s

/-- A swap ends without moving its lane (R293): LSWAP_ABANDON is sent by this end or has come from the peer; the spare is
marked failed when its verification was the cause; the swap is tried on the other spare or the port narrows. -/
def State.abandon (s : State) (p now : Nat) (snd tell verify : Bool) : State :=
  let x := s.port p
  match (if snd then x.tx else x.rx) with
  | none => s
  | some w =>
    let x := if snd then { x with tx := none } else { x with rx := none }
    let x := if verify ∧ !x.failed.contains w.spare then { x with failed := w.spare :: x.failed } else x
    let s := (s.setPort p x).bump F.LE_PORT_CNT_ABANDONS 1 p
    let s := if tell then s.sendLane p (.lswapAbandon w.lane w.spare verify) else s
    -- the other spare, where one is free; the receiver narrows otherwise
    let others := (s.spares p).filter fun n => n != w.spare
    let s := if others.isEmpty then (if snd then s else s.laneNarrow p w.lane now)
      else if w.own then
        let m := others.headD 0
        let w' : LSwap := { lane := w.lane, line := w.line, spare := m, own := true }
        let s := if snd then
            (s.setPort p { s.port p with tx := some { w' with stage := 1, f := frameAfter now } }).sendLane p (.lswapDup w.lane m (frameAfter now))
          else (s.setPort p { s.port p with rx := some w' }).sendLane p (.lswapReq w.lane m)
        s
      else s
    s.afterSwap p now snd

/-- LSWAP_REQ at the sender (R292, step 2). -/
def State.recvSwapReq (s : State) (p lane m now : Nat) : State :=
  let x := s.port p
  if x.tx.isSome ∨ s.laneLine p lane = 0x1F ∨ !(s.spares p).contains m then
    if x.tx.isSome then s else s.sendLane p (.lswapAbandon lane m false)
  else
    let w : LSwap := { lane := lane, line := s.laneLine p lane, spare := m, stage := 1, f := frameAfter now, own := false }
    ((s.setPort p { x with tx := some w }).sendLane p (.lswapDup lane m (frameAfter now))).portCounts p

/-- LSWAP_DUP at the receiver (R292, step 3). -/
def State.recvSwapDup (s : State) (p lane m f : Nat) : State :=
  let x := s.port p
  let own := x.rx.any fun w => w.lane == lane && w.own
  let w : LSwap := { lane := lane, line := s.laneLine p lane, spare := m, stage := 1, f := f, own := own }
  if s.laneLine p lane = 0x1F then s else (s.setPort p { x with rx := some w }).portCounts p

/-- Verification over 32 frames has ended (R292, steps 3 and 4). -/
def State.verifyDone (s : State) (p now : Nat) (ok : Bool) : State :=
  match (s.port p).rx with
  | none => s
  | some w =>
    if w.stage ≠ 1 then s
    else if ok then
      (s.setPort p { s.port p with rx := some { w with stage := 2, f := frameAfter now } }).sendLane p (.lswapDone w.lane w.spare (frameAfter now))
    else s.abandon p now false true true

/-- LSWAP_DONE at the sender (R292, step 5): it stops the old line at F′, or at the next boundary when F′ has passed. -/
def State.recvSwapDone (s : State) (p lane m f : Nat) : State :=
  match (s.port p).tx with
  | none => s
  | some w => if w.lane = lane ∧ w.spare = m then s.setPort p { s.port p with tx := some { w with stage := 2, f := f } } else s

/-- Frame boundary F′ (R292): the lane stands on the spare, and the old line is marked failed. -/
def State.swapCut (s : State) (p now : Nat) (snd : Bool) : State :=
  let x := s.port p
  match (if snd then x.tx else x.rx) with
  | none => s
  | some w =>
    if w.stage ≠ 2 then s
    else
      let x := if snd then { x with tx := none } else { x with rx := none }
      let x := if x.failed.contains w.line then x else { x with failed := w.line :: x.failed }
      let s := (s.setPort p x).setF (laneFld w.lane) w.spare p
      let s := (s.bump F.LE_PORT_CNT_LSWAPS 1 p).setF F.LE_STATUS_LINE_SWAPPED 1 (p / 2)
      s.afterSwap p now snd

/-- A received NARROW_AT or WIDEN_AT (R295). -/
def State.stripeAt (s : State) (p : Nat) (lanes : List Nat) (f : Nat) : State :=
  s.setPort p { s.port p with stripe := some (lanes, f) }

/-- Frame F of a striping change (R295): lanes outside the set are removed, lanes restored stand on free spares, and the port
reports its lane count; below MIN_LANES it goes DOWN. -/
def State.stripeChange (s : State) (p : Nat) : State :=
  match (s.port p).stripe with
  | none => s
  | some y =>
    let was := (s.lanesOn p).length
    let s := s.setPort p { s.port p with stripe := none }
    let s : State := foldS (List.range 16) (fun k s =>
      if y.1.contains k then
        if s.laneLine p k = 0x1F then
          match (s.spares p).head? with
          | some m => s.setF (laneFld k) m p
          | none => s
        else s
      else
        let n := s.laneLine p k
        if n = 0x1F then s
        else
          let x := s.port p
          let x := if x.failed.contains n then x else { x with failed := n :: x.failed }
          (s.setPort p x).setF (laneFld k) 0x1F p) s
    let n := (s.lanesOn p).length
    let s := if n < was then (s.setF F.LE_STATUS_NARROWED 1 (p / 2)).bump F.LE_PORT_CNT_NARROWS 1 p else s
    let st := s.portState p
    let s : State := if n < s.f F.LE_PORT_CTRL_MIN_LANES p ∧ (st = pUp ∨ st = pNarrow ∨ st = pDraining) then s.portDown p
      else if st = pUp ∨ st = pNarrow then s.setPortState p (if n = 16 then pUp else pNarrow) else s
    s.portCounts p

/-! ### Combs (R286 to R289, R294) -/

/-- The fields of LE[e]_LINEPWR[n] of a comb. -/
def linePwr (c : Nat) : Fld := if c = 0 then F.LE_LINEPWR_A_PWR else F.LE_LINEPWR_B_PWR

/-- A comb goes dark in a state (R289): its line powers read 0x8000. -/
def State.combDark (s : State) (e c v : Nat) : State :=
  foldS (List.range 18) (fun n s => s.setF (linePwr c) 0x8000 e n) (s.setCombState e c v)

def State.activeComb (s : State) (e : Nat) : Nat := s.f F.LE_STATUS_ACTIVE_COMB e

/-- Lighting the standby: at 0 °C or above, in OFF, with the engine enabled (R294, Table 10-12). -/
def State.lightComb (s : State) (e c : Nat) : State :=
  if s.combState e c = cOff ∧ s.f F.LE_CTRL_ENABLE e = 1 ∧ 0 ≤ s.fS F.LE_STATUS_TEMP_C e then s.setCombState e c cWarming else s

/-- A comb swap is refused (R294). A standby that is to stay warm stays lit. -/
def State.swapRefuse (s : State) (e : Nat) : State :=
  let s := (s.setF F.LE_STATUS_SWAP_REFUSED 1 e).setF F.LE_STATUS_SWAP_BUSY 0 e
  let s := match mget s.le.swap e with
    | some w =>
      let c := s.combState e w.comb
      let s := if (c = cWarming ∨ c = cLocked) ∧ s.f F.LE_CTRL_STANDBY_WARM e = 0 then s.combDark e w.comb cOff else s
      { s with le := { s.le with swap := mdel s.le.swap e } }
    | none => s
  s.raise (srcOf (74 + e) 1) (leCap e 0 0)

/-- Widening (R295): spares free again after a comb swap take removed lanes back, from F on. -/
def State.widen (s : State) (p now : Nat) : State :=
  let off := (List.range 16).filter fun k => s.laneLine p k == 0x1F
  let back := off.take (s.spares p).length
  if s.portState p ≠ pNarrow ∨ back.isEmpty then s
  else
    let lanes := (List.range 16).filter fun k => s.laneLine p k != 0x1F || back.contains k
    (s.setPort p { s.port p with stripe := some (lanes, frameAfter now) }).sendLane p (.widenAt lanes (frameAfter now))

/-- Both ports have cut over (R294, step 4): the new comb is active, the old one dark. -/
def State.combDone (s : State) (e : Nat) (w : CombSwap) (now : Nat) : State :=
  let old := 1 - w.comb
  let s := if s.combState e old = cFailed then s.combDark e old cFailed
    else s.combDark e old (if w.requested then cOff else cRetired)
  let s := s.setCombState e w.comb cActive
  let s := s.setF F.LE_STATUS_ACTIVE_COMB w.comb e
  let s := { s with le := { s.le with swap := mdel s.le.swap e, activeNv := mset s.le.activeNv e w.comb } }
  let s := (s.setF F.LE_STATUS_COMB_SWAPPED 1 e).setF F.LE_STATUS_SWAP_BUSY 0 e
  -- lines that had failed at the old comb are free again, but for those of a failed ring (R285, R295)
  let was := (List.range 18).filter fun n => s.f F.LE_LINEPWR_FAILED e n == 1
  let s : State := foldS was (fun n s => s.setF F.LE_LINEPWR_FAILED 0 e n) s
  let s : State := foldS [2 * e, 2 * e + 1] (fun p (s : State) =>
    let x := s.port p
    let dead := fun (n : Nat) => s.f F.LE_PORT_RING_FAILED p n == 1 || s.f F.LE_PORT_RING_FAILED p (n + 18) == 1
    (s.setPort p { x with cut := false, failed := x.failed.filter fun n => !was.contains n || dead n }).portCounts p |>.widen p now) s
  if s.f F.LE_CTRL_STANDBY_WARM e = 1 then s.lightComb e old else s

/-- Cut-overs in port order, each after the one before (R294, step 3). -/
def State.cutNext (s : State) (e now : Nat) : State :=
  match mget s.le.swap e with
  | none => s
  | some w =>
    let s := if (s.port (2 * e)).cut ∨ (s.port (2 * e)).cswap.isSome ∨ (s.port (2 * e)).cutAfter then s else s.cutOrder (2 * e) now
    let s := if !(s.port (2 * e)).cut ∨ (s.port (2 * e + 1)).cut ∨ (s.port (2 * e + 1)).cswap.isSome ∨ (s.port (2 * e + 1)).cutAfter
      then s else s.cutOrder (2 * e + 1) now
    if (s.port (2 * e)).cut ∧ (s.port (2 * e + 1)).cut then s.combDone e w now else s

/-- The standby is LOCKED (R294, step 2): every line that a port's lane map uses is at LINE_MIN or above, else the swap is
refused. -/
def State.swapCheck (s : State) (e now : Nat) : State :=
  match mget s.le.swap e with
  | none => s
  | some w =>
    let low := fun (n : Nat) => s.fS (linePwr w.comb) e n < s.fS F.LE_THRESH_LINE_MIN e
    if [2 * e, 2 * e + 1].any fun p => (s.lanesOn p).any fun k => decide (low (s.laneLine p k)) then s.swapRefuse e
    else ({ s with le := { s.le with swap := mset s.le.swap e { w with cutting := true } } }).cutNext e now

/-- A comb swap begins (R294, step 1). -/
def State.combSwap (s : State) (e now : Nat) (requested : Bool) : State :=
  if (mget s.le.swap e).isSome ∨ s.f F.LE_CTRL_ENABLE e = 0 then s
  else
    let cb := 1 - s.activeComb e
    let st := s.combState e cb
    if st = cRetired ∨ st = cFailed then s.swapRefuse e
    else
      let s := { s with le := { s.le with swap := mset s.le.swap e { comb := cb, requested := requested } } }
      let s := s.setF F.LE_STATUS_SWAP_BUSY 1 e
      if st = cLocked then s.swapCheck e now else s.lightComb e cb

/-- A standby offset-locked for 10 ms (R286). -/
def State.combLocked (s : State) (e c now : Nat) : State :=
  if s.combState e c ≠ cWarming ∨ c = s.activeComb e then s
  else
    let s := s.setCombState e c cLocked
    match mget s.le.swap e with
    | some w => if w.comb = c ∧ !w.cutting then s.swapCheck e now else s
    | none => s

/-- Frame F of a port's cut-over (R294, step 3). -/
def State.combCut (s : State) (p now : Nat) : State :=
  if (s.port p).cswap.isNone then s
  else (s.setPort p { s.port p with cswap := none, cut := true }).cutNext (p / 2) now

/-- Failed lines in use exceed the free spares of a port (Table 10-4). -/
def State.outOfSpares (s : State) (e : Nat) : Bool :=
  [2 * e, 2 * e + 1].any fun p =>
    decide (((s.lanesOn p).filter fun k => s.f F.LE_LINEPWR_FAILED e (s.laneLine p k) == 1).length > (s.spares p).length)

/-- A comb's age as its register shows it: whole lit hours, and the projection of the store (R12, Table 10-18). -/
def State.showAge (s : State) (e c : Nat) (v : Nat × Nat) : State :=
  (s.setF F.LE_COMB_AGE_LIT_H (v.1 / 3600000) e c).setF F.LE_COMB_AGE_PROJ_H v.2 e c

/-- A millisecond of lit time (R287): the firmware's store counts it; with each hour the firmware projects anew, to a value the
spec does not give (log entry 149). -/
def State.combAge (s : State) (e c : Nat) : State :=
  let v := mgetD s.le.ageNv (e, c) (0, 0xFFFFFFFF)
  let d := if (v.1 + 1) % 3600000 = 0 then (let d := s.draw; (d.1 % 2 ^ 32, d.2)) else (v.2, s)
  let t : State := { d.2 with le := { d.2.le with ageNv := mset d.2.le.ageNv (e, c) (v.1 + 1, d.1) } }
  t.showAge e c (v.1 + 1, d.1)

/-- The millisecond's measurement of a comb (R287, R288): bias in 0.1 mA, temperature, line powers at the comb output in
0.1 dBm, and whether it lases on its grid. -/
def State.combMonitor (s : State) (e c bias : Nat) (temp : Int) (powers : List Int) (lasing : Bool) (now : Nat) : State :=
  let st := s.combState e c
  if st = cOff ∨ st = cRetired ∨ st = cFailed then s
  else
    let s := s.combAge e c
    let i0 := s.f F.LE_COMB_HEALTH_I0 e c
    let was := s.f F.LE_COMB_HEALTH_BIAS e c
    let warn := fun (b : Nat) => decide (s.f F.LE_THRESH_BIAS_WARN_PC e * i0 ≤ 100 * b)
    let (pc, s) := if i0 = 0 then s.draw else (bias * 100 / i0, s)
    let s := (s.setF F.LE_COMB_HEALTH_BIAS bias e c).setF F.LE_COMB_HEALTH_BIAS_PC (min pc 255) e c
    let s := s.setF F.LE_COMB_HEALTH_TEMP_C (ofSigned 8 temp) e c
    let s : State := foldS (List.range 18) (fun n s => s.setF (linePwr c) (ofSigned 16 (powers.getD n 0)) e n) s
    let weak := (List.range 18).foldl (fun a n => if powers.getD n 0 < powers.getD a 0 then n else a) 0
    let s := s.setF F.LE_COMB_HEALTH_WEAKEST weak e c
    let s := if warn bias ∧ !warn was then
        (s.setF F.LE_STATUS_BIAS_WARN_SEEN 1 e).raise (srcOf (74 + e) 0) (leCap e 0 0) else s
    let auto := s.f F.LE_CTRL_AUTO_COMB e = 1
    let other := s.combState e (1 - c)
    if !lasing then
      let s := s.combDark e c cFailed
      if c = s.activeComb e then
        let s := s.raise (srcOf (74 + e) 1) (leCap e 0 0)
        if auto then s.combSwap e now false else s
      else if (mget s.le.swap e).isSome then s.swapRefuse e else s.raise (srcOf (74 + e) 1) (leCap e 0 0)
    else if c = s.activeComb e ∧ s.f F.LE_THRESH_BIAS_SWAP_PC e * i0 ≤ 100 * bias ∧ auto ∧ (other = cOff ∨ other = cLocked) then
      s.combSwap e now false
    else if c = s.activeComb e ∧ s.outOfSpares e ∧ auto then s.combSwap e now false
    else s

/-- A line below LINE_MIN for 10 ms (R288): failed at its source; each port's sender starts its swap at step 2 (R292). -/
def State.lineSourceFail (s : State) (e n now : Nat) : State :=
  let c := s.activeComb e
  if s.combState e c ≠ cActive ∨ !(s.fS (linePwr c) e n < s.fS F.LE_THRESH_LINE_MIN e) ∨ s.f F.LE_LINEPWR_FAILED e n = 1 then s
  else
    let s := s.setF F.LE_LINEPWR_FAILED 1 e n
    let s := if s.f F.LE_CTRL_AUTO_LINE e = 1 then
        foldS [2 * e, 2 * e + 1] (fun p s => match s.laneOf p n with
          | some k => s.startSwap p k now true
          | none => (s.setPort p { s.port p with failed := if (s.port p).failed.contains n then (s.port p).failed else n :: (s.port p).failed }).portCounts p) s
      else s
    if s.outOfSpares e ∧ s.f F.LE_CTRL_AUTO_COMB e = 1 then s.combSwap e now false else s

/-! ### Rings and receivers (R284, R285, R290) -/

/-- A line has failed on a port (R285): a lane on it moves to a spare, or the port narrows. `snd`: on the sending side. -/
def State.lineFails (s : State) (p n now : Nat) (snd : Bool) : State :=
  let x := s.port p
  let s := if x.failed.contains n then s else s.setPort p { x with failed := n :: x.failed }
  match s.laneOf p n with
  | some k => s.startSwap p k now snd
  | none => s.portCounts p

/-- A ring fails (R285): a modulator ring on the side that sends, a drop filter on the side that receives. -/
def State.ringFail (s : State) (p r now : Nat) : State :=
  let s := (s.setF F.LE_PORT_RING_LOCKED 0 p r).setF F.LE_PORT_RING_FAILED 1 p r
  (s.raise (srcOf (74 + p / 2) 6) (leCap (p / 2) (p % 2) (r % 18))).lineFails p (if r < 18 then r else r - 18) now (decide (r < 18))

/-- A ring loses lock (R285): counted, and it re-acquires once or is FAILED. -/
def State.ringLoss (s : State) (p r now : Nat) (reacquired : Bool) : State :=
  if s.f F.LE_PORT_RING_LOCKED p r = 0 then s
  else
    let s := (s.setF F.LE_PORT_RING_LOCKED 0 p r).bump F.LE_PORT_RING_LOSSES 1 p r
    let s := (s.setF F.LE_STATUS_LOCK_LOSS 1 (p / 2)).bump F.LE_PORT_CNT_LOCKLOSS 1 p
    if reacquired then s.setF F.LE_PORT_RING_LOCKED 1 p r else s.ringFail p r now

/-- A lock error, in 0.1 GHz, that has stood for 100 µs (R285): above 8 GHz the ring loses lock. -/
def State.ringError (s : State) (p r : Nat) (err : Int) (now : Nat) (reacquired : Bool) : State :=
  let s := s.setF F.LE_PORT_RING_ERR (ofSigned 8 (satSigned 8 err)) p r
  if err.natAbs ≤ 80 then s else s.ringLoss p r now reacquired

/-- What the receiver measured of one line over a millisecond (R290): OMA in 0.1 dBm, symbols that its decoder corrected and symbols
received over the last second, codewords of this millisecond that it could not correct, and whether the OMA has stood below RX_SWAP
for 10 ms. -/
def State.rxLine (s : State) (p n : Nat) (x : RxLine) (now : Nat) : State :=
  let e := p / 2
  let s := s.setF F.LE_PORT_RX_OMA (ofSigned 16 x.oma) p n
  let c := lineCounts x.words
  let s := s.setF F.LE_PORT_RX_CORR (min (x.corr + c.1) (2 ^ 24 - 1)) p n
  let s := s.bump F.LE_PORT_RX_UNCORR c.2 p n
  let bad := (decide (x.oma < s.fS F.LE_THRESH_RX_SWAP e) && x.low) ||
    decide (x.syms < (x.corr + c.1) * 10 ^ s.f F.LE_THRESH_SER_SWAP_EXP e) || decide (4 ≤ c.2)
  match s.laneOf p n with
  | some k => if bad ∧ s.f F.LE_CTRL_AUTO_LINE e = 1 then s.startSwap p k now false else s
  | none => s

/-- No frame alignment for 10 µs (R290, R295): the port narrows at once, as soon as one of its lanes is lost. -/
def State.signalLoss (s : State) (p n now : Nat) : State :=
  let s := s.setF F.LE_PORT_RX_LOS 1 p n
  match s.laneOf p n with
  | some k => if s.portState p = pUp ∨ s.portState p = pNarrow ∨ s.portState p = pDraining then s.laneNarrow p k now else s
  | none => s

/-! ### Start, alignment, enable and temperature (R297, R298, R301) -/

/-! The link layer of a port stands here because TRAIN begins it afresh. -/

def State.link (s : State) (p : Nat) : LinkSt := mgetD s.fab.link p {}
def State.setLink (s : State) (p : Nat) (x : LinkSt) : State := { s with fab := { s.fab with link := mset s.fab.link p x } }

/-- OCC0 and OCC1: cells in receive buffers, waiting for injection, and in retry buffers (R319). -/
def State.occ (s : State) : State :=
  let n := fun (b : Nat) =>
    (s.fab.inject.filter fun c => c.epoch == b).length +
    (s.fab.link.foldl (fun a x => a + (x.2.rx.filter fun u => u.cell.epoch == b).length
      + (x.2.retry.filter fun u => u.cell.epoch == b).length) 0)
  (s.setF F.FAB_RT_OCC_OCC0 (n 0)).setF F.FAB_RT_OCC_OCC1 (n 1)

/-- A port enters TRAIN (R297, R298): the cabling check is PENDING, acceptance and LINK_FAIL end (R309, R330, R332), the
link begins afresh (log entry 30), and the frames carry PEER_ID. -/
def State.toTrain (s : State) (p : Nat) : State :=
  let s := (s.setPortState p pTrain).setF F.LE_PORT_STATUS_PEER_VALID 0 p
  let s := s.setF F.FAB_PORT_STAT_CHECK 0 p
  let s := (s.setF F.FAB_PORT_STAT_ACCEPTED 0 p).setF F.FAB_PORT_STAT_LINK_FAIL 0 p
  let bit := fun (x : Fld) (v : Bool) (s : State) =>
    s.setF x (if v then s.f x ||| 2 ^ p else s.f x &&& (65535 - 2 ^ p))
  let s := bit F.FAB_CABLE_PENDING true (bit F.FAB_CABLE_OTHER false (bit F.FAB_CABLE_SWAP false (bit F.FAB_CABLE_MISMATCH false s)))
  let s := s.setPort p { s.port p with peerOff := false, seen := none }
  let a := s.rd .FAB_ADDR
  let s := (s.setLink p {}).occ
  (s.sendLane p (.peerId (getBits a 8 8 * 256 + getBits a 0 3 * 32 + getBits a 4 3 * 4) p)).portCounts p

/-- The engine's start (R297, steps 1 to 3), or its start anew after an Eyespot block reset or above 90 °C: swaps are abandoned
and both ports pass through ACQUIRE. -/
def State.engineStart (s : State) (e : Nat) : State :=
  if s.f F.LE_CTRL_ENABLE e = 0 ∨ s.boot.lecBad then s
  else
    let s := if s.engFused.contains e then s else
      { s with engFused := e :: s.engFused }.loadFuses fun (k : RegKey) => k.name.fuseMap == 2 &&
        (if k.name = RegName.LE_COMB_HEALTH then k.i else k.i / 2) == e
    let s := { s with le := { s.le with swap := mdel s.le.swap e } }
    let s := s.setF F.LE_STATUS_SWAP_BUSY 0 e
    let c := mgetD s.le.activeNv e 0
    let s := s.setF F.LE_STATUS_ACTIVE_COMB c e
    let s : State := foldS [0, 1] (fun x s => match mget s.le.combNv (e, x) with
      | some v => s.setF F.LE_COMB_HEALTH_STATE v e x
      | none => s) s
    let s : State := foldS [0, 1] (fun x s => match mget s.le.ageNv (e, x) with
      | some v => s.showAge e x v
      | none => s) s
    let s : State := foldS [2 * e, 2 * e + 1] (fun p s =>
      let x := s.port p
      let x := { x with tx := none, rx := none, queue := [], stripe := none, cswap := none, cut := false }
      let s := s.setPort p { x with sent := [], drainAfter := false, cutAfter := false }
      let s : State := foldS (List.range 36) (fun r s => s.setF F.LE_PORT_RING_LOCKED 0 p r) s
      ((s.setPortState p pAcquire).lowerLevel (srcOf (74 + e) (4 + p % 2))).portCounts p) s
    if 0 ≤ s.fS F.LE_STATUS_TEMP_C e then
      let s := { s with le := { s.le with waiting := s.le.waiting.filter fun x => x != e } }
      if s.combState e c = cOff ∨ s.combState e c = cLocked then s.setCombState e c cWarming else s
    else { s with le := { s.le with waiting := if s.le.waiting.contains e then s.le.waiting else e :: s.le.waiting } }

/-- A ring's acquisition (R284): its heater has swept upward from zero, recording each line that the resonance crosses as (line,
heater code); it locks on the crossing that the factory calibration names for the engine temperature, and fails without it. -/
def State.ringAcquire (s : State) (p r now : Nat) (crossings : List (Nat × Nat)) : State :=
  match crossings[Config.ringCrossing p r (s.fS F.LE_STATUS_TEMP_C (p / 2))]? with
  | some x => (s.setF F.LE_PORT_RING_HEATER (min x.2 65535) p r).setF F.LE_PORT_RING_LOCKED 1 p r
  | none => s.ringFail p r now

/-- The rings of a port have acquired (R284, R297 steps 3 to 5): the comb is active, failed rings are reported, and the port
trains; a port whose DISABLE is 1 is DISABLED. -/
def State.ringsDone (s : State) (p now : Nat) (crossings : List (List (Nat × Nat))) : State :=
  let e := p / 2
  let c := s.activeComb e
  if s.portState p ≠ pAcquire ∨ (s.combState e c ≠ cWarming ∧ s.combState e c ≠ cActive) then s
  else
    let s := s.setCombState e c cActive
    let s : State := foldS (List.range 36) (fun r s =>
      if s.f F.LE_PORT_RING_FAILED p r = 1 then s
      else s.ringAcquire p r now (crossings.getD r [])) s
    let s := if s.f F.LE_CTRL_STANDBY_WARM e = 1 then s.lightComb e (1 - c) else s
    if s.f F.LE_PORT_CTRL_DISABLE p = 1 then s.portOff p else s.toTrain p

/-- Frame alignment with the peer (R297, step 6), the lines with frames each with its skew in codewords: lines that fail to align, or
stand beyond what the receiver deskews (R281), are replaced by spares, and the port is UP or NARROW, or DOWN below MIN_LANES. -/
def State.aligned (s : State) (p : Nat) (lines : List (Nat × Nat)) : State :=
  if s.portState p ≠ pTrain then s
  else
    let lines := (lines.filter fun x => decide (x.2 ≤ deskewMax)).map (·.1)
    let good := fun (s : State) (n : Nat) => lines.contains n && !(s.port p).failed.contains n
    let s : State := foldS (List.range 18) (fun n s => s.setF F.LE_PORT_RX_LOS (if lines.contains n then 0 else 1) p n) s
    let s : State := foldS (List.range 16) (fun k s =>
      let n := s.laneLine p k
      if n = 0x1F ∨ good s n then s
      else
        let x := s.port p
        let s := s.setPort p { x with failed := if x.failed.contains n then x.failed else n :: x.failed }
        match (s.spares p).find? fun m => good s m with
        | some m => s.setF (laneFld k) m p
        | none => s.setF (laneFld k) 0x1F p) s
    let n := (s.lanesOn p).length
    if n < s.f F.LE_PORT_CTRL_MIN_LANES p then s.portDown p
    else ((s.setPortState p (if n = 16 then pUp else pNarrow)).portCounts p)

/-- A write of LE[e]_CTRL.ENABLE (R298). -/
def State.leEnable (s : State) (e v : Nat) (m : Master) : State :=
  let quiet := fun (p : Nat) => s.portState p == pDisabled || s.portState p == pOff || s.portState p == pDown
  if v = 0 then
    if s.f F.LE_CTRL_ENABLE e = 0 then s
    else if quiet (2 * e) ∧ quiet (2 * e + 1) then
      let s := s.setF F.LE_CTRL_ENABLE 0 e
      let s : State := foldS [0, 1] (fun c s =>
        let st := s.combState e c
        s.combDark e c (if st = cRetired ∨ st = cFailed then st else cOff)) s
      let s := { s with le := { s.le with waiting := s.le.waiting.filter fun x => x != e, swap := mdel s.le.swap e } }
      let s := s.setF F.LE_STATUS_SWAP_BUSY 0 e
      foldS [2 * e, 2 * e + 1] (fun p s => (s.setPortState p pOff).portCounts p) s
    else s.cfgErr (RegKey.addr ⟨.LE_CTRL, e, 0⟩) m
  else if s.f F.LE_CTRL_ENABLE e = 1 then s
  else
    -- the start of R297 belongs to a module whose Crucible links are up (after stage 3)
    let s := s.setF F.LE_CTRL_ENABLE 1 e
    if 4 ≤ s.f F.CRU_BOOT_STAGE ∧ s.f F.CRU_BOOT_STAGE ≤ 13 then s.engineStart e else s

/-- A write of LE[e]_CTRL.STANDBY_WARM (Table 10-13). -/
def State.standbyWarm (s : State) (e v : Nat) : State :=
  let s := s.setF F.LE_CTRL_STANDBY_WARM v e
  let c := 1 - s.activeComb e
  if v = 1 then (if s.combState e (s.activeComb e) = cActive then s.lightComb e c else s)
  else if (mget s.le.swap e).isNone ∧ (s.combState e c = cWarming ∨ s.combState e c = cLocked) then s.combDark e c cOff
  else s

/-- A write of the thresholds (R288): the order BIAS_WARN < BIAS_SWAP < 160 %, or nothing changes and it is reported. -/
def State.leThresh (s : State) (e v : Nat) (m : Master) : State :=
  let x := BitVec.ofNat 64 v
  if getBits x 0 8 < getBits x 8 8 ∧ getBits x 8 8 < 160 then
    let s := (s.setF F.LE_THRESH_BIAS_WARN_PC (getBits x 0 8) e).setF F.LE_THRESH_BIAS_SWAP_PC (getBits x 8 8) e
    let s := (s.setF F.LE_THRESH_LINE_MIN (getBits x 16 16) e).setF F.LE_THRESH_RX_SWAP (getBits x 32 16) e
    s.setF F.LE_THRESH_SER_SWAP_EXP (max 3 (getBits x 48 4)) e
  else s.cfgErr (RegKey.addr ⟨.LE_THRESH, e, 0⟩) m

/-- A write of LE[e]_PORT[j]_CTRL.DISABLE (R298). -/
def State.portDisable (s : State) (p : Nat) : State := (s.setF F.LE_PORT_CTRL_DISABLE 1 p).portDrain p

def State.portEnable (s : State) (p : Nat) : State :=
  let s := s.setF F.LE_PORT_CTRL_DISABLE 0 p
  let s := s.setPort p { s.port p with drainAfter := false }
  if s.portState p = pDisabled ∨ s.portState p = pDraining then s.toTrain p else s

/-- LE[e]_PORT[j]_CTRL.LSWAP (R292). -/
def State.leLswap (s : State) (p lane now : Nat) : State :=
  (s.setF F.LE_PORT_CTRL_LSWAP_LANE lane p).startSwap p lane now false

/-- A reading, in 0.1 °C, of one of the engine's four sensors: their maximum is the engine temperature (R275). -/
def State.leSensor (s : State) (e part : Nat) (t : Int) : State × Int :=
  let xs := mset s.le.sens (e, part) t
  ({ s with le := { s.le with sens := xs } }, (xs.filter fun p => p.1.1 == e).foldl (fun m p => max m p.2) t)

/-- A new engine temperature in °C (R301, Table 10-12). -/
def State.leTemp (s : State) (e : Nat) (t : Int) : State :=
  let was := s.f F.EYE_SRC_STAT_ASSERTED (srcOf (74 + e) 3)
  let s := (s.setF F.LE_STATUS_TEMP_C (ofSigned 8 t) e).setF F.LE_STATUS_HOT (if 80 ≤ t then 1 else 0) e
  let s := if 80 ≤ t then s.raiseLevel (srcOf (74 + e) 2) (leCap e 0 0) else s.lowerLevel (srcOf (74 + e) 2)
  if 90 ≤ t then
    if was = 1 then s
    else
      let s := s.raiseLevel (srcOf (74 + e) 3) (leCap e 0 0)
      let s : State := foldS [0, 1] (fun c s =>
        let st := s.combState e c
        s.combDark e c (if st = cRetired ∨ st = cFailed then st else cOff)) s
      let s := { s with le := { s.le with swap := mdel s.le.swap e } }
      foldS [2 * e, 2 * e + 1] (fun p s => if s.portState p = pOff then s else s.portDown p) (s.setF F.LE_STATUS_SWAP_BUSY 0 e)
  else if was = 1 ∧ t < 75 then (s.lowerLevel (srcOf (74 + e) 3)).engineStart e
  else if s.le.waiting.contains e ∧ 0 ≤ t then s.engineStart e
  else s

end Sys2Proof.Machine
end

