-- ==== Sys2Proof/Machine/Fabric.lean ====
section
/-! DEFINITION. The fabric (R303 to R334): link layer, router, end-to-end layer, cabling check, tables. Port 16 stands for the
module's own injection. -/

namespace Sys2Proof.Machine

/-- Own address and hall (R305). -/
def State.rackNo (s : State) : Nat := s.f F.FAB_ADDR_RACK
def State.trayNo (s : State) : Nat := s.f F.FAB_ADDR_TRAY
def State.slotNo (s : State) : Nat := s.f F.FAB_ADDR_SLOT
def State.racks (s : State) : Nat := s.f F.FAB_ADDR_RACKS
def State.self (s : State) : Nat := s.rackNo * 256 + s.trayNo * 32 + s.slotNo * 4
def State.localIdx (s : State) : Nat := 8 * s.trayNo + s.slotNo

def addrRack (a : Nat) : Nat := bitsAt a 8 8
def addrLocal (a : Nat) : Nat := bitsAt a 2 6
def addrFunc (a : Nat) : Nat := bitsAt a 0 2

/-- The home Flask of a peer (R321). -/
def homeFlask (a : Nat) : Nat := ((bitsAt a 8 8 ^^^ bitsAt a 5 3) ^^^ bitsAt a 2 3) % 4

/-- A fabric capture (Table 16-6): port in [3:0], peer in [31:16]. -/
def fabCap (p peer : Nat) : Cap := ⟨p % 16 + 65536 * peer, (Master.mk 2 (p / 4 % 4)).code, 0⟩

/-! ### Link layer (R306 to R309) -/

/-- The next credits to return on a port, at most 15 of one pool (R307). -/
def takeOwed : List (Nat × Nat) → (Nat × Nat × Nat) × List (Nat × Nat)
  | [] => ((0, 0, 0), [])
  | x :: xs =>
    let n := min 15 (x :: xs).length
    let same := ((x :: xs).filter fun y => y == x).take n
    ((x.1, x.2, same.length), ((x :: xs).filter fun y => y != x) ++ (((x :: xs).filter fun y => y == x).drop same.length))

/-- A unit goes into the crossing FIFO of its port (R277). -/
def State.toPhy (s : State) (p : Nat) (u : LinkUnit) (bad : Bool) : State :=
  let l := s.link p
  s.setLink p { l with fifo := l.fifo ++ [(u, bad)] }

/-- The crossing FIFO takes another unit (R277). -/
def State.phyRoom (s : State) (p : Nat) : Bool := decide ((s.link p).fifo.length < 64)

/-- Sending a unit on a port, with LACK and the credits owed; an armed injection inverts its CRC (R457, target 4). -/
def State.sendUnit (s : State) (p : Nat) (cell : Option Cell) (lseq fpool : Nat) (counts : Option (List Nat × List Nat)) : State :=
  let l := s.link p
  let (cr, owed) := takeOwed l.owed
  let u : LinkUnit := { cell := cell, lseq := lseq, lack := l.expect, cvc := cr.1, ccnt := cr.2.2, cpool := cr.2.1, fpool := fpool, counts := counts }
  let s := s.setLink p { l with owed := owed }
  let mine := s.f F.EYE_INJ_CTRL_TARGET == 4 && s.f F.EYE_INJ_CTRL_UNIT == p
  if mine ∧ s.f F.EYE_INJ_CTRL_ARMED = 1 then
    ({ s.injFire with injLeft := s.f F.EYE_INJ_CTRL_COUNT - 1 }).toPhy p u true
  else if mine ∧ 0 < s.injLeft then ({ s with injLeft := s.injLeft - 1 }).toPhy p u true
  else s.toPhy p u false

/-- Whether a port's light engine carries cells. -/
def State.carries (s : State) (p : Nat) : Bool :=
  (s.portState p == pUp || s.portState p == pNarrow || s.portState p == pDraining) && s.f F.FAB_PORT_STAT_LINK_FAIL p == 0

/-- A nanosecond of a port's PHY (R277): 2.5 units on 16 lanes, fewer on fewer; with no unit it sends idle payload. -/
def State.phyTake (s : State) (p : Nat) : State :=
  let l := s.link p
  if l.fifo.isEmpty ∨ !s.carries p then s
  else
    let t := l.phase + 5 * (s.lanesOn p).length
    let n := t / 32
    let s := s.setLink p { l with fifo := l.fifo.drop n, phase := if l.fifo.length ≤ n then 0 else t % 32 }
    foldS (l.fifo.take n) (fun u s => s.send (.unit p u.1 u.2)) s

/-- LINK_FAIL (R309). -/
def State.linkFail (s : State) (p : Nat) : State :=
  let s := (s.setF F.FAB_PORT_STAT_LINK_FAIL 1 p).setF F.FAB_PORT_STAT_USABLE 0 p
  let s := s.setLink p { s.link p with retry := [], fifo := [], resends := 0 }
  (s.occ).raise (srcOf (70 + p / 4) (3 + p % 4)) (fabCap p (s.f F.LE_PORT_STATUS_PEER p))

/-- A resend from a LSEQ on (R308); 16 in a row without an advance of LACK are LINK_FAIL (R309). -/
def State.resend (s : State) (p lseq : Nat) : State :=
  let l := s.link p
  if !s.carries p ∨ l.retry.isEmpty then s
  else
    let s := s.bump F.FAB_PORT_CNT_RESENDS 1 p
    let s := s.setLink p { l with resends := l.resends + 1 }
    let due := l.retry.filter fun u => decide ((u.lseq + 32768 - lseq) % 32768 < 16384)
    let s : State := foldS due (fun u s => s.sendUnit p (some u.cell) u.lseq u.pool none) s
    if 16 ≤ l.resends + 1 then s.linkFail p else s

/-- A received LACK: units below it leave the retry buffer. -/
def State.lackRecv (s : State) (p lack : Nat) : State :=
  let l := s.link p
  let left := l.retry.filter fun u => decide (16384 ≤ (lack + 32767 - u.lseq) % 32768)
  if left.length = l.retry.length then s else (s.setLink p { l with retry := left, resends := 0 }).occ

/-- Credits returned to a pool (R307). -/
def State.credits (s : State) (p vc pool n : Nat) : State :=
  let l := s.link p
  if pool = 0 then s.setLink p { l with resv := listSet l.resv vc (min 256 (l.resv.getD vc 0 + n)) }
  else s.setLink p { l with shared := min 22528 (l.shared + n) }

/-- A NAK of the expected LSEQ, at most once per 1 µs for each value (R308). -/
def State.linkNak (s : State) (p : Nat) : State :=
  let l := s.link p
  if l.nak.any fun x => x.1 == l.expect && decide (s.now < x.2 + 1000) then s
  else (s.setLink p { l with nak := some (l.expect, s.now) }).send (.linkNak p l.expect)

/-- A received unit (R306 to R308). -/
def State.unitRecv (s : State) (p : Nat) (u : LinkUnit) (ok : Bool) : State :=
  if !s.carries p then s
  else if !ok then (s.bump F.FAB_PORT_CNT_CRC_ERR 1 p).linkNak p
  else
    let take := fun (s : State) => (s.lackRecv p u.lack).credits p u.cvc u.cpool u.ccnt
    match u.cell with
    | none =>
      let s := take s
      match u.counts with
      | none => s
      | some c => s.setLink p { s.link p with resv := (List.range 8).map (fun v => c.1.getD v 0), shared := c.2.getD 0 0 }
    | some cell =>
      let l := s.link p
      if u.lseq = l.expect then
        let s := take s
        let l := s.link p
        let vc := 2 * (cell.cls % 4) + (if cell.rank = 4 ∨ cell.rank = 5 ∨ cell.rank = 6 then 1 else 0)
        (s.setLink p { l with expect := (l.expect + 1) % 32768, rx := l.rx ++ [⟨vc, u.fpool, cell⟩] }).occ
      else (take s).linkNak p

/-! #### The 80 bytes of a unit (R303, R306) -/

/-- The 72 bytes of a cell as a number, byte 0 least significant: the header of Table 11-1, MASK where it is multicast, payload. -/
def cellImage (c : Cell) : Nat :=
  let flag := fun (b : Bool) (k : Nat) => if b then 2 ^ k else 0
  let head := c.cls % 4 + flag c.mc 2 + c.rank % 8 * 2 ^ 3 + c.epoch % 2 * 2 ^ 6 + flag c.poison 7 + c.kind % 16 * 2 ^ 8 +
    c.inc % 16 * 2 ^ 12 + c.dst % 65536 * 2 ^ 16 + c.src % 65536 * 2 ^ 32 + c.seq % 4096 * 2 ^ 48 + flag c.opn 60
  if c.mc then head + (c.mask.foldl (fun a m => a ||| 2 ^ (m % 64)) 0) * 2 ^ 64 + leNat (c.payload.take 56) * 2 ^ 128
  else head + leNat (c.payload.take 64) * 2 ^ 64

/-- The cell that 72 bytes spell. -/
def cellOfImage (x : Nat) : Cell :=
  let mc := bitsAt x 2 1 == 1
  { cls := bitsAt x 0 2, mc := mc, rank := bitsAt x 3 3, epoch := bitsAt x 6 1, poison := bitsAt x 7 1 == 1, kind := bitsAt x 8 4
    inc := bitsAt x 12 4, dst := bitsAt x 16 16, src := bitsAt x 32 16, seq := bitsAt x 48 12, opn := bitsAt x 60 1 == 1
    mask := if mc then (List.range 64).filter fun m => bitsAt x (64 + m) 1 == 1 else []
    payload := if mc then leBytes 56 (bitsAt x 128 448) else leBytes 64 (bitsAt x 64 512) }

/-- The 72 bytes and the tail bits [39:0] of a unit (Table 11-4). An IDLE unit is all zeros before its tail, or a link-control unit
with the counts of its pools (R307). -/
def unitImage (u : LinkUnit) : Nat :=
  let cell := match u.cell, u.counts with
    | some c, _ => cellImage c
    | none, none => 0
    | none, some n => (1 + leNat ((n.1 ++ n.2).flatMap fun v => leBytes 2 (v % 65536)) * 2 ^ 64) * 2 ^ 64
  cell + (u.lseq % 32768 + u.lack % 32768 * 2 ^ 15 + u.cvc % 8 * 2 ^ 30 + u.ccnt % 16 * 2 ^ 33 + u.cpool % 2 * 2 ^ 37 +
    u.fpool % 2 * 2 ^ 38) * 2 ^ 576

/-- The unit that these bits spell: KIND 0 is IDLE (Table 11-2). -/
def unitOfImage (x : Nat) : LinkUnit :=
  let t := bitsAt x 576 40
  let pool := fun (k : Nat) => bitsAt x (128 + 16 * k) 16
  { cell := if bitsAt x 8 4 = 0 then none else some (cellOfImage (bitsAt x 0 576))
    lseq := bitsAt t 0 15, lack := bitsAt t 15 15, cvc := bitsAt t 30 3, ccnt := bitsAt t 33 4, cpool := bitsAt t 37 1, fpool := bitsAt t 38 1
    counts := if bitsAt x 8 4 = 0 ∧ bitsAt x 64 8 = 1 then some ((List.range 8).map pool, [pool 8]) else none }

/-- The CRC-24 of a unit (R306): the 72 bytes, then tail bits [39:0], each most significant bit first (the order is log entry 150). -/
def unitCrc (x : Nat) : Nat :=
  crcBits 24 0x864CFB 0xFFFFFF (((List.range 72).flatMap fun k => (List.range 8).map fun i => bitsAt x (8 * k + 7 - i) 1 == 1) ++
    (List.range 40).map fun k => bitsAt x (615 - k) 1 == 1)

/-- A unit as it arrives, and whether its CRC agrees: `flips` are the bits that changed on the way, 616 of cell and tail and then 24
of CRC. -/
def unitArrival (u : LinkUnit) (flips : Nat) : LinkUnit × Bool :=
  let f := bitsAt flips 0 616
  let x := unitImage u ^^^ f
  (if f = 0 then u else unitOfImage x, unitCrc x == (unitCrc (unitImage u) ^^^ bitsAt flips 616 24))

/-- A unit between the lanes and the link layer (R281, R306): its symbols are striped over the active lanes from payload symbol `first`
on, and it does not arrive where the codeword of one of its lanes is `lost`, one that cannot be corrected. -/
def State.unitArrives (s : State) (p : Nat) (u : LinkUnit) (flips first : Nat) (lost : List Nat) : State :=
  if (unitLanes (s.lanesOn p) first).any fun k => lost.contains k then s
  else s.unitRecv p (unitArrival u flips).1 (unitArrival u flips).2

/-- The link-control unit a sender emits at least once every 256 units (R307): credits free in the receive buffer. -/
def State.controlUnit (s : State) (p : Nat) : State :=
  if !s.carries p || !s.phyRoom p then s
  else
    let l := s.link p
    let used := fun (v : Nat) => (l.rx.filter fun u => u.pool == 0 && u.vc == v).length
    let sh := (l.rx.filter fun u => u.pool == 1).length
    s.sendUnit p none 0 0 (some ((List.range 8).map (fun v => 256 - used v), [22528 - sh]))

/-! ### Router (R313 to R320) -/

/-- Usability (R317): light-engine port UP or NARROW, no LINK_FAIL, cabling check MATCH or accepted. -/
def State.usableNow (s : State) (p : Nat) : Bool :=
  (s.portState p == pUp || s.portState p == pNarrow) && s.f F.FAB_PORT_STAT_LINK_FAIL p == 0 &&
  (s.f F.FAB_PORT_STAT_CHECK p == 1 || s.f F.FAB_PORT_STAT_ACCEPTED p == 1)

/-- A change of usability takes effect in the router (R317). -/
def State.setUsable (s : State) (p : Nat) : State := s.setF F.FAB_PORT_STAT_USABLE (if s.usableNow p then 1 else 0) p

def State.usable (s : State) (p : Nat) : Bool := s.f F.FAB_PORT_STAT_USABLE p == 1

/-- Rank of a level of an output port (Table 11-6). -/
def chanRank (p level : Nat) : Nat :=
  if p ≤ 6 then (if level = 0 then 2 else 6) else if p ≤ 13 then (if level = 0 then 1 else 5) else (if level = 0 then 3 else 4)

/-- The lowest level whose rank exceeds the cell's (R314). -/
def pickLevel (p rank : Nat) : Option Nat :=
  if rank < chanRank p 0 then some 0 else if rank < chanRank p 1 then some 1 else none

/-- Bank states (R318). -/
def State.bankState (s : State) (b : Nat) : Nat := s.f (if b = 0 then F.FAB_RT_CTRL_STATE0 else F.FAB_RT_CTRL_STATE1)
def State.setBank (s : State) (b v : Nat) : State := s.setF (if b = 0 then F.FAB_RT_CTRL_STATE0 else F.FAB_RT_CTRL_STATE1) v

/-- A route discard (R304, R305, R316), counted by the router slice of the port. -/
def State.discard (s : State) (p : Nat) : State := s.bump F.FAB_CNT_ROUTE_DISCARD 1 (p / 4 % 4)

/-- A port that a table code names; code 0xE stands for no route where the module reads it so (log entry 29). -/
def State.codePort (s : State) (c : Nat) : Option Nat :=
  if c = 14 ∧ Config.codeENone then none else if s.usable c then some c else none

/-- PORT, or ALT where PORT is not usable and FAILOVER_EN is 1 (R317). -/
def State.tablePort (s : State) (port alt : Nat) : Option Nat × State :=
  match s.codePort port with
  | some p => (some p, s)
  | none =>
    if s.f F.FAB_CTRL_FAILOVER_EN = 1 then
      match s.codePort alt with
      | some p => (some p, s.bump F.FAB_PORT_CNT_FAILOVERS 1 port)
      | none => (none, s)
    else (none, s)

/-- Where a cell goes: discarded, ejected, or out on a port. -/
inductive Hop where
  | drop | eject | out (p : Nat) (c : Cell)
  deriving DecidableEq, Repr

/-- The copies of a fan-out (R320): the module's own, one per other tray, one per slot of the own tray. -/
def State.fanout (s : State) (c : Cell) : List Hop :=
  let own := if c.mask.contains s.localIdx then [Hop.eject] else []
  let trays := (List.range 8).filterMap fun t =>
    let m := c.mask.filter fun l => l / 8 == t
    if t = s.trayNo ∨ m.isEmpty then none
    else if s.usable (6 + (t ^^^ s.trayNo)) then some (Hop.out (6 + (t ^^^ s.trayNo)) { c with mask := m }) else some .drop
  let slots := (List.range 8).filterMap fun x =>
    if x = s.slotNo ∨ !c.mask.contains (8 * s.trayNo + x) then none
    else if s.usable ((x ^^^ s.slotNo) - 1) then some (Hop.out ((x ^^^ s.slotNo) - 1) { c with mask := [8 * s.trayNo + x] }) else some .drop
  own ++ trays ++ slots

/-- The route of a cell from its bank's tables (R316, R317, R320). -/
def State.hops (s : State) (c : Cell) : List Hop × State :=
  let r := addrRack c.dst
  let one := c.mc && c.mask.length == 1
  let l := if one then c.mask.headD 0 else addrLocal c.dst
  if 5 ≤ c.kind ∨ c.kind = 0 ∨ (c.mc ∧ (c.cls = 1 ∨ c.cls = 3)) ∨ (!c.mc ∧ 2 ≤ addrFunc c.dst) then ([.drop], s)
  else if c.mc ∧ !one ∧ r = s.rackNo then (s.fanout c, s)
  else if r = s.rackNo ∧ (!c.mc ∨ one) ∧ l = s.localIdx then ([.eject], s)
  else if r ≠ s.rackNo ∧ s.racks ≤ r then ([.drop], s)
  else
    let port := if r = s.rackNo then s.f F.FAB_RT_LOCAL_PORT c.epoch l else s.f F.FAB_RT_RACK_PORT c.epoch r
    let alt := if r = s.rackNo then s.f F.FAB_RT_LOCAL_ALT c.epoch l else s.f F.FAB_RT_RACK_ALT c.epoch r
    match s.tablePort port alt with
    | (some p, s) => ([.out p c], s)
    | (none, s) => ([.drop], s.setF F.FAB_STATUS_NO_ROUTE 1)

/-- The credit a hop would take: its channel and pool, or `none` where it has to wait for credits or for the crossing FIFO (R277,
R307). -/
def State.creditFor (s : State) (p : Nat) (c : Cell) : Option (Nat × Nat) :=
  match pickLevel p c.rank with
  | none => some (0, 0)
  | some level =>
    let v := 2 * (c.cls % 4) + level
    let l := s.link p
    if 24576 ≤ l.retry.length ∨ !s.phyRoom p then none
    else if 0 < l.resv.getD v 0 then some (v, 0)
    else if 0 < l.shared then some (v, 1) else none

/-- One hop of a cell (R314). -/
def State.takeHop (s : State) (from_ : Nat) (h : Hop) : State :=
  match h with
  | .drop => s.discard from_
  | .eject => s
  | .out p c =>
    match pickLevel p c.rank with
    | none =>
      let s := (s.discard from_).setF F.FAB_STATUS_ROUTE_ERR 1
      s.raise (srcOf (70 + from_ / 4 % 4) 7) (fabCap p c.src)
    | some level =>
      match s.creditFor p c with
      | none => s
      | some (v, pool) =>
        let l := s.link p
        let c := { c with rank := chanRank p level }
        let l := { l with next := (l.next + 1) % 32768, retry := l.retry ++ [({ lseq := l.next, vc := v, pool := pool, cell := c } : RetryUnit)] }
        let l := if pool = 0 then { l with resv := listSet l.resv v (l.resv.getD v 0 - 1) } else { l with shared := l.shared - 1 }
        let n := (s.link p).next
        (s.setLink p l).sendUnit p (some c) n pool none

/-- Routing one cell that stands at the head of a channel (R316 to R320). `none`: it waits for credits. -/
def State.routeCell (s : State) (from_ : Nat) (c : Cell) : Option State :=
  let st := s.bankState c.epoch
  let z : Cell × State := if st = 2 ∨ st = 3 ∨ st = 4 then (c, s)
    else ({ c with epoch := s.f F.FAB_RT_CTRL_CUR }, s.bump F.FAB_RT_OCC_PROMOTED)
  let y := z.2.hops z.1
  if y.1.all fun h => match h with | .out p c => (y.2.creditFor p c).isSome | _ => true then
    let s : State := foldS y.1 (fun h s => s.takeHop from_ h) y.2
    some (if y.1.contains .eject then { s with fab := { s.fab with eject := s.fab.eject ++ [z.1] } } else s)
  else none

/-- The router takes the cell at the head of a channel of a port, or the first cell of a class that waits for injection. -/
def State.cellRoute (s : State) (p v : Nat) : State :=
  if s.f F.FAB_CTRL_ENABLE = 0 then s
  else if p = 16 then
    match s.fab.inject.find? fun c => c.cls == v / 2 with
    | none => s
    | some c =>
      let s' := { s with fab := { s.fab with inject := s.fab.inject.erase c } }
      match s'.routeCell (4 * homeFlask c.dst) c with
      | some s => s.occ
      | none => s
  else
    let l := s.link p
    match l.rx.find? fun u => u.vc == v with
    | none => s
    | some u =>
      let s' := s.setLink p { l with rx := l.rx.erase u, owed := l.owed ++ [(u.vc, u.pool)] }
      match s'.routeCell p u.cell with
      | some s => s.occ
      | none => s

/-! ### End-to-end layer (R321 to R327) -/

def cellInject (c : Cell) (s : State) : State :=
  ({ s with fab := { s.fab with inject := s.fab.inject ++ [{ c with epoch := s.f F.FAB_RT_CTRL_CUR, rank := 0 }] } }).occ

/-- PEERS: entries in use (R321). -/
def State.countPeers (s : State) : State :=
  s.setF F.FAB_STATUS_PEERS (min 4096 (s.fab.tx.map (·.1) ++ (s.fab.rx.filter fun x => x.1.2.2 == 0).map (·.1.1)).eraseDups.length)

def State.setTx (s : State) (a : Nat) (x : TxEnt) : State :=
  ({ s with fab := { s.fab with tx := mset s.fab.tx a x } }).countPeers

def TxEnt.idle (x : TxEnt) : Bool := x.cls.all fun y => y.2.unacked.isEmpty
def TxEnt.closing (x : TxEnt) : Bool := x.cls.any fun y => y.2.closing

/-- CLOSE in each class an entry used (R322). -/
def State.closePeer (s : State) (a : Nat) : State :=
  match mget s.fab.tx a with
  | none => s
  | some e =>
    if !e.idle ∨ e.closing then s
    else if e.cls.isEmpty then ({ s with fab := { s.fab with tx := mdel s.fab.tx a } }).countPeers
    else
      let z : List Byte := List.replicate 64 0
      let mk := fun (c : Nat) (t : TxCls) =>
        ({ cls := c, kind := 4, inc := e.inc, dst := a, src := s.self, seq := t.next, payload := z } : Cell)
      let shut := fun (c : Nat) (t : TxCls) =>
        { t with next := (t.next + 1) % 4096, closing := true, unacked := [⟨mk c t, .none⟩] }
      let cls := e.cls.map fun y => (y.1, shut y.1 y.2)
      foldS e.cls (fun y s => cellInject (mk y.1 y.2) s) (s.setTx a { e with cls := cls })

/-- Making an entry for a peer (R321, R322): `none` where it has to wait. -/
def State.openPeer (s : State) (a : Nat) : Option State × State :=
  if (mget s.fab.tx a).isSome then (some s, s)
  else
    let home := s.fab.tx.filter fun x => homeFlask x.1 == homeFlask a
    if home.length < 1024 then
      let s := { s with fab := { s.fab with incNext := (s.fab.incNext + 1) % 16 } }
      (some (s.setTx a { inc := (s.fab.incNext + 15) % 16, last := s.now }), s)
    else
      let idle := home.filter fun x => x.2.idle && !x.2.closing
      match idle with
      | [] => (none, s.setF F.FAB_STATUS_PEER_FULL 1)
      | x :: xs => (none, s.closePeer (xs.foldl (fun (b : Nat × TxEnt) y => if y.2.last < b.2.last then y else b) x).1)

/-- The numbering of a class, or that of a class not used yet: its first SEQ is a free draw. -/
def State.txClass (s : State) (o : Option TxCls) : TxCls × State :=
  match o with
  | some t => (t, s)
  | none => ({ next := s.draw.1 % 4096 }, s.draw.2)

/-- The cell of a request under a numbering, and the numbering after it (R322). -/
def State.numbered (s : State) (r : TxReq) (inc : Nat) (t : TxCls) : Cell × TxCls :=
  let c : Cell := { cls := r.cls, mc := r.mc, poison := r.poison, inc := inc, dst := r.dst, src := s.self, seq := t.next,
                    opn := t.fresh, mask := r.mask, payload := r.payload }
  (c, { t with next := (t.next + 1) % 4096, unacked := t.unacked ++ [⟨c, r.own⟩], fresh := false })

/-- A multicast cell enters, unless 256 of its numbering are unacknowledged (R326). -/
def State.letMc (s : State) (r : TxReq) (t : TxCls) : Option State :=
  if 256 ≤ t.unacked.length then none
  else
    some (cellInject (s.numbered r 0 t).1
      { s with fab := { s.fab with mctx := mset s.fab.mctx (r.dst, r.cls) (s.numbered r 0 t).2 } })

/-- A cell to one endpoint enters, unless 256 of its numbering are unacknowledged (R326). -/
def State.letUni (s : State) (r : TxReq) (e : TxEnt) (t : TxCls) : Option State :=
  if 256 ≤ t.unacked.length then none
  else
    some (cellInject (s.numbered r e.inc t).1
      (s.setTx r.dst { e with cls := mset e.cls r.cls (s.numbered r e.inc t).2, last := s.now }))

/-- Numbering one issued cell (R322, R326): `none` where it has to wait for an entry, a window or a CLOSE. -/
def State.letIn (s : State) (r : TxReq) : Option State × State :=
  if r.mc then
    ((s.txClass (mget s.fab.mctx (r.dst, r.cls))).2.letMc r (s.txClass (mget s.fab.mctx (r.dst, r.cls))).1,
      (s.txClass (mget s.fab.mctx (r.dst, r.cls))).2)
  else
    match s.openPeer r.dst with
    | (none, s) => (none, s)
    | (some s, _) =>
      let e := mgetD s.fab.tx r.dst { inc := 0 }
      if e.closing then (none, s)
      else ((s.txClass (mget e.cls r.cls)).2.letUni r e (s.txClass (mget e.cls r.cls)).1, (s.txClass (mget e.cls r.cls)).2)

/-- Numbering the cells that wait, in issue order per peer and class. -/
def pumpList : List TxReq → List (Nat × Nat) → State → State
  | [], _, s => s
  | r :: rs, blocked, s =>
    if blocked.contains (r.dst, r.cls) then pumpList rs blocked { s with fab := { s.fab with backlog := s.fab.backlog ++ [r] } }
    else
      match s.letIn r with
      | (some s, _) => pumpList rs blocked s
      | (none, s) => pumpList rs ((r.dst, r.cls) :: blocked) { s with fab := { s.fab with backlog := s.fab.backlog ++ [r] } }

def State.pump (s : State) : State := pumpList s.fab.backlog [] { s with fab := { s.fab with backlog := [] } }

/-- An event for the units above. -/
def State.fabEvent (s : State) (e : FabEvent) : State := { s with fab := { s.fab with events := s.fab.events ++ [e] } }

/-- Issuing cells to a peer; to an unreachable peer they are refused at once (R327). -/
def State.issue (s : State) (rs : List TxReq) : State :=
  match rs with
  | [] => s
  | r :: _ =>
    if s.fab.unreach.contains r.dst ∧ !r.mc then s.fabEvent (.unreachable r.dst [r.own])
    else ({ s with fab := { s.fab with backlog := s.fab.backlog ++ rs } }).pump

/-- Whether cells of an owner are still unacknowledged or not yet sent. -/
def State.owes (s : State) (o : Own) : Bool :=
  (s.fab.backlog.any fun r => r.own == o) ||
  (s.fab.tx.any fun x => x.2.cls.any fun y => y.2.unacked.any fun t => t.own == o) ||
  (s.fab.mctx.any fun x => x.2.unacked.any fun t => t.own == o)

/-- Cells acknowledged by a cumulative SEQ: those at most 256 below it. -/
def ackedBy (seq : Nat) (c : Cell) : Bool := decide ((seq + 4096 - c.seq) % 4096 < 256)

/-- An entry whose every CLOSE is acknowledged is freed (R322). -/
def State.freeClosed (s : State) (a : Nat) : State :=
  match mget s.fab.tx a with
  | none => s
  | some e => if e.closing ∧ e.idle then ({ s with fab := { s.fab with tx := mdel s.fab.tx a } }).countPeers else s

/-- A multicast cell leaves its window when every member of its MASK has acknowledged it (R326). -/
def mcAck (l seq : Nat) (t : TxCls) : TxCls :=
  let u := t.unacked.map fun x => if ackedBy seq x.cell then { x with cell := { x.cell with mask := x.cell.mask.filter fun m => m != l } } else x
  let u := u.filter fun x => !x.cell.mask.isEmpty
  if u == t.unacked then t else { t with unacked := u, expiries := 0 }

/-- An ACK cell (R326, Table 11-2). -/
def State.ackRecv (s : State) (c : Cell) : State :=
  let cl := (c.payload.getD 0 0).toNat % 4
  if (c.payload.getD 2 0).toNat % 2 = 1 then
    let key := (addrRack c.src * 256 + (c.payload.getD 1 0).toNat, cl)
    match mget s.fab.mctx key with
    | none => s
    | some t => ({ s with fab := { s.fab with mctx := mset s.fab.mctx key (mcAck (addrLocal c.src) c.seq t) } }).pump
  else
    match mget s.fab.tx c.src with
    | none => s
    | some e =>
      match mget e.cls cl with
      | none => s
      | some t =>
        let u := t.unacked.filter fun x => !ackedBy c.seq x.cell
        if u.length = t.unacked.length then s
        else
          let s := s.setTx c.src { e with cls := mset e.cls cl { t with unacked := u, expiries := 0 }, last := s.now }
          (s.freeClosed c.src).pump

/-- The sequence an ACK names: the highest accepted in order. A request cell counts as accepted once its destination has taken
it out of the inbox (R338, R347). -/
def State.ackSeq (s : State) (peer c g : Nat) (x : RxCls) : Nat :=
  match s.fab.inbox.find? fun y => c == 0 && y.src == peer && y.cls == c && (if y.mc then y.dst % 256 + 1 else 0) == g with
  | some y => (y.seq + 4095) % 4096
  | none => (x.expect + 4095) % 4096

/-- Sending an ACK (R324). `g` is 0, or a multicast group plus 1. -/
def State.sendAck (s : State) (peer c g : Nat) : State :=
  match mget s.fab.rx (peer, c, g) with
  | none => s
  | some x =>
    let s' := { s with fab := { s.fab with rx := mset s.fab.rx (peer, c, g) { x with pend := 0 } } }
    let body : List Byte := BitVec.ofNat 8 c :: BitVec.ofNat 8 (g - 1) :: (if g = 0 then 0 else 1) :: List.replicate 61 0
    cellInject { cls := if c = 3 then 3 else 1, kind := 2, inc := x.inc, dst := peer, src := s.self, seq := s.ackSeq peer c g x,
                 payload := body } s'

/-- A plain answer cell of the end-to-end layer. -/
def State.answer (s : State) (c : Cell) (kind seq : Nat) : State :=
  let body : List Byte := BitVec.ofNat 8 c.cls :: List.replicate 63 0
  cellInject { cls := if c.cls = 3 then 3 else 1, kind := kind, inc := c.inc, dst := c.src, src := s.self, seq := seq, payload := body } s

/-- Acceptance of a DATA or CLOSE cell (R323, R324): a CLOSE frees the entry, a DATA cell goes to the inbox. -/
def State.accept (s : State) (c : Cell) (g : Nat) (x : RxCls) : State :=
  let s := { s with fab := { s.fab with rx := mset s.fab.rx (c.src, c.cls, g) x } }
  let s := if c.kind = 4 then
      let s := s.answer c 2 c.seq
      { s with fab := { s.fab with rx := mdel s.fab.rx (c.src, c.cls, g) } }
    else
      let s := { s with fab := { s.fab with inbox := s.fab.inbox ++ [c] } }
      if s.f F.FAB_E2E_ACK_EVERY ≤ x.pend then s.sendAck c.src c.cls g else s
  s.countPeers

/-- The engine that stages the cells of a GID (R359): that of the group that holds it, else GID mod 4. -/
def State.stageOf (s : State) (gid : Nat) : Nat :=
  match (List.range 256).find? fun g => s.f F.COL_GRP_STAT_STATE g != 0 && s.f F.COL_GRP_CFG_GID g == gid with
  | some g => g % 4
  | none => gid % 4

/-- Cells in the stage of an engine (R379). -/
def State.staged (s : State) (f : Nat) : Nat :=
  (s.fab.inbox.filter fun y => y.cls == 2 && s.stageOf (leNat (y.payload.take 2)) == f).length

/-- The stage of an engine has room for one more cell (R379): 4 MiB of 72-byte cells. -/
def State.stageRoom (s : State) (f : Nat) : Bool := decide (s.staged f < 58254)

/-- An ejected DATA or CLOSE cell (R323). -/
def State.dataRecv (s : State) (c : Cell) : State :=
  let g := if c.mc then c.dst % 256 + 1 else 0
  let known := mget s.fab.rx (c.src, c.cls, g)
  let same := known.filter fun x => x.inc == c.inc
  let full := c.cls == 2 && c.kind == 1 && !s.stageRoom (s.stageOf (leNat (c.payload.take 2)))
  match same with
  | some x =>
    if full ∧ c.seq = x.expect then s.setF F.COL_STATUS_STAGE_FULL 1 (s.stageOf (leNat (c.payload.take 2)))
    else if c.seq = x.expect then s.accept c g { x with expect := (x.expect + 1) % 4096, pend := x.pend + 1 }
    else if (x.expect + 4095 - c.seq) % 4096 < 256 then s.sendAck c.src c.cls g
    else s.bump F.FAB_CNT_OOO_DISCARD 1 (homeFlask c.src)
  | none =>
    if c.opn then
      if full then s.setF F.COL_STATUS_STAGE_FULL 1 (s.stageOf (leNat (c.payload.take 2)))
      else
        let s := if known.isSome then s.fabEvent (.newInc c.src) else s
        s.accept c g { inc := c.inc, expect := (c.seq + 1) % 4096, pend := 1 }
    else if c.kind = 4 ∧ known.isNone then s.answer c 2 c.seq
    else if !c.opn then s.answer c 3 c.seq
    else s.bump F.FAB_CNT_OOO_DISCARD 1 (homeFlask c.src)

/-- A RESET cell (R324). -/
def State.resetRecv (s : State) (c : Cell) : State :=
  match mget s.fab.tx c.src with
  | none => s
  | some e =>
    if e.inc ≠ c.inc then s
    else
      let inc := s.fab.incNext
      let s := { s with fab := { s.fab with incNext := (inc + 1) % 16 } }
      let re := fun (t : TxCls) =>
        let u := t.unacked.map fun x => { x with cell := { x.cell with inc := inc, opn := false } }
        match u with
        | [] => { t with fresh := true }
        | x :: xs => { t with unacked := { x with cell := { x.cell with opn := true } } :: xs, fresh := false }
      let cls := e.cls.map fun y => (y.1, re y.2)
      let s := s.setTx c.src { e with inc := inc, cls := cls }
      let s : State := foldS cls (fun y s => foldS y.2.unacked (fun x s => cellInject x.cell s) s) s
      s.fabEvent (.reset c.src)

/-- A peer becomes unreachable (R327). -/
def State.unreachable (s : State) (a : Nat) : State :=
  let owners := (match mget s.fab.tx a with
    | some e => e.cls.flatMap fun y => y.2.unacked.map (·.own)
    | none => []) ++ ((s.fab.backlog.filter fun r => r.dst == a && !r.mc).map (·.own))
  let un := if s.fab.unreach.contains a then s.fab.unreach else a :: s.fab.unreach
  let s := { s with fab := { s.fab with tx := mdel s.fab.tx a, backlog := s.fab.backlog.filter fun r => r.mc || r.dst != a, unreach := un } }
  -- a multicast member leaves its group's MASK
  let without := fun (x : TxCell) => { x with cell := { x.cell with mask := x.cell.mask.filter fun m => m != addrLocal a } }
  let leave := fun (t : TxCls) => { t with unacked := (t.unacked.map without).filter fun x => !x.cell.mask.isEmpty }
  let mctx := s.fab.mctx.map fun y => if y.1.1 / 256 = addrRack a then (y.1, leave y.2) else y
  let s := { s with fab := { s.fab with mctx := mctx } }
  let s := (s.setF F.FAB_STATUS_UNREACH 1).setF F.FAB_STATUS_LAST_UNREACH a
  (s.countPeers.fabEvent (.unreachable a owners)).pump

/-- The retransmission time of a peer and class has passed (R326, R327). -/
def State.retransmit (s : State) (a c : Nat) (mc : Bool) : State :=
  if mc then
    match mget s.fab.mctx (a, c) with
    | none => s
    | some t =>
      if t.unacked.isEmpty then s
      else if s.f F.FAB_E2E_RETRY_MAX ≤ t.expiries + 1 then
        let lost := (t.unacked.flatMap fun x => x.cell.mask).eraseDups
        foldS lost (fun l s => s.unreachable (a / 256 * 256 + l * 4)) s
      else
        let s := { s with fab := { s.fab with mctx := mset s.fab.mctx (a, c) { t with expiries := t.expiries + 1 } } }
        let cells := t.unacked.flatMap fun x => x.cell.mask.map fun m => { x.cell with mask := [m] }
        foldS cells cellInject (s.bump F.FAB_CNT_RETX cells.length (homeFlask a))
  else
    match mget s.fab.tx a with
    | none => s
    | some e =>
      match mget e.cls c with
      | none => s
      | some t =>
        if t.unacked.isEmpty then s
        else if s.f F.FAB_E2E_RETRY_MAX ≤ t.expiries + 1 then s.unreachable a
        else
          let s := s.setTx a { e with cls := mset e.cls c { t with expiries := t.expiries + 1 } }
          let s := s.bump F.FAB_CNT_RETX t.unacked.length (homeFlask a)
          foldS t.unacked (fun x s => cellInject x.cell s) s

/-- The first ejected cell of a class, where it has the kind a row handles. -/
def State.ejected (s : State) (c : Nat) (kind : Nat → Bool) (k : Cell → State → State) : State :=
  match s.fab.eject.find? fun x => x.cls == c with
  | none => s
  | some x => if kind x.kind then k x { s with fab := { s.fab with eject := s.fab.eject.erase x } } else s

/-! ### Tables, addresses and cabling (R311, R318, R319, R330 to R332, R334) -/

/-- FAB_RT_CTRL.LOAD, ARM, FLIP (R319). -/
def State.rtRefuse (s : State) : State := s.setF F.FAB_RT_CTRL_REFUSED 1

def State.rtLoad (s : State) : State :=
  let b := 1 - s.f F.FAB_RT_CTRL_CUR
  if s.bankState b = 0 then s.setBank b 1 else s.rtRefuse

def State.rtArm (s : State) : State :=
  let b := 1 - s.f F.FAB_RT_CTRL_CUR
  if s.bankState b = 1 then s.setBank b 2 else s.rtRefuse

def State.rtFlip (s : State) : State :=
  let c := s.f F.FAB_RT_CTRL_CUR
  if s.bankState (1 - c) = 2 then ((s.setBank (1 - c) 3).setBank c 4).setF F.FAB_RT_CTRL_CUR (1 - c) else s.rtRefuse

def State.rtDrained (s : State) (b : Nat) : State :=
  if s.bankState b = 4 ∧ s.f (if b = 0 then F.FAB_RT_OCC_OCC0 else F.FAB_RT_OCC_OCC1) = 0 then s.setBank b 0 else s

/-- A table entry (R319): written in all copies while the bank is LOADING. -/
def State.rtEntry (s : State) (b : Nat) (loc : Bool) (r v : Nat) (m : Master) : State :=
  let k : RegName := if loc then .FAB_RT_LOCAL else .FAB_RT_RACK
  if s.bankState b = 1 then s.wr k (BitVec.ofNat 64 (v % 256)) b r else s.cfgErr (RegKey.addr ⟨k, b, r⟩) m

/-- The plan of Table 11-5: peer, its port, and whether the port is planned (R311). -/
def State.plan (s : State) (p : Nat) : Nat × Nat × Bool :=
  let x := s.rackNo
  let at_ := fun (r t sl : Nat) => r * 256 + t * 32 + sl * 4
  let h := s.racks
  let l := s.localIdx
  if p ≤ 6 then (at_ x s.trayNo (s.slotNo ^^^ (p + 1)), p, true)
  else if p ≤ 13 then (at_ x (s.trayNo ^^^ (p - 6)) s.slotNo, p, true)
  else
    let r := if p = 14 then (x + l + 1) % h else (x + h * (l + 1) - (l + 1)) % h
    (at_ r s.trayNo s.slotNo, 29 - p, (l + 1) % h != 0)

def State.setExpect (s : State) (p : Nat) : State :=
  let e := s.plan p
  ((s.setF F.FAB_PORT_EXPECT_PEER e.1 p).setF F.FAB_PORT_EXPECT_PEER_PORT e.2.1 p).setF F.FAB_PORT_EXPECT_PLANNED (if e.2.2 then 1 else 0) p

/-- A cabling result and the summary of R331. -/
def State.setCheck (s : State) (p v : Nat) : State :=
  let s := s.setF F.FAB_PORT_STAT_CHECK v p
  let bit := fun (x : Fld) (on : Bool) (s : State) => s.setF x (if on then s.f x ||| 2 ^ p else s.f x &&& (65535 - 2 ^ p))
  bit F.FAB_CABLE_PENDING (v == 0) (bit F.FAB_CABLE_OTHER (v == 4 || v == 5) (bit F.FAB_CABLE_SWAP (v == 3)
    (bit F.FAB_CABLE_MISMATCH (v == 2) s)))

/-- The cabling check of a port with a received identity (R330, Table 11-10). -/
def State.cableCheck (s : State) (p : Nat) : State :=
  if s.f F.LE_PORT_STATUS_PEER_VALID p = 0 then s
  else
    let id := fun (q : Nat) => (s.f F.LE_PORT_STATUS_PEER q, s.f F.LE_PORT_STATUS_PEER_PORT q)
    let ex := fun (q : Nat) => (s.f F.FAB_PORT_EXPECT_PEER q, s.f F.FAB_PORT_EXPECT_PEER_PORT q)
    let other := (List.range 16).find? fun q => q != p && s.f F.LE_PORT_STATUS_PEER_VALID q == 1 && id p == ex q && id q == ex p
    let v := if (id p).1 / 4 = s.self / 4 then 5
      else if s.f F.FAB_PORT_EXPECT_PLANNED p = 0 then 4
      else if id p = ex p then 1
      else if other.isSome then 3 else 2
    let s := s.setCheck p v
    let s := match other with
      | some q => if v = 3 then s.setCheck q 3 else s
      | none => s
    if v = 1 then s else s.raise (srcOf (70 + p / 4) (8 + p % 4)) (fabCap p (id p).1)

/-- A received PEER_ID (R291, R330): the check runs at the first identity after TRAIN. -/
def State.peerId (s : State) (p a port : Nat) : State :=
  let first := s.f F.LE_PORT_STATUS_PEER_VALID p == 0
  let s := ((s.setF F.LE_PORT_STATUS_PEER a p).setF F.LE_PORT_STATUS_PEER_PORT port p).setF F.LE_PORT_STATUS_PEER_VALID 1 p
  if first then s.cableCheck p else s

/-- CHECK.ACCEPT (R332). -/
def State.cableAccept (s : State) (p : Nat) : State :=
  let v := s.f F.FAB_PORT_STAT_CHECK p
  if v = 2 ∨ v = 3 ∨ v = 4 then s.setF F.FAB_PORT_STAT_ACCEPTED 1 p else s

/-- A write of FAB_ADDR (R333, R334). -/
def State.fabAddr (s : State) (v : Nat) (m : Master) : State :=
  let x := BitVec.ofNat 64 v
  let rack := getBits x 8 8
  let racks := getBits x 24 8
  if s.f F.FAB_CTRL_ENABLE = 1 ∨ 128 < rack ∨ racks ≤ rack ∨ racks = 0 ∨ 129 < racks then s.cfgErr (RegKey.addr ⟨.FAB_ADDR, 0, 0⟩) m
  else
    let s := ((s.setF F.FAB_ADDR_RACK rack).setF F.FAB_ADDR_RACKS racks).setF F.FAB_ADDR_RACK_VALID 1
    foldS (List.range 16) (fun p s => s.setExpect p) s

/-- A write of FAB_CTRL.ENABLE (R334). -/
def State.fabEnable (s : State) (v : Nat) : State :=
  if v % 2 = 1 ∧ s.f F.FAB_ADDR_RACK_VALID = 0 then s else s.setF F.FAB_CTRL_ENABLE (v % 2)

/-- FAB_PEER_CLR (R327). -/
def State.peerClear (s : State) (a : Nat) : State := { s with fab := { s.fab with unreach := s.fab.unreach.filter fun x => x != a } }

/-- A drain ends (R298, R309): the port's retry buffer is emptied with it. -/
def State.drainDone (s : State) (p : Nat) : State :=
  if s.portState p ≠ pDraining then s
  else ((s.setLink p { s.link p with retry := [], fifo := [], resends := 0 }).portOff p).occ

end Sys2Proof.Machine
end

