-- ==== Sys2Proof/Machine/Mem.lean ====
section
/-! DEFINITION. The memory system (R225 to R253): places of addresses, injected errors, the ladle's lines, the stacks, and the
turn engine's transposition. -/

namespace Sys2Proof.Machine

/-! ### Places of addresses (R28, R143, R221, R228, R388, R463) -/

/-- First byte above the part of local HBM that commands may reach: the reserve region begins there. -/
def State.hbmTop (s : State) : Nat := hbmEnd - s.reserveG * 0x40000000

/-- A byte range wholly in local HBM and outside the reserved regions. -/
def State.inHbm (s : State) (a n : Nat) : Bool := decide (0x10000000 ≤ a) && decide (a + n ≤ s.hbmTop)

/-- The alias translation of R221: a tile-store address of a failed wing becomes the same offset in its adopter. -/
def State.xlat (s : State) (a : Nat) : Nat :=
  match tileOf a with
  | some (w, o) => if s.f F.QE_ALIAS_VALID w = 1 then tileAddr (s.f F.QE_ALIAS_TARGET w) o else a
  | none => a

/-- Whether the tile store of a wing can be read and written (R148): its domain 6w + 5 is not margin-exhausted. -/
def State.tileUp (s : State) (w : Nat) : Bool := s.f F.MGN_DOM_TAP_EXHAUSTED (6 * w + 5) == 0

/-- A byte range wholly in one wing's tile store. -/
def inTileOf (w a n : Nat) : Bool :=
  match tileOf a with
  | some (v, o) => decide (v = w) && decide (o + n ≤ tileSize)
  | none => false

/-- A byte range that a command may reach: local HBM, or one tile store that can be accessed. -/
def State.backed (s : State) (a n : Nat) : Bool :=
  s.inHbm a n ||
  match tileOf a with
  | some (w, o) => decide (o + n ≤ tileSize) && s.tileUp w
  | none => false

/-- A byte range whose bytes all lie in the stacks of one Flask. -/
def inOneFlask (a n : Nat) : Bool := decide (flaskOf a = flaskOf (a + (n - 1)))

/-! ### The lines of the ladle -/

/-- The line the ladle holds of a line number. -/
def State.ladleLine (s : State) (t : Nat) : Option LdlLine := s.ms.ladle.find? fun l => l.tag == t

/-- A sector of a read or written range: line and half. -/
def sectorLine (x : Nat) : Nat × Bool := (x / 128, x / 64 % 2 == 1)

def LdlLine.has (l : LdlLine) (hi : Bool) : Bool := if hi then l.v1 else l.v0
def LdlLine.fill (l : LdlLine) (hi dirty : Bool) : LdlLine :=
  if hi then { l with v1 := true, d1 := l.d1 || dirty } else { l with v0 := true, d0 := l.d0 || dirty }

/-- Whether the ladle holds a sector. -/
def State.ladleHas (s : State) (x : Nat) : Bool :=
  match s.ladleLine (sectorLine x).1 with
  | some l => l.has (sectorLine x).2
  | none => false

/-- Where the stacks hold a local address (R228): stack, channel and pseudo-channel (`pc`), bank, row, byte of the row. -/
def hbmPlace (a : Nat) : Nat × Nat × Nat × Nat × Nat :=
  let p := a % stackSize / 1024
  let q := p / 64
  (stackOf a, (p % 64) ^^^ (p / 64 % 64), (q % 16) ^^^ (q / 16 % 16), q / 16, a % stackSize % 1024)

/-! ### Check codes and injected errors (R147, R239 to R241, R457) -/

/-- The INJECTED bit of a capture: the address equals the armed one. -/
def State.injBit (s : State) (a : Nat) : Nat :=
  if s.f F.EYE_INJ_CTRL_FIRED = 1 ∧ s.f F.EYE_INJ_ADDR_ADDR / 64 = a / 64 then atInjected else 0

/-- An uncorrectable line of a tile store (R147): poison, count, first-offset capture, Eyespot 16w + 6. -/
def State.tileUncorr (s : State) (w a : Nat) (m at_ : Nat) : State :=
  let s := s.poisonAt a
  let s := s.bump F.WNG_TS_ECC_UNCORR 1 w
  let s := if s.f F.WNG_TS_POISON_VALID w = 0 then
      (s.setF F.WNG_TS_POISON_OFFSET ((a - tileAddr w 0) / 64 * 64) w).setF F.WNG_TS_POISON_VALID 1 w else s
  s.raise (srcOf w 6) ⟨a, m, at_ + s.injBit a⟩

/-- An uncorrectable unit of a stack (R240): poison, count, the Flask's memory-uncorrectable source. -/
def State.stackUncorr (s : State) (k a : Nat) (m at_ : Nat) : State :=
  let s := s.poisonAt a
  let s := s.bump F.FLK_MEM_STACK_ECC_UNCORR 1 k
  s.raise (srcOf (66 + k / 4) (k % 4)) ⟨a, m, at_ + s.injBit a⟩

/-- The check of one unit read from a stack with `errs` erroneous bytes (R239): up to three are corrected and written back. -/
def State.unitRead (s : State) (k a errs m at_ : Nat) : State :=
  if errs = 0 then s
  else if errs ≤ 3 then s.bump F.FLK_MEM_STACK_ECC_CORRECTED 1 k
  else s.stackUncorr k a m at_

/-- The check of one tile-store line, of whose words those with errors have `errs` erroneous bits (R147): a single bit is corrected
and counted word by word, and any word with more makes the line uncorrectable. -/
def State.lineRead (s : State) (w a : Nat) (errs : List Nat) (m at_ : Nat) : State :=
  let one := (errs.filter (· == 1)).length
  let s := if one = 0 then s else s.bump F.WNG_TS_ECC_CORRECTED one w
  if errs.any (2 ≤ ·) then s.tileUncorr w a m at_ else s

/-- Errors that an injection has put into a line or unit: found when it is read, gone afterwards. -/
def State.latentAt (s : State) (a : Nat) : Nat := mgetD s.latent (a / 64 * 64) 0

/-- The check of a unit read from its stack or of a tile-store line. -/
def State.latentCheck (s : State) (x m at_ : Nat) : State :=
  let e := s.latentAt x
  let s := { s with latent := s.latent.filter fun p => p.1 != x }
  match tileOf x with
  | some (w, _) => s.lineRead w x [e] m at_
  | none => s.unitRead (stackOf x) x e m at_

/-- Whether a sector holds a ladle word that SECDED cannot correct (R241). -/
def State.badWord (s : State) (x : Nat) : Bool := s.ms.words.any fun p => decide (2 ≤ p.2) && decide (x ≤ p.1) && decide (p.1 < x + 64)

/-- Whether a sector the ladle holds is dirty. -/
def State.ladleDirty (s : State) (x : Nat) : Bool :=
  match s.ladleLine (sectorLine x).1 with
  | some l => if (sectorLine x).2 then l.d1 else l.d0
  | none => false

/-- Whether a read of the sector hits: the ladle holds it, and not as a clean sector that must be fetched again (R241). -/
def State.ladleGood (s : State) (x : Nat) : Bool := s.ladleHas x && (s.ladleDirty x || !s.badWord x)

def LdlLine.dirtyN (l : LdlLine) : Nat := (if l.d0 then 1 else 0) + (if l.d1 then 1 else 0)

/-- LDL_STAT counts the protected lines and dirty sectors held. -/
def State.ladleStat (s : State) (f : Nat) : State :=
  let ls := s.ms.ladle.filter fun l => flaskOf (l.tag * 128) == f
  (s.setF F.FLK_LDL_STAT_PROTECTED (ls.filter (·.prot)).length f).setF F.FLK_LDL_STAT_DIRTY
    (ls.foldl (fun n l => n + l.dirtyN) 0) f

def State.setLadle (s : State) (ls : List LdlLine) : State := { s with ms := { s.ms with ladle := ls } }

/-- A clean sector invalidated. -/
def State.dropSector (s : State) (x : Nat) : State :=
  let t := sectorLine x
  let cut := fun (l : LdlLine) => if l.tag = t.1 then (if t.2 then { l with v1 := false } else { l with v0 := false }) else l
  (s.setLadle ((s.ms.ladle.map cut).filter fun l => l.v0 || l.v1)).ladleStat (flaskOf x)

/-- A ladle word found in error (R241): one bit is corrected; two poison a dirty sector and invalidate a clean one, which is then
fetched again. -/
def State.wordCheck (s : State) (a bits m at_ : Nat) : State :=
  let x := a / 64 * 64
  if bits ≤ 1 ∨ !s.ladleHas x then s
  else if s.ladleDirty x then s.stackUncorr (stackOf x) x m at_
  else (s.bump F.FLK_LDL_STAT_REFETCH 1 (flaskOf x)).dropSector x

/-- The check of the ladle words of a byte range. -/
def State.checkWords (s : State) (a n m at_ : Nat) : State :=
  let hit := fun (p : Nat × Nat) => decide (p.1 < a + n) && decide (a < p.1 + 8)
  foldS (s.ms.words.filter hit) (fun p s => s.wordCheck p.1 p.2 m at_)
    { s with ms := { s.ms with words := s.ms.words.filter fun p => !hit p } }

/-- An armed injection on a whole-line write of a tile store or the write of a stack unit (targets 0 and 1). -/
def State.injWrite (s : State) (target a : Nat) (cap : Nat) : State :=
  match s.injected target (decide (s.f F.EYE_INJ_ADDR_ADDR / 64 = a / 64)) with
  | none => s
  | some c =>
    let s := { s with latent := mset s.latent (a / 64 * 64) (min c cap) }
    s.injFire

/-- An armed injection on a write into a ladle word (target 2). -/
def State.injWord (s : State) (a n : Nat) : State :=
  let x := s.f F.EYE_INJ_ADDR_ADDR / 8 * 8
  match s.injected 2 (decide (x < a + n) && decide (a < x + 8)) with
  | none => s
  | some c => { s with ms := { s.ms with words := mset s.ms.words x (min c 2) } }.injFire

/-- Bytes written into ladle words; a word wholly written loses its error. -/
def State.ladleBytes (s : State) (a : Nat) (bs : List Byte) : State :=
  let s := s.writeBytes a bs
  let keep := fun (p : Nat × Nat) => !(decide (a ≤ p.1) && decide (p.1 + 8 ≤ a + bs.length))
  { s with ms := { s.ms with words := s.ms.words.filter keep } }.injWord a bs.length

/-- A sector written back to its stack (R231): the words read, the unit written. -/
def State.backSector (s : State) (x : Nat) : State :=
  let s := s.checkWords x 64 Master.sp.code atBack
  if s.lostAt x then s else { s with latent := s.latent.filter fun p => p.1 != x }.injWrite 1 x 4

/-- The dirty sectors of a line written back. -/
def State.backLine (s : State) (l : LdlLine) : State :=
  let s := if l.d0 then s.backSector (l.tag * 128) else s
  if l.d1 then s.backSector (l.tag * 128 + 64) else s

/-! ### The ladle (R230 to R236) -/

/-- Lines of one set: those of the same Flask whose set index, a hash of address bits [35:7] into 49,152 sets, agrees. -/
def sameSet (t u : Nat) : Bool :=
  decide (flaskOf (t * 128) = flaskOf (u * 128)) &&
  Config.ladleSet (t % 2 ^ 29) % 49152 == Config.ladleSet (u % 2 ^ 29) % 49152

/-- The lines, most recently used first, with at most `n` protected in the set of line `t`: the least recently used lose
protection (R234). -/
def keepLimit (n t : Nat) : Nat → List LdlLine → List LdlLine
  | _, [] => []
  | k, l :: ls =>
    if l.prot && sameSet l.tag t then
      if k < n then l :: keepLimit n t (k + 1) ls else { l with prot := false } :: keepLimit n t (k + 1) ls
    else l :: keepLimit n t k ls

/-- Who leaves the set of line `t` where it is full (R234): the least recently used unprotected line, or the least recently used
line where all are protected. Fewer than 16 lines fill no set. -/
def victim (ls : List LdlLine) (t : Nat) : Option LdlLine :=
  if ls.length < 16 then none
  else
    let set := ls.filter fun l => sameSet l.tag t
    if set.length < 16 then none
    else if set.any fun l => !l.prot then set.reverse.find? fun l => !l.prot
    else set.getLast?

/-- Room for one line in the set of line `t`. -/
def makeRoom (ls : List LdlLine) (t : Nat) : List LdlLine :=
  match victim ls t with
  | none => ls
  | some l => ls.filter fun x => x.tag != l.tag

/-- The protected lines allowed in a set of the Flask of a line. -/
def State.keepMax (s : State) (t : Nat) : Nat := s.f F.FLK_LDL_CTRL_KEEP_WAYS (flaskOf (t * 128))

/-- The ladle with another list of lines: those that leave it are written back. -/
def State.ladleSet (s : State) (ls : List LdlLine) (f : Nat) : State :=
  let gone := s.ms.ladle.filter fun x => !(ls.any fun y => y.tag == x.tag)
  ((foldS gone (fun x s => s.backLine x) s).setLadle ls).ladleStat f

/-- An allocation or a hit that puts a line first or last among its set (R234): a protected line beyond KEEP_WAYS loses its
protection first, then the victim leaves. -/
def State.ladlePut (s : State) (l : LdlLine) (first : Bool) : State :=
  let held := s.ms.ladle.any fun x => x.tag == l.tag
  let others := s.ms.ladle.filter fun x => x.tag != l.tag
  let ls := keepLimit (s.keepMax l.tag) l.tag 0 (if first then l :: others else others ++ [l])
  let mine := ls.filter fun x => x.tag == l.tag
  let rest := ls.filter fun x => x.tag != l.tag
  let rest := if held then rest else makeRoom rest l.tag
  s.ladleSet (if first then mine ++ rest else rest ++ mine) (flaskOf (l.tag * 128))

/-- A line changed where it stands. -/
def State.ladleStay (s : State) (l : LdlLine) : State :=
  s.ladleSet (s.ms.ladle.map fun x => if x.tag = l.tag then l else x) (flaskOf (l.tag * 128))

def State.ladleDrop (s : State) (t : Nat) : State :=
  let s := match s.ladleLine t with | some l => s.backLine l | none => s
  (s.setLadle (s.ms.ladle.filter fun x => x.tag != t)).ladleStat (flaskOf (t * 128))

/-- The hint a request acts as (R233). -/
def State.hintOf (s : State) (a hint : Nat) : Nat := if s.f F.FLK_LDL_CTRL_HINTS_EN (flaskOf a) = 0 then 0 else hint % 4

/-- Whether a stack serves misses and write-backs now: READY, or LOST, which answers with poison. -/
def State.stackServes (s : State) (k : Nat) : Bool :=
  s.f F.FLK_MEM_STACK_STAT_STATE k == 2 || s.f F.FLK_MEM_STACK_STAT_STATE k == 4

/-- The dirty sectors of a held line written back; the line stays where it stands. -/
def State.ladleClean (s : State) (t : Nat) : State :=
  match s.ladleLine t with
  | some l => (s.backLine l).ladleStay { l with d0 := false, d1 := false }
  | none => s

/-- A read hit on a line (Table 8-3). A write-back that LAST asks of a stack that is HOT or retrains waits for it (R238, R253). -/
def State.ladleHit (s : State) (l : LdlLine) (hint : Nat) : State :=
  match hint with
  | 0 => s.ladlePut l true
  | 1 => s.ladleSet (keepLimit (s.keepMax l.tag) l.tag 0 s.ms.ladle) (flaskOf (l.tag * 128))
  | 2 => s.ladlePut { l with prot := true } true
  | _ =>
    if l.d0 || l.d1 then
      let s := s.ladlePut l false
      if s.stackServes (stackOf (l.tag * 128)) then s.ladleClean l.tag
      else { s with ms := { s.ms with owed := s.ms.owed ++ [l.tag] } }
    else s.ladleDrop l.tag

/-- The write-backs that waited for a stack. -/
def State.backOwed (s : State) (k : Nat) : State :=
  let mine := fun (t : Nat) => stackOf (t * 128) == k
  foldS (s.ms.owed.filter mine) (fun t s => s.ladleClean t)
    { s with ms := { s.ms with owed := s.ms.owed.filter fun t => !mine t } }

/-- Allocation of a sector under a hint (Table 8-3): a read with STREAM or LAST allocates nothing. -/
def State.ladleAlloc (s : State) (x hint : Nat) (write : Bool) : State :=
  let t := sectorLine x
  let old := (s.ladleLine t.1).getD ⟨t.1, false, false, false, false, false⟩
  let l := old.fill t.2 write
  match hint with
  | 0 => s.ladlePut l true
  | 2 => s.ladlePut { l with prot := true } true
  | _ => if write then s.ladlePut l false else s

/-- A unit read from its stack with `errs` erroneous bytes beside those injected (R239, R240, R243). -/
def State.fetchUnit (s : State) (x errs m at_ : Nat) : State :=
  if s.lostAt x then s.poisonAt x else (s.latentCheck x m at_).unitRead (stackOf x) x errs m at_

/-- The sectors `xs` of line `t` read with a hint: the held ones hit, the others are fetched (R231, R233). -/
def State.readLine (s : State) (t : Nat) (xs : List Nat) (hint : Nat) (errs : Nat → Nat) (m at_ : Nat) : State :=
  let hit := xs.filter fun x => s.ladleHas x
  let miss := xs.filter fun x => !s.ladleHas x
  let s := (s.bump F.FLK_LDL_CNT_HITS hit.length (flaskOf (t * 128))).bump F.FLK_LDL_CNT_MISSES miss.length (flaskOf (t * 128))
  let s : State := foldS hit (fun x s => if s.lostAt x then s.poisonAt x else s) s
  let s := if hit.isEmpty then s else match s.ladleLine t with
    | some l => s.ladleHit l hint
    | none => s
  foldS miss (fun x s => (s.fetchUnit x (errs x) m at_).ladleAlloc x hint false) s

/-- The sectors of a byte range in one line. -/
def sectorsIn (a n t : Nat) : List Nat := [t * 128, t * 128 + 64].filter fun x => decide (x < a + n) && decide (a < x + 64)

/-- The lines of a byte range. -/
def linesOf (a n : Nat) : List Nat := if n = 0 then [] else natRange (a / 128) ((a + n - 1) / 128 - a / 128 + 1)

/-- A read of a byte range by any agent (R230): through the ladle where it lies in a stack, with `errs` erroneous bytes in the
units it fetches; from the tile store otherwise. -/
def State.readWith (s : State) (a n hint : Nat) (errs : List Nat) (m at_ : Nat) : State :=
  if tileBase ≤ a then
    foldS ((sectorsOf a n).filter fun x => s.latent.any (·.1 == x)) (fun x s => s.latentCheck x m at_) s
  else
    let s := s.checkWords a n m at_
    let h := s.hintOf a hint
    let miss := (sectorsOf a n).filter fun x => !s.ladleHas x
    let err := fun (x : Nat) => match miss.idxOf? x with | some i => errs.getD i 0 | none => 0
    foldS (linesOf a n) (fun t s => s.readLine t (sectorsIn a n t) h err m at_) s

/-- A read with no hint of its own: NORMAL (R233). -/
def State.checkRead (s : State) (a n m at_ : Nat) : State := s.readWith a n 0 [] m at_

/-- The reads of several byte ranges together. -/
def State.checkSpans (s : State) (l : List (Nat × Nat)) (m at_ : Nat) : State :=
  foldS l (fun p s => s.checkRead p.1 p.2 m at_) s

/-- A write of bytes within one sector (R231, R243): to a tile-store line; to a LOST stack, which discards it; or into the ladle,
which first fetches a sector it does not hold and that is written in part. -/
def State.storeSector (s : State) (a : Nat) (bs : List Byte) (hint m : Nat) : State :=
  let x := a / 64 * 64
  if tileBase ≤ a then
    let s := s.writeBytes a bs
    if bs.length = 64 then s.injWrite 0 x 2 else s
  else if s.lostAt x then s
  else
    let s := if bs.length = 64 then s
      else if s.ladleGood x then
        let s := if a % 8 = 0 then s else s.checkWords (a / 8 * 8) 8 m atWrite
        if (a + bs.length) % 8 = 0 then s else s.checkWords ((a + bs.length) / 8 * 8) 8 m atWrite
      else (s.checkWords x 64 m atWrite).fetchUnit x 0 m atWrite
    (s.ladleAlloc x hint true).ladleBytes a bs

/-- A write of a byte range, sector by sector. -/
def State.storeWith (s : State) (a : Nat) (bs : List Byte) (hint m : Nat) : State :=
  foldS (sectorsOf a bs.length) (fun x s =>
    let lo := max a x
    let hi := min (a + bs.length) (x + 64)
    s.storeSector lo ((bs.drop (lo - a)).take (hi - lo)) hint m) s

/-- A write that a unit of the block makes, with the hint NORMAL. -/
def State.store (s : State) (a : Nat) (bs : List Byte) : State := s.storeWith a bs 0 Master.sp.code

/-- No request for one of the range's lines stands before another (R232). -/
def State.lineFree (s : State) (a n : Nat) : Bool :=
  !(s.ms.fetch.any fun r => decide (r.addr / 128 ≤ (a + (n - 1)) / 128) && decide (a / 128 ≤ (r.addr + (r.len - 1)) / 128))

/-- Whether line `t` could enter the ladle now: what it displaces is clean, or its stack takes the write-back (R238, R253). -/
def State.roomNow (s : State) (t : Nat) : Bool :=
  (s.ladleLine t).isSome ||
  match victim s.ms.ladle t with
  | none => true
  | some l => l.dirtyN == 0 || s.stackServes (stackOf (l.tag * 128))

/-- Whether the ladle's own domain lets a request for a byte range pass (R42, R45). -/
def State.ladlePace (s : State) (a n : Nat) : Bool := !s.held (400 + flaskOf a % 4) && s.lineFree a n

/-- Whether a tile store serves its ports now: its domain 6w + 5 is not held (R42, R45). -/
def State.tilePace (s : State) (a : Nat) : Bool :=
  match tileOf a with
  | some (w, _) => !s.held (6 * w + 5)
  | none => true

/-- Whether a read of the range can be served now: every sector hits, or its stack serves the miss and the line has room. -/
def State.readNow (s : State) (a n hint : Nat) : Bool :=
  if tileBase ≤ a then s.tilePace a
  else s.ladlePace a n && ((sectorsOf a n).all fun x => s.ladleGood x ||
      (s.stackServes (stackOf x) && (s.hintOf a hint % 2 == 1 || s.roomNow (x / 128))))

/-- Whether a write of the range can be accepted now: nothing has to be fetched from a stack that does not serve, and each line
has room. A LOST stack takes any write. -/
def State.writeNow (s : State) (a n : Nat) : Bool :=
  if tileBase ≤ a then s.tilePace a
  else s.ladlePace a n && ((sectorsOf a n).all fun x => s.lostAt x ||
      (((decide (a ≤ x) && decide (x + 64 ≤ a + n)) || s.ladleGood x || s.stackServes (stackOf x)) && s.roomNow (x / 128)))

/-- Several ranges read or written together. -/
def State.readsNow (s : State) (l : List (Nat × Nat)) : Bool := l.all fun p => s.readNow p.1 p.2 0

/-- Returning the bytes of a range. -/
def State.ladleReturn (s : State) (a n : Nat) : State := s.send (.data a (s.readBytes a n) (s.poisoned a n))

/-- A request that waits at the ladle. -/
def State.ladleWait (s : State) (r : Fetch) : State := { s with ms := { s.ms with fetch := s.ms.fetch ++ [r] } }

/-- A read request at the ladle (R231 to R233): it hits, or waits for the sectors to be fetched. -/
def State.ladleRead (s : State) (a n hint m : Nat) : State :=
  if s.ladlePace a n && (sectorsOf a n).all fun x => s.ladleGood x then (s.readWith a n hint [] m atRead).ladleReturn a n
  else s.ladleWait ⟨a, n, hint, m, none⟩

/-- A write at the ladle (R231, R232): the bytes are visible to every agent when it is accepted; one that cannot be accepted
waits (R238, R253). -/
def State.ladleWrite (s : State) (a : Nat) (bs : List Byte) (hint m : Nat) : State :=
  if s.writeNow a bs.length then s.storeWith a bs (s.hintOf a hint) m
  else s.ladleWait ⟨a, bs.length, hint, m, some bs⟩

/-- The oldest waiting request of a stack is served (R231, R232): `errs` erroneous bytes per fetched unit, and whether the
stack's own on-die code reported. -/
def State.missFill (s : State) (k : Nat) (errs : List Nat) (ondie : Bool) : State :=
  match s.ms.fetch.find? fun r => stackOf r.addr == k with
  | none => s
  | some r =>
    let t := { s with ms := { s.ms with fetch := s.ms.fetch.erase r } }
    match r.data with
    | some bs => if t.writeNow r.addr r.len then t.storeWith r.addr bs (t.hintOf r.addr r.hint) r.m else s
    | none =>
      if !t.readNow r.addr r.len r.hint then s else
      let t := if ondie && !(sectorsOf r.addr r.len).all t.ladleGood then t.bump F.FLK_MEM_STACK_ECC_ONDIE 1 k else t
      (t.readWith r.addr r.len r.hint errs r.m atRead).ladleReturn r.addr r.len

/-- One line of a LADLE_OP (Table 8-4); ZERO makes it zero in memory too, visible at once. -/
def State.ladleOpLine (s : State) (op hint t : Nat) : State :=
  match op with
  | 0 => s.ladleClean t
  | 1 => if (s.ladleLine t).isSome then s.ladleDrop t else s
  | 2 => match s.ladleLine t with
    | some l => s.ladleStay { l with prot := false }
    | none => s
  | 3 => s.readWith (t * 128) 128 hint [] Master.sp.code atRead
  | _ => s.storeWith (t * 128) (List.replicate 128 0) (s.hintOf (t * 128) hint) Master.sp.code

/-- A LADLE_OP over its range in address order (R235). EVICT, WRITEBACK, UNPROTECT act on the lines held alone; ZERO clears
the whole range. -/
def State.ladleOp (s : State) (op hint a n : Nat) : State :=
  if op ≤ 2 then
    foldS (sortNat ((s.ms.ladle.filter fun l => decide (a ≤ l.tag * 128) && decide (l.tag * 128 < a + n)).map (·.tag)))
      (fun t s => s.ladleOpLine op hint t) s
  else
    foldS (natRange (a / 128) (n / 128)) (fun t s => s.ladleOpLine op hint t) s

/-! ### The runner's domains between two places (R124, R127, R141) -/

/-- Hubs of the reticle fields on the path of R127: shortest way round F0, F1, F3, F2; the diagonal leaves clockwise. -/
def hubPath (f k : Nat) : List Nat :=
  let ring := [0, 1, 3, 2]
  let pos := fun (x : Nat) => (ring.findIdx? (· == x)).getD 0
  let d := (pos k + 4 - pos f) % 4
  if d = 0 then [f] else if d = 1 ∨ d = 3 then [f, k] else [f, ring.getD ((pos f + 1) % 4) 0, k]

/-- The edge of a Flask carries nothing (R262, R268): it changes mode, is DOWN, or has a direction without an active slice. -/
def State.edgeHeld (s : State) (f : Nat) : Bool :=
  let m := s.f F.FLK_D2D_STATUS_MODE f
  (m != 1 && m != 2) || s.f F.FLK_D2D_STATUS_ACTIVE_I2F f == 0 || s.f F.FLK_D2D_STATUS_ACTIVE_F2I f == 0

/-- The edge of a Flask or a runner domain on the way to a wing is held (R124, R141, R262). -/
def State.pathHeld (s : State) (f w : Nat) : Bool :=
  s.edgeHeld f || (hubPath f (w / 16)).any (fun h => s.held (384 + 4 * h)) || s.held (384 + w / 4)

/-- The runner domains between two local places that a copy joins (R127, R141), one of them held: a wing's segment with the hubs on
the way, and the hubs alone between two Flasks. -/
def State.wayHeld (s : State) (a b : Nat) : Bool :=
  let seg := fun (w : Nat) => 384 + w / 4
  match tileOf a, tileOf b with
  | none, none =>
    let f := flaskOf a % 4
    let k := flaskOf b % 4
    f != k && (s.edgeHeld f || s.edgeHeld k || (hubPath f k).any fun h => s.held (384 + 4 * h))
  | some (w, _), none => s.pathHeld (flaskOf b % 4) w
  | none, some (w, _) => s.pathHeld (flaskOf a % 4) w
  | some (v, _), some (w, _) =>
    v != w && ((hubPath (v / 16) (w / 16)).any (fun h => s.held (384 + 4 * h)) || s.held (seg w) || s.held (seg v))

/-- The runner domains between a wing and a place it reads or writes, one of them held; its own tile store needs none. -/
def State.wingWay (s : State) (w a : Nat) : Bool := s.wayHeld (tileAddr w 0) a

/-! ### Stacks (R225, R238, R242, R243) -/

/-- The first step of a retraining (R243): accesses are held and the retraining is counted. -/
def State.stackRetrain (s : State) (k : Nat) : State :=
  let s := { s with ms := { s.ms with parity := mset s.ms.parity k 0 } }
  (s.setF F.FLK_MEM_STACK_STAT_STATE 1 k).bump F.FLK_MEM_STACK_STAT_RETRAINS 1 k

/-- A scrub step (R242): one unit of the stack, skipped where the ladle holds it dirty. The count of each stack goes on from pass to
pass; a pass of the Flask is complete when each of its stacks has completed it. -/
def State.scrubUnit (s : State) (k errs : Nat) : State :=
  let n := mgetD s.ms.scrub k 0
  let x := k * stackSize + n % stackSize
  let s := if s.ladleDirty x then s else (s.latentCheck x Master.sp.code atBack).unitRead k x errs Master.sp.code atBack
  let f := k / 4
  let s := { s with ms := { s.ms with scrub := mset s.ms.scrub k (n + 64) } }
  let of := (List.range 4).map fun j => mgetD s.ms.scrub (4 * f + j) 0
  let full := of.foldl (fun m y => min m (y / stackSize)) (of.headD 0 / stackSize)
  let part := of.foldl (fun a y => a + min stackSize (y - full * stackSize)) 0
  (s.setF F.FLK_MEM_SCRUB_PASSES (min full 65535) f).setF F.FLK_MEM_SCRUB_PROGRESS (part * 100 / (4 * stackSize)) f

/-! ### The turn engine (R244 to R252) -/

/-- Code `k` of elements of `b` bits packed from the least significant bit upward (R62). -/
def codeAt (bs : List Byte) (b k : Nat) : Nat :=
  let o := k * b / 8
  leNat ((bs.drop o).take ((k * b % 8 + b + 7) / 8)) >>> (k * b % 8) % 2 ^ b

/-- Packing codes of `b` bits. -/
def packCodes (b : Nat) (xs : List Nat) : List Byte :=
  leBytes ((xs.length * b + 7) / 8) (xs.foldr (fun x a => a * 2 ^ b + x % 2 ^ b) 0)

/-- The slab bytes of a job's image and output. -/
def TurnJob.bits (j : TurnJob) : Nat := match Fmt.ofCode j.fmt with | some f => f.bits | none => 8
def TurnJob.n (j : TurnJob) : Nat := j.groups * j.ncol
def TurnJob.slabs (j : TurnJob) : Nat := (j.depth + j.ks - 1) / j.ks
def TurnJob.srcLen (j : TurnJob) : Nat := j.n * j.slabs * j.ks * j.bits / 8
def TurnJob.outLen (j : TurnJob) : Nat :=
  (j.kcount + j.ncolD - 1) / j.ncolD * ((j.n + j.kd - 1) / j.kd) * j.ncolD * j.kd * j.bits / 8

/-- Element index in the image of forward element (k, n) (R245). -/
def TurnJob.index (j : TurnJob) (k n : Nat) : Nat :=
  (((n / j.ncol) * j.slabs + k / j.ks) * j.ncol + n % j.ncol) * j.ks + k % j.ks

/-- One turned slab: its codes, and whether a poisoned unit was drawn on (R252). -/
def TurnJob.slab (j : TurnJob) (mem : List Host.Cell) (poison : List Nat) (g2 j2 c2 : Nat) : List Nat × Bool :=
  let k := j.kstart + g2 * j.ncolD + c2
  (List.range j.kd).foldl (fun acc e =>
    let col := j2 * j.kd + e
    if k < j.kstart + j.kcount ∧ col < j.n then
      let bit := j.index k col * j.bits
      let a := j.src + bit / 8
      let m := (bit % 8 + j.bits + 7) / 8
      (acc.1 ++ [leNat (cellsRead mem a m) >>> (bit % 8) % 2 ^ j.bits], acc.2 || poisonIn poison a m)
    else (acc.1 ++ [0], acc.2)) ([], false)

/-- The turned output (R245): bytes, and the output sectors that a poisoned source unit poisons. -/
def TurnJob.output (j : TurnJob) (mem : List Host.Cell) (poison : List Nat) : List Byte × List Nat :=
  let gs := (j.kcount + j.ncolD - 1) / j.ncolD
  let js := (j.n + j.kd - 1) / j.kd
  let ids := (List.range gs).flatMap fun g => (List.range js).flatMap fun i => (List.range j.ncolD).map fun c => (g, i, c)
  ids.foldl (fun acc t =>
    let x := j.slab mem poison t.1 t.2.1 t.2.2
    let bs := packCodes j.bits x.1
    (acc.1 ++ bs, if x.2 then acc.2 ++ (natRange (acc.1.length / 64) ((bs.length + 63) / 64)).map (· * 64) else acc.2)) ([], [])

/-- The forward slab rows that an output group draws on. -/
def TurnJob.rowsOf (j : TurnJob) (g : Nat) : List Nat :=
  let lo := j.kstart + g * j.ncolD
  let hi := min (lo + j.ncolD) (j.kstart + j.kcount)
  if hi ≤ lo then [] else natRange (lo / j.ks) ((hi - 1) / j.ks - lo / j.ks + 1)

/-- The bytes of a forward slab row: one run per forward group (R245). -/
def TurnJob.rowSpans (j : TurnJob) (r : Nat) : List (Nat × Nat) :=
  let n := j.ncol * j.ks * j.bits / 8
  (List.range j.groups).map fun g => (j.src + (g * j.slabs + r) * n, n)

/-- The source reads of a job or instance, in order (R251): where a slab row of all columns fits the 128 KiB of a pass, each row
that the output draws on once; otherwise each row once for every output group that draws on it. -/
def TurnJob.reads (j : TurnJob) : List (Nat × Nat) :=
  let rows := (List.range ((j.kcount + j.ncolD - 1) / j.ncolD)).flatMap j.rowsOf
  (if j.n * j.ks * j.bits / 8 ≤ 131072 then rows.eraseDups else rows).flatMap j.rowSpans

/-- Whether the engine's source reads can be served now (R253). -/
def State.turnNow (s : State) (j : TurnJob) : Bool := j.reads.all fun p => s.readNow p.1 p.2 j.hint

/-- The engine reads its source through the ladle, with the job's hint (R233, R251, R252). -/
def State.turnRead (s : State) (j : TurnJob) (f : Nat) : State :=
  foldS j.reads (fun p s => s.readWith p.1 p.2 j.hint [] (Master.mk 2 f).code atCmd) s

/-- A region whose content the spec leaves undefined: each byte a free value. -/
def State.scrambleRange (s : State) (a n : Nat) : State :=
  foldS (natRange a n) (fun i s => let (v, s) := s.draw; s.store i [BitVec.ofNat 8 v]) s

/-- The fields of a TURN, clamped in the order of Table 8-9, with the offsets of the fields clamped (R246). `b`: element
bits of FMT where it names a format. -/
def turnClamp (p : List Nat) : TurnJob × List Nat :=
  let w0 := p.getD 2 0
  let w1 := p.getD 3 0
  let w2 := p.getD 4 0
  let w3 := p.getD 5 0
  let fmt := bitsAt w0 48 4
  let b := match Fmt.ofCode fmt with | some f => f.bits | none => 8
  let least := (List.range 10).find? (fun k => decide (5 ≤ k) && decide (32 * 8 ≤ 2 ^ k * b)) |>.getD 9
  let cl := fun (c : Bool) (off : Nat) (x y : Nat) (l : List Nat) => if c then (y, l ++ [off]) else (x, l)
  let d := bitsAt w1 0 16
  let nc := bitsAt w1 32 7
  let nd := bitsAt w1 56 7
  let ks := bitsAt w1 40 4
  let kd := bitsAt w1 48 4
  let st := bitsAt w3 16 16
  let kc := bitsAt w3 32 16
  let (d, cs) := cl (d == 0) 0x18 d 1 []
  let (nc, cs) := cl (nc == 0) 0x1C nc 1 cs
  let (nd, cs) := cl (nd == 0) 0x1F nd 1 cs
  let (nc, cs) := cl (decide (nc > 64)) 0x1C nc 64 cs
  let (nd, cs) := cl (decide (nd > 64)) 0x1F nd 64 cs
  let (ks, cs) := cl (decide (ks < least)) 0x1D ks least cs
  let (kd, cs) := cl (decide (kd < least)) 0x1E kd least cs
  let (ks, cs) := cl (decide (ks > 9)) 0x1D ks 9 cs
  let (kd, cs) := cl (decide (kd > 9)) 0x1E kd 9 cs
  let (st, cs) := cl (decide (st ≥ d)) 0x2A st (d - 1) cs
  let (kc, cs) := cl (decide (kc = 0 ∨ kc > d - st)) 0x2C kc (d - st) cs
  (⟨bitsAt w0 0 48, fmt, bitsAt w0 54 2, d, bitsAt w1 16 10 + 1, nc, 2 ^ ks, 2 ^ kd, nd, bitsAt w2 0 48, st, kc⟩, cs)

end Sys2Proof.Machine
end

