-- ==== Sys2Proof/Machine/Transc.lean ====
section
/-! DEFINITION. Transcendental operations (R169, Table 6-9): the special operands, an enclosure of the exact result in
fixed point, and the set of binary32 results that lie within the bound of the table. Which of them the engine gives is
not stated; a free value picks one. -/

namespace Sys2Proof.Machine

/-- Fraction bits of the fixed-point enclosures. -/
def fxBits : Nat := 400
/-- One in fixed point. -/
def fxOne : Int := 2 ^ 400
/-- ⌊π × 2^400⌋. -/
def fxPi : Int := 0x3243f6a8885a308d313198a2e03707344a4093822299f31d0082efa98ec4e6c89452821e638d01377be5466cf34e90c6cc0ac
/-- ⌊ln 2 × 2^400⌋. -/
def fxLn2 : Int := 0xb17217f7d1cf79abc9e3b39803f2f6af40f343267298b62d8a0d175b8baafa2be7b876206debac98559552fb4afa1b10ed2e

/-- A finite value in fixed point (exact down to 2^−400). -/
def fxOf (s : Bool) (m : Nat) (e : Int) : Int :=
  let v : Int := if e + 400 ≥ 0 then (m <<< (e + 400).toNat : Nat) else (m >>> (-(e + 400)).toNat : Nat)
  if s then -v else v

def fxMul (a b : Int) : Int := (a * b) / fxOne
def fxDiv (a b : Int) : Int := (a * fxOne) / b

/-- Σ r^n / n! from the term in hand. -/
def expSeries (r : Int) : Nat → Nat → Int → Int → Int
  | 0, _, _, acc => acc
  | fuel + 1, n, t, acc =>
    let t' := fxMul t r / (n : Int)
    expSeries r fuel (n + 1) t' (acc + t')

/-- e^x in fixed point. -/
def fxExp (x : Int) : Int :=
  let k := x / fxLn2
  let r := x - k * fxLn2
  let v := expSeries r 100 1 fxOne fxOne
  if k ≥ 0 then v * (2 ^ k.toNat : Nat) else v / (2 ^ (-k).toNat : Nat)

/-- Σ z^(2k+1)/(2k+1). -/
def atanhSeries (z2 : Int) : Nat → Nat → Int → Int → Int
  | 0, _, _, acc => acc
  | fuel + 1, n, t, acc => atanhSeries z2 fuel (n + 2) (fxMul t z2) (acc + t / (n : Int))

/-- ln of m × 2^e, m positive. -/
def fxLn (m : Nat) (e : Int) : Int :=
  let len := bitLen m
  let y : Int := (m <<< (400 - len) : Nat)
  let k : Int := e + len
  let (y, k) := if y < fxOne * 3 / 4 then (2 * y, k - 1) else (y, k)
  let z := fxDiv (y - fxOne) (y + fxOne)
  2 * atanhSeries (fxMul z z) 90 1 z 0 + k * fxLn2

/-- Alternating series Σ (−1)^k x^(2k+b)/(2k+b)! from the term in hand. -/
def trigSeries (x2 : Int) : Nat → Nat → Int → Int → Int
  | 0, _, _, acc => acc
  | fuel + 1, n, t, acc =>
    let t' := -(fxMul t x2) / ((n : Int) * (n + 1))
    trigSeries x2 fuel (n + 2) t' (acc + t')

/-- The argument less the nearest multiple of 2π. -/
def fxReduce (x : Int) : Int := x - ((x + fxPi) / (2 * fxPi)) * (2 * fxPi)

def fxSin (x : Int) : Int := let r := fxReduce x; trigSeries (fxMul r r) 70 2 r r
def fxCos (x : Int) : Int := let r := fxReduce x; trigSeries (fxMul r r) 70 1 fxOne fxOne

/-- Σ (−1)^n x^(2n+1)/(n! (2n+1)). -/
def erfSeries (x2 : Int) : Nat → Nat → Int → Int → Int
  | 0, _, _, acc => acc
  | fuel + 1, n, t, acc =>
    let t' := -(fxMul t x2) / (n : Int)
    erfSeries x2 fuel (n + 1) t' (acc + t' / (2 * n + 1 : Nat))

/-- erf x for |x| below 6. -/
def fxErf (x : Int) : Int :=
  let s := erfSeries (fxMul x x) 260 1 x x
  let rootPi : Int := isqrt (fxPi * fxOne).toNat
  fxDiv (2 * s) rootPi

/-- An exact result as the spec bounds it: a special operand's result with its flags, or an enclosure `lo` to `hi` in fixed
point (`exact`: the value is `lo`), with the bound in units in the last place. -/
inductive TrOut where
  | special (code fl : Nat)
  | enc (lo hi : Int) (exact : Bool) (ulps : Nat)
  | anyUnit
  deriving DecidableEq, Repr

/-- An approximation widened to an enclosure. -/
def widen (v : Int) (ulps : Nat) : TrOut :=
  let w : Int := v.natAbs / 2 ^ 200 + 2 ^ 60
  .enc (v - w) (v + w) false ulps

/-- The transcendental operations of Table 6-8. -/
inductive TrOp where
  | exp2 | exp | log2 | log | rcp | rsqrt | tanh | sigm | erf | sin | cos
  deriving DecidableEq, Repr

def one32 : Nat := 0x3F800000

/-- Whether the magnitude m × 2^e is at least `b`. -/
def magGe (m : Nat) (e : Int) (b : Nat) : Bool := (FVal.fin false m e).cmp (.fin false b 0) != .lt

/-- R169: special operands (clause 9.2 of IEEE 754-2019, and division for RCP), and the enclosure elsewhere. -/
def trEval (op : TrOp) (a : FVal) : TrOut :=
  match a with
  | .nan g => .special bin32.qnan (if g then flagNV else 0)
  | .inf s =>
    match op with
    | .exp2 | .exp => .special (if s then 0 else bin32.infCode false) 0
    | .log2 | .log => if s then .special bin32.qnan flagNV else .special (bin32.infCode false) 0
    | .rcp => .special (if s then 0x80000000 else 0) 0
    | .rsqrt => if s then .special bin32.qnan flagNV else .special 0 0
    | .tanh | .erf => .special (if s then 0xBF800000 else one32) 0
    | .sigm => .special (if s then 0 else one32) 0
    | .sin | .cos => .special bin32.qnan flagNV
  | .fin s m e =>
    if m = 0 then
      match op with
      | .exp2 | .exp | .cos => .special one32 0
      | .log2 | .log => .special (bin32.infCode true) flagDZ
      | .rcp | .rsqrt => .special (bin32.infCode s) flagDZ
      | .sigm => .special 0x3F000000 0
      | .tanh | .erf | .sin => .special (if s then 0x80000000 else 0) 0
    else
    match op with
    | .exp2 =>
      if magGe m e 300 then (if s then .enc 0 (2 ^ 200) false 1 else .special (bin32.infCode false) (flagOF ||| flagNX))
      else if isWhole m e then
        let k := roundInt .ne s m e
        let v : Int := if k + 400 ≥ 0 then (2 ^ (k + 400).toNat : Nat) else 0
        .enc v v true 1
      else widen (fxExp (fxMul (fxOf s m e) fxLn2)) 1
    | .exp =>
      if magGe m e 200 then (if s then .enc 0 (2 ^ 200) false 2 else .special (bin32.infCode false) (flagOF ||| flagNX))
      else widen (fxExp (fxOf s m e)) 2
    | .log2 =>
      if s then .special bin32.qnan flagNV
      else if 2 ^ (bitLen m - 1) = m then
        let v := (e + bitLen m - 1) * fxOne
        if v = 0 then .special 0 0 else .enc v v true 1
      else widen (fxDiv (fxLn m e) fxLn2) 1
    | .log =>
      if s then .special bin32.qnan flagNV
      else if a.cmp (.fin false 1 0) = .eq then .special 0 0
      else widen (fxLn m e) 2
    | .rcp =>
      let v := fxDiv fxOne (fxOf false m e)
      let x := fxOf false m e
      if v * x = fxOne * fxOne then (if s then .enc (-v) (-v) true 1 else .enc v v true 1)
      else widen (if s then -v else v) 1
    | .rsqrt =>
      if s then .special bin32.qnan flagNV
      else
        let n := (2 ^ 1200) / (fxOf false m e).toNat
        let r := isqrt n
        if r * r = n ∧ n * (fxOf false m e).toNat = 2 ^ 1200 then .enc r r true 2 else widen r 2
    | .tanh =>
      if magGe m e 100 then .enc (if s then -fxOne else fxOne - 2 ^ 200) (if s then -fxOne + 2 ^ 200 else fxOne) false 3
      else
        let t := fxExp (2 * fxOf s m e)
        widen (fxDiv (t - fxOne) (t + fxOne)) 3
    | .sigm =>
      if magGe m e 200 then (if s then .enc 0 (2 ^ 200) false 3 else .enc (fxOne - 2 ^ 200) fxOne false 3)
      else
        let t := fxExp (fxOf s m e)
        widen (fxDiv t (t + fxOne)) 3
    | .erf =>
      if magGe m e 6 then
        (if s then .enc (-fxOne) (-fxOne + 2 ^ 350) false 4 else .enc (fxOne - 2 ^ 350) fxOne false 4)
      else widen (fxErf (fxOf s m e)) 4
    | .sin => if magGe m e 32769 || a.abs.cmp (.fin false 32768 0) = .gt then .anyUnit else widen (fxSin (fxOf s m e)) 2
    | .cos => if magGe m e 32769 || a.abs.cmp (.fin false 32768 0) = .gt then .anyUnit else widen (fxCos (fxOf s m e)) 2

/-- The fixed-point value of a signed ordinal of the finite binary32 codes (2^128 for the infinity). -/
def fxOrd (o : Int) : Int :=
  match bin32.decode o.natAbs with
  | .fin _ m e => fxOf (decide (o < 0)) m e
  | _ => if o < 0 then -(2 ^ 528) else 2 ^ 528

/-- Signed ordinal to code. -/
def ordCode (o : Int) : Nat := if o < 0 then 0x80000000 + o.natAbs else o.toNat

/-- One unit in the last place of a magnitude. -/
def fxUlp (v : Int) : Int :=
  let len := bitLen v.natAbs
  if len ≤ 400 - 126 + 1 then 2 ^ (400 - 149) else 2 ^ (len - 24)

/-- The binary32 results, as signed ordinals, that lie within `ulps` units of every value of the enclosure, the unit being the
exact result's, and on no other side of zero than the exact result (R169; log entry 147). -/
def trCandidates (lo hi : Int) (ulps : Nat) : List Int :=
  let c : Int :=
    let r := (bin32.round .ne (decide (lo < 0)) lo.natAbs (-400)).1
    if lo < 0 then -((r % 2 ^ 31 : Nat) : Int) else r
  let d : Int := ulps * min (fxUlp lo) (fxUlp hi)
  let os := (List.range (2 * ulps + 5)).map fun (i : Nat) => c - (ulps + 2 : Nat) + (i : Int)
  let ok := os.filter fun o => o.natAbs ≤ 0x7F800000 && decide (fxOrd o ≤ lo + d) && decide (fxOrd o ≥ hi - d) &&
    !(decide (0 ≤ lo) && decide (o < 0)) && !(decide (hi ≤ 0) && decide (0 < o))
  if ok.isEmpty then [c] else ok

/-- The binary32 result and flags that the free number `pick` chooses among those the bound allows. -/
def trResult (op : TrOp) (a : FVal) (pick : Nat) : Nat × Nat :=
  match trEval op a with
  | .special c fl => (c, fl)
  | .anyUnit =>
    let k := pick % (2 * (one32 + 1))
    (if k ≤ one32 then k else 0x80000000 + (k - (one32 + 1)), flagNX)
  | .enc lo hi exact ulps =>
    let cs := trCandidates lo hi ulps
    let o := cs.getD (pick % cs.length) 0
    let code := if o = 0 ∧ hi ≤ 0 ∧ lo < 0 then 0x80000000 else ordCode o
    let inexact := !(exact && fxOrd o == lo)
    let fl := if o.natAbs = 0x7F800000 then flagOF ||| flagNX
      else (if inexact then flagNX else 0) ||| (if inexact && decide (o.natAbs < 0x00800000) then flagUF else 0)
    (code, fl)

end Sys2Proof.Machine
end

