-- ==== Sys2Proof/Machine/Pattern.lean ====
section
/-! DEFINITION. The vector engine's instructions (R151 to R182): the element grid, operands, one instruction over the lanes of
a chunk, outputs and reductions. -/

namespace Sys2Proof.Machine

/-- TYPE codes of Table 6-7. -/
inductive Ty where
  | f32 | f64 | i32 | f16 | u32
  deriving DecidableEq, Repr

def Ty.ofCode : Nat → Option Ty
  | 0 => some .f32 | 1 => some .f64 | 2 => some .i32 | 3 => some .f16 | 4 => some .u32 | _ => none

def Ty.bits : Ty → Nat
  | .f64 => 64 | .f16 => 16 | _ => 32

def Ty.isInt : Ty → Bool
  | .i32 => true | .u32 => true | _ => false

def Ty.bin : Ty → BinFmt
  | .f64 => bin64 | .f16 => bin16 | _ => bin32

/-- The value of a code of a type; an integer is its exact value. -/
def Ty.val (t : Ty) (x : Nat) : FVal :=
  match t with
  | .i32 => FVal.ofInt (toSigned 32 x)
  | .u32 => FVal.ofInt (x % 2 ^ 32 : Nat)
  | _ => t.bin.decode x

/-- A value as a code of a type (R163, Table 3-8). -/
def Ty.code (t : Ty) (rm : RM) (v : FVal) : Nat × Nat :=
  match t with
  | .i32 => let r := v.toIntRange rm (-2147483648) 2147483647; (ofSigned 32 r.1, r.2)
  | .u32 => let r := v.toIntRange rm 0 4294967295; (r.1.toNat, r.2)
  | _ => t.bin.ofVal rm v

/-- The element of a chunk: rank of the array (or 0), row, column (R154). -/
structure Elem where
  x : Nat
  i : Nat
  c : Nat
  deriving DecidableEq, Repr

/-- The arrays a mask names, in increasing order. -/
def maskArrays (mask : Nat) : List Nat := (List.range 4).filter fun a => mask / 2 ^ a % 2 == 1

/-- Elements of one commit unit: the whole grid in accumulator mode, one repetition in memory mode (R176). -/
def Blk.unitElems (b : Blk) : Nat := (if b.srcAcc then (maskArrays b.mask).length else 1) * b.rows * b.ncol

/-- Element `e` of the unit: `i` fastest, then `c`, then the array rank (R154). -/
def Blk.elem (b : Blk) (e : Nat) : Elem := ⟨e / (b.rows * b.ncol), e % b.rows, e / b.rows % b.ncol⟩

/-- Logical column q of R156. -/
def Blk.q (b : Blk) (e : Elem) : Nat := if b.srcAcc then e.x * b.aCols + e.c else e.c

/-- Memory row of an element. -/
def VecRun.row (r : VecRun) (e : Elem) : Nat := if r.blk.srcAcc then e.i else r.rep * r.blk.rows + e.i

/-- The index e of a commit unit's first element (R154): a repetition starts where the one before it ended. -/
def VecRun.first (r : VecRun) : Nat := if r.blk.srcAcc then 0 else r.rep * r.blk.unitElems

/-- First index and end of the unit's part of the run's chunk, chunks counting on over the repetitions (R154). -/
def VecRun.bounds (r : VecRun) : Nat × Nat :=
  let k := r.first / 256 + r.chunk
  (max r.first (256 * k), min (r.first + r.blk.unitElems) (256 * (k + 1)))

/-- Active elements of the run's chunk, in lane order; of a chunk that two repetitions share, those of this one, which are
its own commit unit (R154, R176; log entry 144). -/
def VecRun.elems (r : VecRun) : List Elem :=
  (natRange r.bounds.1 (r.bounds.2 - r.bounds.1)).map fun e => r.blk.elem (e - r.first)

/-- The lane of the first active element (R154). -/
def VecRun.lane0 (r : VecRun) : Nat := r.bounds.1 % 256

/-- Chunks of the commit unit. -/
def VecRun.chunks (r : VecRun) : Nat := (r.first + r.blk.unitElems + 255) / 256 - r.first / 256

/-- Lane-group width: 256 in the native profile, AQ_WIDTH lanes in the Aqsal profile (R171, R179). -/
def Blk.group (b : Blk) : Nat := if b.profile = 0 then 256 else 64 * 2 ^ b.aqWidth

/-! ### Sources (Table 6-5, R163) -/

/-- How a source's value turns into another type (R163): as CVT does; through binary32 where the type is binary64, as ACC
does; or held at the largest finite binary32 magnitude, as K4 is. -/
inductive SrcWay where
  | plain | acc | k4
  deriving DecidableEq, Repr

/-- What a source supplies: its exact value, and the code it is in a type, if it is one; with the flags of reading it and
whether it read poison. -/
structure Src where
  val : FVal := .fin false 0 0
  code : Option (Ty × Nat) := none
  way : SrcWay := .plain
  fl : Nat := 0
  bad : Bool := false
  deriving DecidableEq, Repr

/-- A source that is a code of a type. -/
def Src.of (t : Ty) (x : Nat) (bad : Bool := false) : Src := { val := t.val x, code := some (t, x), bad := bad }

/-- A 32-bit number read as the instruction's TYPE takes it: an integer for the integer types, binary32 otherwise. -/
def word32 (t : Ty) (x : Nat) : Src := Src.of (if t.isInt then t else .f32) x

/-- The type whose codes a storage format holds, if there is one. -/
def Fmt.ty : Fmt → Option Ty
  | .f32 => some .f32 | .f64 => some .f64 | .f16 => some .f16 | .int32 => some .i32 | _ => none

/-- Reading an element of a format from the run's view of memory, from a bit position on. -/
def VecRun.fetch (r : VecRun) (f : Fmt) (base bitOff : Nat) (expAddr : Nat) : Src :=
  let a := base + bitOff / 8
  let n := (bitOff % 8 + f.bits + 7) / 8
  let x := leNat (cellsRead r.snap a n) >>> (bitOff % 8) % 2 ^ f.bits
  let ex := if f = .k4 then (cellGet r.snap expAddr).toNat else 0
  let v := f.read x ex
  let bad := poisonIn r.snapPoison a n || (f == .k4 && poisonIn r.snapPoison expAddr 1)
  { val := v.1, code := f.ty.map fun t => (t, x), way := if f = .k4 then .k4 else .plain, fl := v.2, bad := bad }

/-- An IN operand's element (R156). -/
def VecRun.inElem (r : VecRun) (k : Nat) (e : Elem) : Src :=
  let b := r.blk
  match Fmt.ofCode (b.inFmt.getD k 0) with
  | none => {}
  | some f =>
    let q := b.q e + b.grpQ
    let row := r.row e
    let str := b.inStr.getD k 0
    r.fetch f (b.inAddr.getD k 0 + row * str * 64) (q * f.bits) (b.inExp.getD k 0 + row * str * 4 + q / 32)

/-- Pattern registers of one lane. -/
def laneReg (l : List Nat) (k : Nat) : Nat := l.getD k 0

/-- Tile register coordinates of an element (R162). -/
def Blk.trPos (b : Blk) (e : Elem) : Nat × Nat := (e.i, if b.srcAcc then e.x * b.ncol + e.c else e.c)

/-- An accumulator entry by the chain's format; a column without defined contents gives a free value. -/
def State.accEntry (s : State) (w a i c : Nat) : Src × State :=
  let of := fun (int : Bool) (x : Nat) => ({ Src.of (if int then .i32 else .f32) x with way := .acc } : Src)
  match mget (s.wing w).cols (a, c) with
  | some col =>
    match col.ent with
    | some es => (of col.int (es.getD i 0 % 2 ^ 32), s)
    | none => let d := s.draw; (of col.int (d.1 % 2 ^ 32), d.2)
  | none => let d := s.draw; (of true (d.1 % 2 ^ 32), d.2)

/-- A binary32 vector's element in memory; a vector that has no address gives a free value (log entry 145). -/
def VecRun.vecElem (r : VecRun) (s : State) (base k : Nat) : Src × State :=
  if base = 0 then let d := s.draw; (Src.of .f32 (d.1 % 2 ^ 32), d.2)
  else (Src.of .f32 (leNat (cellsRead r.snap (base + 4 * k) 4)) (poisonIn r.snapPoison (base + 4 * k) 4), s)

/-- One source of one lane (Table 6-5). -/
def VecRun.source (r : VecRun) (s : State) (w : Nat) (t : Ty) (code lane : Nat) (e : Elem) (l : List Nat) : Src × State :=
  let b := r.blk
  if code ≤ 15 then
    (Src.of t (if t = .f64 then laneReg l code + 2 ^ 32 * laneReg l (code + 1) else laneReg l code % 2 ^ t.bits), s)
  else if code = 16 then s.accEntry w ((maskArrays b.mask).getD e.x 0) e.i (b.colBase + e.c)
  else if code = 17 then (r.inElem 0 e, s)
  else if code = 18 then (r.inElem 1 e, s)
  else if code = 19 then
    match mget r.trW (b.trPos e) with
    | some x => (word32 t x, s)
    | none =>
      match mget (s.wing w).tr (b.trPos e) with
      | some x => (word32 t x, s)
      | none => let d := s.draw; (word32 t (d.1 % 2 ^ 32), d.2)
  else if code = 20 then r.vecElem s b.cv (b.q e + b.grpQ)
  else if code = 21 then r.vecElem s b.rv e.i
  else if code = 22 then (Src.of .i32 e.i, s)
  else if code = 23 then (Src.of .i32 (b.q e), s)
  else if code = 32 then (Src.of .i32 (lane % b.group), s)
  else (word32 t (b.kk.getD (code - 24) 0), s)

/-- A K4 value above the largest finite binary32 magnitude, if it is one: that magnitude (R163). -/
def k4Held : FVal → Option FVal
  | .fin s m e => if m ≠ 0 ∧ e + bitLen m > 128 then some (bin32.decode (bin32.maxCode s)) else none
  | _ => none

/-- A source as a code of the type (R163): the bits of a code of that very type as they stand, any other value converted. -/
def Src.as (x : Src) (t : Ty) (rm : RM) : Nat × Nat :=
  let conv := fun (v : FVal) (fl : Nat) => let c := t.code rm v; (c.1, c.2 ||| fl ||| x.fl)
  if x.code.map Prod.fst = some t then ((x.code.map Prod.snd).getD 0, x.fl) else
  match x.way with
  | .plain => conv x.val 0
  | .acc => if t = .f64 then (let y := bin32.ofVal rm x.val; conv (bin32.decode y.1) y.2) else conv x.val 0
  | .k4 => match k4Held x.val with
    | some v => conv v flagOF
    | none => conv x.val 0

/-- A source's exact value and the flags of reading it (SCALE, R84). -/
def Src.exact (x : Src) : FVal × Nat := (x.val, x.fl)

/-! ### Results of the operations (R77, R79, R83, R84, R166, R167) -/

/-- All ones over the width of a type, or zero (R167). -/
def boolCode (t : Ty) (b : Bool) : Nat := if b then 2 ^ t.bits - 1 else 0

/-- The standard, integer and data operations on codes of one type: result and flags. -/
def aluOp (op : PatOp) (t : Ty) (rm : RM) (a b c : Nat) : Nat × Nat :=
  let f := t.bin
  let x := t.val a
  let y := t.val b
  let z := t.val c
  match op with
  | .add => FVal.add f rm x y
  | .sub => FVal.add f rm x y.neg
  | .mul => FVal.mul f rm x y
  | .fma => FVal.fma f rm x y z
  | .fms => FVal.fma f rm x y z.neg
  | .fnma => FVal.fma f rm x.neg y z
  | .div => FVal.div f rm x y
  | .sqrt => FVal.sqrt f rm x
  | .min => FVal.minmax f true false x y
  | .max => FVal.minmax f false false x y
  | .minn => FVal.minmax f true true x y
  | .maxn => FVal.minmax f false true x y
  | .abs => (if x.isNan then f.qnan else a % 2 ^ (t.bits - 1), 0)
  | .neg => (if x.isNan then f.qnan else (if a / 2 ^ (t.bits - 1) % 2 = 1 then a - 2 ^ (t.bits - 1) else a + 2 ^ (t.bits - 1)), 0)
  | .cmpeq => (boolCode t (!x.isNan && !y.isNan && x.cmp y == .eq), snanFlag x y)
  | .cmplt => if x.isNan || y.isNan then (0, flagNV) else (boolCode t (x.cmp y == .lt), 0)
  | .cmple => if x.isNan || y.isNan then (0, flagNV) else (boolCode t (x.cmp y != .gt), 0)
  | .cmpun => (boolCode t (x.isNan || y.isNan), snanFlag x y)
  | .sel => (if a % 2 ^ t.bits = 0 then c else b, 0)
  | .rint => FVal.rint f rm x
  | .iadd => ((a + b) % 2 ^ 32, 0)
  | .isub => ((a + 2 ^ 32 - b % 2 ^ 32) % 2 ^ 32, 0)
  | .imul => (a * b % 2 ^ 32, 0)
  | .and => (a &&& b, 0)
  | .or => (a ||| b, 0)
  | .xor => (a ^^^ b, 0)
  | .shl => ((a <<< (b % 32)) % 2 ^ 32, 0)
  | .shr => (a >>> (b % 32), 0)
  | .sra => (ofSigned 32 (toSigned 32 a / (2 ^ (b % 32) : Nat)), 0)
  | .imin => (if t = .i32 then (if toSigned 32 a ≤ toSigned 32 b then a else b) else min a b, 0)
  | .imax => (if t = .i32 then (if toSigned 32 a ≤ toSigned 32 b then b else a) else max a b, 0)
  | _ => (a, 0)

/-- CVT (R81, R167): between integer types directly, otherwise through the exact value. -/
def cvtOp (t u : Ty) (rm : RM) (a : Nat) : Nat × Nat :=
  match u with
  | .i32 =>
    if t.isInt then
      match t.val a with
      | .fin s m _ => let r := intToRange (-2147483648) 2147483647 (signedMant s m); (ofSigned 32 r.1, r.2)
      | _ => (0, 0)
    else u.code rm (t.val a)
  | .u32 =>
    if t.isInt then
      match t.val a with
      | .fin s m _ => let r := intToRange 0 4294967295 (signedMant s m); (r.1.toNat, r.2)
      | _ => (0, 0)
    else u.code rm (t.val a)
  | _ => u.code rm (t.val a)

def PatOp.tr : PatOp → Option TrOp
  | .exp2 => some .exp2 | .exp => some .exp | .log2 => some .log2 | .log => some .log | .rcp => some .rcp
  | .rsqrt => some .rsqrt | .tanh => some .tanh | .sigm => some .sigm | .erf => some .erf | .sin => some .sin
  | .cos => some .cos | _ => none

/-- A transcendental operation: at binary16 it is computed in binary32 and rounded once to nearest (R169). The free value
picks among the results the bound allows. -/
def State.trOp (s : State) (op : TrOp) (t : Ty) (a : Nat) : (Nat × Nat) × State :=
  let d := s.draw
  let r := trResult op (t.val a) d.1
  if t = .f16 then
    let h := bin16.ofVal .ne (bin32.decode r.1)
    ((h.1, h.2 ||| r.2), d.2)
  else (r, d.2)

/-! ### Destinations (R162, R175) -/

/-- A result of one lane for its destination: the run and its lane with the value in place. `t` is the type of the code. -/
def VecRun.put (r : VecRun) (t : Ty) (rm : RM) (d : Nat) (e : Elem) (l : List Nat) (code : Nat) : VecRun × List Nat :=
  let b := r.blk
  if d ≤ 15 then
    if t = .f64 then (r, listSet (listSet l d (code % 2 ^ 32)) (d + 1) (code >>> 32))
    else (r, listSet l d (code % 2 ^ t.bits))
  else if d = 18 then
    let v := if t.isInt then (code, 0) else if t = .f32 then (code, 0) else bin32.ofVal rm (t.val code)
    ({ r with trW := mset r.trW (b.trPos e) v.1, flags := r.flags ||| v.2 }, l)
  else
    let k := d - 16
    match Fmt.ofCode (b.outFmt.getD k 0) with
    | none => (r, l)
    | some f =>
      let q := b.q e
      let row := r.row e
      -- an integer value to a floating or Gnois output passes through binary32 (R167)
      let via := if t.isInt && !f.isInt then bin32.ofVal rm (t.val code) else (code, 0)
      let v := if t.isInt && !f.isInt then bin32.decode via.1 else t.val code
      if f = .k4 then ({ r with k4 := r.k4 ++ [⟨row, q, v⟩], flags := r.flags ||| via.2 }, l)
      else
        let o := if t.isInt && f.isInt then
            match t.val code with
            | .fin s m _ =>
              let x := intToRange (-(2 ^ (f.bits - 1) : Nat)) ((2 ^ (f.bits - 1) : Nat) - 1) (signedMant s m)
              (ofSigned f.bits x.1, x.2)
            | _ => (0, 0)
          else f.write rm v
        let bitOff := q * f.bits
        ({ r with outs := r.outs ++ [⟨b.outAddr.getD k 0 + row * b.outStr.getD k 0 * 64 + bitOff / 8, bitOff % 8, f.bits, o.1⟩]
                  flags := r.flags ||| via.2 ||| o.2 }, l)

/-- A code written to an OUT in the destination's own format (QNT, R83). -/
def VecRun.putCode (r : VecRun) (d : Nat) (e : Elem) (code : Nat) : VecRun :=
  let b := r.blk
  let k := d - 16
  match Fmt.ofCode (b.outFmt.getD k 0) with
  | none => r
  | some f =>
    let bitOff := b.q e * f.bits
    { r with outs := r.outs ++ [⟨b.outAddr.getD k 0 + r.row e * b.outStr.getD k 0 * 64 + bitOff / 8, bitOff % 8, f.bits, code⟩] }

/-! ### One instruction over the lanes of a chunk -/

/-- The rounding mode of an instruction: its RM, or the run's ROUND where RM is 0 (R164). -/
def Blk.mode (b : Blk) (i : Insn) : RM := RM.ofCode (if i.rm = 0 then b.round else i.rm)

/-- State of the pass over the lanes: the state, the run, and the lanes done. -/
structure Pass where
  s : State
  r : VecRun
  done : List (List Nat)

/-- Sum of a list by a pairwise tree in index order; `fuel` bounds the levels (R171, R173). -/
def pairSum (add : Nat → Nat → Nat × Nat) : Nat → List Nat → Nat → Nat × Nat
  | _, [], fl => (0, fl)
  | _, [x], fl => (x, fl)
  | 0, x :: _, fl => (x, fl)
  | fuel + 1, xs, fl =>
    let rec level : List Nat → List Nat × Nat
      | x :: y :: t => let r := add x y; let q := level t; (r.1 :: q.1, r.2 ||| q.2)
      | [x] => ([x], 0)
      | [] => ([], 0)
    let l := level xs
    pairSum add fuel l.1 (fl ||| l.2)

/-- The exchange operations read source a of another lane of the group; an inactive lane holds zero (R171, R180). -/
def otherLane (op : PatOp) (grp lane b : Nat) : Nat :=
  let idx := lane % grp
  let base := lane - idx
  match op with
  | .lxch => base + (idx ^^^ b) % grp
  | _ => base + b % grp

/-- The indices that the lanes of a GATH or SCAT name (R170): a as INT32, the sources read in lane order as the lanes read
them. -/
def VecRun.indices (r : VecRun) (w : Nat) (i : Insn) : State → List (Nat × Elem × List Nat) → List Int
  | _, [] => []
  | s, (lane, e, l) :: rest =>
    let x := r.source s w .i32 i.a lane e l
    let s' := if i.op = .scat then (match Ty.ofCode i.ty with
      | some t => (r.source x.2 w t i.b lane e l).2
      | none => x.2) else x.2
    toSigned 32 (x.1.as .i32 (r.blk.mode i)).1 :: VecRun.indices r w i s' rest

/-- The chunk's lanes with their elements and pattern registers. -/
def VecRun.items (r : VecRun) : List (Nat × Elem × List Nat) :=
  let es := r.elems
  let ls := (natRange 0 es.length).map fun k => r.lanes.getD k (List.replicate 16 0)
  (natRange r.lane0 es.length).zip (es.zip ls)

/-- The elements of its region that a GATH or SCAT of the chunk names. -/
def VecRun.named (r : VecRun) (s : State) (w : Nat) (i : Insn) : List Nat :=
  (r.indices w i s r.items).filterMap fun (x : Int) => if 0 ≤ x ∧ x < (r.blk.glen : Int) then some x.toNat else none

/-- One lane of an instruction. `as` are the codes of source a over all lanes, for the exchange operations. -/
def Pass.lane (p : Pass) (w : Nat) (i : Insn) (t : Ty) (as : List Nat) (lane : Nat) (e : Elem) (l : List Nat) : Pass :=
  let rm := p.r.blk.mode i
  let finish := fun (s : State) (r : VecRun) (ty : Ty) (res : Nat × Nat) (bad : Bool) =>
    let o := ({ r with flags := r.flags ||| res.2, uncorr := r.uncorr || bad } : VecRun).put ty rm i.d e l res.1
    (⟨s, o.1, p.done ++ [o.2]⟩ : Pass)
  let skip := fun (s : State) (r : VecRun) => (⟨s, r, p.done ++ [l]⟩ : Pass)
  match i.op with
  | .nop => skip p.s p.r
  | .mov =>
    let x := p.r.source p.s w t i.a lane e l
    let a := x.1.as t rm
    finish x.2 p.r t a x.1.bad
  | .scale =>
    let x := p.r.source p.s w t i.a lane e l
    let y := p.r.source x.2 w t i.b lane e l
    let a := x.1.exact
    let b := y.1.exact
    let m := FVal.mul t.bin rm a.1 b.1
    finish y.2 p.r t (m.1, m.2 ||| a.2 ||| b.2) (x.1.bad || y.1.bad)
  | .cvt =>
    let x := p.r.source p.s w t i.a lane e l
    let a := x.1.as t rm
    match Ty.ofCode i.b with
    | none => skip x.2 p.r
    | some u => let r := cvtOp t u rm a.1; finish x.2 p.r u (r.1, r.2 ||| a.2) x.1.bad
  | .qnt =>
    let x := p.r.source p.s w t i.a lane e l
    let y := p.r.source x.2 w t i.b lane e l
    let z := p.r.source y.2 w t i.c lane e l
    let a := x.1.as t rm
    let b := y.1.as t rm
    let c := z.1.as t rm
    match Fmt.ofCode (p.r.blk.outFmt.getD (i.d - 16) 0) with
    | none => skip z.2 p.r
    | some f =>
      let sv := t.val b.1
      let tv := t.val c.1
      let ok := !sv.isNan && sv.cmp (.fin false 0 0) == .gt && !(f == .t2 && tv.isNan)
      let qd := if ok || (t.val a.1).isNan then (quantise f (t.val a.1) sv tv, z.2)
        else let d := z.2.draw; ((d.1 % 2 ^ f.bits, 0), d.2)
      let r : VecRun := { p.r with flags := p.r.flags ||| qd.1.2 ||| a.2 ||| b.2 ||| c.2
                                   uncorr := p.r.uncorr || x.1.bad || y.1.bad || z.1.bad }
      skip qd.2 (r.putCode i.d e qd.1.1)
  | .gath =>
    let x := p.r.source p.s w .i32 i.a lane e l
    let a := x.1.as .i32 rm
    let idx := toSigned 32 a.1
    if idx < 0 ∨ idx ≥ p.r.blk.glen then finish x.2 p.r t (0, a.2 ||| flagNV) x.1.bad
    else
      match Fmt.ofCode (p.r.blk.inFmt.getD 1 0) with
      | none => skip x.2 p.r
      | some f =>
        let v := p.r.fetch f (p.r.blk.inAddr.getD 1 0) (idx.toNat * f.bits) (p.r.blk.inExp.getD 1 0 + idx.toNat / 32)
        let c := v.as t rm
        finish x.2 p.r t (c.1, c.2 ||| a.2) (x.1.bad || v.bad)
  | .scat =>
    let x := p.r.source p.s w .i32 i.a lane e l
    let y := p.r.source x.2 w t i.b lane e l
    let a := x.1.as .i32 rm
    let b := y.1.as t rm
    let idx := toSigned 32 a.1
    let r : VecRun := { p.r with flags := p.r.flags ||| a.2 ||| b.2, uncorr := p.r.uncorr || x.1.bad || y.1.bad }
    if idx < 0 ∨ idx ≥ p.r.blk.glen then skip y.2 { r with flags := r.flags ||| flagNV }
    else
      match Fmt.ofCode (p.r.blk.outFmt.getD 1 0) with
      | none => skip y.2 r
      | some f =>
        let v := if t.isInt && !f.isInt then bin32.ofVal rm (t.val b.1) else (b.1, 0)
        let o := if t.isInt && f.isInt then
            match t.val b.1 with
            | .fin sg m _ =>
              let z := intToRange (-(2 ^ (f.bits - 1) : Nat)) ((2 ^ (f.bits - 1) : Nat) - 1) (signedMant sg m)
              (ofSigned f.bits z.1, z.2)
            | _ => (0, 0)
          else f.write rm (if t.isInt then bin32.decode v.1 else t.val b.1)
        let bo := idx.toNat * f.bits
        skip y.2 { r with outs := r.outs ++ [⟨p.r.blk.outAddr.getD 1 0 + bo / 8, bo % 8, f.bits, o.1⟩]
                          flags := r.flags ||| v.2 ||| o.2 }
  | .lxch =>
    let y := p.r.source p.s w .i32 i.b lane e l
    let b := y.1.as .i32 rm
    finish y.2 p.r t (as.getD (otherLane .lxch p.r.blk.group lane b.1) 0, b.2) y.1.bad
  | .lshf =>
    let y := p.r.source p.s w .i32 i.b lane e l
    let b := y.1.as .i32 rm
    finish y.2 p.r t (as.getD (otherLane .lshf p.r.blk.group lane b.1) 0, b.2) y.1.bad
  | .lsum =>
    let g := p.r.blk.group
    let base := lane / g * g
    let xs := (natRange base g).map fun k => as.getD k 0
    let r := pairSum (fun x y => if t.isInt then ((x + y) % 2 ^ 32, 0) else FVal.add t.bin rm (t.val x) (t.val y)) 9 xs 0
    finish p.s p.r t r false
  | op =>
    match op.tr with
    | some tr =>
      let x := p.r.source p.s w t i.a lane e l
      let a := x.1.as t rm
      let r := x.2.trOp tr t a.1
      finish r.2 p.r t (r.1.1, r.1.2 ||| a.2) x.1.bad
    | none =>
      let x := p.r.source p.s w t i.a lane e l
      let y := p.r.source x.2 w t i.b lane e l
      let z := p.r.source y.2 w t i.c lane e l
      let a := x.1.as t rm
      let two := op != .sqrt && op != .abs && op != .neg && op != .rint
      let three := op == .fma || op == .fms || op == .fnma || op == .sel
      let b := if two then y.1.as t rm else (0, 0)
      let c := if three then z.1.as t rm else (0, 0)
      let r := aluOp op t rm a.1 b.1 c.1
      finish (if three then z.2 else if two then y.2 else x.2) p.r t (r.1, r.2 ||| a.2 ||| b.2 ||| c.2)
        (x.1.bad || (two && y.1.bad) || (three && z.1.bad))

/-- Source a over all active lanes, read once for an exchange operation; flags and poison join the run. -/
def Pass.gatherA (p : Pass) (w : Nat) (i : Insn) (t : Ty) : List (Nat × Elem × List Nat) → List Nat → Pass × List Nat
  | [], acc => (p, acc)
  | (lane, e, l) :: rest, acc =>
    let x := p.r.source p.s w t i.a lane e l
    let a := x.1.as t (p.r.blk.mode i)
    Pass.gatherA ⟨x.2, { p.r with flags := p.r.flags ||| a.2, uncorr := p.r.uncorr || x.1.bad }, p.done⟩ w i t rest (acc ++ [a.1])

/-- One instruction over every active lane of the run's chunk. -/
def VecRun.insn (r : VecRun) (s : State) (w : Nat) (i : Insn) : State × VecRun :=
  match Ty.ofCode i.ty with
  | none => (s, r)
  | some t =>
    let items := r.items
    let exch := i.op == .lxch || i.op == .lshf || i.op == .lsum
    let g := if exch then Pass.gatherA ⟨s, r, []⟩ w i t items (List.replicate r.lane0 0) else (⟨s, r, []⟩, [])
    let p := items.foldl (fun (p : Pass) it => p.lane w i t g.2 it.1 it.2.1 it.2.2) g.1
    (p.s, { p.r with lanes := p.done })

/-! ### Reductions and the end of a commit unit (R173, R82) -/

/-- The tile register as the run sees it: its own writes, then the committed elements; an undefined element is free. -/
def VecRun.trRead (r : VecRun) (s : State) (w row col : Nat) : Nat × State :=
  match mget r.trW (row, col) with
  | some x => (x, s)
  | none =>
    match mget (s.wing w).tr (row, col) with
    | some x => (x, s)
    | none => let d := s.draw; (d.1 % 2 ^ 32, d.2)

/-- The elements of one result. -/
def VecRun.trList (r : VecRun) (w : Nat) : State → List (Nat × Nat) → List Nat → List Nat × State
  | s, [], acc => (acc, s)
  | s, (i, c) :: t, acc => let x := r.trRead s w i c; VecRun.trList r w x.2 t (acc ++ [x.1])

/-- One reduction step on codes of RED_TYPE. -/
def redStep (op : Nat) (int : Bool) (rm : RM) (a b : Nat) : Nat × Nat :=
  if int then
    let x := toSigned 32 a
    let y := toSigned 32 b
    match op with
    | 1 =>
      let v := x + y
      (ofSigned 32 (satSigned 32 v), if satSigned 32 v = v then 0 else flagOF)
    | 2 => (if x ≤ y then b else a, 0)
    | 3 => (if x ≤ y then a else b, 0)
    | _ => (if x.natAbs ≤ y.natAbs then ofSigned 32 y.natAbs else ofSigned 32 x.natAbs, 0)
  else
    let x := bin32.decode a
    let y := bin32.decode b
    match op with
    | 1 => FVal.add bin32 rm x y
    | 2 => FVal.minmax bin32 false false x y
    | 3 => FVal.minmax bin32 true false x y
    | _ => FVal.minmax bin32 false false x.abs y.abs

/-- One result: SUM pairwise in index order, the others in index order. A single element is taken as an operand too, so that a
NaN result is the canonical one and AMAX a magnitude (R79). -/
def redList (op : Nat) (int : Bool) (rm : RM) (xs : List Nat) : Nat × Nat :=
  match op, xs with
  | 1, [x] => redStep 2 int rm x x
  | 1, xs => pairSum (redStep 1 int rm) 9 xs 0
  | _, [] => (0, 0)
  | op, x :: t =>
      let x0 := redStep op int rm x x
      t.foldl (fun a y => let r := redStep op int rm a.1 y; (r.1, r.2 ||| a.2)) x0

/-- The reduction of a run's commit unit. -/
def VecRun.reduce (r : VecRun) (s : State) (w : Nat) : State × VecRun :=
  let b := r.blk
  if b.redOp = 0 then (s, r) else
  let cols := if b.srcAcc then (maskArrays b.mask).length * b.ncol else b.ncol
  let lists := if b.redAxis = 0 then (List.range b.rows).map fun i => (List.range cols).map fun c => (i, c)
    else (List.range cols).map fun c => (List.range b.rows).map fun i => (i, c)
  let n := lists.length
  let step := fun (acc : State × VecRun × Nat) (ps : List (Nat × Nat)) =>
    let x := r.trList w acc.1 ps []
    let v := redList b.redOp b.redInt (RM.ofCode b.round) x.1
    (x.2, { acc.2.1 with
            outs := acc.2.1.outs ++ [⟨b.redAddr + r.rep * 4 * n + 4 * acc.2.2, 0, 32, v.1⟩]
            flags := acc.2.1.flags ||| v.2 }, acc.2.2 + 1)
  let z := lists.foldl step (s, r, 0)
  (z.1, z.2.1)

/-- The blocks of a K4 OUT0, converted once each is whole (R82, R175). -/
def VecRun.finishK4 (r : VecRun) : VecRun :=
  let b := r.blk
  let keys := (r.k4.map fun x => (x.row, x.col / 32)).eraseDups
  keys.foldl (fun r k =>
    let es := r.k4.filter fun x => x.row == k.1 && x.col / 32 == k.2
    let o := writeK4 (es.map (·.v))
    let elems := (es.zip o.2.1).map fun p =>
      (⟨b.outAddr.getD 0 0 + k.1 * b.outStr.getD 0 0 * 64 + p.1.col / 2, p.1.col % 2 * 4, 4, p.2⟩ : OutElem)
    { r with outs := r.outs ++ elems ++ [⟨b.outExp + k.1 * (b.ncol / 32) + k.2, 0, 8, o.1⟩], flags := r.flags ||| o.2.2 }) r

/-- Writing one staged element into memory. -/
def State.putElem (s : State) (x : OutElem) : State :=
  let n := (x.bit + x.w + 7) / 8
  let old := s.readNat x.addr n
  let v := old - (bitsAt old x.bit x.w) <<< x.bit + (x.v % 2 ^ x.w) <<< x.bit
  s.store x.addr (leBytes n v)

/-- Whether a staged element writes bit `k` of memory. -/
def OutElem.covers (o : OutElem) (k : Nat) : Bool := decide (o.addr * 8 + o.bit ≤ k) && decide (k < o.addr * 8 + o.bit + o.w)

/-- The staged elements of one sector; where they write all of it, the sector is written whole and loses its poison (R240). -/
def State.putSector (s : State) (os : List OutElem) (x : Nat) : State :=
  let mine := os.filter fun o => o.addr / 64 * 64 == x
  let t := foldS mine (fun o s => s.putElem o) s
  if (List.range 512).all fun k => mine.any fun o => o.covers (8 * x + k) then s.store x (t.readBytes x 64) else t

/-- Staged elements made visible, sector by sector. -/
def State.putOuts (s : State) (os : List OutElem) : State :=
  foldS ((os.map fun o => o.addr / 64 * 64).eraseDups) (fun x s => s.putSector os x) s

end Sys2Proof.Machine
end

