-- ==== Sys2Proof/Machine/VecBlock.lean ====
section
/-! DEFINITION. The VEC_RUN block (R155 to R165, R179, R180): its fields, its clamps, its pattern in native operand codes, and
the refusal cases of Table 6-4. -/

namespace Sys2Proof.Machine

/-- Opcodes of Table 6-8 by number. -/
def PatOp.table : List (Nat × PatOp) :=
  [(0x00, .nop), (0x01, .mov), (0x02, .add), (0x03, .sub), (0x04, .mul), (0x05, .fma), (0x06, .fms), (0x07, .fnma),
   (0x08, .div), (0x09, .sqrt), (0x0A, .min), (0x0B, .max), (0x0C, .minn), (0x0D, .maxn), (0x0E, .abs), (0x0F, .neg),
   (0x10, .cmpeq), (0x11, .cmplt), (0x12, .cmple), (0x13, .cmpun), (0x14, .sel), (0x15, .scale), (0x16, .cvt)] ++
  [(0x17, .rint), (0x18, .qnt), (0x20, .iadd), (0x21, .isub), (0x22, .imul), (0x23, .and), (0x24, .or), (0x25, .xor),
   (0x26, .shl), (0x27, .shr), (0x28, .sra), (0x29, .imin), (0x2A, .imax), (0x30, .exp2), (0x31, .exp), (0x32, .log2),
   (0x33, .log), (0x34, .rcp), (0x35, .rsqrt), (0x36, .tanh), (0x37, .sigm), (0x38, .erf), (0x39, .sin), (0x3A, .cos),
   (0x3C, .gath), (0x3D, .scat), (0x3E, .lxch), (0x3F, .lsum)]

/-- The operation of an opcode: native, or in the Aqsal profile as Table 6-12 maps it. -/
def PatOp.ofCode (aqsal : Bool) (x : Nat) : Option PatOp :=
  if aqsal then
    if x = 0x17 ∨ x = 0x18 ∨ x < 0x17 then mget PatOp.table x
    else if x = 0x3E then some .lshf
    else if x = 0x3C ∨ x = 0x3D then none
    else mget PatOp.table x
  else mget PatOp.table x

/-- Classes of Table 6-8. -/
inductive PatCls where
  | std | trans | int | data
  deriving DecidableEq, Repr

def PatOp.cls : PatOp → PatCls
  | .nop => .data | .mov => .data | .sel => .data | .qnt => .data | .gath => .data | .scat => .data
  | .lxch => .data | .lshf => .data | .lsum => .data
  | .iadd => .int | .isub => .int | .imul => .int | .and => .int | .or => .int | .xor => .int | .shl => .int
  | .shr => .int | .sra => .int | .imin => .int | .imax => .int
  | .exp2 => .trans | .exp => .trans | .log2 => .trans | .log => .trans | .rcp => .trans | .rsqrt => .trans
  | .tanh => .trans | .sigm => .trans | .erf => .trans | .sin => .trans | .cos => .trans
  | _ => .std

/-- How many of the sources a, b, c an operation reads; a CVT's B is a TYPE. -/
def PatOp.arity : PatOp → Nat
  | .nop => 0
  | .mov => 1 | .sqrt => 1 | .abs => 1 | .neg => 1 | .cvt => 1 | .rint => 1 | .gath => 1 | .lsum => 1
  | .fma => 3 | .fms => 3 | .fnma => 3 | .sel => 3 | .qnt => 3
  | o => if o.cls = .trans then 1 else 2

/-- Cost of Table 6-8 in vector steps per chunk; GATH and SCAT are costed by their addresses (R170). -/
def PatOp.cost : PatOp → Nat
  | .div => 4 | .sqrt => 4 | .lxch => 2 | .lshf => 2 | .lsum => 8
  | o => if o.cls = .trans then 2 else 1

/-- Whether an operation has a destination. -/
def PatOp.writes : PatOp → Bool
  | .nop => false | .scat => false | _ => true

/-- Table 6-7: the classes a TYPE allows. -/
def typeAllows (o : PatOp) (ty : Nat) : Bool :=
  match ty with
  | 0 => o.cls != .int
  | 1 => (o.cls == .std && o != .scale) || (o.cls == .data && o != .gath && o != .scat)
  | 2 => o.cls == .int || o.cls == .data || o == .cvt
  | 3 => o.cls != .int
  | 4 => o.cls == .int || o.cls == .data || o == .cvt
  | _ => false

/-- Aqsal source codes (Table 6-11) in native codes; LANE is 32. -/
def aqsalSrc (x : Nat) : Nat :=
  if x ≤ 7 then x else if x ≤ 10 then x + 8 else if x = 11 then 32 else x + 12

/-- Aqsal destinations in native codes; 31 stands for a reserved one. -/
def aqsalDst (x : Nat) : Nat := if x ≤ 7 then x else if x ≤ 9 then x + 8 else 31

/-- An instruction word by its profile, with whether its RM was clamped and whether it breaks the zero field of Table 6-11. -/
structure RawInsn where
  op : Option PatOp
  i : Insn
  rmClamp : Bool
  badZero : Bool
  deriving DecidableEq, Repr

def rawInsn (aqsal : Bool) (x : Nat) : RawInsn :=
  let o := PatOp.ofCode aqsal (bitsAt x 26 6)
  let p := o.getD .nop
  if aqsal then
    let rm := bitsAt x 7 3
    ⟨o, ⟨p, aqsalDst (bitsAt x 22 4), aqsalSrc (bitsAt x 18 4), if p = .cvt then bitsAt x 14 4 else aqsalSrc (bitsAt x 14 4),
      aqsalSrc (bitsAt x 10 4), if rm > 4 then 0 else rm, if p.cls = .int then 2 else 0⟩, decide (rm > 4), x % 128 != 0⟩
  else
    let rm := bitsAt x 3 3
    ⟨o, ⟨p, bitsAt x 21 5, bitsAt x 16 5, bitsAt x 11 5, bitsAt x 6 5, if rm > 4 then 0 else rm, x % 8⟩, decide (rm > 4), false⟩

/-- Sources an instruction reads. -/
def Insn.srcs (i : Insn) : List Nat := [i.a, i.b, i.c].take i.op.arity

/-! ### Fields and clamps (R155, R158, R160) -/

/-- What a MATMUL gives the block of its epilogue (R158): mask, rows, first column, columns, groups, output stride. -/
structure EpiArgs where
  mask : Nat
  rows : Nat
  colBase : Nat
  ncol : Nat
  groups : Nat
  outStride : Nat
  deriving DecidableEq, Repr

/-- A block as read: fields, pattern words, and offsets of the fields clamped, in the order of Table 6-3. -/
structure BlkRead where
  blk : Blk
  raw : List RawInsn
  clamps : List Nat
  deriving DecidableEq, Repr

def word64 (bs : List Byte) (off : Nat) : Nat := leNat ((bs.drop off).take 8)

def fmtBits (x : Nat) : Nat := match Fmt.ofCode x with | some f => f.bits | none => 0

/-- The least stride that holds a row's last column (Table 6-3). -/
def leastStride (cols fmt : Nat) : Nat := ((cols * fmtBits fmt + 7) / 8 + 63) / 64

/-- Reading and clamping a block: `adj` are IN_ADJ and OUT_ADJ (R157). -/
def readBlk (bs : List Byte) (epi : Option EpiArgs) (inAdj outAdj : Nat) : BlkRead :=
  let w0 := word64 bs 0
  let w1 := word64 bs 8
  let cl := fun (c : Bool) (off x y : Nat) (l : List Nat) => if c then (y, l ++ [off]) else (x, l)
  let (plen, cs) := cl (bitsAt w0 0 7 == 0) 0x00 (bitsAt w0 0 7) 1 []
  let (plen, cs) := cl (decide (plen > 64)) 0x00 plen 64 cs
  let (rnd, cs) := cl (decide (bitsAt w0 8 3 > 4)) 0x01 (bitsAt w0 8 3) 0 cs
  let profile := bitsAt w0 14 1
  let raw := (List.range plen).map fun k => rawInsn (profile == 1) (leNat ((bs.drop (0x80 + 4 * k)).take 4))
  let cs := cs ++ ((List.range plen).filter fun k => match raw[k]? with | some r => r.rmClamp | none => false).map (0x80 + 4 * ·)
  let (aqw, cs) := cl (bitsAt w0 16 2 == 3) 0x02 (bitsAt w0 16 2) 2 cs
  let acc := epi.isSome || bitsAt w0 12 1 == 1
  let colBase := match epi with | some e => e.colBase | none => bitsAt w0 32 6
  let rowsM := bitsAt w0 24 8
  let (rowsM, cs) := match epi with | some e => (e.rows - 1, cs) | none => cl (decide (rowsM > 127)) 0x03 rowsM 127 cs
  let (ncol, cs) := match epi with
    | some e => (e.ncol, cs)
    | none =>
      let n := bitsAt w0 38 7
      if n = 0 then (1, cs ++ [0x04]) else cl (decide (n > 64 - colBase)) 0x04 n (64 - colBase) cs
  let (red, cs) := cl (decide (bitsAt w1 0 3 > 4)) 0x08 (bitsAt w1 0 3) 0 cs
  let mask := match epi with | some e => e.mask | none => if acc then bitsAt w0 20 4 else 0
  let na := if acc then (maskArrays mask).length else 1
  let aCols := bitsAt (word64 bs 0x40) 0 16
  let (aCols, cs) := cl (decide (acc = true ∧ na > 1 ∧ aCols < ncol)) 0x40 aCols ncol cs
  let cols := (na - 1) * (if acc then aCols else 0) + ncol
  let opw := [word64 bs 0x10, word64 bs 0x18, word64 bs 0x20, word64 bs 0x28]
  let en := opw.map fun x => bitsAt x 52 1 == 1
  let fmts := opw.map fun x => bitsAt x 48 4
  let strs := (List.range 4).map fun k =>
    let x := opw.getD k 0
    let least := leastStride cols (fmts.getD k 0)
    let str := bitsAt x 53 11
    if en.getD k false && decide (str < least) then (least, true) else (str, false)
  let cs := cs ++ ((List.range 4).filter fun k => (strs.getD k (0, false)).2).map fun k => 0x16 + 8 * k
  let addr := fun (k adj : Nat) => (bitsAt (opw.getD k 0) 0 48 + adj) % 2 ^ 64
  let str := fun (k : Nat) => (strs.getD k (0, false)).1
  ⟨{ plen := plen, round := rnd, srcAcc := acc, release := epi.isSome || bitsAt w0 13 1 == 1
     profile := profile, aqWidth := aqw, mask := mask, rows := rowsM + 1, colBase := colBase, ncol := ncol
     reps := if acc then 1 else bitsAt w0 48 16 + 1
     redOp := red, redAxis := bitsAt w1 4 1, redInt := bitsAt w1 5 1 == 1, redAddr := bitsAt w1 16 48
     inAddr := [addr 0 inAdj, addr 1 inAdj], inFmt := fmts.take 2, inEn := en.take 2, inStr := [str 0, str 1]
     outAddr := [addr 2 outAdj, addr 3 outAdj], outFmt := fmts.drop 2, outEn := en.drop 2, outStr := [str 2, str 3]
     cv := bitsAt (word64 bs 0x30) 0 48, rv := bitsAt (word64 bs 0x38) 0 48
     aCols := aCols, gCols := bitsAt (word64 bs 0x40) 16 16, glen := bitsAt (word64 bs 0x40) 32 32
     outExp := bitsAt (word64 bs 0x48) 0 48
     inExp := [bitsAt (word64 bs 0x50) 0 48, bitsAt (word64 bs 0x58) 0 48]
     kk := (List.range 8).map fun k => leNat ((bs.drop (0x60 + 4 * k)).take 4) }, raw, cs⟩

/-! ### Refusal (R161, Table 6-4) -/

/-- A refusal of Table 6-4: cause code and instruction index, 0xFF outside the pattern. -/
structure VecRefuse where
  cause : Nat
  insn : Nat := 0xFF
  deriving DecidableEq, Repr

/-- Status of a cause (Table 6-4). -/
def vecStatus (cause : Nat) : Nat := if cause ≤ 2 then 0x12 else if cause = 6 then 0x13 else 0x14

/-- The first instruction that meets a test. -/
def firstInsn (raw : List RawInsn) (p : RawInsn → Bool) : Option Nat :=
  (List.range raw.length).find? fun k => match raw[k]? with | some r => p r | none => false

/-- Cause 4: a reserved source or destination code, a disabled IN, an odd register in a binary64 instruction. A disabled OUT
is taken like a disabled IN, and GATH and SCAT use the IN1 and OUT1 regions (log entry 26). -/
def RawInsn.badCode (r : RawInsn) (b : Blk) (aqsal : Bool) : Bool :=
  let i := r.i
  let ss := i.srcs
  let wr := i.op.writes
  let inOff := fun (k : Nat) => !(b.inEn.getD k false)
  let outOff := fun (k : Nat) => !(b.outEn.getD k false)
  (aqsal && r.badZero) ||
  (wr && (if aqsal then decide (i.d = 31) else decide (i.d ≥ 19))) ||
  (ss.contains 17 && inOff 0) || (ss.contains 18 && inOff 1) || (i.op == .gath && inOff 1) ||
  (wr && i.d == 16 && outOff 0) || (wr && i.d == 17 && outOff 1) || (i.op == .scat && outOff 1) ||
  (i.ty == 1 && (ss.any (fun c => decide (c ≤ 15) && c % 2 == 1) || (wr && decide (i.d ≤ 15) && i.d % 2 == 1))) ||
  -- a CVT to binary64 writes a register pair
  (i.op == .cvt && i.b == 1 && decide (i.d ≤ 15) && i.d % 2 == 1)

/-- Bytes of a memory operand's rows from its address on. -/
def operandBytes (rows cols stride fmt : Nat) : Nat := (rows - 1) * stride * 64 + (cols * fmtBits fmt + 7) / 8

/-- Logical columns of a row (R156). -/
def Blk.cols (b : Blk) : Nat := (if b.srcAcc then (maskArrays b.mask).length - 1 else 0) * b.aCols + b.ncol

/-- Memory rows of the whole run. -/
def Blk.memRows (b : Blk) : Nat := if b.srcAcc then b.rows else b.reps * b.rows

/-- Grid columns in the tile register's layout. -/
def Blk.trCols (b : Blk) : Nat := (if b.srcAcc then (maskArrays b.mask).length else 1) * b.ncol

/-- Results of one reduction. -/
def Blk.redCount (b : Blk) : Nat := if b.redAxis = 0 then b.rows else b.trCols

/-- Cause 2 for one group: `gq` columns and `go` bytes of advance (R158). -/
def State.vecPlaces (s : State) (w : Nat) (b : Blk) (scat : Bool) (gq go : Nat) : Bool :=
  let own := fun (a n : Nat) => inTileOf w (s.xlat a) n && s.tileUp w
  let ins := [0, 1].all fun k =>
    if b.inEn.getD k false then
      let f := b.inFmt.getD k 0
      own (b.inAddr.getD k 0) (operandBytes b.memRows (b.cols + gq) (b.inStr.getD k 0) f) &&
      (f != 7 || own (b.inExp.getD k 0) ((b.memRows - 1) * b.inStr.getD k 0 * 4 + (b.cols + gq + 31) / 32))
    else true
  let outs := [0, 1].all fun k =>
    if b.outEn.getD k false then
      let f := b.outFmt.getD k 0
      s.backed (s.xlat (b.outAddr.getD k 0 + go)) (operandBytes b.memRows b.cols (b.outStr.getD k 0) f) &&
      (k == 1 || f != 7 || s.backed (s.xlat b.outExp) (b.memRows * (b.ncol / 32)))
    else true
  ins && outs && (b.cv == 0 || own b.cv (4 * (b.cols + gq))) && (b.rv == 0 || own b.rv (4 * b.rows)) &&
    (b.redOp == 0 || own b.redAddr (4 * b.redCount * b.reps)) &&
    (!scat || own (b.outAddr.getD 1 0) ((b.glen * fmtBits (b.outFmt.getD 1 0) + 7) / 8))

/-- Bytes one commit unit may write (R176). A SCAT region counts whole (log entry 146). -/
def Blk.unitBytes (b : Blk) (grid0 grid1 scat : Bool) : Nat :=
  let o := fun (k : Nat) => b.rows * (b.trCols / b.ncol * ((b.ncol * fmtBits (b.outFmt.getD k 0) + 7) / 8))
  (if grid0 then o 0 else 0) + (if grid1 then o 1 else 0) +
  (if grid0 && b.outFmt.getD 0 0 == 7 then b.rows * (b.ncol / 32) else 0) +
  (if b.redOp = 0 then 0 else 4 * b.redCount) +
  (if scat then (b.glen * fmtBits (b.outFmt.getD 1 0) + 7) / 8 else 0)

/-- The checks of Table 6-4 beyond cause 1, in the order of their codes. `chain a c` says whether a column's chain will be
open when the run reads it. -/
def State.vecCheck (s : State) (w : Nat) (r : BlkRead) (epi : Option EpiArgs) (chain : Nat → Nat → Bool) : Option VecRefuse :=
  let b := r.blk
  let aq := b.profile == 1
  let raw := r.raw
  let scat := raw.any fun x => x.i.op == .scat
  let grid := fun (k : Nat) => raw.filter fun x => x.i.op.writes && x.i.d == 16 + k
  let isW := fun (f : Nat) => decide (f ≤ 2)
  let groups := match epi with | some e => List.range e.groups | none => [0]
  let place := groups.all fun g =>
    match epi with
    | some e => s.vecPlaces w b scat (g * b.gCols) (g * e.outStride)
    | none => s.vecPlaces w b scat 0 0
  let outBad := [0, 1].any fun k =>
    let f := b.outFmt.getD k 0
    (b.outEn.getD k false &&
      ((f == 7 && (k == 1 || b.srcAcc || (b.ncol != 32 && b.ncol != 64))) ||
       (decide (fmtBits f < 8) && f != 7 && (b.ncol * fmtBits f % 8 != 0 || (b.srcAcc && b.aCols * fmtBits f % 8 != 0)))))
  let insnBad := fun (x : RawInsn) =>
    let toOut := x.i.op.writes && (x.i.d == 16 || x.i.d == 17)
    (toOut && x.i.op != .qnt && isW (b.outFmt.getD (x.i.d - 16) 0)) || (x.i.op == .scat && isW (b.outFmt.getD 1 0)) ||
    (x.i.op == .qnt && !(toOut && isW (b.outFmt.getD (x.i.d - 16) 0)))
  -- a second grid write to one OUT, or SCAT and a grid write of OUT1 in either order
  let again := (List.range raw.length).find? fun k =>
    match raw[k]? with
    | none => false
    | some x =>
      let past := raw.take k
      let hits := fun (d : Nat) => past.any fun y => y.i.op.writes && y.i.d == d
      (x.i.op.writes && ((x.i.d == 16 && hits 16) || (x.i.d == 17 && (hits 17 || past.any fun y => y.i.op == .scat)))) ||
      (x.i.op == .scat && hits 17)
  let usesTr := fun (x : RawInsn) => !aq && (x.i.srcs.contains 19 || (x.i.op.writes && x.i.d == 18))
  let usesAcc := fun (x : RawInsn) => x.i.srcs.contains 16
  let closed := epi.isNone && b.srcAcc &&
    (maskArrays b.mask).any fun a => (natRange b.colBase b.ncol).any fun c => !chain a c
  if !place then some ⟨2, 0xFF⟩ else
  match firstInsn raw (fun x => x.op.isNone) with
  | some k => some ⟨3, k⟩
  | none =>
  match firstInsn raw (fun x => x.badCode b aq) with
  | some k => some ⟨4, k⟩
  | none =>
  match firstInsn raw (fun x => !typeAllows x.i.op x.i.ty || (x.i.op == .cvt && decide (x.i.b > 4))) with
  | some k => some ⟨5, k⟩
  | none =>
  -- R61: a code carried by an operand that is not in use is refused too
  if [0, 1].any (fun k => decide (b.inFmt.getD k 0 ≥ 0xE) || decide (b.outFmt.getD k 0 ≥ 0xE)) then some ⟨6, 0xFF⟩ else
  match (match firstInsn raw insnBad, again with | some i, some j => some (min i j) | some i, none => some i | none, x => x) with
  | some k => some ⟨7, k⟩
  | none =>
  if outBad then some ⟨7, 0xFF⟩ else
  if b.redOp != 0 && (aq || decide (b.trCols > 64)) then some ⟨8, 0xFF⟩ else
  match (if decide (b.trCols > 64) then firstInsn raw usesTr else none) with
  | some k => some ⟨8, k⟩
  | none =>
  match (if b.srcAcc then none else firstInsn raw usesAcc) with
  | some k => some ⟨9, k⟩
  | none =>
  if closed then some ⟨9, 0xFF⟩ else
  if b.unitBytes (decide ((grid 0).length > 0)) (decide ((grid 1).length > 0)) scat > 0x40000 then some ⟨10, 0xFF⟩ else none

/-- Fetching a block (R159): cause 1, or its fields with whether it reads poison. -/
def State.fetchBlk (s : State) (w addr : Nat) (epi : Option EpiArgs) (inAdj outAdj : Nat) : Option (BlkRead × Bool) :=
  let a := s.xlat addr
  let plen := (s.readNat a 1) % 128
  let n := 0x80 + 4 * (if plen = 0 then 1 else if plen > 64 then 64 else plen)
  if a % 64 = 0 ∧ (s.inHbm a n ∨ (inTileOf w a n ∧ s.tileUp w)) then
    some (readBlk (s.readBytes a n) epi inAdj outAdj, s.poisoned a n)
  else none

/-- The native pattern of a block. -/
def BlkRead.pat (r : BlkRead) : List Insn := r.raw.map (·.i)

/-- Addresses of a block as the run uses them: translated under R221, advanced for group `g` of an epilogue (R158). -/
def Blk.placed (b : Blk) (x : Nat → Nat) (g outStride : Nat) : Blk :=
  { b with
    inAddr := b.inAddr.map x, inExp := b.inExp.map x
    outAddr := b.outAddr.map fun a => x (a + g * outStride)
    outExp := x b.outExp, redAddr := x b.redAddr, cv := x b.cv, rv := x b.rv
    grpQ := g * b.gCols }

end Sys2Proof.Machine
end

