-- ==== Sys2Proof/Machine/Wing.lean ====
section
/-! DEFINITION. The wings (R90 to R113, R154, R176, R177) and the runner (R128 to R138): tiles, chains, array steps, checks,
vector runs, stream descriptors and instances. -/

namespace Sys2Proof.Machine

/-! ### Reading and writing a wing -/

/-- READY and BUSY follow the commands dispatched (Table 4-7). -/
def State.wingBusy (s : State) (w : Nat) : State :=
  if s.wingState w = 2 ∨ s.wingState w = 3 then s.setWingState w 
    (if (s.wing w).jobs.isEmpty && !(s.qe.replay.any fun p => p.1 == w) then 2 else 3) else s

/-- The tiles held are those WNG_STATUS reports (R106). -/
def State.setTiles (s : State) (w : Nat) (x : WingSt) : State :=
  let s := s.setWing w x
  let s := s.setF F.WNG_STATUS_HALF0_VALID (if x.half0.isSome then 1 else 0) w
  let s := s.setF F.WNG_STATUS_HALF1_VALID (if x.half1.isSome then 1 else 0) w
  s.setF F.WNG_STATUS_WHOLE_VALID (if x.whole.isSome then 1 else 0) w

def State.col (s : State) (w a c : Nat) : ColSt := mgetD (s.wing w).cols (a, c) {}
def State.setCol (s : State) (w a c : Nat) (x : ColSt) : State :=
  let v := s.wing w
  s.setWing w { v with cols := mset v.cols (a, c) x }

/-- Closing a chain makes the column's contents undefined, except that a release keeps them (R97). -/
def ColSt.close (c : ColSt) (keep : Bool) : ColSt :=
  { c with opened := false, ent := if keep then c.ent else none, cmds := [], chk := .none }

/-- A column passes under R110: its most recent check has passed or skipped it, or checks are off (R113). -/
def State.colPassed (s : State) (w a c : Nat) : Bool :=
  s.f F.WNG_TB_CTRL_ENABLE w == 0 || (s.col w a c).chk == .passed

/-! ### A MATMUL's shape -/

def MatJob.arrs (m : MatJob) : List Nat := maskArrays m.mask
def MatJob.slabs (m : MatJob) : Nat := (m.depth + m.mode.k - 1) / m.mode.k
def MatJob.colOf (m : MatJob) (g c : Nat) : Nat := m.colBase + (if m.groups > 1 then 32 * (g % 2) else 0) + c

/-- Every column the job targets. -/
def MatJob.cols (m : MatJob) : List Nat :=
  if m.mask = 0 then [] else
  (natRange m.colBase m.ncol) ++ (if m.groups > 1 then natRange (m.colBase + 32) m.ncol else [])

/-- Columns a vector job reads. -/
def VecJob.cols (v : VecJob) : List Nat := if v.blk.srcAcc then natRange v.blk.colBase v.blk.ncol else []

def Job.key : Job → Nat × Nat
  | .mat m => (m.q, m.seq)
  | .vec v => (v.q, v.seq)

def overlap (xs ys : List Nat) : Bool := xs.any fun x => ys.contains x

/-- The buffers a job uses: half 0, half 1. -/
def MatJob.halves (m : MatJob) : List Nat := if m.wide then [0, 1] else [if m.abuf = 0 then 0 else 1]

/-- Replacing a job in place. -/
def State.setJob (s : State) (w : Nat) (j : Job) : State :=
  let v := s.wing w
  s.setWing w { v with jobs := v.jobs.map fun x => if x.key = j.key then j else x }

/-- The tile a job would step on. -/
def WingSt.tileFor (v : WingSt) (m : MatJob) : Option Tile :=
  if m.wide then v.whole else if m.abuf = 0 then v.half0 else v.half1

/-- Putting a tile where a job loads it: a WIDE load ends both halves, a half load ends the whole (R106). -/
def WingSt.putTile (v : WingSt) (m : MatJob) (t : Option Tile) : WingSt :=
  if m.wide then { v with whole := t, half0 := none, half1 := none }
  else if m.abuf = 0 then { v with half0 := t, whole := none } else { v with half1 := t, whole := none }

/-! ### Loads (R105, R106) -/

/-- Row sums over the first `rows` rows of a tile (R86, R105). -/
def tileSums (m : Mode) (data : List (List Nat)) (depth rows : Nat) : List RowSum :=
  (List.range depth).map fun k => rowSum m.afmt m.int ((data.take rows).map fun r => r.getD k 0)

/-- The jobs before a given one, in dispatch order. -/
def before (js : List Job) (k : Nat × Nat) : List Job := js.takeWhile fun j => j.key ≠ k

/-- A domain that a load advances with is held, or a pass examines it (R105). -/
def State.loadStops (s : State) (d : Nat) : Bool := s.held d || s.examined d

/-- The load of a job may run: no earlier job still to load or to use the buffer (Table 4-3), and no domain it uses is held. -/
def State.loadReady (s : State) (w : Nat) (m : MatJob) : Bool :=
  m.aload && !m.loaded && !s.loadStops (6 * w + 5) && (List.range 4).all (fun a => !s.loadStops (6 * w + a)) &&
  (before (s.wing w).jobs (m.q, m.seq)).all fun j =>
    match j with
    | .mat e => !(overlap e.halves m.halves) || (e.mask == 0 && (e.loaded || !e.aload))
    | .vec _ => true

/-- The load itself: rows read from the tile store, row sums formed (R105). -/
def State.loadTile (s : State) (w : Nat) (m : MatJob) : State :=
  let bits := m.mode.afmt.bits
  let n := (m.depth * bits + 7) / 8
  let rowAt := fun (i : Nat) => tileAddr w (m.atile + i * m.astride * 64)
  let s := foldS (List.range m.rows) (fun i s => s.checkRead (rowAt i) n (Master.mk 1 w).code atCmd) s
  let bad := (List.range m.rows).any fun i => s.poisoned (rowAt i) n
  let data := (List.range m.rows).map fun i =>
    let bs := s.readBytes (rowAt i) n
    (List.range m.depth).map fun k => codeAt bs bits k
  let t : Tile := ⟨m.mode.afmt, m.rows, m.depth, data, m.rows, tileSums m.mode data m.depth m.rows⟩
  let s := s.setTiles w ((s.wing w).putTile m (some t))
  s.setJob w (.mat { m with loaded := true, uncorr := m.uncorr || bad })

/-! ### Array steps (R91 to R99) -/

/-- The job whose turn it is to step: the first with arrays still to step. -/
def WingSt.stepJob (v : WingSt) : Option MatJob :=
  v.jobs.findSome? fun j =>
    match j with
    | .mat m => if m.mask ≠ 0 ∧ !m.stepped then some m else none
    | .vec _ => none

/-- An earlier reader of a column that is not complete: a vector run, or another MATMUL's epilogues (Table 4-3). -/
def earlierReader (js : List Job) (m : MatJob) (c : Nat) : Bool :=
  (before js (m.q, m.seq)).any fun j =>
    match j with
    | .vec v => v.blk.srcAcc && !v.done && overlap (maskArrays v.blk.mask) m.arrs && v.cols.contains c
    | .mat e => e.epi.isSome && decide (e.epiDone < e.groups) && overlap e.arrs m.arrs && e.cols.contains c

/-- An earlier load into the buffer a job steps on that has not run: the job steps on the tile it brings (R106). -/
def earlierLoad (js : List Job) (m : MatJob) : Bool :=
  (before js (m.q, m.seq)).any fun j =>
    match j with
    | .mat e => e.aload && !e.loaded && overlap e.halves m.halves
    | .vec _ => false

/-- A check of a column is due (R109, R113). -/
def State.checkDue (s : State) (w a c : Nat) : Bool := (s.col w a c).chk == .pending && s.f F.WNG_TB_CTRL_ENABLE w == 1

/-- Conditions of an array step (R35, R91, R99, R107, Table 4-3; log entry 131). -/
def State.stepReady (s : State) (w : Nat) (m : MatJob) : Bool :=
  let v := s.wing w
  let c := m.colOf m.g m.c
  s.wingState w == 3 && (!m.aload || m.loaded) && !earlierLoad v.jobs m && (v.tileFor m).isSome &&
  m.arrs.all (fun a => !s.held (6 * w + a) && decide ((v.fifo.getD a []).length ≥ m.mode.wBytes)) &&
  (m.epi.isNone || decide (m.g ≤ m.epiDone + 1)) &&
  (m.j != 0 || (!earlierReader v.jobs m c && m.arrs.all fun a => !s.checkDue w a c))

/-- `n` free 32-bit values: undefined accumulator entries. -/
def State.drawN : Nat → State → List Nat → List Nat × State
  | 0, s, acc => (acc, s)
  | n + 1, s, acc => let d := s.draw; State.drawN n d.2 (acc ++ [d.1 % 2 ^ 32])

/-- The first step of a MATMUL into a column (R97): ACC_MODE 0 opens a chain, rows below M_ROWS starting from zero; rows at
and above it are unchanged. ACC_MODE 1 continues the chain. -/
def State.openCol (s : State) (w a c : Nat) (m : MatJob) : State :=
  let x := s.col w a c
  if m.acc = 0 then
    let es := match x.ent with
      | some es => (es, s)
      | none => let d := State.drawN (128 - m.rows) s []; (List.replicate m.rows 0 ++ d.1, d.2)
    let ent := List.replicate m.rows 0 ++ es.1.drop m.rows
    es.2.setCol w a c { opened := true, int := m.mode.int, ent := some ent, mats := 1, rows := m.rows, cmds := [(m.q, m.seq)] }
  else
    s.setCol w a c { x with mats := x.mats + 1, rows := m.rows, cmds := x.cmds ++ [(m.q, m.seq)], chk := .none }

/-- One row of a DPU step: entry, flags and the pair (c, u) for the bound B; `free`: what an entry that is no number becomes. -/
def dpuStep (m : Mode) (n : Nat) (acc free : Nat) (act wt : List Nat) : Nat × Nat × (Nat × Int) :=
  let ps := slabProducts m n act wt
  let fl := slabFlags m n act wt
  if m.int then let r := accInt acc (sumInt ps); (r.1, r.2 ||| fl, (0, 0))
  else
    let x := sumAligned m.ff m.gg ps
    let r := accF32 acc x.v x.u free
    (r.1, r.2 ||| fl, (x.c, x.u))

/-- The flags that exempt a column (R89). -/
def exemptFlags (fl : Nat) : Bool := fl &&& (flagSAT ||| flagFLUSH) != 0

/-- What faulty DPUs leave in the entries of one array that they stepped: the code of each row named. -/
def faulty (errs : List (Nat × Nat × Nat)) (a : Nat) (es : List Nat) : List Nat :=
  errs.foldl (fun l e => if e.1 = a then listSet l e.2.1 (e.2.2 % 2 ^ 32) else l) es

/-- The step of one array with its slab (R93, R95, R86). -/
def State.stepArray (s : State) (w a : Nat) (m : MatJob) (t : Tile) (errs : List (Nat × Nat × Nat)) : State :=
  let v := s.wing w
  let q := v.fifo.getD a []
  let slab := q.take m.mode.wBytes
  let s := s.setWing w { v with fifo := listSet v.fifo a (q.drop m.mode.wBytes) }
  let c := m.colOf m.g m.c
  let s := if m.j = 0 then s.openCol w a c m else s
  let x := s.col w a c
  let k := m.mode.k
  let n := min k (m.depth - m.j * k)
  let wt := (List.range k).map fun i => codeAt slab m.mode.wfmt.bits i
  let es := x.ent.getD (List.replicate 128 0)
  let d := if !m.mode.int && (es.take m.rows).any notNumber32 then State.drawN m.rows s [] else ([], s)
  let s := d.2
  let res := (List.range m.rows).map fun i =>
    dpuStep m.mode n (es.getD i 0) (d.1.getD i 0) ((t.data.getD i []).drop (m.j * k) |>.take n) wt
  let fl := res.foldl (fun f r => f ||| r.2.1) 0
  let sums := (t.sums.drop (m.j * k)).take n
  let cv := x.cv.step m.mode n sums wt (res.map (·.2.2))
  let last := decide (m.j + 1 = m.slabs)
  let chk := if !last then ChkSt.none else if s.f F.WNG_TB_CTRL_ENABLE w = 1 then .pending else .passed
  let s := s.setCol w a c { x with
    ent := some (faulty errs a (res.map (·.1)) ++ es.drop m.rows), cv := cv, n := x.n + 1, exempt := x.exempt || exemptFlags fl, chk := chk }
  match (s.wing w).jobs.find? fun j => j.key = (m.q, m.seq) with
  | some (.mat y) =>
    s.setJob w (.mat { y with flags := y.flags ||| fl })
  | _ => s

/-- The next position in the order g, j, c of R92. -/
def MatJob.advance (m : MatJob) : MatJob :=
  if m.c + 1 < m.ncol then { m with c := m.c + 1 }
  else if m.j + 1 < m.slabs then { m with c := 0, j := m.j + 1 }
  else { m with c := 0, j := 0, g := m.g + 1, stepped := decide (m.g + 1 ≥ m.groups) }

/-- One array step of a wing: the masked arrays together; `errs` names what faulty DPUs leave (array, row, code). Row sums over another row count are formed first (R105). -/
def State.arrayStep (s : State) (w : Nat) (errs : List (Nat × Nat × Nat)) : State :=
  match (s.wing w).stepJob with
  | none => s
  | some m =>
    if !s.stepReady w m then s else
    match (s.wing w).tileFor m with
    | none => s
    | some t =>
      let t := if t.sumRows = m.rows then t else { t with sumRows := m.rows, sums := tileSums m.mode t.data t.depth m.rows }
      let s := s.setTiles w ((fun (v : WingSt) =>
        if m.wide then { v with whole := some t } else if m.abuf = 0 then { v with half0 := some t }
        else { v with half1 := some t }) (s.wing w))
      let s := foldS m.arrs (fun a s => s.stepArray w a m t errs) s
      let s := s.setF F.MGN_RATE_STEPS_STEPS (s.f F.MGN_RATE_STEPS_STEPS w + 1) w
      match (s.wing w).jobs.find? fun j => j.key = (m.q, m.seq) with
      | some (.mat y) => s.setJob w (.mat y.advance)
      | _ => s

/-! ### The test-bar check (R109 to R112) -/

/-- The DIFF word of a mismatch record (R112). -/
def mismatchDiff (x : ColSt) (o : CheckOut) : Nat :=
  if x.int then ofSigned 64 (satSigned 64 o.idiff) else o.adiff + o.tau * 2 ^ 32

/-- The ID word of a mismatch record (R112). -/
def mismatchId (a c q : Nat) (x : ColSt) : Nat :=
  a + c * 2 ^ 8 + (if x.int then 0 else 2 ^ 16) + min x.n (2 ^ 24 - 1) * 2 ^ 24 + q * 2 ^ 56

/-- The ENV word of a mismatch record (R112): TJ is in whole degrees, the sensor in tenths (R491). -/
def mismatchEnv (tj : Int) (vc rate sl : Nat) : Nat :=
  ofSigned 8 (tj / 10) + vc * 2 ^ 8 + rate * 2 ^ 24 + sl * 2 ^ 40

/-- The next mismatch record of a wing is written, and counted (R112). -/
def State.mismatchRec (s : State) (w id diff env : Nat) : State :=
  let k := s.f F.WNG_TB_CTRL_REC_NEXT w
  let s := s.wr .WNG_TB_REC_ID (BitVec.ofNat 64 id) w k
  let s := s.wr .WNG_TB_REC_DIFF (BitVec.ofNat 64 diff) w k
  let s := s.wr .WNG_TB_REC_ENV (BitVec.ofNat 64 env) w k
  let s := s.wr .WNG_TB_REC_TIME (BitVec.ofNat 64 s.now) w k
  (s.setF F.WNG_TB_CTRL_REC_NEXT ((k + 1) % 8) w).bump F.WNG_TB_CTRL_REC_TOTAL 1 w

/-- What a later sweep of an array is to meet (R112). -/
def State.noteStress (s : State) (w a : Nat) (tj : Int) (vc : Nat) : State :=
  { s with eye := { s.eye with stress := mset s.eye.stress (w, a) ⟨tj, vc⟩ } }

/-- The mismatch record of R112 and its source. -/
def State.mismatch (s : State) (w a c : Nat) (x : ColSt) (o : CheckOut) : State :=
  let k := s.f F.WNG_TB_CTRL_REC_NEXT w
  let q := match x.cmds.getLast? with | some p => p.1 | none => 0
  let tj := s.fS F.THM_SENS_TEMP w
  let vc := s.f F.PWR_RAIL_SET_MV (w / 16)
  let rate := s.f F.MGN_RATE_ACT_RATE w
  let sl := s.f F.MGN_DOM_SLACK_NOW (6 * w + a)
  let n := min x.n (2 ^ 24 - 1)
  let d := mismatchDiff x o
  let s := (s.mismatchRec w (mismatchId a c q x) d (mismatchEnv tj vc rate sl)).noteStress w a tj vc
  let inj := if s.f F.EYE_INJ_CTRL_FIRED = 1 ∧ s.f F.EYE_INJ_CTRL_TARGET = 5 ∧ s.f F.EYE_INJ_CTRL_UNIT = w then atInjected else 0
  s.raiseX (srcOf w a) ⟨k + c * 2 ^ 8, (Master.mk 1 w).code, atCheck + inj⟩ [a, c, n, q, d, tj, vc, rate, toSigned 8 sl]

/-- The check of one column: counted, and its result; `true` where it failed. -/
def State.checkCol (s : State) (w a c : Nat) : State × Bool :=
  let x := s.col w a c
  let es := (x.ent.getD (List.replicate 128 0)).take x.rows
  let o := checkColumn x.int (s.f F.WNG_TB_CTRL_SIGMA w) x.n x.cv es x.exempt
  let hit := s.f F.EYE_INJ_CTRL_UNIT == w && s.f F.EYE_INJ_ADDR_ADDR % 4 == a
  let (o, s) := match s.injected 5 hit with
    | none => (o, s)
    | some _ => ({ o with res := match o.res with | some true => some false | r => r }, s.injFire)
  match o.res with
  | none => ((s.bump F.WNG_ARR_TBCNT_SKIPPED 1 w a).setCol w a c { x with chk := .passed }, false)
  | some true => ((s.bump F.WNG_ARR_TBCNT_CHECKS 1 w a).setCol w a c { x with chk := .passed }, false)
  | some false =>
    let s := (s.bump F.WNG_ARR_TBCNT_CHECKS 1 w a).bump F.WNG_ARR_TBCNT_MISMATCH 1 w a
    ((s.setCol w a c { x with chk := .failed }).mismatch w a c x o, true)

/-! ### Vector runs (R154, R159, R176, R177) -/

/-- The vector work whose turn it is (R177): dispatch order, each epilogue after its group. -/
inductive VecTurn where
  | run (v : VecJob)
  | epi (m : MatJob) (b : Blk) (p : List Insn)
  deriving DecidableEq, Repr

def WingSt.vecTurn (v : WingSt) : Option VecTurn :=
  v.jobs.findSome? fun j =>
    match j with
    | .vec x => if x.done then none else some (.run x)
    | .mat m =>
      match m.epi with
      | some (b, p) => if m.epiDone < m.groups ∧ m.mask ≠ 0 then some (.epi m b p) else none
      | none => none

/-- An earlier MATMUL that writes a column in the window and has not retired (Table 4-3). -/
def earlierWriter (js : List Job) (k : Nat × Nat) (arrs cols : List Nat) : Bool :=
  (before js k).any fun j =>
    match j with
    | .mat e => overlap e.arrs arrs && overlap e.cols cols
    | .vec _ => false

/-- Starting the run whose turn it is, when its columns are written and have passed their checks (Table 4-3, R110). -/
def State.startRun (s : State) (w : Nat) : State :=
  let v := s.wing w
  if v.run.isSome ∨ s.wingState w ≠ 3 ∨ s.held (6 * w + 4) ∨ s.held (6 * w + 5) then s else
  match v.vecTurn with
  | none => s
  | some (.run x) =>
    let arrs := maskArrays x.blk.mask
    if x.blk.srcAcc && (earlierWriter v.jobs (x.q, x.seq) arrs x.cols ||
        arrs.any fun a => x.cols.any fun c => !s.colPassed w a c) then s
    else
      let r : VecRun := { q := x.q, seq := x.seq, blk := x.blk, pat := x.pat, rep := x.committed
                          meter := x.meter, snap := s.mem, snapPoison := s.poison }
      ((s.setWing w { v with run := some r }).setF F.WNG_VEC_STATUS_BUSY 1 w).setF F.WNG_VEC_STATUS_PROFILE x.blk.profile w
  | some (.epi m b p) =>
    let g := m.epiDone
    let cols := natRange (m.colOf g 0) m.ncol
    if g < m.g ∧ m.arrs.all (fun a => cols.all fun c => s.colPassed w a c) then
      let bb := { b with colBase := m.colOf g 0 }.placed s.xlat g m.outStride
      let r : VecRun := { q := m.q, seq := m.seq, epi := true, grp := g, blk := bb, pat := p
                          snap := s.mem, snapPoison := s.poison }
      ((s.setWing w { v with run := some r }).setF F.WNG_VEC_STATUS_BUSY 1 w).setF F.WNG_VEC_STATUS_PROFILE b.profile w
    else s

/-- GATH and SCAT cost (R170): the largest number of distinct lines in one bank. -/
def gathCost (lines : List Nat) : Nat :=
  let ls := lines.eraseDups
  max 1 ((List.range 16).foldl (fun m b => max m (ls.filter fun l => l % 16 == b).length) 0)

/-- The end of a commit unit's pattern: reductions, K4 blocks, and the release of the columns read (R82, R97, R173). -/
def State.finishUnit (s : State) (w : Nat) (r : VecRun) : State :=
  let z := r.reduce s w
  let r : VecRun := { z.2.finishK4 with unitDone := true, patDone := true }
  let s := z.1
  let b := r.blk
  let s := if b.redOp = 0 then s else
    let n := (b.rows * b.trCols + 255) / 256 + (if b.redAxis = 0 then 6 else 7)
    s.setF F.WNG_VEC_STEPS_STEPS (s.f F.WNG_VEC_STEPS_STEPS w + n) w
  let s := s.setWing w { s.wing w with run := some r }
  if b.srcAcc ∧ b.release then
    foldS (maskArrays b.mask) (fun a s =>
      foldS (natRange b.colBase b.ncol) (fun c s => s.setCol w a c ((s.col w a c).close true)) s) s
  else s

/-- The bytes of an IN operand's element: column `q` of a row, with the shared exponent of K4 (R156). -/
def VecRun.inSpan (r : VecRun) (k q row : Nat) : List (Nat × Nat) :=
  let b := r.blk
  match Fmt.ofCode (b.inFmt.getD k 0) with
  | none => []
  | some f =>
    (b.inAddr.getD k 0 + row * b.inStr.getD k 0 * 64 + q * f.bits / 8, (q * f.bits % 8 + f.bits + 7) / 8) ::
      (if f = .k4 then [(b.inExp.getD k 0 + row * b.inStr.getD k 0 * 4 + q / 32, 1)] else [])

/-- The bytes one source of an element reads: IN, CV, RV. -/
def VecRun.srcSpan (r : VecRun) (e : Elem) (c : Nat) : List (Nat × Nat) :=
  let b := r.blk
  if c = 17 then r.inSpan 0 (b.q e + b.grpQ) (r.row e)
  else if c = 18 then r.inSpan 1 (b.q e + b.grpQ) (r.row e)
  else if c = 20 ∧ b.cv ≠ 0 then [(b.cv + 4 * (b.q e + b.grpQ), 4)]
  else if c = 21 ∧ b.rv ≠ 0 then [(b.rv + 4 * e.i, 4)]
  else []

/-- The byte ranges an instruction of the run reads: its IN, CV and RV sources, the shared exponents of K4, and the
elements that GATH names (R156, R170). -/
def VecRun.spans (r : VecRun) (s : State) (w : Nat) (i : Insn) : List (Nat × Nat) :=
  (r.elems.flatMap fun e => i.srcs.flatMap (r.srcSpan e)) ++
    (if i.op = .gath then (r.named s w i).flatMap fun x => r.inSpan 1 x 0 else [])

/-- The checks of the lines and units that an instruction of the run reads; a repetition reads what stood at its start, with
the poison found now (R147, R240). -/
def State.runCheck (s : State) (w : Nat) (r : VecRun) (i : Insn) : State × VecRun :=
  let t := s.checkSpans (r.spans s w i) (Master.mk 1 w).code atCmd
  (t, { r with snapPoison := (t.poison.filter fun x => !s.poison.contains x) ++ r.snapPoison })

/-- The vector engine steps no more while its domain is held, nor an instruction that reads what cannot be read now: a tile store
or runner domain that is held, a stack that serves no miss (R42, R45, R141, R151, R253). -/
def State.runHeld (s : State) (w : Nat) (r : VecRun) (i : Insn) : Bool :=
  s.held (6 * w + 4) || (r.spans s w i).any fun p => s.wingWay w p.1 || !s.readNow p.1 p.2 0

/-! ### Rate of a run (R166, R170, R178) -/

/-- The cost of an instruction for one chunk, `s` and `r` as the instruction finds them (R166, R170). -/
def VecRun.insnCost (r : VecRun) (s : State) (w : Nat) (i : Insn) : Nat :=
  let lines := fun (base fmt : Nat) => (r.named s w i).map fun x => (base + x * fmtBits fmt / 8) / 64
  (match i.op with
   | .gath => gathCost (lines (r.blk.inAddr.getD 1 0) (r.blk.inFmt.getD 1 0))
   | .scat => gathCost (lines (r.blk.outAddr.getD 1 0) (r.blk.outFmt.getD 1 0))
   | o => o.cost) * (if i.ty = 1 then 4 else 1)

/-- What an instruction staged, as (address, bits): `r` before it, `z` after it. A K4 block's exponent counts with its first
column. -/
def VecRun.staged (r z : VecRun) : List (Nat × Nat) :=
  let b := r.blk
  (z.outs.drop r.outs.length).map (fun o => (o.addr, o.w)) ++
  (z.k4.drop r.k4.length).flatMap fun k =>
    (b.outAddr.getD 0 0 + k.row * b.outStr.getD 0 0 * 64 + k.col / 2, 4) ::
      (if k.col % 32 = 0 then [(b.outExp + k.row * (b.ncol / 32) + k.col / 32, 8)] else [])

/-- A repetition's first chunk that the repetition before it began: its instructions are costed already (log entry 144). -/
def VecRun.shared (r : VecRun) : Bool := r.chunk == 0 && r.first % 256 != 0

/-- The Port and Runner figures after an instruction (R178; log entry 148). -/
def VecRun.metered (r z : VecRun) (s : State) (w : Nat) (i : Insn) (cost : Nat) : VecRun :=
  let outs := r.staged z
  let own := (outs.filter fun p => inTileOf w p.1 1).map fun p => p.1 / 64
  let ins := (r.spans s w i).flatMap fun p => natRange (p.1 / 64) ((p.1 + p.2 - 1) / 64 - p.1 / 64 + 1)
  let fresh := (ins ++ own).eraseDups.filter fun x => !z.meter.seen.contains x
  let far := (outs.filter fun p => !inTileOf w p.1 1).foldl (fun n p => n + p.2) 0
  { z with meter := ⟨z.meter.cost + cost, z.meter.port + fresh.length, z.meter.far + far, z.meter.seen ++ fresh⟩ }

/-- Steps that the Port or the Runner figure adds to a chunk beyond its Pattern figure (R178); part steps count whole (log entry
148). -/
def Meter.excess (m : Meter) : Nat := max ((m.port + 15) / 16) ((m.far + 4095) / 4096) - m.cost

/-- The chunk ends with the unit's part of it, unless the next repetition goes on in it. -/
def VecRun.chunkWhole (r : VecRun) : Bool :=
  r.bounds.2 % 256 == 0 || r.blk.srcAcc || decide (r.rep + 1 ≥ r.blk.reps)

/-- Moving on after an instruction: the next one, or after the last of the pattern the next chunk. -/
def VecRun.advance (r : VecRun) : VecRun :=
  if r.pc + 1 < r.pat.length then { r with pc := r.pc + 1 }
  else { r with pc := 0, chunk := r.chunk + 1, lanes := [], patDone := decide (r.chunk + 1 ≥ r.chunks)
                meter := if r.chunkWhole then { seen := r.meter.seen } else r.meter }

/-- Vector steps of an instruction that ends as `r`: its cost, and after the last one of a whole chunk the excess (R178). -/
def VecRun.stepsOf (r : VecRun) (cost : Nat) : Nat :=
  cost + (if r.pc + 1 < r.pat.length ∨ !r.chunkWhole then 0 else r.meter.excess)

/-- One pattern instruction of the run over its chunk; the chunk's last instruction moves on to the next chunk. -/
def State.runInsn (s : State) (w : Nat) (op : PatOp) : State :=
  match (s.wing w).run with
  | none => s
  | some r =>
    if r.patDone then s else
    match r.pat[r.pc]? with
    | none => s
    | some i =>
      if i.op ≠ op ∨ s.runHeld w r i then s else
      let k := s.runCheck w r i
      let z := k.2.insn k.1 w i
      let cost := if r.shared then 0 else r.insnCost s w i
      let m := r.metered z.2 s w i cost
      let s := z.1.setF F.WNG_VEC_STEPS_STEPS (z.1.f F.WNG_VEC_STEPS_STEPS w + m.stepsOf cost) w
      let r := m.advance
      let s := s.setWing w { s.wing w with run := some r }
      if r.patDone ∧ r.blk.redOp = 0 then s.finishUnit w r else s

/-! ### Chains as a later command will find them (R103, R161) -/

/-- The chain of a column when every command dispatched so far has run: format and MATMULs, or closed. -/
def State.chainAt (s : State) (w a c : Nat) : Option (Bool × Nat) :=
  let x := s.col w a c
  let now := if x.opened then some (x.int, x.mats) else none
  (s.wing w).jobs.foldl (fun st j =>
    match j with
    | .mat m =>
      if m.arrs.contains a ∧ m.cols.contains c then
        if m.epi.isSome then none
        else if x.cmds.contains (m.q, m.seq) then st
        else if m.acc = 0 then some (m.mode.int, 1) else st.map fun p => (p.1, p.2 + 1)
      else st
    | .vec v =>
      if v.blk.srcAcc ∧ v.blk.release ∧ !v.done ∧ (maskArrays v.blk.mask).contains a ∧ v.cols.contains c then none else st) now

/-- The tile a command dispatched now would find in its buffer: AFMT, rows, depth. -/
def State.tileAt (s : State) (w : Nat) (wide : Bool) (abuf : Nat) : Option (Fmt × Nat × Nat) :=
  let v := s.wing w
  let of := fun (t : Option Tile) => t.map fun t => (t.afmt, t.rows, t.depth)
  let st := v.jobs.foldl (fun (st : Option (Fmt × Nat × Nat) × Option (Fmt × Nat × Nat) × Option (Fmt × Nat × Nat)) j =>
    match j with
    | .mat m =>
      if m.aload ∧ !m.loaded then
        let t := some (m.mode.afmt, m.rows, m.depth)
        if m.wide then (none, none, t) else if m.abuf = 0 then (t, st.2.1, none) else (st.1, t, none)
      else st
    | .vec _ => st) (of v.half0, of v.half1, of v.whole)
  if wide then st.2.2 else if abuf = 0 then st.1 else st.2.1

/-! ### Stream descriptors (R128 to R131) -/

/-- The bytes a descriptor with SRC_KIND 0 reads: byte `p` of the instance (R129). -/
def streamAddr (src len rowBytes pitch p : Nat) : Nat :=
  let run := if rowBytes = 0 then len else rowBytes
  src + p / run * pitch + p % run

/-- The conditions of R130. The runs rise, and what commands may reach of local HBM is one interval: the span from the first byte
to the last lies in it where every run does. -/
def State.streamOk (s : State) (i : Nat) : Bool :=
  let kind := s.f F.RUN_STREAM_SRC_SRC_KIND i
  let src := s.f F.RUN_STREAM_SRC_SRC_ADDR i
  let len := s.f F.RUN_STREAM_LEN_LENGTH i
  let rb := s.f F.RUN_STREAM_SHAPE_ROW_BYTES i
  let rp := s.f F.RUN_STREAM_SHAPE_ROW_PITCH i
  let runs := if rb = 0 then 1 else len / rb
  let span := (runs - 1) * rp + (if rb = 0 then len else rb)
  decide (kind ≤ 1) && decide (len ≠ 0) && len % 32 == 0 && (rb == 0 || (rb % 32 == 0 && len % rb == 0)) &&
  (rb == 0 || (decide (rp ≥ rb) && rp % 64 == 0)) &&
  (kind != 0 || (src % 64 == 0 && inOneFlask src span && s.inHbm src span))

/-- A write of 1 to VALID (R130). -/
def State.streamValidate (s : State) (i : Nat) (m : Master) : State :=
  if s.streamOk i then (s.setF F.RUN_STREAM_SRC_VALID 1 i).setF F.RUN_STREAM_SRC_ERR 0 i
  else
    let s := (s.setF F.RUN_STREAM_SRC_VALID 0 i).setF F.RUN_STREAM_SRC_ERR 1 i
    let s := (s.setF F.RUN_STATUS_DESC_INVALID 1).setF F.RUN_STATUS_LAST_DESC i
    s.cfgErr (RegKey.addr ⟨.RUN_STREAM_SRC, i, 0⟩) m

/-- The Flask that feeds an instance. -/
def Inst.flask (x : Inst) : Nat := if x.kind = 1 then x.src % 4 else flaskOf x.src

/-! ### Instances (R132 to R138) -/

def State.inst (s : State) (id : Nat) : Option Inst := s.insts.find? fun x => x.id == id
def State.setInst (s : State) (x : Inst) : State := { s with insts := s.insts.map fun y => if y.id = x.id then x else y }
def State.dropInst (s : State) (id : Nat) : State := { s with insts := s.insts.filter fun y => y.id ≠ id }

/-- A descriptor's BUSY: an instance of it is open. -/
def State.streamBusy (s : State) (i : Nat) : State :=
  s.setF F.RUN_STREAM_SRC_BUSY (if s.insts.any fun x => x.desc == i && x.isOpen then 1 else 0) i

/-- The turn engine's slot of an instance is busy while the instance is open (Table 8-22). -/
def State.slotBusy (s : State) (x : Inst) : State :=
  if x.kind = 1 then
    let f := x.src % 4
    let k := x.src / 16 % 64
    s.setF F.FLK_TRN_SLOT_BUSY (if s.insts.any fun y => y.isOpen && y.kind == 1 && y.src % 4 == f && y.src / 16 % 4096 == k then 1 else 0) f k
  else s

/-- The receiver set of a multicast instance (R132): the wings of WINGS that are READY or BUSY. -/
def State.receivers (s : State) (wings : Nat) : List Nat :=
  (List.range 64).filter fun v => wings / 2 ^ v % 2 == 1 && (s.wingState v == 2 || s.wingState v == 3)

/-- The jobs and instances a turn engine has in service (Table 8-21). -/
def State.turnCount (s : State) (f : Nat) : State :=
  s.setF F.FLK_TRN_STATUS_ACTIVE (min 16 ((s.ms.jobs.filter fun x => x.1 == f).length +
    (s.insts.filter fun y => y.isOpen && y.kind == 1 && y.src % 4 == f).length)) f

/-- Joining a MATMUL to an instance of each stream it names (R132, R134, R135). A replay, and a wing outside WINGS, gets an
instance of its own. -/
def State.joinStreams (s : State) (w : Nat) (m : MatJob) (replay : Bool) : State :=
  let descs := (m.arrs.map fun a => m.streams.getD a 0).eraseDups
  foldS descs (fun i s =>
    let arrs := m.arrs.filter fun a => m.streams.getD a 0 == i
    let r : Recv := { w := w, arrs := arrs, slab := m.mode.wBytes, q := m.q, seq := m.seq }
    let wings := s.f F.RUN_STREAM_WINGS_WINGS i
    let uni := replay || wings == 0 || wings / 2 ^ w % 2 == 0
    let fresh := fun (s : State) (set : List Nat) =>
      ({ s with insts := s.insts ++ [{ id := s.nextInst, desc := i, unicast := uni, set := set, recv := [r] }]
                nextInst := s.nextInst + 1 }, s.nextInst)
    let z := if uni then fresh s [w]
      else
        match s.insts.find? fun x => x.desc == i && !x.unicast && !x.isOpen && !(x.recv.any fun y => y.w == w) with
        | some x => (s.setInst { x with recv := x.recv ++ [r] }, x.id)
        | none => fresh s (s.receivers wings)
    match (z.1.wing w).jobs.find? fun j => j.key = (m.q, m.seq) with
    | some (.mat y) => z.1.setJob w (.mat { y with insts := y.insts ++ arrs.map fun a => (a, z.2) })
    | _ => z.1) s

/-- The condition under which an instance may open: unicast at once, multicast when every wing of its set has joined, and
at most one multicast instance of a descriptor at a time (R132, R134). -/
def State.instReady (s : State) (x : Inst) : Bool :=
  x.unicast ||
  ((x.set.all fun w => x.recv.any fun r => r.w == w) && !(s.insts.any fun y => y.desc == x.desc && y.isOpen && !y.unicast))

/-- The turn engine's checks when an instance opens (R249): the armed job, or none. -/
def State.turnFor (s : State) (src len : Nat) : Option TurnJob :=
  let f := src % 4
  let k := src / 16 % 4096
  match mget s.ms.slots (64 * f + k) with
  | some j => if k < 64 ∧ s.f F.FLK_TRN_SLOT_ARMED f k = 1 ∧ flaskOf j.src = f ∧ j.outLen = len then some j else none
  | none => none

/-- Opening an instance with a copy of its descriptor (R131, R132, R249); `none` where its MATMULs are to be refused. -/
def State.openInst (s : State) (x : Inst) : Option State :=
  let i := x.desc
  if s.f F.RUN_STREAM_SRC_VALID i = 0 then none
  else
    let src := s.f F.RUN_STREAM_SRC_SRC_ADDR i
    let kind := s.f F.RUN_STREAM_SRC_SRC_KIND i
    let len := s.f F.RUN_STREAM_LEN_LENGTH i
    let y : Inst := { x with isOpen := true, src := src, kind := kind, hint := s.f F.RUN_STREAM_SRC_HINT i, len := len
                             rowBytes := s.f F.RUN_STREAM_SHAPE_ROW_BYTES i, rowPitch := s.f F.RUN_STREAM_SHAPE_ROW_PITCH i }
    if kind = 1 then
      match s.turnFor src len with
      | none => none
      | some j =>
        let s := s.turnRead j (src % 4)
        let o := j.output s.mem s.poison
        let y := { y with turned := o.1, turnPoison := o.2, job := some j }
        some (((s.setInst y).streamBusy i |>.slotBusy y).turnCount (src % 4))
    else some ((s.setInst y).streamBusy i)

/-- Closing an instance (R138). The next multicast instance of its descriptor forms now, with the receiver set of this moment
(R134). -/
def State.closeInst (s : State) (x : Inst) : State :=
  let s := (s.dropInst x.id).streamBusy x.desc |>.slotBusy x
  let set := s.receivers (s.f F.RUN_STREAM_WINGS_WINGS x.desc)
  let s := if x.unicast || !x.isOpen then s
    else { s with insts := s.insts.map fun y => if y.desc = x.desc ∧ !y.unicast ∧ !y.isOpen then { y with set := set } else y }
  if x.kind = 1 ∧ x.isOpen then s.turnCount (x.src % 4) else s

/-- The bytes of the next slab of an instance, with poison; from the turn engine, and whether the source has changed since it was
read. -/
def State.slabBytes (s : State) (x : Inst) (pos n : Nat) : List Byte × Bool × Bool :=
  match x.job with
  | some j =>
    let now := j.output s.mem s.poison
    let cut := fun (l : List Byte) => (l.drop pos).take n
    (cut x.turned, poisonIn x.turnPoison pos n, cut now.1 != cut x.turned)
  | none =>
    let as := (natRange pos n).map fun p => streamAddr x.src x.len x.rowBytes x.rowPitch p
    (as.map fun a => cellGet s.mem a, as.any fun a => poisonIn s.poison a 1, false)

/-- An earlier job of the wing whose bytes for one of these arrays have not all arrived. -/
def State.feedBlocked (s : State) (id w : Nat) (r : Recv) : Bool :=
  let earlier := (before (s.wing w).jobs (r.q, r.seq)).map Job.key
  s.insts.any fun y => y.id != id && y.recv.any fun o =>
    o.w == w && overlap o.arrs r.arrs && earlier.contains (o.q, o.seq)

/-- Room for a slab (R136): in the receiver's 8 KiB FIFO, after whatever is already in it. -/
def State.recvRoom (s : State) (x : Inst) (n : Nat) (r : Recv) : Bool :=
  !s.feedBlocked x.id r.w r && r.arrs.all fun a => decide (((s.wing r.w).fifo.getD a []).length + n ≤ 8192)

/-- The position of the next slab: the least among the receivers that no held domain cuts off (R141), and those that take it. -/
def State.slabNext (s : State) (x : Inst) : Option (Nat × List Recv) :=
  let free := x.recv.filter fun r => !s.pathHeld x.flask r.w
  match free with
  | [] => none
  | r0 :: _ =>
    let pos := free.foldl (fun m r => min m r.pos) r0.pos
    some (pos, free.filter fun r => r.pos == pos)

/-- Every receiver the slab goes to has room, and none of the instance is left more than a full FIFO behind (R136, R141). -/
def State.slabRoom (s : State) (x : Inst) (pos n : Nat) (rs : List Recv) : Bool :=
  rs.all (s.recvRoom x n) && x.recv.all fun r => decide (pos + n ≤ r.pos + 8192)

/-- The source side lets a slab pass: the ladle serves the read, or the turn engine steps (R42, R45, R253). -/
def State.slabSource (s : State) (x : Inst) (a0 n : Nat) : Bool :=
  if x.kind = 1 then !s.held (404 + x.flask) else s.readNow a0 n x.hint

/-- Marking the receivers of a wing, or of one of its commands, for pruning (R137). -/
def State.markPrune (s : State) (w : Nat) (k : Option (Nat × Nat)) : State :=
  { s with insts := s.insts.map fun x =>
      if x.recv.any fun r => r.w == w && (match k with | none => true | some p => decide ((r.q, r.seq) = p)) then
        { x with pruneDue := x.pruneDue ++ [w] } else x }

/-- Pruning at a slab boundary: the last receiver's pruning closes the instance. -/
def State.pruneRecv (s : State) (x : Inst) (w : Nat) : State :=
  if !x.pruneDue.contains w then s else
  let y := { x with recv := x.recv.filter fun r => r.w != w, set := x.set.filter (· != w)
                    pruneDue := x.pruneDue.filter (· != w) }
  let s := if x.isOpen then s.setF F.RUN_STATUS_PRUNED 1 else s
  if y.recv.isEmpty then (s.setInst y).closeInst y else s.setInst y

/-- A slab into the FIFOs of one receiver; a poisoned one marks its MATMUL. -/
def State.slabTo (s : State) (bs : List Byte) (bad : Bool) (r : Recv) : State :=
  let v := s.wing r.w
  let s := s.setWing r.w { v with fifo := r.arrs.foldl (fun f a => listSet f a (f.getD a [] ++ bs)) v.fifo }
  if bad then
    match (s.wing r.w).jobs.find? fun j => j.key = (r.q, r.seq) with
    | some (.mat y) => s.setJob r.w (.mat { y with uncorr := true })
    | _ => s
  else s

/-- Bytes that stand for free values. -/
def State.freeBytes : Nat → State → List Byte → List Byte × State
  | 0, s, acc => (acc, s)
  | n + 1, s, acc => let d := s.draw; State.freeBytes n d.2 (acc ++ [BitVec.ofNat 8 d.1])

/-- Passing one slab of an instance (R136): read where it is the first to be read at its place, and free values where the source
of a turn engine's instance has been written since it opened (Table 8-11). -/
def State.slabNow (s : State) (x : Inst) : State :=
  match s.slabNext x with
  | none => s
  | some (pos, rs) =>
    let r0 := rs.headD { w := 0, arrs := [], slab := 0, q := 0, seq := 0 }
    let n := min r0.slab (x.len - pos)
    let a0 := streamAddr x.src x.len x.rowBytes x.rowPitch pos
    if !x.isOpen ∨ n = 0 ∨ !s.slabRoom x pos n rs ∨ !s.slabSource x a0 n then s else
    let fresh := x.recv.all fun r => decide (r.pos ≤ pos)
    let s := if x.kind = 0 ∧ fresh then s.readWith a0 n x.hint [] (Master.mk 1 r0.w).code atCmd else s
    let b := s.slabBytes x pos n
    let z := if b.2.2 then State.freeBytes n s [] else (b.1, s)
    let s := foldS rs (fun r s => s.slabTo z.1 b.2.1 r) z.2
    s.setInst { x with recv := x.recv.map fun r => if rs.contains r then { r with pos := r.pos + n } else r }

/-- Receivers due for pruning leave the instance: every moment between two slabs is a slab boundary. -/
def State.pruneDue (s : State) (x : Inst) : State :=
  foldS x.pruneDue (fun w s => match s.inst x.id with | some y => s.pruneRecv y w | none => s) s

/-- The next slab of an instance (R136), after the receivers due for pruning have left it (R137). -/
def State.passSlab (s : State) (x : Inst) : State :=
  let s := s.pruneDue x
  match s.inst x.id with
  | some y => s.slabNow y
  | none => s

/-- Bytes of a MATMUL that stand in the FIFO of one of its arrays: those its stream has delivered less those it has stepped. -/
def State.fifoShare (s : State) (w a : Nat) (m : MatJob) : Nat :=
  let per := m.mode.wBytes
  let came := match m.insts.find? fun p => p.1 == a with
    | none => 0
    | some (_, id) =>
      match s.inst id with
      | none => m.groups * m.slabs * m.ncol * per
      | some x => match x.recv.find? fun r => r.w == w with | some r => r.pos | none => 0
  came - (m.g * m.slabs * m.ncol + m.j * m.ncol + m.c) * per

/-- The FIFO of an array without the bytes of one command. -/
def State.fifoWithout (s : State) (w a : Nat) (k : Nat × Nat) : List Byte :=
  let v := s.wing w
  let q := v.fifo.getD a []
  let share := fun (j : Job) => match j with | .mat m => if m.arrs.contains a then s.fifoShare w a m else 0 | .vec _ => 0
  let lead := (before v.jobs k).foldl (fun n j => n + share j) 0
  let mine := match v.jobs.find? fun j => j.key = k with | some j => share j | none => 0
  q.take lead ++ q.drop (lead + mine)

end Sys2Proof.Machine
end

