-- ==== Sys2Proof/Machine/Queue.lean ====
section
/-! DEFINITION. The queue engine (R185 to R223): command records, gates, the dispatch of MATMUL and VEC_RUN, the stages of a
command, aborts, drains, wings leaving service, adoption and replay. -/

namespace Sys2Proof.Machine

/-! ### Interrupts, queues, records, gates -/

/-- An interrupt request at the PLIC (R396). -/
def State.irq (s : State) (src : Nat) : State :=
  let s := s.send (.irq src)
  if s.plic.pending.contains src then s else { s with plic := { s.plic with pending := s.plic.pending ++ [src] } }

/-- Queue states of Table 7-21. -/
def qDisabled : Nat := 0
def qRunning : Nat := 1
def qWaiting : Nat := 2
def qDraining : Nat := 3
def qStopped : Nat := 4
def qError : Nat := 5

def State.qState (s : State) (q : Nat) : Nat := s.f F.QE_Q_STATE_STATE q
def State.setQState (s : State) (q x : Nat) : State := s.setF F.QE_Q_STATE_STATE x q
def State.qSize (s : State) (q : Nat) : Nat := 2 ^ s.f F.QE_Q_CMD_BASE_LOG2_SIZE q
def State.qx (s : State) (q : Nat) : QxSt := mgetD s.qe.q q {}
def State.setQx (s : State) (q : Nat) (x : QxSt) : State := { s with qe := { s.qe with q := mset s.qe.q q x } }

def State.cmd (s : State) (q n : Nat) : Option Cmd := s.qe.cmds.find? fun c => c.q == q && c.seq == n
def State.putCmd (s : State) (c : Cmd) : State :=
  let cs := s.qe.cmds
  let cs := if cs.any fun x => x.q == c.q && x.seq == c.seq then
      cs.map fun x => if x.q = c.q ∧ x.seq = c.seq then c else x
    else cs ++ [c]
  { s with qe := { s.qe with cmds := cs } }
def State.modCmd (s : State) (q n : Nat) (f : Cmd → Cmd) : State :=
  match s.cmd q n with
  | some c => s.putCmd (f c)
  | none => s

/-- The gate counter (R199). -/
def State.gate (s : State) (g : Nat) : Nat := s.f F.QE_GATE_VAL_VALUE g
def State.gateAdd (s : State) (g v : Nat) : State := s.setF F.QE_GATE_VAL_VALUE ((s.gate g + v) % 2 ^ 48) g

/-- The wait test of R200. -/
def gateMet (c v : Nat) : Bool := decide ((c % 2 ^ 32 + 2 ^ 32 - v % 2 ^ 32) % 2 ^ 32 < 2 ^ 31)

/-! Header fields (Table 7-1). -/
def hdr (p : List Nat) (lsb w : Nat) : Nat := bitsAt (p.getD 0 0) lsb w
def Cmd.op (c : Cmd) : Nat := hdr c.pkt 0 8
def Cmd.ordered (c : Cmd) : Bool := hdr c.pkt 8 1 == 1
def Cmd.irqBit (c : Cmd) : Bool := hdr c.pkt 9 1 == 1
def Cmd.sigEn (c : Cmd) : Bool := hdr c.pkt 12 1 == 1
def Cmd.sigAlways (c : Cmd) : Bool := hdr c.pkt 13 1 == 1
def Cmd.sigGate (c : Cmd) : Nat := hdr c.pkt 40 12
def Cmd.sigInc (c : Cmd) : Nat := let x := hdr c.pkt 52 8; if x = 0 then 1 else x

/-- The enabled waits of a command are met (R200). -/
def State.waitsMet (s : State) (p : List Nat) : Bool :=
  (hdr p 10 1 == 0 || gateMet (s.gate (hdr p 16 12)) (bitsAt (p.getD 1 0) 0 32)) &&
  (hdr p 11 1 == 0 || gateMet (s.gate (hdr p 28 12)) (bitsAt (p.getD 1 0) 32 32))

/-- Whether a retired command signals (R201). -/
def Cmd.signals (c : Cmd) : Bool := c.sigEn && (decide (c.status ≤ 1) || c.sigAlways)

/-- The slot of command `n` as eight words (R187, R189). -/
def State.slotAddr (s : State) (q n : Nat) : Nat := s.f F.QE_Q_CMD_BASE_BASE q + n % s.qSize q * 64
def State.readPkt (s : State) (q n : Nat) : List Nat := (List.range 8).map fun i => s.readNat (s.slotAddr q n + 8 * i) 8

/-- Counting clamped fields (R209, R210). -/
def State.countClamps (s : State) (q op : Nat) (offs : List Nat) : State :=
  match offs.getLast? with
  | none => s
  | some o =>
    let s := s.bump F.QE_Q_CLAMP_COUNT offs.length q
    (s.setF F.QE_Q_CLAMP_LAST_OFFSET o q).setF F.QE_Q_CLAMP_LAST_OPCODE op q

/-! ### Decoding wing commands (R100 to R104, R157, R159) -/

/-- A refusal: status, cause, offset, instruction (Tables 7-5 and 7-25). -/
structure Refuse where
  status : Nat
  cause : Nat := 0
  offset : Nat := 0xFF
  insn : Nat := 0xFF
  deriving DecidableEq, Repr

def Refuse.detail (r : Refuse) : Nat := r.cause % 256 + r.offset % 256 * 2 ^ 8 + r.insn % 256 * 2 ^ 16

/-- What dispatch makes of a command's parameters: clamped offsets, and a job, a refusal, or poison read (R212). -/
structure Decoded (α : Type) where
  clamps : List Nat
  res : Except Refuse α
  uncorr : Bool := false

/-- The fields of a MATMUL clamped in the order of Table 4-5, and the offsets clamped. -/
def matFields (p : List Nat) (q seq : Nat) : MatJob × Option Mode × List Nat :=
  let w0 := p.getD 2 0
  let w2 := p.getD 4 0
  let w3 := p.getD 5 0
  let cl := fun (c : Bool) (off x y : Nat) (l : List Nat) => if c then (y, l ++ [off]) else (x, l)
  let wf := Fmt.ofCode (bitsAt w0 0 4)
  let af := Fmt.ofCode (bitsAt w0 4 4)
  let mode := match wf, af with | some a, some b => Mode.of a b | _, _ => none
  let acc := bitsAt w0 12 2
  let wide := bitsAt w0 16 1 == 1
  let epi := p.getD 6 0
  let (gm, cs) := cl (decide (bitsAt w3 0 10 ≠ 0 ∧ ¬(acc = 0 ∧ epi ≠ 0))) 0x28 (bitsAt w3 0 10) 0 []
  let (cb, cs) := cl (decide (gm > 0 ∧ bitsAt w0 48 6 ≥ 32)) 0x16 (bitsAt w0 48 6) (bitsAt w0 48 6 - 32) cs
  let bound := (if gm > 0 then 32 else 64) - cb
  let (nc, cs) := if bitsAt w0 54 7 = 0 then (1, cs ++ [0x16]) else cl (decide (bitsAt w0 54 7 > bound)) 0x16 (bitsAt w0 54 7) bound cs
  let (rm, cs) := cl (decide (bitsAt w0 24 8 > 127)) 0x13 (bitsAt w0 24 8) 127 cs
  let d := bitsAt w0 32 16
  let (d, cs) := match mode with
    | none => (d, cs)
    | some m => if d = 0 then (1, cs ++ [0x14]) else cl (decide (d > m.depthLimit wide)) 0x14 d (m.depthLimit wide) cs
  let st := bitsAt w2 24 16
  let aload := bitsAt w0 14 1 == 1
  let (st, cs) := match mode with
    | none => (st, cs)
    | some m =>
      let least := (m.rowBytes d + 63) / 64
      cl (aload && decide (st < least)) 0x23 st least cs
  let md := mode.getD ⟨.b1, .int8, 512, 512, 64, true, 0, 0, 2048⟩
  let ss := p.getD 3 0
  ({ q := q, seq := seq, mode := md, mask := bitsAt w0 8 4, acc := acc, aload := aload, abuf := bitsAt w0 15 1, wide := wide
     rows := rm + 1, depth := d, colBase := cb, ncol := nc
     streams := [bitsAt ss 0 16, bitsAt ss 16 16, bitsAt ss 32 16, bitsAt ss 48 16]
     atile := bitsAt w2 0 23, astride := st, groups := gm + 1, outStride := bitsAt w3 16 48 }, mode, cs)

/-- The chain case of Table 4-6: every target column of a masked array open, of the same format, with fewer than 256
MATMULs. -/
def State.chainRefuse (s : State) (w : Nat) (m : MatJob) : Option Refuse :=
  if m.acc = 1 ∧ (m.arrs.any fun a => m.cols.any fun c =>
      match s.chainAt w a c with
      | some st => st.1 != m.mode.int || decide (st.2 ≥ 256)
      | none => true) then some ⟨0x14, 0, 0x11, 0xFF⟩ else none

/-- The cases of Table 4-6 before the epilogue's, in the table's order. The tile case names no field: OFFSET 0x11, where ALOAD
and ABUF lie (log entry 136). -/
def State.matRefuse (s : State) (w : Nat) (m : MatJob) (mode : Option Mode) : Option Refuse :=
  match mode with
  | none => some ⟨0x13, 0, 0x10, 0xFF⟩
  | some md =>
    if m.acc ≥ 2 then some ⟨0x14, 0, 0x11, 0xFF⟩ else
    let badIdx := m.arrs.find? fun a => decide (m.streams.getD a 0 ≥ 4096) || s.f F.RUN_STREAM_SRC_VALID (m.streams.getD a 0) == 0
    match badIdx with
    | some a => some ⟨0x11, 0, 0x18 + 2 * a, 0xFF⟩
    | none =>
    let want := m.groups * m.slabs * m.ncol * md.wBytes
    match m.arrs.find? fun a => s.f F.RUN_STREAM_LEN_LENGTH (m.streams.getD a 0) != want with
    | some a => some ⟨0x14, 0, 0x18 + 2 * a, 0xFF⟩
    | none =>
    let bytes := md.rowBytes m.depth
    if m.aload then
      if m.atile % 64 ≠ 0 ∨ m.atile + (m.rows - 1) * m.astride * 64 + bytes > tileSize then some ⟨0x12, 0, 0x20, 0xFF⟩
      else s.chainRefuse w m
    else
      match s.tileAt w m.wide m.abuf with
      | some t =>
        if t.1 = md.afmt ∧ t.2.1 ≥ m.rows ∧ t.2.2 ≥ m.depth then s.chainRefuse w m else some ⟨0x14, 0, 0x11, 0xFF⟩
      | none => some ⟨0x14, 0, 0x11, 0xFF⟩

/-- A refused vector block stands in WNG_VEC_STATUS (R159, R161). -/
def State.vecRefused (s : State) (w : Nat) (r : VecRefuse) (run : Bool) : State :=
  let s := (s.setF F.WNG_VEC_STATUS_REFUSE r.cause w).setF F.WNG_VEC_STATUS_REFUSE_INSN r.insn w
  let s := s.setF F.WNG_VEC_STATUS_REFUSED 1 w
  if run then s.bump F.WNG_VEC_CNT_REFUSALS 1 w else s

/-- The check that fetching an operand block makes of the errors injected into it. -/
def State.checkBlk (s : State) (w addr : Nat) : State :=
  s.checkSpans [(s.xlat addr, 0x80 + 4 * 64)] (Master.mk 1 w).code atCmd

/-- A MATMUL's parameters at dispatch. -/
def State.decodeMat (s : State) (w q seq : Nat) (p : List Nat) : State × Decoded MatJob :=
  let z := matFields p q seq
  let m := z.1
  match s.matRefuse w m z.2.1 with
  | some r => (s, ⟨z.2.2, .error r, false⟩)
  | none =>
    let ep := p.getD 6 0
    if ep = 0 then (s, ⟨z.2.2, .ok m, false⟩) else
    let e : EpiArgs := ⟨m.mask, m.rows, m.colBase, m.ncol, m.groups, m.outStride⟩
    let s := s.checkBlk w ep
    match s.fetchBlk w ep (some e) 0 0 with
    | none => (s.vecRefused w ⟨1, 0xFF⟩ false, ⟨z.2.2, .error ⟨0x12, 1, 0x30, 0xFF⟩, false⟩)
    | some (b, bad) =>
      -- the fields of a block that reads poison are not known: nothing of it is clamped
      if bad then (s, ⟨z.2.2, .ok m, true⟩) else
      let cs := z.2.2 ++ b.clamps
      match s.vecCheck w b (some e) (fun _ _ => true) with
      | some r => (s.vecRefused w r false, ⟨cs, .error ⟨vecStatus r.cause, r.cause, 0x30, r.insn⟩, false⟩)
      | none => (s, ⟨cs, .ok { m with epi := some (b.blk, b.pat) }, false⟩)

/-- A VEC_RUN's parameters at dispatch. -/
def State.decodeVec (s : State) (w q seq : Nat) (p : List Nat) : State × Decoded VecJob :=
  let s := s.checkBlk w (p.getD 2 0)
  match s.fetchBlk w (p.getD 2 0) none (p.getD 4 0) (p.getD 3 0) with
  | none => (s.vecRefused w ⟨1, 0xFF⟩ true, ⟨[], .error ⟨0x12, 1, 0x10, 0xFF⟩, false⟩)
  | some (b, bad) =>
    let j : VecJob := { q := q, seq := seq, blk := b.blk.placed s.xlat 0 0, pat := b.pat }
    if bad then (s, ⟨[], .ok j, true⟩) else
    match s.vecCheck w b none (fun a c => (s.chainAt w a c).isSome) with
    | some r => (s.vecRefused w r true, ⟨b.clamps, .error ⟨vecStatus r.cause, r.cause, 0xFF, r.insn⟩, false⟩)
    | none => (s, ⟨b.clamps, .ok j, false⟩)

/-! ### Dispatch (R190, R195) -/

/-- HEAD passes commands already aborted or drained without dispatch (Table 7-8). -/
def State.skipHead (s : State) (q : Nat) : Nat → State
  | 0 => s
  | n + 1 =>
    let h := s.f F.QE_Q_HEAD_HEAD q
    if decide (h < s.f F.QE_Q_TAIL_TAIL q) && ((s.cmd q h).any fun c => c.retired) then
      (s.setF F.QE_Q_HEAD_HEAD (h + 1) q).skipHead q n
    else s

/-- The queue may dispatch (R190): enabled, running, a command posted, fewer than 16 in flight. -/
def State.canDispatch (s : State) (q : Nat) : Bool :=
  s.f F.QE_CTRL_DISPATCH_EN == 1 && (s.qState q == qRunning || s.qState q == qWaiting) &&
  decide (s.f F.QE_Q_HEAD_HEAD q < s.f F.QE_Q_TAIL_TAIL q) && decide (s.f F.QE_Q_STATE_INFLIGHT q < 16)

/-- The wing of a queue cannot take commands now (R190): OFFLINE, TEMPER or BIST, draining under TAKE_OUT, left with its
adoption still copying, or with a replay set to run before anything later (R191, R218; log entry 137). -/
def State.wingHolds (s : State) (w : Nat) : Bool :=
  let x := s.wingState w
  x == 0 || x == 1 || x == 4 || ((s.wing w).draining && x != 5) || (s.qe.adopt.any fun a => a.failed == w) ||
  s.qe.replay.any fun p => p.1 == w

/-- Why the head command stays where it is: unmet waits, or its wing. -/
def State.headHeld (s : State) (q : Nat) (p : List Nat) : Bool :=
  !s.waitsMet p ||
  ((hdr p 0 8 == 1 || hdr p 0 8 == 2) && s.wingHolds (s.f F.QE_Q_CFG_WING q))

/-- The record of a command that dispatches now: HEAD and INFLIGHT count it, a SIG_INC of 0 is clamped (R210). -/
def State.takeHead (s : State) (q : Nat) (p : List Nat) (unit : Nat) : State × Cmd :=
  let n := s.f F.QE_Q_HEAD_HEAD q
  let s := (s.setF F.QE_Q_HEAD_HEAD (n + 1) q).setF F.QE_Q_STATE_INFLIGHT (s.f F.QE_Q_STATE_INFLIGHT q + 1) q
  let s := s.setQState q qRunning
  let z := hdr p 52 8 == 0
  let s := if z then s.countClamps q (hdr p 0 8) [6] else s
  let c : Cmd := { q := q, seq := n, pkt := p, unit := unit, clamped := z }
  (s.putCmd c, c)

/-- A refused command takes no action and commits nothing (R211). -/
def State.refuseCmd (s : State) (c : Cmd) (r : Refuse) : State :=
  s.putCmd { c with status := r.status, detail := r.detail, execDone := true, noOutputs := true }

/-- A command that reads poison completes DATA_UNCORR (R212). -/
def State.uncorrCmd (s : State) (c : Cmd) : State :=
  s.putCmd { c with status := 0x20, execDone := true, noOutputs := true }

/-- A job with its place in the dispatch order of its wing. -/
def Job.at_ (n : Nat) : Job → Job
  | .mat m => .mat { m with ord := n }
  | .vec v => .vec { v with ord := n }

def Job.ord : Job → Nat
  | .mat m => m.ord
  | .vec v => v.ord

def State.addJob (s : State) (w : Nat) (j : Job) : State :=
  let v := s.wing w
  (s.setWing w { v with jobs := v.jobs ++ [j.at_ v.ord], ord := v.ord + 1 }).wingBusy w

/-- The clamps of a wing command that its wing, out of service, cannot take (R102, R210). -/
def State.lostClamps (s : State) (w : Nat) (c : Cmd) : List Nat :=
  if c.op = 1 then (matFields c.pkt c.q c.seq).2.2
  else match s.fetchBlk w (c.pkt.getD 2 0) none (c.pkt.getD 4 0) (c.pkt.getD 3 0) with
    | some (b, false) => b.clamps
    | _ => []

/-- A wing command on its wing, once its record stands. -/
def State.startWing (s : State) (c : Cmd) (w : Nat) : State :=
  if s.wingState w = 5 then
    let cs := s.lostClamps w c
    (s.countClamps c.q c.op cs).refuseCmd { c with unit := w, clamped := c.clamped || !cs.isEmpty } ⟨0x15, 0, 0xFF, 0xFF⟩
  else
  let c := { c with wing := some w, unit := w }
  let note := fun (s : State) (cs : List Nat) => s.countClamps c.q c.op cs
  if c.op = 1 then
    let z := s.decodeMat w c.q c.seq c.pkt
    let d := z.2
    let s := note z.1 d.clamps
    let c := { c with clamped := c.clamped || !d.clamps.isEmpty }
    if d.uncorr then s.uncorrCmd c else
    match d.res with
    | .error r => s.refuseCmd c r
    | .ok m =>
      let s := s.putCmd { c with noOutputs := m.epi.isNone }
      (s.addJob w (.mat m)).joinStreams w m false
  else
    let z := s.decodeVec w c.q c.seq c.pkt
    let d := z.2
    let s := note z.1 d.clamps
    let c := { c with clamped := c.clamped || !d.clamps.isEmpty }
    if d.uncorr then s.uncorrCmd c else
    match d.res with
    | .error r => s.refuseCmd c r
    | .ok v => ((s.putCmd c).addJob w (.vec v)).startRun w

/-! ### Commit, retire, signal, reply (R196 to R205) -/

/-- Every earlier command of the queue has committed, retired, or been discarded (R197). -/
def State.commitReady (s : State) (q n : Nat) : Bool :=
  s.qe.cmds.all fun c => c.q != q || decide (n ≤ c.seq) || c.committed || c.retired

/-- A run's outputs wait for a tile store or runner domain that is held, and for a stack that cannot take them (R42, R45, R141,
R253). -/
def State.outsHeld (s : State) (w : Nat) (r : VecRun) : Bool :=
  ((r.outs.map fun o => o.addr / 64 * 64).eraseDups).any fun x => s.wingWay w x || !s.writeNow x 64

/-- A run's staged outputs made visible; one that read poison writes none, nor the tile register, and a group committed before a
replay is not committed again (R176, R212, R218). -/
def State.commitRun (s : State) (w : Nat) (r : VecRun) (bad again : Bool) : State :=
  let s := if bad || again then s else s.putOuts r.outs
  let v := s.wing w
  let tr := if bad then v.tr else r.trW.foldl (fun t p => mset t p.1 p.2) v.tr
  (s.setWing w { v with tr := tr, run := none }).setF F.WNG_VEC_STATUS_BUSY 0 w

/-- TILE_COMMIT of a wing command's finished unit (R176, R196). -/
def State.tileCommit (s : State) (q n : Nat) : State :=
  match s.cmd q n with
  | none => s
  | some c =>
    match c.wing with
    | none => s
    | some w =>
      match (s.wing w).run with
      | none => s
      | some r =>
        if r.q ≠ q ∨ r.seq ≠ n ∨ !r.unitDone ∨ !s.commitReady q n ∨ s.outsHeld w r then s else
        match (s.wing w).jobs.find? fun j => j.key = (q, n) with
        | some (.mat m) =>
          let s := s.commitRun w r (m.uncorr || r.uncorr) (decide (r.grp < m.skipTo))
          let m := { m with epiDone := m.epiDone + 1, committed := max m.committed (m.epiDone + 1)
                            flags := m.flags ||| r.flags, epiFlags := r.flags, uncorr := m.uncorr || r.uncorr }
          let s := s.setJob w (.mat m)
          let s := if m.epiDone ≥ m.groups then s.modCmd q n fun c => { c with committed := true } else s
          s.startRun w
        | some (.vec x) =>
          let s := s.commitRun w r (x.uncorr || r.uncorr) (decide (r.rep < x.skipTo))
          let x := { x with committed := x.committed + 1, flags := x.flags ||| r.flags, uncorr := x.uncorr || r.uncorr
                            meter := r.meter, done := decide (x.committed + 1 ≥ x.blk.reps) }
          let s := s.setJob w (.vec x)
          let s := if x.done then s.modCmd q n fun c => { c with committed := true } else s
          s.startRun w
        | none => s

/-- A MATMUL has taken its steps, its columns have passed, its epilogues are committed (R108 to R110). -/
def State.matComplete (s : State) (w : Nat) (m : MatJob) : Bool :=
  (!m.aload || m.loaded) &&
  (m.mask == 0 ||
    (m.stepped &&
      (match m.epi with
       | some _ => decide (m.epiDone ≥ m.groups)
       | none => m.arrs.all fun a => m.cols.all fun c =>
          s.colPassed w a c || (s.col w a c).cmds.getLast? != some (m.q, m.seq))))

/-- What a wing says of a command that may retire: flags, poison. `none` where it is still at work. -/
def State.wingDone (s : State) (w q n : Nat) : Option (Nat × Bool) :=
  match (s.wing w).jobs.find? fun j => j.key = (q, n) with
  | some (.mat m) => if s.matComplete w m then some (m.flags, m.uncorr) else none
  | some (.vec v) => if v.done then some (v.flags, v.uncorr) else none
  | none => none

/-- The taint bit of a final status (Table 17-5). -/
def taintOf (st : Nat) : Option Nat :=
  if st = 0x21 then some 0
  else if st = 0x20 ∨ st = 0x2B ∨ st = 0x34 then some 1
  else if st = 0x22 then some 2
  else if 0x30 ≤ st ∧ st ≤ 0x33 then some 3
  else if st = 0x28 ∨ st = 0x29 ∨ st = 0x2A ∨ st = 0x38 ∨ st = 0x39 then some 4
  else if st = 2 ∨ st = 4 ∨ (0x10 ≤ st ∧ st ≤ 0x15) then some 5 else none

/-- A retired command's taint, where its queue counts (R470). -/
def State.taintCmd (s : State) (q st : Nat) : State :=
  match taintOf st with
  | some b => if s.f F.CRU_RES_QMASK_MASK (q / 64) / 2 ^ (q % 64) % 2 = 1 then s.taint b else s
  | none => s

/-- The completion record (R195, R198): final status, time, one command less in flight. -/
def State.finishCmd (s : State) (c : Cmd) (status flags : Nat) : State :=
  let s := s.taintCmd c.q status
  let s := s.putCmd { c with status := status, flags := flags, time := s.now, retired := true, execDone := true, awaitReplay := false }
  s.setF F.QE_Q_STATE_INFLIGHT (s.f F.QE_Q_STATE_INFLIGHT c.q - 1) c.q

/-- Removing a retired command from its wing; a MATMUL whose chain is open stays in `past` (R218). -/
def State.leaveWing (s : State) (w q n : Nat) : State :=
  let v := s.wing w
  match v.jobs.find? fun j => j.key = (q, n) with
  | none => s
  | some j =>
    let jobs := v.jobs.filter fun x => x.key ≠ (q, n)
    let s : State := match j with
      | .mat m =>
        let open_ := v.cols.any fun p => p.2.opened && p.2.cmds.contains (q, n)
        let past := if open_ then v.past ++ [m] else v.past
        let s := s.setWing w { v with jobs := jobs, past := past }
        let s : State := foldS m.arrs (fun a s => s.setF F.WNG_ARR_STAT_FLAGS m.flags w a) s
        if m.epi.isSome ∧ m.mask ≠ 0 then s.setF F.WNG_VEC_STATUS_FLAGS m.epiFlags w else s
      | .vec x =>
        let s := s.setWing w { v with jobs := jobs }
        s.setF F.WNG_VEC_STATUS_FLAGS x.flags w
    let s := match j with
      | .mat m => if m.epi.isSome ∧ m.mask ≠ 0 then s.bump F.WNG_VEC_CNT_RUNS m.groups w else s
      | .vec _ => s.bump F.WNG_VEC_CNT_RUNS 1 w
    let v := s.wing w
    let past := v.past.filter fun (m : MatJob) => v.cols.any fun p => p.2.opened && p.2.cmds.contains (m.q, m.seq)
    let s := s.setWing w { v with past := past }
    (s.wingBusy w).startRun w

/-- A MATMUL that had retired and was replayed for its open chain leaves its wing again; its record stands (R218). -/
def State.leaveAgain (s : State) (q n : Nat) : State :=
  match s.wings.find? fun p => p.2.jobs.any fun j => j.key = (q, n) with
  | some (w, _) => if (s.wingDone w q n).isSome then s.leaveWing w q n else s
  | none => s

/-- The retire stage of a command (R195, R198). -/
def State.retire (s : State) (q n : Nat) : State :=
  match s.cmd q n with
  | none => s
  | some c =>
    if !c.dispatched ∨ c.awaitReplay then s
    else if c.retired then s.leaveAgain q n else
    let ok := if c.replays > 0 then 1 else 0
    match c.wing with
    | some w =>
      if c.execDone then s.finishCmd c c.status c.flags else
      match s.wingDone w q n with
      | none => s
      | some (fl, bad) => (s.finishCmd c (if bad then 0x20 else ok) fl).leaveWing w q n
    | none =>
      if c.execDone ∧ (c.noOutputs ∨ c.committed) then s.finishCmd c (if c.status = 0 then ok else c.status) c.flags else s

/-- An earlier ORDERED command of the queue has not retired: among those dispatched, or still posted (R201). -/
def State.orderedBefore (s : State) (q n : Nat) : Bool :=
  (s.qe.cmds.any fun x => x.q == q && decide (x.seq < n) && x.ordered && !x.retired) ||
  (natRange (s.f F.QE_Q_HEAD_HEAD q) (n - s.f F.QE_Q_HEAD_HEAD q)).any fun k =>
    (s.cmd q k).isNone && hdr (s.readPkt q k) 8 1 == 1

/-- The signal of a retired command (R201). -/
def State.signalCmd (s : State) (q n : Nat) : State :=
  match s.cmd q n with
  | none => s
  | some c =>
    if !c.retired ∨ c.signalled ∨ !c.signals ∨ s.orderedBefore q n then s
    else (s.gateAdd c.sigGate c.sigInc).putCmd { c with signalled := true }

/-- The 32 bytes of a reply (Table 7-4). -/
def replyBytes (c : Cmd) (size : Nat) : List Byte :=
  leBytes 8 (c.status % 256 + c.flags % 256 * 2 ^ 8 + c.op * 2 ^ 16 + (if c.clamped then 2 ^ 24 else 0) +
    (if c.seq / size % 2 = 0 then 2 ^ 31 else 0) + c.seq % 2 ^ 32 * 2 ^ 32) ++
  leBytes 8 c.detail ++ leBytes 8 c.time ++ leBytes 8 (c.unit % 256 + min c.replays 15 * 2 ^ 8)

/-- Entering ERROR (R211, R220): interrupt where enabled (Table 7-17). -/
def State.enterError (s : State) (q : Nat) : State :=
  let s := s.setQState q qError
  if s.f F.QE_Q_CFG_IRQ_EN q = 1 then s.irq (q + 1) else s

/-- The reply of the next command in order (R204, R205). A slot that no memory backs is refused and reported (R28). -/
def State.replyCmd (s : State) (q : Nat) : State :=
  let x := s.qx q
  match s.cmd q x.written with
  | none => s
  | some c =>
    if !c.retired ∨ (c.signals ∧ !c.signalled) then s else
    let size := s.qSize q
    let a := s.f F.QE_Q_RPL_BASE_BASE q + c.seq % size * 32
    if s.inHbm a 32 ∧ !s.writeNow a 32 then s else
    let s := if s.inHbm a 32 then s.store a (replyBytes c size) else s.raise (srcOf 83 0) ⟨a, 0x80, atWrite⟩
    let s := s.setQx q { x with written := x.written + 1 }
    let s := s.putCmd { c with replied := true }
    let s := if c.irqBit ∧ s.f F.QE_Q_CFG_IRQ_EN q = 1 then s.irq (q + 1) else s
    let refused := decide (0x10 ≤ c.status) && decide (c.status ≤ 0x15)
    if (refused || c.status == 0x22) && s.f F.QE_Q_CFG_STOP_ON_ERR q == 1 && (s.qState q == qRunning || s.qState q == qWaiting)
    then s.enterError q else s

/-! ### Stopping a wing command (R137, R214) -/

/-- A command stops on its wing: its staged outputs go, the chains it wrote close, its receivers are pruned, a pending replay
is cancelled. -/
def State.stopOnWing (s : State) (w q n : Nat) : State :=
  let v := s.wing w
  let k := (q, n)
  let cols := v.cols.map fun p => if p.2.cmds.contains k then (p.1, p.2.close false) else p
  let run := match v.run with | some r => if (r.q, r.seq) == k then none else some r | none => none
  let fifo := (List.range 4).map fun a => s.fifoWithout w a k
  let s := s.setWing w { v with cols := cols, run := run, fifo := fifo, jobs := v.jobs.filter fun j => j.key ≠ k }
  let s := if v.run.isSome && run.isNone then s.setF F.WNG_VEC_STATUS_BUSY 0 w else s
  let s := s.markPrune w (some k)
  let rp := s.qe.replay.map fun (p : Nat × List Job) => (p.1, p.2.filter fun j => j.key ≠ k)
  let ad := s.qe.adopt.map fun (a : Adoption) => { a with jobs := a.jobs.filter fun j => j.key ≠ k }
  let s := { s with qe := { s.qe with replay := rp, adopt := ad } }
  (s.wingBusy w).startRun w

/-! ### Replay (R111, R218, R219) -/

/-- A job as it stands before its first step; a MATMUL keeps the groups it has committed (R218). -/
def Job.fresh : Job → Job
  | .mat m => .mat { m with loaded := false, g := 0, j := 0, c := 0, stepped := false, insts := [], epiDone := 0
                            skipTo := m.committed, flags := 0, epiFlags := 0, uncorr := false }
  | .vec v => .vec { v with done := false, flags := 0, uncorr := false, committed := 0, skipTo := max v.skipTo v.committed }

/-- The commands of a set wait for their replay. -/
def State.markReplay (s : State) (js : List Job) : State :=
  foldS js (fun j s => s.modCmd j.key.1 j.key.2 fun c => if c.retired then c else { c with awaitReplay := true }) s

/-- Jobs in dispatch order. -/
def sortJobs (l : List Job) : List Job :=
  l.foldr (fun x t => (t.takeWhile fun y => decide (y.ord < x.ord)) ++ x :: t.dropWhile fun y => decide (y.ord < x.ord)) []

/-- A MATMUL has chains that have not released: steps or epilogues to come, or an open column it wrote (R218). -/
def WingSt.unreleased (v : WingSt) : Job → Bool
  | .mat m => m.mask != 0 && (!m.stepped || (m.epi.isSome && decide (m.epiDone < m.groups)) ||
      v.cols.any fun p => p.2.opened && p.2.cmds.contains (m.q, m.seq))
  | .vec _ => false

/-- A wing's replay set (R218): in dispatch order, from the first command with an unreleased chain on. -/
def WingSt.replaySet (v : WingSt) : List Job := (sortJobs (v.past.map Job.mat ++ v.jobs)).dropWhile fun j => !v.unreleased j

/-- A failed check (R111, R218): the staged outputs of the wing's replay set are discarded, its chains close, its receivers are
pruned. -/
def State.failChain (s : State) (w a c : Nat) : State :=
  let v := s.wing w
  let bad := (s.col w a c).cmds.getLast?
  let set := v.replaySet.map fun j => match j with
    | .mat m => .mat (if some (m.q, m.seq) = bad then { m with failed := true } else m)
    | x => x
  let keep := v.jobs.filter fun j => !(set.any fun k => k.key == j.key)
  let ks := set.map Job.key
  let run := match v.run with | some r => if ks.contains (r.q, r.seq) then none else some r | none => none
  let cols := v.cols.map fun p => (p.1, p.2.close false)
  let s := s.setWing w { v with jobs := keep, past := [], run := run, cols := cols, fifo := [[], [], [], []] }
  let s := if v.run.isSome && run.isNone then s.setF F.WNG_VEC_STATUS_BUSY 0 w else s
  let s := foldS ks (fun k s => s.markPrune w (some k)) s
  let s := s.markReplay set
  { s with qe := { s.qe with replay := s.qe.replay ++ [(w, set.map Job.fresh)] } }

/-- Re-executing one command of a replay set on a wing (R218, R221): it reads its parameters again, and its streams come from
unicast instances. A case of refusal found now is its final status, and its clamps are counted for this dispatch too (R210). -/
def State.redispatch (s : State) (w : Nat) (j : Job) : State :=
  let k := j.key
  match s.cmd k.1 k.2 with
  | none => s
  | some c0 =>
    let c := if c0.retired then c0 else { c0 with awaitReplay := false, replays := c0.replays + 1, wing := some w, unit := w }
    let s := s.putCmd c
    let refuse := fun (s : State) (r : Refuse) => if c.retired then s else s.refuseCmd c r
    let note := fun (s : State) (cs : List Nat) => s.countClamps c.q c.op ((if hdr c.pkt 52 8 = 0 then [6] else []) ++ cs)
    match j with
    | .mat m =>
      let z := s.decodeMat w k.1 k.2 c.pkt
      let s := note z.1 z.2.clamps
      if z.2.uncorr then (if c.retired then s else s.uncorrCmd c) else
      match z.2.res with
      | .error r => refuse s r
      | .ok n =>
        let n := { n with skipTo := m.skipTo }
        (s.addJob w (.mat n)).joinStreams w n true
    | .vec v =>
      let z := s.decodeVec w k.1 k.2 c.pkt
      let s := note z.1 z.2.clamps
      if z.2.uncorr then (if c.retired then s else s.uncorrCmd c) else
      match z.2.res with
      | .error r => refuse s r
      | .ok n => (s.addJob w (.vec { n with skipTo := v.skipTo })).startRun w

/-- The replay of a failed chain on the same wing (R219). A command that has been replayed REPLAY_MAX times retires
CHECK_FAILED; the rest of the set runs. -/
def State.chainReplay (s : State) (w : Nat) : State :=
  match s.qe.replay.find? fun p => p.1 == w with
  | none => s
  | some (_, js) =>
    let s := { s with qe := { s.qe with replay := s.qe.replay.filter fun p => p.1 != w } }
    let s := foldS js (fun j s =>
      let k := j.key
      let failed := match j with | .mat m => m.failed | .vec _ => false
      match s.cmd k.1 k.2 with
      | none => s
      | some c =>
        if failed && decide (c.replays ≥ s.f F.QE_CTRL_REPLAY_MAX) then
          if c.retired then s else s.finishCmd c 0x21 c.flags
        else s.redispatch w j) s
    s.wingBusy w

/-! ### Wings leaving service (R115, R218 to R223) -/

/-- The adopter of R220: in MASK, READY, no enabled queue bound to it; the lowest of the same field first. -/
def State.adopterFor (s : State) (w : Nat) : Option Nat :=
  let ok := fun (v : Nat) =>
    v != w && s.f F.QE_ADOPT_MASK / 2 ^ v % 2 == 1 && s.wingState v == 2 &&
    !((List.range 256).any fun q => s.f F.QE_Q_CFG_ENABLE q == 1 && s.f F.QE_Q_CFG_WING q == v) &&
    !(s.qe.adopt.any fun a => a.adopter == v)
  match (natRange (w / 16 * 16) 16).find? ok with
  | some v => some v
  | none => (List.range 64).find? ok

/-- No adopter: the set retires WING_LOST and the wing's queues enter ERROR (R220). -/
def State.noAdopter (s : State) (w : Nat) (js : List Job) : State :=
  let s := foldS js (fun j s =>
    match s.cmd j.key.1 j.key.2 with
    | some c => if c.retired then s else s.finishCmd c 0x22 c.flags
    | none => s) s
  let s := foldS ((List.range 256).filter fun q => s.f F.QE_Q_CFG_WING q == w && s.f F.QE_Q_CFG_ENABLE q == 1)
    (fun q s => s.enterError q) s
  let s := (s.setF F.QE_STATUS_NO_ADOPTER 1).setF F.QE_STATUS_LAST_FAILED w
  s.raise (srcOf 65 6) ⟨0, (Master.mk 1 w).code, 0⟩

/-- Choosing an adopter for a wing's replay set (R220, R221). -/
def State.chooseAdopter (s : State) (w : Nat) (js : List Job) : State :=
  match (if s.tileUp w then s.adopterFor w else none) with
  | none => s.noAdopter w js
  | some v => { s with qe := { s.qe with adopt := s.qe.adopt ++ [⟨w, v, js.map Job.key, js⟩] } }

/-- A wing leaves service (R115): it stops, closes every chain, and its work goes to an adopter. -/
def State.wingLeave (s : State) (w cause : Nat) : State :=
  if s.wingState w = 5 then
    -- a failure of a wing that a command took out keeps it out until the next module reset (R43, R117)
    (if s.f F.WNG_STATUS_OUT_CAUSE w = 1 ∧ 2 ≤ cause then s.setF F.WNG_STATUS_OUT_CAUSE cause w else s)
  else
  let v := s.wing w
  let waiting := (s.qe.replay.filter fun p => p.1 == w).flatMap fun p => p.2
  let js := (waiting ++ sortJobs (v.past.map Job.mat ++ v.jobs)).map Job.fresh
  let s := s.markReplay js
  let s := { s with qe := { s.qe with replay := s.qe.replay.filter fun p => p.1 != w } }
  let s := s.markPrune w none
  let s := s.setTiles w { v with jobs := [], past := [], run := none, half0 := none, half1 := none, whole := none
                                 cols := v.cols.map fun p => (p.1, p.2.close false), fifo := [[], [], [], []], tr := []
                                 draining := false, sweep := false }
  let s := s.setF F.WNG_VEC_STATUS_BUSY 0 w
  let s := (s.setWingState w 5).setF F.WNG_STATUS_OUT_CAUSE cause w
  -- SWEEP_OFF ends when the wing leaves TEMPER (R48); its sweeps are abandoned (R458)
  let s := foldS (List.range 4) (fun a s => s.setF F.MGN_DOM_TAP_SWEEP_OFF 0 (6 * w + a)) s
  let s := s.dropSweeps (fun x => x.wing == w) false
  let s := s.raise (srcOf w 7) ⟨0, (Master.mk 1 w).code, 0⟩
  -- a copy towards this wing starts again towards the next adopter (Table 7-10)
  let redo := s.qe.adopt.filter fun a => a.adopter == w
  let s := { s with qe := { s.qe with adopt := s.qe.adopt.filter fun a => a.adopter != w } }
  let s := foldS redo (fun a s => s.chooseAdopter a.failed a.jobs) s
  s.chooseAdopter w js

/-- One wing's tile store copied into another's, poison with it (R221). -/
def State.tileCopy (s : State) (w v : Nat) : State :=
  let src := tileAddr w 0
  let dst := tileAddr v 0
  let bad := (s.poison.filter fun x => decide (src ≤ x) && decide (x < src + tileSize)).map fun x => dst + (x - src)
  { s with mem := cellsCopy s.mem src dst tileSize
           poison := (s.poison.filter fun x => !(decide (dst ≤ x) && decide (x < dst + tileSize))) ++ bad }

/-- The end of an adoption copy (R221, R223): all 6 MiB copied with their poison, its uncorrectable lines found (Table 7-10),
aliases and bindings rewritten, the replay set dispatched on the adopter, which is in service (R114). -/
def State.adoptDone (s : State) (w : Nat) : State :=
  match s.qe.adopt.find? fun a => a.failed == w with
  | none => s
  | some a =>
    let v := a.adopter
    if s.wingState v ≠ 2 ∧ s.wingState v ≠ 3 then s else
    let s := (s.checkRead (tileAddr w 0) tileSize (Master.mk 1 w).code atCmd).tileCopy w v
    let s := { s with qe := { s.qe with adopt := s.qe.adopt.filter fun a => a.failed != w } }
    let s := foldS ((List.range 64).filter fun u => u != w && s.f F.QE_ALIAS_VALID u == 1 && s.f F.QE_ALIAS_TARGET u == w)
      (fun u s => s.setF F.QE_ALIAS_TARGET v u) s
    let s := (s.setF F.QE_ALIAS_TARGET v w).setF F.QE_ALIAS_VALID 1 w
    let s := foldS ((List.range 256).filter fun q => s.f F.QE_Q_CFG_WING q == w) (fun q s => s.setF F.QE_Q_CFG_WING v q) s
    let s := ((s.setF F.QE_STATUS_ADOPTED 1).setF F.QE_STATUS_LAST_FAILED w).setF F.QE_STATUS_LAST_ADOPTER v
    let s := s.raise (srcOf 65 5) ⟨0, (Master.mk 1 w).code, 0⟩
    foldS a.jobs (fun j s => s.redispatch v j) s

end Sys2Proof.Machine
end

