-- ==== Sys2Proof/Machine/Tray.lean ====
section
/-! DEFINITION. The tray memory domain (R335 to R358): addresses, requests and their replies, atomics, the directory of the
coherent window, joining and leaving; and COPY (R348 to R353) with the push aperture it shares (R465). -/

namespace Sys2Proof.Machine

/-! ### Addresses (R335, R337) -/

def trayBase : Nat := 0x100000000000
def traySpan : Nat := 0x10000000000

/-- Slot and offset of a tray address. -/
def trayOf (a : Nat) : Option (Nat × Nat) :=
  if trayBase ≤ a ∧ a < trayBase + 8 * traySpan then some ((a - trayBase) / traySpan, a % traySpan) else none

/-- The endpoint of a slot of the own tray. -/
def State.slotEp (s : State) (m : Nat) : Nat := s.rackNo * 256 + s.trayNo * 32 + m * 4

/-- Whether an endpoint is a module of the own tray, and its slot. -/
def State.inTray (s : State) (ep : Nat) : Bool := ep / 32 == s.self / 32
def epSlot (ep : Nat) : Nat := bitsAt ep 2 3

def State.joined (s : State) (m : Nat) : Bool := s.f F.TRY_STATUS_PEERS / 2 ^ m % 2 == 1

/-- The coherent window (R343), and granules. -/
def State.inWindow (s : State) (a : Nat) : Bool :=
  decide (s.f F.TRY_WIN_BASE_G * 0x40000000 ≤ a) && decide (a < (s.f F.TRY_WIN_BASE_G + s.f F.TRY_WIN_SIZE_G) * 0x40000000)
def granOf (a : Nat) : Nat := a / 128
def gransOf (a n : Nat) : List Nat := if n = 0 then [] else natRange (a / 128) ((a + n - 1) / 128 - a / 128 + 1)

/-! ### Descriptors (R346) -/

/-- The payload of a descriptor cell. -/
def mkDesc (op ndata tag size aop gate addr operand compare : Nat) (inline_ : List Byte) : List Byte :=
  leBytes 1 op ++ leBytes 1 ndata ++ leBytes 2 tag ++ leBytes 1 size ++ leBytes 1 aop ++ leBytes 2 gate ++ leBytes 8 addr ++
  leBytes 8 operand ++ leBytes 8 compare ++ (inline_ ++ List.replicate (32 - inline_.length) 0)

def dField (p : List Byte) (o n : Nat) : Nat := leNat ((p.drop o).take n)
def dOp (p : List Byte) : Nat := dField p 0 1
def dNdata (p : List Byte) : Nat := dField p 1 1
def dTag (p : List Byte) : Nat := dField p 2 2
def dSize (p : List Byte) : Nat := dField p 4 1
def dAop (p : List Byte) : Nat := dField p 5 1
def dGate (p : List Byte) : Nat := dField p 6 2
def dAddr (p : List Byte) : Nat := bitsAt (dField p 8 8) 0 48
def dOperand (p : List Byte) : Nat := dField p 16 8
def dCompare (p : List Byte) : Nat := dField p 24 8
def dInline (p : List Byte) : List Byte := (p.drop 32).take 32

def mkReq (dst cls : Nat) (payload : List Byte) (own : Own) (poison : Bool := false) : TxReq :=
  ⟨dst, cls, false, [], poison, payload, own⟩

/-- Bytes in 64-byte data cells. -/
def dataCells (dst cls : Nat) (own : Own) (poison : List Bool) : Nat → List Byte → List TxReq
  | 0, _ => []
  | n + 1, bs => mkReq dst cls (bs.take 64 ++ List.replicate (64 - (bs.take 64).length) 0) own (poison.headD false) ::
      dataCells dst cls own (poison.drop 1) n (bs.drop 64)

def State.setTray (s : State) (t : TraySt) : State := { s with tray := t }

/-- A tag for a request. -/
def State.newTag (s : State) : Nat × State :=
  (s.tray.nextTag, s.setTray { s.tray with nextTag := (s.tray.nextTag + 1) % 65536 })

/-- A core's access ends (R341, R353): a fault is reported as an access error. -/
def State.coreFault (s : State) (h a at_ : Nat) : State := (s.send (.core h .fault)).accessErr a ⟨0, h⟩ at_

/-! ### The directory (R344, R345) -/

def State.dirEnt (s : State) (g : Nat) : Option DirEnt := s.tray.dir.find? fun d => d.gran == g

/-- ENTRIES of a Flask follow its entries. -/
def State.dirCount (s : State) (g : Nat) : State :=
  let f := flaskOf (g * 128)
  s.setF F.TRY_DIR_ENTRIES (s.tray.dir.filter fun d => flaskOf (d.gran * 128) == f).length f

def State.dirDel (s : State) (g : Nat) : State :=
  (s.setTray { s.tray with dir := s.tray.dir.filter fun d => d.gran != g }).dirCount g

def State.dirPut (s : State) (d : DirEnt) : State :=
  let t := s.tray
  let d := { d with used := t.clock + 1 }
  let dir := if t.dir.any fun x => x.gran == d.gran then t.dir.map fun x => if x.gran = d.gran then d else x else t.dir ++ [d]
  (s.setTray { t with dir := dir, clock := t.clock + 1 }).dirCount d.gran

def DirEnt.holders (d : DirEnt) : List Nat := d.shared ++ d.owner.toList

/-- A slot no longer holds a granule. -/
def State.dropHolder (s : State) (g m : Nat) : State :=
  match s.dirEnt g with
  | none => s
  | some d =>
    let e := { d with shared := d.shared.filter fun x => x != m, owner := d.owner.filter fun x => x != m }
    if e.holders.isEmpty then s.dirDel g
    else (s.setTray { s.tray with dir := s.tray.dir.map fun x => if x.gran = g then e else x }).dirCount g

/-- An answer to a recall: when every holder has answered, a local writer's recall ends. -/
def State.recallAnswered (s : State) (g m : Nat) : State :=
  let rs := s.tray.recalls.map fun r => if r.gran = g then { r with waits := r.waits.filter fun x => x != m } else r
  s.setTray { s.tray with recalls := rs.filter fun r => !(r.waits.isEmpty && r.by_.isNone) }

/-- INVAL to holders of a granule (R345). The own core caches answer at once. -/
def State.recall (s : State) (g : Nat) (by_ : Option Nat) (slots : List Nat) : State :=
  let s := if slots.contains s.slotNo then s.dropHolder g s.slotNo else s
  let far := slots.filter fun m => m != s.slotNo
  if far.isEmpty then s
  else
    let f := flaskOf (g * 128)
    let s := s.setTray { s.tray with recalls := s.tray.recalls ++ [⟨g, by_, far⟩] }
    let s := s.bump F.TRY_CNT_INVALS far.length f
    foldS far (fun m s =>
      let (t, s) := s.newTag
      s.issue [mkReq (s.slotEp m) 0 (mkDesc 8 0 t 0 0 0 (g * 128) 0 0 []) .none]) s

/-- Whether a granule may be served for a requester now: `need` are the holders to recall first. -/
def State.granFree (s : State) (g : Nat) (by_ : Option Nat) (need : List Nat) : State × Bool :=
  match s.tray.recalls.find? fun r => r.gran == g with
  | some r =>
    if r.by_ = by_ ∧ r.waits.isEmpty then (s.setTray { s.tray with recalls := s.tray.recalls.filter fun x => x.gran != g }, true)
    else (s, false)
  | none =>
    if need.isEmpty then (s, true)
    else
      let s := s.recall g by_ need
      (s, !(s.tray.recalls.any fun r => r.gran == g))

/-- Every holder of the window granules that a write touches is invalidated first (R343, R345): the answer says whether the
write may go ahead now. -/
def State.claim (s : State) (a n : Nat) (by_ : Option Nat) : State × Bool :=
  (gransOf a n).foldl (fun (acc : State × Bool) g =>
    match acc.1.dirEnt g with
    | none =>
      match acc.1.tray.recalls.find? fun r => r.gran == g with
      | none => acc
      | some _ => let z := acc.1.granFree g by_ []; (z.1, acc.2 && z.2)
    | some d =>
      let z := acc.1.granFree g by_ d.holders
      (if z.2 then z.1.dirDel g else z.1, acc.2 && z.2)) (s, true)

/-- A claim where the condition holds; elsewhere nothing has to be recalled. -/
def State.claimIf (s : State) (c : Prop) [Decidable c] (a n : Nat) (by_ : Option Nat) : State × Bool :=
  if c then s.claim a n by_ else (s, true)

/-- Room in a granule's set of 16 ways (R344): the least recently used entry is recalled. -/
def State.dirRoom (s : State) (g src : Nat) : State × Bool :=
  let set := s.tray.dir.filter fun d => flaskOf (d.gran * 128) == flaskOf (g * 128) && Config.dirSet d.gran == Config.dirSet g
  if (s.dirEnt g).isSome ∨ set.length < 16 then (s, true)
  else
    match set with
    | [] => (s, true)
    | d :: ds =>
      let v := ds.foldl (fun (b : DirEnt) x => if x.used < b.used then x else b) d
      let fresh := !(s.tray.recalls.any fun r => r.gran == v.gran)
      let z := s.granFree v.gran (some src) v.holders
      let s := if fresh then z.1.bump F.TRY_DIR_EVICTS 1 (flaskOf (v.gran * 128)) else z.1
      if z.2 then (s.dirDel v.gran, true) else (s, false)

/-! ### Joining, leaving, departures (R354 to R356) -/

def State.trayState (s : State) : Nat := s.f F.TRY_STATUS_STATE
def State.setPeer (s : State) (m : Nat) (on : Bool) : State :=
  let x := s.f F.TRY_STATUS_PEERS
  s.setF F.TRY_STATUS_PEERS (if on then x ||| 2 ^ m else x &&& (255 - 2 ^ m))

/-- A COPY has ended towards its queue. -/
def State.copyEnd (s : State) (j : CopyJob) (status detail : Nat) : State :=
  let s := s.setTray { s.tray with copies := s.tray.copies.filter fun x => !(x.q == j.q && x.seq == j.seq) }
  let s := s.setF F.TRY_COPY_ACTIVE (s.tray.copies.filter fun x => x.f == j.f).length j.f
  s.modCmd j.q j.seq fun c => { c with status := status, detail := detail, execDone := true, committed := true }

/-- A peer that holds granules of the own window leaves: they are removed, those it owned are poisoned (Table 12-9). -/
def State.departOwn (s : State) (m : Nat) : State :=
  let held := s.tray.dir.filter fun d => d.holders.contains m
  let s := foldS held (fun d s =>
    let s := if d.owner = some m then
        let s := (s.poisonAt (d.gran * 128)).poisonAt (d.gran * 128 + 64)
        let s := s.setF F.TRY_STATUS_OWNER_LOST 1
        s.raise (srcOf (70 + flaskOf (d.gran * 128)) 13) ⟨d.gran * 128, (Master.mk 3 m).code, atTray⟩
      else s
    s.dropHolder d.gran m) s
  foldS (s.tray.recalls.map (·.gran)) (fun g s => s.recallAnswered g m) s

/-- Granules of a peer's window in the own caches are dropped; dirty data is lost (Table 12-9). -/
def State.departCache (s : State) (m : Nat) : State :=
  let lost := s.tray.cache.filter fun c => c.slot == m && c.dirty
  let s := s.setTray { s.tray with cache := s.tray.cache.filter fun c => c.slot != m }
  foldS lost (fun c s =>
    let a := trayBase + m * traySpan + c.gran * 128
    (s.setF F.TRY_STATUS_LINE_LOST 1).raise (srcOf (70 + homeFlask (s.slotEp m)) 12) ⟨a, (Master.mk 3 m).code, atTray⟩) s

/-- Requests of this module to the peer in flight fail (Table 12-9): core accesses fault, copies end COPY_UNREACHABLE. -/
def State.departReqs (s : State) (m : Nat) : State :=
  let mine := s.tray.reqs.filter fun r => r.slot == m
  let s := s.setTray { s.tray with reqs := s.tray.reqs.filter fun r => r.slot != m }
  let s := foldS mine (fun r s =>
    if r.kind = 5 then s
    else (s.send (.core r.hart .fault)).raise (srcOf (70 + homeFlask (s.slotEp m)) 14) ⟨r.addr, (Master.mk 0 r.hart).code, atTray⟩) s
  let cs := s.tray.copies.filter fun c => c.ep == some (s.slotEp m)
  foldS cs (fun c s => s.copyEnd c 0x28 (s.slotEp m)) s

/-- A tray peer departs (Table 12-9); `lost`: not by LEAVE. -/
def State.depart (s : State) (m : Nat) (lost : Bool) : State :=
  let was := s.joined m
  let s := if lost then ((s.departReqs m).departCache m).departOwn m else s
  let s := s.setPeer m false
  let s := if was then s.setF F.TRY_STATUS_LAST_SLOT m else s
  s.setTray { s.tray with sent := s.tray.sent.filter fun x => x != m, recv := s.tray.recv.filter fun x => x != m }

/-- PEERS is set where JOIN has passed both ways, this module being ON (R354). -/
def State.joinCheck (s : State) (m : Nat) : State :=
  if s.trayState = 2 ∧ s.tray.sent.contains m ∧ s.tray.recv.contains m then s.setPeer m true else s

def State.sendJoin (s : State) (m : Nat) : State :=
  let s := s.issue [mkReq (s.slotEp m) 0 (mkDesc 9 0 0 0 0 0 0 0 0 []) .none]
  s.setTray { s.tray with sent := if s.tray.sent.contains m then s.tray.sent else m :: s.tray.sent }

/-- A received JOIN (R354): an earlier peer is treated as departed, and it is answered with JOIN unless this module's own is
already on its way. -/
def State.recvJoin (s : State) (m : Nat) : State :=
  let s := if s.joined m ∨ s.tray.recv.contains m then s.depart m true else s
  let s := s.setTray { s.tray with recv := if s.tray.recv.contains m then s.tray.recv else m :: s.tray.recv }
  let s := if s.trayState = 2 ∧ !s.tray.sent.contains m then s.sendJoin m else s
  s.joinCheck m

/-- TRY_CTRL.ENABLE = 1 in OFF (R354): ignored while FAB_CTRL.ENABLE is 0. -/
def State.joinStart (s : State) : State :=
  if s.f F.FAB_CTRL_ENABLE = 0 then s
  else
    let s := s.setF F.TRY_CTRL_ENABLE 1
    if s.trayState ≠ 0 then s
    else
      let s := s.setF F.TRY_STATUS_STATE 1
      let others := (List.range 8).filter fun m => m != s.slotNo
      let s : State := foldS others (fun m s => s.sendJoin m) s
      let s := (s.setF F.TRY_STATUS_STATE 2).setPeer s.slotNo true
      foldS others (fun m s => s.joinCheck m) s

/-- A dirty granule of a peer goes home (R345, R355). -/
def State.writeBack (s : State) (c : CacheGran) (own : Own) : State :=
  let (t, s) := s.newTag
  let ep := s.slotEp c.slot
  s.issue (mkReq ep 0 (mkDesc 7 2 t 128 0 0 (c.gran * 128) 0 0 []) own :: dataCells ep 0 own [] 2 c.bytes)

/-- TRY_CTRL.ENABLE = 0 in ON (R355, steps 1, 3 and 4). -/
def State.leaveStart (s : State) : State :=
  let s := s.setF F.TRY_CTRL_ENABLE 0
  if s.trayState ≠ 2 then s
  else
    let s := s.setF F.TRY_STATUS_STATE 3
    let s : State := foldS (s.tray.dir.filter fun d => d.holders.any fun m => m != s.slotNo)
      (fun d s => if s.tray.recalls.any fun r => r.gran == d.gran then s else s.recall d.gran none d.holders) s
    let s : State := foldS (s.tray.cache.filter fun c => c.dirty) (fun c s => s.writeBack c (.recall c.slot 0 c.gran)) s
    s.setTray { s.tray with cache := [] }

/-- The end of LEAVING (R355, steps 2 and 5): nothing accepted is open, no granule is out, no write-back is in flight. -/
def State.leaveDone (s : State) : State :=
  let open_ := s.fab.inbox.any fun c => c.cls == 0 && s.inTray c.src
  let out := s.tray.dir.any fun d => d.holders.any fun m => m != s.slotNo
  let wb := (s.fab.tx.any fun x => x.2.cls.any fun y => y.2.unacked.any fun t => match t.own with | .recall _ _ _ => true | _ => false) ||
    (s.fab.backlog.any fun r => match r.own with | .recall _ _ _ => true | _ => false)
  if s.trayState ≠ 3 ∨ open_ ∨ out ∨ wb ∨ !s.tray.reqs.isEmpty then s
  else
    let peers := (List.range 8).filter fun m => m != s.slotNo && s.joined m
    let s : State := foldS peers (fun m s => s.issue [mkReq (s.slotEp m) 0 (mkDesc 10 0 0 0 0 0 0 0 0 []) .none]) s
    let s := (s.setF F.TRY_STATUS_PEERS 0).setF F.TRY_STATUS_STATE 0
    s.setTray { s.tray with sent := [], recv := [], recalls := [] }

/-- A write of TRY_WIN (R343, R357, R358). -/
def State.tryWin (s : State) (v : Nat) (m : Master) : State :=
  let base := bitsAt v 0 10
  let size := min 16 (bitsAt v 16 5)
  let lo := base * 0x40000000
  let hi := (base + size) * 0x40000000
  let bad := s.trayState ≠ 0 ∨ (size ≠ 0 ∧ (lo < 0x10000000 ∨ s.hbmTop < hi))
  if bad then s.cfgErr (RegKey.addr ⟨.TRY_WIN, 0, 0⟩) m else (s.setF F.TRY_WIN_BASE_G base).setF F.TRY_WIN_SIZE_G size

/-! ### Atomics (R341, R342, R385) -/

/-- The code of Table 12-1. -/
def amoCode : CoreAmo → Option Nat
  | .add => some 0 | .min => some 1 | .max => some 2 | .minu => some 3 | .maxu => some 4 | .cas => some 5
  | _ => none

/-- The new value of an atomic on `n` bytes. -/
def amoApply (o : CoreAmo) (n old operand compare : Nat) : Nat :=
  let w := 8 * n
  let x := old % 2 ^ w
  let y := operand % 2 ^ w
  match o with
  | .add => (x + y) % 2 ^ w
  | .min => if toSigned w x ≤ toSigned w y then x else y
  | .max => if toSigned w x ≥ toSigned w y then x else y
  | .minu => min x y
  | .maxu => max x y
  | .cas => if x = compare % 2 ^ w then y else x
  | .swap => y
  | .and => x &&& y
  | .or => x ||| y
  | .xor => x ^^^ y
  | .lr => x
  | .sc => y

def amoOf (code : Nat) : CoreAmo :=
  match code with | 0 => .add | 1 => .min | 2 => .max | 3 => .minu | 4 => .maxu | _ => .cas

/-- An atomic at the home Flask (R341, R342), which reads through the ladle for master `m`: the old value, or `none` on poison, which
leaves the location unchanged. -/
def State.atomicAt (s : State) (a n : Nat) (o : CoreAmo) (operand compare m : Nat) : State × Option Nat :=
  let s := s.checkRead a n m atAtomic
  if s.poisoned a n then (s, none)
  else
    let old := s.readNat a n
    (s.store a (leBytes n (amoApply o n old operand compare)), some old)

/-! ### Core accesses (R336 to R341, R385) -/

/-- A request to a slot of the tray with its record. -/
def State.trayReq (s : State) (m : Nat) (r : TrayReq) (payload : Nat → List Byte) (own : Nat → Own) : State :=
  let (t, s) := s.newTag
  let s := s.setTray { s.tray with reqs := s.tray.reqs ++ [{ r with slot := m, tag := t }] }
  s.issue [mkReq (s.slotEp m) 0 (payload t) (own t)]

/-- Whether a core access to a slot of the tray may leave (R335, R354, R355). -/
def State.trayOpen (s : State) (m o n : Nat) : Bool :=
  s.trayState == 2 && s.joined m && decide (0x10000000 ≤ o) && decide (o + n ≤ hbmEnd)

/-- A core load of the module's own memory, of a line that carries poison an access fault. One that the ladle or the tile store
cannot serve yet is not accepted (log entry 139). -/
def State.ownLoad (s : State) (h a n : Nat) (atype : Nat) (ok : Bool) (o : Nat) : State :=
  if !ok then s.coreFault h a (atype + atRead) else
  if !s.readNow o n 0 then s else
  let s := s.checkRead o n (Master.mk 0 h).code (atype + atRead)
  if s.poisoned o n then s.coreFault h a (atype + atRead) else s.send (.core h (.data (s.readBytes o n)))

/-- A core store to the module's own memory; granules that peers hold are claimed first (R345). -/
def State.ownStore (s : State) (h a : Nat) (bs : List Byte) (atype : Nat) (ok : Bool) (o : Nat) : State :=
  if !ok then s.coreFault h a (atype + atWrite) else
  if !s.writeNow o bs.length then s else
  let z := s.claimIf (o < tileBase) o bs.length none
  if z.2 then (z.1.store o bs).send (.core h .done) else z.1

/-- A core load (R338). `cached`: the address lies in the target's coherent window. -/
def State.trayLoad (s : State) (h a n : Nat) (cached : Bool) : State :=
  match trayOf a with
  | none => s.coreFault h a atRead
  | some (m, o) =>
    if m = s.slotNo then
      s.ownLoad h a n atTray (s.inHbm o n) o
    else if !s.trayOpen m o n then s.coreFault h a (atTray + atRead)
    else
      match s.tray.cache.find? fun c => cached && c.slot == m && c.gran == o / 128 with
      | some c => s.send (.core h (.data ((c.bytes.drop (o % 128)).take n)))
      | none =>
        let op := if cached then 2 else 1
        s.trayReq m { slot := m, tag := 0, hart := h, kind := if cached then 3 else 0, addr := a, n := n }
          (fun t => mkDesc op 0 t (if cached then 128 else n) 0 0 (if cached then o / 128 * 128 else o) 0 0 []) (fun _ => .none)

/-- A core store (R338, R345): posted. A granule held SHARED is obtained with READ_OWN first. -/
def State.trayStore (s : State) (h a : Nat) (bs : List Byte) (cached : Bool) : State :=
  match trayOf a with
  | none => s.coreFault h a atWrite
  | some (m, o) =>
    let n := bs.length
    if m = s.slotNo then s.ownStore h a bs atTray (s.inHbm o n) o
    else if !s.trayOpen m o n then s.coreFault h a (atTray + atWrite)
    else
      match s.tray.cache.find? fun c => cached && c.slot == m && c.gran == o / 128 with
      | some c =>
        if c.owned then
          let bytes := c.bytes.take (o % 128) ++ bs ++ c.bytes.drop (o % 128 + n)
          let cache := s.tray.cache.map fun x => if x.slot = m ∧ x.gran = c.gran then { x with bytes := bytes, dirty := true } else x
          (s.setTray { s.tray with cache := cache }).send (.core h .done)
        else
          s.trayReq m { slot := m, tag := 0, hart := h, kind := 4, addr := a, n := n, data := bs }
            (fun t => mkDesc 3 0 t 128 0 0 (o / 128 * 128) 0 0 []) (fun _ => .none)
      | none =>
        let s := s.trayReq m { slot := m, tag := 0, hart := h, kind := 1, addr := a, n := n }
          (fun t => mkDesc 4 0 t n 0 0 o 0 0 bs) (fun t => .core h t)
        s.send (.core h .done)

/-- A core atomic on a tray address (R341). -/
def State.trayAtomic (s : State) (h a n : Nat) (o : CoreAmo) (operand compare : Nat) : State :=
  match trayOf a, amoCode o with
  | some (m, off), some code =>
    if off % n ≠ 0 ∨ (n ≠ 4 ∧ n ≠ 8) then s.coreFault h a (atTray + atAtomic)
    else if m = s.slotNo then
      if !s.inHbm off n then s.coreFault h a (atTray + atAtomic)
      else if !s.readNow off n 0 then s
      else
        let z := s.claim off n none
        if !z.2 then z.1
        else
          match z.1.atomicAt off n o operand compare (Master.mk 0 h).code with
          | (s, some old) => s.send (.core h (.data (leBytes n old)))
          | (s, none) => s.send (.core h .fault)
    else if !s.trayOpen m off n then s.coreFault h a (atTray + atAtomic)
    else
      s.trayReq m { slot := m, tag := 0, hart := h, kind := 2, addr := a, n := n }
        (fun t => mkDesc 6 0 t n (code + (if n = 8 then 8 else 0)) 0 off operand compare []) (fun t => .core h t)
  | _, _ => s.coreFault h a (atTray + atAtomic)

/-- Whether a hart's earlier tray stores and atomics are complete (R340). -/
def State.hartQuiet (s : State) (h : Nat) : Bool :=
  !(s.tray.reqs.any fun r => r.hart == h && (r.kind == 2 || r.kind == 4)) &&
  !(s.fab.backlog.any fun r => match r.own with | .core x _ => x == h | _ => false) &&
  !(s.fab.tx.any fun x => x.2.cls.any fun y => y.2.unacked.any fun t => match t.own with | .core z _ => z == h | _ => false)

/-- A RISC-V FENCE (R340). -/
def State.coreFence (s : State) (h : Nat) (pred : Bool) : State :=
  if !pred ∨ s.hartQuiet h then s.send (.core h .done)
  else s.setTray { s.tray with fences := s.tray.fences ++ [h] }

/-- A core atomic on the module's own memory (Table 14-24). LR and SC keep one reservation per hart, on a granule. -/
def State.localAtomic (s : State) (h a n : Nat) (o : CoreAmo) (operand compare : Nat) : State :=
  let lrsc := o == .lr || o == .sc
  if !s.inHbm a n ∨ n = 0 ∨ a % n ≠ 0 ∨ !(n == 4 || n == 8 || (n == 16 && o == .cas)) ∨ (lrsc ∧ !s.inWindow a) then s.coreFault h a atAtomic
  else if !s.readNow a n 0 then s
  else
    let z := s.claimIf (s.inWindow a ∨ (s.dirEnt (granOf a)).isSome) a n none
    if !z.2 then z.1
    else
      let s := z.1
      let held := s.resv.contains (h, granOf a)
      let s := if s.inWindow a then s.dirPut ⟨granOf a, [], some s.slotNo, 0⟩ else s
      if o = .lr then
        let s := s.checkRead a n (Master.mk 0 h).code atAtomic
        if s.poisoned a n then s.send (.core h .fault)
        else
          let s := { s with resv := (s.resv.filter fun (r : Nat × Nat) => r.1 != h) ++ [(h, granOf a)] }
          s.send (.core h (.data (s.readBytes a n)))
      else if o = .sc then
        let s := if held then s.store a (leBytes n operand) else s
        let s := { s with resv := s.resv.filter fun (r : Nat × Nat) => r.1 != h }
        s.send (.core h (.data (leBytes n (if held then 0 else 1))))
      else
        match s.atomicAt a n o operand compare (Master.mk 0 h).code with
        | (s, some old) => s.send (.core h (.data (leBytes n old)))
        | (s, none) => s.send (.core h .fault)

/-! ### The push aperture (R465) -/

/-- Base of a generation of the reserve region, and its capacity for data (R464). -/
def State.genBase (s : State) (g : Nat) : Nat := hbmEnd - s.reserveG * 0x40000000 + g * s.reserveG * 0x20000000
def State.genCap (s : State) : Nat := s.reserveG * 0x20000000 - 68 * 1024

/-- The pending generation of an aperture write: that which is OPEN. -/
def State.openGen (s : State) : Option Nat := [0, 1].find? fun g => s.res.pending == some g

/-- The generation that an OPEN for step `st` takes (R465, steps 1 to 3). -/
def State.genFor (s : State) (st : Nat) : Option Nat :=
  if s.f F.CRU_RES_COMMIT_LAST + 1 < st then none
  else
    match [0, 1].find? fun g => s.f F.CRU_RES_HELD_STATE g != 0 && s.f F.CRU_RES_HELD_STEP g == st && s.f F.CRU_RES_HELD_COMMITTED g == 0 with
    | some g => some g
    | none =>
      let free := [0, 1].filter fun g => s.f F.CRU_RES_HELD_COMMITTED g == 0
      match free with
      | [g] => some g
      | _ => some (if s.f F.CRU_RES_HELD_STEP 1 < s.f F.CRU_RES_HELD_STEP 0 then 1 else 0)

/-- The header of a generation is written: its step and its state (R465). -/
def State.genHeader (s : State) (g o st state : Nat) (bs : List Byte) : State :=
  let s := ((s.store (s.genBase g + o) bs).setF F.CRU_RES_HELD_STEP st g).setF F.CRU_RES_HELD_STATE (state % 4) g
  { s with res := { s.res with pending := some g } }

/-- A write that falls into the push aperture (R465): refused, waiting for a RESTORE that reads the generation (R484), or
placed. -/
inductive Aper where
  | refuse | wait | done (s : State)

def State.aperture (s : State) (src a : Nat) (bs : List Byte) : Aper :=
  let o := a - hbmEnd
  let isHdr := o == 0 && decide (9 ≤ bs.length)
  let st := leNat (bs.take 6)
  let state := (bs.getD 8 0).toNat
  let opening := isHdr && state == 1
  if src ≠ s.f F.CRU_RES_CTRL_BUDDY ∨ s.f F.CRU_RES_CTRL_ENABLE = 0 ∨ s.reserveG = 0 ∨ s.genCap + 0x11000 < o + bs.length then .refuse
  else
    match (if opening then s.genFor st else s.openGen) with
    | none => .refuse
    | some g =>
      if s.f F.CRU_RES_HELD_COMMITTED g = 1 then .refuse
      else if opening ∧ s.res.jobs.any (fun x => x.restore && x.gen == g) then .wait
      else
        .done (if isHdr then s.genHeader g o st state bs else s.store (s.genBase g + o) bs)

/-! ### Requests at their home (R337, R345 to R347, R353) -/

/-- Cells that stand first in the inbox from a source in a class: descriptor and its data cells. -/
def State.request (s : State) (src cls : Nat) : Option (Cell × List Cell) :=
  match s.fab.inbox.filter fun c => c.src == src && c.cls == cls && !c.mc with
  | [] => none
  | d :: cs => if dNdata d.payload ≤ cs.length then some (d, cs.take (dNdata d.payload)) else none

/-- Taking cells out of the inbox. -/
def State.takeCells (s : State) (cs : List Cell) : State :=
  { s with fab := { s.fab with inbox := cs.foldl (fun l c => l.erase c) s.fab.inbox } }

/-- A row for one kind of request: the first request of the source, when it has that OP. A code that names nothing is
discarded and counted. -/
def State.onRequest (s : State) (src cls op : Nat) (k : Cell → List Cell → State → State) : State :=
  match s.request src cls with
  | none => s
  | some (d, cs) =>
    let o := dOp d.payload
    if o = op then k d cs s
    else if (if cls = 0 then decide (1 ≤ o ∧ o ≤ 11) else decide (0x81 ≤ o ∧ o ≤ 0x83)) then s
    else (s.takeCells [d]).bump F.TRY_CNT_REFUSED 1 (homeFlask src)

/-- The cause for which the home refuses an access (Table 12-8), 0 for none. -/
def State.homeCause (s : State) (src a n : Nat) : Nat :=
  if s.inTray src ∧ s.trayState ≠ 2 then 2
  else if s.inHbm a n then (if s.f F.FLK_MEM_STACK_STAT_STATE (stackOf a) = 4 then 4 else 0)
  else
    match tileOf (s.xlat a) with
    | some (w, o) => if o + n > tileSize then 1 else if s.tileUp w then 0 else 3
    | none => 1

def State.homeOf (_ : State) (a : Nat) : Nat := if a < hbmEnd then flaskOf a else 0

/-- A refusal at the home (R353). -/
def State.refuseReq (s : State) (src : Nat) (d : Cell) (cs : List Cell) (cause : Nat) : State :=
  let f := s.homeOf (dAddr d.payload)
  let s := ((s.takeCells (d :: cs)).bump F.TRY_CNT_REFUSED 1 f).setF F.TRY_STATUS_REFUSED_IN 1
  let s := s.issue [mkReq src 1 (mkDesc 0x83 0 (dTag d.payload) 0 cause 0 (dAddr d.payload) 0 0 []) .none]
  if cause = 1 then s.accessErr (dAddr d.payload) ⟨3, epSlot src⟩ (atTray + atRemote) else s

def State.served (s : State) (d : Cell) (cs : List Cell) : State :=
  (s.takeCells (d :: cs)).bump F.TRY_CNT_SERVED 1 (s.homeOf (dAddr d.payload))

/-- A DATA reply (R346): up to 32 bytes inline, more in data cells; poisoned data carries POISON. -/
def State.dataReply (s : State) (src tag a n : Nat) : State :=
  let bs := s.readBytes a n
  if n ≤ 32 then s.issue [mkReq src 1 (mkDesc 0x81 0 tag n 0 0 a 0 0 bs) .none (s.poisoned a n)]
  else
    let k := (n + 63) / 64
    s.issue (mkReq src 1 (mkDesc 0x81 k tag n 0 0 a 0 0 []) .none :: dataCells src 1 .none ((List.range k).map fun i => s.poisoned (a + 64 * i) 64) k bs)

def State.homeRead (s : State) (src : Nat) : State :=
  s.onRequest src 0 1 fun d cs s =>
    let a := dAddr d.payload
    let n := dSize d.payload
    let cause := if !s.inTray src then 1 else s.homeCause src a n
    if cause ≠ 0 then s.refuseReq src d cs cause
    else if !s.readNow (s.xlat a) n 0 then s
    else
      -- an uncached read of a window granule takes the data of its owner first
      let need := (gransOf a n).flatMap fun g => match s.dirEnt g with | some e => e.owner.toList | none => []
      let z := s.claimIf (¬ (need.isEmpty ∧ !(s.tray.recalls.any fun r => (gransOf a n).contains r.gran))) a n (some src)
      if z.2 then ((z.1.checkRead a n (Master.mk 3 (epSlot src)).code (atTray + atRead)).served d cs).dataReply src (dTag d.payload) a n else z.1

/-- READ_LINE and READ_OWN (Table 12-2); from outside the tray they are refused (R29). -/
def State.homeLine (s : State) (src : Nat) (own : Bool) : State :=
  s.onRequest src 0 (if own then 3 else 2) fun d cs s =>
    let a := dAddr d.payload / 128 * 128
    let g := granOf a
    let m := epSlot src
    let cause := if !s.inTray src ∨ (s.trayState = 2 ∧ !s.inWindow a) then 1 else s.homeCause src a 128
    if cause ≠ 0 then s.refuseReq src d cs cause
    else if !s.readNow a 128 0 then s
    else
      let z := s.dirRoom g src
      if !z.2 then z.1
      else
        let s := z.1
        let e := (s.dirEnt g).getD ⟨g, [], none, 0⟩
        let need := if own then e.holders.filter fun x => x != m else e.owner.toList.filter fun x => x != m
        let z := s.granFree g (some src) need
        if !z.2 then z.1
        else
          let s := z.1
          let e := (s.dirEnt g).getD ⟨g, [], none, 0⟩
          let e := if own then { e with shared := [], owner := some m }
            else if e.owner = some m then e else { e with shared := if e.shared.contains m then e.shared else m :: e.shared, owner := none }
          (((s.dirPut e).checkRead a 128 (Master.mk 3 m).code (atTray + atRead)).served d cs).dataReply src (dTag d.payload) a 128

/-- The bytes a WRITE or WRITE_BURST brings, with the poison of its data cells. -/
def writeData (d : Cell) (cs : List Cell) : List Byte × List Bool :=
  if dOp d.payload = 4 then ((dInline d.payload).take (dSize d.payload), [d.poison])
  else (cs.flatMap fun c => c.payload.take 64, cs.map (·.poison))

/-- Writing the data at the home, its poison with it (R240, R303). -/
def State.acceptWrite (s : State) (a : Nat) (bs : List Byte) (bad : List Bool) : State :=
  let s := s.store a bs
  foldS (bad.zipIdx.filter fun p => p.1) (fun p s => s.poisonAt (a + 64 * p.2)) s

/-- The store of a WRITE or WRITE_BURST, when every other holder is rid of what it touches (R345). -/
def State.homeStore (s : State) (src a : Nat) (d : Cell) (cs : List Cell) : State :=
  if !s.writeNow (s.xlat a) (writeData d cs).1.length then s else
  let z := s.claim a (writeData d cs).1.length (some src)
  if z.2 then (z.1.acceptWrite (z.1.xlat a) (writeData d cs).1 (writeData d cs).2).served d cs else z.1

/-- WRITE and WRITE_BURST (R345, R346, R465). -/
def State.homeWrite (s : State) (src op : Nat) : State :=
  s.onRequest src 0 op fun d cs s =>
    let a := dAddr d.payload
    let w := writeData d cs
    if hbmEnd ≤ a ∧ a < tileBase ∧ (trayOf a).isNone then
      match s.aperture src a w.1 with
      | .refuse => (s.refuseReq src d cs 1).raise (srcOf 86 4) {}
      | .wait => s
      | .done s => (foldS (w.2.zipIdx.filter fun p => p.1) (fun p s => s.poisonAt (s.genBase (s.res.pending.getD 0) + (a - hbmEnd) + 64 * p.2)) s).served d cs
    else
      let cause := s.homeCause src a w.1.length
      if cause ≠ 0 then s.refuseReq src d cs cause else s.homeStore src a d cs

/-- ATOMIC (R341, R342); from outside the tray it is refused (R29). -/
def State.homeAtomic (s : State) (src : Nat) : State :=
  s.onRequest src 0 6 fun d cs s =>
    let a := dAddr d.payload
    let n := if dAop d.payload / 8 % 2 = 1 then 8 else 4
    let cause := if a % n ≠ 0 ∨ 6 ≤ dAop d.payload % 8 ∨ !s.inHbm a n then 1 else s.homeCause src a n
    let cause := if !s.inTray src then 1 else if s.trayState ≠ 2 then 2 else cause
    if cause ≠ 0 then s.refuseReq src d cs cause
    else if !s.readNow a n 0 then s
    else
      let z := s.claim a n (some src)
      if !z.2 then z.1
      else
        match z.1.atomicAt a n (amoOf (dAop d.payload % 8)) (dOperand d.payload) (dCompare d.payload) (Master.mk 3 (epSlot src)).code with
        | (s, some old) =>
          (s.served d cs).issue [mkReq src 1 (mkDesc 0x81 0 (dTag d.payload) n 0 0 a 0 0 (leBytes n old)) .none]
        | (s, none) =>
          (s.served d cs).issue [mkReq src 1 (mkDesc 0x81 0 (dTag d.payload) n 0 0 a 0 0 (leBytes n 0)) .none true]

/-- WRITEBACK from the owner (R345): its data is accepted, the granule has no entry; any other WRITEBACK is refused. -/
def State.homeWriteback (s : State) (src : Nat) : State :=
  s.onRequest src 0 7 fun d cs s =>
    let a := dAddr d.payload / 128 * 128
    let m := epSlot src
    if (s.dirEnt (granOf a)).any fun e => e.owner == some m then
      let bs := cs.flatMap fun c => c.payload.take 64
      let s := s.acceptWrite a bs (cs.map (·.poison))
      (((s.dirDel (granOf a)).recallAnswered (granOf a) m).served d cs)
    else s.refuseReq src d cs 1

/-- INVAL at a holder (R345): the copy is dropped; dirty data is written back first. -/
def State.holderInval (s : State) (src : Nat) : State :=
  s.onRequest src 0 8 fun d cs s =>
    let s := s.served d cs
    let g := granOf (dAddr d.payload)
    let m := epSlot src
    let ack := fun (s : State) => s.issue [mkReq src 1 (mkDesc 0x82 0 (dTag d.payload) 0 0 0 (g * 128) 0 0 []) .none]
    match s.tray.cache.find? fun c => c.slot == m && c.gran == g with
    | none => ack s
    | some c =>
      let s := s.setTray { s.tray with cache := s.tray.cache.filter fun x => !(x.slot == m && x.gran == g) }
      if c.dirty then
        let s := s.setTray { s.tray with acks := s.tray.acks ++ [(m, dTag d.payload, g)] }
        s.writeBack c (.recall m (dTag d.payload) g)
      else ack s

/-- INVAL_ACK at the home (R345). -/
def State.homeInvalAck (s : State) (src : Nat) : State :=
  s.onRequest src 1 0x82 fun d cs s =>
    let g := granOf (dAddr d.payload)
    ((s.takeCells (d :: cs)).dropHolder g (epSlot src)).recallAnswered g (epSlot src)

/-- ARRIVE (R347): the gate is incremented after every earlier request of the source. -/
def State.homeArrive (s : State) (src : Nat) : State :=
  s.onRequest src 0 11 fun d cs s => (s.served d cs).gateAdd (dGate d.payload % 4096) (dOperand d.payload % 256)

def State.homeJoin (s : State) (src : Nat) : State :=
  s.onRequest src 0 9 fun d cs s => let s := s.takeCells (d :: cs); if s.inTray src then s.recvJoin (epSlot src) else s

def State.homeLeave (s : State) (src : Nat) : State :=
  s.onRequest src 0 10 fun d cs s => let s := s.takeCells (d :: cs); if s.inTray src then s.depart (epSlot src) false else s

/-! ### Replies (R338, R346, R353) -/

def State.dropReq (s : State) (r : TrayReq) : State := s.setTray { s.tray with reqs := s.tray.reqs.filter fun x => x != r }

/-- The granule a reply brings into the core caches. -/
def State.fillCache (s : State) (m g : Nat) (owned dirty : Bool) (bytes : List Byte) : State :=
  let rest := s.tray.cache.filter fun c => !(c.slot == m && c.gran == g)
  s.setTray { s.tray with cache := rest ++ [⟨m, g, owned, dirty, bytes⟩] }

/-- A DATA reply (R341, R342, R346): a load's or an atomic's value, a granule, or the old value of a COPY ATOMIC. Poison gives a
load access fault; a COPY completes DATA_UNCORR. -/
def State.replyData (s : State) (src : Nat) : State :=
  s.onRequest src 1 0x81 fun d cs s =>
    let s := s.takeCells (d :: cs)
    match s.tray.reqs.find? fun r => r.tag == dTag d.payload && s.slotEp r.slot == src with
    | none => s
    | some r =>
      let s := s.dropReq r
      let bad := d.poison || cs.any (·.poison)
      let bytes := if cs.isEmpty then dInline d.payload else cs.flatMap fun c => c.payload.take 64
      let o := r.addr % traySpan
      match r.kind with
      | 0 => if bad then s.coreFault r.hart r.addr (atTray + atRead) else s.send (.core r.hart (.data (bytes.take r.n)))
      | 2 => if bad then s.send (.core r.hart .fault) else s.send (.core r.hart (.data (bytes.take r.n)))
      | 3 =>
        if bad then s.coreFault r.hart r.addr (atTray + atRead)
        else (s.fillCache r.slot (o / 128) false false bytes).send (.core r.hart (.data ((bytes.drop (o % 128)).take r.n)))
      | 4 =>
        if bad then s.coreFault r.hart r.addr (atTray + atWrite)
        else (s.fillCache r.slot (o / 128) true true (bytes.take (o % 128) ++ r.data ++ bytes.drop (o % 128 + r.n))).send (.core r.hart .done)
      | 5 =>
        match s.tray.copies.find? fun j => j.q == r.q && j.seq == r.seq with
        | none => s
        | some j =>
          let c := s.cmd r.q r.seq
          let dst := s.xlat (bitsAt ((c.map (·.pkt)).getD [] |>.getD 2 0) 0 48)
          let s := if bad then s else s.store dst (bytes.take r.n)
          s.setTray { s.tray with copies := s.tray.copies.map fun x => if x = j then { x with waitReply := false, status := if bad then 0x20 else x.status } else x }
      | _ => s

/-- A REFUSED reply (R353): an access fault, or COPY_REFUSED_REMOTE. -/
def State.replyRefused (s : State) (src : Nat) : State :=
  s.onRequest src 1 0x83 fun d cs s =>
    let s := s.takeCells (d :: cs)
    let tag := dTag d.payload
    let s := match s.tray.reqs.find? fun r => r.tag == tag && s.slotEp r.slot == src && r.kind != 5 with
      | some r => (s.dropReq r).coreFault r.hart r.addr (atTray + atRemote)
      | none => s
    let s := s.setTray { s.tray with reqs := s.tray.reqs.filter fun r => !(r.tag == tag && s.slotEp r.slot == src) }
    -- all descriptors of a copy, a PUSH or a RESTORE carry its one tag
    let cs' := s.tray.copies.map fun j =>
      if j.ep = some src ∧ j.tag = tag ∧ j.status ≠ 0x29 then { j with status := 0x29, detail := dAop d.payload, waitReply := false } else j
    let s := s.setTray { s.tray with copies := cs' }
    let jobs := s.res.jobs.map fun j => if j.ep = src ∧ j.tag = tag ∧ j.status = 0 then { j with status := 0x3E, detail := src + 2 * 2 ^ 16 + dAop d.payload * 2 ^ 24 } else j
    { s with res := { s.res with jobs := jobs } }

/-! ### COPY (R348 to R353) -/

/-- The clamped fields of a COPY (Tables 12-4 and 12-5). -/
structure CopyArgs where
  src : Nat
  mode : Nat
  kind : Nat
  dst : Nat
  ep : Nat
  rowBytes : Nat
  rows : Nat
  sp : Nat
  dp : Nat
  idx : Nat
  operand : Nat
  compare : Nat
  aop : Nat
  arr : Option (Nat × Nat)
  shint : Nat
  dhint : Nat
  deriving DecidableEq, Repr

def isTile (a : Nat) : Bool := (tileOf a).isSome

/-- The granule of a copy (R348). -/
def copyGran (src dst kind : Nat) : Nat := if isTile src ∨ ((kind = 0 ∨ kind = 2) ∧ isTile dst) then 64 else 4

def upTo (g x : Nat) : Nat := (x + g - 1) / g * g

/-- Fields of a COPY clamped in the order of Table 12-5, with the offsets clamped. -/
def copyArgs (p : List Nat) : CopyArgs × List Nat :=
  let w := fun (i lsb n : Nat) => bitsAt (p.getD i 0) lsb n
  let mode := w 2 48 3
  let src := w 2 0 48
  let kind := w 2 56 2
  let dst := w 3 0 48
  let g := copyGran src dst kind
  let cl := fun (c : Bool) (off x y : Nat) (l : List Nat) => if c then (y, l ++ [off]) else (x, l)
  let at4 := mode == 4
  let rb := w 4 0 32
  let (rb, cs) := cl (!at4 && (rb == 0 || rb % g != 0)) 0x20 rb (max g (upTo g rb)) []
  let multi := mode == 1 || mode == 2 || mode == 3
  let rows := w 4 32 24
  let (rows, cs) := cl (multi && rows == 0) 0x24 rows 1 cs
  let sp := w 5 0 32
  let (sp, cs) := cl (multi && sp % g != 0) 0x28 sp (upTo g sp) cs
  let dp := w 5 32 32
  let (dp, cs) := cl (multi && dp % g != 0) 0x2C dp (upTo g dp) cs
  let (dp, cs) := cl ((mode == 1 || mode == 3) && decide (dp < rb)) 0x2C dp rb cs
  let inc := w 7 16 8
  let en := w 7 12 1 == 1
  let (inc, cs) := cl (en && inc == 0) 0x3A inc 1 cs
  ({ src := src, mode := mode, kind := kind, dst := dst, ep := w 3 48 16, rowBytes := rb, rows := if multi then rows else 1
     sp := sp, dp := dp, idx := w 6 0 48, operand := p.getD 5 0, compare := p.getD 6 0, aop := w 4 0 4
     arr := if en then some (w 7 0 12, inc) else none, shint := w 2 52 2, dhint := w 2 54 2 }, cs)

/-- A local place that a COPY may read or write. -/
def State.copyPlace (s : State) (a n : Nat) : Bool := s.backed (s.xlat a) n

/-- The destination of a tray address in its slot, where the copy is local after all (R336). -/
def State.copyLocal (s : State) (c : CopyArgs) : Option Nat :=
  if c.kind = 0 then some c.dst
  else if c.kind = 1 then (match trayOf c.dst with | some (m, o) => if m = s.slotNo then some o else none | none => none)
  else none

/-- The cases of Table 12-6, in its order. -/
def State.copyRefuse (s : State) (c : CopyArgs) : Option Refuse :=
  let g := copyGran c.src c.dst c.kind
  let width := if c.aop / 8 = 1 then 8 else 4
  let span := fun (pitch : Nat) => (c.rows - 1) * pitch + c.rowBytes
  if 5 ≤ c.mode then some ⟨0x14, 1, 0x16, 0xFF⟩
  else if c.kind = 3 then some ⟨0x14, 1, 0x17, 0xFF⟩
  else if c.mode = 4 ∧ 6 ≤ c.aop % 8 then some ⟨0x14, 1, 0x20, 0xFF⟩
  else if c.mode = 4 ∧ c.kind = 2 then some ⟨0x14, 1, 0x17, 0xFF⟩
  else if (if c.mode = 4 then c.src % width ≠ 0 ∨ c.dst % width ≠ 0 ∨ !s.copyPlace c.src width
      else c.src % g ≠ 0 ∨ !s.copyPlace c.src 1 ∨
        (c.mode ≠ 2 ∧ !s.copyPlace c.src (if c.mode = 0 then c.rowBytes else span c.sp))) then some ⟨0x12, 2, 0x10, 0xFF⟩
  else if (c.mode = 2 ∨ c.mode = 3) ∧ (c.idx % 4 ≠ 0 ∨ !s.copyPlace c.idx 4) then some ⟨0x12, 2, 0x30, 0xFF⟩
  else
    match s.copyLocal c with
    | some d =>
      let ok := if c.mode = 4 then s.inHbm d width
        else d % g == 0 && (if c.kind = 1 then s.inHbm d 1 else s.copyPlace d 1) &&
          (c.mode == 3 || (if c.kind = 1 then s.inHbm d (if c.mode = 0 then c.rowBytes else span c.dp)
            else s.copyPlace d (if c.mode = 0 then c.rowBytes else span c.dp)))
      if ok then none else some ⟨0x12, 3, 0x18, 0xFF⟩
    | none =>
      if c.kind = 1 then
        match trayOf c.dst with
        | none => some ⟨0x12, 4, 0x18, 0xFF⟩
        | some (m, o) =>
          let n := if c.mode = 4 then width else if c.mode = 0 then c.rowBytes else if c.mode = 3 then 1 else span c.dp
          if hbmEnd < o + n ∨ !s.joined m then some ⟨0x12, 4, 0x18, 0xFF⟩ else none
      else if s.racks ≤ addrRack c.ep ∨ addrFunc c.ep ≠ 0 then some ⟨0x11, 5, 0x1E, 0xFF⟩ else none

/-- Source and destination of each row, or `none` for a row that its index places outside the backing (Table 12-7). -/
def State.copyRows (s : State) (c : CopyArgs) (dst : Nat) (isLocal : Bool) : List (Option (Nat × Nat)) :=
  (List.range c.rows).map fun r =>
    let idx := s.readNat (s.xlat c.idx + 4 * r) 4
    let sa := match c.mode with | 0 => c.src | 2 => c.src + idx * c.sp | _ => c.src + r * c.sp
    let da := match c.mode with | 0 => dst | 3 => dst + idx * c.dp | _ => dst + r * c.dp
    let okS := c.mode != 2 || s.copyPlace sa c.rowBytes
    let okD := c.mode != 3 || (if isLocal then (if c.kind = 1 then s.inHbm da c.rowBytes else s.copyPlace da c.rowBytes)
      else decide (da + c.rowBytes ≤ hbmEnd) || (c.kind == 2 && isTile da))
    if okS && okD then some (s.xlat sa, da) else none

/-- The first poisoned source byte's sector. -/
def State.firstPoison (s : State) (a n : Nat) : Option Nat := (sectorsOf a n).find? fun x => s.poison.contains x

/-- One row of a local copy: bytes and poison; where source and destination overlap the destination is undefined (R351). -/
def State.copyRow (s : State) (sa da n hint m : Nat) : State :=
  let bs := s.readBytes sa n
  let bad := (sectorsOf sa n).filter fun x => s.poison.contains x
  let inBoth := fun (i : Nat) => decide (sa ≤ da + i) && decide (da + i < sa + n) && sa != da
  let (bs, s) := if (decide (sa < da + n) && decide (da < sa + n) && sa != da) then
      bs.zipIdx.foldl (fun (acc : List Byte × State) p =>
        if inBoth p.2 then let (v, s) := acc.2.draw; (acc.1 ++ [BitVec.ofNat 8 v], s) else (acc.1 ++ [p.1], acc.2)) ([], s)
    else (bs, s)
  let s := s.storeWith da bs (s.hintOf da hint) m
  foldS bad (fun x s =>
    let lo := max x sa - sa
    let hi := min (x + 64) (sa + n) - sa
    foldS (sectorsOf (da + lo) (hi - lo)) (fun y s => s.poisonAt y) s) s

/-- The cells that write bytes at a remote address (R346): bursts of up to 16 data cells, the rest inline. -/
def burstCells (ep tag : Nat) (own : Own) : Nat → Nat → List Byte → List Bool → List TxReq
  | 0, _, _, _ => []
  | fuel + 1, a, bs, bad =>
    if bs.isEmpty then []
    else if 64 ≤ bs.length then
      let k := min 16 (bs.length / 64)
      mkReq ep 0 (mkDesc 5 k tag 0 0 0 a 0 0 []) own :: dataCells ep 0 own bad k (bs.take (64 * k)) ++
        burstCells ep tag own fuel (a + 64 * k) (bs.drop (64 * k)) (bad.drop k)
    else
      let k := min 32 bs.length
      mkReq ep 0 (mkDesc 4 0 tag k 0 0 a 0 0 (bs.take k)) own (bad.headD false) ::
        burstCells ep tag own fuel (a + k) (bs.drop k) (if k = bs.length then [] else bad)

/-- The Flask whose copy engine runs a COPY (R348). -/
def State.copyFlask (s : State) (a : Nat) : Nat :=
  match tileOf (s.xlat a) with
  | some (w, _) => w / 16
  | none => flaskOf a % 4

/-- A COPY's local arrival increment (R351). -/
def State.arriveLocal (s : State) (arr : Option (Nat × Nat)) : State :=
  match arr with
  | some (g, k) => s.gateAdd g k
  | none => s

/-- The index list of a gathering or scattering copy. -/
def CopyArgs.list (c : CopyArgs) : List (Nat × Nat) := if c.mode = 2 ∨ c.mode = 3 then [(c.idx, 4 * c.rows)] else []

/-- Whether a copy's reads and local writes can be served now, and no runner domain between them is held (R141, R253). -/
def State.copyNow (s : State) (c : CopyArgs) (rows : List (Nat × Nat)) (isLocal : Bool) : Bool :=
  (c.list.all fun p => s.readNow (s.xlat p.1) p.2 0) &&
  rows.all fun r => s.readNow r.1 c.rowBytes c.shint &&
    (!isLocal || (s.writeNow (s.xlat r.2) c.rowBytes && !s.wayHeld r.1 (s.xlat r.2)))

/-- A copy's source reads through the ladle, with its hint (R233). -/
def State.copyRead (s : State) (c : CopyArgs) (rows : List (Nat × Nat)) (m : Nat) : State :=
  let s : State := foldS c.list (fun p s => s.checkRead (s.xlat p.1) p.2 m atCmd) s
  foldS rows (fun r s => s.readWith r.1 c.rowBytes c.shint [] m atCmd) s

/-- The start of a COPY's writes, which is its commit (R196, R351). -/
def State.copyRun (s : State) (c0 : Cmd) : State :=
  let c := (copyArgs c0.pkt).1
  let f := s.copyFlask c.src
  let m := (Master.mk 2 f).code
  let own : Own := .cmd c0.q c0.seq
  let width := if c.aop / 8 = 1 then 8 else 4
  match s.copyLocal c with
  | some d =>
    if c.mode = 4 then
      if !s.readNow d width 0 ∨ !s.writeNow (s.xlat c.src) width then s else
      let z := s.claim d width none
      if !z.2 then z.1
      else
        match z.1.atomicAt d width (amoOf (c.aop % 8)) c.operand c.compare (Master.mk 2 f).code with
        | (s, some old) => ((s.store (s.xlat c.src) (leBytes width old)).arriveLocal c.arr).putCmd { c0 with execDone := true, committed := true }
        | (s, none) => s.putCmd { c0 with status := 0x20, execDone := true, noOutputs := true }
    else
      let rows := s.copyRows c d true
      if !s.copyNow c (rows.filterMap id) true then s else
      let z := (rows.filterMap id).foldl (fun (acc : State × Bool) r => let z := acc.1.claim (acc.1.xlat r.2) c.rowBytes none; (z.1, acc.2 && z.2)) (s, true)
      if !z.2 then z.1
      else
        let s := z.1
        let s := s.copyRead c (rows.filterMap id) m
        let bad := (rows.filterMap id).filterMap fun r => s.firstPoison r.1 c.rowBytes
        let s : State := foldS (rows.filterMap id) (fun r s => s.copyRow r.1 (s.xlat r.2) c.rowBytes c.dhint m) s
        let s := s.bump F.TRY_COPY_BYTES ((rows.filterMap id).length * c.rowBytes) f
        let lost := rows.findIdx? fun r => r.isNone
        let (st, dt) : Nat × Nat := match lost with
          | some r => (0x2A, r)
          | none => match bad with
            | x :: _ => (0x2B, x)
            | [] => (0, 0)
        (s.arriveLocal c.arr).putCmd { c0 with status := st, detail := dt, execDone := true, committed := true }
  | none =>
    let ep := if c.kind = 2 then c.ep else s.slotEp (match trayOf c.dst with | some (m, _) => m | none => 0)
    let dst := if c.kind = 2 then c.dst else c.dst % traySpan
    if c.mode ≠ 4 ∧ !s.copyNow c ((s.copyRows c dst false).filterMap id) false then s else
    let (tag, s) := s.newTag
    let s := s.putCmd { c0 with committed := true }
    if c.mode = 4 then
      let job : CopyJob := { q := c0.q, seq := c0.seq, f := f, tag := tag, ep := some ep, arr := c.arr, waitReply := true }
      let t := s.tray
      let r : TrayReq := { slot := epSlot ep, tag := tag, hart := 0, kind := 5, addr := c.dst, n := width, q := c0.q, seq := c0.seq }
      let s := s.setTray { t with copies := t.copies ++ [job], reqs := t.reqs ++ [r] }
      let s := s.setF F.TRY_COPY_ACTIVE (s.tray.copies.filter fun x => x.f == f).length f
      s.issue [mkReq ep 0 (mkDesc 6 0 tag width (c.aop % 16) 0 dst c.operand c.compare []) own]
    else
      let rows := s.copyRows c dst false
      let good := rows.filterMap id
      let s := s.copyRead c good m
      let bad := good.filterMap fun r => s.firstPoison r.1 c.rowBytes
      let (st, dt) : Nat × Nat := match rows.findIdx? fun r => r.isNone with
        | some r => (0x2A, r)
        | none => match bad with
          | x :: _ => (0x2B, x)
          | [] => (0, 0)
      let job : CopyJob := { q := c0.q, seq := c0.seq, f := f, tag := tag, ep := some ep, arr := c.arr, status := st, detail := dt }
      let s := s.setTray { s.tray with copies := s.tray.copies ++ [job] }
      let s := s.setF F.TRY_COPY_ACTIVE (s.tray.copies.filter fun x => x.f == f).length f
      let s := s.bump F.TRY_COPY_BYTES (good.length * c.rowBytes) f
      let cells := good.flatMap fun r =>
        let bs := s.readBytes r.1 c.rowBytes
        let bad := (List.range ((c.rowBytes + 63) / 64)).map fun i => s.poisoned (r.1 + 64 * i) (min 64 (c.rowBytes - 64 * i))
        burstCells ep tag own (c.rowBytes / 32 + 2) r.2 bs bad
      s.issue cells

/-- A COPY goes on (R351): it ends once its cells are acknowledged; its arrival is announced before, for a status of OK,
COPY_INDEX or COPY_POISONED alone. -/
def State.copyStep (s : State) (j : CopyJob) : State :=
  let ep := j.ep.getD 0
  if s.owes (.cmd j.q j.seq) ∨ j.waitReply ∨ (s.fab.inbox.any fun c => c.cls == 1 && c.src == ep && dOp c.payload == 0x83) then s
  else if j.status = 0x29 ∨ j.status = 0x20 ∨ j.status = 0x28 then s.copyEnd j j.status j.detail
  else
    match j.arr with
    | some (g, k) =>
      if j.arrSent then s.copyEnd j j.status j.detail
      else
        let s := s.setTray { s.tray with copies := s.tray.copies.map fun x => if x = j then { j with arrSent := true } else x }
        s.issue [mkReq ep 0 (mkDesc 11 0 j.tag 0 0 g 0 k 0 []) (.cmd j.q j.seq)]
    | none => s.copyEnd j j.status j.detail

/-- What the tray domain does by itself when acknowledgements have come (R340, R345): copies, INVAL_ACKs that waited for a
write-back, FENCE instructions. -/
def State.traySettle (s : State) : State :=
  let s : State := foldS s.tray.copies (fun j s => if s.tray.copies.contains j then s.copyStep j else s) s
  let due := s.tray.acks.filter fun a => !s.owes (.recall a.1 a.2.1 a.2.2)
  let s := s.setTray { s.tray with acks := s.tray.acks.filter fun a => !due.contains a }
  let s : State := foldS due (fun a s => s.issue [mkReq (s.slotEp a.1) 1 (mkDesc 0x82 0 a.2.1 0 0 0 (a.2.2 * 128) 0 0 []) .none]) s
  let refusals := s.fab.inbox.filter fun c => c.cls == 1 && dOp c.payload == 0x83
  let over_ := s.tray.reqs.filter fun r => r.kind == 1 && !s.owes (.core r.hart r.tag) && !(refusals.any fun c => dTag c.payload == r.tag)
  let s := s.setTray { s.tray with reqs := s.tray.reqs.filter fun r => !over_.contains r }
  let ready := s.tray.fences.filter fun h => s.hartQuiet h
  let s := s.setTray { s.tray with fences := s.tray.fences.filter fun h => !ready.contains h }
  foldS ready (fun h s => s.send (.core h .done)) s

end Sys2Proof.Machine
end

