-- ==== Sys2Proof/Machine/Collective.lean ====
section
/-! DEFINITION. Collectives (R359 to R382): groups, the two trees, instances with their SIG, DATA, END and ABORT cells, combining
and writing, aborts; and the agreement of a STEP_COMMIT (R471 to R474), which runs as an instance. -/

namespace Sys2Proof.Machine

/-! ### The trees (R362) -/

/-- Number of trailing zero bits. -/
def lvlAux : Nat → Nat → Nat
  | 0, _ => 0
  | fuel + 1, i => if i % 2 = 1 ∨ i = 0 then 0 else 1 + lvlAux fuel (i / 2)
def lvl (i : Nat) : Nat := lvlAux 14 i

/-- The largest power of two not above n: the position of the root. -/
def topPos (n : Nat) : Nat := 2 ^ Nat.log2 n

def upPos (i : Nat) : Nat :=
  let t := lvl i
  if i / 2 ^ (t + 1) % 2 = 0 then i + 2 ^ t else i - 2 ^ t

/-- Going up past absent positions. -/
def parentAux (n : Nat) : Nat → Nat → Nat
  | 0, p => p
  | fuel + 1, p => if n < p then parentAux n fuel (upPos p) else p

def parentPos (n i : Nat) : Option Nat := if i = topPos n then none else some (parentAux n 14 (upPos i))

def rightAux (n : Nat) : Nat → Nat → Nat
  | 0, r => r
  | fuel + 1, r => if n < r ∧ 0 < lvl r then rightAux n fuel (r - 2 ^ (lvl r - 1)) else r

def childPos (n i : Nat) : List Nat :=
  if lvl i = 0 then []
  else
    let left := i - 2 ^ (lvl i - 1)
    let right := rightAux n 14 (i + 2 ^ (lvl i - 1))
    if n < right then [left] else [left, right]

/-- Positions of ranks, and ranks of positions. -/
def posOf (n t r : Nat) : Nat := if t = 0 then r + 1 else (r + 1) % n + 1
def rankOf (n t p : Nat) : Nat := if t = 0 then p - 1 else (p + n - 2) % n
def treeRoot (n t : Nat) : Nat := rankOf n t (topPos n)
def parentRank (n t r : Nat) : Option Nat := (parentPos n (posOf n t r)).map (rankOf n t)
def childRanks (n t r : Nat) : List Nat := (childPos n (posOf n t r)).map (rankOf n t)

/-! ### Groups (R359 to R361, R378) -/

def State.grpState (s : State) (g : Nat) : Nat := s.f F.COL_GRP_STAT_STATE g
def State.setGrp (s : State) (g v : Nat) : State := s.setF F.COL_GRP_STAT_STATE v g
def State.grpN (s : State) (g : Nat) : Nat := s.f F.COL_GRP_CFG_N g
def State.grpRank (s : State) (g : Nat) : Nat := s.f F.COL_GRP_CFG_RANK g
def State.grpGid (s : State) (g : Nat) : Nat := s.f F.COL_GRP_CFG_GID g
def State.grp (s : State) (g : Nat) : ColGroup := mgetD s.coll.group g ⟨[], []⟩
def State.putGrp (s : State) (g : Nat) (x : ColGroup) : State := { s with coll := { s.coll with group := mset s.coll.group g x } }
def State.memberEp (s : State) (g r : Nat) : Nat := (s.grp g).members.getD r 0

/-- The list of a group as memory holds it. -/
def State.grpList (s : State) (g : Nat) : List Nat :=
  (List.range (s.grpN g)).map fun r => s.readNat (s.f F.COL_GRP_LIST_LIST_ADDR g + 2 * r) 2

/-- The conditions of R360. -/
def State.grpValid (s : State) (g : Nat) : Bool :=
  let n := s.grpN g
  decide (1 ≤ n) && decide (n ≤ 8256) && decide (s.grpRank g < n) && s.inHbm (s.f F.COL_GRP_LIST_LIST_ADDR g) (2 * n) &&
  (let l := s.grpList g
   l.getD (s.grpRank g) 0 == s.self && l.all fun a => addrFunc a == 0 && decide (addrRack a < s.racks)) &&
  (List.range 256).all fun h => h == g || s.grpState h == 0 || s.grpGid h != s.grpGid g

/-- COL_GRP[g]_CTRL.ENABLE (R360). -/
def State.groupEnable (s : State) (g : Nat) (m : Master) : State :=
  if s.grpState g ≠ 0 then s
  else if s.grpValid g then
    ((s.putGrp g ⟨s.grpList g, []⟩).setF F.COL_GRP_STAT_INST 0 g).setGrp g 1
  else (s.setF F.COL_STATUS_CFG_ERR 1 (g % 4)).cfgErr (RegKey.addr ⟨.COL_GRP_CTRL, g, 0⟩) m

/-- Cells of a GID that the collective class holds. -/
def cellGid (c : Cell) : Nat := leNat (c.payload.take 2)
def cellInst (c : Cell) : Nat := leNat ((c.payload.drop 2).take 2)
def cellKind (c : Cell) : Nat := (c.payload.getD 4 0).toNat % 8
def cellTree (c : Cell) : Nat := (c.payload.getD 4 0).toNat / 8 % 2
def cellDir (c : Cell) : Nat := (c.payload.getD 4 0).toNat / 16 % 4
def cellByte (c : Cell) (i : Nat) : Nat := (c.payload.getD i 0).toNat
def cellHalf (c : Cell) (i : Nat) : Nat := leNat ((c.payload.drop i).take 2)

/-- Discarding staged cells. -/
def State.dropStaged (s : State) (p : Cell → Bool) : State :=
  { s with fab := { s.fab with inbox := s.fab.inbox.filter fun c => !(c.cls == 2 && p c) } }

/-- The end of a group's drain (R378): its staged cells go, it is DISABLED. -/
def State.groupOff (s : State) (g : Nat) : State :=
  let s := s.dropStaged fun c => cellGid c == s.grpGid g
  ({ s with coll := { s.coll with group := mdel s.coll.group g } }).setGrp g 0

/-- The running instance of a group: the oldest dispatched; later ones wait for it by handshake (R361). -/
def State.instOf (s : State) (g : Nat) : Option ColInst := s.coll.insts.find? fun x => x.g == g
def State.setInsts (s : State) (l : List ColInst) : State := { s with coll := { s.coll with insts := l } }
def State.putInst (s : State) (x : ColInst) : State :=
  s.setInsts (s.coll.insts.map fun y => if y.g = x.g ∧ y.inst = x.inst then x else y)
def State.dropColInst (s : State) (x : ColInst) : State :=
  s.setInsts (s.coll.insts.filter fun y => !(y.g == x.g && y.inst == x.inst))

/-- COL_GRP[g]_CTRL.DISABLE (R378). -/
def State.groupDisable (s : State) (g : Nat) : State :=
  if s.grpState g = 1 ∨ s.grpState g = 3 then
    let s := s.setGrp g 2
    if (s.instOf g).isNone then s.groupOff g else s
  else s

/-- A write of COL_GRP[g]_CFG or COL_GRP[g]_LIST (R382). -/
def State.groupCfg (s : State) (g : Nat) (list : Bool) (v : Nat) (m : Master) : State :=
  let k : RegName := if list then .COL_GRP_LIST else .COL_GRP_CFG
  if s.grpState g ≠ 0 then s.cfgErr (RegKey.addr ⟨k, g, 0⟩) m
  else if list then s.setF F.COL_GRP_LIST_LIST_ADDR v g
  else
    let w := BitVec.ofNat 64 v
    (((s.setF F.COL_GRP_CFG_GID (getBits w 0 16) g).setF F.COL_GRP_CFG_N (getBits w 16 14) g).setF F.COL_GRP_CFG_RANK (getBits w 32 14) g).setF
      F.COL_GRP_CFG_QUEUE (getBits w 48 8) g

/-- Staged cells of a GID that has named no ACTIVE group for STAGE_MS (R379). -/
def State.stageExpire (s : State) (gid : Nat) : State :=
  if (List.range 256).any fun g => s.grpState g == 1 && s.grpGid g == gid then s else s.dropStaged fun c => cellGid c == gid

/-- COL_ACT (Table 13-13). -/
def State.collStat (s : State) : State :=
  foldS (List.range 4) (fun f s =>
    let s := s.setF F.COL_ACT_ACTIVE (s.coll.insts.filter fun x => x.g % 4 == f).length f
    s.setF F.COL_ACT_STAGE_KIB (min 4096 ((s.staged f * 72 + 1023) / 1024)) f) s

/-! ### Cells (R369, R370) -/

def colPayload (gid inst kind tree dir flags : Nat) (body : List Byte) : List Byte :=
  leBytes 2 gid ++ leBytes 2 inst ++ [BitVec.ofNat 8 (kind + 8 * tree + 16 * dir), BitVec.ofNat 8 flags] ++ leBytes 2 0 ++
  (body ++ List.replicate (56 - body.length) 0)

def State.colCell (s : State) (x : ColInst) (o : Nat × Nat × Nat) (kind flags : Nat) (body : List Byte) (bad : Bool := false) : TxReq :=
  mkReq o.1 2 (colPayload (s.grpGid x.g) x.inst kind o.2.1 o.2.2 flags body) (.cmd x.q x.seq) bad

/-- The signature (Table 13-5); for a STEP_COMMIT that of R473. -/
def colSig (op dtype red root count : Nat) : Nat := op + dtype * 2 ^ 4 + red * 2 ^ 8 + root * 2 ^ 14 + count * 2 ^ 28

/-! ### COLLECTIVE parameters (R363 to R368) -/

structure ColArgs where
  group : Nat
  op : Nat
  dtype : Nat
  red : Nat
  root : Nat
  src : Nat
  dst : Nat
  count : Nat
  deriving DecidableEq, Repr

def colArgs (p : List Nat) : ColArgs × List Nat :=
  let w := fun (i lsb n : Nat) => bitsAt (p.getD i 0) lsb n
  (⟨w 2 0 16, w 2 16 4, w 2 20 4, w 2 24 3, w 2 32 14, w 3 0 48, w 4 0 48, w 5 0 36⟩,
   if 1 ≤ w 6 0 32 ∧ w 6 0 32 ≤ 9 then [0x30] else [])

/-- Bytes of an element. -/
def elemBytes (dtype : Nat) : Nat := match Fmt.ofCode dtype with | some f => max 1 (f.bits / 8) | none => 1

def reducing (op : Nat) : Bool := op == 0 || op == 1 || op == 3

/-- DTYPE accepted for OP (R366). -/
def colFormat (op dtype : Nat) : Bool :=
  op == 5 || (decide (9 ≤ dtype) && decide (dtype ≤ 0xD)) ||
  ((op == 2 || op == 4) && (dtype == 3 || dtype == 4 || dtype == 5 || dtype == 8))

/-- Slice r in elements: first, and number (R364). -/
def slice (c n r : Nat) : Nat × Nat :=
  let z := (c + n - 1) / n
  (min c (r * z), min c ((r + 1) * z) - min c (r * z))

/-- Source range and destination range that a member uses, in bytes: `none` where it uses none. -/
def colRanges (a : ColArgs) (n r : Nat) : Option Nat × Option Nat :=
  let e := elemBytes a.dtype
  let all := a.count * e
  let part := (slice a.count n r).2 * e
  match a.op with
  | 0 => (some all, some all)
  | 1 => (some all, some part)
  | 2 => (some part, some all)
  | 3 => (some all, if a.root = r then some all else none)
  | 4 => (if a.root = r then some all else none, some all)
  | _ => (none, none)

def State.colRangeOk (s : State) (a e : Nat) (n : Option Nat) : Bool :=
  match n with
  | none => true
  | some k => k == 0 || (a % e == 0 && s.inHbm a k)

/-- The cases of Table 13-3, in order. -/
def State.groupRefuse (s : State) (q group : Nat) : Option Refuse :=
  if 256 ≤ group ∨ s.grpState group ≠ 1 then some ⟨0x11, 1, 0x10, 0xFF⟩
  else if s.f F.COL_GRP_CFG_QUEUE group ≠ q then some ⟨0x14, 2, 0x10, 0xFF⟩ else none

def State.colRefuse (s : State) (q : Nat) (a : ColArgs) : Option Refuse :=
  match s.groupRefuse q a.group with
  | some r => some r
  | none =>
    let n := s.grpN a.group
    let e := elemBytes a.dtype
    let z := colRanges a n (s.grpRank a.group)
    if 6 ≤ a.op then some ⟨0x14, 3, 0x12, 0xFF⟩
    else if reducing a.op ∧ (a.red = 0 ∨ 4 ≤ a.red) then some ⟨0x14, 3, 0x13, 0xFF⟩
    else if !colFormat a.op a.dtype then some ⟨0x13, 4, 0x12, 0xFF⟩
    else if (a.op = 3 ∨ a.op = 4) ∧ n ≤ a.root then some ⟨0x11, 5, 0x14, 0xFF⟩
    else if !s.colRangeOk a.src e z.1 then some ⟨0x12, 6, 0x18, 0xFF⟩
    else if !s.colRangeOk a.dst e z.2 then some ⟨0x12, 6, 0x20, 0xFF⟩ else none

/-! ### Combining (R372) -/

/-- One combination in binary32 or binary64, or of INT32. -/
def combine1 (f : BinFmt) (red : Nat) (a b : FVal) : Nat × Nat :=
  if red = 1 then FVal.add f .ne a b else FVal.minmax f (red == 3) false a b

def signed32 (x : Nat) : Int := toSigned 32 x

/-- Combining the operands of one element in order, each result a single operation; B16 and binary16 in binary32, rounded
once at the end. The result is the element's code and the flags. -/
def combineElem (dtype red : Nat) : List Nat → Nat × Nat
  | [] => (0, 0)
  | x :: xs =>
    if xs.isEmpty then (x, 0)
    else if dtype = 9 then
      xs.foldl (fun (z : Nat × Nat) y =>
        let a := signed32 z.1
        let b := signed32 y
        if red = 1 then
          let r := intToRange (-(2 ^ 31)) (2 ^ 31 - 1) (a + b)
          ((r.1 % 2 ^ 32).toNat, z.2 ||| (if a + b = r.1 then 0 else flagOF))
        else (((if red = 2 then max a b else min a b) % 2 ^ 32).toNat, z.2)) (x, 0)
    else if dtype = 0xD then
      xs.foldl (fun (z : Nat × Nat) y => let r := combine1 bin64 red (bin64.decode z.1) (bin64.decode y); (r.1, z.2 ||| r.2)) (x, 0)
    else
      let read := fun (y : Nat) => if dtype = 0xA then (readB16 y).1 else if dtype = 0xB then bin16.decode y else bin32.decode y
      let z := xs.foldl (fun (z : FVal × Nat) y => let r := combine1 bin32 red z.1 (read y); (bin32.decode r.1, z.2 ||| r.2)) (read x, 0)
      let w := if dtype = 0xA then writeB16 z.1 else if dtype = 0xB then BinFmt.ofVal bin16 .ne z.1 else BinFmt.ofVal bin32 .ne z.1
      (w.1, z.2 ||| w.2)

/-- Combining whole cells element by element. -/
def combineBytes (dtype red : Nat) : Nat → List (List Byte) → List Byte × Nat
  | 0, _ => ([], 0)
  | k + 1, ops =>
    let e := elemBytes dtype
    let r := combineElem dtype red (ops.map fun bs => leNat (bs.take e))
    let t := combineBytes dtype red k (ops.map fun bs => bs.drop e)
    (leBytes e r.1 ++ t.1, r.2 ||| t.2)

/-- Gathering: each byte comes from the one member whose slice holds it; the others bring zero (log entry 57). -/
def orBytes (a b : List Byte) : List Byte := a.zipWith (fun x y => x ||| y) b

/-- One step of a half: (left + own) + right, or left + own. -/
def combineCells (x : ColInst) (own : List Byte × Bool) (kids : List (List Byte × Bool)) : (List Byte × Bool) × Nat :=
  let ops := match kids with
    | [] => [own]
    | l :: rest => l :: own :: rest
  let bad := ops.any (·.2)
  if reducing x.op then
    let r := combineBytes x.dtype x.red (56 / elemBytes x.dtype) (ops.map (·.1))
    ((r.1, bad), r.2)
  else ((ops.foldl (fun acc o => orBytes acc o.1) (List.replicate 56 0), bad), 0)

/-! ### Instances (R365, R369, R371 to R373) -/

/-- First byte and length of a half (R365). -/
def halfOf (e count t : Nat) : Nat × Nat :=
  let total := count * e
  let b0 := min total (56 * ((total + 111) / 112))
  if t = 0 then (0, b0) else (b0, total - b0)

def cellsOf (len : Nat) : Nat := (len + 55) / 56

/-- The trees an operation uses: BARRIER and STEP_COMMIT tree 0 alone. -/
def treesOf (op : Nat) : List Nat := if op = 5 ∨ op = 15 then [0] else [0, 1]

/-- Edges of a member in one tree for an operation: those that bring cells, those it sends on. -/
def State.treeEdges (s : State) (g op root t : Nat) : List ColIn × List (Nat × Nat × Nat) :=
  let n := s.grpN g
  let me := s.grpRank g
  let kids := childRanks n t me
  let par := parentRank n t me
  let top := treeRoot n t
  let ep := s.memberEp g
  let from_ := fun (r d : Nat) => ({ ep := ep r, rank := r, tree := t, dir := d } : ColIn)
  let ins := kids.map (fun r => from_ r 0) ++ (par.map (fun r => from_ r 1)).toList
  let outs := (par.map fun r => (ep r, t, 0)).toList ++ kids.map fun r => (ep r, t, 1)
  if top = root then (ins, outs)
  else if op = 3 then
    (ins ++ (if me = root then [from_ top 2] else []), outs ++ (if me = top then [(ep root, t, 2)] else []))
  else if op = 4 then
    (ins ++ (if me = top then [from_ root 2] else []), outs ++ (if me = root then [(ep top, t, 2)] else []))
  else (ins, outs)

/-- Bytes of the source with poison, one cell of a half; a gathering member places its slice and leaves the rest zero. -/
def State.ownCell (s : State) (x : ColInst) (base len k : Nat) : List Byte × Bool :=
  let lo := base + 56 * k
  let m := min 56 (len - 56 * k)
  if x.op = 2 then
    let e := elemBytes x.dtype
    let z := slice x.count (s.grpN x.g) (s.grpRank x.g)
    let a := max lo (z.1 * e)
    let b := min (lo + m) ((z.1 + z.2) * e)
    if b ≤ a then (List.replicate 56 0, false)
    else
      let bs := s.readBytes (x.src + (a - z.1 * e)) (b - a)
      (List.replicate (a - lo) 0 ++ bs ++ List.replicate (lo + 56 - b) 0, s.poisoned (x.src + (a - z.1 * e)) (b - a))
  else (s.readBytes (x.src + lo) m ++ List.replicate (56 - m) 0, s.poisoned (x.src + lo) m)

/-- Whether the member has a source for the operation. -/
def State.hasSource (s : State) (x : ColInst) : Bool := x.op ≤ 3 || (x.op == 4 && x.root == s.grpRank x.g)

def State.mkHalf (s : State) (x : ColInst) (t : Nat) : ColHalf :=
  let z := halfOf (elemBytes x.dtype) x.count t
  let n := if x.op = 5 ∨ x.op = 15 then 0 else cellsOf z.2
  { tree := t, n := n, own := if s.hasSource x then (List.range n).map (s.ownCell x z.1 z.2) else [] }

/-- Where a half's final cells come from at this member: its own combination, its own source, or an edge's DIR; `none` where
the member receives none (REDUCE away from ROOT). -/
inductive DownSrc where
  | result | source | edge (dir : Nat) | nothing
  deriving DecidableEq, Repr

def State.downSrc (s : State) (x : ColInst) (t : Nat) : DownSrc :=
  let me := s.grpRank x.g
  let top := treeRoot (s.grpN x.g) t
  if x.op = 3 then (if me ≠ x.root then .nothing else if me = top then .result else .edge 2)
  else if x.op = 4 then (if me ≠ top then .edge 1 else if me = x.root then .source else .edge 2)
  else if me = top then .result else .edge 1

/-- Writing one cell of a half at the destination (R373): the part of it that the member keeps, with its poison; a destination
that overlaps the source is left undefined. `none` where the coherent window still has to be recalled (R345). -/
def State.colWrite (s : State) (x : ColInst) (t k : Nat) (c : List Byte × Bool) : State × Option ColInst :=
  let e := elemBytes x.dtype
  let z := halfOf e x.count t
  let lo := z.1 + 56 * k
  let hi := lo + min 56 (z.2 - 56 * k)
  let sl := slice x.count (s.grpN x.g) (s.grpRank x.g)
  let a := if x.op = 1 then max lo (sl.1 * e) else lo
  let b := if x.op = 1 then min hi ((sl.1 + sl.2) * e) else hi
  let o := if x.op = 1 then sl.1 * e else 0
  if b ≤ a then (s, some x)
  else
    let at_ := x.dst + (a - o)
    let z := s.claim at_ (b - a) none
    if !z.2 then (z.1, none)
    else
      let s := z.1
      let bs := (c.1.drop (a - lo)).take (b - a)
      let y : List Byte × State := if x.scramble then
          bs.foldl (fun (acc : List Byte × State) _ => (acc.1 ++ [BitVec.ofNat 8 acc.2.draw.1], acc.2.draw.2)) ([], s)
        else (bs, s)
      let s := y.2.store at_ y.1
      let s : State := if c.2 then foldS (sectorsOf at_ (b - a)) (fun y s => s.poisonAt y) s else s
      let x := if c.2 then { x with poison := some (min (x.poison.getD (a / e)) (a / e)) } else x
      (s, some x)

/-- The END cell of a direction: flags, and for a STEP_COMMIT the verdict (upwards) or the decision (downwards). -/
def endBody (x : ColInst) (v b l : Nat) : List Byte :=
  if x.op = 15 then [BitVec.ofNat 8 v, BitVec.ofNat 8 b] ++ leBytes 2 l else []

/-- The verdict of a member with those beneath it (R473): bad if any is, and the lowest endpoint with its taint bit. -/
def joinVerdict (v : Nat × Nat × Nat) (es : List ColIn) : Nat × Nat × Nat :=
  es.foldl (fun v e => if e.verdict = 0 then v else if v.1 = 0 ∨ e.low < v.2.2 then (1, e.bit, e.low) else v) v

def ColInst.edge (x : ColInst) (t dir : Nat) : List ColIn := x.ins.filter fun e => e.tree == t && e.dir == dir
def ColInst.outsTo (x : ColInst) (t dir : Nat) : List (Nat × Nat × Nat) := x.outs.filter fun o => o.2.1 == t && o.2.2 == dir
def ColInst.putHalf (x : ColInst) (h : ColHalf) : ColInst := { x with half := x.half.map fun y => if y.tree = h.tree then h else y }

/-- Combining upwards for one half, as far as its children have sent cells. -/
def State.colUp (s : State) (x : ColInst) : Nat → ColHalf → State × ColInst × ColHalf
  | 0, h => (s, x, h)
  | fuel + 1, h =>
    let kids := x.edge h.tree 0
    if h.n ≤ h.up ∨ !(kids.all fun e => e.sig && decide (h.up < e.cells.length)) then (s, x, h)
    else
      let r := combineCells x (h.own.getD h.up ([], false)) (kids.map fun e => e.cells.getD h.up ([], false))
      let h := { h with up := h.up + 1, res := h.res ++ [r.1], flags := h.flags ||| r.2 }
      let outsOf := x.outsTo h.tree 0 ++ (if x.op = 3 then x.outsTo h.tree 2 else [])
      let s := s.issue (outsOf.map fun o => s.colCell x o 1 0 r.1.1 r.1.2)
      State.colUp s x fuel h

/-- Writing and forwarding downwards for one half, as far as its cells have come. -/
def State.colDown (s : State) (x : ColInst) : Nat → ColHalf → State × ColInst × ColHalf
  | 0, h => (s, x, h)
  | fuel + 1, h =>
    let next : Option (List Byte × Bool) := match s.downSrc x h.tree with
      | .result => if h.down < h.up then some (h.res.getD h.down ([], false)) else none
      | .source => if h.down < h.n then some (h.own.getD h.down ([], false)) else none
      | .edge d => match x.edge h.tree d with
        | e :: _ => if e.sig ∧ h.down < e.cells.length ∧ h.down < h.n then some (e.cells.getD h.down ([], false)) else none
        | [] => none
      | .nothing => none
    match next with
    | none => (s, x, h)
    | some c =>
      let y := s.colWrite x h.tree h.down c
      match y.2 with
      | none => (y.1, x, h)
      | some x =>
        let outsOf := if x.op = 3 then [] else x.outsTo h.tree 1
        let s := y.1.issue (outsOf.map fun o => y.1.colCell x o 1 0 c.1 c.2)
        State.colDown s x fuel { h with down := h.down + 1 }

/-- Flags of the ENDs received for a half. -/
def ColInst.endFlags (x : ColInst) (t : Nat) : Nat := (x.ins.filter fun e => e.tree == t && e.ended).foldl (fun a e => a ||| e.flags) 0

/-- Whether a half has nothing left to combine and send upwards, and to write and send downwards. -/
def State.halfDone (s : State) (x : ColInst) (h : ColHalf) : Bool :=
  (x.op == 4 || h.upEnd) && (s.downSrc x h.tree == .nothing || h.downEnd)

/-- The END up, when every cell has gone up and every child has ended. -/
def State.colUpEnd (s : State) (x : ColInst) (h : ColHalf) : State × ColInst × ColHalf :=
  let kids := x.edge h.tree 0
  if x.op ≠ 4 ∧ !h.upEnd ∧ h.up = h.n ∧ kids.all (fun e => e.sig && e.ended) then
    let v := joinVerdict (x.verdict, x.bit, x.low) kids
    let fl := h.flags ||| kids.foldl (fun a e => a ||| e.flags) 0
    let outsOf := x.outsTo h.tree 0 ++ (if x.op = 3 then x.outsTo h.tree 2 else [])
    let s := s.issue (outsOf.map fun o => s.colCell x o 2 fl (endBody x v.1 v.2.1 v.2.2))
    (s, { x with verdict := v.1, bit := v.2.1, low := v.2.2 }, { h with upEnd := true })
  else (s, x, h)

/-- The END down, when every cell has gone down and what came from above has ended. -/
def State.colDownEnd (s : State) (x : ColInst) (h : ColHalf) : State × ColInst × ColHalf :=
  let ended : Bool := match s.downSrc x h.tree with
    | .result => h.upEnd
    | .source => true
    | .edge d => (x.edge h.tree d).all (·.ended)
    | .nothing => false
  if !h.downEnd ∧ h.down = h.n ∧ ended then
    let x := match s.downSrc x h.tree with
      | .edge d => (match x.edge h.tree d with | e :: _ => { x with verdict := e.verdict, bit := e.bit, low := e.low } | [] => x)
      | _ => x
    let outsOf := if x.op = 3 then [] else x.outsTo h.tree 1
    let s := s.issue (outsOf.map fun o => s.colCell x o 2 (h.flags ||| x.endFlags h.tree) (endBody x x.verdict x.bit x.low))
    (s, x, { h with downEnd := true })
  else (s, x, h)

/-- One half goes on (R372, R373): cells up, END up, cells down, END down. -/
def State.colHalf (s : State) (x : ColInst) (t : Nat) : State × ColInst :=
  match x.half.find? fun h => h.tree == t with
  | none => (s, x)
  | some h =>
    let z := if x.op = 4 then (s, x, h) else s.colUp x (h.n + 1) h
    let z := z.1.colUpEnd z.2.1 z.2.2
    let z := z.1.colDown z.2.1 (h.n + 1) z.2.2
    let z := z.1.colDownEnd z.2.1 z.2.2
    (z.1, z.2.1.putHalf z.2.2)

/-- An instance goes on; it is finished when every half is. -/
def State.colGo (s : State) (x : ColInst) : State :=
  if !x.begun ∨ x.fin then s
  else
    let z := (treesOf x.op).foldl (fun (z : State × ColInst) t => z.1.colHalf z.2 t) (s, x)
    z.1.putInst { z.2 with fin := z.2.half.all (z.1.halfDone z.2) }

/-- Flags of the reply (R372): the halves of which the member wrote some part. -/
def State.colFlags (s : State) (x : ColInst) : Nat :=
  let wrote := fun (h : ColHalf) => s.downSrc x h.tree != .nothing && decide (0 < h.n) &&
    (x.op != 1 || (let e := elemBytes x.dtype
      let z := halfOf e x.count h.tree
      let sl := slice x.count (s.grpN x.g) (s.grpRank x.g)
      decide (max z.1 (sl.1 * e) < min (z.1 + z.2) ((sl.1 + sl.2) * e))))
  (x.half.filter wrote).foldl (fun (a : Nat) (h : ColHalf) => a ||| h.flags ||| x.endFlags h.tree) 0

/-- An instance that is finished and whose cells are all acknowledged completes (R373; for a STEP_COMMIT Table 17-7). -/
def State.colEnd (s : State) (x : ColInst) : State :=
  let (st, dt) : Nat × Nat :=
    if x.op = 15 then (if x.verdict = 0 then (0, 0) else (0x3C, x.low + x.bit * 2 ^ 16))
    else match x.poison with
      | some i => (0x34, i)
      | none => (0, 0)
  let fl := if x.op = 15 then 0 else s.colFlags x
  let s := s.modCmd x.q x.seq fun c => { c with status := st, detail := dt, flags := fl, execDone := true, committed := true, unit := c.unit }
  let s := (s.bump F.COL_CNT_DONE 1 (x.g % 4)).setF F.COL_GRP_STAT_LAST_STATUS st x.g
  s.dropColInst x

/-! ### Aborts (R374, R375) -/

/-- The status of a COLLECTIVE that an abort ended (Tables 13-7 and 13-8); `mine`: this member started it. -/
def abortStatus (reason cause origin peer : Nat) (mine : Bool) : Nat × Nat :=
  if reason = 1 then (0x30, origin + cause * 2 ^ 16)
  else if mine ∧ (reason = 2 ∨ reason = 6) then (2, 0)
  else if mine ∧ reason = 3 then (0x33, 0)
  else if mine ∧ reason = 4 then (0x32, peer)
  else (0x31, origin + reason * 2 ^ 16)

/-- Every tree neighbour of a member, by edge. -/
def State.treeOuts (s : State) (g : Nat) : List (Nat × Nat × Nat) :=
  [0, 1].flatMap fun t => (s.treeEdges g 0 0 t).2

/-- An instance ends by an abort (R374): combining and writing stop, ABORT goes out (not back to `except`), the destination is
undefined, the command completes with its status. -/
def State.colAbort (s : State) (x : ColInst) (reason cause origin peer : Nat) (mine : Bool) (except : Option Nat) : State :=
  let s := s.dropColInst x
  let body : List Byte := [BitVec.ofNat 8 reason, BitVec.ofNat 8 cause, 0, 0, 0, 0, 0, 0] ++ leBytes 2 origin
  let extra := x.outs.filter fun o => o.2.2 == 2
  let outsOf := (s.treeOuts x.g ++ extra).filter fun o => some o.1 != except
  let s : State := foldS outsOf (fun (o : Nat × Nat × Nat) s => s.issue [{ s.colCell x o 3 0 body with own := .none }]) s
  let r := s.grpRank x.g
  let s := match (colRanges ⟨x.g, x.op, x.dtype, x.red, x.root, x.src, x.dst, x.count⟩ (s.grpN x.g) r).2 with
    | some n => s.scrambleRange x.dst n
    | none => s
  let s := (s.setF F.COL_STATUS_ABORT_SEEN 1 (x.g % 4)).setF F.COL_STATUS_LAST_GROUP x.g (x.g % 4)
  let s := if reason = 1 then s.bump F.COL_CNT_MISMATCH 1 (x.g % 4) else s.bump F.COL_CNT_ABORTS 1 (x.g % 4)
  let (st, dt) : Nat × Nat := if x.op = 15 ∧ !(mine && (reason == 2 || reason == 6)) then (0x3D, origin + reason * 2 ^ 16)
    else abortStatus reason cause origin peer mine
  let s := s.setF F.COL_GRP_STAT_LAST_STATUS st x.g
  s.modCmd x.q x.seq fun c => if c.retired then c else { c with status := st, detail := dt, execDone := true, noOutputs := true }

/-- An abort that this member starts. -/
def State.colStop (s : State) (x : ColInst) (reason : Nat) (peer : Nat := 0) : State :=
  let s := if reason = 3 then s.setF F.COL_STATUS_TIMEOUT_SEEN 1 (x.g % 4) else s
  let x := if x.begun then x else { x with outs := ((treesOf x.op).map (s.treeEdges x.g x.op x.root)).flatMap Prod.snd }
  s.colAbort x reason 0 s.self peer true none

/-- ABORT with reason LOCAL for an instance that never runs here (R368, R472). -/
def State.colLocal (s : State) (g inst : Nat) : State :=
  let body : List Byte := [2, 0, 0, 0, 0, 0, 0, 0] ++ leBytes 2 s.self
  foldS (s.treeOuts g) (fun o s => s.issue [mkReq o.1 2 (colPayload (s.grpGid g) inst 3 o.2.1 o.2.2 0 body) .none]) s

/-- The number of the next instance of a group, which it takes. -/
def State.takeInst (s : State) (g : Nat) : Nat × State :=
  let n := s.f F.COL_GRP_STAT_INST g
  (n, s.setF F.COL_GRP_STAT_INST (n + 1) g)

/-- A COLLECTIVE or STEP_COMMIT that was aborted or drained without dispatch takes its instance at its turn (R368). -/
def State.colSkip (s : State) (c : Cmd) : State :=
  let g := bitsAt (c.pkt.getD 2 0) 0 16
  if (s.groupRefuse c.q g).isSome then s
  else let (n, s) := s.takeInst g; s.colLocal g n

/-! ### Dispatch and start of an instance -/

/-- The instance of a command at its dispatch; an ABORT recorded for it ends it at once (R374). -/
def State.colOpen (s : State) (c : Cmd) (x : ColInst) : State :=
  let (n, s) := s.takeInst x.g
  let x := { x with inst := n }
  let s := s.putCmd { c with unit := if x.op = 15 then 0x81 else 0x40 + x.g % 4 }
  let s := s.setInsts (s.coll.insts ++ [x])
  let gr := s.grp x.g
  match gr.recs.find? fun r => r.inst == n % 65536 with
  | none => s
  | some r =>
    let s := s.putGrp x.g { gr with recs := gr.recs.filter fun y => y != r }
    let z := (treesOf x.op).map (s.treeEdges x.g x.op x.root)
    s.colAbort { x with outs := z.flatMap Prod.snd } r.reason r.cause r.origin 0 false (some r.sender)

/-- A COLLECTIVE at its dispatch (R367). -/
def State.colDispatch (s : State) (c : Cmd) : State :=
  let (a, cl) := colArgs c.pkt
  let s := s.countClamps c.q c.op cl
  let c := { c with clamped := c.clamped || !cl.isEmpty, unit := 0x40 + a.group % 4 }
  match s.colRefuse c.q a with
  | some r =>
    let s := if 3 ≤ r.cause then s.setGrp a.group 3 else s
    s.refuseCmd c r
  | none =>
    let bar := a.op == 5
    let sig := if bar then colSig 5 0 0 0 0
      else colSig a.op a.dtype (if reducing a.op then a.red else 0) (if a.op = 3 ∨ a.op = 4 then a.root else 0) a.count
    let x : ColInst := { q := c.q, seq := c.seq, g := a.group, inst := 0, op := a.op, dtype := a.dtype, red := a.red, root := a.root
                         src := a.src, dst := a.dst, count := if bar then 0 else a.count, sig := sig }
    s.colOpen c x

/-- The start of an instance: its edges, its own cells read, SIG on every edge, and END at once on a direction that the
operation's path does not use (log entry 56). -/
def State.colBegin (s : State) (x : ColInst) : State :=
  let n := s.grpN x.g
  let z := (treesOf x.op).map (s.treeEdges x.g x.op x.root)
  let x := { x with begun := true, ins := z.flatMap Prod.fst, outs := z.flatMap Prod.snd }
  let rg := colRanges ⟨x.g, x.op, x.dtype, x.red, x.root, x.src, x.dst, x.count⟩ n (s.grpRank x.g)
  let over_ := match rg.1, rg.2 with
    | some a, some b => x.src != x.dst && decide (x.src < x.dst + b) && decide (x.dst < x.src + a)
    | _, _ => false
  let s := match rg.1 with
    | some k => s.checkRead x.src k (Master.mk 2 (x.g % 4)).code atCmd
    | none => s
  let x := { x with scramble := over_ }
  let x := { x with half := (treesOf x.op).map (s.mkHalf x) }
  let body := leBytes 8 x.sig ++ leBytes 2 n ++ leBytes 2 (s.grpRank x.g)
  let s : State := foldS x.outs (fun o s => s.issue [s.colCell x o 0 0 body]) s
  let idle := x.outs.filter fun o => (x.op == 4 && o.2.2 == 0) || (x.op == 3 && o.2.2 == 1)
  let s : State := foldS idle (fun o s => s.issue [s.colCell x o 2 0 []]) s
  -- BROADCAST: ROOT sends its halves to the roots of the trees (Table 13-2)
  let s : State := if x.op = 4 then
      foldS (x.outs.filter fun o => o.2.2 == 2) (fun (o : Nat × Nat × Nat) s =>
        match x.half.find? fun h => h.tree == o.2.1 with
        | some h => (s.issue (h.own.map fun (c : List Byte × Bool) => s.colCell x o 1 0 c.1 c.2)).issue [s.colCell x o 2 0 []]
        | none => s) s
    else s
  s.modCmd x.q x.seq (fun c => { c with committed := true }) |>.putInst x

/-! ### Arriving cells (R369, R371, R374, R379) -/

/-- The first staged cell of a source and GID that a row may take, with the group that names the GID. -/
def State.colHead (s : State) (src gid : Nat) (p : Cell → Bool) : Option (Cell × Nat) :=
  match (List.range 256).find? fun g => (s.grpState g == 1 || s.grpState g == 2 || s.grpState g == 3) && s.grpGid g == gid with
  | none => none
  | some g =>
    match s.fab.inbox.find? fun c => c.cls == 2 && c.src == src && cellGid c == gid && p c with
    | some c => some (c, g)
    | none => none

def State.takeStaged (s : State) (c : Cell) : State := { s with fab := { s.fab with inbox := s.fab.inbox.erase c } }

/-- Whether an instance number lies ahead of the group's: not yet dispatched. -/
def State.instAhead (s : State) (g i : Nat) : Bool := decide ((i + 65536 - s.f F.COL_GRP_STAT_INST g % 65536) % 65536 < 32768)

/-- The row of one kind of cell: a cell of the running instance goes to `k`; one of an instance over or of a reserved kind is
discarded; one of an instance to come stays staged. -/
def State.onColCell (s : State) (src gid kind : Nat) (k : Cell → ColInst → ColIn → State → State) (other : Cell → ColInst → State → State) : State :=
  match s.colHead src gid fun _ => true with
  | none => s
  | some (c, g) =>
    if 4 ≤ cellKind c then (s.takeStaged c).setF F.COL_STATUS_CFG_ERR 1 (g % 4)
    else if cellKind c ≠ kind then s
    else
      match s.instOf g with
      | some x =>
        if x.inst % 65536 = cellInst c then
          if !x.begun then s
          else
            let s := s.takeStaged c
            match x.ins.find? fun e => e.ep == src && e.tree == cellTree c && e.dir == cellDir c with
            | some e => k c x e s
            | none => other c x s
        else if s.instAhead g (cellInst c) then s else s.takeStaged c
      | none => if s.instAhead g (cellInst c) then s else s.takeStaged c

def ColInst.putEdge (x : ColInst) (e : ColIn) : ColInst :=
  { x with ins := x.ins.map fun y => if y.ep = e.ep ∧ y.tree = e.tree ∧ y.dir = e.dir then e else y }

/-- A mismatch (R371, R374). -/
def State.colMismatch (s : State) (x : ColInst) (c : Cell) (cause : Nat) : State :=
  let f := x.g % 4
  let s := (s.setF F.COL_STATUS_MISMATCH_SEEN 1 f).setF F.COL_STATUS_LAST_PEER c.src f
  let s := s.setF F.COL_STATUS_LAST_SIG_LO (leNat ((c.payload.drop 8).take 4)) f
  s.colAbort x 1 cause s.self 0 true none

/-- A SIG cell (R371). -/
def State.colSigRecv (s : State) (src gid : Nat) : State :=
  let cmp := fun (c : Cell) (x : ColInst) (rank : Option Nat) (s : State) =>
    if leNat ((c.payload.drop 8).take 8) ≠ x.sig then some 1
    else if cellHalf c 16 ≠ s.grpN x.g then some 2
    else if some (cellHalf c 18) ≠ rank then some 3 else none
  s.onColCell src gid 0
    (fun c x e s => match cmp c x (some e.rank) s with
      | some k => s.colMismatch x c k
      | none => let x := x.putEdge { e with sig := true }; (s.putInst x).colGo x)
    (fun c x s => match cmp c x none s with | some k => s.colMismatch x c k | none => s)

/-- A DATA cell (R372, R373). -/
def State.colDataRecv (s : State) (src gid : Nat) : State :=
  s.onColCell src gid 1
    (fun c x e s => let x := x.putEdge { e with cells := e.cells ++ [(c.payload.drop 8, c.poison)] }; (s.putInst x).colGo x)
    (fun _ _ s => s)

/-- An END cell (R372, R473). -/
def State.colEndRecv (s : State) (src gid : Nat) : State :=
  s.onColCell src gid 2
    (fun c x e s =>
      let x := x.putEdge { e with ended := true, flags := cellByte c 5, verdict := if x.op = 15 then cellByte c 8 else 0, bit := cellByte c 9, low := cellHalf c 10 }
      (s.putInst x).colGo x)
    (fun _ _ s => s)

/-- Recording an abort; the first of an instance is kept. -/
def State.colRecord (s : State) (g i : Nat) (c : Cell) : State :=
    if s.instAhead g i then
      let gr := s.grp g
      if gr.recs.any fun r => r.inst == i then s
      else s.putGrp g { gr with recs := gr.recs ++ [⟨i, cellByte c 8, cellByte c 9, cellHalf c 16, c.src⟩] }
    else s

/-- An ABORT cell (R374, R375): the running instance ends and forwards it, an instance to come records it, any other cell is
discarded. -/
def State.colAbortRecv (s : State) (src gid : Nat) : State :=
  match s.colHead src gid fun c => cellKind c == 3 with
  | none => s
  | some (c, g) =>
    let s := s.takeStaged c
    let i := cellInst c
    match s.coll.insts.find? fun (x : ColInst) => x.g == g && x.inst % 65536 == i with
    | some x => s.colAbort { x with outs := if x.begun then x.outs else ((treesOf x.op).map (s.treeEdges x.g x.op x.root)).flatMap Prod.snd }
        (cellByte c 8) (cellByte c 9) (cellHalf c 16) 0 false (some src)
    | none => s.colRecord g i c

/-- A peer that an instance has an edge with has become unreachable, or has restarted (R375). -/
def State.colPeer (s : State) (a reason : Nat) : State :=
  foldS (s.coll.insts.filter fun x => x.begun && (x.outs.any (fun o => o.1 == a) || x.ins.any fun e => e.ep == a))
    (fun x s => if s.coll.insts.contains x then s.colStop x reason a else s) s

/-- TIMEOUT_US of a COLLECTIVE or STEP_COMMIT has elapsed (R375). -/
def State.colTimeout (s : State) (q n : Nat) : State :=
  match s.coll.insts.find? fun (x : ColInst) => x.q == q && x.seq == n with
  | some x =>
    match s.cmd q n with
    | some c =>
      let lim := if x.op = 15 then bitsAt (c.pkt.getD 4 0) 0 32 else bitsAt (c.pkt.getD 6 0) 0 32
      if lim = 0 ∨ c.retired then s else s.colStop x 3
    | none => s
  | none => s

/-- DRAIN_US has elapsed (R378). -/
def State.groupTimeout (s : State) (g : Nat) : State :=
  if s.grpState g ≠ 2 then s
  else
    let s : State := foldS (s.coll.insts.filter fun x => x.g == g) (fun x s => s.colStop x 6) s
    s.groupOff g

/-- What the collective engines do by themselves: instances go on, finished ones complete, drained groups are DISABLED. -/
def State.collSettle (s : State) : State :=
  let s : State := foldS s.coll.insts (fun x s => match s.instOf x.g with
    | some y => s.colGo y
    | none => s) s
  let s : State := foldS s.coll.insts (fun x s => if x.fin ∧ !s.owes (.cmd x.q x.seq) then s.colEnd x else s) s
  let s : State := foldS s.coll.group (fun p s => if s.grpState p.1 = 2 ∧ (s.instOf p.1).isNone then s.groupOff p.1 else s) s
  s.collStat

end Sys2Proof.Machine
end

