-- ==== Sys2Proof/Machine/Fence.lean ====
section
/-! DEFINITION. FENCE (R328, R329): what a FENCE records at its dispatch and how it ends. -/

namespace Sys2Proof.Machine

/-- Peers with a sender entry or with cells that wait for one. -/
def State.fencePeers (s : State) : List Nat :=
  (s.fab.tx.map (·.1) ++ (s.fab.backlog.filter fun r => !r.mc).map (·.dst)).eraseDups

/-- The next sequence to send to a peer in a class, after the cells already issued (R328); `none` where no cell of the class is
unacknowledged or waiting. -/
def State.fenceTarget (s : State) (a c : Nat) : Option Nat :=
  let waiting := (s.fab.backlog.filter fun r => !r.mc && r.dst == a && r.cls == c).length
  match (mget s.fab.tx a).bind fun e => mget e.cls c with
  | some t => if t.unacked.isEmpty ∧ waiting = 0 then none else some ((t.next + waiting) % 4096)
  | none => if waiting = 0 then none else some waiting

/-- Whether every cell below a recorded sequence has been acknowledged. -/
def State.fencePast (s : State) (x : Nat × Nat × Nat) : Bool :=
  match (mget s.fab.tx x.1).bind fun e => mget e.cls x.2.1 with
  | some t =>
    let base := match t.unacked with | y :: _ => y.cell.seq | [] => t.next
    decide ((base + 4096 - x.2.2) % 4096 < 2048)
  | none => !(s.fab.backlog.any fun r => !r.mc && r.dst == x.1 && r.cls == x.2.1)

structure FenceArgs where
  peer : Nat
  scope : Nat
  classes : Nat
  limit : Nat
  deriving DecidableEq, Repr

/-- Table 11-8 with the clamp of Table 11-9. -/
def fenceArgs (p : List Nat) : FenceArgs × List Nat :=
  let w := p.getD 2 0
  let c := bitsAt w 20 4
  (⟨bitsAt w 0 16, bitsAt w 16 2, if c = 0 then 15 else c, bitsAt (p.getD 3 0) 0 32⟩, if c = 0 then [0x12] else [])

def State.fenceRefuse (s : State) (a : FenceArgs) : Option Refuse :=
  if a.scope = 3 then some ⟨0x14, 1, 0x12, 0xFF⟩
  else if (a.scope = 1 ∨ a.scope = 2) ∧ s.racks ≤ addrRack a.peer then some ⟨0x11, 2, 0x10, 0xFF⟩
  else if a.scope = 1 ∧ 2 ≤ addrFunc a.peer then some ⟨0x11, 2, 0x10, 0xFF⟩ else none

/-- Peers and classes in the scope of a FENCE. -/
def State.fenceScope (s : State) (a : FenceArgs) : List (Nat × Nat × Nat) :=
  let peers := match a.scope with
    | 0 => s.fencePeers
    | 1 => if a.peer = s.self then [] else [a.peer]
    | _ => s.fencePeers.filter fun p => addrRack p == addrRack a.peer
  peers.flatMap fun p => ((List.range 4).filter fun c => a.classes / 2 ^ c % 2 == 1).filterMap fun c =>
    (s.fenceTarget p c).map fun n => (p, c, n)

def State.setFences (s : State) (l : List FenceJob) : State := { s with fab := { s.fab with fences := l } }

def State.fenceEnd (s : State) (j : FenceJob) (st dt : Nat) : State :=
  let s := s.setFences (s.fab.fences.filter fun x => !(x.q == j.q && x.seq == j.seq))
  s.modCmd j.q j.seq fun c => if c.retired then c else { c with status := st, detail := dt, execDone := true, noOutputs := true }

/-- FENCE at its dispatch (R328, R329). -/
def State.fenceDispatch (s : State) (c : Cmd) : State :=
  let (a, cl) := fenceArgs c.pkt
  let s := s.countClamps c.q c.op cl
  let c := { c with clamped := c.clamped || !cl.isEmpty, unit := 0x40 }
  match s.fenceRefuse a with
  | some r => s.refuseCmd c r
  | none =>
    let t := s.fenceScope a
    let s := s.putCmd c
    let gone := match a.scope with
      | 1 => if s.fab.unreach.contains a.peer then some a.peer else none
      | _ => none
    match gone with
    | some p => s.fenceEnd ⟨c.q, c.seq, []⟩ 0x38 p
    | none =>
      if t.isEmpty then s.fenceEnd ⟨c.q, c.seq, []⟩ 0 0
      else s.setFences (s.fab.fences ++ [⟨c.q, c.seq, t⟩])

/-- Fences whose recorded sequences are all acknowledged complete. -/
def State.fenceSettle (s : State) : State :=
  foldS s.fab.fences (fun j s => if j.targets.all s.fencePast then s.fenceEnd j 0 0 else s) s

/-- A peer in scope has become unreachable (Table 11-9). -/
def State.fencePeer (s : State) (a : Nat) : State :=
  foldS (s.fab.fences.filter fun j => j.targets.any fun t => t.1 == a) (fun j s => s.fenceEnd j 0x38 a) s

/-- TIMEOUT_US of a FENCE has elapsed (Table 11-9). -/
def State.fenceTimeout (s : State) (q n : Nat) : State :=
  match s.fab.fences.find? fun j => j.q == q && j.seq == n with
  | none => s
  | some j =>
    let lim := (s.cmd q n).map fun c => (fenceArgs c.pkt).1.limit
    if lim.getD 0 = 0 then s
    else
      match j.targets.find? fun t => !s.fencePast t with
      | some t => s.fenceEnd j 0x39 (t.1 + t.2.1 * 2 ^ 16)
      | none => s.fenceEnd j 0 0

end Sys2Proof.Machine
end

