-- ==== Sys2Proof/Machine/Resilience.lean ====
section
/-! DEFINITION. The resilience engine (R462 to R484): BUDDY_PUSH in both modes, STEP_COMMIT's verdict and outcomes, the writes of
its registers. -/

namespace Sys2Proof.Machine

def State.setRes (s : State) (r : ResSt) : State := { s with res := r }

/-! ### BUDDY_PUSH (R467 to R469, R478) -/

structure PushArgs where
  mode : Nat
  append : Bool
  target : Nat
  step : Nat
  list : Nat
  n : Nat
  arr : Option (Nat × Nat)
  deriving DecidableEq, Repr

/-- Table 17-2 with the clamps of Table 17-4 on its fields. -/
def pushArgs (p : List Nat) : PushArgs × List Nat :=
  let w := fun (i lsb n : Nat) => bitsAt (p.getD i 0) lsb n
  let cl := fun (c : Bool) (off x y : Nat) (l : List Nat) => if c then (y, l ++ [off]) else (x, l)
  let push := w 2 0 2 == 0
  let n := w 5 0 13
  let (n, cs) := cl (push && n == 0) 0x28 n 1 []
  let (n, cs) := cl (push && decide (4096 < n)) 0x28 n 4096 cs
  let en := w 6 12 1 == 1
  let inc := w 6 16 8
  let (inc, cs) := cl (w 2 0 2 == 1 && en && inc == 0) 0x32 inc 1 cs
  let cs := if 1 ≤ w 7 0 32 ∧ w 7 0 32 ≤ 9 then cs ++ [0x38] else cs
  (⟨w 2 0 2, w 2 2 1 == 1, w 2 16 16, w 3 0 48, w 4 0 48, n, if en then some (w 6 0 12, inc) else none⟩, cs)

/-- The range records as read and rounded up, with the number clamped (R468). -/
def State.pushList (s : State) (a : PushArgs) : List (Nat × Nat) × Nat :=
  let raw := (List.range a.n).map fun i => (bitsAt (s.readNat (a.list + 16 * i) 8) 0 48, bitsAt (s.readNat (a.list + 16 * i + 8) 8) 0 40)
  (raw.map fun r => (r.1, max 64 (upTo 64 r.2)), (raw.filter fun r => r.2 == 0 || r.2 % 64 != 0).length)

/-- The cases of Table 17-4 that refuse, in its order. -/
def State.pushRefuse (s : State) (a : PushArgs) (l : List (Nat × Nat)) : Option Refuse :=
  let r := s.res
  if 2 ≤ a.mode then some ⟨0x14, 1, 0x10, 0xFF⟩
  else if s.f F.CRU_RES_CTRL_ENABLE = 0 ∨ s.f F.CRU_RES_CTRL_BUDDY = 0 then some ⟨0x14, 2, 0xFF, 0xFF⟩
  else if a.mode = 1 then
    (if s.racks ≤ addrRack a.target ∨ addrFunc a.target ≠ 0 then some ⟨0x11, 6, 0x12, 0xFF⟩ else none)
  else if a.step ≤ s.f F.CRU_RES_COMMIT_LAST then some ⟨0x14, 3, 0x18, 0xFF⟩
  else if !a.append ∧ (s.f F.CRU_RES_COMMIT_UNRESOLVED = 1 ∨ !r.committed) then some ⟨0x14, 3, 0x10, 0xFF⟩
  else if a.append ∧ r.openStep ≠ some a.step then some ⟨0x14, 3, 0x18, 0xFF⟩
  else if a.list % 16 ≠ 0 ∨ !s.inHbm a.list (16 * a.n) then some ⟨0x12, 4, 0x20, 0xFF⟩
  else if l.any fun x => x.1 % 64 != 0 || !s.inHbm x.1 x.2 then some ⟨0x12, 4, 0xFF, 0xFF⟩
  else if 4096 < (if a.append then r.openRanges else 0) + a.n then some ⟨0x14, 5, 0x28, 0xFF⟩ else none

/-- BUSY, and the job list. -/
def State.putJobs (s : State) (js : List ResJob) : State :=
  (s.setRes { s.res with jobs := js }).setF F.CRU_RES_PUSH_BUSY (if js.isEmpty then 0 else 1)

/-- BUDDY_PUSH at its dispatch (R468). -/
def State.pushDispatch (s : State) (c : Cmd) : State :=
  let (a, cs) := pushArgs c.pkt
  let readable := a.mode == 0 && a.list % 16 == 0 && s.inHbm a.list (16 * a.n)
  let (l, k) := if readable then s.pushList a else ([], 0)
  let cs := cs ++ List.replicate k 0x20
  let s := s.countClamps c.q c.op cs
  let c := { c with clamped := c.clamped || !cs.isEmpty, unit := 0x81 }
  match s.pushRefuse a l with
  | some r => s.refuseCmd c r
  | none =>
    let s := s.putCmd c
    let (tag, s) := s.newTag
    if a.mode = 1 then
      s.putJobs (s.res.jobs ++ [{ q := c.q, seq := c.seq, restore := true, tag := tag, ep := a.target, step := a.step, gen := 2, arr := a.arr }])
    else
      let r := s.res
      let rb := if a.append then r.openRanges else 0
      let db := if a.append then r.openBytes else 0
      let n := l.foldl (fun t x => t + x.2) 0
      let s := s.setRes { r with openStep := some a.step, openRanges := rb + a.n, openBytes := db + n, committed := false }
      let s := (s.setF F.CRU_RES_PUSH_PUSHED_STEP a.step).setF F.CRU_RES_PUSH_COMPLETE 0
      s.putJobs (s.res.jobs ++ [{ q := c.q, seq := c.seq, restore := false, tag := tag, ep := s.f F.CRU_RES_CTRL_BUDDY, step := a.step
                                  append := a.append, list := l, recBase := rb, dataBase := db }])

/-- The generation header of Table 17-1 in 24 bytes. -/
def pushHeader (step st n bytes : Nat) : List Byte := leBytes 8 step ++ leBytes 1 st ++ leBytes 1 0 ++ leBytes 2 n ++ leBytes 4 0 ++ leBytes 8 bytes

/-- Cells that write bytes at a remote address on behalf of a job. -/
def ResJob.cells (j : ResJob) (a : Nat) (bs : List Byte) (bad : List Bool) : List TxReq :=
  burstCells j.ep j.tag (.cmd j.q j.seq) (bs.length / 32 + 2) a bs bad

/-- Bytes of a range with the poison of each 64. -/
def State.rangeOut (s : State) (a n : Nat) : List Byte × List Bool :=
  (s.readBytes a n, (List.range ((n + 63) / 64)).map fun i => s.poisoned (a + 64 * i) (min 64 (n - 64 * i)))

/-- The cells of a PUSH before its closing header (R469): the opening header, the records, the data. -/
def State.pushCells (s : State) (j : ResJob) : List TxReq :=
  let hdr_ := if j.append then [] else j.cells hbmEnd (pushHeader j.step 1 0 0) []
  let recs := j.list.flatMap fun r => leBytes 8 r.1 ++ leBytes 8 r.2
  let data := j.list.foldl (fun (z : List TxReq × Nat) r =>
    let o := s.rangeOut r.1 r.2
    (z.1 ++ j.cells (hbmEnd + 0x11000 + z.2) o.1 o.2, z.2 + r.2)) ([], j.dataBase)
  hdr_ ++ j.cells (hbmEnd + 0x40 + 16 * j.recBase) recs [] ++ data.1

/-- The cells of a RESTORE from a generation (R478). -/
def State.restoreCells (s : State) (j : ResJob) (g : Nat) : List TxReq :=
  let b := s.genBase g
  let n := min 4096 (s.readNat (b + 10) 2)
  let recs := (List.range n).map fun i => (s.readNat (b + 0x40 + 16 * i) 8, s.readNat (b + 0x48 + 16 * i) 8)
  (recs.foldl (fun (z : List TxReq × Nat) r =>
    let o := s.rangeOut (b + 0x11000 + z.2) r.2
    (z.1 ++ j.cells (bitsAt r.1 0 48) o.1 o.2, z.2 + r.2)) ([], 0)).1

def State.modJob (s : State) (j : ResJob) (f : ResJob → ResJob) : State :=
  s.setRes { s.res with jobs := s.res.jobs.map fun x => if x.q = j.q ∧ x.seq = j.seq then f x else x }

/-- A job ends (Table 17-8). -/
def State.jobEnd (s : State) (j : ResJob) (st dt : Nat) : State :=
  let s := s.putJobs (s.res.jobs.filter fun x => !(x.q == j.q && x.seq == j.seq))
  let s := if st = 0x3E then s.raise (srcOf 86 2) else if st = 0x3F then s.raise (srcOf 86 3) else s
  let s := if st = 0 ∧ j.restore then s.bump F.CRU_RES_CNT_RESTORES else s
  let s := if st = 0 ∧ !j.restore ∧ s.f F.CRU_RES_PUSH_PUSHED_STEP = j.step then s.setF F.CRU_RES_PUSH_COMPLETE 1 else s
  s.modCmd j.q j.seq fun c => if c.retired then c else { c with status := st, detail := dt, execDone := true, noOutputs := c.noOutputs || !c.committed }

/-- The start of a job's writes, its commit (R196). -/
def State.jobBegin (s : State) (j : ResJob) : State :=
  if j.restore then
    match [0, 1].find? fun g => s.f F.CRU_RES_HELD_STATE g == 2 && s.f F.CRU_RES_HELD_STEP g == j.step with
    | none => s.jobEnd j 0x3F j.step
    | some g =>
      let s := s.modJob j fun x => { x with begun := true, gen := g }
      (s.modCmd j.q j.seq fun c => { c with committed := true }).issue (s.restoreCells j g)
  else
    let s := s.modJob j fun x => { x with begun := true }
    (s.modCmd j.q j.seq fun c => { c with committed := true }).issue (s.pushCells j)

/-- A job goes on (R469, R478): its closing header or its ARRIVE once its cells are acknowledged, then its end. -/
def State.jobStep (s : State) (j : ResJob) : State :=
  if !j.begun ∨ s.owes (.cmd j.q j.seq) ∨ (s.fab.inbox.any fun c => c.cls == 1 && c.src == j.ep && dOp c.payload == 0x83) then s
  else if j.status ≠ 0 then s.jobEnd j j.status j.detail
  else if j.last then s.jobEnd j 0 0
  else if j.restore then
    match j.arr with
    | none => s.jobEnd j 0 0
    | some (g, k) =>
      let s := s.modJob j fun x => { x with last := true }
      s.issue [mkReq j.ep 0 (mkDesc 11 0 j.tag 0 0 g 0 k 0 []) (.cmd j.q j.seq)]
  else
    let n := j.recBase + j.list.length
    let b := j.dataBase + j.list.foldl (fun t x => t + x.2) 0
    let s := s.modJob j fun x => { x with last := true }
    s.issue (j.cells hbmEnd (pushHeader j.step 2 n b) [])

/-- A peer has become unreachable (Table 17-8). -/
def State.jobPeer (s : State) (a : Nat) : State :=
  foldS (s.res.jobs.filter fun j => j.begun && j.ep == a) (fun j s => s.jobEnd j 0x3E (a + 2 ^ 16)) s

/-- TIMEOUT_US of a PUSH or RESTORE has elapsed (R482). -/
def State.buddyTimeout (s : State) (q n : Nat) : State :=
  match s.res.jobs.find? fun j => j.q == q && j.seq == n with
  | none => s
  | some j =>
    let lim := (s.cmd q n).map fun c => bitsAt (c.pkt.getD 7 0) 0 32
    if lim.getD 0 = 0 then s else s.jobEnd j 0x3E (j.ep + 3 * 2 ^ 16)

def State.resSettle (s : State) : State := foldS s.res.jobs (fun j s => if s.res.jobs.contains j then s.jobStep j else s) s

/-! ### STEP_COMMIT (R471 to R474) -/

def commitStep (p : List Nat) : Nat := bitsAt (p.getD 3 0) 0 48

/-- The signature of R473. -/
def commitSig (step : Nat) : Nat := 15 + bitsAt step 36 12 * 2 ^ 14 + bitsAt step 0 36 * 2 ^ 28

/-- The lowest set bit of a taint. -/
def lowBit (x : Nat) : Nat := ((List.range 8).find? fun b => x / 2 ^ b % 2 == 1).getD 0xFF

/-- A member's verdict (R473): bad, taint bit (0xFF where the push or the held generation fails), own endpoint. -/
def State.verdict (s : State) (step : Nat) : Nat × Nat × Nat :=
  let snap := s.f F.CRU_RES_TAINT_SNAP
  let pushed := s.f F.CRU_RES_PUSH_COMPLETE == 1 && s.f F.CRU_RES_PUSH_PUSHED_STEP == step
  let held := [0, 1].any fun g => s.f F.CRU_RES_HELD_STATE g == 2 && s.f F.CRU_RES_HELD_STEP g == step
  if snap = 0 ∧ pushed ∧ held then (0, 0, 0) else (1, if snap = 0 then 0xFF else lowBit snap, s.self)

/-- STEP_COMMIT at its dispatch (R470 to R473). -/
def State.commitDispatch (s : State) (c : Cmd) : State :=
  let g := bitsAt (c.pkt.getD 2 0) 0 16
  let step := commitStep c.pkt
  let cl := if 1 ≤ bitsAt (c.pkt.getD 4 0) 0 32 ∧ bitsAt (c.pkt.getD 4 0) 0 32 ≤ 9 then [0x20] else []
  let s := s.countClamps c.q c.op cl
  let s := (s.setF F.CRU_RES_TAINT_SNAP (s.f F.CRU_RES_TAINT_NOW)).setF F.CRU_RES_TAINT_NOW 0
  let c := { c with clamped := c.clamped || !cl.isEmpty, unit := 0x81 }
  match s.groupRefuse c.q g with
  | some r => s.refuseCmd c r
  | none =>
    if s.f F.CRU_RES_CTRL_ENABLE = 0 ∨ s.f F.CRU_RES_COMMIT_UNRESOLVED = 1 ∨ step ≤ s.f F.CRU_RES_COMMIT_LAST then
      let s := s.refuseCmd c ⟨0x14, 3, if step ≤ s.f F.CRU_RES_COMMIT_LAST then 0x18 else 0xFF, 0xFF⟩
      let (n, s) := s.takeInst g
      s.colLocal g n
    else
      let v := s.verdict step
      s.colOpen c { q := c.q, seq := c.seq, g := g, inst := 0, op := 15, sig := commitSig step, verdict := v.1, bit := v.2.1, low := v.2.2 }

/-- The generation holding a step becomes COMMITTED, the other loses the mark (Table 17-7, R477). -/
def State.commitHeld (s : State) (step : Nat) : State :=
  match [0, 1].find? fun g => s.f F.CRU_RES_HELD_STATE g == 2 && s.f F.CRU_RES_HELD_STEP g == step with
  | none => s
  | some g => (s.setF F.CRU_RES_HELD_COMMITTED 1 g).setF F.CRU_RES_HELD_COMMITTED 0 (1 - g)

/-- What a member does at the retire stage of its STEP_COMMIT (Table 17-7, Table 17-9). -/
def State.commitOutcome (s : State) (c : Cmd) : State :=
  let step := commitStep c.pkt
  let s := if s.f F.CRU_RES_PUSH_PUSHED_STEP = step then s.setRes { s.res with committed := true } else s
  if c.status = 0 then ((s.setF F.CRU_RES_COMMIT_LAST step).commitHeld step).bump F.CRU_RES_CNT_COMMITS
  else if c.status = 0x3C then (s.bump F.CRU_RES_CNT_ROLLBACKS).raise (srcOf 86 0)
  else if c.status = 0x3D ∨ (c.status = 2 ∧ c.dispatched) then
    let s := if c.status = 0x3D then s.bump F.CRU_RES_CNT_FAILED else s
    ((s.setF F.CRU_RES_COMMIT_UNRESOLVED 1).raise (srcOf 86 1)).raiseLevel (srcOf 86 5)
  else s

/-! ### Writes (R462, R470, R477) -/

/-- CRU_RES_CTRL (R462): an illegal buddy leaves the register unchanged; TAINT sets taint bit 7. -/
def State.resCtrl (s : State) (v : Nat) (m : Master) : State :=
  let w := BitVec.ofNat 64 v
  let b := getBits w 16 16
  let bad := b != 0 && (addrFunc b != 0 || decide (s.racks ≤ addrRack b) || (b / 32 == s.self / 32))
  if bad then s.cfgErr (RegKey.addr ⟨.CRU_RES_CTRL, 0, 0⟩) m
  else
    let s := (s.setF F.CRU_RES_CTRL_ENABLE (getBits w 0 1)).setF F.CRU_RES_CTRL_BUDDY b
    if getBits w 32 1 = 1 then s.taint 7 else s

/-- CRU_RES_COMMIT.LAST (R477). -/
def State.lastWrite (s : State) (v : Nat) (m : Master) : State :=
  let step := v % 2 ^ 48
  if s.f F.CRU_RES_CTRL_ENABLE = 1 ∧ s.f F.CRU_RES_COMMIT_UNRESOLVED = 0 then s.cfgErr (RegKey.addr ⟨.CRU_RES_COMMIT, 0, 0⟩) m
  else
    let s := (s.setF F.CRU_RES_COMMIT_LAST step).commitHeld step
    (s.setF F.CRU_RES_COMMIT_UNRESOLVED 0).lowerLevel (srcOf 86 5)

end Sys2Proof.Machine
end

