-- ==== Sys2Proof/Machine/Margin.lean ====
section
/-! DEFINITION. Margin control (R37 to R57): windows, widening, holds, relaxing, exhaustion, floors, plans, temper passes, bask
taps and the wear log. Slack is in quarter elements, thresholds in elements (Tables 2-8 and 2-13). -/

namespace Sys2Proof.Machine

def State.dom (s : State) (d : Nat) : DomSt := mgetD s.margin.dom d {}
def State.setDom (s : State) (d : Nat) (x : DomSt) : State :=
  { s with margin := { s.margin with dom := mset s.margin.dom d x } }

/-- The VCORE rail of a domain (R57, Table 18-1). -/
def domRail (d : Nat) : Nat :=
  if d < 384 then d / 96 else if d < 400 then (d - 384) / 4 else 4 + (d - 400) % 4

/-- Domains of a rail. -/
def railDoms (r : Nat) : List Nat :=
  if r < 4 then natRange (96 * r) 96 ++ natRange (384 + 4 * r) 4 else [400 + (r - 4), 404 + (r - 4)]

/-- Applied VCORE of a domain's rail, millivolts. -/
def State.vApp (s : State) (d : Nat) : Nat := s.f F.PWR_RAIL_SET_MV (domRail d)

/-- The unit a margin-exhausted capture names (Table 16-6). -/
def domMaster (d : Nat) : Master :=
  if d < 384 then ⟨1, d / 6⟩ else if d < 400 then ⟨1, 64 + (d - 384)⟩ else ⟨2, (d - 400) % 4⟩

/-- The source of a margin-exhausted domain (Table 16-2). -/
def domSource (d : Nat) : Nat :=
  if d < 384 then srcOf (d / 6) 4 else if d < 400 then srcOf 64 (d - 384)
  else if d < 404 then srcOf (66 + (d - 400)) 9 else srcOf (66 + (d - 404)) 10

/-- The sensor nearest a domain: its wing's, the hottest-numbered wing of its field, or its Flask's ladle sensor. -/
def domSensor (d : Nat) : Nat :=
  if d < 384 then d / 6 else if d < 400 then (d - 384) * 4 else 64 + 2 * ((d - 400) % 4)

/-- A measurement: NOW and MIN (Table 2-13). -/
def State.setSlack (s : State) (d : Nat) (q : Int) : State :=
  let v := satSigned 8 q
  let s := s.setF F.MGN_DOM_SLACK_NOW (ofSigned 8 v) d
  if v < s.fS F.MGN_DOM_SLACK_MIN d then s.setF F.MGN_DOM_SLACK_MIN (ofSigned 8 v) d else s

/-- Taking a new tap code; PEAK follows. -/
def State.setTap (s : State) (d c : Nat) : State :=
  let s := s.setF F.MGN_DOM_TAP_CURRENT c d
  if c > s.f F.MGN_DOM_TAP_PEAK d then s.setF F.MGN_DOM_TAP_PEAK c d else s

/-- HELD of WNG_STATUS: the array domains held. -/
def State.showHeld (s : State) (d : Nat) : State :=
  if d < 384 ∧ d % 6 < 4 then
    let w := d / 6
    let bits := (List.range 4).foldl (fun b a => if (s.dom (6 * w + a)).held then b + 2 ^ a else b) 0
    s.setF F.WNG_STATUS_HELD bits w
  else s

def State.setHeld (s : State) (d : Nat) (h : Bool) : State := (s.setDom d { s.dom d with held := h }).showHeld d

/-- A wear-log record (R56), in a ring of 16,384. -/
def State.wearLog (s : State) (d kind before after : Nat) (slack : Int) (erosion : Nat) : State :=
  let x := s.dom d
  let h := s.f F.MGN_DOM_CNT_HOLDS d
  let sh := s.f F.MGN_DOM_CNT_SHADOW d
  let r : WearRec := ⟨s.now, s.hours, d, kind, before, after, slack, s.vApp d, s.fS F.THM_SENS_TEMP (domSensor d), erosion,
    h - x.recHolds, sh - x.recShadow⟩
  let log := s.margin.wear ++ [r]
  let log := if log.length > 16384 then log.drop 1 else log
  let s := s.setDom d { x with recHolds := h, recShadow := sh }
  { s with margin := { s.margin with wear := log } }

/-- A domain becomes margin-exhausted (R43): it stays held, its source is raised, a wing domain takes its wing out. -/
def State.exhaust (s : State) (d : Nat) : State :=
  if s.f F.MGN_DOM_TAP_EXHAUSTED d = 1 then s else
  let s := s.setF F.MGN_DOM_TAP_EXHAUSTED 1 d
  let s := (s.setDom d { s.dom d with held := true, widening := false, deferred := false }).showHeld d
  let s := (s.setF F.MGN_STATUS_EXHAUSTED 1).setF F.MGN_STATUS_LAST_DOMAIN d
  let p := s.f F.MGN_DOM_TAP_PLANNED d
  let s := s.wearLog d 4 p p (s.fS F.MGN_DOM_SLACK_NOW d) (s.f F.MGN_DOM_SLACK_EROSION d)
  let s := s.raise (domSource d) ⟨d, (domMaster d).code, 0⟩
  match domWing d with
  | some w => s.wingLeave w 2
  | none => s

/-- Margin monitors act on a domain: no sweep, not exhausted (R43, R48). -/
def State.monitored (s : State) (d : Nat) : Bool :=
  s.f F.MGN_DOM_TAP_SWEEP_OFF d == 0 && s.f F.MGN_DOM_TAP_EXHAUSTED d == 0

/-- A released hold goes on widening until TARGET (R39, R42). -/
def State.goesOn (s : State) (q : Int) : Bool := decide (q < 4 * (s.f F.MGN_CTRL_TARGET : Int)) && s.f F.MGN_CTRL_AUTO_WIDEN == 1

/-- The end of a window (R37 to R42). -/
def State.windowEnd (s : State) (d : Nat) (q : Int) : State :=
  let s := s.setSlack d q
  if !s.monitored d then s else
  let w4 : Int := 4 * s.f F.MGN_CTRL_WIDEN
  let x := s.dom d
  if q < w4 ∧ s.f F.MGN_DOM_TAP_CURRENT d = 63 then s.exhaust d
  else if x.held then
    if q ≥ w4 then (s.setDom d { x with held := false, widening := s.goesOn q }).showHeld d else s
  else if q ≤ 4 * (s.f F.MGN_CTRL_FLOOR : Int) then
    let s := (s.setDom d { x with held := true, deferred := false }).showHeld d
    let s := s.bump F.MGN_DOM_CNT_HOLDS 1 d
    (s.setF F.MGN_STATUS_HOLD_SEEN 1).setF F.MGN_STATUS_LAST_DOMAIN d
  else
    let wide := if q ≥ 4 * (s.f F.MGN_CTRL_TARGET : Int) then false
      else x.widening || (decide (q < w4) && s.f F.MGN_CTRL_AUTO_WIDEN == 1)
    let dfr := x.deferred && decide (q ≥ 4 * (s.f F.MGN_CTRL_RELAX_ABOVE : Int))
    s.setDom d { x with widening := wide, deferred := dfr }

/-- One widening step (R39). -/
def State.tapWiden (s : State) (d : Nat) : State :=
  let x := s.dom d
  let c := s.f F.MGN_DOM_TAP_CURRENT d
  if x.widening ∧ !x.held ∧ s.f F.MGN_CTRL_AUTO_WIDEN = 1 ∧ c < 63 ∧ s.monitored d ∧ !s.examined d ∧
      s.fS F.MGN_DOM_SLACK_NOW d < 4 * (s.f F.MGN_CTRL_TARGET : Int) then
    ((s.setTap d (c + 1)).bump F.MGN_DOM_CNT_WIDENS 1 d).setF F.MGN_STATUS_WIDEN_SEEN 1
  else s

/-- One step of a hold (R42): a code wider, a measurement, release at WIDEN; code 63 below WIDEN is exhaustion (R43). -/
def State.holdWiden (s : State) (d : Nat) (q : Int) : State :=
  let x := s.dom d
  if !x.held ∨ !s.monitored d then s else
  let c := s.f F.MGN_DOM_TAP_CURRENT d
  let s := if c < 63 then ((s.setTap d (c + 1)).bump F.MGN_DOM_CNT_WIDENS 1 d).setF F.MGN_STATUS_WIDEN_SEEN 1 else s
  let s := s.setSlack d q
  let w4 : Int := 4 * s.f F.MGN_CTRL_WIDEN
  if q ≥ w4 then
    (s.setDom d { s.dom d with held := false, widening := s.goesOn q }).showHeld d
  else if s.f F.MGN_DOM_TAP_CURRENT d = 63 then s.exhaust d
  else s

/-- The voltage at which a domain keeps slack at WIDEN when its slack at the applied VCORE is `q` (R46; log entry 27). -/
def State.needMv (s : State) (d : Nat) (q : Int) : Nat :=
  let gap : Int := 4 * s.f F.MGN_CTRL_WIDEN - q
  let sl := s.fS F.MGN_DOM_SLACK_SLOPE d
  if sl ≤ 0 then (if gap > 0 then 850 else 600)
  else
    -- rounded up to a whole millivolt
    let mv : Int := s.vApp d + (10 * gap + sl - 1) / sl
    if mv < 600 then 600 else if mv > 850 then 850 else mv.toNat

/-- The floor of a rail and the domain that sets it (R46): the lowest-numbered where several need the same. -/
def State.floorOf (s : State) (r : Nat) : Nat × Nat :=
  (railDoms r).foldl (fun acc d =>
    let v := s.needMv d (s.fS F.MGN_DOM_SLACK_NOW d)
    if v > acc.1 then (v, d) else acc) (600, (railDoms r).headD 0)

def State.recomputeFloor (s : State) (r : Nat) : State :=
  let z := s.floorOf r
  (s.setF F.MGN_VFLOOR_FLOOR_MV z.1 r).setF F.MGN_VFLOOR_LIMIT_DOMAIN z.2 r

/-- Whether a code less would raise the floor above the applied VCORE (R41): a code is one element. -/
def State.relaxRaises (s : State) (d : Nat) : Bool := decide (s.needMv d (s.fS F.MGN_DOM_SLACK_NOW d - 4) > s.vApp d)

/-- One narrowing (R41). -/
def State.narrow (s : State) (d : Nat) : State :=
  let s := s.setTap d (s.f F.MGN_DOM_TAP_CURRENT d - 1)
  (s.bump F.MGN_DOM_CNT_RELAXES 1 d).setDom d { s.dom d with deferred := false }

/-- A domain may relax (R41): never below PLANNED, nor below the bask codes above it, which R57 removes (log entry 133). -/
def State.mayRelax (s : State) (d : Nat) : Bool :=
  s.f F.MGN_CTRL_AUTO_RELAX == 1 && !(s.dom d).held && s.monitored d && !s.examined d &&
  decide (s.f F.MGN_DOM_TAP_PLANNED d + (s.dom d).bask < s.f F.MGN_DOM_TAP_CURRENT d) &&
  decide (s.fS F.MGN_DOM_SLACK_NOW d ≥ 4 * (s.f F.MGN_CTRL_RELAX_ABOVE : Int))

/-- The end of 10 ms at or above RELAX_ABOVE (R41): narrow, or defer. -/
def State.tapRelax (s : State) (d : Nat) : State :=
  if !s.mayRelax d then s
  else if s.relaxRaises d then s.setDom d { s.dom d with deferred := true }
  else s.narrow d

/-- A re-evaluation of a deferred narrowing (R41). -/
def State.relaxAgain (s : State) (d : Nat) : State :=
  if (s.dom d).deferred ∧ s.mayRelax d ∧ !s.relaxRaises d then s.narrow d else s

/-- A flag of a shadow latch (R44). At code 63 no code is left to widen to: the tap stays (log entry 132). -/
def State.shadowFlag (s : State) (d : Nat) : State :=
  let c := s.f F.MGN_DOM_TAP_CURRENT d
  let s := if c < 63 then (s.setTap d (c + 1)).setF F.MGN_STATUS_WIDEN_SEEN 1 else s
  (s.bump F.MGN_DOM_CNT_SHADOW 1 d).setF F.MGN_STATUS_SHADOW_SEEN 1

/-- RESERVE_USED of Table 2-9. -/
def State.reserveUsed (s : State) (d : Nat) : State :=
  if s.f F.MGN_DOM_TAP_PLANNED d > s.f F.MGN_DOM_TAP_FACTORY d then s.setF F.MGN_STATUS_RESERVE_USED 1 else s

/-- A write of PLANNED (R47). -/
def State.planWrite (s : State) (d v : Nat) : State :=
  let v := max (v % 64) (s.f F.MGN_DOM_TAP_FACTORY d)
  let s := s.setF F.MGN_DOM_TAP_PLANNED v d
  let s := if v > s.f F.MGN_DOM_TAP_CURRENT d then s.setTap d v else s
  s.reserveUsed d

/-- A write of SWEEP_OFF (R48): it acts for any array of a wing that is in TEMPER for a sweep. -/
def State.sweepOffWrite (s : State) (d v : Nat) (m : Master) : State :=
  let ok := decide (d < 384) && decide (d % 6 < 4) && s.wingState (d / 6) == 1 && m == Master.sp && !(s.dom d).held &&
    s.eye.sweeps.any fun x => x.running && x.wing == d / 6
  s.setF F.MGN_DOM_TAP_SWEEP_OFF (if ok then v % 8 else 0) d

/-- A write of MGN_CTRL (R38, R60): refused where the thresholds break their order. -/
def State.mgnCtrlWrite (s : State) (v : Nat) (m : Master) : State :=
  let t := bitsAt v 8 8
  let wd := bitsAt v 16 8
  let fl := bitsAt v 24 8
  let ra := bitsAt v 32 8
  if 1 ≤ fl ∧ fl < wd ∧ wd < t ∧ 6 ≤ t ∧ t < ra then
    s.wr .MGN_CTRL (BitVec.ofNat 64 (v % 2 ^ 56 - bitsAt v 2 6 * 4))
  else s.cfgErr (RegKey.addr ⟨.MGN_CTRL, 0, 0⟩) m

/-! ### Temper passes (R51 to R56) -/

/-- A READY wing with nothing dispatched, and no adopter of a copy in progress (R52, Table 7-10). -/
def State.wingIdle (s : State) (w : Nat) : Bool :=
  s.wingState w == 2 && (s.wing w).jobs.isEmpty && !(s.qe.replay.any fun p => p.1 == w) && !(s.qe.adopt.any fun a => a.adopter == w)

/-- An idle wing whose domain comes next enters TEMPER (R52, Table 4-7); a busy one does so once it is idle. -/
def State.temperTake (s : State) : State :=
  match s.margin.temper with
  | none => s
  | some t =>
    match t.head with
    | some d => (match domWing d with
      | some w => if s.wingIdle w then s.setWingState w 1 else s
      | none => s)
    | none => s

/-- Starting a pass; behind a running one it waits for its end (R51). -/
def State.temperBegin (s : State) (kind : Nat) (ds : List Nat) : State :=
  if s.margin.temper.isSome then { s with margin := { s.margin with waiting := s.margin.waiting ++ [⟨kind, ds, []⟩] } } else
  let s := { s with margin := { s.margin with temper := some ⟨kind, ds, []⟩ } }
  (s.setF F.MGN_STATUS_TEMPER_BUSY 1).temperTake

/-- A write of 1 to MGN_TEMPER.START (R51, Table 2-10). -/
def State.temperStart (s : State) : State :=
  let one := s.f F.MGN_TEMPER_MODE = 0
  if s.margin.temper.isSome ∨ (one ∧ s.f F.MGN_TEMPER_DOMAIN > 407) then s.setF F.MGN_TEMPER_REFUSED 1
  else s.temperBegin 3 (if one then [s.f F.MGN_TEMPER_DOMAIN] else List.range 408)

/-- Going on with a pass after a domain: the wing returns to READY, the next domain comes up, or the pass ends. -/
def State.temperNext (s : State) (d : Nat) (t : TemperRun) : State :=
  let s := match domWing d with
    | some w => if s.wingState w = 1 ∧ !(s.wing w).sweep then s.setWingState w 2 else s
    | none => s
  match t.todo, t.retry with
  | [], [] =>
    let s := { s with margin := { s.margin with temper := s.margin.waiting.head?, waiting := s.margin.waiting.drop 1 } }
    let s := s.setF F.MGN_STATUS_TEMPER_BUSY (if s.margin.temper.isSome then 1 else 0)
    (if t.kind = 3 then s.setF F.MGN_STATUS_TEMPER_DONE 1 else s).temperTake
  | _, _ => { s with margin := { s.margin with temper := some t } }.temperTake

/-- The list without its first domain, in `todo` or, when that is empty, in `retry`. -/
def TemperRun.pop (t : TemperRun) : TemperRun :=
  match t.todo with
  | _ :: r => { t with todo := r }
  | [] => { t with retry := t.retry.drop 1 }

/-- The lowest code that gives slack at TARGET at every VCORE from 0.60 V to 0.85 V (R54; log entry 28). -/
def State.planCode (s : State) (d : Nat) (q : Int) : Int :=
  let sl := s.fS F.MGN_DOM_SLACK_SLOPE d
  let at_ := fun (v : Int) => sl * (v - s.vApp d) / 10
  let worst := min (at_ 600) (at_ 850)
  let need : Int := 4 * s.f F.MGN_CTRL_TARGET - (q + worst)
  s.f F.MGN_DOM_TAP_CURRENT d + (need + 3) / 4

/-- One domain of an in-service pass (R52 to R56). -/
def State.domainPass (s : State) (d : Nat) (q : Int) (erosion : Nat) : State :=
  match s.margin.temper with
  | none => s
  | some t =>
    if !s.examined d then s
    else
      let s := s.setDom d { s.dom d with restarts := 0, bask := 0 }
      let s := s.setSlack d q
      let s := s.setF F.MGN_DOM_SLACK_EROSION (min erosion 255) d
      let old := s.f F.MGN_DOM_TAP_PLANNED d
      let c := max (s.planCode d q) (max (s.f F.MGN_DOM_TAP_FACTORY d : Int) ((old : Int) - s.f F.MGN_CTRL_NARROW_LIMIT))
      if c > 63 then
        let s := s.wearLog d t.kind old old q erosion
        (s.exhaust d).temperNext d t.pop
      else
        let s := (s.setF F.MGN_DOM_TAP_PLANNED c.toNat d).setTap d c.toNat
        let s := (s.reserveUsed d).wearLog d t.kind old c.toNat q erosion
        (s.recomputeFloor (domRail d)).temperNext d t.pop

/-- VCORE of a rail has changed (R55): the domain in measurement is measured again; after three restarts it is put off to the
end of the rotation. -/
def State.temperRestart (s : State) (r : Nat) : State :=
  match s.margin.temper with
  | none => s
  | some t =>
    match t.head with
    | none => s
    | some d =>
      let x := s.dom d
      if domRail d ≠ r ∨ !s.examined d then s
      else if x.restarts + 1 ≥ 3 then
        (s.setDom d { x with restarts := 0 }).temperNext d { t.pop with retry := t.pop.retry ++ [d] }
      else s.setDom d { x with restarts := x.restarts + 1 }

/-- A wing not idle within 100 ms is skipped and tried after the rest (R52). -/
def State.temperSkip (s : State) (w : Nat) : State :=
  match s.margin.temper with
  | none => s
  | some t =>
    let mine := t.todo.filter fun d => domWing d == some w
    if (t.head.bind domWing) = some w ∧ !(s.wing w).jobs.isEmpty ∧ !mine.isEmpty then
      let t := { t with todo := t.todo.filter fun d => domWing d != some w, retry := t.retry ++ mine }
      { s with margin := { s.margin with temper := some t } }.temperTake
    else s

/-! ### Bask taps (R57) -/

/-- Die sensors of a VCORE rail (Table 18-3). -/
def railSensors (r : Nat) : List Nat := if r < 4 then natRange (16 * r) 16 else [64 + 2 * (r - 4), 65 + 2 * (r - 4)]

/-- Neighbours of a die sensor (R492). -/
def sensorPeers (n : Nat) : List Nat :=
  if n < 64 then (natRange (n / 16 * 16) 16).filter (· != n) else [n ^^^ 1]

/-- The reading the controllers use (R492): a failed die sensor is replaced by its neighbours' highest plus 5 °C. -/
def State.reading (s : State) (n : Nat) : Int :=
  if n ≥ 74 ∨ s.f F.THM_SENS_FAILED n = 0 then s.fS F.THM_SENS_TEMP n
  else
    let top := fun (l : List Nat) => (l.filter fun k => s.f F.THM_SENS_FAILED k == 0).foldl
      (fun (a : Option Int) k => some (match a with | none => s.fS F.THM_SENS_TEMP k | some x => max x (s.fS F.THM_SENS_TEMP k))) none
    match top (sensorPeers n) with
    | some x => x + 50
    | none => match top (List.range 74) with
      | some x => x + 50
      | none => s.fS F.THM_SENS_TEMP n

/-- A sensor that has reported: 0x8000 is no reading (Table 18-19). -/
def State.hasReading (s : State) (n : Nat) : Bool := s.f F.THM_SENS_FAILED n == 1 || s.f F.THM_SENS_TEMP n != 0x8000

def State.railCold (s : State) (r : Nat) : Bool := (railSensors r).any fun n => s.hasReading n && decide (s.reading n < 100)

/-- Bringing every domain of a cold rail to its bask codes (R57); codes above a BASK_TAPS that has been lowered stay until the
rail is warm (log entry 134). -/
def State.baskAdd (s : State) (r : Nat) : State :=
  if !s.railCold r then s else
  let k := s.f F.MGN_CTRL_BASK_TAPS
  foldS (railDoms r) (fun d s =>
    let x := s.dom d
    let c := s.f F.MGN_DOM_TAP_CURRENT d
    let c2 := min 63 (c + (k - x.bask))
    if c2 = c then s else (s.setTap d c2).setDom d { x with bask := x.bask + (c2 - c) }) s

/-- Removing one bask code from every domain of a rail that is no longer cold (R57). -/
def State.baskRemove (s : State) (r : Nat) : State :=
  if s.railCold r then s else
  foldS (railDoms r) (fun d s =>
    let x := s.dom d
    if x.bask = 0 then s
    else (s.setTap d (s.f F.MGN_DOM_TAP_CURRENT d - 1)).setDom d { x with bask := x.bask - 1 }) s

end Sys2Proof.Machine
end

