-- ==== Sys2Proof/Machine/Eyespot.lean ====
section
/-! DEFINITION. Eyespot (R443 to R459) beside the occurrences of Ops.lean: quiet periods and latches, source configurations,
the log, pins, watchdogs, injection, the wings' self-test and array fences (R117, R119), and margin sweeps. -/

namespace Sys2Proof.Machine

/-! ### Quiet periods and latches (R447 to R449) -/

/-- Leaving QUIET without an exit: the state IDLE or LATCHED that follows is the caller's. -/
def State.quietOff (s : State) (n : Nat) : State :=
  if s.f F.EYE_SRC_STAT_QUIET n = 0 then s else
  (s.setF F.EYE_SRC_STAT_QUIET 0 n).setF F.EYE_STATUS_QUIET_NOW (s.f F.EYE_STATUS_QUIET_NOW - 1)

/-- A source becomes IDLE: the heartbeat it held runs again; an alert pin keeps its condition while the source is asserted. -/
def State.toIdle (s : State) (n : Nat) : State :=
  let x := s.eyeSrc n
  s.setEyeSrc n { x with hb := false, pin := if s.f F.EYE_SRC_STAT_ASSERTED n = 1 then x.pin else 0 }

/-- Entering LATCHED (R449). -/
def State.latchOn (s : State) (n : Nat) : State :=
  if s.f F.EYE_SRC_STAT_LATCHED n = 1 then s else
  ((s.setF F.EYE_SRC_STAT_LATCHED 1 n).bump F.EYE_STATUS_LATCHED_NOW).setF F.EYE_STATUS_LATCH_SEEN 1

/-- The source-latched source, with the latched source captured (Table 16-6). -/
def State.latchRaise (s : State) (n : Nat) : State := s.raise (srcOf 83 10) ⟨n, Master.sp.code, 0⟩

/-- A level source whose condition is asserted occurs again (R447, Table 16-11). -/
def State.occurAgain (s : State) (n : Nat) : State :=
  if s.f F.EYE_SRC_STAT_ASSERTED n = 1 ∧ s.f F.EYE_SRC_CFG_LEVEL n = 1 then s.raise n (s.eyeSrc n).cap else s

/-- An exit from QUIET (R447, R449): a recovery, and IDLE or LATCHED. -/
def State.quietExit (s : State) (n : Nat) : State :=
  if s.f F.EYE_SRC_STAT_QUIET n = 0 then s else
  let win := s.f F.EYE_CTRL_LATCH_S * 1000000000
  let exits := ((s.eyeSrc n).exits.filter fun t => decide (s.now ≤ t + win)) ++ [s.now]
  let latch := decide (exits.length ≥ s.f F.EYE_CTRL_LATCH_N + 1)
  let s := s.withPins fun s =>
    let s := s.quietOff n
    let s := s.setF F.EYE_SRC_STAT_RECOVERIES ((s.f F.EYE_SRC_STAT_RECOVERIES n + 1) % 2 ^ 16) n
    let s := s.setEyeSrc n { s.eyeSrc n with exits := exits }
    if latch then s.latchOn n else s.toIdle n
  if latch then s.latchRaise n else s

/-- The end of QUIET_MS (R447). -/
def State.quietExpire (s : State) (n : Nat) : State :=
  if s.f F.EYE_SRC_STAT_QUIET n = 0 then s else
  let s := s.quietExit n
  if s.f F.EYE_SRC_STAT_LATCHED n = 1 then s else s.occurAgain n

/-- A write of 0 to LATCHED (R449): exit times cleared; a latched source returns to IDLE. -/
def State.unlatch (s : State) (n : Nat) : State :=
  let s := s.setEyeSrc n { s.eyeSrc n with exits := [] }
  if s.f F.EYE_SRC_STAT_LATCHED n = 0 then s else
  let s := s.withPins fun s =>
    let s := s.setF F.EYE_SRC_STAT_LATCHED 0 n
    (s.setF F.EYE_STATUS_LATCHED_NOW (s.f F.EYE_STATUS_LATCHED_NOW - 1)).toIdle n
  s.occurAgain n

/-- A write of 1 to LATCHED (R449). -/
def State.latch (s : State) (n : Nat) : State :=
  if s.f F.EYE_SRC_STAT_LATCHED n = 1 then s else
  (s.withPins fun s => (s.quietOff n).latchOn n).latchRaise n

/-- The end of the count window (R443). -/
def State.countEnd (s : State) (n : Nat) : State := s.setF F.EYE_SRC_STAT_COUNT 0 n

/-! ### Configuration (R445, R446) -/

/-- Whether a PIN code is accepted for a source (R445). -/
def pinAllowed (n code : Nat) : Bool :=
  if code ≤ 1 then true
  else if code = 2 ∨ code = 4 then n / 16 == 84 || n / 16 == 85
  else if code = 3 ∨ code = 5 then n / 16 == 82 || n == srcOf 83 2
  else false

/-- A write of EYE_SRC[n]_CFG. A reserved source takes nothing (R440). -/
def State.srcCfg (s : State) (n v : Nat) (m : Master) : State :=
  let a := RegKey.addr ⟨.EYE_SRC_CFG, n, 0⟩
  if (srcDef n).isNone then s
  else if (n / 16 = 82 ∨ n / 16 = 84 ∨ n / 16 = 85) ∧ m.cls ≠ 5 then s.accessErr a m (atCtrl + atWrite)
  else
    let s := s.setF F.EYE_SRC_CFG_IRQ (bitsAt v 0 1) n
    let s := s.setF F.EYE_SRC_CFG_NMI (bitsAt v 1 1) n
    let s := s.setF F.EYE_SRC_CFG_BLOCK (if srcHasBlock n then bitsAt v 2 1 else 0) n
    let s := s.setF F.EYE_SRC_CFG_MODULE (bitsAt v 3 1) n
    let s := s.setF F.EYE_SRC_CFG_THRESH (max 1 (bitsAt v 8 4)) n
    if pinAllowed n (bitsAt v 4 3) then s.setF F.EYE_SRC_CFG_PIN (bitsAt v 4 3) n else s.cfgErr a m

/-! ### Log and pins (R452, R454) -/

/-- The oldest record of the ring moves into the log of 32,768 (R452). -/
def State.logMove (s : State) : State :=
  match s.eye.ring with
  | [] => s
  | r :: rest =>
    let log := s.eye.log ++ [r]
    let log := if log.length > 32768 then log.drop 1 else log
    let s := { s with eye := { s.eye with ring := rest, log := log } }
    (s.setF F.EYE_LOG_NEXT ((s.f F.EYE_LOG_NEXT + 1) % 32768)).bump F.EYE_LOG_TOTAL

/-- The end of an alert pin's minimum pulse. -/
def State.pulseEnd (s : State) (sec : Bool) : State :=
  let p := if sec then { s.pins with secPulse := false } else { s.pins with alertPulse := false }
  { s with pins := p }.releasePins

/-- A write of the HOLD fields (R446, R454). -/
def State.pinHold (s : State) (al se : Nat) (m : Master) : State :=
  s.class5 (RegKey.addr ⟨.EYE_PIN, 0, 0⟩) m fun s =>
    ((s.setF F.EYE_PIN_ALERT_HOLD (al % 2)).setF F.EYE_PIN_SECALERT_HOLD (se % 2)).releasePins

/-! ### Watchdogs (R455) and injection (R457) -/

/-- A keel kick, accepted from the service processor alone. -/
def State.keelKick (s : State) (m : Master) : State := if m = Master.sp then s.lowerLevel (srcOf 83 8) else s

/-- An OS kick begins a new interval. -/
def State.osKickNow (s : State) : State := { s with eye := { s.eye with osKick := s.now } }

/-- A missed OS interval; the next begins. -/
def State.osExpire (s : State) : State :=
  if s.f F.EYE_KICK_OS_MS = 0 then s else s.osKickNow.raise (srcOf 83 9) ⟨0, Master.sp.code, 0⟩

/-- A write of 1 to ARM. -/
def State.injArm (s : State) (m : Master) : State :=
  if s.lcs = 1 ∨ s.lcs = 3 ∨ s.lcs = 4 then { s.setF F.EYE_INJ_CTRL_ARMED 1 with injLeft := 0 }
  else s.lcViolation (RegKey.addr ⟨.EYE_INJ_CTRL, 0, 0⟩) m

/-! ### Array fences and self-tests (R117, R119) -/

/-- Fencing an array takes its wing out of service with cause 3 (R117). -/
def State.fenceArray (s : State) (w a : Nat) : State :=
  if s.f F.WNG_ARR_STAT_FENCED w a = 1 then s else
  ((s.setF F.WNG_ARR_STAT_FENCED 1 w a).bump F.WNG_ID_FENCES 1 w).wingLeave w 3

/-- The running sweep of a wing. -/
def State.sweepOn (s : State) (w : Nat) : Option Sweep := s.eye.sweeps.find? fun x => x.running && x.wing == w

def State.setSweep (s : State) (y : Sweep) : State :=
  { s with eye := { s.eye with sweeps := s.eye.sweeps.map fun x => if x.wing = y.wing ∧ x.arr = y.arr then y else x } }

/-- A write of 1 to WNG_BIST.START (R119). A sweep's self-test leaves the wing in TEMPER; a START while it runs is refused (log
entry 135). -/
def State.bistStart (s : State) (w : Nat) : State :=
  let st := s.wingState w
  if st = 0 ∨ st = 5 then
    let s := s.setWing w { s.wing w with bistRet := st }
    (s.setWingState w 4).setF F.WNG_BIST_BUSY 1 w
  else if st = 1 ∧ (s.sweepOn w).isSome ∧ s.f F.WNG_BIST_BUSY w = 0 then s.setF F.WNG_BIST_BUSY 1 w
  else s.setF F.WNG_BIST_REFUSED 1 w

/-- The result of one array (Table 4-16), its failing positions lowest first. -/
def State.bistReport (s : State) (w a : Nat) (r : BistResult) : State :=
  let fails := sortNat r.fails
  let at_ := fun i => fails.getD i 0xFF % 256
  let word := at_ 0 + at_ 1 * 2 ^ 8 + at_ 2 * 2 ^ 16 + at_ 3 * 2 ^ 24 +
    (if r.fails.length > 4 then 2 ^ 32 else 0) + (if r.tbFail then 2 ^ 33 else 0) +
    (if r.fails.isEmpty && !r.tbFail then 2 ^ 34 else 0)
  s.wr .WNG_ARR_BIST (BitVec.ofNat 64 word) w a

/-- A result with nothing failing. -/
def bistPass (r : BistResult) : Bool := r.fails.isEmpty && !r.tbFail

/-- One self-test of a sweep is over (R458): the next m, whose test waits for a hold of the domain to release (R48), or the end of
the tests. -/
def State.sweepNext (s : State) (x : Sweep) (pass : Bool) : State :=
  let d := 6 * x.wing + x.arr
  if pass ∧ x.m < s.f F.EYE_SWEEP_GUARD then s.setSweep { x with m := x.m + 1 }
  else (s.setF F.MGN_DOM_TAP_SWEEP_OFF 0 d).setSweep { x with ended := true, failed := !pass }

/-- The end of a self-test (R119): every array outside a sweep, the named array in one. -/
def State.bistDone (s : State) (w : Nat) (rs : List BistResult) : State :=
  if s.f F.WNG_BIST_BUSY w = 0 then s else
  let s := (s.setF F.WNG_BIST_BUSY 0 w).setF F.WNG_BIST_DONE 1 w
  if s.wingState w = 4 then
    let s : State := foldS (List.range 4) (fun a s => s.bistReport w a (rs.getD a ⟨[], false⟩)) s
    s.setWingState w (s.wing w).bistRet
  else
    let a := s.f F.WNG_BIST_ARRAY w
    let r := rs.headD ⟨[], false⟩
    let s := s.bistReport w a r
    match s.sweepOn w with
    | some x => if x.arr = a ∧ !x.ended then s.sweepNext x (bistPass r) else s
    | none => s

/-! ### Margin sweeps (R458, R459) -/

/-- The stress point of an array: Tj within 3 °C and VCORE within 10 mV of its last mismatch. -/
def State.atStress (s : State) (w a : Nat) : Bool :=
  match mget s.eye.stress (w, a) with
  | some t => decide ((s.fS F.THM_SENS_TEMP w - t.tj).natAbs ≤ 30) &&
      decide (((s.f F.PWR_RAIL_SET_MV (w / 16) : Int) - t.vcore).natAbs ≤ 10)
  | none => false

/-- A pass that waits for a wing takes it once it is idle; sweeps go on: the first that has reached its stress point takes its idle wing into TEMPER when none runs and no pass of
R51 wants the wing (Table 16-11), and its self-tests begin when its domain is not held. -/
def State.sweepGo (s : State) : State :=
  let s := s.temperTake
  let s := match s.eye.sweeps.find? Sweep.running with
    | some _ => s
    | none =>
      match s.eye.sweeps.find? Sweep.reached with
      | none => s
      | some x =>
        let due := s.margin.temper.any fun (t : TemperRun) => (t.todo ++ t.retry).any fun d => domWing d == some x.wing
        if s.wingIdle x.wing ∧ !due then
          let s := (s.setWingState x.wing 1).setF F.EYE_SWEEP_WING x.wing
          let s := s.setWing x.wing { s.wing x.wing with sweep := true }
          s.setSweep { x with running := true, m := 0, c0 := s.f F.MGN_DOM_TAP_CURRENT (6 * x.wing + x.arr) }
        else s
  match s.eye.sweeps.find? Sweep.running with
  | none => s
  | some x =>
    let d := 6 * x.wing + x.arr
    if x.ended ∨ s.f F.WNG_BIST_BUSY x.wing = 1 ∨ s.held d ∨ s.wingState x.wing ≠ 1 then s
    else
      let s := s.setF F.MGN_DOM_TAP_SWEEP_OFF x.m d
      (s.setF F.WNG_BIST_ARRAY x.arr x.wing).setF F.WNG_BIST_BUSY 1 x.wing

/-- A stress point reached (R458): sweeps run in the order in which their stress points were reached. -/
def State.sweepReached (s : State) (w a : Nat) : State :=
  match s.eye.sweeps.find? fun x => x.wing == w && x.arr == a with
  | some x =>
    if x.reached ∨ !s.atStress w a then s
    else { s with eye := { s.eye with sweeps := (s.eye.sweeps.filter fun y => y != x) ++ [{ x with reached := true }] } }
  | none => s

/-- The stress point did not recur (R458). -/
def State.sweepAbandon (s : State) (w a : Nat) : State :=
  s.dropSweeps (fun x => x.wing == w && x.arr == a && !x.reached) true

/-- The end of a sweep and its result (R459). -/
def State.sweepEnd (s : State) (w a : Nat) : State :=
  match s.eye.sweeps.find? fun x => x.running && x.ended && x.wing == w && x.arr == a with
  | none => s
  | some x =>
    let d := 6 * w + a
    let result := if !x.failed then 1 else if x.m ≥ 1 then 2 else 3
    let s := s.dropSweeps (fun y => y == x) false
    let s := s.setF F.EYE_SWEEP_LAST_RESULT result
    let s := s.raise (srcOf w 8) ⟨0, (Master.mk 1 w).code, atCheck⟩
    if result = 2 then
      let c := x.c0 + s.f F.EYE_SWEEP_GUARD + 1 - x.m
      if c > 63 then s.exhaust d else s.planWrite d c
    else if result = 3 then s.fenceArray w a
    else s

end Sys2Proof.Machine
end

