-- ==== Sys2Proof/Machine/Security.lean ====
section
/-! DEFINITION. Security and life cycle (R416 to R436): certificates, signed objects, image slots, tokens, the challenge,
attestation reports, debug scopes, and the zeroisation of a state change. -/

namespace Sys2Proof.Machine

/-- Bytes as the numbers the cryptographic functions of Config take. -/
def nats (bs : List Byte) : List Nat := bs.map BitVec.toNat

/-- A part of a byte string. -/
def cut (bs : List Byte) (o n : Nat) : List Byte := (bs.drop o).take n

/-- An ASCII tag as bytes. -/
def magic (cs : List Nat) : List Byte := cs.map fun c => BitVec.ofNat 8 c

/-- The module's fused serial number. -/
def serialNo : Nat :=
  getBits (Config.fuseWord (RegKey.addr ⟨.CRU_ID, 0, 0⟩)) 32 32 + Config.serialHi % 2 ^ 32 * 2 ^ 32

/-! ### Certificates and chains (R417, R418) -/

def certKind (c : List Byte) : Nat := leNat (cut c 5 1)
def certRoles (c : List Byte) : Nat := leNat (cut c 6 2)
def certKey (c : List Byte) : List Nat := nats (cut c 80 97)

/-- The layout of Table 15-2. -/
def certForm (c : List Byte) : Bool :=
  c.length == 280 && cut c 0 4 == magic [0x4B, 0x43, 0x52, 0x54] && leNat (cut c 4 1) == 1 &&
  decide (1 ≤ certKind c) && decide (certKind c ≤ 6)

/-- A certificate issued with a key. -/
def certBy (c : List Byte) (key : List Nat) : Bool :=
  certForm c && nats (cut c 32 48) == Config.sha384 key &&
  Config.ecdsaVerify key (nats (cut c 0 184)) (nats (cut c 184 96))

/-- The chain a certificate belongs to, with its effective roles (R418). An object and a HELLO carry one certificate, so its
issuer is a root. -/
inductive CertChain where
  | none
  | vendor (roles : Nat)
  | operator (roles : Nat)
  deriving DecidableEq, Repr

/-- OPERATOR implies MONITOR; bits 4 to 7 have no effect in an operator chain (R418). -/
def opRoles (r : Nat) : Nat := let r := r % 16; if r / 2 % 2 = 1 then r ||| 1 else r

def State.chainOf (s : State) (c : List Byte) : CertChain :=
  match [0, 1, 2, 3].find? fun k => s.fuses.revoked / 2 ^ k % 2 == 0 && certBy c (Config.vendorRoot k) with
  | some k => .vendor (certRoles c &&& Config.vendorRootRoles k)
  | none =>
    match s.sec.roots.find? fun r => certBy c (certKey r) with
    | some r => .operator (opRoles (certRoles c &&& certRoles r))
    | none => .none

def hasRole (roles b : Nat) : Bool := roles / 2 ^ b % 2 == 1

/-! ### Signed objects (R419 to R422) -/

def objClass (o : List Byte) : Nat := leNat (cut o 5 1)
def objSvn (o : List Byte) : Nat := leNat (cut o 6 2)
def objPayload (o : List Byte) : List Byte := o.drop 0x200
def objSigner (o : List Byte) : List Byte := cut o 0x80 280

/-- The largest payload of a class (Table 15-5). -/
def maxPayload (c : Nat) : Nat := [0x400000, 0x4000000, 0x10000, 0x100000, 0x1000, 0x1000].getD c 0

/-- The current challenge (R434). -/
def State.challenge (s : State) : List Byte := (List.range 6).flatMap fun i => leBytes 8 (s.rd .SEC_CHAL i).toNat

/-- A token kind that Table 15-11 or Table 15-13 allows its signer in the present state. -/
def State.tokenAllowed (s : State) (kind scopes : Nat) (c : CertChain) : Bool :=
  let vendor := match c with | .vendor r => hasRole r 7 | _ => false
  let oper := match c with | .operator r => hasRole r 2 | _ => false
  if kind = 1 then s.lcs == 1 && vendor && s.sec.deviceCert
  else if kind = 2 then s.lcs == 3 && oper
  else if kind = 3 then s.lcs == 4 && vendor && decide (s.fuses.reseals < 2)
  else if kind = 4 then ((s.lcs == 1 || s.lcs == 4) && vendor) || (s.lcs == 3 && oper)
  else if kind = 5 then (s.lcs == 3 && oper && scopes % 2 == 1) || (s.lcs == 4 && vendor && scopes % 4 != 0)
  else false

/-- The role a class needs of its signer (Table 15-5). -/
def signerOk (cls : Nat) (c : CertChain) : Bool :=
  match c with
  | .none => false
  | .vendor r => hasRole r ([4, 3, 5, 6, 7, 7].getD cls 16)
  | .operator r => (cls == 1 && hasRole r 3) || ((cls == 4 || cls == 5) && hasRole r 2)

/-- A payload that is a root list (R433): a count from 1 to 4 and that many self-signed OPERATOR_ROOT certificates. -/
def rootList (p : List Byte) : Option (List (List Byte)) :=
  let n := leNat (p.take 1)
  if n < 1 ∨ n > 4 ∨ p.length ≠ 1 + 280 * n then none
  else
    let cs := (List.range n).map fun i => cut p (1 + 280 * i) 280
    if cs.all fun c => certKind c == 5 && certBy c (certKey c) then some cs else none

/-- The checks of R421 in order; 0 where the object verifies, otherwise the cause of Table 15-6. `op`: it came in an OPERATOR
session. -/
def State.verify (s : State) (cls : Nat) (o : List Byte) (op : Bool) : Nat :=
  let p := objPayload o
  let bind := leNat (cut o 0x10 8)
  let chain := s.chainOf (objSigner o)
  let voucher := decide (cls = 4) && (match chain with | .vendor _ => true | _ => false)
  if o.length < 0x200 ∨ cut o 0 4 ≠ magic [0x4B, 0x49, 0x4D, 0x47] ∨ leNat (cut o 4 1) ≠ 1 ∨ objClass o ≠ cls ∨ cls > 5 ∨
      leNat (cut o 8 8) ≠ p.length ∨ p.length > maxPayload cls then 1
  else if !(bind == serialNo || (decide (cls ≤ 3) && bind == 0)) then 2
  else if !signerOk cls chain then 3
  else if !Config.ecdsaVerify (certKey (objSigner o)) (nats (cut o 0 0x198)) (nats (cut o 0x198 96)) then 4
  else if nats (cut o 0x48 48) ≠ Config.sha384 (nats p) then 5
  else if cls ≤ 3 ∧ objSvn o < s.fuses.rollback.getD cls 0 then 6
  else if (cls = 5 ∨ voucher) ∧ cut o 0x18 48 ≠ s.challenge then 7
  else if cls = 5 then (if s.tokenAllowed (leNat (cut p 0 1)) (leNat (cut p 1 1)) chain then 0 else 8)
  else if cls = 4 then
    (if (rootList p).isNone then 1
     else if (voucher && s.lcs == 2) || (!voucher && s.lcs == 3 && op) then 0 else 8)
  else 0

/-! ### Slots (R420, R424) -/

def State.activeSlot (s : State) (c : Nat) : Nat := mgetD s.sec.active c 0
def State.slotObj (s : State) (c k : Nat) : Option (List Byte) := mget s.sec.slots (c, k)
def State.imgPending (s : State) (c : Nat) : Bool := s.sec.pendImg.contains c
def State.setSec (s : State) (x : SecSt) : State := { s with sec := x }

/-- SEC_IMG_STAT of a class shows the store (Table 15-21). -/
def State.imgStat (s : State) (c : Nat) : State :=
  let a := s.activeSlot c
  let svn := fun (k : Nat) => match s.slotObj c k with | some o => objSvn o | none => 0
  let s := s.setF F.SEC_IMG_STAT_ACTIVE_SLOT a c
  let s := s.setF F.SEC_IMG_STAT_PENDING (if s.imgPending c then 1 else 0) c
  let s := s.setF F.SEC_IMG_STAT_SVN_ACTIVE (svn a) c
  s.setF F.SEC_IMG_STAT_SVN_PENDING (if s.imgPending c then svn (1 - a) else 0) c

/-- SEC_ROOTS shows the installed list (Table 15-20). -/
def State.rootStat (s : State) : State :=
  (s.setF F.SEC_ROOTS_COUNT s.sec.roots.length).setF F.SEC_ROOTS_ROLES_ANY
    (s.sec.roots.foldl (fun (a : Nat) c => a ||| certRoles c % 256) 0)

/-- SEC_LCS and SEC_ROLLBACK show the fuses (R431, R422). -/
def State.fuseStat (s : State) : State :=
  let s := (s.setF F.SEC_LCS_STATE s.fuses.lcs).setF F.SEC_LCS_RESEALS s.fuses.reseals
  let r := fun (i : Nat) => s.fuses.rollback.getD i 0
  (((s.setF F.SEC_ROLLBACK_KEEL (r 0)).setF F.SEC_ROLLBACK_BOOT (r 1)).setF F.SEC_ROLLBACK_QUAL (r 2)).setF F.SEC_ROLLBACK_LEC (r 3)

/-- A verified image becomes PENDING in its class's inactive slot. -/
def State.installPending (s : State) (c : Nat) (o : List Byte) : State :=
  let k := 1 - s.activeSlot c
  let pend := if s.imgPending c then s.sec.pendImg else s.sec.pendImg ++ [c]
  (s.setSec { s.sec with slots := mset s.sec.slots (c, k) o, pendImg := pend }).imgStat c

/-- A pending image fails: its slot is cleared and FELL_BACK is set (R424). -/
def State.dropPending (s : State) (c : Nat) : State :=
  if !s.imgPending c then s else
  let k := 1 - s.activeSlot c
  let s := s.setSec { s.sec with slots := mdel s.sec.slots (c, k), pendImg := s.sec.pendImg.filter (· != c) }
  (s.imgStat c).setF F.SEC_IMG_STAT_FELL_BACK 1 c

/-- The image a boot loads (R424, R425): the pending one first, then the active one; `none` where neither verifies, which raises
the security-image source. -/
def State.bootImage (s : State) (c : Nat) : Option (List Byte) × State :=
  let good := fun (s : State) (k : Nat) => (s.slotObj c k).filter fun o => s.verify c o false == 0
  let a := s.activeSlot c
  match (if s.imgPending c then good s (1 - a) else none) with
  | some o => (some o, { s with boot := { s.boot with trial := if s.boot.trial.contains c then s.boot.trial else c :: s.boot.trial } })
  | none =>
    let s := s.dropPending c
    match good s a with
    | some o => (some o, s)
    | none => (none, s.raise (srcOf 82 5) ⟨0, Master.sp.code, 0⟩)

/-- A boot reaches stage 13 (R424, R422): images on trial become active, each counter rises to its active image's SVN. -/
def State.bootReached (s : State) : State :=
  let s : State := foldS s.boot.trial (fun c s =>
    if !s.imgPending c then s else
    let k := 1 - s.activeSlot c
    (s.setSec { s.sec with active := mset s.sec.active c k, pendImg := s.sec.pendImg.filter (· != c) }).imgStat c) s
  let svn := fun (c : Nat) => match s.slotObj c (s.activeSlot c) with | some o => objSvn o | none => 0
  let rb := (List.range 4).map fun c => min 64 (max (s.fuses.rollback.getD c 0) (svn c))
  { s with fuses := { s.fuses with rollback := rb }, boot := { s.boot with trial := [] } }.fuseStat

/-- A boot stops in stage 15 (R424): images on trial fail. -/
def State.trialFails (s : State) : State :=
  let s : State := foldS s.boot.trial (fun c s => s.dropPending c) s
  { s with boot := { s.boot with trial := [] } }

/-! ### Challenge, attestation, debug (R429, R430, R434, R436) -/

/-- A new challenge from the DRBG: six free words. -/
def State.newChallenge (s : State) : State :=
  foldS (List.range 6) (fun i s => let z := s.draw; z.2.wr .SEC_CHAL (BitVec.ofNat 64 z.1) i) s

/-- The key that signs sessions and reports (R427). -/
def State.alias (s : State) : Nat :=
  match s.slotObj 0 s.sec.keelSlot with
  | some o => Config.aliasKey (Config.sha384 (nats (objPayload o))) (objSvn o) s.lcs
  | none => Config.aliasKey [] 0 s.lcs

/-- The hash of a class's active payload; zero where there is none. -/
def State.measure (s : State) (c : Nat) : List Nat :=
  match s.slotObj c (s.activeSlot c) with
  | some o => Config.sha384 (nats (objPayload o))
  | none => List.replicate 48 0

def numBytes (xs : List Nat) (n : Nat) : List Byte := (List.range n).map fun i => BitVec.ofNat 8 (xs.getD i 0)

/-- The stacks admitted, bit s for stack s. -/
def State.admitted (s : State) : Nat := (List.range 4).foldl (fun a f => a + s.f F.FLK_MEM_QUAL_PASS f * 2 ^ (4 * f)) 0

/-- The report of Table 15-9 for a slot. -/
def State.report (s : State) (k : Nat) : List Byte :=
  let tb := (List.range 64).any fun w => s.f F.WNG_TB_CTRL_ENABLE w == 0
  let ov := (List.range 4).any fun f => s.f F.FLK_MEM_QUAL_OVERRIDE f == 1
  let flags := (if tb then 1 else 0) + (if ov then 2 else 0) + (if s.f F.SEC_LCS_DEBUG_SEEN ≠ 0 then 4 else 0) +
    (if s.sec.pendImg.isEmpty then 0 else 8)
  let roots := if s.sec.roots.isEmpty then List.replicate 48 0
    else Config.sha384 (s.sec.roots.length :: nats s.sec.roots.flatten)
  let body := magic [0x4B, 0x41, 0x54, 0x54] ++ leBytes 1 1 ++ leBytes 1 s.lcs ++ leBytes 2 flags ++ leBytes 8 serialNo ++
    leBytes 8 s.now ++ ((List.range 6).flatMap fun i => leBytes 8 (s.rd .SEC_ATT_NONCE k i).toNat) ++
    ((List.range 4).flatMap fun c => leBytes 2 (s.fuses.rollback.getD c 0)) ++
    ((List.range 4).flatMap fun c => numBytes (s.measure c) 48) ++ numBytes roots 48 ++
    leBytes 1 (s.f F.SEC_LCS_DEBUG_SEEN) ++ leBytes 1 s.fuses.reseals ++ leBytes 2 s.admitted ++ leBytes 4 0 ++ leBytes 24 0
  body ++ numBytes (Config.ecdsaSign s.alias (nats body)) 96

/-- Filling the report window of a slot. -/
def State.putReport (s : State) (k : Nat) (bs : List Byte) : State :=
  foldS (List.range 56) (fun i s => s.wr .SEC_ATT_REPORT (BitVec.ofNat 64 (leNat (cut bs (8 * i) 8))) k i) s

/-- A write of 1 to SEC_ATT[k]_CTRL.START (R429). -/
def State.attStart (s : State) (k : Nat) : State :=
  if s.f F.SEC_ATT_CTRL_BUSY k = 1 ∨ s.f F.SEC_LCS_ZEROISING = 1 then s.setF F.SEC_ATT_CTRL_REFUSED 1 k
  else (s.setF F.SEC_ATT_CTRL_BUSY 1 k).putReport k []

/-- The report is ready. -/
def State.attDone (s : State) (k : Nat) : State :=
  if s.f F.SEC_ATT_CTRL_BUSY k = 0 then s
  else ((s.putReport k (s.report k)).setF F.SEC_ATT_CTRL_BUSY 0 k).setF F.SEC_ATT_CTRL_DONE 1 k

/-- Debug scopes open (Table 15-13). -/
def State.openScopes (s : State) (x : Nat) : State :=
  if x = 0 then s else
  let s := s.setF F.SEC_LCS_DEBUG (s.f F.SEC_LCS_DEBUG ||| x)
  let s := s.setF F.SEC_LCS_DEBUG_SEEN (s.f F.SEC_LCS_DEBUG_SEEN ||| x)
  let s := s.setF F.SEC_EVENT_DEBUG_OPENED 1
  if s.lcs = 3 ∨ s.lcs = 4 then s.raise (srcOf 82 3) ⟨0, Master.sp.code, 0⟩ else s

/-! ### Refusals, and what a state change erases (R432 to R437) -/

/-- A refused object (R437, Table 15-19). -/
def State.objectDenied (s : State) (cls cause : Nat) : State :=
  let s := (s.setF F.SEC_EVENT_LAST_CAUSE cause).setF F.SEC_EVENT_LAST_CLASS (min cls 15)
  let s := if cls = 5 then s.setF F.SEC_EVENT_TOKEN_DENIED 1 else s.setF F.SEC_EVENT_OBJECT_DENIED 1
  let s := if 3 ≤ cause ∧ cause ≤ 6 then s.raise (srcOf 82 0) ⟨0, Master.sp.code, 0⟩ else s
  if cls = 5 ∧ (cause = 3 ∨ cause = 4 ∨ cause = 7 ∨ cause = 8) then s.raise (srcOf 82 1) ⟨0, Master.sp.code, 0⟩ else s

/-- A token or voucher accepted: the challenge changes (R434). -/
def State.tokenOk (s : State) : State := (s.setF F.SEC_EVENT_TOKEN_OK 1).newChallenge

/-- The root list installed (R433). -/
def State.installRoots (s : State) (l : List (List Byte)) : State :=
  ((s.setSec { s.sec with roots := l }).setF F.SEC_EVENT_ROOTS_CHANGED 1).rootStat

/-- Zeroisation (Table 15-12). Sessions and attestation slots end with the power-on that follows. -/
def State.zeroise (s : State) (target : Nat) : State :=
  if target = 3 ∨ (target = 2 ∧ s.lcs = 1) then s else
  let x := { s.sec with roots := [], slots := s.sec.slots.filter fun e => e.1.1 != 1
                        pendImg := s.sec.pendImg.filter (· != 1), xfer := none
                        withdrawn := s.sec.withdrawn || target == 5 }
  { s.setSec x with mgt := { s.mgt with sess := [] } }

/-- The fuses of a state change (R435); a reseal burns the next reseal fuse. -/
def State.burn (s : State) (target : Nat) : State :=
  let n := if s.fuses.lcs = 4 ∧ target = 2 then s.fuses.reseals + 1 else s.fuses.reseals
  { s with fuses := { s.fuses with lcs := target, reseals := n } }

/-- What completes a state change that power loss has cut short: zeroisation, fuses, marker (R435). -/
def State.finishMarker (s : State) : State :=
  match s.sec.marker with
  | none => s
  | some t =>
    let s := if s.fuses.lcs = t then s else (s.zeroise t).burn t
    s.setSec { s.sec with marker := none }

end Sys2Proof.Machine
end

