-- ==== Sys2Proof/Machine/Reset.lean ====
section
/-! DEFINITION. What resets do to the state (R8, R12, R397, R448, R494): registers by their access codes, the units of the main
rails, Eyespot, and the power-on that keeps fuses and the non-volatile store. -/

namespace Sys2Proof.Machine

/-- Blocks on VSTBY (Table 18-1): CRU, SEC/LCS, EYE, PWR/MGN/THM. -/
def onStandby (n : RegName) : Bool :=
  [0xF00000000000, 0xF00001000000, 0xF00002000000, 0xF00003000000].contains n.info.base

/-- Fields that report a condition of the power, margin and thermal controllers, of Eyespot's pins or of the management port,
none of which a module reset touches (R394, R397, R494): register, first bit, width. -/
def liveFields (n : RegName) : List (Nat × Nat) :=
  match n with
  | .PWR_STATE => [(0, 3)]
  | .PWR_RAIL => [(0, 48)]
  | .PWR_RAIL_MEAS => [(0, 49)]
  | .PWR_IN => [(0, 32)]
  | .PWR_HOLD => [(0, 10)]
  | .PWR_CAP => [(16, 12), (32, 1)]
  | .MGN_VFLOOR => [(0, 64)]
  | .THM_STATUS => [(0, 45)]
  | .THM_SENS => [(0, 16), (32, 16)]
  | .EYE_PIN => [(0, 6)]
  | .EYE_STATUS => [(48, 12)]
  | .CRU_MGT_STAT => [(0, 15)]
  | _ => []

/-- Fields of a level source's condition survive in the groups whose detectors run on VSTBY: 82 to 86, but for 86/5. -/
def liveAsserted (k : RegKey) : Bool :=
  k.name == .EYE_SRC_STAT && decide (82 ≤ k.i / 16) && decide (k.i / 16 ≤ 86) && k.i != 16 * 86 + 5

/-- The word of a register after a module reset: kept fields as they are, the others at their Reset column (R8, R12). -/
def resetReg (k : RegKey) (old : Word) (straps : Nat) : Word :=
  let z := resetWord k straps false
  let z := k.name.info.fields.foldl (fun x f => if f.keep then setBits x f.lsb f.w (getBits old f.lsb f.w) else x) z
  let z := (liveFields k.name).foldl (fun x p => setBits x p.1 p.2 (getBits old p.1 p.2)) z
  if liveAsserted k then setBits z 1 1 (getBits old 1 1) else z

/-- The registers of some blocks reset. -/
def State.resetRegs (s : State) (p : RegName → Bool) : State :=
  { s with regs := s.regs.map (fun e => if p e.1.name then (e.1, resetReg e.1 e.2 s.pins.straps) else e) }

/-- The wings out of service with cause 2 to 5 go into the firmware's store (R120). -/
def State.noteWings (s : State) : State :=
  let out := (List.range 64).filterMap fun w =>
    let c := s.f F.WNG_STATUS_OUT_CAUSE w
    if s.wingState w = 5 ∧ 2 ≤ c then some (w, c) else none
  { s with boot := { s.boot with wingsOut := out.foldl (fun l p => mset l p.1 p.2) s.boot.wingsOut } }

/-- The cores, Imago, the Flasks and the light-engine loops reset (R397): everything beside registers, memory and what the service
processor keeps. The next incarnation number, the comb states of the store and the wear log stay. -/
def State.resetUnits (s : State) : State :=
  { s with wings := [], insts := [], nmi := 0, engFused := s.engFused.filter (· == 8), injLeft := 0, qe := {}, ms := {}, plic := {}
           d2d := {}, fab := { incNext := s.fab.incNext }, tray := {}, res := {}, coll := {}, resv := []
           le := { combNv := s.le.combNv, activeNv := s.le.activeNv, ageNv := s.le.ageNv }
           margin := { wear := s.margin.wear }
           boot := { s.boot with harts := [], entry := 0, trial := s.boot.trial.filter (· == 0) } }

/-- Eyespot at a module reset (R448, R458): quiet periods end as recoveries, sweeps are abandoned and logged; COUNT, TOTAL,
pending bits and captures restart with the registers. Reactions not yet performed are superseded. -/
def State.resetEye (s : State) : State :=
  let quiet := (s.eye.src.map Prod.fst).filter fun n => s.f F.EYE_SRC_STAT_QUIET n == 1
  let s : State := foldS quiet (fun n s => s.quietExit n) s
  let s := s.dropSweeps (fun _ => true) true
  { s with eye := { s.eye with react := [], stress := [] } }

/-- Planned taps that no write has touched stand in the register file before a reset, which keeps them (R8, R11). -/
def State.keepPlans (s : State) : State :=
  if s.engFused.contains 8 then foldS (List.range 408) (fun d (s : State) => s.wr .MGN_DOM_TAP (s.rd .MGN_DOM_TAP d) d) s else s

/-- The blocks of the main rails reset. -/
def State.resetMain (s : State) : State := ((s.keepPlans.noteWings).resetRegs (fun n => !onStandby n)).resetUnits

/-- A module reset (R397): the state before boot stage 2. -/
def State.resetModule (s : State) : State :=
  let s := s.resetEye.resetMain
  let n := s.f F.CRU_RESET_COUNT
  let debug := s.f F.SEC_LCS_DEBUG
  let open_ := s.lcs == 0 || s.lcs == 1
  let s := s.resetRegs onStandby
  let s := s.setF F.CRU_RESET_COUNT (satAdd 32 n 1)
  let s := s.setF F.CRU_RES_RESV_ACTIVE_G (s.f F.CRU_RES_RESV_SIZE_G)
  -- scope CORE closes (R436); in BLANK and MAKER both stay open
  let s := s.setF F.SEC_LCS_DEBUG (if open_ then debug else debug / 2 * 2)
  let s : State := foldS (List.range 4) (fun c s => s.imgStat c) s
  s.releasePins.newChallenge

/-- A power-on reset (R397): everything but the fuses, the non-volatile store and what stands outside the module. -/
def State.resetPowerOn (s : State) (straps : Nat) : State :=
  let s := s.noteWings
  let t : State :=
    { regs := standbyRail, pending := s.pending, free := s.free, out := s.out, poweredH := s.hours, fuses := s.fuses
      pins := { straps := straps, resetN := s.pins.resetN, refclk := s.pins.refclk }
      margin := { wear := s.margin.wear }, eye := { log := s.eye.log }, nextInst := s.nextInst
      fab := { incNext := s.fab.incNext }, le := { combNv := s.le.combNv, activeNv := s.le.activeNv, ageNv := s.le.ageNv }
      boot := { wingsOut := s.boot.wingsOut, softNv := s.boot.softNv, swapNv := s.boot.swapNv }
      sec := { s.sec with xfer := none }, fru := s.fru }
  let t := t.setF F.EYE_LOG_NEXT (s.f F.EYE_LOG_NEXT)
  t.finishMarker

end Sys2Proof.Machine
end

