-- ==== Sys2Proof/Machine/Power.lean ====
section
/-! DEFINITION. Power, temperature and cold start (R486 to R507), with keel notices (R398), module resets and power-on
(R397, R514, R517, R518) as the boot's other half needs them. Temperatures are in tenths of a degree. -/

namespace Sys2Proof.Machine

/-! ### Notices, boot stages, resets -/

/-- A keel notice (R398): its code, PLIC source 386, and NOTICE_LOST where it replaces one. -/
def State.notice (s : State) (code : Nat) : State :=
  let s := if s.f F.CRU_NOTICE_PENDING = 1 then s.setF F.CRU_NOTICE_NOTICE_LOST 1 else s
  ((s.setF F.CRU_NOTICE_CODE code).setF F.CRU_NOTICE_PENDING 1).irq 386

def State.stage (s : State) : Nat := s.f F.CRU_BOOT_STAGE
def State.setStage (s : State) (n : Nat) : State := (s.setF F.CRU_BOOT_STAGE n).refreshPins
def State.pwrState (s : State) : Nat := s.f F.PWR_STATE_STATE

/-- The boot stops in stage 15 (R399). A pending keel that runs falls back at once: the ROM boots the active one (R424). -/
def State.bootFail (s : State) (cause : Nat) : State :=
  let keel := s.boot.trial.contains 0
  let s := s.trialFails
  if keel then (s.setF F.CRU_BOOT_CAUSE 0).setStage 1
  else (s.setF F.CRU_BOOT_CAUSE cause).setStage 15

/-- A module reset (R397) in the power state ON, from stage 2 on; the boot begins again at stage 2. -/
def State.moduleReset (s : State) (cause : Nat) : State :=
  if s.pwrState ≠ 2 ∨ s.stage < 2 then s else
  let s := s.resetModule
  ((s.setF F.CRU_BOOT_LAST_RESET cause).setF F.CRU_BOOT_POWER_ON 0).setStage 2

/-! ### Rails (R486 to R489) -/

/-- The rails of the six power-up steps (R488). -/
def powerSteps : List (List Nat) := [[13], [8], [10], [0, 1, 2, 3, 4, 5, 6, 7], [11], [12]]
def mainRails : List Nat := powerSteps.flatten

/-- The level at which a rail comes up (Table 18-1). -/
def State.railLevel (s : State) (r : Nat) : Nat :=
  if r < 8 then 720 else if r = 8 then s.f F.PWR_RAIL_TARGET_MV 8 else if r = 10 then 750 else if r = 12 then 3300
  else if r = 13 then 1800 else 0

def State.railUp (s : State) (r : Nat) : State :=
  let s := (s.setF F.PWR_RAIL_SET_MV (s.railLevel r) r).setF F.PWR_RAIL_MEAS_PGOOD 1 r
  if r < 8 then (s.setF F.PWR_RAIL_PWR_REQ_MV 720 r).setF F.PWR_RAIL_THM_REQ_MV 850 r else s

def State.setPw (s : State) (x : PwrSt) : State := { s with pw := x }

/-- The main rails go off: what they supply loses its state and the stacks their contents (R489). -/
def State.railsOff (s : State) : State :=
  let s := s.resetMain
  let s : State := foldS mainRails (fun r s =>
    let f := s.f F.PWR_RAIL_MEAS_FAULT r
    (s.setF F.PWR_RAIL_SET_MV 0 r).wr .PWR_RAIL_MEAS (BitVec.ofNat 64 (f * 2 ^ 49)) r) s
  { s.setPw { step := 0 } with mem := [], poison := [], latent := [] }

/-- A power-up that fails (R488): STOPPED, stage 15. -/
def State.powerUpFail (s : State) (cause : Nat) : State :=
  let s := (s.railsOff.setF F.PWR_STATE_STATE 4).setF F.PWR_STATE_STOP_CAUSE 0
  (s.setF F.CRU_BOOT_CAUSE cause).setStage 15

/-- All rails are up: stage 1 after a power-on, stage 2 after a restart (R488, R505); no reference ends a power-on (R518). -/
def State.powerUpDone (s : State) : State :=
  let again := s.pw.resume
  let s := (s.setPw { s.pw with step := 0, resume := false }).setF F.PWR_STATE_STATE 2
  if again then s.setStage 2
  else if !s.pins.refclk then s.bootFail 0x21
  else s.setStage 1

/-- The rails of the running step reach power-good, or one of them does not within 2 ms (R488). -/
def State.railGood (s : State) (bad : Option Nat) : State :=
  let k := s.pw.step
  if s.pwrState ≠ 1 ∨ k = 0 ∨ 6 < k then s else
  match bad with
  | some r =>
    if r ∈ mainRails then (s.setF F.PWR_RAIL_MEAS_FAULT 1 r).powerUpFail (r + 1) else s
  | none =>
    let s : State := foldS (powerSteps.getD (k - 1) []) (fun r s => s.railUp r) s
    if k = 6 then s.powerUpDone else s.setPw { s.pw with step := k + 1 }

/-- The input has been within 40–60 V for 10 ms (R488): VSTBY rises, the straps are sampled, a power-on reset. -/
def State.inputValid (s : State) (straps : Nat) : State :=
  let s := { s with pins := { s.pins with lost := false } }
  if s.pins.vstby then s else s.resetPowerOn (straps % 64)

/-- VSTBY falls with the input: nothing of the boot is kept (R529). -/
def State.inputGone (s : State) : State :=
  let t := s.resetPowerOn s.pins.straps
  { t with regs := [], pins := { t.pins with vstby := false }, pw := { step := 0 } }

/-- The conditions of a restart (R505). -/
def State.restartOk (s : State) : Bool :=
  let v := s.f F.PWR_IN_VIN_MV
  let top : Int := if s.pwrState = 5 then 850 else 920
  decide (40000 ≤ v) && decide (v ≤ 60000) &&
  ((List.range 74).all fun n => decide (s.reading n < top)) &&
  ((natRange 74 16).all fun n => decide (s.fS F.THM_SENS_TEMP n < 900))

/-- Leaving STOPPED or TRIPPED (R505): stage 0 again, then stage 2 with module-reset semantics. -/
def State.restart (s : State) (cause : Nat) : State :=
  let s := s.resetModule
  let s := (s.setF F.CRU_BOOT_LAST_RESET cause).setF F.CRU_BOOT_POWER_ON 0
  let s := (s.setF F.PWR_STATE_STATE 1).setPw { s.pw with step := 1, resume := true }
  s.setStage 0

/-- The automatic restart, when its conditions have held for 10 s. -/
def State.autoRestart (s : State) : State :=
  if s.f F.PWR_CTRL_AUTO_RESTART = 1 ∧ (s.pwrState = 4 ∨ s.pwrState = 5) ∧ s.restartOk then s.restart 5 else s

/-! ### Requests, holds and set points (R24, R494, R495) -/

/-- The cap the controller applies: BASK_W as well while heating (R501). -/
def State.capForce (s : State) : State :=
  let c := s.f F.PWR_CAP_CAP_W
  s.setF F.PWR_CAP_IN_FORCE_W (if s.f F.PWR_BASK_STATE = 2 then min c (s.f F.PWR_BASK_BASK_W) else c)

/-- Setting the cap: the nearest bound outside 1,200 to 2,600 W (R495). -/
def State.capWrite (s : State) (v : Nat) : State := (s.setF F.PWR_CAP_CAP_W (clampNat 1200 2600 v)).capForce

/-- The thermal request of a rail: the throttle's, or a rate-of-rise event's where that is lower (R494, R499). -/
def State.thmReq (s : State) (r : Nat) : State :=
  let base := mgetD s.pw.thr r 850
  s.setF F.PWR_RAIL_THM_REQ_MV (match mget s.pw.dtdt r with | some x => min base x.1 | none => base) r

/-- One step below the lower of a request and the applied set point, never below 0.60 V (R494). -/
def State.stepDown (s : State) (r v : Nat) : Nat := max 600 (min v (s.f F.PWR_RAIL_SET_MV r) - 10)

/-- The set point a rail is to take (R24): the lower request, never below the margin floor, in steps of 10 mV. -/
def State.railTarget (s : State) (r : Nat) : Nat :=
  let floor := (s.f F.MGN_VFLOOR_FLOOR_MV r + 9) / 10 * 10
  min 850 (max (min (s.f F.PWR_RAIL_PWR_REQ_MV r) (s.f F.PWR_RAIL_THM_REQ_MV r)) floor)

/-- A set point settles; a change restarts the temper measurement on the rail (R55, R494). -/
def State.setpoint (s : State) (r : Nat) : State :=
  if s.pwrState ≠ 2 ∧ s.pwrState ≠ 3 then s
  else if r < 8 then
    let v := s.railTarget r
    if v = s.f F.PWR_RAIL_SET_MV r then s else (s.setF F.PWR_RAIL_SET_MV v r).temperRestart r
  else if r = 8 then s.setF F.PWR_RAIL_SET_MV (clampNat 650 800 (s.f F.PWR_RAIL_TARGET_MV 8)) 8
  else s

/-- The held fractions (R24, R495): of each wing the larger of the power and the thermal hold, and their average. -/
def State.showHolds (s : State) : State :=
  let pm := fun (w : Nat) => max s.pw.phold (mgetD s.pw.hold (w / 16) 0 * 1000 / 64)
  let s : State := foldS (List.range 64) (fun w s => s.setF F.MGN_RATE_ACT_PHOLD_PM (pm w) w) s
  let sum := (List.range 64).foldl (fun (a : Nat) w => a + pm w) 0
  let s := s.setF F.PWR_HOLD_HOLD_PM (sum / 64)
  if sum = 0 then s.lowerLevel (srcOf 85 1) else s.raiseLevel (srcOf 85 1) ⟨0, Master.sp.code, 0⟩

def State.setPwrReq (s : State) (v : Nat) : State := foldS (List.range 8) (fun r s => s.setF F.PWR_RAIL_PWR_REQ_MV v r) s

/-- An activity figure of the last millisecond into its field (log entry 138). -/
def State.figure (s : State) : Figure → State
  | .wingRate w v => s.setF F.MGN_RATE_ACT_RATE v w
  | .wingBusy w v => s.setF F.MGN_RATE_ACT_BUSY_PM v w
  | .wingHeld w v => s.setF F.MGN_RATE_ACT_MHOLD_PM v w
  | .vecBusy w v => s.setF F.WNG_VEC_ACT_BUSY_PM v w
  | .vecPort w v => s.setF F.WNG_VEC_ACT_PORT_PM v w
  | .vecGather w v => s.setF F.WNG_VEC_ACT_GATHER_PM v w
  | .vecWait w v => s.setF F.WNG_VEC_ACT_WAIT_PM v w
  | .crossUse x v => s.setF F.RUN_XLINK_STAT_UTIL_PM v x
  | .crossStall x v => s.setF F.RUN_XLINK_STAT_STALL_PM v x
  | .stackData k v => s.setF F.FLK_MEM_STACK_ACT_DATA_PM v k
  | .stackTurn k v => s.setF F.FLK_MEM_STACK_ACT_TURN_PM v k
  | .stackRefresh k v => s.setF F.FLK_MEM_STACK_ACT_REFRESH_PM v k
  | .stackHeld k v => s.setF F.FLK_MEM_STACK_ACT_HOLD_PM v k
  | .portTrip p v => s.setF F.FAB_PORT_STAT_RTT_NS v p
  | .portUse p v => s.setF F.FAB_PORT_STAT_UTIL_PM v p

/-- A request below the floor of some rail (R24, R46, Table 18-8): the power controller's, or the rail's thermal one. -/
def State.belowFloor (s : State) (req : Nat) : Bool :=
  (List.range 8).any fun r => decide (min req (s.f F.PWR_RAIL_THM_REQ_MV r) < s.f F.MGN_VFLOOR_FLOOR_MV r)

/-- One millisecond of the power controller (R495): the input power over it, the highest request its model keeps within the cap,
the hold in parts per thousand that the cap, or a request below the floor (R24), needs at that request, and the activity figures. -/
def State.powerTick (s : State) (watts fit hold : Nat) (figures : List Figure) : State :=
  let s := foldS figures (fun x s => s.figure x) s
  if s.pwrState ≠ 2 ∧ s.pwrState ≠ 3 then s else
  let s := (s.setF F.PWR_IN_POWER_W watts).capForce
  let s := if watts > 2600 then s.raise (srcOf 85 6) ⟨0, Master.sp.code, 0⟩ else s
  let heat := s.f F.PWR_BASK_STATE = 2
  let old := s.f F.PWR_RAIL_PWR_REQ_MV 0
  let fit := clampNat 600 850 fit / 10 * 10
  let req := if s.pwrState = 3 then 600 else if heat then 850 else if fit ≤ old then fit else min fit (old + 10)
  let s := s.setPwrReq req
  let low := req == 600 || (List.range 8).any fun r => decide (req < s.f F.MGN_VFLOOR_FLOOR_MV r)
  let ph := if low || s.belowFloor req || decide heat then min hold 1000 else 0
  let lim := s.pwrState == 2 && !decide heat && ((decide (fit < 850) && req == fit) || (low && decide (ph > 0)))
  let n := if lim then s.pw.limTicks + 1 else 0
  let s := (s.setPw { s.pw with phold := ph, limTicks := n }).setF F.PWR_CAP_LIMITING (if lim then 1 else 0)
  let s := if n ≥ 10 then s.raiseLevel (srcOf 85 0) ⟨0, Master.sp.code, 0⟩ else s.lowerLevel (srcOf 85 0)
  s.showHolds

/-! ### Orderly stop and rail cuts (R489, R498, R503, R504, R506) -/

/-- An orderly stop starts in ON; a second trigger changes nothing (R503, R504, R507). -/
def State.orderlyStop (s : State) (trigger : Nat) : State :=
  if s.pwrState ≠ 2 then s else
  let s := (s.setF F.PWR_STATE_STATE 3).setF F.PWR_STATE_STOP_CAUSE trigger
  let s := ((s.setF F.QE_CTRL_DISPATCH_EN 0).notice 1).raise (srcOf 85 7) ⟨0, Master.sp.code, 0⟩
  s.setPwrReq 600

/-- The power-down at the end of a stop (R489); VSTBY falls too where the hold-up store carried the stop. -/
def State.powerDown (s : State) : State :=
  if s.pwrState ≠ 3 then s else
  let s := (s.railsOff.setF F.PWR_STATE_STATE 4).setStage 0
  if s.pins.lost then s.inputGone else s

/-- The hardware cuts the main rails (R498). -/
def State.cutRails (s : State) : State :=
  if s.pwrState = 4 ∨ s.pwrState = 5 then s else (s.railsOff.setF F.PWR_STATE_STATE 5).setStage 0

/-- A die sensor reaches TRIP. -/
def State.trip (s : State) : State :=
  if s.pwrState = 4 ∨ s.pwrState = 5 then s
  else (s.cutRails.setF F.THM_STATUS_TRIP_SEEN 1).raise (srcOf 84 3) ⟨0, Master.sp.code, 0⟩

/-- A rail fault in ON (R506). -/
def State.railFault (s : State) (r : Nat) : State :=
  if s.pwrState ≠ 2 then s
  else ((s.cutRails).setF F.PWR_RAIL_MEAS_FAULT 1 r).raise (srcOf 85 5) ⟨0, Master.sp.code, 0⟩

/-! ### Input (R490, R493, R503, R517) -/

/-- One sample of the input and the rails (R490, R493): millivolts, watts over 100 µs, and per rail millivolts, tenths of an
ampere, watts. -/
def State.inputSample (s : State) (mv avg : Nat) (rails : List (Nat × Nat × Nat)) : State :=
  let s := s.setF F.PWR_IN_VIN_MV mv
  let s := if avg > s.f F.PWR_IN_PEAK_W then s.setF F.PWR_IN_PEAK_W avg else s
  let s : State := foldS rails.zipIdx (fun (x : (Nat × Nat × Nat) × Nat) (s : State) =>
    let r := x.2
    if r > 13 then s else
    let s := s.setF F.PWR_RAIL_MEAS_MEAS_MV (if r = 11 then 0 else x.1.1) r
    (s.setF F.PWR_RAIL_MEAS_CURRENT x.1.2.1 r).setF F.PWR_RAIL_MEAS_POWER_W x.1.2.2 r) s
  let s := if mv ≥ 40000 then { s with pins := { s.pins with lost := false } } else s
  let s := if mv < 42000 then s.raiseLevel (srcOf 85 2) ⟨0, Master.sp.code, 0⟩ else s.lowerLevel (srcOf 85 2)
  if s.pwrState = 1 then (if mv < 40000 ∨ mv > 60000 then s.powerUpFail 0x20 else s)
  else if mv < 38000 ∧ s.pwrState = 2 then (s.orderlyStop 5).raise (srcOf 85 4) ⟨0, Master.sp.code, 0⟩
  else s

/-- The input has been outside 40–60 V for 1 ms. -/
def State.inputRange (s : State) : State :=
  if s.pwrState = 2 then (s.orderlyStop 4).raise (srcOf 85 3) ⟨0, Master.sp.code, 0⟩ else s

/-- Loss of the input (R517, R529): from stage 11 on the power-fail stop runs on the hold-up store; otherwise everything falls. -/
def State.inputLoss (s : State) : State :=
  if !s.pins.vstby then s
  else if s.pwrState = 3 then { s with pins := { s.pins with lost := true } }
  else if s.pwrState = 2 ∧ 11 ≤ s.stage ∧ s.stage ≤ 13 then
    let s := { s with pins := { s.pins with lost := true } }
    (s.orderlyStop 5).raise (srcOf 85 4) ⟨0, Master.sp.code, 0⟩
  else s.inputGone

/-! ### Bask (R500 to R502) -/

/-- Heating time goes on or stops. -/
def State.heatClock (s : State) (on : Bool) : State :=
  let sum := match s.pw.baskAt with | some t => s.pw.baskNs + (s.now - t) | none => s.pw.baskNs
  let s := s.setPw { s.pw with baskNs := sum, baskAt := if on then some s.now else none }
  s.setF F.PWR_BASK_ELAPSED_S (min 65535 (sum / 1000000000))

/-- PWR_BASK.STATE in stage 4 (R500): DONE ends the stage at once. -/
def State.baskEval (s : State) : State :=
  if s.stage ≠ 4 then s else
  let warm := fun (n : Nat) (t : Int) => s.hasReading n && decide (t ≤ s.reading n)
  let done := ((List.range 74).all fun n => warm n 100) && ((natRange 74 24).all fun n => warm n 0)
  let cold := (List.range 74).any fun n => s.hasReading n && decide (s.reading n < -100)
  if done then
    ((((s.heatClock false).setF F.PWR_BASK_STATE 3).capForce).lowerLevel (srcOf 84 6)).setStage 5
  else if cold then
    (((s.heatClock false).setF F.PWR_BASK_STATE 1).capForce).raiseLevel (srcOf 84 6) ⟨0, Master.sp.code, 0⟩
  else
    ((((s.heatClock true).setF F.PWR_BASK_STATE 2).capForce).lowerLevel (srcOf 84 6)).setPwrReq 850

/-- A check in cold hold, every 100 ms. -/
def State.coldCheck (s : State) : State := if s.f F.PWR_BASK_STATE = 1 then s.baskEval else s

/-- HEATING has run for TIMEOUT_S in total (R502). -/
def State.baskTimeout (s : State) : State :=
  if s.stage = 4 ∧ s.f F.PWR_BASK_STATE = 2 then ((s.heatClock false).raise (srcOf 84 7) ⟨0, Master.sp.code, 0⟩).bootFail 1 else s

/-! ### Sensors and thresholds (R491, R492, R496, R497, R499) -/

/-- The Tj of a rail: the highest reading among its die sensors. -/
def State.railTj (s : State) (r : Nat) : Int :=
  ((railSensors r).filter fun n => s.hasReading n).foldl (fun (a : Int) n => max a (s.reading n)) (-3276)

/-- A rail that stands as though at THROTTLE because a stack is HOT (R496): the stack's Flask and the field that faces it. -/
def State.stackHotRail (s : State) (r : Nat) : Bool :=
  (natRange (4 * (r % 4)) 4).any fun k => s.f F.FLK_MEM_STACK_STAT_STATE k == 3

/-- The thermal controller's throttle for 1 ms (R497). -/
def State.throttle (s : State) (r : Nat) : State :=
  if r < 8 ∧ (1000 ≤ s.railTj r ∨ s.stackHotRail r) then
    if s.f F.PWR_RAIL_THM_REQ_MV r ≤ 600 then
      (s.setPw { s.pw with hold := mset s.pw.hold r (min 64 (mgetD s.pw.hold r 0 + 1)) }).showHolds
    else (s.setPw { s.pw with thr := mset s.pw.thr r (s.stepDown r (s.f F.PWR_RAIL_THM_REQ_MV r)) }).thmReq r
  else s

/-- The recovery of a rail below 97 °C: holds first, then one step (R497). -/
def State.throttleBack (s : State) (r : Nat) : State :=
  if r < 8 ∧ s.railTj r < 970 ∧ !s.stackHotRail r then
    if mgetD s.pw.hold r 0 > 0 then (s.setPw { s.pw with hold := mdel s.pw.hold r }).showHolds
    else (s.setPw { s.pw with thr := mset s.pw.thr r (min 850 (mgetD s.pw.thr r 850 + 10)) }).thmReq r
  else s

/-- A rate-of-rise event on a die sensor (R499). -/
def State.rateEvent (s : State) (n : Nat) : State :=
  let s := (s.setF F.THM_STATUS_DTDT_SEEN 1).raise (srcOf 84 8) ⟨0, Master.sp.code, 0⟩
  if n ≥ 72 then s else
  let r := if n < 64 then n / 16 else 4 + (n - 64) / 2
  let low := s.stepDown r (s.f F.PWR_RAIL_THM_REQ_MV r)
  match mget s.pw.dtdt r with
  | none => (s.setPw { s.pw with dtdt := mset s.pw.dtdt r (low, false) }).thmReq r
  | some x => if x.2 then s else (s.setPw { s.pw with dtdt := mset s.pw.dtdt r (low, true) }).thmReq r

/-- The rate has stayed below the threshold for DTDT_HOLD_MS. -/
def State.rateHoldEnd (s : State) (r : Nat) : State := (s.setPw { s.pw with dtdt := mdel s.pw.dtdt r }).thmReq r

/-- A level condition with its status bit and source. -/
def State.condition (s : State) (x : Fld) (src : Nat) (on : Bool) : State :=
  let s := s.setF x (if on then 1 else 0)
  if on then s.raiseLevel src ⟨0, Master.sp.code, 0⟩ else s.lowerLevel src

/-- Bask has reached DONE in the present boot and the module is ON (R496). -/
def State.coldWatch (s : State) : Bool := s.pwrState == 2 && s.f F.PWR_BASK_STATE == 3

/-- The die thresholds of Table 18-4 after a sensor's reading went from `old` to its present one. -/
def State.dieThresholds (s : State) (n : Nat) (old : Option Int) : State :=
  let live := (List.range 74).filter fun k => s.hasReading k
  let t := s.reading n
  let top := live.foldl (fun (a : Int × Nat) k => if s.reading k > a.1 then (s.reading k, k) else a) (-3277, 0)
  let low := live.foldl (fun (a : Int) k => min a (s.reading k)) 3276
  let s := (s.setF F.THM_STATUS_TJ_MAX (ofSigned 16 top.1)).setF F.THM_STATUS_TJ_MIN (ofSigned 16 low)
  let s := s.setF F.THM_STATUS_HOT_SENSOR top.2
  let s := if 950 ≤ top.1 then s.condition F.THM_STATUS_WARN (srcOf 84 0) true
    else if top.1 < 920 then s.condition F.THM_STATUS_WARN (srcOf 84 0) false else s
  let hot := (List.range 9).filter fun r =>
    let tj := if r = 8 then max (s.reading 72) (s.reading 73) else s.railTj r
    decide (1000 ≤ tj) || (decide (r < 8) && s.stackHotRail r) || (s.pw.hot.contains r && decide (970 ≤ tj))
  let s := (s.setPw { s.pw with hot := hot }).condition F.THM_STATUS_THROTTLE (srcOf 84 1) (!hot.isEmpty)
  let crossedUp := fun (x : Int) => decide (x ≤ t) && (match old with | some o => decide (o < x) | none => true)
  let crossedDown := fun (x : Int) => decide (t ≤ x) && (match old with | some o => decide (x < o) | none => true)
  let s := if crossedUp 1050 then (s.raise (srcOf 84 2) ⟨0, Master.sp.code, 0⟩).orderlyStop 1 else s
  let s := if s.coldWatch ∧ low ≤ 0 then s.condition F.THM_STATUS_LOW_WARN (srcOf 84 4) true
    else if 30 < low ∨ !s.coldWatch then s.condition F.THM_STATUS_LOW_WARN (srcOf 84 4) false else s
  if s.coldWatch ∧ crossedDown (-100) then (s.raise (srcOf 84 5) ⟨0, Master.sp.code, 0⟩).orderlyStop 2 else s

/-- A die sensor fails (R492); it stays FAILED. -/
def State.sensorFail (s : State) (n : Nat) : State :=
  if s.f F.THM_SENS_FAILED n = 1 then s
  else (s.setF F.THM_SENS_FAILED 1 n).raise (srcOf 84 11) ⟨0, Master.sp.code, 0⟩

/-- Whether a die sensor's present reading makes it fail (R492). -/
def State.sensorBad (s : State) (n : Nat) : Bool :=
  let t := s.fS F.THM_SENS_TEMP n
  let peers := (sensorPeers n).filter fun k => s.f F.THM_SENS_FAILED k == 0 && s.f F.THM_SENS_TEMP k != 0x8000
  decide (t < -550) || decide (1500 < t) ||
  (decide (n < 64) && !peers.isEmpty && peers.all fun k => decide ((t - s.fS F.THM_SENS_TEMP k).natAbs > 200))

/-- A sensor's reading into its register. -/
def State.sensorStore (s : State) (n : Nat) (t : Int) : State :=
  let s := s.setF F.THM_SENS_TEMP (ofSigned 16 (satSigned 16 t)) n
  if s.f F.THM_SENS_MAX n = 0x8000 ∨ t > s.fS F.THM_SENS_MAX n then s.setF F.THM_SENS_MAX (ofSigned 16 (satSigned 16 t)) n else s

/-- A stack's case temperature (R238, R496): refresh rate, HOT and its end, and STACK_STOP. -/
def State.stackTemp (s : State) (k : Nat) (t : Int) : State :=
  let old := s.fS F.THM_SENS_TEMP (74 + k)
  let first := s.f F.THM_SENS_TEMP (74 + k) = 0x8000
  let s := (s.sensorStore (74 + k) t).setF F.FLK_MEM_STACK_STAT_CASE_C (ofSigned 8 (satSigned 8 (t / 10))) k
  let s := if t > 850 then s.setF F.FLK_MEM_STACK_STAT_REFRESH_2X 1 k
    else if t ≤ 820 then s.setF F.FLK_MEM_STACK_STAT_REFRESH_2X 0 k else s
  let st := s.f F.FLK_MEM_STACK_STAT_STATE k
  let s := if st = 2 ∧ 950 ≤ t then s.setF F.FLK_MEM_STACK_STAT_STATE 3 k
    else if st = 3 ∧ t ≤ 900 then (s.setF F.FLK_MEM_STACK_STAT_STATE 2 k).backOwed k else s
  let s := s.condition F.THM_STATUS_STACK_HOT (srcOf 84 9) ((List.range 16).any fun j => s.f F.FLK_MEM_STACK_STAT_STATE j == 3)
  if 1000 ≤ t ∧ (first ∨ old < 1000) then (s.raise (srcOf 84 10) ⟨0, Master.sp.code, 0⟩).orderlyStop 3 else s

/-- A die sensor's update (R491, R492): its rate over the last 100 µs, failure, thresholds, a rate event, bask. -/
def State.dieUpdate (s : State) (n : Nat) (t : Int) : State :=
  let old := if s.hasReading n then some (s.reading n) else none
  let h := mgetD s.pw.hist n []
  let rate : Int := if h.length ≥ 10 then 10 * (t - h.headD t) else 0
  let was := s.fS F.THM_SENS_RATE n
  let h := if h.length ≥ 10 then h.drop 1 ++ [t] else h ++ [t]
  let s := (s.sensorStore n t).setPw { s.pw with hist := mset s.pw.hist n h }
  let s := s.setF F.THM_SENS_RATE (ofSigned 16 (satSigned 16 rate)) n
  let s := if s.sensorBad n then s.sensorFail n else s
  let s := s.dieThresholds n old
  let lim : Int := 10 * s.f F.THM_CTRL_DTDT_C_MS
  let s := if lim ≤ rate ∧ was < lim then s.rateEvent n else s
  let s := if n < 64 then s.baskAdd (n / 16) else if n < 72 then s.baskAdd (4 + (n - 64) / 2) else s
  s.baskEval

/-- An update of any sensor of Table 18-3; `part` names one of the four sensors of a light engine. -/
def State.sensorUpdate (s : State) (n part : Nat) (t : Int) : State :=
  if n < 74 then s.dieUpdate n t
  else if n < 90 then (s.stackTemp (n - 74) t).baskEval
  else if n < 98 then
    let z := s.leSensor (n - 90) part t
    ((z.1.sensorStore n z.2).leTemp (n - 90) (z.2 / 10)).baskEval
  else if n = 98 then
    let out := if t < 50 ∨ 450 < t then true else false
    (s.sensorStore n t).condition F.THM_STATUS_INLET_OUT (srcOf 84 12) out
  else s.sensorStore n t

/-- A die sensor has not updated for 1 ms (R492). -/
def State.sensorStale (s : State) (n : Nat) : State :=
  if n < 74 then (s.sensorFail n).dieThresholds n (some (s.reading n)) else s

/-! ### RESET_N and the reference (R514, R518) -/

def State.resetNLow (s : State) : State := { s with pins := { s.pins with resetN := false } }.moduleReset 1

def State.resetNHigh (s : State) : State := { s with pins := { s.pins with resetN := true } }

end Sys2Proof.Machine
end

