-- ==== Sys2Proof/Machine/Boot.lean ====
section
/-! DEFINITION. The boot (R397 to R400): what ends each stage of Table 14-6, with the bring-up of links, stacks, wings and margin
domains (R263 to R265, R226, R227, R120, R51), the keel watchdog, life-cycle changes (R432, R435) and the reference (R518). -/

namespace Sys2Proof.Machine

/-- A stage fails with a cause that the owning chapter does not state: a free value. -/
def State.bootFailFree (s : State) : State := let z := s.draw; z.2.bootFail (z.1 % 256)

/-! ### Stages 1 to 3 -/

/-- The end of stage 1 (R425, Table 15-8). In BLANK the ROM runs its factory test alone (R431). -/
def State.bootRom (s : State) (fusesOk : Bool) : State :=
  if s.lcs = 0 then s
  else if !fusesOk ∨ 5 < s.lcs then s.bootFail 2
  else if s.fuses.revoked % 16 = 15 then s.bootFail 3
  else
    let k := s.activeSlot 0
    let z := s.bootImage 0
    match z.1 with
    | none => z.2.bootFail 1
    | some o =>
      let s := z.2
      let slot := if s.boot.trial.contains 0 then 1 - k else k
      let s := s.setSec { s.sec with keelSlot := if s.slotObj 0 slot = some o then slot else k }
      let s : State := foldS (List.range 4) (fun c s => s.imgStat c) s.rootStat
      let s := if s.lcs = 1 then (s.setF F.SEC_LCS_DEBUG 3).setF F.SEC_LCS_DEBUG_SEEN 3 else s
      s.newChallenge.setStage 2

/-- The end of stage 2: the Crucible fuse map (R11). The boot waits while RESET_N is low (R514); a scrapped module boots its
keel alone (R431). -/
def State.bootFuse (s : State) : State :=
  if !s.pins.resetN ∨ s.lcs = 5 then s else
  (((s.setF F.CRU_BOOT_FUSE_CRU 1).loadFuses fun k => k.name.fuseMap == 0).fuseStat.rootStat).setStage 3

/-- The end of stage 3 (R263 step 1, R11): Crucible links up, fuse maps loaded; the engines start (R297) when a light-engine
controller image verifies (R425), and bask begins. A slice that cannot be repaired stays inactive and fails the boot. -/
def State.bootLinks (s : State) (spares : List Nat) (bad : List (Nat × Nat)) : State :=
  let s : State := { s with d2d := { s.d2d with off := bad.map fun p => (4 + p.1, p.2) } }
  let s : State := foldS (List.range 5) (fun l s => (s.setF F.CRU_D2D_STAT_SPARES_USED (spares.getD l 0) l).countCru (4 + l)) s
  if bad ≠ [] then s.bootFailFree else
  let s := (s.setF F.CRU_BOOT_FUSE_DONE 1).loadFuses (fun k => k.name.fuseMap == 1) (!s.engFused.contains 8)
  let s := if s.engFused.contains 8 then s else { s with engFused := 8 :: s.engFused }
  let z := s.bootImage 3
  let s := { z.2 with boot := { z.2.boot with lecBad := z.1.isNone } }
  let s : State := foldS (List.range 8) (fun e s => s.engineStart e) s
  (s.setStage 4).baskEval

/-! ### Stage 5 (R263 to R265) -/

/-- One edge comes up; the result says whether the boot may go on. -/
def State.bootEdge (s : State) (f : Nat) (e : EdgeWork) : State × Bool :=
  let wire := s.f F.FLK_D2D_CTRL_MODE_REQ f == 1
  let s := s.edgeTrained f e (!wire && e.trained) fun _ => true
  if s.fewSlices f then (s.setF F.FLK_D2D_STATUS_TRAIN_FAIL (if wire ∨ e.trained then 0 else 1) f, false)
  else if wire then (s.setF F.FLK_D2D_STATUS_MODE 1 f, true)
  else if e.trained then (s.setF F.FLK_D2D_STATUS_MODE 2 f, true)
  else if s.f F.FLK_D2D_CTRL_AUTO_FALLBACK f = 1 then (s.trainFailed f, true)
  else (s.setF F.FLK_D2D_STATUS_TRAIN_FAIL 1 f, false)

/-- The end of stage 5. -/
def State.bootEdges (s : State) (es : List EdgeWork) : State :=
  let z := foldS (List.range 4) (fun f (z : State × Bool) =>
    let y := z.1.bootEdge f (es.getD f { trained := false })
    (y.1, z.2 && y.2)) (s, true)
  if z.2 then z.1.setStage 6 else z.1.bootFailFree

/-! ### Stage 6 (R226, R227, R426) -/

/-- The identities on a qualification list: maker, part, revision. -/
def qualList (p : List Byte) : List (Nat × Nat × Nat) :=
  (List.range (min (leNat (cut p 0 4)) (p.length / 8))).map fun i =>
    (leNat (cut p (4 + 8 * i) 2), leNat (cut p (6 + 8 * i) 4), leNat (cut p (10 + 8 * i) 1))

/-- A stack admitted: zeroed with valid check bits, READY. -/
def State.admitStack (s : State) (k : Nat) : State :=
  let lo := k * stackSize
  let s := { s with mem := cellsZero s.mem lo stackSize
                    poison := s.poison.filter fun x => !(decide (lo ≤ x) && decide (x < lo + stackSize))
                    latent := s.latent.filter fun e => !(decide (lo ≤ e.1) && decide (e.1 < lo + stackSize)) }
  let s := s.setF F.FLK_MEM_QUAL_PASS (s.f F.FLK_MEM_QUAL_PASS (k / 4) ||| 2 ^ (k % 4)) (k / 4)
  s.setF F.FLK_MEM_STACK_STAT_STATE 2 k

/-- Stage 6 ends once every stack is admitted. -/
def State.memoryNext (s : State) : State :=
  if (List.range 4).all fun f => s.f F.FLK_MEM_QUAL_PASS f == 15 then s.setStage 7 else s

/-- The stacks' bring-up: cases at 0 °C or above, the list, training at the Flask's RATE, which is in force from here on, zeros. A list that fails verification lists no stack, and
a stack of another height or density neither is listed nor trains. The bring-up runs once: after a failure the firmware waits,
and nothing but OVERRIDE changes what it found (R227). -/
def State.bootMemory (s : State) (ks : List StackWork) : State :=
  if (List.range 4).any fun f => s.f F.FLK_MEM_QUAL_FAIL_ID f != 0 || s.f F.FLK_MEM_QUAL_FAIL_TRAIN f != 0 then s else
  let z := s.bootImage 2
  let s := z.2
  let list := match z.1 with | some o => qualList (objPayload o) | none => []
  let s : State := foldS (List.range 16) (fun k s =>
    if s.f F.FLK_MEM_QUAL_PASS (k / 4) / 2 ^ (k % 4) % 2 = 1 then s else
    let f := k / 4
    let x := ks.getD k { maker := 0, part := 0, rev := 0, sized := false }
    let s := s.setF F.FLK_MEM_STACK_STAT_STATE 1 k
    let s := s.setF F.FLK_MEM_STACK_STAT_LANES_REPAIRED x.lanes k
    let listed := x.sized && list.contains (x.maker, x.part, x.rev)
    let s := if listed then s else s.setF F.FLK_MEM_QUAL_FAIL_ID (s.f F.FLK_MEM_QUAL_FAIL_ID f ||| 2 ^ (k % 4)) f
    let s := if x.trained && x.sized then s
      else s.setF F.FLK_MEM_QUAL_FAIL_TRAIN (s.f F.FLK_MEM_QUAL_FAIL_TRAIN f ||| 2 ^ (k % 4)) f
    if listed && x.trained then s.admitStack k
    else if x.trained && x.sized then s
    else s.setF F.FLK_MEM_STACK_STAT_STATE 0 k) s
  let s : State := foldS (List.range 4) (fun f s =>
    let s := if z.1.isNone then s.setF F.FLK_MEM_QUAL_LIST_BAD 1 f else s
    if s.f F.FLK_MEM_QUAL_PASS f = 15 then s
    else s.raiseLevel (srcOf (66 + f) 8) ⟨0, (Master.mk 2 f).code, 0⟩) s
  let rates := (List.range 4).map fun f => (f, s.f F.FLK_MEM_CTRL_RATE f)
  { s with ms := { s.ms with ladle := [], rates := rates } }.memoryNext

/-- A write of 1 to OVERRIDE (R227). -/
def State.qualOverride (s : State) (f : Nat) (m : Master) : State :=
  if s.lcs ≠ 1 ∧ s.lcs ≠ 4 then
    (if s.f F.FLK_MEM_QUAL_OVERRIDE f = 1 then s else s.lcViolation (RegKey.addr ⟨.FLK_MEM_QUAL, f, 0⟩) m)
  else
    let s := s.setF F.FLK_MEM_QUAL_OVERRIDE 1 f
    let ids := s.f F.FLK_MEM_QUAL_FAIL_ID f
    if s.stage ≠ 6 ∨ s.f F.EYE_SRC_STAT_ASSERTED (srcOf (66 + f) 8) = 0 then s else
    let s : State := foldS (List.range 4) (fun i s =>
      if ids / 2 ^ i % 2 = 1 ∧ s.f F.FLK_MEM_QUAL_FAIL_TRAIN f / 2 ^ i % 2 = 0 then s.admitStack (4 * f + i) else s) s
    if s.f F.FLK_MEM_QUAL_PASS f = 15 then (s.lowerLevel (srcOf (66 + f) 8)).memoryNext else s

/-! ### Stage 7 (R118, R120) -/

def slotFld (k : Nat) : Fld := [F.WNG_ARR_MAP_SLOT0, F.WNG_ARR_MAP_SLOT1, F.WNG_ARR_MAP_SLOT2, F.WNG_ARR_MAP_SLOT3].getD k F.WNG_ARR_MAP_SLOT0
def softFld (k : Nat) : Fld := [F.WNG_ARR_SOFT_SOFT0, F.WNG_ARR_SOFT_SOFT1, F.WNG_ARR_SOFT_SOFT2, F.WNG_ARR_SOFT_SOFT3].getD k F.WNG_ARR_SOFT_SOFT0

/-- The soft entries of an array, and its map slots that the fuses leave unused. -/
def State.softList (s : State) (w a : Nat) : List Nat := ((List.range 4).map fun k => s.f (softFld k) w a).filter (· != 0xFF)
def State.freeSlots (s : State) (w a : Nat) : List Nat :=
  (List.range 4).filter fun k => s.f (slotFld k) w a == 0xFF || s.f F.WNG_ARR_MAP_SOFT_SRC w a / 2 ^ k % 2 == 1

/-- The hardware applies soft entries to the unused slots, in order; entries beyond them are ignored (Table 4-15). -/
def State.applySoft (s : State) (w a : Nat) : State :=
  foldS ((s.freeSlots w a).zipIdx) (fun (x : Nat × Nat) (s : State) =>
    let v := (s.softList w a).getD x.2 0xFF
    let src := s.f F.WNG_ARR_MAP_SOFT_SRC w a
    let bit := src / 2 ^ x.1 % 2
    let s := s.setF (slotFld x.1) v w a
    s.setF F.WNG_ARR_MAP_SOFT_SRC (if v = 0xFF then src - bit * 2 ^ x.1 else src ||| 2 ^ x.1) w a) s

/-- The position of a field that its sixteen wings do not use. -/
def State.sparePos (s : State) (w : Nat) : Nat :=
  let used := (natRange (w / 16 * 16) 16).map fun k => s.f F.WNG_ID_PHYS k
  ((List.range 17).find? fun p => !used.contains p).getD 16

/-- A field's spare position is in use. -/
def State.spareUsed (s : State) (w : Nat) : Bool := (natRange (w / 16 * 16) 16).any fun k => s.f F.WNG_ID_SPARE_USED k == 1

/-- The logical wing moves to its field's spare position. -/
def State.swapWing (s : State) (w : Nat) : State :=
  if s.spareUsed w then s else
  let p := s.sparePos w
  ((s.setF F.WNG_ID_SOFT_SWAP 1 w).setF F.WNG_ID_SPARE_USED 1 w).setF F.WNG_ID_PHYS p w

/-- Failing positions of an array outside its map, and whether a map can leave them all out. -/
def State.fits (s : State) (w a : Nat) (r : BistResult) : Bool :=
  !r.tbFail && decide ((s.softList w a).length + r.fails.length ≤ (s.freeSlots w a).length)

/-- The repair of one wing (R120). -/
def State.repairWing (s : State) (w : Nat) (x : WingWork) : State :=
  let r := fun (a : Nat) => x.results.getD a ⟨[], true⟩
  let s : State := foldS (List.range 4) (fun a s => s.bistReport w a (r a)) s
  let clean := (List.range 4).all fun a => bistPass (r a)
  let back := fun (s : State) => { s with boot := { s.boot with wingsOut := mdel s.boot.wingsOut w } }
  if !clean ∧ (List.range 4).all (fun a => s.fits w a (r a)) then
    let s : State := foldS (List.range 4) (fun a (s : State) =>
      let l := s.softList w a ++ (r a).fails
      let s : State := foldS (List.range 4) (fun k (s : State) => s.setF (softFld k) (l.getD k 0xFF) w a) s
      s.applySoft w a) s
    back s
  else if clean ∧ s.f F.WNG_ID_FENCES w < 2 then back s
  else if !s.spareUsed w ∧ x.spareOk then back (s.swapWing w)
  else
    let s := (s.setWingState w 5).setF F.WNG_STATUS_OUT_CAUSE 5 w
    { s with boot := { s.boot with wingsOut := mset s.boot.wingsOut w 5 } }

/-- Stage 7: soft entries and swaps of the store and of the registers are applied, wings recorded out of service repaired, and
the store takes what now holds. -/
def State.bootWings (s : State) (ws : List WingWork) : State :=
  let power := s.f F.CRU_BOOT_POWER_ON == 1
  let s : State := if !power then s else
    let s : State := foldS s.boot.softNv (fun e (s : State) => s.wr .WNG_ARR_SOFT (BitVec.ofNat 64 e.2) e.1.1 e.1.2) s
    foldS s.boot.swapNv (fun w (s : State) => s.setF F.WNG_ID_SOFT_SWAP 1 w) s
  let s : State := foldS (List.range 64) (fun w (s : State) =>
    let s := if s.f F.WNG_ID_SOFT_SWAP w = 1 then s.swapWing w else s
    foldS (List.range 4) (fun a (s : State) => s.applySoft w a) s) s
  let out := s.boot.wingsOut.map Prod.fst
  let s : State := foldS out (fun w (s : State) =>
    s.repairWing w ((ws.find? fun x => x.w == w).getD { w := w, results := [], spareOk := false })) s
  let soft := (List.range 256).filterMap fun i =>
    let v := (s.rd .WNG_ARR_SOFT (i / 4) (i % 4)).toNat
    if (s.softList (i / 4) (i % 4)).isEmpty then none else some ((i / 4, i % 4), v)
  let swap := (List.range 64).filter fun w => s.f F.WNG_ID_SPARE_USED w == 1
  { s with boot := { s.boot with softNv := soft, swapNv := swap } }.setStage 8

/-! ### Stages 8 to 13 -/

/-- One domain of the full pass (R51, R54): slope and erosion fitted, the plan set or the domain exhausted, the wear log. -/
def State.fullDomain (s : State) (d : Nat) (x : DomWork) : State :=
  let s := (s.setF F.MGN_DOM_SLACK_SLOPE (ofSigned 8 (satSigned 8 x.slope)) d).setF F.MGN_DOM_SLACK_EROSION (min x.erosion 255) d
  let s := s.setDom d { s.dom d with bask := 0 }
  let s := s.setSlack d x.slack
  let old := s.f F.MGN_DOM_TAP_PLANNED d
  let c := max (s.planCode d x.slack) (max (s.f F.MGN_DOM_TAP_FACTORY d : Int) ((old : Int) - s.f F.MGN_CTRL_NARROW_LIMIT))
  if c > 63 then (s.wearLog d 0 old old x.slack x.erosion).exhaust d
  else
    let s := (s.setF F.MGN_DOM_TAP_PLANNED c.toNat d).setTap d c.toNat
    (s.reserveUsed d).wearLog d 0 old c.toNat x.slack x.erosion

/-- Stage 8: the full temper pass, and the floors of R46. It examines all 408 domains: what brings fewer does not end it. -/
def State.bootTemper (s : State) (ds : List DomWork) : State :=
  if ds.length < 408 then s else
  let s : State := foldS ((ds.take 408).zipIdx) (fun (x : DomWork × Nat) (s : State) => s.fullDomain x.2 x.1) s
  (foldS (List.range 8) (fun r (s : State) => s.recomputeFloor r) s).setStage 9

/-- Stage 9: every tile store zeroed (R145). -/
def State.bootZero (s : State) : State :=
  let hi := tileBase + 64 * tileStride
  { s with mem := cellsZero s.mem tileBase (64 * tileStride)
           poison := s.poison.filter fun x => !(decide (tileBase ≤ x) && decide (x < hi))
           latent := s.latent.filter fun e => !(decide (tileBase ≤ e.1) && decide (e.1 < hi)) }.setStage 10

/-- Whether a boot image's header stays clear of the Crucible reserved region and within local HBM (R400). -/
def bootPlaceOk (p : List Byte) : Bool :=
  let x := nats p
  let load := Config.bootLoad x
  let entry := Config.bootEntry x
  let base := Config.bootBase x
  let size := Config.bootSize x
  decide (0x10000000 ≤ load) && decide (load + p.length ≤ hbmEnd) && decide (0x10000000 ≤ entry) && decide (entry < hbmEnd) &&
  decide (size ≤ 16) && (size == 0 || (decide (0x10000000 ≤ base * 0x40000000) && decide ((base + size) * 0x40000000 ≤ hbmEnd)))

/-- Stage 10 (R400): the boot image verified and copied, TRY_WIN written. Stage 11 waits for the hold-up store (R517). -/
def State.bootCopy (s : State) (charged : Bool) : State :=
  if !charged then s else
  let z := s.bootImage 1
  match z.1 with
  | none => z.2.bootFail 10
  | some o =>
    let p := objPayload o
    if !bootPlaceOk p then z.2.bootFail 10
    else
      let s := z.2.store (Config.bootLoad (nats p)) p
      let s := (s.setF F.TRY_WIN_BASE_G (Config.bootBase (nats p))).setF F.TRY_WIN_SIZE_G (Config.bootSize (nats p))
      { s with boot := { s.boot with entry := Config.bootEntry (nats p) } }.setStage 11

/-- Stage 11: dispatch enabled, wings from OFFLINE to READY (R114). -/
def State.bootDispatch (s : State) : State :=
  let s := s.setF F.QE_CTRL_DISPATCH_EN 1
  let s : State := foldS (List.range 64) (fun w (s : State) => if s.wingState w = 0 then s.setWingState w 2 else s) s
  s.setStage 12

/-- Stage 12: hart 0 released; stage 13 makes the tried images active and burns the counters (R422, R424). -/
def State.bootRelease (s : State) : State :=
  ({ s with boot := { s.boot with harts := [0] } }.setStage 13).bootReached

/-- The end of a stage's work. Work of another stage than the running one, and any work in another power state than ON, has no
effect. -/
def State.bootAdvance (s : State) (x : BootWork) : State :=
  if s.pwrState ≠ 2 then s else
  let at_ := fun (n : Nat) (t : State) => if s.stage = n then t else s
  match x with
  | .rom ok => at_ 1 (s.bootRom ok)
  | .fuse => at_ 2 s.bootFuse
  | .links sp bad => at_ 3 (s.bootLinks sp bad)
  | .edges es => at_ 5 (s.bootEdges es)
  | .memory ks => at_ 6 (if (List.range 16).all fun k => decide (0 ≤ s.fS F.THM_SENS_TEMP (74 + k)) then s.bootMemory ks else s)
  | .wings ws => at_ 7 (s.bootWings ws)
  | .temper ds => at_ 8 (s.bootTemper ds)
  | .zero => at_ 9 s.bootZero
  | .image ch => at_ 10 (s.bootCopy ch)
  | .dispatch => at_ 11 s.bootDispatch
  | .release => at_ 12 s.bootRelease
  | .fail => if 1 ≤ s.stage ∧ s.stage ≤ 12 ∧ s.lcs ≠ 0 then s.bootFailFree else s

/-! ### Keel watchdog (R455, R424) -/

/-- 200 ms without a kick: source 83/8; a pending keel that has not reached stage 13 falls back through the ROM. -/
def State.keelExpire (s : State) : State :=
  if s.stage < 2 then s else
  let s := (s.raiseLevel (srcOf 83 8) ⟨0, Master.sp.code, 0⟩).refreshPins
  if s.boot.trial.contains 0 ∧ s.stage ≤ 12 then s.trialFails.setStage 1 else s

/-! ### Life cycle (R432, R435) -/

/-- A state change: event, marker, zeroisation, fuses, marker cleared, and a power-on sequence. -/
def State.lifeChange (s : State) (target : Nat) : State :=
  let s := (s.setF F.SEC_LCS_ZEROISING 1).raise (srcOf 82 4) ⟨0, Master.sp.code, 0⟩
  let s := (s.setSec { s.sec with marker := some target }).zeroise target
  let s := s.burn target
  (s.setSec { s.sec with marker := none }).resetPowerOn s.pins.straps

/-- The factory test program (R432): device certificate and images stored, BLANK becomes MAKER. -/
def State.factory (s : State) (cert : Bool) (images : List (Nat × List Byte)) : State :=
  if s.lcs ≠ 0 then s else
  let slots := images.foldl (fun (l : List ((Nat × Nat) × List Byte)) e => if e.1 ≤ 3 then mset l (e.1, 0) e.2 else l) s.sec.slots
  (s.setSec { s.sec with slots := slots, deviceCert := s.sec.deviceCert || cert }).lifeChange 1

/-! ### The reference clock (R518) -/

/-- Loss of the reference: stack PHYs, edges in forwarded-clock mode, the time base. -/
def State.refclkLoss (s : State) : State :=
  if !s.pins.refclk then s else
  let s := { s with pins := { s.pins with refclk := false } }
  if s.pwrState ≠ 2 ∧ s.pwrState ≠ 3 then s.setF F.CRU_TIME_STAT_STATE 0 else
  let s : State := foldS (List.range 16) (fun k (s : State) =>
    let st := s.f F.FLK_MEM_STACK_STAT_STATE k
    if st = 2 ∨ st = 3 then s.stackRetrain k else s) s
  let s : State := foldS (List.range 4) (fun f (s : State) => s.lockLoss f) s
  s.setF F.CRU_TIME_STAT_STATE 0

def State.refclkReturn (s : State) : State := { s with pins := { s.pins with refclk := true } }

end Sys2Proof.Machine
end

