-- ==== Sys2Proof/Machine/Units.lean ====
section
/-! DEFINITION. The dispatch of every opcode (R190 to R195), the units' starts (R196, R197), aborts (R213, R214), drains (R215,
R216), doorbells and queue control (R188, R211, R224), and wings taken out and restored (R115, R215). -/

namespace Sys2Proof.Machine

/-! ### Parameter blocks of this chapter and of the memory system -/

/-- LADLE_OP's fields (Table 8-4) clamped by Table 8-5: operation, hint, address, length; with the offsets clamped. -/
def ladleArgs (p : List Nat) : (Nat × Nat × Nat × Nat) × List Nat :=
  let op := bitsAt (p.getD 2 0) 0 3
  let hint := bitsAt (p.getD 2 0) 4 2
  let a := bitsAt (p.getD 3 0) 0 48
  let n := bitsAt (p.getD 4 0) 0 40
  let bad := n = 0 ∨ n % 128 ≠ 0
  ((op, hint, a, if n = 0 then 128 else (n + 127) / 128 * 128), if bad then [0x20] else [])

/-- Table 8-5. -/
def State.ladleRefuse (s : State) (op a n : Nat) : Option Refuse :=
  if 5 ≤ op then some ⟨0x14, 1, 0x10, 0xFF⟩
  else if a % 128 ≠ 0 then some ⟨0x12, 2, 0x18, 0xFF⟩
  else if !s.inHbm a n then some ⟨0x12, 3, 0x18, 0xFF⟩ else none

/-- The mode of a TURN, its destination slot (Table 8-8). -/
def turnMode (p : List Nat) : Nat := bitsAt (p.getD 2 0) 52 2
def turnSlot (p : List Nat) : Nat := bitsAt (p.getD 5 0) 0 6
def turnFlask (p : List Nat) : Nat := flaskOf (bitsAt (p.getD 2 0) 0 48) % 4

/-- Table 8-10. -/
def State.turnRefuse (s : State) (p : List Nat) (j : TurnJob) : Option Refuse :=
  let ok := match Fmt.ofCode j.fmt with | some f => f.isWeight | none => false
  let apart := decide (j.src + j.srcLen ≤ j.dst) || decide (j.dst + j.outLen ≤ j.src)
  if turnMode p = 3 then some ⟨0x14, 1, 0x16, 0xFF⟩
  else if !ok then some ⟨0x13, 2, 0x16, 0xFF⟩
  else if j.src % 64 ≠ 0 ∨ !s.inHbm j.src j.srcLen ∨ !inOneFlask j.src j.srcLen then some ⟨0x12, 3, 0x10, 0xFF⟩
  else if turnMode p = 0 ∧ (j.dst % 64 ≠ 0 ∨ !s.inHbm j.dst j.outLen ∨ !inOneFlask j.dst j.outLen ∨ flaskOf j.dst ≠ flaskOf j.src ∨ !apart)
  then some ⟨0x12, 4, 0x20, 0xFF⟩ else none

/-! ### What a unit does once a command's commit may start (R196, R197) -/

/-- Whether the stacks of a range serve reads and write-backs now (R238, R243). -/
def State.rangeServes (s : State) (a n : Nat) : Bool :=
  (natRange (stackOf a) (stackOf (a + (n - 1)) - stackOf a + 1)).all fun k => s.stackServes k

def State.endCmd (s : State) (c : Cmd) (status : Nat) : State :=
  s.modCmd c.q c.seq fun c => { c with status := status, execDone := true, committed := true }

/-- LADLE_OP (R235). -/
def State.ladleRun (s : State) (c : Cmd) : State :=
  let x := (ladleArgs c.pkt).1
  if (x.1 ≤ 1 ∨ x.1 = 3) ∧ !s.rangeServes x.2.2.1 x.2.2.2 then s
  else
    let z := s.claimIf (x.1 = 4) x.2.2.1 x.2.2.2 none
    if !z.2 then z.1 else (z.1.ladleOp x.1 x.2.1 x.2.2.1 x.2.2.2).endCmd c 0

/-- TURN (R245, R248, R252). A mode 1 or 2 TURN waits while an instance is open on its slot; a mode 0 job while the engine has
sixteen in service, and is in service from the start of its writes until it retires. -/
def State.turnRun (s : State) (c : Cmd) : State :=
  let j := (turnClamp c.pkt).1
  let f := turnFlask c.pkt
  let k := turnSlot c.pkt
  let mode := turnMode c.pkt
  if mode = 0 then
    if s.f F.FLK_TRN_STATUS_ACTIVE f ≥ 16 then s else
    let z := s.claim j.dst j.outLen none
    if !z.2 then z.1
    else
      let s := z.1.modCmd c.q c.seq fun c => { c with committed := true }
      { s with ms := { s.ms with jobs := s.ms.jobs ++ [(f, c.q, c.seq, j)] } }.turnCount f
  else if s.f F.FLK_TRN_SLOT_BUSY f k = 1 then s
  else if mode = 1 then
    let s := { s with ms := { s.ms with slots := mset s.ms.slots (64 * f + k) j } }
    ((s.setF F.FLK_TRN_SLOT_ARMED 1 f k).setF F.FLK_TRN_SLOT_LENGTH j.outLen f k).endCmd c 0
  else
    let s := { s with ms := { s.ms with slots := mdel s.ms.slots (64 * f + k) } }
    ((s.setF F.FLK_TRN_SLOT_ARMED 0 f k).setF F.FLK_TRN_SLOT_LENGTH 0 f k).endCmd c 0

def State.turnJob (s : State) (q n : Nat) : Option (Nat × Nat × Nat × TurnJob) := s.ms.jobs.find? fun x => x.2.1 == q && x.2.2.1 == n

/-- A MODE 0 job leaves service. -/
def State.turnDrop (s : State) (x : Nat × Nat × Nat × TurnJob) : State :=
  { s with ms := { s.ms with jobs := s.ms.jobs.erase x } }.turnCount x.1

/-- A MODE 0 job reads its source and writes its output, where the ladle serves it and its domain is not held (R42, R245, R252, R253). -/
def State.turnFinish (s : State) (q n : Nat) : State :=
  match s.turnJob q n, s.cmd q n with
  | some x, some c =>
    let j := x.2.2.2
    if s.held (404 + x.1) ∨ !s.turnNow j ∨ !s.writeNow j.dst j.outLen then s else
    let s := (s.turnDrop x).turnRead j x.1
    let o := j.output s.mem s.poison
    let s := s.store j.dst o.1
    let s : State := foldS o.2 (fun off s => s.poisonAt (j.dst + off)) s
    s.endCmd c (if o.2.isEmpty then 0 else 0x20)
  | _, _ => s

/-- A MODE 0 job is stopped: its destination is undefined (Table 8-11). -/
def State.turnStop (s : State) (q n : Nat) : State :=
  match s.turnJob q n with
  | some x => (s.turnDrop x).scrambleRange x.2.2.2.dst x.2.2.2.outLen
  | none => s

/-- The start of a command at its unit: nothing where it has begun, has ended, or may not commit yet. A copy engine runs eight
copies (R352), a collective engine sixteen instances, one of a group (R361), the resilience engine one job. -/
def State.unitStart (s : State) (q n : Nat) : State :=
  match s.cmd q n with
  | none => s
  | some c =>
    if c.execDone ∨ c.committed ∨ c.retired ∨ c.wing.isSome ∨ !s.commitReady q n then s
    else if c.op = 0x08 then
      let f := s.copyFlask (copyArgs c.pkt).1.src
      if (s.tray.copies.filter fun j => j.f == f).length ≥ 8 then s else s.copyRun c
    else if c.op = 0x10 then s.turnRun c
    else if c.op = 0x11 then s.ladleRun c
    else if c.op = 0x18 ∨ c.op = 0x28 then
      match s.coll.insts.find? fun x => x.q == q && x.seq == n with
      | some x =>
        let busy := (s.coll.insts.filter fun y => y.begun && y.g % 4 == x.g % 4).length
        if s.instOf x.g = some x ∧ !x.begun ∧ busy < 16 then s.colBegin x else s
      | none => s
    else if c.op = 0x29 then
      match s.res.jobs.head? with
      | some j => if j.q = q ∧ j.seq = n ∧ !j.begun then s.jobBegin j else s
      | none => s
    else s

/-- Every command that waits for its start is looked at once, oldest first. -/
def State.unitsStart (s : State) : State :=
  foldS (s.qe.cmds.filter fun c => !c.execDone && !c.committed && !c.retired && c.wing.isNone) (fun c s => s.unitStart c.q c.seq) s

/-! ### Retire, and what follows it -/

/-- The retire stage of any command; a STEP_COMMIT acts on its outcome there (R474). -/
def State.retireCmd (s : State) (q n : Nat) : State :=
  let was := (s.cmd q n).any fun c => c.retired
  let s := (s.turnFinish q n).retire q n
  match s.cmd q n with
  | some c => if c.retired ∧ !was ∧ c.op = 0x28 then s.commitOutcome c else s
  | none => s

/-! ### ABORT (R213, R214) -/

/-- Stopping a dispatched command that has not retired. -/
def State.abortCmd (s : State) (c : Cmd) : State :=
  if c.retired then s else
  match c.wing with
  | some w => (s.finishCmd c 2 0).stopOnWing w c.q c.seq
  | none =>
    let s := s.setTray { s.tray with copies := s.tray.copies.filter fun j => !(j.q == c.q && j.seq == c.seq) }
    let s := s.turnStop c.q c.seq
    let s := s.setFences (s.fab.fences.filter fun j => !(j.q == c.q && j.seq == c.seq))
    let s := if s.res.jobs.any fun j => j.q == c.q && j.seq == c.seq then
        s.putJobs (s.res.jobs.filter fun j => !(j.q == c.q && j.seq == c.seq)) else s
    let s := match s.coll.insts.find? fun (x : ColInst) => x.q == c.q && x.seq == c.seq with
      | some x => s.colStop x 2
      | none => s
    let s := s.finishCmd c 2 0
    if c.op = 0x28 then s.commitOutcome { c with status := 2 } else s

/-- A posted command that ends without dispatch: ABORTED or DRAINED. -/
def State.endPosted (s : State) (q n status : Nat) : State :=
  let c : Cmd := { q := q, seq := n, pkt := s.readPkt q n, status := status, execDone := true, noOutputs := true, dispatched := false
                   retired := true, time := s.now }
  (s.taintCmd q status).putCmd c

/-- HEAD passes commands that ended without dispatch; a COLLECTIVE or STEP_COMMIT among them takes its instance (R368). -/
def State.passHead (s : State) (q : Nat) : Nat → State
  | 0 => s
  | k + 1 =>
    let h := s.f F.QE_Q_HEAD_HEAD q
    match s.cmd q h with
    | some c =>
      if h < s.f F.QE_Q_TAIL_TAIL q ∧ c.retired then
        let s := if c.op = 0x18 ∨ c.op = 0x28 then s.colSkip c else s
        (s.setF F.QE_Q_HEAD_HEAD (h + 1) q).passHead q k
      else s
    | none => s

/-- The outcome of ABORT by the state of its target (Table 7-8). -/
def State.abortRun (s : State) (c : Cmd) : State :=
  let tq := bitsAt (c.pkt.getD 2 0) 0 16
  let ts := c.pkt.getD 3 0
  if tq ≥ 256 then s.refuseCmd c ⟨0x11, 0, 0x10, 0xFF⟩
  else if ts ≥ s.f F.QE_Q_TAIL_TAIL tq ∨ (tq = c.q ∧ ts = c.seq) then s.refuseCmd c ⟨0x14, 0, 0x18, 0xFF⟩
  else
    match s.cmd tq ts with
    | some t =>
      if t.retired then s.putCmd { c with status := 3, detail := t.status, execDone := true, noOutputs := true }
      else (s.abortCmd t).modCmd c.q c.seq fun c => { c with execDone := true, noOutputs := true, detail := 2 }
    | none => (s.endPosted tq ts 2).modCmd c.q c.seq fun c => { c with execDone := true, noOutputs := true, detail := 2 }

/-! ### Dispatch of the head command (R190, R195) -/

/-- UNIT of a command's reply (Table 7-4), before its unit is known better. -/
def unitCode (op : Nat) (p : List Nat) : Nat :=
  if op = 0x10 then 0x40 + turnFlask p
  else if op = 0x11 then 0x40 + flaskOf (bitsAt (p.getD 3 0) 0 48) % 4
  else if op = 0x28 ∨ op = 0x29 then 0x81 else 0x80

def State.note (s : State) (c : Cmd) (cl : List Nat) : State × Cmd :=
  let s := s.countClamps c.q c.op cl
  let c := { c with clamped := c.clamped || !cl.isEmpty }
  (s.putCmd c, c)

/-- Dispatch of a command to its unit. -/
def State.dispatchTo (s : State) (c : Cmd) : State :=
  let p := c.pkt
  let op := c.op
  let done := fun (s : State) => s.modCmd c.q c.seq fun c => { c with execDone := true, noOutputs := true }
  if s.poisoned (s.slotAddr c.q c.seq) 64 then s.uncorrCmd c
  else if op = 0x00 then done s
  else if op = 0x01 ∨ op = 0x02 then s.startWing c (s.f F.QE_Q_CFG_WING c.q)
  else if op = 0x08 then
    let x := copyArgs p
    let z := s.note { c with unit := 0x40 + s.copyFlask x.1.src } x.2
    match z.1.copyRefuse x.1 with
    | some r => z.1.refuseCmd z.2 r
    | none => z.1.unitStart c.q c.seq
  else if op = 0x10 then
    let x := turnClamp p
    let z := s.note c x.2
    match z.1.turnRefuse p x.1 with
    | some r =>
      let f := turnFlask p
      ((z.1.setF F.FLK_TRN_STATUS_REFUSED 1 f).setF F.FLK_TRN_STATUS_LAST_CAUSE r.cause f).refuseCmd z.2 r
    | none => z.1.unitStart c.q c.seq
  else if op = 0x11 then
    let x := ladleArgs p
    let z := s.note c x.2
    match z.1.ladleRefuse x.1.1 x.1.2.2.1 x.1.2.2.2 with
    | some r => z.1.refuseCmd z.2 r
    | none => z.1.unitStart c.q c.seq
  else if op = 0x18 then (s.colDispatch c).unitStart c.q c.seq
  else if op = 0x19 then s.fenceDispatch c
  else if op = 0x20 ∨ op = 0x21 then
    let g := bitsAt (p.getD 2 0) 0 16
    let v := bitsAt (p.getD 3 0) 0 48
    if g ≥ 4096 then s.refuseCmd c ⟨0x11, 0, 0x10, 0xFF⟩
    else if op = 0x20 then done (s.gateAdd g v) else done (s.setF F.QE_GATE_VAL_VALUE v g)
  else if op = 0x28 then (s.commitDispatch c).unitStart c.q c.seq
  else if op = 0x29 then (s.pushDispatch c).unitStart c.q c.seq
  else if op = 0x30 then s.abortRun c
  else s.refuseCmd c ⟨0x10, 0, 0x00, 0xFF⟩

/-- A runner domain on the way of the queue engine's message to the wing is held (R141); the queue engine stands at the hub of F0. -/
def State.ctrlHeld (s : State) (q : Nat) (p : List Nat) : Bool :=
  (hdr p 0 8 == 1 || hdr p 0 8 == 2) && s.pathHeld 0 (s.f F.QE_Q_CFG_WING q)

/-- One evaluation of a queue's head: it dispatches, or it is held and the queue reads WAITING. A slot that no memory backs is
refused and reported (R28), and the head stays. `want`: the row dispatches
nothing but its own opcode (and for COPY, COLLECTIVE and BUDDY_PUSH its mode or operation). -/
def State.dispatchHead (s : State) (q : Nat) (want : List Nat → Bool) : State :=
  let s := s.passHead q 65536
  if !s.canDispatch q then s else
  let p := s.readPkt q (s.f F.QE_Q_HEAD_HEAD q)
  if !want p then s
  else if s.headHeld q p then s.setQState q qWaiting
  else
    let a := s.slotAddr q (s.f F.QE_Q_HEAD_HEAD q)
    if !s.inHbm a 64 then s.raise (srcOf 83 0) ⟨a, 0x80, atCmd⟩
    else if !s.readNow a 64 0 ∨ s.ctrlHeld q p then s
    else
      let z := (s.checkRead a 64 0x80 atCmd).takeHead q p (unitCode (hdr p 0 8) p)
      z.1.dispatchTo z.2

/-- Rows that dispatch one opcode. -/
def opIs (op : Nat) (p : List Nat) : Bool := hdr p 0 8 == op

/-! ### Doorbells and queue control (R187, R188, R211, R215, R216, R224) -/

/-- A write of TAIL (R188). -/
def State.doorbell (s : State) (q v : Nat) (m : Master) : State :=
  if s.f F.QE_Q_TAIL_TAIL q ≤ v ∧ v ≤ s.f F.QE_Q_RHEAD_RHEAD q + s.qSize q then s.setF F.QE_Q_TAIL_TAIL v q
  else (s.setF F.QE_Q_STATE_TAIL_ERR 1 q).cfgErr (RegKey.addr ⟨.QE_Q_TAIL, q, 0⟩) m

/-- A write of RHEAD (R188). -/
def State.rheadWrite (s : State) (q v : Nat) (m : Master) : State :=
  if s.f F.QE_Q_RHEAD_RHEAD q ≤ v ∧ v ≤ (s.qx q).written then s.setF F.QE_Q_RHEAD_RHEAD v q
  else (s.setF F.QE_Q_STATE_RHEAD_ERR 1 q).cfgErr (RegKey.addr ⟨.QE_Q_RHEAD, q, 0⟩) m

/-- ENABLE from DISABLED (Table 7-17): counts at 0, the queue runs. -/
def State.queueEnable (s : State) (q : Nat) : State :=
  let s := s.setF F.QE_Q_CFG_ENABLE 1 q
  if s.qState q ≠ qDisabled then s else
  let s := { s with qe := { s.qe with cmds := s.qe.cmds.filter fun c => c.q != q } }
  let s := ((s.setF F.QE_Q_TAIL_TAIL 0 q).setF F.QE_Q_HEAD_HEAD 0 q).setF F.QE_Q_RHEAD_RHEAD 0 q
  (s.setQx q {}).setQState q qRunning

/-- A drain starts (R216): every posted command not dispatched is discarded DRAINED, HEAD becomes TAIL; abort mode stops the
dispatched ones as well. -/
def State.drainStart (s : State) (q mode : Nat) (off : Bool) : State :=
  let h := s.f F.QE_Q_HEAD_HEAD q
  let t := s.f F.QE_Q_TAIL_TAIL q
  let s : State := foldS (natRange h (t - h)) (fun n s => if (s.cmd q n).isSome then s else s.endPosted q n 4) s
  let s := s.passHead q (t - h)
  let x := s.qx q
  let s := (s.setQx q { x with drain := some (mode, t), thenDisable := x.thenDisable || off }).setQState q qDraining
  if mode = 2 then foldS (s.qe.cmds.filter fun c => c.q == q && c.dispatched && !c.retired) (fun c s => s.abortCmd c) s else s

/-- A write of 1 or 2 to DRAIN. -/
def State.queueDrain (s : State) (q mode : Nat) : State :=
  if s.qState q = qDisabled then s else s.drainStart q mode false

/-- ENABLE = 0: a finish-mode drain, after which the queue is DISABLED (Table 7-9). -/
def State.queueDisable (s : State) (q : Nat) : State :=
  let s := s.setF F.QE_Q_CFG_ENABLE 0 q
  if s.qState q = qDisabled then s
  else if s.qState q = qDraining then s.setQx q { s.qx q with thenDisable := true }
  else s.drainStart q 1 true

/-- The end of a drain: every command it covers has retired. -/
def State.drainEnd (s : State) (q : Nat) : State :=
  match (s.qx q).drain with
  | none => s
  | some (_, t) =>
    if s.qState q ≠ qDraining ∨ (s.qe.cmds.any fun c => c.q == q && decide (c.seq < t) && !c.retired) then s
    else
      let off := (s.qx q).thenDisable
      (s.setQx q { s.qx q with drain := none, thenDisable := false }).setQState q (if off then qDisabled else qStopped)

/-- A write of 1 to RESUME (R211). -/
def State.queueResume (s : State) (q : Nat) : State :=
  if s.qState q = qStopped ∨ s.qState q = qError then s.setQState q qRunning else s

/-- A write of a base or of the bound wing (R224): only while the queue is DISABLED or STOPPED, the base aligned and in local HBM. -/
def State.queueBase (s : State) (q : Nat) (rpl : Bool) (v : Nat) (m : Master) : State :=
  let k : RegName := if rpl then .QE_Q_RPL_BASE else .QE_Q_CMD_BASE
  let a := bitsAt v 0 48
  let ok := (s.qState q = qDisabled ∨ s.qState q = qStopped) ∧ a % (if rpl then 32 else 64) = 0 ∧ s.inHbm a 1
  if !ok then s.cfgErr (RegKey.addr ⟨k, q, 0⟩) m
  else if rpl then s.setF F.QE_Q_RPL_BASE_BASE a q
  else (s.setF F.QE_Q_CMD_BASE_BASE a q).setF F.QE_Q_CMD_BASE_LOG2_SIZE (clampNat 6 16 (bitsAt v 48 4)) q

/-- A write of QE_Q[q]_CFG; one that changes WING in a wrong state leaves the whole register unchanged (R224). -/
def State.queueCfg (s : State) (q v : Nat) (m : Master) : State :=
  if bitsAt v 0 6 ≠ s.f F.QE_Q_CFG_WING q ∧ s.qState q ≠ qDisabled ∧ s.qState q ≠ qStopped then
    s.cfgErr (RegKey.addr ⟨.QE_Q_CFG, q, 0⟩) m
  else
  let s := s.setF F.QE_Q_CFG_WING (bitsAt v 0 6) q
  let s := (s.setF F.QE_Q_CFG_STOP_ON_ERR (bitsAt v 9 1) q).setF F.QE_Q_CFG_IRQ_EN (bitsAt v 10 1) q
  let s := s.setF F.QE_Q_CFG_WAIT_MS (bitsAt v 16 16) q
  if bitsAt v 8 1 = s.f F.QE_Q_CFG_ENABLE q then s
  else if bitsAt v 8 1 = 1 then s.queueEnable q else s.queueDisable q

/-- The head has waited longer than WAIT_MS (R203). -/
def State.waitLong (s : State) (q : Nat) : State :=
  let p := s.readPkt q (s.f F.QE_Q_HEAD_HEAD q)
  if s.f F.QE_Q_CFG_WAIT_MS q = 0 ∨ !s.canDispatch q ∨ !s.headHeld q p then s
  else (s.setF F.QE_Q_STATE_WAIT_LONG 1 q).raise (srcOf 65 4) ⟨0, 0x80, 0⟩

/-! ### Commits and replies of local writers through the directory (R343, R345) -/

/-- What a run writes inside the coherent window is recalled first (R345). -/
def State.claimOut (acc : State × Bool) (o : OutElem) : State × Bool :=
  ((acc.1.claimIf (acc.1.inWindow o.addr) o.addr ((o.bit + o.w + 7) / 8) none).1,
    acc.2 && (acc.1.claimIf (acc.1.inWindow o.addr) o.addr ((o.bit + o.w + 7) / 8) none).2)
def State.claimOuts (s : State) (os : List OutElem) : State × Bool := os.foldl State.claimOut (s, true)

/-- TILE_COMMIT of a wing command whose outputs lie in granules that peers hold waits for their recall. -/
def State.commitCmd (s : State) (q n : Nat) : State :=
  match (s.cmd q n).bind Cmd.wing with
  | none => s.unitStart q n
  | some w =>
    match (s.wing w).run with
    | some r =>
      if r.q = q ∧ r.seq = n ∧ r.unitDone ∧ s.commitReady q n then
        if (s.claimOuts r.outs).2 then (s.claimOuts r.outs).1.tileCommit q n else (s.claimOuts r.outs).1
      else s
    | none => s

/-- The next reply of a queue is written at its slot, once the directory lets it. -/
def State.replyTo (s : State) (q a : Nat) : State :=
  let z := s.claimIf (s.inWindow a) a 32 none
  if z.2 then z.1.replyCmd q else z.1

/-- The reply of a queue, written through the directory. -/
def State.replyOut (s : State) (q : Nat) : State :=
  let x := s.qx q
  let ready := (s.cmd q x.written).any fun c => c.retired && (!c.signals || c.signalled)
  if !ready then s else s.replyTo q (s.f F.QE_Q_RPL_BASE_BASE q + x.written % s.qSize q * 32)

/-! ### Wings taken out and restored (R115, R215) -/

/-- A write of 1 to TAKE_OUT: a wing with commands drains first. -/
def State.takeOut (s : State) (w : Nat) : State :=
  let x := s.wingState w
  if x = 1 ∨ x = 2 then s.wingLeave w 1
  else if x = 3 then s.setWing w { s.wing w with draining := true } else s

/-- A draining wing leaves once its commands have retired. -/
def State.drainWings (s : State) : State :=
  foldS (s.wings.filter fun p => p.2.draining) (fun p s =>
    if (s.wing p.1).jobs.isEmpty ∧ !(s.qe.replay.any fun r => r.1 == p.1) then s.wingLeave p.1 1 else s) s

/-- WING_DRAIN_US has elapsed: what remains is replayed. -/
def State.wingDrainTimeout (s : State) (w : Nat) : State := if (s.wing w).draining then s.wingLeave w 1 else s

/-- A write of 1 to RESTORE (Table 4-11). -/
def State.restoreWing (s : State) (w : Nat) : State :=
  if s.wingState w = 5 ∧ s.f F.WNG_STATUS_OUT_CAUSE w = 1 then (s.setWingState w 2).setF F.WNG_STATUS_OUT_CAUSE 0 w else s

/-! ### The abort point of an orderly stop (R504) -/

/-- Four milliseconds into a stop: unretired commands are aborted, every light-engine port is disabled. -/
def State.stopAbort (s : State) : State :=
  if s.f F.PWR_STATE_STATE ≠ 3 then s else
  let s : State := foldS (s.qe.cmds.filter fun c => c.dispatched && !c.retired) (fun c s => s.abortCmd c) s
  foldS (List.range 16) (fun p s => s.portDisable p) s

end Sys2Proof.Machine
end

