-- ==== Sys2Proof/Machine/Settle.lean ====
section
/-! DEFINITION. What follows a command by itself: threshold reactions (R443, R444), what the end-to-end layer tells its users
(R324, R327), and the engines that go on when what they waited for has come. -/

namespace Sys2Proof.Machine

/-- A BLOCK reaction (Table 16-4): fence the array, take the wing out, reset the edge, retrain the port, restart the engine. -/
def State.blockReact (s : State) (n : Nat) : State :=
  let g := n / 16
  let i := n % 16
  if g < 64 ∧ i ≤ 3 then s.fenceArray g i
  else if g < 64 ∧ i = 5 then s.wingLeave g 4
  else if 70 ≤ g ∧ g ≤ 73 ∧ i = 2 then s.edgeReset (g - 70)
  else if 70 ≤ g ∧ g ≤ 73 ∧ 3 ≤ i ∧ i ≤ 6 then s.toTrain (4 * (g - 70) + i - 3)
  else if 74 ≤ g ∧ g ≤ 81 ∧ (i = 1 ∨ i = 4 ∨ i = 5) then s.engineStart (g - 74)
  else s

/-- The oldest reaction is performed; a module reset supersedes those behind it (R448). -/
def State.reactOne (s : State) : State :=
  match s.eye.react with
  | [] => s
  | r :: rs =>
    let s := { s with eye := { s.eye with react := rs } }
    match r with
    | .block n => s.blockReact n
    | .module => s.moduleReset 3

/-- The users of the fabric learn that a peer is unreachable (R327) or has restarted (R324, R356). -/
def State.tellUsers (s : State) (e : FabEvent) : State :=
  match e with
  | .unreachable a _ =>
    let s := if s.inTray a ∧ a ≠ s.self then s.depart (epSlot a) true else s
    let s : State := foldS (s.tray.copies.filter fun j => j.ep == some a) (fun j s => s.copyEnd j 0x28 a) s
    ((s.colPeer a 4).fencePeer a).jobPeer a
  | .reset a | .newInc a =>
    let s := if s.inTray a ∧ a ≠ s.self then s.depart (epSlot a) true else s
    s.colPeer a 5

def State.eventOne (s : State) : State :=
  match s.fab.events with
  | [] => s
  | e :: es => { s with fab := { s.fab with events := es } }.tellUsers e

/-- Commands at a unit that have not begun. -/
def State.unstarted (s : State) : Bool := s.qe.cmds.any fun c => !c.execDone && !c.committed && !c.retired && c.wing.isNone

/-- Whether nothing goes on by itself. -/
def State.quiet (s : State) : Bool :=
  s.eye.react.isEmpty && s.fab.events.isEmpty && s.fab.inbox.isEmpty && s.fab.fences.isEmpty &&
  s.tray.copies.isEmpty && s.tray.acks.isEmpty && s.tray.fences.isEmpty && s.tray.reqs.isEmpty &&
  s.coll.insts.isEmpty && s.coll.group.isEmpty && s.res.jobs.isEmpty && s.eye.sweeps.isEmpty && s.margin.temper.isNone &&
  !s.unstarted && !(s.wings.any fun p => p.2.draining)

/-- One round: reactions and tidings first, then every engine once. -/
def State.round (s : State) : State :=
  s.reactOne.eventOne.traySettle.fenceSettle.collSettle.resSettle.sweepGo.unitsStart.drainWings

def settleN : Nat → State → State
  | 0, s => s
  | n + 1, s => if s.quiet then s else settleN n s.round

/-- The state after a command and all that follows it by itself. -/
def settle (s : State) : State := settleN (8 + s.eye.react.length + s.fab.events.length) s

/-- A command that completes. -/
def done (s : State) : Host.Outcome State Fault Refusal := .next (settle s)

end Sys2Proof.Machine
end

