-- ==== Sys2Proof/Machine/Ctl.lean ====
section
/-! DEFINITION. Reads and writes of control space (R5 to R10, R388 to R392, R415 and the register rules of every chapter): finding
the register at an address, the access codes, and the effects that single fields have. -/

namespace Sys2Proof.Machine

/-! ### Which register stands at an address (R5, R391) -/

/-- A block of Table 14-3. -/
inductive CtlBlock where
  | regs (l : List RegName)
  | aclint | plic
  deriving DecidableEq, Repr

/-- The block that an address lies in; `none` outside all of them. -/
def ctlBlock (a : Nat) : Option CtlBlock :=
  let x := a - 0xF00000000000
  if a < 0xF00000000000 then none
  else if x < 0x01000000 then some (.regs regsCru)
  else if x < 0x02000000 then some (.regs regsSec)
  else if x < 0x03000000 then some (.regs regsEye)
  else if x < 0x04000000 then some (.regs regsPwr)
  else if x < 0x04010000 then some .aclint
  else if x < 0x08000000 then none
  else if x < 0x0C000000 then some .plic
  else if x < 0x10000000 then none
  else if x < 0x20000000 then some (.regs regsQe)
  else if x < 0x24000000 then some (.regs regsWng)
  else if x < 0x40000000 then none
  else if x < 0x50000000 then some (.regs regsRun)
  else if x < 0x54000000 then some (.regs regsFlk)
  else if x < 0x60000000 then none
  else if x < 0x60800000 then some (.regs regsLe)
  else none

/-- The indices that an offset names along the dimensions of a register, whose strides fall. -/
def dimIndex : List Dim → Nat → Nat → Nat → Option (Nat × Nat)
  | [], r, i, j => if r = 0 then some (i, j) else none
  | d :: ds, r, i, j =>
    let n := r / d.stride
    if n < d.count then dimIndex ds (r % d.stride) (i + n * d.mi) (j + n * d.mj) else none

/-- The instance of a register at an 8-byte-aligned address. -/
def RegName.at_ (n : RegName) (a : Nat) : Option RegKey :=
  let b := n.info.base + n.info.off
  if a < b then none else (dimIndex n.info.dims (a - b) 0 0).map fun p => ⟨n, p.1, p.2⟩

/-- The register at an address, where its block has one there. -/
def findReg (l : List RegName) (a : Nat) : Option RegKey := l.findSome? fun n => n.at_ (a / 8 * 8)

/-- The width and alignment of R6. -/
def ctlShape (a width : Nat) : Bool := (width == 8 && a % 8 == 0) || (width == 4 && a % 4 == 0)

/-! ### Interrupt controllers (R392; layouts of log entry 10) -/

def plicBase : Nat := 0xF00008000000
def aclintBase : Nat := 0xF00004000000

/-- A 32-bit word of the interrupt controllers that software has written. -/
def State.picWord (s : State) (a : Nat) : Nat := mgetD s.plic.regs a 0
def State.setPicWord (s : State) (a v : Nat) : State :=
  { s with plic := { s.plic with regs := mset s.plic.regs a (v % 2 ^ 32) } }

/-- Whether a source requests: an Eyespot group while an unmasked pending bit stands (Table 16-4), the others since they were raised. -/
def State.plicPending (s : State) (n : Nat) : Bool :=
  if 257 ≤ n ∧ n ≤ 384 then
    let k := n - 257
    s.f F.EYE_GRP_PEND_PENDING k &&& (65535 - s.f F.EYE_GRP_PEND_MASK k) != 0 && !s.plic.claimed.contains n
  else s.plic.pending.contains n && !s.plic.claimed.contains n

/-- The interrupt a context would claim: the highest priority above zero that is enabled, the lowest number among equals. -/
def State.plicBest (s : State) (ctx : Nat) : Nat :=
  let on := fun (n : Nat) => s.plicPending n && s.picWord (plicBase + 0x2000 + 0x80 * ctx + n / 32 * 4) / 2 ^ (n % 32) % 2 == 1
  let pr := fun (n : Nat) => s.picWord (plicBase + 4 * n)
  (natRange 1 386).foldl (fun b n => if on n ∧ pr n > (if b = 0 then 0 else pr b) then n else b) 0

/-- A 32-bit read of the PLIC. A claim takes the interrupt. -/
def State.plicRead (s : State) (a : Nat) : Nat × State :=
  let x := a - plicBase
  if x < 0x1000 then (if x / 4 ≤ 386 then s.picWord a else 0, s)
  else if x < 0x1080 then
    ((List.range 32).foldl (fun v i => if s.plicPending ((x - 0x1000) * 8 + i) then v + 2 ^ i else v) 0, s)
  else if 0x2000 ≤ x ∧ x < 0x3000 then (s.picWord a, s)
  else if 0x200000 ≤ x ∧ x < 0x220000 then
    if x % 0x1000 = 0 then (s.picWord a, s)
    else if x % 0x1000 = 4 then
      let n := s.plicBest ((x - 0x200000) / 0x1000)
      if n = 0 then (0, s)
      else (n, { s with plic := { s.plic with pending := s.plic.pending.filter (· != n), claimed := n :: s.plic.claimed } })
    else (0, s)
  else (0, s)

/-- A 32-bit write of the PLIC. -/
def State.plicWrite (s : State) (a v : Nat) : State :=
  let x := a - plicBase
  if 4 ≤ x ∧ x ≤ 4 * 386 then s.setPicWord a (v % 8)
  else if 0x2000 ≤ x ∧ x < 0x3000 then s.setPicWord a v
  else if 0x200000 ≤ x ∧ x < 0x220000 then
    if x % 0x1000 = 0 then s.setPicWord a (v % 8)
    else if x % 0x1000 = 4 then { s with plic := { s.plic with claimed := s.plic.claimed.filter (· != v % 2 ^ 32) } }
    else s
  else s

/-- A 32-bit read of the ACLINT: msip, mtimecmp, mtime (the time base, R394); setssip reads zero. -/
def State.aclintRead (s : State) (a : Nat) : Nat :=
  let x := a - aclintBase
  if x < 64 ∨ (0x4000 ≤ x ∧ x < 0x4080) then s.picWord a
  else if x = 0xBFF8 then s.now % 2 ^ 32
  else if x = 0xBFFC then s.now / 2 ^ 32
  else 0

/-- A 32-bit write of the ACLINT. A machine software interrupt releases a hart that waits for one since stage 12 (Table 14-6). -/
def State.aclintWrite (s : State) (a v : Nat) : State :=
  let x := a - aclintBase
  if x < 64 then
    let s := s.setPicWord a (v % 2)
    let h := x / 4
    if v % 2 = 1 ∧ 12 ≤ s.stage ∧ s.stage ≤ 13 ∧ !s.boot.harts.contains h then { s with boot := { s.boot with harts := s.boot.harts ++ [h] } } else s
  else if 0x4000 ≤ x ∧ x < 0x4080 then s.setPicWord a v
  else s

/-! ### The windows of a wing (R121, R184) -/

/-- A 32-bit accumulator entry at an offset of R96. An undefined one is a free value. -/
def State.accWord (s : State) (w x : Nat) : Nat × State :=
  match (s.col w (x / 0x8000) (x % 0x8000 / 0x200)).ent with
  | some l => (l.getD (x % 0x200 / 4) 0, s)
  | none => let z := s.draw; (z.1 % 2 ^ 32, z.2)

/-- A 32-bit tile-register element at an offset of R184. -/
def State.trWord (s : State) (w x : Nat) : Nat × State :=
  match mget (s.wing w).tr (x % 512 / 4, x / 512) with
  | some v => (v, s)
  | none => let z := s.draw; (z.1 % 2 ^ 32, z.2)

/-- A read of a window: entries while the wing is OFFLINE or OUT, zero and an access error otherwise. -/
def State.windowRead (s : State) (entry : State → Nat → Nat × State) (w x width addr : Nat) (m : Master) : Nat × State :=
  if s.wingState w = 0 ∨ s.wingState w = 5 then
    let lo := entry s x
    if width = 4 then lo else let hi := entry lo.2 (x + 4); (lo.1 + hi.1 * 2 ^ 32, hi.2)
  else (0, s.accessErr addr m (atCtrl + atRead))

/-- The accumulator window (R121): a refused shape returns nothing. -/
def State.accWindow (s : State) (w off width : Nat) (m : Master) : State :=
  let a := 0xF00020080000 + 0x100000 * w + off
  if !ctlShape a width then { (s.accessErr a m (atCtrl + atRead)) with busReply := none }
  else let z := s.windowRead (fun s x => s.accWord w x) w off width a m; { z.2 with busReply := some z.1 }

/-- The tile-register window (R184). -/
def State.trWindow (s : State) (w off width : Nat) (m : Master) : State :=
  let a := 0xF000200A0000 + 0x100000 * w + off
  if !ctlShape a width then { (s.accessErr a m (atCtrl + atRead)) with busReply := none }
  else let z := s.windowRead (fun s x => s.trWord w x) w off width a m; { z.2 with busReply := some z.1 }

/-! ### Reads (R6 to R8, R58, R530) -/

/-- A register as it reads: a WO field as zero; rails 14 and 15 and reserved sources have no fields in force. -/
def State.readReg (s : State) (k : RegKey) : Nat :=
  if (k.name = .PWR_RAIL ∨ k.name = .PWR_RAIL_MEAS) ∧ 14 ≤ k.i then 0
  else if (k.name = .EYE_SRC_CFG ∨ k.name = .EYE_SRC_STAT) ∧ (srcDef k.i).isNone then 0
  else (k.name.info.fields.foldl (fun x f => if f.acc = .WO then setBits x f.lsb f.w 0 else x) (s.rd k.name k.i k.j)).toNat

/-- A 64-bit read of MGN_RATE[w]_STEPS latches the time base (R58). -/
def State.stepsLatch (s : State) (w : Nat) : State := s.wr .MGN_RATE_TIME (s.rd .CRU_TIME) w

/-- Eight bytes of the PLIC's registers: the lower word is read first. -/
def State.plicRead8 (s : State) (a : Nat) : Option Nat × State :=
  (some ((s.plicRead a).1 + ((s.plicRead a).2.plicRead (a + 4)).1 * 2 ^ 32), ((s.plicRead a).2.plicRead (a + 4)).2)

/-- Whether an address lies in the blocks of the wings (Table 2-2), the wing, and the offset in its block. -/
def inWingBlocks (a : Nat) : Bool := decide (0xF00020000000 ≤ a ∧ a - 0xF00020000000 < 0x4000000)
def wingBlock (a : Nat) : Nat := (a - 0xF00020000000) / 0x100000
def wingOffset (a : Nat) : Nat := (a - 0xF00020000000) % 0x100000

/-- Inside a wing's block the two windows; any other offset holds no field and reads as zero (R7). -/
def State.wingWindow (s : State) (inWing : Bool) (w o width a : Nat) (m : Master) : Option Nat × State :=
  if inWing ∧ 0x80000 ≤ o ∧ o < 0xA0000 then
    let z := s.windowRead (fun s x => s.accWord w x) w (o - 0x80000) width a m
    (some z.1, z.2)
  else if inWing ∧ 0xA0000 ≤ o ∧ o < 0xA8000 then
    let z := s.windowRead (fun s x => s.trWord w x) w (o - 0xA0000) width a m
    (some z.1, z.2)
  else (some 0, s)

/-- A read of control space: the value, or `none` where it is refused. -/
def State.ctlRead (s : State) (a width : Nat) (m : Master) : Option Nat × State :=
  if !ctlShape a width then (none, s.accessErr a m (atCtrl + atRead))
  else
    let half := fun (v : Nat) => if width = 8 then v else if a % 8 = 0 then v % 2 ^ 32 else v / 2 ^ 32
    match ctlBlock a with
    | none => (none, s.accessErr a m (atCtrl + atRead))
    | some .aclint => (some (if width = 4 then s.aclintRead a else s.aclintRead a + s.aclintRead (a + 4) * 2 ^ 32), s)
    | some .plic =>
      if width = 4 then (some (s.plicRead a).1, (s.plicRead a).2) else s.plicRead8 a
    | some (.regs l) =>
      match findReg l a with
      | some k =>
        let v := half (s.readReg k)
        (some v, if k.name = .MGN_RATE_STEPS ∧ width = 8 then s.stepsLatch k.i else s)
      | none =>
        s.wingWindow (inWingBlocks a) (wingBlock a) (wingOffset a) width a m

/-! ### Writes (R6 to R10) -/

/-- One write: the bits it covers, the word as merged with the old one, and the ones it carries. -/
structure CtlWrite where
  lo : Nat
  hi : Nat
  old : Nat
  word : Nat
  ones : Nat
  m : Master
  deriving DecidableEq, Repr

def CtlWrite.covers (c : CtlWrite) (lsb w : Nat) : Bool := decide (lsb < c.hi) && decide (c.lo < lsb + w)
def CtlWrite.val (c : CtlWrite) (lsb w : Nat) : Nat := bitsAt c.word lsb w
/-- Whether the write carries a one in a covered bit. -/
def CtlWrite.one (c : CtlWrite) (lsb : Nat) : Bool := bitsAt c.ones lsb 1 == 1

/-- Whether an RWL field is writable: in the states its Meaning names (R10; log entry 20). -/
def FieldInfo.open_ (f : FieldInfo) (lcs : Nat) : Bool := f.lcs.contains lcs

/-- What a field's access code makes of a write (R8 to R10); a value out of range is stored as the nearest bound. -/
def FieldInfo.store (f : FieldInfo) (lcs : Nat) (c : CtlWrite) (x : Word) : Word :=
  if !c.covers f.lsb f.w then x
  else match f.acc with
    | .RW | .RWS => setBits x f.lsb f.w (clampNat f.lo f.hi (c.val f.lsb f.w))
    | .RWL => if f.open_ lcs then setBits x f.lsb f.w (clampNat f.lo f.hi (c.val f.lsb f.w)) else x
    | .W1C => setBits x f.lsb f.w (getBits x f.lsb f.w &&& (2 ^ f.w - 1 - bitsAt c.ones f.lsb f.w))
    | .RO | .WO => x

/-- Registers whose rules decide the write as a whole; the generic store leaves them alone. -/
def RegName.own (n : RegName) : Bool :=
  match n with
  | .MGN_CTRL | .MGN_DOM_TAP | .QE_Q_CMD_BASE | .QE_Q_RPL_BASE | .QE_Q_CFG | .QE_Q_TAIL | .QE_Q_RHEAD | .LE_THRESH | .FAB_ADDR
  | .FAB_RT_RACK | .FAB_RT_LOCAL | .TRY_CTRL | .TRY_WIN | .COL_GRP_CFG | .COL_GRP_LIST | .SEC_ATT_NONCE | .EYE_CTRL | .EYE_NMI
  | .EYE_PIN | .EYE_SRC_CFG | .CRU_RES_CTRL | .CRU_RES_COMMIT | .PWR_CAP => true
  | _ => false

/-- Fields of other registers that have an effect of their own instead of the plain store. -/
def RegKey.skips (k : RegKey) (lsb : Nat) : Bool :=
  match k.name with
  | .RUN_STREAM_SRC => lsb == 63
  | .FLK_MEM_QUAL => lsb == 24
  | .LE_CTRL => lsb == 0 || lsb == 4
  | .LE_PORT_CTRL => lsb == 0
  | .FAB_CTRL => lsb == 0
  | .EYE_SRC_STAT => lsb == 2 || (srcDef k.i).isNone
  | .PWR_RAIL => k.i != 8
  | _ => false

/-- The plain store over all fields. -/
def RegKey.storeAll (k : RegKey) (lcs : Nat) (c : CtlWrite) (x : Word) : Word :=
  k.name.info.fields.foldl (fun x f => if k.skips f.lsb then x else f.store lcs c x) x

/-- A write that would change a locked RWL field (R10). -/
def RegKey.locked (k : RegKey) (lcs : Nat) (c : CtlWrite) : Bool :=
  k.name.info.fields.any fun f => f.acc == .RWL && !k.skips f.lsb && c.covers f.lsb f.w && !f.open_ lcs && c.val f.lsb f.w != bitsAt c.old f.lsb f.w

/-- A numeric field outside its range (R407). -/
def RegKey.outOfRange (k : RegKey) (c : CtlWrite) : Bool :=
  k.name.info.fields.any fun f => (f.acc == .RW || f.acc == .RWS || f.acc == .RWL) && c.covers f.lsb f.w && clampNat f.lo f.hi (c.val f.lsb f.w) != c.val f.lsb f.w

/-- A word of a stream descriptor has been written: VALID falls, or the descriptor is validated (R130, R131). -/
def State.streamWord (s : State) (i : Nat) (valid : Bool) (m : Master) : State :=
  if valid then s.streamValidate i m else s.setF F.RUN_STREAM_SRC_VALID 0 i

/-- MGN_DOM[d]_TAP (R47, R48, R60). -/
def State.tapWord (s : State) (d : Nat) (c : CtlWrite) : State :=
  let s := if c.covers 8 6 then s.planWrite d (c.val 8 6) else s
  let s := if c.covers 33 3 then s.sweepOffWrite d (c.val 33 3) c.m else s
  if c.one 30 then s.setF F.MGN_DOM_TAP_PEAK (s.f F.MGN_DOM_TAP_CURRENT d) d else s

/-- The current frame of a light engine, which no register shows: a free value. -/
def State.frame (s : State) : Nat × State := let z := s.draw; (z.1 % 2 ^ 32, z.2)

/-- LE[e]_CTRL: ENABLE, COMB_SWAP, STANDBY_WARM (R294, R298). -/
def State.leCtrlWord (s : State) (e : Nat) (c : CtlWrite) : State :=
  if !c.covers 0 5 then s else
  let s := s.leEnable e (c.val 0 1) c.m
  let s := if c.val 4 1 ≠ s.f F.LE_CTRL_STANDBY_WARM e then s.standbyWarm e (c.val 4 1) else s
  if c.one 3 then let z := s.frame; z.2.combSwap e z.1 true else s

/-- LE[e]_PORT[j]_CTRL: DISABLE, LSWAP (R292, R298). -/
def State.lePortWord (s : State) (p : Nat) (c : CtlWrite) : State :=
  if !c.covers 0 2 then s else
  let s := if c.val 0 1 = s.f F.LE_PORT_CTRL_DISABLE p then s else if c.val 0 1 = 1 then s.portDisable p else s.portEnable p
  if c.one 1 then let z := s.frame; z.2.leLswap p (s.f F.LE_PORT_CTRL_LSWAP_LANE p) z.1 else s

/-- TRY_CTRL.ENABLE (R354, R355). -/
def State.tryCtrlWord (s : State) (v : Nat) : State :=
  if v = s.f F.TRY_CTRL_ENABLE then s else if v = 1 then s.joinStart else s.leaveStart

/-- CRU_MGT_OSQ: a write restarts both rings at their first slot. -/
def State.osqWord (s : State) : State := { s with mgt := { s.mgt with osRx := 0, osTx := 0 } }

/-- A write of QE_GATE[g]_ADD (R202). -/
def State.gateAddWord (s : State) (g v : Nat) : State := s.gateAdd g (v % 2 ^ 48)

/-- RWL OVERRIDE (R227): a one acts, a zero is stored where it may be. -/
def State.overrideWord (s : State) (f : Nat) (c : CtlWrite) : State :=
  if c.one 24 then s.qualOverride f c.m
  else if s.f F.FLK_MEM_QUAL_OVERRIDE f = 0 then s
  else if s.lcs = 1 ∨ s.lcs = 4 then s.setF F.FLK_MEM_QUAL_OVERRIDE 0 f
  else s.lcViolation (RegKey.addr ⟨.FLK_MEM_QUAL, f, 0⟩) c.m

/-- The effects that fields have beyond the plain store, after it. -/
def State.ctlEffect (s : State) (k : RegKey) (c : CtlWrite) : State :=
  let i := k.i
  match k.name with
  | .MGN_CTRL => s.mgnCtrlWrite c.word c.m
  | .MGN_TEMPER => if c.one 0 then s.temperStart else s
  | .MGN_DOM_TAP => s.tapWord i c
  | .MGN_DOM_SLACK => if c.one 16 then s.setF F.MGN_DOM_SLACK_MIN (s.f F.MGN_DOM_SLACK_NOW i) i else s
  | .WNG_CTRL =>
    let s := if c.one 0 then s.takeOut i else s
    if c.one 1 then s.restoreWing i else s
  | .WNG_BIST => if c.one 0 then s.bistStart i else s
  | .WNG_ARR_STAT => if c.one 9 then s.fenceArray i k.j else s
  | .RUN_STREAM_SRC => s.streamWord i (c.one 63) c.m
  | .RUN_STREAM_LEN | .RUN_STREAM_SHAPE | .RUN_STREAM_WINGS => s.streamWord i false c.m
  | .QE_Q_CMD_BASE => s.queueBase i false c.word c.m
  | .QE_Q_RPL_BASE => s.queueBase i true c.word c.m
  | .QE_Q_CFG => if c.covers 0 32 then s.queueCfg i c.word c.m else s
  | .QE_Q_TAIL => s.doorbell i c.word c.m
  | .QE_Q_RHEAD => s.rheadWrite i c.word c.m
  | .QE_Q_STATE =>
    let d := bitsAt c.ones 16 2
    let s := if d = 1 ∨ d = 2 then s.queueDrain i d else s
    if c.one 20 then s.queueResume i else s
  | .QE_Q_CLAMP => if c.one 63 then s.setF F.QE_Q_CLAMP_COUNT 0 i else s
  | .QE_GATE_ADD => s.gateAddWord i c.ones
  | .FLK_MEM_CTRL => if s.f F.FLK_MEM_CTRL_RATE i = 3 then s.setF F.FLK_MEM_CTRL_RATE 0 i else s
  | .FLK_MEM_QUAL => if c.covers 24 1 then s.overrideWord i c else s
  | .FLK_D2D_CTRL => if c.one 1 then s.d2dSwitch i else s
  | .LE_CTRL => s.leCtrlWord i c
  | .LE_THRESH => s.leThresh i c.word c.m
  | .LE_PORT_CTRL => s.lePortWord i c
  | .FAB_ADDR => s.fabAddr c.word c.m
  | .FAB_CTRL => if c.covers 0 1 then s.fabEnable (c.val 0 1) else s
  | .FAB_RT_CTRL =>
    let s := if c.one 16 then s.rtLoad else s
    let s := if c.one 17 then s.rtArm else s
    if c.one 18 then s.rtFlip else s
  | .FAB_PEER_CLR => if c.covers 0 16 then s.peerClear (c.val 0 16) else s
  | .FAB_PORT_CHECK =>
    let s := if c.one 0 then s.cableAccept i else s
    if c.one 1 then s.cableCheck i else s
  | .FAB_RT_RACK => s.rtEntry i false k.j c.word c.m
  | .FAB_RT_LOCAL => s.rtEntry i true k.j c.word c.m
  | .TRY_CTRL => if c.covers 0 1 then s.tryCtrlWord (c.val 0 1) else s
  | .TRY_WIN => s.tryWin c.word c.m
  | .COL_GRP_CFG => s.groupCfg i false c.word c.m
  | .COL_GRP_LIST => s.groupCfg i true c.word c.m
  | .COL_GRP_CTRL =>
    let s := if c.one 0 then s.groupEnable i c.m else s
    if c.one 1 then s.groupDisable i else s
  | .CRU_RESET => if c.one 0 then s.moduleReset 4 else s
  | .CRU_MGT_OSQ => s.osqWord
  | .SEC_ATT_CTRL => if c.one 0 then s.attStart i else s
  | .SEC_ATT_NONCE => if s.f F.SEC_ATT_CTRL_BUSY i = 1 then s else s.wr .SEC_ATT_NONCE (BitVec.ofNat 64 c.word) i k.j
  | .EYE_CTRL | .EYE_NMI => s.class5 k.addr c.m fun s => s.wr k.name (k.storeAll s.lcs c (s.rd k.name)) 0
  | .EYE_PIN => if c.covers 8 2 then s.pinHold (c.val 8 1) (c.val 9 1) c.m else s
  | .EYE_KICK =>
    let s := if c.one 0 then s.keelKick c.m else s
    if c.one 1 then s.osKickNow else s
  | .EYE_INJ_CTRL => if c.one 24 then s.injArm c.m else s
  | .EYE_SRC_CFG => if c.covers 0 12 then s.srcCfg i c.word c.m else s
  | .EYE_SRC_STAT =>
    if (srcDef i).isNone ∨ !c.covers 2 1 then s else if c.val 2 1 = 1 then s.latch i else s.unlatch i
  | .CRU_RES_CTRL => s.resCtrl (c.word % 2 ^ 32 + bitsAt c.ones 32 1 * 2 ^ 32) c.m
  | .CRU_RES_COMMIT => s.lastWrite c.word c.m
  | .PWR_CAP => if c.covers 0 12 then s.capWrite (c.val 0 12) else s
  | .PWR_IN => if c.one 48 then s.setF F.PWR_IN_PEAK_W 0 else s
  | .PWR_STATE => if c.one 16 then s.orderlyStop 7 else s
  | .PWR_BASK => s.capForce
  | .THM_SENS => if c.one 49 then s.setF F.THM_SENS_MAX (s.f F.THM_SENS_TEMP i) i else s
  | _ => s

/-- A write that a register receives. -/
def State.regStore (s : State) (k : RegKey) (c : CtlWrite) : State :=
  let s := if k.name.own then s else
    let x := s.rd k.name k.i k.j
    let y := k.storeAll s.lcs c x
    if y = x then s else s.wr k.name y k.i k.j
  let s := if k.locked s.lcs c then s.lcViolation k.addr c.m else s
  s.ctlEffect k c

/-- A write of control space: `none` where it is refused, otherwise whether a numeric field was out of range. -/
def State.ctlWrite (s : State) (a width v : Nat) (m : Master) : Option Bool × State :=
  if !ctlShape a width then (none, s.accessErr a m (atCtrl + atWrite))
  else
    match ctlBlock a with
    | none => (none, s.accessErr a m (atCtrl + atWrite))
    | some .aclint => (some false, if width = 4 then s.aclintWrite a v else (s.aclintWrite a (v % 2 ^ 32)).aclintWrite (a + 4) (v / 2 ^ 32))
    | some .plic => (some false, if width = 4 then s.plicWrite a v else (s.plicWrite a (v % 2 ^ 32)).plicWrite (a + 4) (v / 2 ^ 32))
    | some (.regs l) =>
      match findReg l a with
      | none => (some false, s)
      | some k =>
        let old := s.readReg k
        let low := width = 8 ∨ a % 8 = 0
        let v := v % 2 ^ (8 * width)
        let ones := if low then v else v * 2 ^ 32
        let word := if width = 8 then v else if low then old / 2 ^ 32 * 2 ^ 32 + v else old % 2 ^ 32 + v * 2 ^ 32
        let c : CtlWrite := { lo := if low then 0 else 32, hi := if width = 8 ∨ !low then 64 else 32, old := old, word := word, ones := ones, m := m }
        (some (k.outOfRange c), s.regStore k c)

end Sys2Proof.Machine
end

