-- ==== Sys2Proof/Machine/Feed.lean ====
section
/-! DEFINITION. Opening, pruning and closing of the runner's instances as commands (R132 to R138, R249), the ports of a tile store
(R144 to R148), a wing that hangs (R116), and the stitch crossings (R126). -/

namespace Sys2Proof.Machine

/-- The MATMULs of an instance that cannot open are refused with REFUSED_INDEX (R103, R132, R249). -/
def State.refuseRecv (s : State) (x : Inst) : State :=
  let s : State := foldS x.recv (fun r s =>
    let s := match s.cmd r.q r.seq with
      | some c => if c.retired then s else s.refuseCmd c ⟨0x11, 0, 0x18 + 2 * r.arrs.headD 0, 0xFF⟩
      | none => s
    s.stopOnWing r.w r.q r.seq) s
  s.dropInst x.id

/-- Whether the turn engine can take an instance of a descriptor now (R250, R253): it serves fewer than sixteen, its domain is not
held, and its source can be read. -/
def State.turnOpen (s : State) (i : Nat) : Bool :=
  let src := s.f F.RUN_STREAM_SRC_SRC_ADDR i
  decide (s.f F.FLK_TRN_STATUS_ACTIVE (src % 4) < 16) && !s.held (404 + src % 4) &&
  match s.turnFor src (s.f F.RUN_STREAM_LEN_LENGTH i) with
  | some j => s.turnNow j
  | none => true

/-- Opening an instance, or refusing the MATMULs that named it. A turn engine that cannot take it yet lets it wait (R250). -/
def State.openOr (s : State) (x : Inst) : State :=
  let i := x.desc
  if s.f F.RUN_STREAM_SRC_VALID i = 1 ∧ s.f F.RUN_STREAM_SRC_SRC_KIND i = 1 ∧ !s.turnOpen i then s
  else match s.openInst x with
    | some s => s
    | none => s.refuseRecv x

/-- The oldest instance of a descriptor that forms, with a receiver that meets a test. -/
def State.forming (s : State) (i : Nat) (p : Inst → Bool) : Option Inst :=
  s.insts.find? fun x => x.desc == i && !x.isOpen && p x

/-- The instance that wing `w` has joined opens once it may (R132). -/
def State.openFor (s : State) (i w : Nat) : State :=
  match s.forming i fun x => x.recv.any fun r => r.w == w with
  | none => s
  | some x =>
    let s := s.pruneDue x
    match s.inst x.id with
    | some y => if s.instReady y then s.openOr y else s
    | none => s

/-- A multicast instance that has waited JOIN_US opens for the wings that have joined (R133), unless an open one stands before it. -/
def State.joinTimeout (s : State) (i : Nat) : State :=
  match s.forming i fun x => !x.unicast with
  | none => s
  | some x =>
    let s := s.pruneDue x
    match s.inst x.id with
    | none => s
    | some y =>
      if s.insts.any fun z => z.desc == i && z.isOpen && !z.unicast then s
      else
        let part := !s.instReady y
        let y : Inst := { y with set := y.recv.map (·.w) }
        let s := (s.setInst y).openOr y
        if part ∧ (s.inst y.id).any (·.isOpen) then s.setF F.RUN_STATUS_JOIN_PARTIAL 1 else s

/-- An instance by its number, where it stands. -/
def State.onInst (s : State) (id : Nat) (k : Inst → State → State) : State :=
  match s.inst id with
  | some x => k x s
  | none => s

/-- An open instance whose receivers have all accepted their last slab closes (R138). -/
def State.instDone (s : State) (x : Inst) : State :=
  if x.isOpen && x.recv.all (fun r => decide (r.pos ≥ x.len)) then s.closeInst x else s

/-! ### Tile-store ports (R144 to R148) -/

/-- The bank of a byte offset: its slice and its bank in the slice (R142). -/
def tileBank (off : Nat) : Nat × Nat := (off / 2 ^ 21, off / 64 % 16)

/-- The direction of a port: the loader and DRAIN read, FILL writes, the vector engine does either (Table 5-5). -/
def portMay (r : PortReq) : Bool :=
  match r.port with
  | 0 | 3 => r.wdata.isNone
  | 2 => r.wdata.isSome
  | 1 => true
  | _ => false

/-- Lines that a port moves in one step. -/
def portLines (p : Nat) : Nat := if p = 1 then 16 else 8

/-- The requests a port makes of the banks in this step: its first lines, and for the vector engine those of one direction. -/
def portNow (reqs : List PortReq) (p : Nat) : List PortReq :=
  match reqs.filter fun r => r.port == p with
  | [] => []
  | r :: rs => ((r :: rs).filter fun x => x.wdata.isSome == r.wdata.isSome).take (portLines p)

/-- Ports in the order a bank serves them: one that has waited eight steps in a row first, then as the table stands. -/
def portOrder (waits : List Nat) : List Nat :=
  let late := (List.range 4).filter fun p => decide (waits.getD p 0 ≥ 8)
  late ++ (List.range 4).filter fun p => !late.contains p

/-- The requests served: for each bank the first of the first port in order. -/
def portsServed (waits : List Nat) (reqs : List PortReq) : List PortReq :=
  ((portOrder waits).flatMap fun p => portNow reqs p).foldl (fun out r =>
    if out.any fun o => tileBank o.off == tileBank r.off then out else out ++ [r]) []

/-- One line read or written. -/
def State.portLine (s : State) (w : Nat) (r : PortReq) : State :=
  let a := tileAddr w (r.off / 64 * 64)
  match r.wdata with
  | some bs => (s.writeBytes a (bs.take 64)).injWrite 0 a 2
  | none =>
    let m := (Master.mk 1 w).code
    let s := (s.checkRead a 64 m atRead).lineRead w a r.errs m atRead
    s.ladleReturn a 64

/-- One step of the ports, while the tile store's domain lets it step (R42, R45). Offsets beyond 6 MiB and a tile store whose domain
is margin-exhausted are refused (R143, R148). -/
def State.tileStep (s : State) (w : Nat) (reqs : List PortReq) : State :=
  let bad := fun (r : PortReq) => decide (r.off ≥ tileSize) || !s.tileUp w
  let s0 := foldS (reqs.filter bad) (fun r s =>
    s.accessErr (tileAddr w r.off) (Master.mk 1 w) (if r.wdata.isSome then atWrite else atRead)) s
  let good := reqs.filter fun r => !bad r
  let waits := (s.wing w).waits
  if s.held (6 * w + 5) ∧ s.tileUp w then s0 else
  let now := portsServed waits good
  let wait := (List.range 4).map fun p =>
    if (portNow good p).any fun r => !now.contains r then waits.getD p 0 + 1 else 0
  let s1 := foldS now (fun r s => s.portLine w r) s0
  s1.setWing w { s1.wing w with waits := wait }

/-! ### Hangs and stitch crossings -/

/-- A wing that has held a slab in every masked FIFO for HANG_US without a step, and is held by nothing (R116). -/
def State.wingHang (s : State) (w : Nat) : State :=
  match (s.wing w).stepJob with
  | none => s
  | some m =>
    let full := m.arrs.all fun a => decide (((s.wing w).fifo.getD a []).length ≥ m.mode.wBytes)
    let held := (List.range 4).any fun a => s.held (6 * w + a)
    if s.wingState w = 3 ∧ full ∧ !held then s.raise (srcOf w 5) ⟨0, (Master.mk 1 w).code, 0⟩ else s

/-- A stitch crossing resends a token after an illegal code (R126). -/
def State.stitchError (s : State) (x : Nat) : State :=
  (s.setF F.RUN_STATUS_STITCH_ERR 1).raise (srcOf 65 x) ⟨0, (Master.mk 1 64).code, 0⟩

end Sys2Proof.Machine
end

