-- ==== Sys2Proof/Machine/Mgmt.lean ====
section
/-! DEFINITION. The management port (R401 to R411), its sessions and commands, image updates (R423, R432, R433), the time base's
corrections (R395), the operating system's rings (R408), neighbour discovery and echo (R402), and the SMBus target (R412, R413). -/

namespace Sys2Proof.Machine

def State.setMgt (s : State) (x : MgtSt) : State := { s with mgt := x }

/-- Whether the management lane and the SMBus target are served: from stage 2 on, and while STOPPED or TRIPPED (R409). In BLANK no
keel runs (Table 15-10). -/
def State.keelUp (s : State) : Bool := s.lcs != 0 && (decide (2 ≤ s.stage) || s.pwrState == 4 || s.pwrState == 5)

/-! ### Replies (R403) -/

/-- A message in fragments of 60 bytes (R411). -/
def fragments (num : Nat) (bs : List Byte) : List (List Byte) :=
  let n := (bs.length + 59) / 60
  (List.range n).map fun i =>
    let d := cut bs (60 * i) 60
    leBytes 1 i ++ leBytes 1 n ++ beBytes 2 num ++ d ++ List.replicate (60 - d.length) 0

/-- A message leaves by the path its command came (R411). -/
def State.mgtSend (s : State) (via : Option Nat) (bs : List Byte) : State :=
  match via with
  | none => s.send (.mgt bs)
  | some src =>
    let n := s.mgt.msgNo
    let s := s.setMgt { s.mgt with msgNo := (n + 1) % 65536 }
    s.issue ((fragments n bs).map fun p => mkReq src 3 p .none)

/-- A message: header of Table 14-7, body and tag; outside a session the tag is zero. -/
def mgtBytes (x : Option Sess) (type session counter status : Nat) (body : List Byte) : List Byte :=
  let head := beBytes 2 0x4742 ++ beBytes 1 1 ++ beBytes 1 type ++ beBytes 4 session ++ beBytes 8 counter ++ beBytes 2 body.length ++
    beBytes 1 status ++ beBytes 1 0
  let tag := match x with
    | some k => numBytes (Config.hmac384 k.keyOut (nats (head ++ body))) 48
    | none => List.replicate 48 0
  head ++ body ++ tag

/-! ### Sessions (R404, R405) -/

/-- CRU_MGT_STAT.SESSIONS counts the open ones. -/
def State.sessStat (s : State) : State := s.setF F.CRU_MGT_STAT_SESSIONS (s.mgt.sess.filter Sess.opened).length
def State.sess (s : State) (id : Nat) : Option Sess := s.mgt.sess.find? fun x => x.id == id
def State.putSess (s : State) (x : Sess) : State :=
  (s.setMgt { s.mgt with sess := s.mgt.sess.map fun y => if y.id = x.id then x else y }).sessStat
def State.dropSess (s : State) (p : Sess → Bool) : State :=
  (s.setMgt { s.mgt with sess := s.mgt.sess.filter fun x => !p x }).sessStat

/-- The roles a client certificate gives now (R404): an OPERATOR_CLIENT whose chain starts at an installed root. -/
def State.clientRoles (s : State) (cert : List Byte) : Nat :=
  if certKind cert ≠ 6 then 0 else match s.chainOf cert with
    | .operator r => r % 4
    | _ => 0

/-- A failed tag: discarded, counted; sixteen in a row within a second raise source 82/2 (R437). -/
def State.tagFail (s : State) : State :=
  let s := s.bump F.CRU_MGT_CNT_TAG_FAIL
  let l := (s.mgt.storm ++ [s.now])
  if l.length < 16 then s.setMgt { s.mgt with storm := l }
  else if s.now - l.headD 0 ≤ 1000000000 then (s.setMgt { s.mgt with storm := [] }).raise (srcOf 82 2) ⟨0, Master.sp.code, 0⟩
  else s.setMgt { s.mgt with storm := l.drop 1 }

/-- An identity that is not 0 and not in use, from a drawn one upwards. -/
def State.newId (s : State) (d : Nat) : Nat :=
  ((List.range 66).map fun k => (d + k) % 2 ^ 32).find? (fun i => i != 0 && (s.sess i).isNone) |>.getD 1

def State.helloReply (s : State) (h : MgtHdr) (status : Nat) (body : List Byte) (id : Nat) : State :=
  let s := if status = 2 then s.bump F.CRU_MGT_CNT_BUSY else s
  s.mgtSend h.via (mgtBytes none 0x81 id h.counter status body)

/-- HELLO (R404, R405). -/
def State.hello (s : State) (h : MgtHdr) (key nonce cert : List Byte) : State :=
  let sec := s.now / 1000000000
  let n := if s.mgt.hellos.1 = sec then s.mgt.hellos.2 else 0
  let s := s.setMgt { s.mgt with hellos := (sec, n + 1) }
  if 20 ≤ n then s
  else if !h.lenOk then s.helloReply h 3 [] 0
  else if s.lcs = 5 ∨ s.clientRoles cert = 0 then s.helloReply h 1 [] 0
  else
    let idle := s.mgt.sess.filter fun x => decide (10000000000 ≤ s.now - x.used)
    let s := if s.mgt.sess.length < 64 then s else
      match idle with
      | [] => s
      | x :: xs =>
        let old := xs.foldl (fun (b : Sess) (y : Sess) => if y.used < b.used then y else b) x
        s.dropSess fun y => y.id == old.id
    if 64 ≤ s.mgt.sess.length then s.helloReply h 2 [] 0
    else
      let (priv, s) := s.draw
      let (n0, s) := s.draw
      let (n1, s) := s.draw
      let (n2, s) := s.draw
      let (n3, s) := s.draw
      let (d, s) := s.draw
      let id := s.newId d
      let idx := ((List.range 64).find? fun i => !(s.mgt.sess.any fun x => x.idx == i)).getD 0
      let mine := numBytes (Config.ecdhPublic priv) 97 ++ beBytes 8 n0 ++ beBytes 8 n1 ++ beBytes 8 n2 ++ beBytes 8 n3 ++ beBytes 4 id
      let tr := nats (key ++ nonce ++ cert ++ mine)
      let th := Config.sha384 tr
      let sh := Config.ecdhShared priv (nats key)
      let x : Sess := { id := id, idx := idx, roles := s.clientRoles cert, cert := cert, transcript := tr
                        keyIn := Config.kdf sh th 0, keyOut := Config.kdf sh th 1, used := s.now }
      let s := (s.setMgt { s.mgt with sess := s.mgt.sess ++ [x] }).sessStat
      s.helloReply h 0 (mine ++ numBytes (Config.ecdsaSign s.alias tr) 96) id

/-- FINISH (R404): the client's signature over the transcript opens the session; one that fails ends the opening. -/
def State.finish (s : State) (h : MgtHdr) (sig : List Byte) : State :=
  match s.sess h.session with
  | none => s
  | some x =>
    if x.opened then s
    else if h.lenOk ∧ Config.ecdsaVerify (certKey x.cert) x.transcript (nats sig) then
      let x := { x with opened := true, used := s.now, last := h.counter }
      (s.putSess x).mgtSend h.via (mgtBytes (some x) 0x83 x.id h.counter 0 [])
    else s.dropSess fun y => y.id == x.id

/-! ### Bodies -/

/-- Highest die temperature and the like are shown by registers; whether an Eyespot group has an active source: one asserted,
quiet or latched. -/
def State.groupActive (s : State) (k : Nat) : Bool :=
  s.regs.any fun e => e.1.name == .EYE_SRC_STAT && e.1.i / 16 == k && getBits e.2 0 3 != 0

/-- The body of STATUS (Table 14-10). -/
def State.statusBody (s : State) : List Byte :=
  let wings := (List.range 64).foldl (fun a w => if s.wingState w = 2 ∨ s.wingState w = 3 then a + 2 ^ w else a) 0
  let ports := (List.range 16).foldl (fun a p => if s.usable p then a + 2 ^ p else a) 0
  let groups := fun (lo : Nat) => (List.range 64).foldl (fun a k => if s.groupActive (lo + k) then a + 2 ^ k else a) 0
  beBytes 8 s.now ++ beBytes 1 s.stage ++ beBytes 1 s.lcs ++ beBytes 2 (s.f F.THM_STATUS_TJ_MAX) ++ beBytes 2 (s.f F.THM_SENS_TEMP 98) ++
    beBytes 2 (s.f F.PWR_IN_POWER_W) ++ beBytes 2 (s.f F.PWR_CAP_IN_FORCE_W) ++ beBytes 1 (s.f F.EYE_PIN_HB_RUN) ++
    beBytes 1 (s.f F.EYE_PIN_ALERT + 2 * s.f F.EYE_PIN_SECALERT) ++ beBytes 8 wings ++ beBytes 2 ports ++ beBytes 2 s.self ++
    beBytes 8 (groups 0) ++ beBytes 8 (groups 64) ++ beBytes 4 (s.f F.CRU_RESET_COUNT)

/-- The body of IDENT (Table 14-8, R428); in SCRAPPED no alias certificate is issued (Table 15-12). -/
def State.identBody (s : State) : List Byte :=
  beBytes 4 ((s.rd .CRU_ID).toNat % 2 ^ 32) ++ beBytes 8 serialNo ++ beBytes 1 s.lcs ++ beBytes 1 0 ++ beBytes 2 s.self ++
    (if s.sec.withdrawn then [] else numBytes (Config.certChain s.alias) 1120)

/-- A log record as bytes (log entry 58): 32 for the wear log, 64 for the Eyespot log. -/
def WearRec.bytes (r : WearRec) : List Byte :=
  beBytes 8 r.time ++ beBytes 4 r.hours ++ beBytes 2 r.domain ++ beBytes 1 r.kind ++ beBytes 1 r.before ++ beBytes 1 r.after ++
    beBytes 1 (ofSigned 8 r.slack) ++ beBytes 2 r.vcore ++ beBytes 2 (ofSigned 16 r.tj) ++ beBytes 1 r.erosion ++ beBytes 1 0 ++
    beBytes 4 r.holds ++ beBytes 4 r.shadow

def EyeRec.bytes (r : EyeRec) : List Byte :=
  let x := beBytes 2 r.src ++ beBytes 1 r.cls ++ beBytes 1 r.cap.atype ++ beBytes 8 r.time ++ beBytes 8 r.cap.addr ++ beBytes 2 r.cap.master ++
    beBytes 2 (ofSigned 16 r.tj) ++ beBytes 2 r.vcore ++ beBytes 2 r.rate ++ (r.extra.take 8).flatMap fun v => beBytes 4 (ofSigned 32 v)
  x ++ List.replicate (64 - x.length) 0

/-- Up to 1 KiB of a log from a given record (R406). -/
def State.logBody (s : State) (eye : Bool) (first count : Nat) : List Byte :=
  if eye then ((s.eye.log.drop first).take (min count 16)).flatMap EyeRec.bytes
  else ((s.margin.wear.drop first).take (min count 32)).flatMap WearRec.bytes

/-! ### The time base (R394, R395) -/

/-- REMAIN_NS shows the offset still to slew, saturating. -/
def State.setRemain (s : State) (r : Int) : State :=
  (s.setMgt { s.mgt with remain := r }).setF F.CRU_TIME_STAT_REMAIN_NS (ofSigned 32 (satSigned 32 r))

/-- ADJUST: a slew, or a step with notice 3. A second one replaces what remains (Table 14-12). -/
def State.adjust (s : State) (off : Int) : State :=
  let step := decide (off > 1000000) || (decide (off < -1000000) && s.f F.QE_CTRL_DISPATCH_EN == 0)
  if step then
    let t := s.setF F.CRU_TIME_NOW ((s.now : Int) + off).toNat
    ((t.setRemain 0).setF F.CRU_TIME_STAT_STATE 2).notice 3
  else
    let s := { s with mgt := { s.mgt with slew := 0 } }
    (s.setRemain off).setF F.CRU_TIME_STAT_STATE (if off = 0 then 2 else 1)

/-- The offset is absorbed. -/
def State.slewDone (s : State) : State :=
  if s.f F.CRU_TIME_STAT_STATE = 1 ∧ s.mgt.remain = 0 then s.setF F.CRU_TIME_STAT_STATE 2 else s

/-- One nanosecond of the time base (log entry 1): while slewing one nanosecond more or less every 10,000, which is 100 ppm. -/
def State.tick (s : State) : State :=
  let k := s.mgt.slew + 1
  if s.f F.CRU_TIME_STAT_STATE = 1 ∧ s.mgt.remain ≠ 0 ∧ 10000 ≤ k then
    let up := decide (s.mgt.remain > 0)
    let s := { s with mgt := { s.mgt with slew := 0 } }
    let s := s.setRemain (if up then s.mgt.remain - 1 else s.mgt.remain + 1)
    if up then s.setF F.CRU_TIME_NOW ((s.now + 2) % 2 ^ 64) else s
  else ({ s with mgt := { s.mgt with slew := k % 10000 } }).setF F.CRU_TIME_NOW ((s.now + 1) % 2 ^ 64)

/-! ### Commands (R406 to R410, R423, R432 to R434) -/

/-- Whether a block that a command reads or writes is up (R407, Table 14-9): those on standby power always, the others from the
end of stage 3 with the main rails on. -/
def State.blockUp (s : State) (a : Nat) : Bool :=
  decide (a < 0xF00004000000) || ((s.pwrState == 2 || s.pwrState == 3) && s.f F.CRU_BOOT_FUSE_DONE == 1)

/-- A command and its operands. -/
inductive MgtOp where
  | status | readReg (a : Nat) | writeReg (a v : Nat) | readLog (eye : Bool) (first count : Nat) | measure | adjust (off : Int)
  | reset | cap (w : Nat) | imgBegin (cls total : Nat) | imgChunk (cls off : Nat) (data : List Byte) | imgEnd (cls : Nat)
  | imgCancel (cls : Nat) | bye | unknown (type : Nat)
  deriving DecidableEq, Repr

def MgtOp.type : MgtOp → Nat
  | .status => 0x10 | .readReg _ => 0x11 | .writeReg _ _ => 0x12 | .readLog _ _ _ => 0x13 | .measure => 0x14 | .adjust _ => 0x14
  | .reset => 0x15 | .cap _ => 0x16 | .imgBegin _ _ => 0x17 | .imgChunk _ _ _ => 0x17 | .imgEnd _ => 0x17 | .imgCancel _ => 0x17
  | .bye => 0x18 | .unknown t => t

/-- Whether the MONITOR role suffices (Table 14-8). -/
def MgtOp.monitor : MgtOp → Bool
  | .status | .readReg _ | .readLog _ _ _ | .bye | .unknown _ => true
  | _ => false

/-- What a command answers: status, body, the state, and what is done after the reply has left. -/
structure MgtAns where
  status : Nat
  body : List Byte
  s : State
  close : Bool := false
  roots : Bool := false
  life : Option Nat := none
  reset : Option Bool := none
  deriving DecidableEq, Repr

def State.ans (s : State) (status : Nat) (body : List Byte) : MgtAns := { status := status, body := body, s := s }

/-- The body of a command that may clamp (R407): byte 0 with bit 0. -/
def clampBody (c : Bool) : List Byte := [if c then 1 else 0]

/-- The reply to an IMAGE (R423): byte 1 holds the cause. -/
def State.imgAns (s : State) (status cause : Nat) : MgtAns := s.ans status (leBytes 1 0 ++ leBytes 1 cause)

def State.dropXfer (s : State) : State := s.setSec { s.sec with xfer := none }

/-- A verified object takes effect (R424, R432, R433, R436). `cls` is its class, `p` its payload. -/
def State.imgAccept (s : State) (cls : Nat) (o : List Byte) : MgtAns :=
  let p := objPayload o
  if cls ≤ 3 then (s.installPending cls o).imgAns 0 0
  else if cls = 4 then
    let l := (rootList p).getD []
    if s.lcs = 2 then { (s.tokenOk.installRoots l).imgAns 0 0 with life := some 3 }
    else { (s.installRoots l).imgAns 0 0 with roots := true }
  else
    let s := s.tokenOk
    let kind := leNat (cut p 0 1)
    if kind = 5 then
      let x := leNat (cut p 1 1) % 4
      (s.openScopes (if s.lcs = 3 then x % 2 else x)).imgAns 0 0
    else { s.imgAns 0 0 with life := some ([0, 2, 4, 2, 5].getD kind 0) }

/-- IMAGE END (R421, R423). -/
def State.imgEnd (s : State) (cls : Nat) (op : Bool) : MgtAns :=
  match s.sec.xfer with
  | none => s.imgAns 3 0
  | some x =>
    if x.cls ≠ cls then s.imgAns 3 0 else
    let s := s.dropXfer
    let cause := if x.data.length ≠ x.total then 9 else s.verify cls x.data op
    if cause = 0 then s.imgAccept cls x.data else (s.objectDenied cls cause).imgAns 1 cause

/-- RESET (R406, R505, Table 14-12). -/
def State.mgtReset (s : State) : MgtAns :=
  if s.pwrState = 3 then s.ans 4 []
  else if s.pwrState = 4 ∨ s.pwrState = 5 then
    if s.restartOk then { (s.notice 4).ans 0 [] with reset := some true } else (s.setF F.PWR_STATE_RESTART_REFUSED 1).ans 4 []
  else { (s.notice 4).ans 0 [] with reset := some false }

/-- The effect of a command that its session may give; `idx`: its session's index. -/
def State.mgtDo (s : State) (idx : Nat) (op : Bool) (c : MgtOp) : MgtAns :=
  let m : Master := ⟨5, idx⟩
  match c with
  | .status => s.ans 0 s.statusBody
  | .readReg a =>
    if (ctlBlock a).isSome ∧ !s.blockUp a then s.ans 4 []
    else match s.ctlRead a 8 m with
      | (some v, s) => s.ans 0 (beBytes 8 v)
      | (none, s) => s.ans 5 []
  | .writeReg a v =>
    if (ctlBlock a).isSome ∧ !s.blockUp a then s.ans 4 []
    else match s.ctlWrite a 8 v m with
      | (some cl, s) => s.ans 0 (clampBody cl)
      | (none, s) => s.ans 5 []
  | .readLog eye first n => s.ans 0 (s.logBody eye first n)
  | .measure => s.ans 0 (beBytes 8 s.now ++ beBytes 8 s.now)
  | .adjust off => (s.adjust off).ans 0 []
  | .reset => s.mgtReset
  | .cap w => ((s.capWrite w).notice 2).ans 0 (clampBody (decide (w < 1200 ∨ 2600 < w)))
  | .imgBegin cls total =>
    if s.sec.xfer.isSome then (s.bump F.CRU_MGT_CNT_BUSY).imgAns 2 0
    else (s.setSec { s.sec with xfer := some { cls := cls, total := total, last := s.now } }).imgAns 0 0
  | .imgChunk cls off data =>
    match s.sec.xfer with
    | none => s.imgAns 3 0
    | some x =>
      let s := s.setSec { s.sec with xfer := some { x with last := s.now } }
      if x.cls ≠ cls ∨ off ≠ x.data.length ∨ data.isEmpty ∨ 1024 < data.length then s.imgAns 3 0
      else (s.setSec { s.sec with xfer := some { x with data := x.data ++ data, last := s.now } }).imgAns 0 0
  | .imgEnd cls => s.imgEnd cls op
  | .imgCancel cls => match s.sec.xfer with
    | some x => if x.cls = cls then s.dropXfer.imgAns 0 0 else s.imgAns 3 0
    | none => s.imgAns 3 0
  | .bye => { s.ans 0 [] with close := true }
  | .unknown _ => s.ans 3 []

/-- What follows the reply: the session closes, sessions that have lost their root close (R433), a state change (R435), a reset. -/
def State.mgtAfter (s : State) (id : Nat) (r : MgtAns) : State :=
  let s := if r.close then s.dropSess fun x => x.id == id else s
  let s := if r.roots then s.dropSess fun x => s.clientRoles x.cert == 0 else s
  let s := match r.life with
    | some t => s.lifeChange t
    | none => s
  match r.reset with
  | some true => s.restart 2
  | some false => s.moduleReset 2
  | none => s

/-- A voucher's IMAGE outside a session (R433): class 4 in SEALED. -/
def MgtOp.voucher : MgtOp → Bool
  | .imgBegin c _ | .imgChunk c _ _ | .imgEnd c | .imgCancel c => c == 4
  | _ => false

/-- What arrives beyond the load of R409 is answered BUSY. -/
def State.loaded (s : State) : Bool × State :=
  let sec := s.now / 1000000000
  let n := if s.mgt.load.1 = sec then s.mgt.load.2 else 0
  (decide (20000 ≤ n), s.setMgt { s.mgt with load := (sec, n + 1) })

/-- A message to the management port: discarded where the lane is off or VERSION is unknown. -/
def State.mgtArrive (s : State) (h : MgtHdr) (k : State → State) (busy : State → State) : State :=
  if !s.keelUp then s
  else if h.version ≠ 1 then s.bump F.CRU_MGT_CNT_FRAME_DROP
  else
    let z := s.loaded
    if z.1 then busy (z.2.bump F.CRU_MGT_CNT_BUSY) else k z.2

/-- A command outside a session. -/
def State.mgtBare (s : State) (h : MgtHdr) (c : MgtOp) : State :=
  let say := fun (s : State) (st : Nat) (b : List Byte) => s.mgtSend h.via (mgtBytes none (c.type + 0x80) 0 h.counter st b)
  if !h.lenOk then say s 3 []
  else
    let r := s.mgtDo 0xFFE false c
    (say r.s r.status r.body).mgtAfter 0 r

/-- A command of a session (R405): cached replies, old counters, roles, lengths; then its effect and its reply. -/
def State.mgtSess (s : State) (h : MgtHdr) (x : Sess) (c : MgtOp) : State :=
  match x.cache.find? fun e => e.1 == h.counter with
  | some e => s.mgtSend h.via e.2
  | none =>
    if h.counter ≤ x.last then s.bump F.CRU_MGT_CNT_STALE
    else
      let x := { x with last := h.counter, used := s.now }
      let s := s.putSess x
      let oper := hasRole x.roles 1
      let r := if s.lcs = 5 ∧ c ≠ .status then s.ans 1 []
        else if !(c.monitor || oper) then s.ans 1 []
        else if !h.lenOk then s.ans 3 []
        else s.mgtDo x.idx oper c
      let bs := mgtBytes (some x) (c.type + 0x80) x.id h.counter r.status r.body
      let s := r.s
      let s := match s.sess x.id with
        | some y => s.putSess { y with cache := ((h.counter, bs) :: y.cache).take 16 }
        | none => s
      (s.mgtSend h.via bs).mgtAfter x.id r

/-- A command of Table 14-8 other than IDENT, HELLO and FINISH. -/
def State.mgtCmd (s : State) (h : MgtHdr) (c : MgtOp) : State :=
  let say := fun (s : State) => match s.sess h.session with
    | some x => s.mgtSend h.via (mgtBytes (some x) (c.type + 0x80) x.id h.counter 2 [])
    | none => s.mgtSend h.via (mgtBytes none (c.type + 0x80) 0 h.counter 2 [])
  s.mgtArrive h (fun s =>
    if h.session = 0 ∧ ((c.voucher ∧ s.lcs = 2) ∨ (s.lcs = 5 ∧ c = .status)) then s.mgtBare h c
    else
      match (s.sess h.session).filter Sess.opened with
      | none => s.tagFail
      | some x =>
        if !h.tagOk then s.tagFail
        else (s.setMgt { s.mgt with storm := [] }).mgtSess h x c) say

def State.ident (s : State) (h : MgtHdr) : State :=
  s.mgtArrive h (fun s => s.mgtSend h.via (mgtBytes none 0xA0 h.session h.counter (if h.lenOk then 0 else 3) (if h.lenOk then s.identBody else [])))
    fun s => s.mgtSend h.via (mgtBytes none 0xA0 h.session h.counter 2 [])

def State.mgtHello (s : State) (h : MgtHdr) (key nonce cert : List Byte) : State :=
  s.mgtArrive h (fun s => s.hello h key nonce cert) fun s => s.mgtSend h.via (mgtBytes none 0x81 0 h.counter 2 [])

def State.mgtFinish (s : State) (h : MgtHdr) (sig : List Byte) : State :=
  s.mgtArrive h (fun s => s.finish h sig) fun s => s.mgtSend h.via (mgtBytes none 0x83 h.session h.counter 2 [])

/-- Sixty seconds without an IMAGE command (R423). -/
def State.xferTimeout (s : State) : State := s.dropXfer

/-- 300 s without a command (R405). -/
def State.idleClose (s : State) (id : Nat) : State := s.dropSess fun x => x.id == id

/-! ### Messages over the fabric (R411; body layouts of log entry 59) -/

/-- The body of a command other than IDENT, HELLO and FINISH; `none` where its length is wrong. -/
def mgtBody (type : Nat) (b : List Byte) : MgtOp × Bool :=
  let n := b.length
  let num := fun (o k : Nat) => beNat (cut b o k)
  match type with
  | 0x10 => (.status, n == 0)
  | 0x11 => (.readReg (num 0 8), n == 8)
  | 0x12 => (.writeReg (num 0 8) (num 8 8), n == 16)
  | 0x13 => (.readLog (num 0 1 == 1) (num 4 4) (num 2 2), n == 8)
  | 0x14 => if num 0 1 = 0 then (.measure, n == 1) else (.adjust (toSigned 64 (num 1 8)), n == 9)
  | 0x15 => (.reset, n == 0)
  | 0x16 => (.cap (num 0 2), n == 2)
  | 0x17 =>
    let cls := num 1 1
    if num 0 1 = 0 then (.imgBegin cls (num 4 4), n == 12)
    else if num 0 1 = 1 then (.imgChunk cls (num 4 4) (b.drop 12), n == 12 + num 8 2)
    else if num 0 1 = 2 then (.imgEnd cls, n == 12)
    else (.imgCancel cls, n == 12 && num 0 1 == 3)
  | 0x18 => (.bye, n == 0)
  | t => (.unknown t, true)

/-- A whole message as bytes, as if it had arrived on the port. -/
def State.mgtMessage (s : State) (via : Option Nat) (bs : List Byte) : State :=
  let n := beNat (cut bs 16 2)
  if bs.length < 68 ∨ beNat (cut bs 0 2) ≠ 0x4742 ∨ bs.length < 68 + n then s.bump F.CRU_MGT_CNT_FRAME_DROP
  else
    let type := beNat (cut bs 3 1)
    let id := beNat (cut bs 4 4)
    let body := cut bs 20 n
    let tag := nats (cut bs (20 + n) 48)
    let good := match s.sess id with
      | some x => decide (Config.hmac384 x.keyIn (nats (bs.take (20 + n))) = tag)
      | none => false
    let h : MgtHdr := { via := via, version := beNat (cut bs 2 1), session := id, counter := beNat (cut bs 8 8), tagOk := good, lenOk := true }
    if type = 0x20 then s.ident { h with lenOk := n == 0 }
    else if type = 0x01 then s.mgtHello { h with lenOk := n == 97 + 32 + 280 } (cut body 0 97) (cut body 97 32) (cut body 129 280)
    else if type = 0x03 then s.mgtFinish { h with lenOk := n == 96 } body
    else let c := mgtBody type body; s.mgtCmd { h with lenOk := c.2 } c.1

/-- The oldest management cell of a source joins its message; the last fragment completes it. -/
def State.fragment (s : State) (src : Nat) : State :=
  match s.fab.inbox.find? fun c => c.src == src && c.cls == 3 with
  | none => s
  | some c =>
    let s := s.takeCells [c]
    let i := cellByte c 0
    let n := cellByte c 1
    let num := beNat (cut c.payload 2 2)
    let d := (c.payload.drop 4).take 60
    if !s.keelUp ∨ n = 0 ∨ n ≤ i then s
    else
      let x : MgtFrag := (s.mgt.frags.find? fun f => f.src == src && f.num == num).getD { src := src, num := num, count := n, time := s.now }
      let x : MgtFrag := { x with parts := mset x.parts i d }
      let rest := s.mgt.frags.filter fun f => !(f.src == src && f.num == num)
      if x.parts.length < x.count then s.setMgt { s.mgt with frags := rest ++ [x] }
      else (s.setMgt { s.mgt with frags := rest }).mgtMessage (some src) ((List.range x.count).flatMap fun k => mgetD x.parts k [])

/-- Ten milliseconds have passed since a message's first fragment. -/
def State.fragTimeout (s : State) (src num : Nat) : State :=
  s.setMgt { s.mgt with frags := s.mgt.frags.filter fun f => !(f.src == src && f.num == num) }

/-! ### The lane (R401, R402, R408) -/

def State.linkChange (s : State) (up : Bool) : State := s.setF F.CRU_MGT_STAT_LINK_UP (if up && s.keelUp then 1 else 0)

def State.osSlots (s : State) : Nat := 2 ^ s.f F.CRU_MGT_OSQ_LOG2_SLOTS
def State.osOn (s : State) : Bool := s.f F.CRU_MGT_OSQ_ENABLE == 1 && s.f F.CRU_MGT_OSQ_BASE != 0

/-- A frame for the operating system (R401, R408): a MAC control frame is discarded, an oversize one discarded and counted, as is
one that finds its ring full. -/
def State.osReceive (s : State) (frame : List Byte) (control full : Bool) : State :=
  if !s.keelUp ∨ control then s
  else if 1518 < frame.length then s.bump F.CRU_MGT_CNT_FRAME_DROP
  else if !s.osOn then s
  else if full then s.bump F.CRU_MGT_CNT_FRAME_DROP
  else
    let a := s.f F.CRU_MGT_OSQ_BASE + s.mgt.osRx % s.osSlots * 2048
    if !s.inHbm a 2048 then (s.bump F.CRU_MGT_CNT_FRAME_DROP).accessErr a ⟨5, 0xFFF⟩ atWrite
    else
    let s := s.store a frame
    (s.setMgt { s.mgt with osRx := (s.mgt.osRx + 1) % s.osSlots }).irq 385

/-- The next frame of the transmit ring, of `n` bytes, leaves. -/
def State.osTransmit (s : State) (n : Nat) : State :=
  if !s.keelUp ∨ !s.osOn ∨ 1518 < n then s
  else
    let a := s.f F.CRU_MGT_OSQ_BASE + (s.osSlots + s.mgt.osTx % s.osSlots) * 2048
    if !s.inHbm a 2048 then s.accessErr a ⟨5, 0xFFF⟩ atRead
    else if !s.readNow a n 0 then s
    else
    let s := s.checkRead a n Master.sp.code atRead
    (s.send (.frame (s.readBytes a n))).setMgt { s.mgt with osTx := (s.mgt.osTx + 1) % s.osSlots }

/-- The interface identifier formed from the MAC address (R402): the modified EUI-64. -/
def State.eui (s : State) : List Byte :=
  let m := beBytes 6 (s.f F.CRU_MGT_MAC_MAC)
  ((m.take 1).map fun b => b ^^^ 2) ++ cut m 1 2 ++ [0xFF, 0xFE] ++ cut m 3 3

/-- The addresses the port answers: the link-local one and up to four autoconfigured. -/
def State.ownAddrs (s : State) : List (List Byte) := ([0xFE, 0x80] ++ List.replicate 6 0 ++ s.eui) :: s.mgt.addrs

/-- A packet with extension headers or in fragments is discarded (R402). -/
def State.ipv6 (s : State) (ext : Bool) (k : State → State) : State :=
  if !s.keelUp then s else if ext then s.bump F.CRU_MGT_CNT_FRAME_DROP else k s

/-- A router advertisement of a 64-bit prefix. -/
def State.advert (s : State) (pre : List Byte) (ext : Bool) : State :=
  s.ipv6 ext fun s =>
    let a := pre.take 8 ++ s.eui
    if pre.length ≠ 8 ∨ s.mgt.addrs.contains a ∨ 4 ≤ s.mgt.addrs.length then s
    else (s.setMgt { s.mgt with addrs := s.mgt.addrs ++ [a] }).setF F.CRU_MGT_STAT_ADDR_GLOBAL 1

def State.neighbour (s : State) (target : List Byte) (ext : Bool) : State :=
  s.ipv6 ext fun s => if s.ownAddrs.contains target then s.send (.neighbour target (s.f F.CRU_MGT_MAC_MAC)) else s

def State.echo (s : State) (target data : List Byte) (ext : Bool) : State :=
  s.ipv6 ext fun s => if s.ownAddrs.contains target then s.send (.echo data) else s

/-! ### SMBus (R412, R413) -/

/-- A transaction: after stage 0, and with a right error code; a wrong one is noted and not acted on. -/
def State.smb (s : State) (pec : Bool) (k : State → State) : State :=
  if s.lcs = 0 ∨ !(decide (1 ≤ s.stage) || s.pwrState == 4 || s.pwrState == 5) then s
  else if !pec then s.setF F.CRU_SMB_STAT_PEC_ERR 1
  else k (s.bump F.CRU_SMB_STAT_TRANSACTIONS)

def State.smbIdentity (s : State) (pec : Bool) : State :=
  s.smb pec fun s => s.send (.smb (leBytes 4 ((s.rd .CRU_ID).toNat % 2 ^ 32) ++ leBytes 4 (serialNo % 2 ^ 32)))

def State.smbStatus (s : State) (pec : Bool) : State :=
  s.smb pec fun s => s.send (.smb (cut s.statusBody 8 12 ++ cut s.statusBody 48 4))

def State.smbPower (s : State) (pec : Bool) : State := s.smb pec fun s => s.send (.smb (leBytes 2 (s.f F.PWR_IN_POWER_W)))
def State.smbTj (s : State) (pec : Bool) : State := s.smb pec fun s => s.send (.smb (leBytes 2 (s.f F.THM_STATUS_TJ_MAX)))

/-- The stop request: 0xA5 alone acts; outside ON it is noted (R413, R503). -/
def State.smbStop (s : State) (v : Nat) (pec : Bool) : State :=
  s.smb pec fun s =>
    if v % 256 ≠ 0xA5 then s
    else if s.pwrState = 2 then s.orderlyStop 6
    else s.setF F.CRU_SMB_STAT_STOP_IGNORED 1

end Sys2Proof.Machine
end

