-- ==== Sys2Proof/Machine/Act.lean ====
section
/-! DEFINITION. The last operations that commands call: what has to hold for a command that is delivered when its time has come,
and which part of a unit it acts on. -/

namespace Sys2Proof.Machine

/-! ### Margin control (R51) -/

/-- The in-service rotation falls due (Table 2-6). -/
def State.temperRotation (s : State) : State :=
  if s.f F.MGN_TEMPER_PERIOD_H = 0 ∨ s.stage ≠ 13 then s else s.temperBegin 1 (List.range 408)

/-- A triggered pass on one domain (Table 2-6). -/
def State.temperTrigger (s : State) (d : Nat) : State :=
  if s.f F.MGN_DOM_TAP_PLANNED d + 8 ≤ s.f F.MGN_DOM_TAP_CURRENT d ∧ s.stage = 13 then s.temperBegin 2 [d] else s

/-! ### Wings -/

/-- The first load of a wing that may run (R105). -/
def State.loadNext (s : State) (w : Nat) : State :=
  match (s.wing w).jobs.findSome? fun j => match j with
    | .mat m => if s.loadReady w m then some m else none
    | .vec _ => none with
  | some m => s.loadTile w m
  | none => s

/-- The check of a column that awaits one; a failure stops the chain and forms the replay set (R109, R111). -/
def State.checkNow (s : State) (w a c : Nat) : State :=
  if !s.checkDue w a c then s else
  let z := s.checkCol w a c
  (if z.2 then z.1.failChain w a c else z.1).startRun w

/-- The epilogue whose group has been stepped starts (R107). -/
def State.startEpilogue (s : State) (w : Nat) : State :=
  match (s.wing w).vecTurn with
  | some (.epi _ _ _) => s.startRun w
  | _ => s

/-- One pattern instruction of the wing's run, which starts where none runs. -/
def State.patStep (s : State) (w : Nat) (op : PatOp) : State :=
  (if (s.wing w).run.isNone then s.startRun w else s).runInsn w op

/-- The reduction of a unit whose pattern has finished (R173). -/
def State.reduceNow (s : State) (w : Nat) : State :=
  match (s.wing w).run with
  | some r => if r.patDone ∧ !r.unitDone ∧ !s.held (6 * w + 4) then s.finishUnit w r else s
  | none => s

/-- The words of a stream descriptor (R128). -/
def streamWords (word : Nat) : RegName :=
  match word with
  | 0 => .RUN_STREAM_SRC
  | 1 => .RUN_STREAM_LEN
  | 2 => .RUN_STREAM_SHAPE
  | _ => .RUN_STREAM_WINGS

/-- A write of one word of a descriptor (R130, R131). -/
def State.descWrite (s : State) (i word value : Nat) (m : Master) : State :=
  let k : RegKey := ⟨streamWords word, i, 0⟩
  let v := value % 2 ^ 64
  s.regStore k { lo := 0, hi := 64, old := s.readReg k, word := v, ones := v, m := m }

/-! ### Memory -/

/-- A request to the ladle touches one line (R232). -/
def oneLine (a n : Nat) : Bool := decide (0 < n) && a / 128 == (a + n - 1) / 128

/-- Addresses a request may reach: local HBM outside the reserved regions, and for the firmware the control complex's own region;
the cores see it refused (R28, Table 14-2). -/
def State.lineBacked (s : State) (a n : Nat) (m : Master) : Bool :=
  s.inHbm a n || (m.cls == 5 && decide (a + n ≤ 0x10000000))

def State.readReq (s : State) (a n hint : Nat) (m : Master) : State :=
  if s.lineBacked a n m then s.ladleRead a n hint m.code else s.accessErr a m atRead

/-- A local write passes through the directory where it touches the coherent window (R343). -/
def State.writeReq (s : State) (a : Nat) (bs : List Byte) (hint : Nat) (m : Master) : State :=
  if !s.lineBacked a bs.length m then s.accessErr a m atWrite
  else
    let z := s.claimIf (s.inWindow a) a bs.length none
    if z.2 then z.1.ladleWrite a bs hint m.code else z.1

/-- A stack in service: READY or HOT. -/
def State.stackOn (s : State) (k : Nat) : Bool :=
  s.f F.FLK_MEM_STACK_STAT_STATE k == 2 || s.f F.FLK_MEM_STACK_STAT_STATE k == 3

/-- A per-bank refresh (R225, R238). -/
def State.refreshNow (s : State) (k : Nat) : State :=
  if s.stackOn k then { s with ms := { s.ms with refresh := mset s.ms.refresh k (mgetD s.ms.refresh k 0 + 1) } } else s

/-- A refresh-management request served (Table 8-1). -/
def State.rfmNow (s : State) (k : Nat) : State :=
  if s.stackOn k then { s with ms := { s.ms with rfm := mset s.ms.rfm k (mgetD s.ms.rfm k 0 + 1) } } else s

/-- Scrub reads of consecutive units, while scrub is on and the stack is READY (R242). -/
def State.scrubNow (s : State) (k : Nat) (errs : List Nat) : State :=
  if s.f F.FLK_MEM_CTRL_SCRUB_EN (k / 4) = 1 ∧ s.f F.FLK_MEM_STACK_STAT_STATE k = 2 then foldS errs (fun e s => s.scrubUnit k e) s else s

/-- A parity error and its retry; the third retry that fails begins a retraining (R243). -/
def State.parityError (s : State) (k : Nat) (retryOk : Bool) : State :=
  if !s.stackOn k then s else
  let s := s.bump F.FLK_MEM_STACK_ECC_PARITY_RETRY 1 k
  let n := mgetD s.ms.parity k 0 + 1
  if retryOk then { s with ms := { s.ms with parity := mset s.ms.parity k 0 } }
  else if 3 ≤ n then s.stackRetrain k
  else { s with ms := { s.ms with parity := mset s.ms.parity k n } }

/-- A PHY loses lock (R243). -/
def State.phyLoss (s : State) (k : Nat) : State := if s.stackOn k then s.stackRetrain k else s

/-- A retraining ends: READY (HOT where its case still is), or LOST (R238, R243). -/
def State.retrainDone (s : State) (k : Nat) (ok : Bool) : State :=
  if s.f F.FLK_MEM_STACK_STAT_STATE k ≠ 1 then s
  else if ok then
    if 950 ≤ s.fS F.THM_SENS_TEMP (74 + k) then s.setF F.FLK_MEM_STACK_STAT_STATE 3 k
    else (s.setF F.FLK_MEM_STACK_STAT_STATE 2 k).backOwed k
  else ((s.setF F.FLK_MEM_STACK_STAT_STATE 4 k).backOwed k).raiseLevel (srcOf (66 + k / 4) (4 + k % 4)) ⟨0, (Master.mk 2 (k / 4)).code, 0⟩

/-! ### Light engines and fabric -/

/-- What a nanosecond brings where no command waits: the time base counts and the port PHYs take units (R277, R395; log entry 1). -/
def State.idle (s : State) : State := foldS (List.range 16) (fun p s => s.phyTake p) s.tick

/-- The millisecond's measurements of a port (R290). -/
def State.rxAll (s : State) (p : Nat) (lines : List RxLine) (frame : Nat) : State :=
  foldS lines.zipIdx (fun (x : RxLine × Nat) (s : State) => if x.2 < 18 then s.rxLine p x.2 x.1 frame else s) s

/-- A received LSWAP_ABANDON ends the swap it names, in either direction (R293). -/
def State.recvAbandon (s : State) (p lane spare frame : Nat) (verify : Bool) : State :=
  let mine := fun (o : Option LSwap) => o.any fun w => w.lane == lane && w.spare == spare
  if mine (s.port p).tx then s.abandon p frame true false verify
  else if mine (s.port p).rx then s.abandon p frame false false verify
  else s

/-- A standby comb has not locked within 500 ms (R294). -/
def State.lockTimeout (s : State) (e : Nat) : State :=
  match mget s.le.swap e with
  | some w => if w.cutting then s else s.swapRefuse e
  | none => s

/-- A heater's code (R285), the field's sixteen ones taken as full code: above 95 % of it an event, and at full code a lock loss. -/
def State.heater (s : State) (p r code now : Nat) (reacquired : Bool) : State :=
  let c := min code 65535
  let s := s.setF F.LE_PORT_RING_HEATER c p r
  let s := if 19 * 65535 < 20 * c then s.setF F.LE_STATUS_HEATER_LIMIT 1 (p / 2) else s
  if c = 65535 then s.ringLoss p r now reacquired else s

/-- LACK has not advanced for 20 µs (R308). -/
def State.resendOldest (s : State) (p : Nat) : State :=
  match (s.link p).retry with
  | u :: _ => s.resend p u.lseq
  | [] => s

/-- ACK_DELAY_NS after an unacknowledged acceptance (R324). -/
def State.ackDelay (s : State) (peer c group : Nat) : State :=
  match mget s.fab.rx (peer, c, group) with
  | some x => if x.pend = 0 then s else s.sendAck peer c group
  | none => s

/-- Sizes of a core's accesses. -/
def coreSize (n : Nat) : Bool := n == 1 || n == 2 || n == 4 || n == 8

/-- A core load at any address of Table 14-2: control space, a tile store, local HBM, a tray address. -/
def State.coreLoad (s : State) (h a n : Nat) (cached : Bool) : State :=
  if 0xF00000000000 ≤ a then
    let z := s.ctlRead a n ⟨0, h⟩
    z.2.send (.core h (match z.1 with | some v => .data (leBytes n v) | none => .fault))
  else if tileBase ≤ a then s.ownLoad h a n 0 (s.backed a n) a
  else if a < hbmEnd then s.ownLoad h a n 0 (s.inHbm a n) a
  else s.trayLoad h a n cached

/-- A core store at any address of Table 14-2. -/
def State.coreStore (s : State) (h a : Nat) (bs : List Byte) (cached : Bool) : State :=
  if 0xF00000000000 ≤ a then
    let z := s.ctlWrite a bs.length (leNat bs) ⟨0, h⟩
    z.2.send (.core h (match z.1 with | some _ => .done | none => .fault))
  else if tileBase ≤ a then s.ownStore h a bs 0 (s.backed a bs.length) a
  else if a < hbmEnd then s.ownStore h a bs 0 (s.inHbm a bs.length) a
  else s.trayStore h a bs cached

/-- An occurrence of a source: a level source stays asserted (R441, R443). -/
def State.arise (s : State) (n : Nat) (c : Cap) : State :=
  if (srcDef n).any fun d => d.level == 1 then s.raiseLevel n c else s.raise n c

end Sys2Proof.Machine
end

