-- ==== Sys2Proof/Machine/CmdCollective.lean ====
section
/-! DEFINITION. The meanings of the commands of collective operations (R359 to R382). Each is one definition over a shared operation. -/

namespace Sys2Proof.Machine

/-- GROUP_ENABLE (R360). -/
def execGroupEnable (g : Nat) (m : Master) (s : State) : Host.Outcome State Fault Refusal :=
  onUnit (decide (g < 256)) (done (s.groupEnable g m))

/-- GROUP_DISABLE (R378). -/
def execGroupDisable (g : Nat) (_m : Master) (s : State) : Host.Outcome State Fault Refusal :=
  onUnit (decide (g < 256)) (done (s.groupDisable g))

/-- GROUP_DRAIN_TIMEOUT (R378). -/
def execGroupDrainTimeout (g : Nat) (s : State) : Host.Outcome State Fault Refusal :=
  onUnit (decide (g < 256)) (done (s.groupTimeout g))

/-- COL_GRP_CFG_WRITE (R382). -/
def execColGrpCfgWrite (g : Nat) (list : Bool) (value : Nat) (m : Master) (s : State) : Host.Outcome State Fault Refusal :=
  onUnit (decide (g < 256)) (done (s.groupCfg g list value m))

/-- ALL_REDUCE (R364). -/
def execAllReduce (q : Nat) (s : State) : Host.Outcome State Fault Refusal :=
  onUnit (decide (q < 256)) (done (s.dispatchHead q fun p => opIs 0x18 p && bitsAt (p.getD 2 0) 16 4 == 0))

/-- REDUCE_SCATTER (R364). -/
def execReduceScatter (q : Nat) (s : State) : Host.Outcome State Fault Refusal :=
  onUnit (decide (q < 256)) (done (s.dispatchHead q fun p => opIs 0x18 p && bitsAt (p.getD 2 0) 16 4 == 1))

/-- ALL_GATHER (R364). -/
def execAllGather (q : Nat) (s : State) : Host.Outcome State Fault Refusal :=
  onUnit (decide (q < 256)) (done (s.dispatchHead q fun p => opIs 0x18 p && bitsAt (p.getD 2 0) 16 4 == 2))

/-- REDUCE (R364). -/
def execReduce (q : Nat) (s : State) : Host.Outcome State Fault Refusal :=
  onUnit (decide (q < 256)) (done (s.dispatchHead q fun p => opIs 0x18 p && bitsAt (p.getD 2 0) 16 4 == 3))

/-- BROADCAST (R364). -/
def execBroadcast (q : Nat) (s : State) : Host.Outcome State Fault Refusal :=
  onUnit (decide (q < 256)) (done (s.dispatchHead q fun p => opIs 0x18 p && bitsAt (p.getD 2 0) 16 4 == 4))

/-- BARRIER (R364). -/
def execBarrier (q : Nat) (s : State) : Host.Outcome State Fault Refusal :=
  onUnit (decide (q < 256)) (done (s.dispatchHead q fun p => opIs 0x18 p && bitsAt (p.getD 2 0) 16 4 == 5))

/-- COLL_SIG (R371). -/
def execCollSig (src gid : Nat) (s : State) : Host.Outcome State Fault Refusal :=
  done ((s.colSigRecv src gid).collStat)

/-- COLL_DATA (R372). -/
def execCollData (src gid : Nat) (s : State) : Host.Outcome State Fault Refusal :=
  done ((s.colDataRecv src gid).collStat)

/-- COLL_END (R372). -/
def execCollEnd (src gid : Nat) (s : State) : Host.Outcome State Fault Refusal :=
  done ((s.colEndRecv src gid).collStat)

/-- COLL_ABORT (R374). -/
def execCollAbort (src gid : Nat) (s : State) : Host.Outcome State Fault Refusal :=
  done ((s.colAbortRecv src gid).collStat)

/-- COLL_TIMEOUT (R375). -/
def execCollTimeout (q seq : Nat) (s : State) : Host.Outcome State Fault Refusal :=
  onUnit (decide (q < 256)) (done (s.colTimeout q seq))

/-- COLL_STAGE_EXPIRE (R379). -/
def execCollStageExpire (gid : Nat) (s : State) : Host.Outcome State Fault Refusal :=
  done ((s.stageExpire gid).collStat)

end Sys2Proof.Machine
end

