-- ==== Sys2Proof/Machine/CmdD2d.lean ====
section
/-! DEFINITION. The meanings of the commands of the die-to-die links (R255 to R274). Each is one definition over a shared operation. -/

namespace Sys2Proof.Machine

/-- D2D_FRAME_RECEIVE (R266). -/
def execD2dFrameReceive (l dir x tag : Nat) (payload : List Byte) (way : FrameWay) (s : State) :
    Host.Outcome State Fault Refusal :=
  onUnit (decide (l < 9) && decide (dir < 2) && decide (x < 64)) (done (s.frameReceive l dir x tag payload way.flips way.offered))

/-- D2D_NAK (R266). -/
def execD2dNak (l dir cls seq : Nat) (s : State) : Host.Outcome State Fault Refusal :=
  onUnit (decide (l < 9) && decide (dir < 2) && decide (cls < 6)) (done (s.nakReceive l dir cls seq))

/-- D2D_LINK_CONTROL (R257). -/
def execD2dLinkControl (l dir : Nat) (acks credits : List Nat) (s : State) : Host.Outcome State Fault Refusal :=
  onUnit (decide (l < 9) && decide (dir < 2)) (done (s.linkControl l dir acks credits))

/-- SLICE_RETRAIN_DONE (R267). -/
def execSliceRetrainDone (l n : Nat) (ok : Bool) (repairs : List Nat) (eye : Nat) (s : State) : Host.Outcome State Fault Refusal :=
  onUnit (decide (l < 9) && decide (n < 128)) (done (s.sliceRetrained l n ok repairs eye))

/-- D2D_SWITCH (R262). -/
def execD2dSwitch (f : Nat) (_m : Master) (s : State) : Host.Outcome State Fault Refusal :=
  onUnit (decide (f < 4)) (done (s.d2dSwitch f))

/-- D2D_MODE_CHANGE_DONE (R262). -/
def execD2dModeChangeDone (f : Nat) (work : Option EdgeWork) (s : State) : Host.Outcome State Fault Refusal :=
  onUnit (decide (f < 4)) (done (s.modeDone f work))

/-- D2D_LOCK_LOSS (R268). -/
def execD2dLockLoss (f : Nat) (s : State) : Host.Outcome State Fault Refusal :=
  onUnit (decide (f < 4)) (done (s.lockLoss f))

/-- EDGE_RETRAIN_DONE (R268). -/
def execEdgeRetrainDone (f : Nat) (work : Option EdgeWork) (s : State) : Host.Outcome State Fault Refusal :=
  onUnit (decide (f < 4)) (done (s.edgeRetrained f work))

end Sys2Proof.Machine
end

