-- ==== Sys2Proof/Machine/CmdEyespot.lean ====
section
/-! DEFINITION. The meanings of the commands of fault collection and reaction (R439 to R459). Each is one definition over a shared operation. -/

namespace Sys2Proof.Machine

/-- SOURCE_OCCURRENCE (R443). -/
def execSourceOccurrence (n addr : Nat) (master : Nat) (atype : Nat) (s : State) : Host.Outcome State Fault Refusal :=
  onUnit (decide (n < 2048) && (srcDef n).isSome) (done (s.arise n ⟨addr, master, atype⟩))

/-- QUIET_EXPIRE (R447). -/
def execQuietExpire (n : Nat) (s : State) : Host.Outcome State Fault Refusal :=
  onUnit (decide (n < 2048)) (done (s.quietExpire n))

/-- COUNT_WINDOW_EXPIRE (R443). -/
def execCountWindowExpire (n : Nat) (s : State) : Host.Outcome State Fault Refusal :=
  onUnit (decide (n < 2048)) (done (s.countEnd n))

/-- SOURCE_UNLATCH (R449). -/
def execSourceUnlatch (n : Nat) (_m : Master) (s : State) : Host.Outcome State Fault Refusal :=
  onUnit (decide (n < 2048) && (srcDef n).isSome) (done (s.unlatch n))

/-- SOURCE_LATCH (R449). -/
def execSourceLatch (n : Nat) (_m : Master) (s : State) : Host.Outcome State Fault Refusal :=
  onUnit (decide (n < 2048) && (srcDef n).isSome) (done (s.latch n))

/-- EYE_SRC_CFG_WRITE (R445). -/
def execEyeSrcCfgWrite (n value : Nat) (m : Master) (s : State) : Host.Outcome State Fault Refusal :=
  onUnit (decide (n < 2048) && (srcDef n).isSome) (done (s.srcCfg n value m))

/-- LOG_RECORD_MOVE (R452). -/
def execLogRecordMove (s : State) : Host.Outcome State Fault Refusal :=
  done (s.logMove)

/-- ALERT_PULSE_END (R454). -/
def execAlertPulseEnd (sec : Bool) (s : State) : Host.Outcome State Fault Refusal :=
  done (s.pulseEnd sec)

/-- EYE_PIN_HOLD_WRITE (R454). -/
def execEyePinHoldWrite (alert sec : Nat) (m : Master) (s : State) : Host.Outcome State Fault Refusal :=
  done (s.pinHold (alert % 2) (sec % 2) m)

/-- KEEL_KICK (R455). -/
def execKeelKick (m : Master) (s : State) : Host.Outcome State Fault Refusal :=
  done (s.keelKick m)

/-- OS_KICK (R455). -/
def execOsKick (_m : Master) (s : State) : Host.Outcome State Fault Refusal :=
  done (s.osKickNow)

/-- KEEL_WATCHDOG_EXPIRE (R455). -/
def execKeelWatchdogExpire (s : State) : Host.Outcome State Fault Refusal :=
  done (s.keelExpire)

/-- OS_WATCHDOG_EXPIRE (R455). -/
def execOsWatchdogExpire (s : State) : Host.Outcome State Fault Refusal :=
  done (s.osExpire)

/-- INJECTION_ARM (R457). -/
def execInjectionArm (m : Master) (s : State) : Host.Outcome State Fault Refusal :=
  done (s.injArm m)

/-- SWEEP_STRESS_POINT (R458). -/
def execSweepStressPoint (w a : Nat) (s : State) : Host.Outcome State Fault Refusal :=
  onUnit (decide (w < 64) && decide (a < 4)) (done (s.sweepReached w a))

/-- SWEEP_ABANDON (R458). -/
def execSweepAbandon (w a : Nat) (s : State) : Host.Outcome State Fault Refusal :=
  onUnit (decide (w < 64) && decide (a < 4)) (done (s.sweepAbandon w a))

/-- SWEEP_END (R459). -/
def execSweepEnd (w a : Nat) (s : State) : Host.Outcome State Fault Refusal :=
  onUnit (decide (w < 64) && decide (a < 4)) (done (s.sweepEnd w a))

end Sys2Proof.Machine
end

