-- ==== Sys2Proof/Machine/CmdFabric.lean ====
section
/-! DEFINITION. The meanings of the commands of fabric links, routing, the end-to-end layer, cabling and FENCE (R302 to R334). Each is one definition over a shared operation. -/

namespace Sys2Proof.Machine

/-- LINK_UNIT_RECEIVE (R308). -/
def execLinkUnitReceive (p : Nat) (u : LinkUnit) (way : UnitWay) (s : State) :
    Host.Outcome State Fault Refusal :=
  onUnit (decide (p < 16)) (done (s.unitArrives p u way.flips way.first way.lost))

/-- LINK_NAK (R308). -/
def execLinkNak (p lseq : Nat) (s : State) : Host.Outcome State Fault Refusal :=
  onUnit (decide (p < 16)) (done (s.resend p lseq))

/-- LINK_RESEND_TIMEOUT (R308). -/
def execLinkResendTimeout (p : Nat) (s : State) : Host.Outcome State Fault Refusal :=
  onUnit (decide (p < 16)) (done (s.resendOldest p))

/-- LINK_CONTROL_UNIT (R307). -/
def execLinkControlUnit (p : Nat) (s : State) : Host.Outcome State Fault Refusal :=
  onUnit (decide (p < 16)) (done (s.controlUnit p))

/-- CELL_ROUTE (R316). -/
def execCellRoute (p v : Nat) (s : State) : Host.Outcome State Fault Refusal :=
  onUnit (decide (p ≤ 16) && decide (v < 8)) (done (s.cellRoute p v))

/-- PORT_USABILITY_CHANGE (R317). -/
def execPortUsabilityChange (p : Nat) (s : State) : Host.Outcome State Fault Refusal :=
  onUnit (decide (p < 16)) (done (s.setUsable p))

/-- E2E_DATA_RECEIVE (R323). -/
def execE2eDataReceive (c : Nat) (s : State) : Host.Outcome State Fault Refusal :=
  onUnit (decide (c < 4)) (done (s.ejected c (· == 1) fun x s => s.dataRecv x))

/-- E2E_CLOSE_RECEIVE (R323). -/
def execE2eCloseReceive (c : Nat) (s : State) : Host.Outcome State Fault Refusal :=
  onUnit (decide (c < 4)) (done (s.ejected c (· == 4) fun x s => s.dataRecv x))

/-- E2E_ACK_RECEIVE (R326). -/
def execE2eAckReceive (c : Nat) (s : State) : Host.Outcome State Fault Refusal :=
  onUnit (decide (c < 4)) (done (s.ejected c (· == 2) fun x s => s.ackRecv x))

/-- E2E_RESET_RECEIVE (R324). -/
def execE2eResetReceive (c : Nat) (s : State) : Host.Outcome State Fault Refusal :=
  onUnit (decide (c < 4)) (done (s.ejected c (· == 3) fun x s => s.resetRecv x))

/-- E2E_ACK_DELAY_EXPIRE (R324). -/
def execE2eAckDelayExpire (peer c group : Nat) (s : State) : Host.Outcome State Fault Refusal :=
  onUnit (decide (c < 4)) (done (s.ackDelay peer c group))

/-- E2E_RETRANSMIT (R326). -/
def execE2eRetransmit (peer c : Nat) (mc : Bool) (s : State) : Host.Outcome State Fault Refusal :=
  onUnit (decide (c < 4)) (done (s.retransmit peer c mc))

/-- PEER_EVICT (R322). -/
def execPeerEvict (peer : Nat) (s : State) : Host.Outcome State Fault Refusal :=
  done (s.closePeer peer)

/-- RT_LOAD (R319). -/
def execRtLoad (_m : Master) (s : State) : Host.Outcome State Fault Refusal :=
  done (s.rtLoad)

/-- RT_ARM (R319). -/
def execRtArm (_m : Master) (s : State) : Host.Outcome State Fault Refusal :=
  done (s.rtArm)

/-- RT_FLIP (R319). -/
def execRtFlip (_m : Master) (s : State) : Host.Outcome State Fault Refusal :=
  done (s.rtFlip)

/-- RT_BANK_DRAINED (R318). -/
def execRtBankDrained (b : Nat) (s : State) : Host.Outcome State Fault Refusal :=
  onUnit (decide (b < 2)) (done (s.rtDrained b))

/-- RT_ENTRY_WRITE (R319). -/
def execRtEntryWrite (b : Nat) (loc : Bool) (r value : Nat) (m : Master) (s : State) : Host.Outcome State Fault Refusal :=
  onUnit (decide (b < 2) && decide (r < (if loc then 64 else 256))) (done (s.rtEntry b loc r value m))

/-- FAB_ADDR_WRITE (R334). -/
def execFabAddrWrite (value : Nat) (m : Master) (s : State) : Host.Outcome State Fault Refusal :=
  done (s.fabAddr value m)

/-- FAB_ENABLE (R334). -/
def execFabEnable (value : Nat) (_m : Master) (s : State) : Host.Outcome State Fault Refusal :=
  done (s.fabEnable (value % 2))

/-- PEER_CLEAR (R327). -/
def execPeerClear (peer : Nat) (_m : Master) (s : State) : Host.Outcome State Fault Refusal :=
  done (s.peerClear peer)

/-- CABLE_ACCEPT (R332). -/
def execCableAccept (p : Nat) (_m : Master) (s : State) : Host.Outcome State Fault Refusal :=
  onUnit (decide (p < 16)) (done (s.cableAccept p))

/-- CABLE_RECHECK (R330). -/
def execCableRecheck (p : Nat) (_m : Master) (s : State) : Host.Outcome State Fault Refusal :=
  onUnit (decide (p < 16)) (done (s.cableCheck p))

/-- FENCE (R328). -/
def execFence (q : Nat) (s : State) : Host.Outcome State Fault Refusal :=
  onUnit (decide (q < 256)) (done (s.dispatchHead q fun p => opIs 0x19 p))

/-- FENCE_TIMEOUT (R329). -/
def execFenceTimeout (q seq : Nat) (s : State) : Host.Outcome State Fault Refusal :=
  onUnit (decide (q < 256)) (done (s.fenceTimeout q seq))

end Sys2Proof.Machine
end

