-- ==== Sys2Proof/Machine/CmdLight.lean ====
section
/-! DEFINITION. The meanings of the commands of the light engines (R275 to R301). Each is one definition over a shared operation. -/

namespace Sys2Proof.Machine

/-- RING_LOCK_LOSS (R285). -/
def execRingLockLoss (p r frame : Nat) (loss : RingLoss) (s : State) : Host.Outcome State Fault Refusal :=
  onUnit (decide (p < 16) && decide (r < 36)) (done (s.ringError p r loss.err frame loss.reacquired))

/-- COMB_MONITOR (R288). -/
def execCombMonitor (e c bias : Nat) (temp : Int) (powers : List Int) (lasing : Bool) (frame : Nat) (s : State) : Host.Outcome State Fault Refusal :=
  onUnit (decide (e < 8) && decide (c < 2)) (done (s.combMonitor e c bias temp powers lasing frame))

/-- LINE_SOURCE_FAIL (R288). -/
def execLineSourceFail (e n frame : Nat) (s : State) : Host.Outcome State Fault Refusal :=
  onUnit (decide (e < 8) && decide (n < 18)) (done (s.lineSourceFail e n frame))

/-- RX_MONITOR (R290). -/
def execRxMonitor (p : Nat) (lines : List RxLine) (frame : Nat) (s : State) : Host.Outcome State Fault Refusal :=
  onUnit (decide (p < 16)) (done (s.rxAll p lines frame))

/-- LOSS_OF_SIGNAL (R290). -/
def execLossOfSignal (p n frame : Nat) (s : State) : Host.Outcome State Fault Refusal :=
  onUnit (decide (p < 16) && decide (n < 18)) (done (s.signalLoss p n frame))

/-- PEER_ID (R291). -/
def execPeerId (p num addr port : Nat) (s : State) : Host.Outcome State Fault Refusal :=
  onUnit (decide (p < 16)) (done (s.laneMsg p num fun s => s.peerId p (addr % 65536) (port % 16)))

/-- LSWAP_REQ (R292). -/
def execLswapReq (p num lane spare frame : Nat) (s : State) : Host.Outcome State Fault Refusal :=
  onUnit (decide (p < 16) && decide (lane < 16)) (done (s.laneMsg p num fun s => s.recvSwapReq p lane spare frame))

/-- LSWAP_DUP (R292). -/
def execLswapDup (p num lane spare f : Nat) (s : State) : Host.Outcome State Fault Refusal :=
  onUnit (decide (p < 16) && decide (lane < 16)) (done (s.laneMsg p num fun s => s.recvSwapDup p lane spare f))

/-- LSWAP_VERIFY_DONE (R292). -/
def execLswapVerifyDone (p frame : Nat) (ok : Bool) (s : State) : Host.Outcome State Fault Refusal :=
  onUnit (decide (p < 16)) (done (s.verifyDone p frame ok))

/-- LSWAP_DONE (R292). -/
def execLswapDone (p num lane spare f : Nat) (s : State) : Host.Outcome State Fault Refusal :=
  onUnit (decide (p < 16) && decide (lane < 16)) (done (s.laneMsg p num fun s => s.recvSwapDone p lane spare f))

/-- LSWAP_CUTOVER (R292). -/
def execLswapCutover (p frame : Nat) (sender : Bool) (s : State) : Host.Outcome State Fault Refusal :=
  onUnit (decide (p < 16)) (done (s.swapCut p frame sender))

/-- LSWAP_ABANDON (R293). -/
def execLswapAbandon (p num lane spare frame : Nat) (verify : Bool) (s : State) : Host.Outcome State Fault Refusal :=
  onUnit (decide (p < 16) && decide (lane < 16)) (done (s.laneMsg p num fun s => s.recvAbandon p lane spare frame verify))

/-- LSWAP_TIMEOUT (R293). -/
def execLswapTimeout (p frame : Nat) (sender : Bool) (s : State) : Host.Outcome State Fault Refusal :=
  onUnit (decide (p < 16)) (done (s.abandon p frame sender true false))

/-- LE_LSWAP (R292). -/
def execLeLswap (p lane frame : Nat) (_m : Master) (s : State) : Host.Outcome State Fault Refusal :=
  onUnit (decide (p < 16) && decide (lane < 16)) (done (s.leLswap p lane frame))

/-- NARROW_AT (R295). -/
def execNarrowAt (p num : Nat) (lanes : List Nat) (f : Nat) (s : State) : Host.Outcome State Fault Refusal :=
  onUnit (decide (p < 16)) (done (s.laneMsg p num fun s => s.stripeAt p lanes f))

/-- WIDEN_AT (R295). -/
def execWidenAt (p num : Nat) (lanes : List Nat) (f : Nat) (s : State) : Host.Outcome State Fault Refusal :=
  onUnit (decide (p < 16)) (done (s.laneMsg p num fun s => s.stripeAt p lanes f))

/-- STRIPE_CHANGE (R295). -/
def execStripeChange (p : Nat) (s : State) : Host.Outcome State Fault Refusal :=
  onUnit (decide (p < 16)) (done (s.stripeChange p))

/-- COMB_SWAP (R294). -/
def execCombSwap (e frame : Nat) (requested : Bool) (s : State) : Host.Outcome State Fault Refusal :=
  onUnit (decide (e < 8)) (done (s.combSwap e frame requested))

/-- COMB_LOCKED (R286). -/
def execCombLocked (e c frame : Nat) (s : State) : Host.Outcome State Fault Refusal :=
  onUnit (decide (e < 8) && decide (c < 2)) (done (s.combLocked e c frame))

/-- COMB_LOCK_TIMEOUT (R294). -/
def execCombLockTimeout (e : Nat) (s : State) : Host.Outcome State Fault Refusal :=
  onUnit (decide (e < 8)) (done (s.lockTimeout e))

/-- CSWAP_AT (R291). -/
def execCswapAt (p num f : Nat) (s : State) : Host.Outcome State Fault Refusal :=
  onUnit (decide (p < 16)) (done (s.laneMsg p num fun s => s.setPort p { s.port p with peerCswap := some f }))

/-- COMB_CUTOVER (R294). -/
def execCombCutover (p frame : Nat) (s : State) : Host.Outcome State Fault Refusal :=
  onUnit (decide (p < 16)) (done (s.combCut p frame))

/-- LANE_ACK (R291). -/
def execLaneAck (p num : Nat) (s : State) : Host.Outcome State Fault Refusal :=
  onUnit (decide (p < 16)) (done (s.setPort p { s.port p with sent := (s.port p).sent.filter fun x => x.1 != num }))

/-- PORT_OFF (R298). -/
def execPortOff (p num : Nat) (s : State) : Host.Outcome State Fault Refusal :=
  onUnit (decide (p < 16)) (done (s.laneMsg p num fun s => s.setPort p { s.port p with peerOff := true }))

/-- PORT_DISABLE (R298). -/
def execPortDisable (p : Nat) (_m : Master) (s : State) : Host.Outcome State Fault Refusal :=
  onUnit (decide (p < 16)) (done (s.portDisable p))

/-- PORT_ENABLE (R298). -/
def execPortEnable (p : Nat) (_m : Master) (s : State) : Host.Outcome State Fault Refusal :=
  onUnit (decide (p < 16)) (done (s.portEnable p))

/-- PORT_DRAIN_DONE (R298). -/
def execPortDrainDone (p : Nat) (s : State) : Host.Outcome State Fault Refusal :=
  onUnit (decide (p < 16)) (done (s.drainDone p))

/-- LE_ENABLE_WRITE (R298). -/
def execLeEnableWrite (e value : Nat) (m : Master) (s : State) : Host.Outcome State Fault Refusal :=
  onUnit (decide (e < 8)) (done (s.leEnable e (value % 2) m))

/-- LE_THRESH_WRITE (R288). -/
def execLeThreshWrite (e value : Nat) (m : Master) (s : State) : Host.Outcome State Fault Refusal :=
  onUnit (decide (e < 8)) (done (s.leThresh e value m))

end Sys2Proof.Machine
end

