-- ==== Sys2Proof/Machine/CmdManagement.lean ====
section
/-! DEFINITION. The meanings of the commands of boot, the management port, images and attestation (R387 to R438). Each is one definition over a shared operation. -/

namespace Sys2Proof.Machine

/-- CRU_RESET_MODULE (R397). -/
def execCruResetModule (_m : Master) (s : State) : Host.Outcome State Fault Refusal :=
  done (s.moduleReset 4)

/-- BOOT_STAGE_ADVANCE (R399). -/
def execBootStageAdvance (work : BootWork) (s : State) : Host.Outcome State Fault Refusal :=
  done (s.bootAdvance work)

/-- IDENT (R428). -/
def execIdent (h : MgtHdr) (s : State) : Host.Outcome State Fault Refusal :=
  done (s.ident h)

/-- HELLO (R404). -/
def execHello (h : MgtHdr) (key nonce cert : List Byte) (s : State) : Host.Outcome State Fault Refusal :=
  done (s.mgtHello h key nonce cert)

/-- FINISH (R404). -/
def execFinish (h : MgtHdr) (sig : List Byte) (s : State) : Host.Outcome State Fault Refusal :=
  done (s.mgtFinish h sig)

/-- STATUS (R410). -/
def execStatus (h : MgtHdr) (s : State) : Host.Outcome State Fault Refusal :=
  done (s.mgtCmd h .status)

/-- READ_REG (R407). -/
def execReadReg (h : MgtHdr) (addr : Nat) (s : State) : Host.Outcome State Fault Refusal :=
  done (s.mgtCmd h (.readReg addr))

/-- WRITE_REG (R407). -/
def execWriteReg (h : MgtHdr) (addr value : Nat) (s : State) : Host.Outcome State Fault Refusal :=
  done (s.mgtCmd h (.writeReg addr value))

/-- READ_LOG (R406). -/
def execReadLog (h : MgtHdr) (eye : Bool) (first count : Nat) (s : State) : Host.Outcome State Fault Refusal :=
  done (s.mgtCmd h (.readLog eye first count))

/-- TIME_SYNC_MEASURE (R406). -/
def execTimeSyncMeasure (h : MgtHdr) (s : State) : Host.Outcome State Fault Refusal :=
  done (s.mgtCmd h .measure)

/-- TIME_SYNC_ADJUST (R395). -/
def execTimeSyncAdjust (h : MgtHdr) (offset : Int) (s : State) : Host.Outcome State Fault Refusal :=
  done (s.mgtCmd h (.adjust offset))

/-- SLEW_DONE (R395). -/
def execSlewDone (s : State) : Host.Outcome State Fault Refusal :=
  done (s.slewDone)

/-- MGT_RESET (R406). -/
def execMgtReset (h : MgtHdr) (s : State) : Host.Outcome State Fault Refusal :=
  done (s.mgtCmd h .reset)

/-- POWER_CAP (R495). -/
def execPowerCap (h : MgtHdr) (watts : Nat) (s : State) : Host.Outcome State Fault Refusal :=
  done (s.mgtCmd h (.cap watts))

/-- IMAGE_BEGIN (R423). -/
def execImageBegin (h : MgtHdr) (cls total : Nat) (s : State) : Host.Outcome State Fault Refusal :=
  done (s.mgtCmd h (.imgBegin cls total))

/-- IMAGE_CHUNK (R423). -/
def execImageChunk (h : MgtHdr) (cls offset : Nat) (data : List Byte) (s : State) : Host.Outcome State Fault Refusal :=
  done (s.mgtCmd h (.imgChunk cls offset data))

/-- IMAGE_END (R421). -/
def execImageEnd (h : MgtHdr) (cls : Nat) (s : State) : Host.Outcome State Fault Refusal :=
  done (s.mgtCmd h (.imgEnd cls))

/-- IMAGE_CANCEL (R423). -/
def execImageCancel (h : MgtHdr) (cls : Nat) (s : State) : Host.Outcome State Fault Refusal :=
  done (s.mgtCmd h (.imgCancel cls))

/-- IMAGE_TRANSFER_TIMEOUT (R423). -/
def execImageTransferTimeout (s : State) : Host.Outcome State Fault Refusal :=
  done (s.xferTimeout)

/-- BYE (R405). -/
def execBye (h : MgtHdr) (s : State) : Host.Outcome State Fault Refusal :=
  done (s.mgtCmd h .bye)

/-- SESSION_IDLE_CLOSE (R405). -/
def execSessionIdleClose (session : Nat) (s : State) : Host.Outcome State Fault Refusal :=
  done (s.idleClose session)

/-- ATTEST_START (R429). -/
def execAttestStart (k : Nat) (_m : Master) (s : State) : Host.Outcome State Fault Refusal :=
  onUnit (decide (k < 4)) (done (s.attStart k))

/-- ATTEST_DONE (R430). -/
def execAttestDone (k : Nat) (s : State) : Host.Outcome State Fault Refusal :=
  onUnit (decide (k < 4)) (done (s.attDone k))

/-- MGT_FRAGMENT_RECEIVE (R411). -/
def execMgtFragmentReceive (src : Nat) (s : State) : Host.Outcome State Fault Refusal :=
  done (s.fragment src)

/-- MGT_FRAGMENT_TIMEOUT (R411). -/
def execMgtFragmentTimeout (src num : Nat) (s : State) : Host.Outcome State Fault Refusal :=
  done (s.fragTimeout src num)

/-- OS_FRAME_RECEIVE (R408). -/
def execOsFrameReceive (frame : List Byte) (control full : Bool) (s : State) : Host.Outcome State Fault Refusal :=
  done (s.osReceive frame control full)

/-- OS_FRAME_TRANSMIT (R408). -/
def execOsFrameTransmit (n : Nat) (s : State) : Host.Outcome State Fault Refusal :=
  done (s.osTransmit n)

/-- ROUTER_ADVERTISEMENT (R402). -/
def execRouterAdvertisement (pre : List Byte) (ext : Bool) (s : State) : Host.Outcome State Fault Refusal :=
  done (s.advert pre ext)

/-- NEIGHBOUR_DISCOVERY (R402). -/
def execNeighbourDiscovery (target : List Byte) (ext : Bool) (s : State) : Host.Outcome State Fault Refusal :=
  done (s.neighbour target ext)

/-- ICMPV6_ECHO (R402). -/
def execIcmpv6Echo (target data : List Byte) (ext : Bool) (s : State) : Host.Outcome State Fault Refusal :=
  done (s.echo target data ext)

/-- SMB_READ_IDENTITY (R413). -/
def execSmbReadIdentity (pec : Bool) (s : State) : Host.Outcome State Fault Refusal :=
  done (s.smbIdentity pec)

/-- SMB_READ_STATUS (R413). -/
def execSmbReadStatus (pec : Bool) (s : State) : Host.Outcome State Fault Refusal :=
  done (s.smbStatus pec)

/-- SMB_READ_POWER (R413). -/
def execSmbReadPower (pec : Bool) (s : State) : Host.Outcome State Fault Refusal :=
  done (s.smbPower pec)

/-- SMB_READ_TJ (R413). -/
def execSmbReadTj (pec : Bool) (s : State) : Host.Outcome State Fault Refusal :=
  done (s.smbTj pec)

/-- SMB_STOP_REQUEST (R413). -/
def execSmbStopRequest (value : Nat) (pec : Bool) (s : State) : Host.Outcome State Fault Refusal :=
  done (s.smbStop value pec)

end Sys2Proof.Machine
end

