-- ==== Sys2Proof/Machine/CmdMargin.lean ====
section
/-! DEFINITION. The meanings of the commands of control-space writes without a row of their own (R8) and the margin controller (R37 to R60). Each is one definition over a shared operation. -/

namespace Sys2Proof.Machine

/-- REG_WRITE (R8). -/
def execRegWrite (addr width value : Nat) (m : Master) (s : State) : Host.Outcome State Fault Refusal :=
  done ((s.ctlWrite addr width value m).2)

/-- SLACK_WINDOW_END (R37). -/
def execSlackWindowEnd (d : Nat) (slack : Int) (s : State) : Host.Outcome State Fault Refusal :=
  onUnit (decide (d < 408)) (done (s.windowEnd d slack))

/-- TAP_WIDEN (R39). -/
def execTapWiden (d : Nat) (s : State) : Host.Outcome State Fault Refusal :=
  onUnit (decide (d < 408)) (done (s.tapWiden d))

/-- HOLD_WIDEN (R42). -/
def execHoldWiden (d : Nat) (slack : Int) (s : State) : Host.Outcome State Fault Refusal :=
  onUnit (decide (d < 408)) (done (s.holdWiden d slack))

/-- TAP_RELAX (R41). -/
def execTapRelax (d : Nat) (s : State) : Host.Outcome State Fault Refusal :=
  onUnit (decide (d < 408)) (done (s.tapRelax d))

/-- RELAX_REEVALUATE (R41). -/
def execRelaxReevaluate (d : Nat) (s : State) : Host.Outcome State Fault Refusal :=
  onUnit (decide (d < 408)) (done (s.relaxAgain d))

/-- MARGIN_EXHAUSTED (R43). -/
def execMarginExhausted (d : Nat) (s : State) : Host.Outcome State Fault Refusal :=
  onUnit (decide (d < 408)) (done (if (s.dom d).held then s.exhaust d else s))

/-- SHADOW_LATCH_FLAG (R44). -/
def execShadowLatchFlag (d : Nat) (s : State) : Host.Outcome State Fault Refusal :=
  onUnit (decide (d < 408)) (done (s.shadowFlag d))

/-- VFLOOR_RECOMPUTE (R46). -/
def execVfloorRecompute (r : Nat) (s : State) : Host.Outcome State Fault Refusal :=
  onUnit (decide (r < 8)) (done (s.recomputeFloor r))

/-- PLANNED_WRITE (R47). -/
def execPlannedWrite (d value : Nat) (_m : Master) (s : State) : Host.Outcome State Fault Refusal :=
  onUnit (decide (d < 408)) (done (s.planWrite d value))

/-- SWEEP_OFF_WRITE (R48). -/
def execSweepOffWrite (d value : Nat) (m : Master) (s : State) : Host.Outcome State Fault Refusal :=
  onUnit (decide (d < 408)) (done (s.sweepOffWrite d value m))

/-- MGN_PEAK_CLR (R60). -/
def execMgnPeakClr (d : Nat) (_m : Master) (s : State) : Host.Outcome State Fault Refusal :=
  onUnit (decide (d < 408)) (done (s.setF F.MGN_DOM_TAP_PEAK (s.f F.MGN_DOM_TAP_CURRENT d) d))

/-- SLACK_MIN_CLR (R60). -/
def execSlackMinClr (d : Nat) (_m : Master) (s : State) : Host.Outcome State Fault Refusal :=
  onUnit (decide (d < 408)) (done (s.setF F.MGN_DOM_SLACK_MIN (s.f F.MGN_DOM_SLACK_NOW d) d))

/-- MGN_CTRL_WRITE (R60). -/
def execMgnCtrlWrite (value : Nat) (m : Master) (s : State) : Host.Outcome State Fault Refusal :=
  done (s.mgnCtrlWrite value m)

/-- TEMPER_START (R51). -/
def execTemperStart (_m : Master) (s : State) : Host.Outcome State Fault Refusal :=
  done (s.temperStart)

/-- TEMPER_ROTATION_DUE (R51). -/
def execTemperRotationDue (s : State) : Host.Outcome State Fault Refusal :=
  done (s.temperRotation)

/-- TEMPER_TRIGGERED (R51). -/
def execTemperTriggered (d : Nat) (s : State) : Host.Outcome State Fault Refusal :=
  onUnit (decide (d < 408)) (done (s.temperTrigger d))

/-- TEMPER_WING_SKIP (R52). -/
def execTemperWingSkip (w : Nat) (s : State) : Host.Outcome State Fault Refusal :=
  onUnit (decide (w < 64)) (done (s.temperSkip w))

/-- TEMPER_DOMAIN_PASS (R54). -/
def execTemperDomainPass (d : Nat) (slack : Int) (erosion : Nat) (s : State) : Host.Outcome State Fault Refusal :=
  onUnit (decide (d < 408)) (done (s.domainPass d slack erosion))

/-- BASK_TAP_REMOVE (R57). -/
def execBaskTapRemove (r : Nat) (s : State) : Host.Outcome State Fault Refusal :=
  onUnit (decide (r < 8)) (done (s.baskRemove r))

/-- STEPS_READ (R58). -/
def execStepsRead (w : Nat) (s : State) : Host.Outcome State Fault Refusal :=
  onUnit (decide (w < 64)) (done ({ s.stepsLatch w with busReply := some (s.rd .MGN_RATE_STEPS w).toNat }))

end Sys2Proof.Machine
end

