-- ==== Sys2Proof/Machine/CmdMemory.lean ====
section
/-! DEFINITION. The meanings of the commands of the memory system and the turn engine (R225 to R252). Each is one definition over a shared operation. -/

namespace Sys2Proof.Machine

/-- MEM_QUAL_OVERRIDE (R227). -/
def execMemQualOverride (f : Nat) (m : Master) (s : State) : Host.Outcome State Fault Refusal :=
  onUnit (decide (f < 4)) (done (s.qualOverride f m))

/-- LADLE_READ (R232). -/
def execLadleRead (a n hint : Nat) (m : Master) (s : State) : Host.Outcome State Fault Refusal :=
  onUnit (oneLine a n) (done (s.readReq a n hint m))

/-- LADLE_WRITE (R232). -/
def execLadleWrite (a : Nat) (data : List Byte) (hint : Nat) (m : Master) (s : State) : Host.Outcome State Fault Refusal :=
  onUnit (oneLine a data.length) (done (s.writeReq a data hint m))

/-- LADLE_MISS_FILL (R231). -/
def execLadleMissFill (k : Nat) (errs : List Nat) (ondie : Bool) (s : State) : Host.Outcome State Fault Refusal :=
  onUnit (decide (k < 16)) (done (s.missFill k errs ondie))

/-- LADLE_WRITEBACK (R235). -/
def execLadleWriteback (q : Nat) (s : State) : Host.Outcome State Fault Refusal :=
  onUnit (decide (q < 256)) (done (s.dispatchHead q fun p => opIs 0x11 p && bitsAt (p.getD 2 0) 0 3 == 0))

/-- LADLE_EVICT (R235). -/
def execLadleEvict (q : Nat) (s : State) : Host.Outcome State Fault Refusal :=
  onUnit (decide (q < 256)) (done (s.dispatchHead q fun p => opIs 0x11 p && bitsAt (p.getD 2 0) 0 3 == 1))

/-- LADLE_UNPROTECT (R235). -/
def execLadleUnprotect (q : Nat) (s : State) : Host.Outcome State Fault Refusal :=
  onUnit (decide (q < 256)) (done (s.dispatchHead q fun p => opIs 0x11 p && bitsAt (p.getD 2 0) 0 3 == 2))

/-- LADLE_PREFETCH (R235). -/
def execLadlePrefetch (q : Nat) (s : State) : Host.Outcome State Fault Refusal :=
  onUnit (decide (q < 256)) (done (s.dispatchHead q fun p => opIs 0x11 p && bitsAt (p.getD 2 0) 0 3 == 3))

/-- LADLE_ZERO (R235). -/
def execLadleZero (q : Nat) (s : State) : Host.Outcome State Fault Refusal :=
  onUnit (decide (q < 256)) (done (s.dispatchHead q fun p => opIs 0x11 p && bitsAt (p.getD 2 0) 0 3 == 4))

/-- PER_BANK_REFRESH (R225). -/
def execPerBankRefresh (k : Nat) (s : State) : Host.Outcome State Fault Refusal :=
  onUnit (decide (k < 16)) (done (s.refreshNow k))

/-- REFRESH_MANAGEMENT_REQUEST (R225). -/
def execRefreshManagementRequest (k : Nat) (s : State) : Host.Outcome State Fault Refusal :=
  onUnit (decide (k < 16)) (done (s.rfmNow k))

/-- STACK_TEMP_READ (R238). -/
def execStackTempRead (k : Nat) (temp : Int) (s : State) : Host.Outcome State Fault Refusal :=
  onUnit (decide (k < 16)) (done (s.sensorUpdate (74 + k) 0 temp))

/-- SCRUB_READ (R242). -/
def execScrubRead (k : Nat) (errs : List Nat) (s : State) : Host.Outcome State Fault Refusal :=
  onUnit (decide (k < 16)) (done (s.scrubNow k errs))

/-- PARITY_ERROR (R243). -/
def execParityError (k : Nat) (retryOk : Bool) (s : State) : Host.Outcome State Fault Refusal :=
  onUnit (decide (k < 16)) (done (s.parityError k retryOk))

/-- PHY_LOCK_LOSS (R243). -/
def execPhyLockLoss (k : Nat) (s : State) : Host.Outcome State Fault Refusal :=
  onUnit (decide (k < 16)) (done (s.phyLoss k))

/-- STACK_RETRAIN_DONE (R243). -/
def execStackRetrainDone (k : Nat) (ok : Bool) (s : State) : Host.Outcome State Fault Refusal :=
  onUnit (decide (k < 16)) (done (s.retrainDone k ok))

/-- TURN_WRITE (R248). -/
def execTurnWrite (q : Nat) (s : State) : Host.Outcome State Fault Refusal :=
  onUnit (decide (q < 256)) (done (s.dispatchHead q fun p => opIs 0x10 p && turnMode p == 0))

/-- TURN_ARM (R248). -/
def execTurnArm (q : Nat) (s : State) : Host.Outcome State Fault Refusal :=
  onUnit (decide (q < 256)) (done (s.dispatchHead q fun p => opIs 0x10 p && turnMode p == 1))

/-- TURN_DISARM (R248). -/
def execTurnDisarm (q : Nat) (s : State) : Host.Outcome State Fault Refusal :=
  onUnit (decide (q < 256)) (done (s.dispatchHead q fun p => opIs 0x10 p && turnMode p == 2))

end Sys2Proof.Machine
end

