-- ==== Sys2Proof/Machine/CmdOutside.lean ====
section
/-! DEFINITION. The meanings of the commands of what the outside shows of the light engines, the management lane, the reference clock and the factory. Each is one definition over a shared operation. -/

namespace Sys2Proof.Machine

/-- RING_ACQUISITION_DONE (R284). -/
def execRingAcquisitionDone (p frame : Nat) (crossings : List (List (Nat × Nat))) (s : State) : Host.Outcome State Fault Refusal :=
  onUnit (decide (p < 16)) (done (s.ringsDone p frame crossings))

/-- PEER_ALIGNED (R297). -/
def execPeerAligned (p : Nat) (lines : List (Nat × Nat)) (s : State) : Host.Outcome State Fault Refusal :=
  onUnit (decide (p < 16)) (done (s.aligned p lines))

/-- HEATER_LIMIT (R285). -/
def execHeaterLimit (p r : Nat) (heat : HeaterData) (s : State) : Host.Outcome State Fault Refusal :=
  onUnit (decide (p < 16) && decide (r < 36)) (done (s.heater p r heat.code heat.frame heat.reacquired))

/-- MGT_LINK_CHANGE (R401). -/
def execMgtLinkChange (up : Bool) (s : State) : Host.Outcome State Fault Refusal :=
  done (s.linkChange up)

/-- REFCLK_RETURN (R518). -/
def execRefclkReturn (s : State) : Host.Outcome State Fault Refusal :=
  done (s.refclkReturn)

/-- FACTORY_TEST_PROGRAM (R432). -/
def execFactoryTestProgram (cert : Bool) (images : List (Nat × List Byte)) (s : State) : Host.Outcome State Fault Refusal :=
  done (s.factory cert images)

end Sys2Proof.Machine
end

