-- ==== Sys2Proof/Machine/CmdPattern.lean ====
section
/-! DEFINITION. The meanings of the commands of the pattern instructions of a vector run (R166 to R184): each row runs the next instruction of the run of a wing, over its chunk of lanes. Each is one definition over a shared operation. -/

namespace Sys2Proof.Machine

/-- PATTERN_NOP (R166). -/
def execPatternNop (w : Nat) (s : State) : Host.Outcome State Fault Refusal :=
  onUnit (decide (w < 64)) (done (s.patStep w .nop))

/-- MOV (R167). -/
def execMov (w : Nat) (s : State) : Host.Outcome State Fault Refusal :=
  onUnit (decide (w < 64)) (done (s.patStep w .mov))

/-- ADD (R77). -/
def execAdd (w : Nat) (s : State) : Host.Outcome State Fault Refusal :=
  onUnit (decide (w < 64)) (done (s.patStep w .add))

/-- SUB (R77). -/
def execSub (w : Nat) (s : State) : Host.Outcome State Fault Refusal :=
  onUnit (decide (w < 64)) (done (s.patStep w .sub))

/-- MUL (R77). -/
def execMul (w : Nat) (s : State) : Host.Outcome State Fault Refusal :=
  onUnit (decide (w < 64)) (done (s.patStep w .mul))

/-- FMA (R77). -/
def execFma (w : Nat) (s : State) : Host.Outcome State Fault Refusal :=
  onUnit (decide (w < 64)) (done (s.patStep w .fma))

/-- FMS (R77). -/
def execFms (w : Nat) (s : State) : Host.Outcome State Fault Refusal :=
  onUnit (decide (w < 64)) (done (s.patStep w .fms))

/-- FNMA (R77). -/
def execFnma (w : Nat) (s : State) : Host.Outcome State Fault Refusal :=
  onUnit (decide (w < 64)) (done (s.patStep w .fnma))

/-- DIV (R77). -/
def execDiv (w : Nat) (s : State) : Host.Outcome State Fault Refusal :=
  onUnit (decide (w < 64)) (done (s.patStep w .div))

/-- SQRT (R77). -/
def execSqrt (w : Nat) (s : State) : Host.Outcome State Fault Refusal :=
  onUnit (decide (w < 64)) (done (s.patStep w .sqrt))

/-- MIN (R77). -/
def execMin (w : Nat) (s : State) : Host.Outcome State Fault Refusal :=
  onUnit (decide (w < 64)) (done (s.patStep w .min))

/-- MAX (R77). -/
def execMax (w : Nat) (s : State) : Host.Outcome State Fault Refusal :=
  onUnit (decide (w < 64)) (done (s.patStep w .max))

/-- MINN (R77). -/
def execMinn (w : Nat) (s : State) : Host.Outcome State Fault Refusal :=
  onUnit (decide (w < 64)) (done (s.patStep w .minn))

/-- MAXN (R77). -/
def execMaxn (w : Nat) (s : State) : Host.Outcome State Fault Refusal :=
  onUnit (decide (w < 64)) (done (s.patStep w .maxn))

/-- ABS (R79). -/
def execAbs (w : Nat) (s : State) : Host.Outcome State Fault Refusal :=
  onUnit (decide (w < 64)) (done (s.patStep w .abs))

/-- NEG (R79). -/
def execNeg (w : Nat) (s : State) : Host.Outcome State Fault Refusal :=
  onUnit (decide (w < 64)) (done (s.patStep w .neg))

/-- CMPEQ (R167). -/
def execCmpeq (w : Nat) (s : State) : Host.Outcome State Fault Refusal :=
  onUnit (decide (w < 64)) (done (s.patStep w .cmpeq))

/-- CMPLT (R167). -/
def execCmplt (w : Nat) (s : State) : Host.Outcome State Fault Refusal :=
  onUnit (decide (w < 64)) (done (s.patStep w .cmplt))

/-- CMPLE (R167). -/
def execCmple (w : Nat) (s : State) : Host.Outcome State Fault Refusal :=
  onUnit (decide (w < 64)) (done (s.patStep w .cmple))

/-- CMPUN (R167). -/
def execCmpun (w : Nat) (s : State) : Host.Outcome State Fault Refusal :=
  onUnit (decide (w < 64)) (done (s.patStep w .cmpun))

/-- SEL (R167). -/
def execSel (w : Nat) (s : State) : Host.Outcome State Fault Refusal :=
  onUnit (decide (w < 64)) (done (s.patStep w .sel))

/-- SCALE (R84). -/
def execScale (w : Nat) (s : State) : Host.Outcome State Fault Refusal :=
  onUnit (decide (w < 64)) (done (s.patStep w .scale))

/-- CVT (R81). -/
def execCvt (w : Nat) (s : State) : Host.Outcome State Fault Refusal :=
  onUnit (decide (w < 64)) (done (s.patStep w .cvt))

/-- RINT (R77). -/
def execRint (w : Nat) (s : State) : Host.Outcome State Fault Refusal :=
  onUnit (decide (w < 64)) (done (s.patStep w .rint))

/-- QNT (R83). -/
def execQnt (w : Nat) (s : State) : Host.Outcome State Fault Refusal :=
  onUnit (decide (w < 64)) (done (s.patStep w .qnt))

/-- IADD (R167). -/
def execIadd (w : Nat) (s : State) : Host.Outcome State Fault Refusal :=
  onUnit (decide (w < 64)) (done (s.patStep w .iadd))

/-- ISUB (R167). -/
def execIsub (w : Nat) (s : State) : Host.Outcome State Fault Refusal :=
  onUnit (decide (w < 64)) (done (s.patStep w .isub))

/-- IMUL (R167). -/
def execImul (w : Nat) (s : State) : Host.Outcome State Fault Refusal :=
  onUnit (decide (w < 64)) (done (s.patStep w .imul))

/-- AND (R167). -/
def execAnd (w : Nat) (s : State) : Host.Outcome State Fault Refusal :=
  onUnit (decide (w < 64)) (done (s.patStep w .and))

/-- OR (R167). -/
def execOr (w : Nat) (s : State) : Host.Outcome State Fault Refusal :=
  onUnit (decide (w < 64)) (done (s.patStep w .or))

/-- XOR (R167). -/
def execXor (w : Nat) (s : State) : Host.Outcome State Fault Refusal :=
  onUnit (decide (w < 64)) (done (s.patStep w .xor))

/-- SHL (R166). -/
def execShl (w : Nat) (s : State) : Host.Outcome State Fault Refusal :=
  onUnit (decide (w < 64)) (done (s.patStep w .shl))

/-- SHR (R166). -/
def execShr (w : Nat) (s : State) : Host.Outcome State Fault Refusal :=
  onUnit (decide (w < 64)) (done (s.patStep w .shr))

/-- SRA (R166). -/
def execSra (w : Nat) (s : State) : Host.Outcome State Fault Refusal :=
  onUnit (decide (w < 64)) (done (s.patStep w .sra))

/-- IMIN (R166). -/
def execImin (w : Nat) (s : State) : Host.Outcome State Fault Refusal :=
  onUnit (decide (w < 64)) (done (s.patStep w .imin))

/-- IMAX (R166). -/
def execImax (w : Nat) (s : State) : Host.Outcome State Fault Refusal :=
  onUnit (decide (w < 64)) (done (s.patStep w .imax))

/-- EXP2 (R169). -/
def execExp2 (w : Nat) (s : State) : Host.Outcome State Fault Refusal :=
  onUnit (decide (w < 64)) (done (s.patStep w .exp2))

/-- EXP (R169). -/
def execExp (w : Nat) (s : State) : Host.Outcome State Fault Refusal :=
  onUnit (decide (w < 64)) (done (s.patStep w .exp))

/-- LOG2 (R169). -/
def execLog2 (w : Nat) (s : State) : Host.Outcome State Fault Refusal :=
  onUnit (decide (w < 64)) (done (s.patStep w .log2))

/-- LOG (R169). -/
def execLog (w : Nat) (s : State) : Host.Outcome State Fault Refusal :=
  onUnit (decide (w < 64)) (done (s.patStep w .log))

/-- RCP (R169). -/
def execRcp (w : Nat) (s : State) : Host.Outcome State Fault Refusal :=
  onUnit (decide (w < 64)) (done (s.patStep w .rcp))

/-- RSQRT (R169). -/
def execRsqrt (w : Nat) (s : State) : Host.Outcome State Fault Refusal :=
  onUnit (decide (w < 64)) (done (s.patStep w .rsqrt))

/-- TANH (R169). -/
def execTanh (w : Nat) (s : State) : Host.Outcome State Fault Refusal :=
  onUnit (decide (w < 64)) (done (s.patStep w .tanh))

/-- SIGM (R169). -/
def execSigm (w : Nat) (s : State) : Host.Outcome State Fault Refusal :=
  onUnit (decide (w < 64)) (done (s.patStep w .sigm))

/-- ERF (R169). -/
def execErf (w : Nat) (s : State) : Host.Outcome State Fault Refusal :=
  onUnit (decide (w < 64)) (done (s.patStep w .erf))

/-- SIN (R169). -/
def execSin (w : Nat) (s : State) : Host.Outcome State Fault Refusal :=
  onUnit (decide (w < 64)) (done (s.patStep w .sin))

/-- COS (R169). -/
def execCos (w : Nat) (s : State) : Host.Outcome State Fault Refusal :=
  onUnit (decide (w < 64)) (done (s.patStep w .cos))

/-- GATH (R170). -/
def execGath (w : Nat) (s : State) : Host.Outcome State Fault Refusal :=
  onUnit (decide (w < 64)) (done (s.patStep w .gath))

/-- SCAT (R170). -/
def execScat (w : Nat) (s : State) : Host.Outcome State Fault Refusal :=
  onUnit (decide (w < 64)) (done (s.patStep w .scat))

/-- LXCH (R171). -/
def execLxch (w : Nat) (s : State) : Host.Outcome State Fault Refusal :=
  onUnit (decide (w < 64)) (done (s.patStep w .lxch))

/-- LSUM (R171). -/
def execLsum (w : Nat) (s : State) : Host.Outcome State Fault Refusal :=
  onUnit (decide (w < 64)) (done (s.patStep w .lsum))

/-- LSHF (R180). -/
def execLshf (w : Nat) (s : State) : Host.Outcome State Fault Refusal :=
  onUnit (decide (w < 64)) (done (s.patStep w .lshf))

/-- VEC_REDUCTION (R173). -/
def execVecReduction (w : Nat) (s : State) : Host.Outcome State Fault Refusal :=
  onUnit (decide (w < 64)) (done (s.reduceNow w))

/-- TR_WINDOW_READ (R184). -/
def execTrWindowRead (w off width : Nat) (m : Master) (s : State) : Host.Outcome State Fault Refusal :=
  onUnit (decide (w < 64) && decide (off < 0x8000)) (done (s.trWindow w off width m))

end Sys2Proof.Machine
end

