-- ==== Sys2Proof/Machine/CmdPower.lean ====
section
/-! DEFINITION. The meanings of the commands of power, temperature, cold start, resets and the reference clock (R488 to R518). Each is one definition over a shared operation. -/

namespace Sys2Proof.Machine

/-- INPUT_VALID (R488). -/
def execInputValid (straps : Nat) (s : State) : Host.Outcome State Fault Refusal :=
  onUnit (decide (straps < 65536)) (done (s.inputValid straps))

/-- RAIL_POWER_GOOD (R488). -/
def execRailPowerGood (bad : Option Nat) (s : State) : Host.Outcome State Fault Refusal :=
  onUnit ((match bad with | some r => decide (r < 16) | none => true)) (done (s.railGood bad))

/-- RAIL_FAULT (R506). -/
def execRailFault (r : Nat) (s : State) : Host.Outcome State Fault Refusal :=
  onUnit (decide (r < 16)) (done (s.railFault r))

/-- INPUT_SAMPLE (R490). -/
def execInputSample (mv avg : Nat) (rails : List (Nat × Nat × Nat)) (s : State) : Host.Outcome State Fault Refusal :=
  done (s.inputSample mv avg rails)

/-- INPUT_OUT_OF_RANGE (R503). -/
def execInputOutOfRange (s : State) : Host.Outcome State Fault Refusal :=
  done (s.inputRange)

/-- THERMAL_SENSOR_UPDATE (R491). -/
def execThermalSensorUpdate (n : Nat) (reading : Reading) (s : State) : Host.Outcome State Fault Refusal :=
  onUnit (decide (n < 104) && decide (reading.part < 4)) (done (s.sensorUpdate n reading.part reading.temp))

/-- SENSOR_STALE (R492). -/
def execSensorStale (n : Nat) (s : State) : Host.Outcome State Fault Refusal :=
  onUnit (decide (n < 104)) (done (s.sensorStale n))

/-- SENSOR_MAX_CLR (R508). -/
def execSensorMaxClr (n : Nat) (_m : Master) (s : State) : Host.Outcome State Fault Refusal :=
  onUnit (decide (n < 104)) (done (s.setF F.THM_SENS_MAX (s.f F.THM_SENS_TEMP n) n))

/-- SETPOINT_SETTLE (R494). -/
def execSetpointSettle (r : Nat) (s : State) : Host.Outcome State Fault Refusal :=
  onUnit (decide (r < 16)) (done (s.setpoint r))

/-- POWER_CONTROL_TICK (R495). -/
def execPowerControlTick (watts fit : Nat) (tick : TickData) (s : State) : Host.Outcome State Fault Refusal :=
  onUnit (tick.figures.all Figure.ok) (done (s.powerTick watts fit tick.hold tick.figures))

/-- PWR_CAP_WRITE (R495). -/
def execPwrCapWrite (value : Nat) (_m : Master) (s : State) : Host.Outcome State Fault Refusal :=
  done (s.capWrite (value % 4096))

/-- PWR_PEAK_CLR (R508). -/
def execPwrPeakClr (_m : Master) (s : State) : Host.Outcome State Fault Refusal :=
  done (s.setF F.PWR_IN_PEAK_W 0)

/-- THROTTLE_STEP (R497). -/
def execThrottleStep (r : Nat) (s : State) : Host.Outcome State Fault Refusal :=
  onUnit (decide (r < 8)) (done (s.throttle r))

/-- THROTTLE_RECOVER_STEP (R497). -/
def execThrottleRecoverStep (r : Nat) (s : State) : Host.Outcome State Fault Refusal :=
  onUnit (decide (r < 8)) (done (s.throttleBack r))

/-- TRIP (R498). -/
def execTrip (n : Nat) (s : State) : Host.Outcome State Fault Refusal :=
  onUnit (decide (n < 74)) (done (s.trip))

/-- DTDT_HOLD_EXPIRE (R499). -/
def execDtdtHoldExpire (r : Nat) (s : State) : Host.Outcome State Fault Refusal :=
  onUnit (decide (r < 8)) (done (s.rateHoldEnd r))

/-- COLD_HOLD_CHECK (R500). -/
def execColdHoldCheck (s : State) : Host.Outcome State Fault Refusal :=
  done (s.coldCheck)

/-- BASK_TIMEOUT (R502). -/
def execBaskTimeout (s : State) : Host.Outcome State Fault Refusal :=
  done (s.baskTimeout)

/-- PWR_STOP (R503). -/
def execPwrStop (_m : Master) (s : State) : Host.Outcome State Fault Refusal :=
  done (s.orderlyStop 7)

/-- STOP_ABORT_POINT (R504). -/
def execStopAbortPoint (s : State) : Host.Outcome State Fault Refusal :=
  done (s.stopAbort)

/-- POWER_DOWN (R489). -/
def execPowerDown (s : State) : Host.Outcome State Fault Refusal :=
  done (s.powerDown)

/-- AUTO_RESTART (R505). -/
def execAutoRestart (s : State) : Host.Outcome State Fault Refusal :=
  done (s.autoRestart)

/-- RESET_N_LOW (R514). -/
def execResetNLow (s : State) : Host.Outcome State Fault Refusal :=
  done (s.resetNLow)

/-- RESET_N_HIGH (R514). -/
def execResetNHigh (s : State) : Host.Outcome State Fault Refusal :=
  done (s.resetNHigh)

/-- REFCLK_LOSS (R518). -/
def execRefclkLoss (s : State) : Host.Outcome State Fault Refusal :=
  done (s.refclkLoss)

/-- INPUT_LOSS (R517). -/
def execInputLoss (s : State) : Host.Outcome State Fault Refusal :=
  done (s.inputLoss)

end Sys2Proof.Machine
end

