-- ==== Sys2Proof/Machine/CmdQueue.lean ====
section
/-! DEFINITION. The meanings of the commands of command queues, gates and ordering (R185 to R224). Each is one definition over a shared operation. -/

namespace Sys2Proof.Machine

/-- QUEUE_DOORBELL (R188). -/
def execQueueDoorbell (q value : Nat) (m : Master) (s : State) : Host.Outcome State Fault Refusal :=
  onUnit (decide (q < 256)) (done (s.doorbell q value m))

/-- RHEAD_WRITE (R188). -/
def execRheadWrite (q value : Nat) (m : Master) (s : State) : Host.Outcome State Fault Refusal :=
  onUnit (decide (q < 256)) (done (s.rheadWrite q value m))

/-- COMMAND_DISPATCH (R195). -/
def execCommandDispatch (q : Nat) (s : State) : Host.Outcome State Fault Refusal :=
  onUnit (decide (q < 256)) (done (s.dispatchHead q fun _ => true))

/-- TILE_COMMIT (R196). -/
def execTileCommit (q seq : Nat) (s : State) : Host.Outcome State Fault Refusal :=
  onUnit (decide (q < 256)) (done (s.commitCmd q seq))

/-- COMMAND_RETIRE (R198). -/
def execCommandRetire (q seq : Nat) (s : State) : Host.Outcome State Fault Refusal :=
  onUnit (decide (q < 256)) (done (s.retireCmd q seq))

/-- GATE_SIGNAL (R201). -/
def execGateSignal (q seq : Nat) (s : State) : Host.Outcome State Fault Refusal :=
  onUnit (decide (q < 256)) (done (s.signalCmd q seq))

/-- REPLY_WRITE (R205). -/
def execReplyWrite (q : Nat) (s : State) : Host.Outcome State Fault Refusal :=
  onUnit (decide (q < 256)) (done (s.replyOut q))

/-- QUEUE_WAIT_LONG (R203). -/
def execQueueWaitLong (q : Nat) (s : State) : Host.Outcome State Fault Refusal :=
  onUnit (decide (q < 256)) (done (s.waitLong q))

/-- NOP (R193). -/
def execNop (q : Nat) (s : State) : Host.Outcome State Fault Refusal :=
  onUnit (decide (q < 256)) (done (s.dispatchHead q fun p => opIs 0x00 p))

/-- GATE_ADD (R194). -/
def execGateAdd (q : Nat) (s : State) : Host.Outcome State Fault Refusal :=
  onUnit (decide (q < 256)) (done (s.dispatchHead q fun p => opIs 0x20 p))

/-- GATE_SET (R194). -/
def execGateSet (q : Nat) (s : State) : Host.Outcome State Fault Refusal :=
  onUnit (decide (q < 256)) (done (s.dispatchHead q fun p => opIs 0x21 p))

/-- ABORT (R213). -/
def execAbort (q : Nat) (s : State) : Host.Outcome State Fault Refusal :=
  onUnit (decide (q < 256)) (done (s.dispatchHead q fun p => opIs 0x30 p))

/-- QE_GATE_VAL_WRITE (R202). -/
def execQeGateValWrite (g value : Nat) (_m : Master) (s : State) : Host.Outcome State Fault Refusal :=
  onUnit (decide (g < 4096)) (done (s.setF F.QE_GATE_VAL_VALUE (value % 2 ^ 48) g))

/-- QE_GATE_ADD_WRITE (R202). -/
def execQeGateAddWrite (g value : Nat) (_m : Master) (s : State) : Host.Outcome State Fault Refusal :=
  onUnit (decide (g < 4096)) (done (s.gateAddWord g value))

/-- QUEUE_ENABLE (R185). -/
def execQueueEnable (q : Nat) (_m : Master) (s : State) : Host.Outcome State Fault Refusal :=
  onUnit (decide (q < 256)) (done (s.queueEnable q))

/-- QUEUE_DISABLE (R215). -/
def execQueueDisable (q : Nat) (_m : Master) (s : State) : Host.Outcome State Fault Refusal :=
  onUnit (decide (q < 256)) (done (s.queueDisable q))

/-- QUEUE_DRAIN_FINISH (R215). -/
def execQueueDrainFinish (q : Nat) (_m : Master) (s : State) : Host.Outcome State Fault Refusal :=
  onUnit (decide (q < 256)) (done (s.queueDrain q 1))

/-- QUEUE_DRAIN_ABORT (R215). -/
def execQueueDrainAbort (q : Nat) (_m : Master) (s : State) : Host.Outcome State Fault Refusal :=
  onUnit (decide (q < 256)) (done (s.queueDrain q 2))

/-- QUEUE_DRAIN_DONE (R216). -/
def execQueueDrainDone (q : Nat) (s : State) : Host.Outcome State Fault Refusal :=
  onUnit (decide (q < 256)) (done (s.drainEnd q))

/-- QUEUE_RESUME (R211). -/
def execQueueResume (q : Nat) (_m : Master) (s : State) : Host.Outcome State Fault Refusal :=
  onUnit (decide (q < 256)) (done (s.queueResume q))

/-- CLAMP_CLR (R224). -/
def execClampClr (q : Nat) (_m : Master) (s : State) : Host.Outcome State Fault Refusal :=
  onUnit (decide (q < 256)) (done (s.setF F.QE_Q_CLAMP_COUNT 0 q))

/-- WING_DRAIN_TIMEOUT (R215). -/
def execWingDrainTimeout (w : Nat) (s : State) : Host.Outcome State Fault Refusal :=
  onUnit (decide (w < 64)) (done (s.wingDrainTimeout w))

/-- CHAIN_REPLAY (R219). -/
def execChainReplay (w : Nat) (s : State) : Host.Outcome State Fault Refusal :=
  onUnit (decide (w < 64)) (done (s.chainReplay w))

/-- ADOPTION_COPY_DONE (R221). -/
def execAdoptionCopyDone (w : Nat) (s : State) : Host.Outcome State Fault Refusal :=
  onUnit (decide (w < 64)) (done (s.adoptDone w))

end Sys2Proof.Machine
end

