-- ==== Sys2Proof/Machine/CmdResilience.lean ====
section
/-! DEFINITION. The meanings of the commands of step commit and buddy checkpoints (R460 to R487). Each is one definition over a shared operation. -/

namespace Sys2Proof.Machine

/-- STEP_COMMIT (R471). -/
def execStepCommit (q : Nat) (s : State) : Host.Outcome State Fault Refusal :=
  onUnit (decide (q < 256)) (done (s.dispatchHead q fun p => opIs 0x28 p))

/-- PUSH (R469). -/
def execPush (q : Nat) (s : State) : Host.Outcome State Fault Refusal :=
  onUnit (decide (q < 256)) (done (s.dispatchHead q fun p => opIs 0x29 p && bitsAt (p.getD 2 0) 0 2 == 0))

/-- RESTORE (R478). -/
def execRestore (q : Nat) (s : State) : Host.Outcome State Fault Refusal :=
  onUnit (decide (q < 256)) (done (s.dispatchHead q fun p => opIs 0x29 p && bitsAt (p.getD 2 0) 0 2 == 1))

/-- BUDDY_TIMEOUT (R482). -/
def execBuddyTimeout (q seq : Nat) (s : State) : Host.Outcome State Fault Refusal :=
  onUnit (decide (q < 256)) (done (s.buddyTimeout q seq))

/-- TAINT_SET (R470). -/
def execTaintSet (_m : Master) (s : State) : Host.Outcome State Fault Refusal :=
  done (s.taint 7)

/-- LAST_WRITE (R477). -/
def execLastWrite (value : Nat) (m : Master) (s : State) : Host.Outcome State Fault Refusal :=
  done (s.lastWrite value m)

/-- RES_CTRL_WRITE (R462). -/
def execResCtrlWrite (value : Nat) (m : Master) (s : State) : Host.Outcome State Fault Refusal :=
  done (s.resCtrl value m)

end Sys2Proof.Machine
end

