-- ==== Sys2Proof/Machine/CmdTray.lean ====
section
/-! DEFINITION. The meanings of the commands of the tray memory domain, core accesses and COPY (R335 to R358, R385). Each is one definition over a shared operation. -/

namespace Sys2Proof.Machine

/-- TRAY_LOAD (R338). -/
def execTrayLoad (h a n : Nat) (cached : Bool) (s : State) : Host.Outcome State Fault Refusal :=
  onUnit (decide (h < 16) && coreSize n) (done (s.coreLoad h a n cached))

/-- TRAY_STORE (R338). -/
def execTrayStore (h a : Nat) (data : List Byte) (cached : Bool) (s : State) : Host.Outcome State Fault Refusal :=
  onUnit (decide (h < 16) && coreSize data.length) (done (s.coreStore h a data cached))

/-- TRAY_ATOMIC (R341). -/
def execTrayAtomic (h a n : Nat) (o : CoreAmo) (operand compare : Nat) (s : State) : Host.Outcome State Fault Refusal :=
  onUnit (decide (h < 16)) (done (s.trayAtomic h a n o operand compare))

/-- CORE_FENCE (R340). -/
def execCoreFence (h : Nat) (pred : Bool) (s : State) : Host.Outcome State Fault Refusal :=
  onUnit (decide (h < 16)) (done (s.coreFence h pred))

/-- CORE_LOCAL_ATOMIC (R385). -/
def execCoreLocalAtomic (h a n : Nat) (o : CoreAmo) (operand compare : Nat) (s : State) : Host.Outcome State Fault Refusal :=
  onUnit (decide (h < 16)) (done (s.localAtomic h a n o operand compare))

/-- READ (R346). -/
def execRead (src : Nat) (s : State) : Host.Outcome State Fault Refusal :=
  done (s.homeRead src)

/-- READ_LINE (R345). -/
def execReadLine (src : Nat) (s : State) : Host.Outcome State Fault Refusal :=
  done (s.homeLine src false)

/-- READ_OWN (R345). -/
def execReadOwn (src : Nat) (s : State) : Host.Outcome State Fault Refusal :=
  done (s.homeLine src true)

/-- WRITE (R345). -/
def execWrite (src : Nat) (s : State) : Host.Outcome State Fault Refusal :=
  done (s.homeWrite src 4)

/-- WRITE_BURST (R346). -/
def execWriteBurst (src : Nat) (s : State) : Host.Outcome State Fault Refusal :=
  done (s.homeWrite src 5)

/-- ATOMIC (R341). -/
def execAtomic (src : Nat) (s : State) : Host.Outcome State Fault Refusal :=
  done (s.homeAtomic src)

/-- WRITEBACK (R345). -/
def execWriteback (src : Nat) (s : State) : Host.Outcome State Fault Refusal :=
  done (s.homeWriteback src)

/-- INVAL (R345). -/
def execInval (src : Nat) (s : State) : Host.Outcome State Fault Refusal :=
  done (s.holderInval src)

/-- INVAL_ACK (R345). -/
def execInvalAck (src : Nat) (s : State) : Host.Outcome State Fault Refusal :=
  done (s.homeInvalAck src)

/-- TRAY_DATA_REPLY (R346). -/
def execTrayDataReply (src : Nat) (s : State) : Host.Outcome State Fault Refusal :=
  done (s.replyData src)

/-- TRAY_REFUSED (R353). -/
def execTrayRefused (src : Nat) (s : State) : Host.Outcome State Fault Refusal :=
  done (s.replyRefused src)

/-- ARRIVE (R347). -/
def execArrive (src : Nat) (s : State) : Host.Outcome State Fault Refusal :=
  done (s.homeArrive src)

/-- JOIN (R354). -/
def execJoin (src : Nat) (s : State) : Host.Outcome State Fault Refusal :=
  done (s.homeJoin src)

/-- LEAVE (R356). -/
def execLeave (src : Nat) (s : State) : Host.Outcome State Fault Refusal :=
  done (s.homeLeave src)

/-- TRAY_JOIN_START (R354). -/
def execTrayJoinStart (_m : Master) (s : State) : Host.Outcome State Fault Refusal :=
  done (s.joinStart)

/-- TRAY_LEAVE_START (R355). -/
def execTrayLeaveStart (_m : Master) (s : State) : Host.Outcome State Fault Refusal :=
  done (s.leaveStart)

/-- TRAY_LEAVE_DONE (R355). -/
def execTrayLeaveDone (s : State) : Host.Outcome State Fault Refusal :=
  done (s.leaveDone)

/-- TRY_WIN_WRITE (R358). -/
def execTryWinWrite (value : Nat) (m : Master) (s : State) : Host.Outcome State Fault Refusal :=
  done (s.tryWin value m)

/-- COPY_LINEAR (R348). -/
def execCopyLinear (q : Nat) (s : State) : Host.Outcome State Fault Refusal :=
  onUnit (decide (q < 256)) (done (s.dispatchHead q fun p => opIs 0x08 p && bitsAt (p.getD 2 0) 48 3 == 0))

/-- COPY_STRIDED (R348). -/
def execCopyStrided (q : Nat) (s : State) : Host.Outcome State Fault Refusal :=
  onUnit (decide (q < 256)) (done (s.dispatchHead q fun p => opIs 0x08 p && bitsAt (p.getD 2 0) 48 3 == 1))

/-- COPY_GATHER (R348). -/
def execCopyGather (q : Nat) (s : State) : Host.Outcome State Fault Refusal :=
  onUnit (decide (q < 256)) (done (s.dispatchHead q fun p => opIs 0x08 p && bitsAt (p.getD 2 0) 48 3 == 2))

/-- COPY_SCATTER (R348). -/
def execCopyScatter (q : Nat) (s : State) : Host.Outcome State Fault Refusal :=
  onUnit (decide (q < 256)) (done (s.dispatchHead q fun p => opIs 0x08 p && bitsAt (p.getD 2 0) 48 3 == 3))

/-- COPY_ATOMIC (R348). -/
def execCopyAtomic (q : Nat) (s : State) : Host.Outcome State Fault Refusal :=
  onUnit (decide (q < 256)) (done (s.dispatchHead q fun p => opIs 0x08 p && bitsAt (p.getD 2 0) 48 3 == 4))

end Sys2Proof.Machine
end

