-- ==== Sys2Proof/Machine/CmdWing.lean ====
section
/-! DEFINITION. The meanings of the commands of wings, matrix arrays, the runner and the tile stores (R91 to R148). Each is one definition over a shared operation. -/

namespace Sys2Proof.Machine

/-- MATMUL (R100). -/
def execMatmul (q : Nat) (s : State) : Host.Outcome State Fault Refusal :=
  onUnit (decide (q < 256)) (done (s.dispatchHead q fun p => opIs 0x01 p))

/-- ACTIVATION_LOAD (R105). -/
def execActivationLoad (w : Nat) (s : State) : Host.Outcome State Fault Refusal :=
  onUnit (decide (w < 64)) (done (s.loadNext w))

/-- ARRAY_STEP (R93). -/
def execArrayStep (w : Nat) (errs : List (Nat × Nat × Nat)) (s : State) : Host.Outcome State Fault Refusal :=
  onUnit (decide (w < 64)) (done (s.arrayStep w errs))

/-- TESTBAR_CHECK (R109). -/
def execTestbarCheck (w a c : Nat) (s : State) : Host.Outcome State Fault Refusal :=
  onUnit (decide (w < 64) && decide (a < 4) && decide (c < 64)) (done (s.checkNow w a c))

/-- EPILOGUE_RUN (R107). -/
def execEpilogueRun (w : Nat) (s : State) : Host.Outcome State Fault Refusal :=
  onUnit (decide (w < 64)) (done (s.startEpilogue w))

/-- WING_HANG (R116). -/
def execWingHang (w : Nat) (s : State) : Host.Outcome State Fault Refusal :=
  onUnit (decide (w < 64)) (done (s.wingHang w))

/-- WING_TAKE_OUT (R115). -/
def execWingTakeOut (w : Nat) (_m : Master) (s : State) : Host.Outcome State Fault Refusal :=
  onUnit (decide (w < 64)) (done (s.takeOut w))

/-- WING_RESTORE (R115). -/
def execWingRestore (w : Nat) (_m : Master) (s : State) : Host.Outcome State Fault Refusal :=
  onUnit (decide (w < 64)) (done (s.restoreWing w))

/-- ARRAY_FENCE (R117). -/
def execArrayFence (w a : Nat) (_m : Master) (s : State) : Host.Outcome State Fault Refusal :=
  onUnit (decide (w < 64) && decide (a < 4)) (done (s.fenceArray w a))

/-- BIST_START (R119). -/
def execBistStart (w : Nat) (_m : Master) (s : State) : Host.Outcome State Fault Refusal :=
  onUnit (decide (w < 64)) (done (s.bistStart w))

/-- BIST_DONE (R119). -/
def execBistDone (w : Nat) (results : List BistResult) (s : State) : Host.Outcome State Fault Refusal :=
  onUnit (decide (w < 64)) (done (s.bistDone w results))

/-- ACC_WINDOW_READ (R121). -/
def execAccWindowRead (w off width : Nat) (m : Master) (s : State) : Host.Outcome State Fault Refusal :=
  onUnit (decide (w < 64) && decide (off < 0x20000)) (done (s.accWindow w off width m))

/-- STITCH_CODE_ERROR (R126). -/
def execStitchCodeError (x : Nat) (s : State) : Host.Outcome State Fault Refusal :=
  onUnit (decide (x < 4)) (done (s.stitchError x))

/-- STREAM_VALIDATE (R130). -/
def execStreamValidate (i : Nat) (m : Master) (s : State) : Host.Outcome State Fault Refusal :=
  onUnit (decide (i < 4096)) (done (s.streamValidate i m))

/-- STREAM_DESC_WRITE (R131). -/
def execStreamDescWrite (i word value : Nat) (m : Master) (s : State) : Host.Outcome State Fault Refusal :=
  onUnit (decide (i < 4096) && decide (word < 4)) (done (s.descWrite i word value m))

/-- STREAM_INSTANCE_OPEN (R132). -/
def execStreamInstanceOpen (i w : Nat) (s : State) : Host.Outcome State Fault Refusal :=
  onUnit (decide (i < 4096) && decide (w < 64)) (done (s.openFor i w))

/-- JOIN_TIMEOUT (R133). -/
def execJoinTimeout (i : Nat) (s : State) : Host.Outcome State Fault Refusal :=
  onUnit (decide (i < 4096)) (done (s.joinTimeout i))

/-- RUNNER_SLAB_PASS (R136). -/
def execRunnerSlabPass (inst : Nat) (s : State) : Host.Outcome State Fault Refusal :=
  done (s.onInst inst fun x s => s.passSlab x)

/-- RECEIVER_PRUNE (R137). -/
def execReceiverPrune (inst w : Nat) (s : State) : Host.Outcome State Fault Refusal :=
  onUnit (decide (w < 64)) (done (s.onInst inst fun x s => s.pruneRecv x w))

/-- INSTANCE_CLOSE (R138). -/
def execInstanceClose (inst : Nat) (s : State) : Host.Outcome State Fault Refusal :=
  done (s.onInst inst fun x s => s.instDone x)

/-- TILE_STORE_ACCESS (R146). -/
def execTileStoreAccess (w : Nat) (reqs : List PortReq) (s : State) : Host.Outcome State Fault Refusal :=
  onUnit (decide (w < 64) && reqs.all portMay) (done (s.tileStep w reqs))

/-- VEC_RUN (R157). -/
def execVecRun (q : Nat) (s : State) : Host.Outcome State Fault Refusal :=
  onUnit (decide (q < 256)) (done (s.dispatchHead q fun p => opIs 0x02 p))

end Sys2Proof.Machine
end

