-- ==== Sys2Proof/Machine/Dispatch.lean ====
section
/-! DEFINITION. The dispatch of a command to its meaning: one arm per constructor. -/

namespace Sys2Proof.Machine

/-- What a command does to everything but the queue. -/
def exec (i : Instr) (s : State) : Host.Outcome State Fault Refusal :=
  match i with
  | .regWrite addr width value m => Sys2Proof.Machine.execRegWrite addr width value m s
  | .slackWindowEnd d slack => Sys2Proof.Machine.execSlackWindowEnd d slack s
  | .tapWiden d => Sys2Proof.Machine.execTapWiden d s
  | .holdWiden d slack => Sys2Proof.Machine.execHoldWiden d slack s
  | .tapRelax d => Sys2Proof.Machine.execTapRelax d s
  | .relaxReevaluate d => Sys2Proof.Machine.execRelaxReevaluate d s
  | .marginExhausted d => Sys2Proof.Machine.execMarginExhausted d s
  | .shadowLatchFlag d => Sys2Proof.Machine.execShadowLatchFlag d s
  | .vfloorRecompute r => Sys2Proof.Machine.execVfloorRecompute r s
  | .plannedWrite d value m => Sys2Proof.Machine.execPlannedWrite d value m s
  | .sweepOffWrite d value m => Sys2Proof.Machine.execSweepOffWrite d value m s
  | .mgnPeakClr d m => Sys2Proof.Machine.execMgnPeakClr d m s
  | .slackMinClr d m => Sys2Proof.Machine.execSlackMinClr d m s
  | .mgnCtrlWrite value m => Sys2Proof.Machine.execMgnCtrlWrite value m s
  | .temperStart m => Sys2Proof.Machine.execTemperStart m s
  | .temperRotationDue => Sys2Proof.Machine.execTemperRotationDue s
  | .temperTriggered d => Sys2Proof.Machine.execTemperTriggered d s
  | .temperWingSkip w => Sys2Proof.Machine.execTemperWingSkip w s
  | .temperDomainPass d slack erosion => Sys2Proof.Machine.execTemperDomainPass d slack erosion s
  | .baskTapRemove r => Sys2Proof.Machine.execBaskTapRemove r s
  | .stepsRead w => Sys2Proof.Machine.execStepsRead w s
  | .matmul q => Sys2Proof.Machine.execMatmul q s
  | .activationLoad w => Sys2Proof.Machine.execActivationLoad w s
  | .arrayStep w errs => Sys2Proof.Machine.execArrayStep w errs s
  | .testbarCheck w a c => Sys2Proof.Machine.execTestbarCheck w a c s
  | .epilogueRun w => Sys2Proof.Machine.execEpilogueRun w s
  | .wingHang w => Sys2Proof.Machine.execWingHang w s
  | .wingTakeOut w m => Sys2Proof.Machine.execWingTakeOut w m s
  | .wingRestore w m => Sys2Proof.Machine.execWingRestore w m s
  | .arrayFence w a m => Sys2Proof.Machine.execArrayFence w a m s
  | .bistStart w m => Sys2Proof.Machine.execBistStart w m s
  | .bistDone w results => Sys2Proof.Machine.execBistDone w results s
  | .accWindowRead w off width m => Sys2Proof.Machine.execAccWindowRead w off width m s
  | .stitchCodeError x => Sys2Proof.Machine.execStitchCodeError x s
  | .streamValidate idx m => Sys2Proof.Machine.execStreamValidate idx m s
  | .streamDescWrite idx word value m => Sys2Proof.Machine.execStreamDescWrite idx word value m s
  | .streamInstanceOpen idx w => Sys2Proof.Machine.execStreamInstanceOpen idx w s
  | .joinTimeout idx => Sys2Proof.Machine.execJoinTimeout idx s
  | .runnerSlabPass inst => Sys2Proof.Machine.execRunnerSlabPass inst s
  | .receiverPrune inst w => Sys2Proof.Machine.execReceiverPrune inst w s
  | .instanceClose inst => Sys2Proof.Machine.execInstanceClose inst s
  | .tileStoreAccess w reqs => Sys2Proof.Machine.execTileStoreAccess w reqs s
  | .vecRun q => Sys2Proof.Machine.execVecRun q s
  | .patternNop w => Sys2Proof.Machine.execPatternNop w s
  | .mov w => Sys2Proof.Machine.execMov w s
  | .add w => Sys2Proof.Machine.execAdd w s
  | .sub w => Sys2Proof.Machine.execSub w s
  | .mul w => Sys2Proof.Machine.execMul w s
  | .fma w => Sys2Proof.Machine.execFma w s
  | .fms w => Sys2Proof.Machine.execFms w s
  | .fnma w => Sys2Proof.Machine.execFnma w s
  | .div w => Sys2Proof.Machine.execDiv w s
  | .sqrt w => Sys2Proof.Machine.execSqrt w s
  | .min w => Sys2Proof.Machine.execMin w s
  | .max w => Sys2Proof.Machine.execMax w s
  | .minn w => Sys2Proof.Machine.execMinn w s
  | .maxn w => Sys2Proof.Machine.execMaxn w s
  | .abs w => Sys2Proof.Machine.execAbs w s
  | .neg w => Sys2Proof.Machine.execNeg w s
  | .cmpeq w => Sys2Proof.Machine.execCmpeq w s
  | .cmplt w => Sys2Proof.Machine.execCmplt w s
  | .cmple w => Sys2Proof.Machine.execCmple w s
  | .cmpun w => Sys2Proof.Machine.execCmpun w s
  | .sel w => Sys2Proof.Machine.execSel w s
  | .scale w => Sys2Proof.Machine.execScale w s
  | .cvt w => Sys2Proof.Machine.execCvt w s
  | .rint w => Sys2Proof.Machine.execRint w s
  | .qnt w => Sys2Proof.Machine.execQnt w s
  | .iadd w => Sys2Proof.Machine.execIadd w s
  | .isub w => Sys2Proof.Machine.execIsub w s
  | .imul w => Sys2Proof.Machine.execImul w s
  | .and w => Sys2Proof.Machine.execAnd w s
  | .or w => Sys2Proof.Machine.execOr w s
  | .xor w => Sys2Proof.Machine.execXor w s
  | .shl w => Sys2Proof.Machine.execShl w s
  | .shr w => Sys2Proof.Machine.execShr w s
  | .sra w => Sys2Proof.Machine.execSra w s
  | .imin w => Sys2Proof.Machine.execImin w s
  | .imax w => Sys2Proof.Machine.execImax w s
  | .exp2 w => Sys2Proof.Machine.execExp2 w s
  | .exp w => Sys2Proof.Machine.execExp w s
  | .log2 w => Sys2Proof.Machine.execLog2 w s
  | .log w => Sys2Proof.Machine.execLog w s
  | .rcp w => Sys2Proof.Machine.execRcp w s
  | .rsqrt w => Sys2Proof.Machine.execRsqrt w s
  | .tanh w => Sys2Proof.Machine.execTanh w s
  | .sigm w => Sys2Proof.Machine.execSigm w s
  | .erf w => Sys2Proof.Machine.execErf w s
  | .sin w => Sys2Proof.Machine.execSin w s
  | .cos w => Sys2Proof.Machine.execCos w s
  | .gath w => Sys2Proof.Machine.execGath w s
  | .scat w => Sys2Proof.Machine.execScat w s
  | .lxch w => Sys2Proof.Machine.execLxch w s
  | .lsum w => Sys2Proof.Machine.execLsum w s
  | .lshf w => Sys2Proof.Machine.execLshf w s
  | .vecReduction w => Sys2Proof.Machine.execVecReduction w s
  | .trWindowRead w off width m => Sys2Proof.Machine.execTrWindowRead w off width m s
  | .queueDoorbell q value m => Sys2Proof.Machine.execQueueDoorbell q value m s
  | .rheadWrite q value m => Sys2Proof.Machine.execRheadWrite q value m s
  | .commandDispatch q => Sys2Proof.Machine.execCommandDispatch q s
  | .tileCommit q seq => Sys2Proof.Machine.execTileCommit q seq s
  | .commandRetire q seq => Sys2Proof.Machine.execCommandRetire q seq s
  | .gateSignal q seq => Sys2Proof.Machine.execGateSignal q seq s
  | .replyWrite q => Sys2Proof.Machine.execReplyWrite q s
  | .queueWaitLong q => Sys2Proof.Machine.execQueueWaitLong q s
  | .nop q => Sys2Proof.Machine.execNop q s
  | .gateAdd q => Sys2Proof.Machine.execGateAdd q s
  | .gateSet q => Sys2Proof.Machine.execGateSet q s
  | .abort q => Sys2Proof.Machine.execAbort q s
  | .qeGateValWrite g value m => Sys2Proof.Machine.execQeGateValWrite g value m s
  | .qeGateAddWrite g value m => Sys2Proof.Machine.execQeGateAddWrite g value m s
  | .queueEnable q m => Sys2Proof.Machine.execQueueEnable q m s
  | .queueDisable q m => Sys2Proof.Machine.execQueueDisable q m s
  | .queueDrainFinish q m => Sys2Proof.Machine.execQueueDrainFinish q m s
  | .queueDrainAbort q m => Sys2Proof.Machine.execQueueDrainAbort q m s
  | .queueDrainDone q => Sys2Proof.Machine.execQueueDrainDone q s
  | .queueResume q m => Sys2Proof.Machine.execQueueResume q m s
  | .clampClr q m => Sys2Proof.Machine.execClampClr q m s
  | .wingDrainTimeout w => Sys2Proof.Machine.execWingDrainTimeout w s
  | .chainReplay w => Sys2Proof.Machine.execChainReplay w s
  | .adoptionCopyDone w => Sys2Proof.Machine.execAdoptionCopyDone w s
  | .memQualOverride f m => Sys2Proof.Machine.execMemQualOverride f m s
  | .ladleRead a n hint m => Sys2Proof.Machine.execLadleRead a n hint m s
  | .ladleWrite a data hint m => Sys2Proof.Machine.execLadleWrite a data hint m s
  | .ladleMissFill k errs ondie => Sys2Proof.Machine.execLadleMissFill k errs ondie s
  | .ladleWriteback q => Sys2Proof.Machine.execLadleWriteback q s
  | .ladleEvict q => Sys2Proof.Machine.execLadleEvict q s
  | .ladleUnprotect q => Sys2Proof.Machine.execLadleUnprotect q s
  | .ladlePrefetch q => Sys2Proof.Machine.execLadlePrefetch q s
  | .ladleZero q => Sys2Proof.Machine.execLadleZero q s
  | .perBankRefresh k => Sys2Proof.Machine.execPerBankRefresh k s
  | .refreshManagementRequest k => Sys2Proof.Machine.execRefreshManagementRequest k s
  | .stackTempRead k temp => Sys2Proof.Machine.execStackTempRead k temp s
  | .scrubRead k errs => Sys2Proof.Machine.execScrubRead k errs s
  | .parityError k retryOk => Sys2Proof.Machine.execParityError k retryOk s
  | .phyLockLoss k => Sys2Proof.Machine.execPhyLockLoss k s
  | .stackRetrainDone k ok => Sys2Proof.Machine.execStackRetrainDone k ok s
  | .turnWrite q => Sys2Proof.Machine.execTurnWrite q s
  | .turnArm q => Sys2Proof.Machine.execTurnArm q s
  | .turnDisarm q => Sys2Proof.Machine.execTurnDisarm q s
  | .d2dFrameReceive l dir x tag payload way => Sys2Proof.Machine.execD2dFrameReceive l dir x tag payload way s
  | .d2dNak l dir cls seq => Sys2Proof.Machine.execD2dNak l dir cls seq s
  | .d2dLinkControl l dir acks credits => Sys2Proof.Machine.execD2dLinkControl l dir acks credits s
  | .sliceRetrainDone l n ok repairs eye => Sys2Proof.Machine.execSliceRetrainDone l n ok repairs eye s
  | .d2dSwitch f m => Sys2Proof.Machine.execD2dSwitch f m s
  | .d2dModeChangeDone f work => Sys2Proof.Machine.execD2dModeChangeDone f work s
  | .d2dLockLoss f => Sys2Proof.Machine.execD2dLockLoss f s
  | .edgeRetrainDone f work => Sys2Proof.Machine.execEdgeRetrainDone f work s
  | .ringLockLoss p r frame loss => Sys2Proof.Machine.execRingLockLoss p r frame loss s
  | .combMonitor e c bias temp powers lasing frame => Sys2Proof.Machine.execCombMonitor e c bias temp powers lasing frame s
  | .lineSourceFail e n frame => Sys2Proof.Machine.execLineSourceFail e n frame s
  | .rxMonitor p lines frame => Sys2Proof.Machine.execRxMonitor p lines frame s
  | .lossOfSignal p n frame => Sys2Proof.Machine.execLossOfSignal p n frame s
  | .peerId p num addr port => Sys2Proof.Machine.execPeerId p num addr port s
  | .lswapReq p num lane spare frame => Sys2Proof.Machine.execLswapReq p num lane spare frame s
  | .lswapDup p num lane spare f => Sys2Proof.Machine.execLswapDup p num lane spare f s
  | .lswapVerifyDone p frame ok => Sys2Proof.Machine.execLswapVerifyDone p frame ok s
  | .lswapDone p num lane spare f => Sys2Proof.Machine.execLswapDone p num lane spare f s
  | .lswapCutover p frame sender => Sys2Proof.Machine.execLswapCutover p frame sender s
  | .lswapAbandon p num lane spare frame verify => Sys2Proof.Machine.execLswapAbandon p num lane spare frame verify s
  | .lswapTimeout p frame sender => Sys2Proof.Machine.execLswapTimeout p frame sender s
  | .leLswap p lane frame m => Sys2Proof.Machine.execLeLswap p lane frame m s
  | .narrowAt p num lanes f => Sys2Proof.Machine.execNarrowAt p num lanes f s
  | .widenAt p num lanes f => Sys2Proof.Machine.execWidenAt p num lanes f s
  | .stripeChange p => Sys2Proof.Machine.execStripeChange p s
  | .combSwap e frame requested => Sys2Proof.Machine.execCombSwap e frame requested s
  | .combLocked e c frame => Sys2Proof.Machine.execCombLocked e c frame s
  | .combLockTimeout e => Sys2Proof.Machine.execCombLockTimeout e s
  | .cswapAt p num f => Sys2Proof.Machine.execCswapAt p num f s
  | .combCutover p frame => Sys2Proof.Machine.execCombCutover p frame s
  | .laneAck p num => Sys2Proof.Machine.execLaneAck p num s
  | .portOff p num => Sys2Proof.Machine.execPortOff p num s
  | .portDisable p m => Sys2Proof.Machine.execPortDisable p m s
  | .portEnable p m => Sys2Proof.Machine.execPortEnable p m s
  | .portDrainDone p => Sys2Proof.Machine.execPortDrainDone p s
  | .leEnableWrite e value m => Sys2Proof.Machine.execLeEnableWrite e value m s
  | .leThreshWrite e value m => Sys2Proof.Machine.execLeThreshWrite e value m s
  | .linkUnitReceive p u way => Sys2Proof.Machine.execLinkUnitReceive p u way s
  | .linkNak p lseq => Sys2Proof.Machine.execLinkNak p lseq s
  | .linkResendTimeout p => Sys2Proof.Machine.execLinkResendTimeout p s
  | .linkControlUnit p => Sys2Proof.Machine.execLinkControlUnit p s
  | .cellRoute p v => Sys2Proof.Machine.execCellRoute p v s
  | .portUsabilityChange p => Sys2Proof.Machine.execPortUsabilityChange p s
  | .e2eDataReceive c => Sys2Proof.Machine.execE2eDataReceive c s
  | .e2eCloseReceive c => Sys2Proof.Machine.execE2eCloseReceive c s
  | .e2eAckReceive c => Sys2Proof.Machine.execE2eAckReceive c s
  | .e2eResetReceive c => Sys2Proof.Machine.execE2eResetReceive c s
  | .e2eAckDelayExpire peer c group => Sys2Proof.Machine.execE2eAckDelayExpire peer c group s
  | .e2eRetransmit peer c mc => Sys2Proof.Machine.execE2eRetransmit peer c mc s
  | .peerEvict peer => Sys2Proof.Machine.execPeerEvict peer s
  | .rtLoad m => Sys2Proof.Machine.execRtLoad m s
  | .rtArm m => Sys2Proof.Machine.execRtArm m s
  | .rtFlip m => Sys2Proof.Machine.execRtFlip m s
  | .rtBankDrained b => Sys2Proof.Machine.execRtBankDrained b s
  | .rtEntryWrite b loc r value m => Sys2Proof.Machine.execRtEntryWrite b loc r value m s
  | .fabAddrWrite value m => Sys2Proof.Machine.execFabAddrWrite value m s
  | .fabEnable value m => Sys2Proof.Machine.execFabEnable value m s
  | .peerClear peer m => Sys2Proof.Machine.execPeerClear peer m s
  | .cableAccept p m => Sys2Proof.Machine.execCableAccept p m s
  | .cableRecheck p m => Sys2Proof.Machine.execCableRecheck p m s
  | .fence q => Sys2Proof.Machine.execFence q s
  | .fenceTimeout q seq => Sys2Proof.Machine.execFenceTimeout q seq s
  | .trayLoad h a n cached => Sys2Proof.Machine.execTrayLoad h a n cached s
  | .trayStore h a data cached => Sys2Proof.Machine.execTrayStore h a data cached s
  | .trayAtomic h a n o operand compare => Sys2Proof.Machine.execTrayAtomic h a n o operand compare s
  | .coreFence h pred => Sys2Proof.Machine.execCoreFence h pred s
  | .coreLocalAtomic h a n o operand compare => Sys2Proof.Machine.execCoreLocalAtomic h a n o operand compare s
  | .read src => Sys2Proof.Machine.execRead src s
  | .readLine src => Sys2Proof.Machine.execReadLine src s
  | .readOwn src => Sys2Proof.Machine.execReadOwn src s
  | .write src => Sys2Proof.Machine.execWrite src s
  | .writeBurst src => Sys2Proof.Machine.execWriteBurst src s
  | .atomic src => Sys2Proof.Machine.execAtomic src s
  | .writeback src => Sys2Proof.Machine.execWriteback src s
  | .inval src => Sys2Proof.Machine.execInval src s
  | .invalAck src => Sys2Proof.Machine.execInvalAck src s
  | .trayDataReply src => Sys2Proof.Machine.execTrayDataReply src s
  | .trayRefused src => Sys2Proof.Machine.execTrayRefused src s
  | .arrive src => Sys2Proof.Machine.execArrive src s
  | .join src => Sys2Proof.Machine.execJoin src s
  | .leave src => Sys2Proof.Machine.execLeave src s
  | .trayJoinStart m => Sys2Proof.Machine.execTrayJoinStart m s
  | .trayLeaveStart m => Sys2Proof.Machine.execTrayLeaveStart m s
  | .trayLeaveDone => Sys2Proof.Machine.execTrayLeaveDone s
  | .tryWinWrite value m => Sys2Proof.Machine.execTryWinWrite value m s
  | .copyLinear q => Sys2Proof.Machine.execCopyLinear q s
  | .copyStrided q => Sys2Proof.Machine.execCopyStrided q s
  | .copyGather q => Sys2Proof.Machine.execCopyGather q s
  | .copyScatter q => Sys2Proof.Machine.execCopyScatter q s
  | .copyAtomic q => Sys2Proof.Machine.execCopyAtomic q s
  | .groupEnable g m => Sys2Proof.Machine.execGroupEnable g m s
  | .groupDisable g m => Sys2Proof.Machine.execGroupDisable g m s
  | .groupDrainTimeout g => Sys2Proof.Machine.execGroupDrainTimeout g s
  | .colGrpCfgWrite g list value m => Sys2Proof.Machine.execColGrpCfgWrite g list value m s
  | .allReduce q => Sys2Proof.Machine.execAllReduce q s
  | .reduceScatter q => Sys2Proof.Machine.execReduceScatter q s
  | .allGather q => Sys2Proof.Machine.execAllGather q s
  | .reduce q => Sys2Proof.Machine.execReduce q s
  | .broadcast q => Sys2Proof.Machine.execBroadcast q s
  | .barrier q => Sys2Proof.Machine.execBarrier q s
  | .collSig src gid => Sys2Proof.Machine.execCollSig src gid s
  | .collData src gid => Sys2Proof.Machine.execCollData src gid s
  | .collEnd src gid => Sys2Proof.Machine.execCollEnd src gid s
  | .collAbort src gid => Sys2Proof.Machine.execCollAbort src gid s
  | .collTimeout q seq => Sys2Proof.Machine.execCollTimeout q seq s
  | .collStageExpire gid => Sys2Proof.Machine.execCollStageExpire gid s
  | .stepCommit q => Sys2Proof.Machine.execStepCommit q s
  | .push q => Sys2Proof.Machine.execPush q s
  | .restore q => Sys2Proof.Machine.execRestore q s
  | .buddyTimeout q seq => Sys2Proof.Machine.execBuddyTimeout q seq s
  | .taintSet m => Sys2Proof.Machine.execTaintSet m s
  | .lastWrite value m => Sys2Proof.Machine.execLastWrite value m s
  | .resCtrlWrite value m => Sys2Proof.Machine.execResCtrlWrite value m s
  | .cruResetModule m => Sys2Proof.Machine.execCruResetModule m s
  | .bootStageAdvance work => Sys2Proof.Machine.execBootStageAdvance work s
  | .ident h => Sys2Proof.Machine.execIdent h s
  | .hello h key nonce cert => Sys2Proof.Machine.execHello h key nonce cert s
  | .finish h sig => Sys2Proof.Machine.execFinish h sig s
  | .status h => Sys2Proof.Machine.execStatus h s
  | .readReg h addr => Sys2Proof.Machine.execReadReg h addr s
  | .writeReg h addr value => Sys2Proof.Machine.execWriteReg h addr value s
  | .readLog h eye first count => Sys2Proof.Machine.execReadLog h eye first count s
  | .timeSyncMeasure h => Sys2Proof.Machine.execTimeSyncMeasure h s
  | .timeSyncAdjust h offset => Sys2Proof.Machine.execTimeSyncAdjust h offset s
  | .slewDone => Sys2Proof.Machine.execSlewDone s
  | .mgtReset h => Sys2Proof.Machine.execMgtReset h s
  | .powerCap h watts => Sys2Proof.Machine.execPowerCap h watts s
  | .imageBegin h cls total => Sys2Proof.Machine.execImageBegin h cls total s
  | .imageChunk h cls offset data => Sys2Proof.Machine.execImageChunk h cls offset data s
  | .imageEnd h cls => Sys2Proof.Machine.execImageEnd h cls s
  | .imageCancel h cls => Sys2Proof.Machine.execImageCancel h cls s
  | .imageTransferTimeout => Sys2Proof.Machine.execImageTransferTimeout s
  | .bye h => Sys2Proof.Machine.execBye h s
  | .sessionIdleClose session => Sys2Proof.Machine.execSessionIdleClose session s
  | .attestStart k m => Sys2Proof.Machine.execAttestStart k m s
  | .attestDone k => Sys2Proof.Machine.execAttestDone k s
  | .mgtFragmentReceive src => Sys2Proof.Machine.execMgtFragmentReceive src s
  | .mgtFragmentTimeout src num => Sys2Proof.Machine.execMgtFragmentTimeout src num s
  | .osFrameReceive frame control full => Sys2Proof.Machine.execOsFrameReceive frame control full s
  | .osFrameTransmit n => Sys2Proof.Machine.execOsFrameTransmit n s
  | .routerAdvertisement pre ext => Sys2Proof.Machine.execRouterAdvertisement pre ext s
  | .neighbourDiscovery target ext => Sys2Proof.Machine.execNeighbourDiscovery target ext s
  | .icmpv6Echo target data ext => Sys2Proof.Machine.execIcmpv6Echo target data ext s
  | .smbReadIdentity pec => Sys2Proof.Machine.execSmbReadIdentity pec s
  | .smbReadStatus pec => Sys2Proof.Machine.execSmbReadStatus pec s
  | .smbReadPower pec => Sys2Proof.Machine.execSmbReadPower pec s
  | .smbReadTj pec => Sys2Proof.Machine.execSmbReadTj pec s
  | .smbStopRequest value pec => Sys2Proof.Machine.execSmbStopRequest value pec s
  | .sourceOccurrence n addr master atype => Sys2Proof.Machine.execSourceOccurrence n addr master atype s
  | .quietExpire n => Sys2Proof.Machine.execQuietExpire n s
  | .countWindowExpire n => Sys2Proof.Machine.execCountWindowExpire n s
  | .sourceUnlatch n m => Sys2Proof.Machine.execSourceUnlatch n m s
  | .sourceLatch n m => Sys2Proof.Machine.execSourceLatch n m s
  | .eyeSrcCfgWrite n value m => Sys2Proof.Machine.execEyeSrcCfgWrite n value m s
  | .logRecordMove => Sys2Proof.Machine.execLogRecordMove s
  | .alertPulseEnd sec => Sys2Proof.Machine.execAlertPulseEnd sec s
  | .eyePinHoldWrite alert sec m => Sys2Proof.Machine.execEyePinHoldWrite alert sec m s
  | .keelKick m => Sys2Proof.Machine.execKeelKick m s
  | .osKick m => Sys2Proof.Machine.execOsKick m s
  | .keelWatchdogExpire => Sys2Proof.Machine.execKeelWatchdogExpire s
  | .osWatchdogExpire => Sys2Proof.Machine.execOsWatchdogExpire s
  | .injectionArm m => Sys2Proof.Machine.execInjectionArm m s
  | .sweepStressPoint w a => Sys2Proof.Machine.execSweepStressPoint w a s
  | .sweepAbandon w a => Sys2Proof.Machine.execSweepAbandon w a s
  | .sweepEnd w a => Sys2Proof.Machine.execSweepEnd w a s
  | .inputValid straps => Sys2Proof.Machine.execInputValid straps s
  | .railPowerGood bad => Sys2Proof.Machine.execRailPowerGood bad s
  | .railFault r => Sys2Proof.Machine.execRailFault r s
  | .inputSample mv avg rails => Sys2Proof.Machine.execInputSample mv avg rails s
  | .inputOutOfRange => Sys2Proof.Machine.execInputOutOfRange s
  | .thermalSensorUpdate n reading => Sys2Proof.Machine.execThermalSensorUpdate n reading s
  | .sensorStale n => Sys2Proof.Machine.execSensorStale n s
  | .sensorMaxClr n m => Sys2Proof.Machine.execSensorMaxClr n m s
  | .setpointSettle r => Sys2Proof.Machine.execSetpointSettle r s
  | .powerControlTick watts fit tick => Sys2Proof.Machine.execPowerControlTick watts fit tick s
  | .pwrCapWrite value m => Sys2Proof.Machine.execPwrCapWrite value m s
  | .pwrPeakClr m => Sys2Proof.Machine.execPwrPeakClr m s
  | .throttleStep r => Sys2Proof.Machine.execThrottleStep r s
  | .throttleRecoverStep r => Sys2Proof.Machine.execThrottleRecoverStep r s
  | .trip n => Sys2Proof.Machine.execTrip n s
  | .dtdtHoldExpire r => Sys2Proof.Machine.execDtdtHoldExpire r s
  | .coldHoldCheck => Sys2Proof.Machine.execColdHoldCheck s
  | .baskTimeout => Sys2Proof.Machine.execBaskTimeout s
  | .pwrStop m => Sys2Proof.Machine.execPwrStop m s
  | .stopAbortPoint => Sys2Proof.Machine.execStopAbortPoint s
  | .powerDown => Sys2Proof.Machine.execPowerDown s
  | .autoRestart => Sys2Proof.Machine.execAutoRestart s
  | .resetNLow => Sys2Proof.Machine.execResetNLow s
  | .resetNHigh => Sys2Proof.Machine.execResetNHigh s
  | .refclkLoss => Sys2Proof.Machine.execRefclkLoss s
  | .inputLoss => Sys2Proof.Machine.execInputLoss s
  | .ringAcquisitionDone p frame crossings => Sys2Proof.Machine.execRingAcquisitionDone p frame crossings s
  | .peerAligned p lines => Sys2Proof.Machine.execPeerAligned p lines s
  | .heaterLimit p r heat => Sys2Proof.Machine.execHeaterLimit p r heat s
  | .mgtLinkChange up => Sys2Proof.Machine.execMgtLinkChange up s
  | .refclkReturn => Sys2Proof.Machine.execRefclkReturn s
  | .factoryTestProgram cert images => Sys2Proof.Machine.execFactoryTestProgram cert images s

end Sys2Proof.Machine
end

