-- ==== Sys2Proof/Safety.lean ====
section
/-! DEFINITION. What counts as a well-formed state and as a safe run. -/

namespace Sys2Proof.Machine

/-- What every step keeps: memory in its canonical form (addresses rising, no zero byte listed), at most 256 records in the
event ring and 32,768 in the Eyespot log (R452), and poison only on whole 64-byte sectors (R240). -/
def State.Inv (s : State) : Prop :=
  cellsWf s.mem = true ∧ s.eye.ring.length ≤ 256 ∧ s.eye.log.length ≤ 32768 ∧ ∀ x ∈ s.poison, x % 64 = 0

/-- A run of `n` steps that ends in a next state. -/
def SafeRun (n : Nat) (s : State) : Prop := ∃ t, (Host.Core.mk State Fault Refusal step State.reset).run n s = .next t

end Sys2Proof.Machine
end

