-- ==== Sys2Proof/WellFormed.lean ====
section
/-! DEFINITION. Well-formed commands: every unit a command names is one the module has (R22 to R35, and the tables of each
chapter), and its operands have a shape the unit takes. A meaning faults on any other command. -/

namespace Sys2Proof

open Sys2Proof.Machine

/-- Whether a command names only units and shapes that the module has. -/
def Instr.wf (i : Instr) : Bool :=
  match i with
  | .regWrite _ _ _ _ => true
  | .slackWindowEnd d _ => decide (d < 408)
  | .tapWiden d => decide (d < 408)
  | .holdWiden d _ => decide (d < 408)
  | .tapRelax d => decide (d < 408)
  | .relaxReevaluate d => decide (d < 408)
  | .marginExhausted d => decide (d < 408)
  | .shadowLatchFlag d => decide (d < 408)
  | .vfloorRecompute r => decide (r < 8)
  | .plannedWrite d _ _ => decide (d < 408)
  | .sweepOffWrite d _ _ => decide (d < 408)
  | .mgnPeakClr d _ => decide (d < 408)
  | .slackMinClr d _ => decide (d < 408)
  | .mgnCtrlWrite _ _ => true
  | .temperStart _ => true
  | .temperRotationDue => true
  | .temperTriggered d => decide (d < 408)
  | .temperWingSkip w => decide (w < 64)
  | .temperDomainPass d _ _ => decide (d < 408)
  | .baskTapRemove r => decide (r < 8)
  | .stepsRead w => decide (w < 64)
  | .matmul q => decide (q < 256)
  | .activationLoad w => decide (w < 64)
  | .arrayStep w _ => decide (w < 64)
  | .testbarCheck w a c => decide (w < 64) && decide (a < 4) && decide (c < 64)
  | .epilogueRun w => decide (w < 64)
  | .wingHang w => decide (w < 64)
  | .wingTakeOut w _ => decide (w < 64)
  | .wingRestore w _ => decide (w < 64)
  | .arrayFence w a _ => decide (w < 64) && decide (a < 4)
  | .bistStart w _ => decide (w < 64)
  | .bistDone w _ => decide (w < 64)
  | .accWindowRead w off _ _ => decide (w < 64) && decide (off < 0x20000)
  | .stitchCodeError x => decide (x < 4)
  | .streamValidate i _ => decide (i < 4096)
  | .streamDescWrite i word _ _ => decide (i < 4096) && decide (word < 4)
  | .streamInstanceOpen i w => decide (i < 4096) && decide (w < 64)
  | .joinTimeout i => decide (i < 4096)
  | .runnerSlabPass _ => true
  | .receiverPrune _ w => decide (w < 64)
  | .instanceClose _ => true
  | .tileStoreAccess w reqs => decide (w < 64) && reqs.all portMay
  | .vecRun q => decide (q < 256)
  | .patternNop w => decide (w < 64)
  | .mov w => decide (w < 64)
  | .add w => decide (w < 64)
  | .sub w => decide (w < 64)
  | .mul w => decide (w < 64)
  | .fma w => decide (w < 64)
  | .fms w => decide (w < 64)
  | .fnma w => decide (w < 64)
  | .div w => decide (w < 64)
  | .sqrt w => decide (w < 64)
  | .min w => decide (w < 64)
  | .max w => decide (w < 64)
  | .minn w => decide (w < 64)
  | .maxn w => decide (w < 64)
  | .abs w => decide (w < 64)
  | .neg w => decide (w < 64)
  | .cmpeq w => decide (w < 64)
  | .cmplt w => decide (w < 64)
  | .cmple w => decide (w < 64)
  | .cmpun w => decide (w < 64)
  | .sel w => decide (w < 64)
  | .scale w => decide (w < 64)
  | .cvt w => decide (w < 64)
  | .rint w => decide (w < 64)
  | .qnt w => decide (w < 64)
  | .iadd w => decide (w < 64)
  | .isub w => decide (w < 64)
  | .imul w => decide (w < 64)
  | .and w => decide (w < 64)
  | .or w => decide (w < 64)
  | .xor w => decide (w < 64)
  | .shl w => decide (w < 64)
  | .shr w => decide (w < 64)
  | .sra w => decide (w < 64)
  | .imin w => decide (w < 64)
  | .imax w => decide (w < 64)
  | .exp2 w => decide (w < 64)
  | .exp w => decide (w < 64)
  | .log2 w => decide (w < 64)
  | .log w => decide (w < 64)
  | .rcp w => decide (w < 64)
  | .rsqrt w => decide (w < 64)
  | .tanh w => decide (w < 64)
  | .sigm w => decide (w < 64)
  | .erf w => decide (w < 64)
  | .sin w => decide (w < 64)
  | .cos w => decide (w < 64)
  | .gath w => decide (w < 64)
  | .scat w => decide (w < 64)
  | .lxch w => decide (w < 64)
  | .lsum w => decide (w < 64)
  | .lshf w => decide (w < 64)
  | .vecReduction w => decide (w < 64)
  | .trWindowRead w off _ _ => decide (w < 64) && decide (off < 0x8000)
  | .queueDoorbell q _ _ => decide (q < 256)
  | .rheadWrite q _ _ => decide (q < 256)
  | .commandDispatch q => decide (q < 256)
  | .tileCommit q _ => decide (q < 256)
  | .commandRetire q _ => decide (q < 256)
  | .gateSignal q _ => decide (q < 256)
  | .replyWrite q => decide (q < 256)
  | .queueWaitLong q => decide (q < 256)
  | .nop q => decide (q < 256)
  | .gateAdd q => decide (q < 256)
  | .gateSet q => decide (q < 256)
  | .abort q => decide (q < 256)
  | .qeGateValWrite g _ _ => decide (g < 4096)
  | .qeGateAddWrite g _ _ => decide (g < 4096)
  | .queueEnable q _ => decide (q < 256)
  | .queueDisable q _ => decide (q < 256)
  | .queueDrainFinish q _ => decide (q < 256)
  | .queueDrainAbort q _ => decide (q < 256)
  | .queueDrainDone q => decide (q < 256)
  | .queueResume q _ => decide (q < 256)
  | .clampClr q _ => decide (q < 256)
  | .wingDrainTimeout w => decide (w < 64)
  | .chainReplay w => decide (w < 64)
  | .adoptionCopyDone w => decide (w < 64)
  | .memQualOverride f _ => decide (f < 4)
  | .ladleRead a n _ _ => oneLine a n
  | .ladleWrite a data _ _ => oneLine a data.length
  | .ladleMissFill k _ _ => decide (k < 16)
  | .ladleWriteback q => decide (q < 256)
  | .ladleEvict q => decide (q < 256)
  | .ladleUnprotect q => decide (q < 256)
  | .ladlePrefetch q => decide (q < 256)
  | .ladleZero q => decide (q < 256)
  | .perBankRefresh k => decide (k < 16)
  | .refreshManagementRequest k => decide (k < 16)
  | .stackTempRead k _ => decide (k < 16)
  | .scrubRead k _ => decide (k < 16)
  | .parityError k _ => decide (k < 16)
  | .phyLockLoss k => decide (k < 16)
  | .stackRetrainDone k _ => decide (k < 16)
  | .turnWrite q => decide (q < 256)
  | .turnArm q => decide (q < 256)
  | .turnDisarm q => decide (q < 256)
  | .d2dFrameReceive l dir x _ _ _ => decide (l < 9) && decide (dir < 2) && decide (x < 64)
  | .d2dNak l dir cls _ => decide (l < 9) && decide (dir < 2) && decide (cls < 6)
  | .d2dLinkControl l dir _ _ => decide (l < 9) && decide (dir < 2)
  | .sliceRetrainDone l n _ _ _ => decide (l < 9) && decide (n < 128)
  | .d2dSwitch f _ => decide (f < 4)
  | .d2dModeChangeDone f _ => decide (f < 4)
  | .d2dLockLoss f => decide (f < 4)
  | .edgeRetrainDone f _ => decide (f < 4)
  | .ringLockLoss p r _ _ => decide (p < 16) && decide (r < 36)
  | .combMonitor e c _ _ _ _ _ => decide (e < 8) && decide (c < 2)
  | .lineSourceFail e n _ => decide (e < 8) && decide (n < 18)
  | .rxMonitor p _ _ => decide (p < 16)
  | .lossOfSignal p n _ => decide (p < 16) && decide (n < 18)
  | .peerId p _ _ _ => decide (p < 16)
  | .lswapReq p _ lane _ _ => decide (p < 16) && decide (lane < 16)
  | .lswapDup p _ lane _ _ => decide (p < 16) && decide (lane < 16)
  | .lswapVerifyDone p _ _ => decide (p < 16)
  | .lswapDone p _ lane _ _ => decide (p < 16) && decide (lane < 16)
  | .lswapCutover p _ _ => decide (p < 16)
  | .lswapAbandon p _ lane _ _ _ => decide (p < 16) && decide (lane < 16)
  | .lswapTimeout p _ _ => decide (p < 16)
  | .leLswap p lane _ _ => decide (p < 16) && decide (lane < 16)
  | .narrowAt p _ _ _ => decide (p < 16)
  | .widenAt p _ _ _ => decide (p < 16)
  | .stripeChange p => decide (p < 16)
  | .combSwap e _ _ => decide (e < 8)
  | .combLocked e c _ => decide (e < 8) && decide (c < 2)
  | .combLockTimeout e => decide (e < 8)
  | .cswapAt p _ _ => decide (p < 16)
  | .combCutover p _ => decide (p < 16)
  | .laneAck p _ => decide (p < 16)
  | .portOff p _ => decide (p < 16)
  | .portDisable p _ => decide (p < 16)
  | .portEnable p _ => decide (p < 16)
  | .portDrainDone p => decide (p < 16)
  | .leEnableWrite e _ _ => decide (e < 8)
  | .leThreshWrite e _ _ => decide (e < 8)
  | .linkUnitReceive p _ _ => decide (p < 16)
  | .linkNak p _ => decide (p < 16)
  | .linkResendTimeout p => decide (p < 16)
  | .linkControlUnit p => decide (p < 16)
  | .cellRoute p v => decide (p ≤ 16) && decide (v < 8)
  | .portUsabilityChange p => decide (p < 16)
  | .e2eDataReceive c => decide (c < 4)
  | .e2eCloseReceive c => decide (c < 4)
  | .e2eAckReceive c => decide (c < 4)
  | .e2eResetReceive c => decide (c < 4)
  | .e2eAckDelayExpire _ c _ => decide (c < 4)
  | .e2eRetransmit _ c _ => decide (c < 4)
  | .peerEvict _ => true
  | .rtLoad _ => true
  | .rtArm _ => true
  | .rtFlip _ => true
  | .rtBankDrained b => decide (b < 2)
  | .rtEntryWrite b loc r _ _ => decide (b < 2) && decide (r < (if loc then 64 else 256))
  | .fabAddrWrite _ _ => true
  | .fabEnable _ _ => true
  | .peerClear _ _ => true
  | .cableAccept p _ => decide (p < 16)
  | .cableRecheck p _ => decide (p < 16)
  | .fence q => decide (q < 256)
  | .fenceTimeout q _ => decide (q < 256)
  | .trayLoad h _ n _ => decide (h < 16) && coreSize n
  | .trayStore h _ data _ => decide (h < 16) && coreSize data.length
  | .trayAtomic h _ _ _ _ _ => decide (h < 16)
  | .coreFence h _ => decide (h < 16)
  | .coreLocalAtomic h _ _ _ _ _ => decide (h < 16)
  | .read _ => true
  | .readLine _ => true
  | .readOwn _ => true
  | .write _ => true
  | .writeBurst _ => true
  | .atomic _ => true
  | .writeback _ => true
  | .inval _ => true
  | .invalAck _ => true
  | .trayDataReply _ => true
  | .trayRefused _ => true
  | .arrive _ => true
  | .join _ => true
  | .leave _ => true
  | .trayJoinStart _ => true
  | .trayLeaveStart _ => true
  | .trayLeaveDone => true
  | .tryWinWrite _ _ => true
  | .copyLinear q => decide (q < 256)
  | .copyStrided q => decide (q < 256)
  | .copyGather q => decide (q < 256)
  | .copyScatter q => decide (q < 256)
  | .copyAtomic q => decide (q < 256)
  | .groupEnable g _ => decide (g < 256)
  | .groupDisable g _ => decide (g < 256)
  | .groupDrainTimeout g => decide (g < 256)
  | .colGrpCfgWrite g _ _ _ => decide (g < 256)
  | .allReduce q => decide (q < 256)
  | .reduceScatter q => decide (q < 256)
  | .allGather q => decide (q < 256)
  | .reduce q => decide (q < 256)
  | .broadcast q => decide (q < 256)
  | .barrier q => decide (q < 256)
  | .collSig _ _ => true
  | .collData _ _ => true
  | .collEnd _ _ => true
  | .collAbort _ _ => true
  | .collTimeout q _ => decide (q < 256)
  | .collStageExpire _ => true
  | .stepCommit q => decide (q < 256)
  | .push q => decide (q < 256)
  | .restore q => decide (q < 256)
  | .buddyTimeout q _ => decide (q < 256)
  | .taintSet _ => true
  | .lastWrite _ _ => true
  | .resCtrlWrite _ _ => true
  | .cruResetModule _ => true
  | .bootStageAdvance _ => true
  | .ident _ => true
  | .hello _ _ _ _ => true
  | .finish _ _ => true
  | .status _ => true
  | .readReg _ _ => true
  | .writeReg _ _ _ => true
  | .readLog _ _ _ _ => true
  | .timeSyncMeasure _ => true
  | .timeSyncAdjust _ _ => true
  | .slewDone => true
  | .mgtReset _ => true
  | .powerCap _ _ => true
  | .imageBegin _ _ _ => true
  | .imageChunk _ _ _ _ => true
  | .imageEnd _ _ => true
  | .imageCancel _ _ => true
  | .imageTransferTimeout => true
  | .bye _ => true
  | .sessionIdleClose _ => true
  | .attestStart k _ => decide (k < 4)
  | .attestDone k => decide (k < 4)
  | .mgtFragmentReceive _ => true
  | .mgtFragmentTimeout _ _ => true
  | .osFrameReceive _ _ _ => true
  | .osFrameTransmit _ => true
  | .routerAdvertisement _ _ => true
  | .neighbourDiscovery _ _ => true
  | .icmpv6Echo _ _ _ => true
  | .smbReadIdentity _ => true
  | .smbReadStatus _ => true
  | .smbReadPower _ => true
  | .smbReadTj _ => true
  | .smbStopRequest _ _ => true
  | .sourceOccurrence n _ _ _ => decide (n < 2048) && (srcDef n).isSome
  | .quietExpire n => decide (n < 2048)
  | .countWindowExpire n => decide (n < 2048)
  | .sourceUnlatch n _ => decide (n < 2048) && (srcDef n).isSome
  | .sourceLatch n _ => decide (n < 2048) && (srcDef n).isSome
  | .eyeSrcCfgWrite n _ _ => decide (n < 2048) && (srcDef n).isSome
  | .logRecordMove => true
  | .alertPulseEnd _ => true
  | .eyePinHoldWrite _ _ _ => true
  | .keelKick _ => true
  | .osKick _ => true
  | .keelWatchdogExpire => true
  | .osWatchdogExpire => true
  | .injectionArm _ => true
  | .sweepStressPoint w a => decide (w < 64) && decide (a < 4)
  | .sweepAbandon w a => decide (w < 64) && decide (a < 4)
  | .sweepEnd w a => decide (w < 64) && decide (a < 4)
  | .inputValid straps => decide (straps < 65536)
  | .railPowerGood bad => (match bad with | some r => decide (r < 16) | none => true)
  | .railFault r => decide (r < 16)
  | .inputSample _ _ _ => true
  | .inputOutOfRange => true
  | .thermalSensorUpdate n reading => decide (n < 104) && decide (reading.part < 4)
  | .sensorStale n => decide (n < 104)
  | .sensorMaxClr n _ => decide (n < 104)
  | .setpointSettle r => decide (r < 16)
  | .powerControlTick _ _ tick => tick.figures.all Figure.ok
  | .pwrCapWrite _ _ => true
  | .pwrPeakClr _ => true
  | .throttleStep r => decide (r < 8)
  | .throttleRecoverStep r => decide (r < 8)
  | .trip n => decide (n < 74)
  | .dtdtHoldExpire r => decide (r < 8)
  | .coldHoldCheck => true
  | .baskTimeout => true
  | .pwrStop _ => true
  | .stopAbortPoint => true
  | .powerDown => true
  | .autoRestart => true
  | .resetNLow => true
  | .resetNHigh => true
  | .refclkLoss => true
  | .inputLoss => true
  | .ringAcquisitionDone p _ _ => decide (p < 16)
  | .peerAligned p _ => decide (p < 16)
  | .heaterLimit p r _ => decide (p < 16) && decide (r < 36)
  | .mgtLinkChange _ => true
  | .refclkReturn => true
  | .factoryTestProgram _ _ => true

end Sys2Proof
end

