-- ==== Sys2Proof/Certificates/Slice0/Obligations.lean ====
section
/-! DEFINITION. The statements about the block, for the provers. `Completes` is the form of a completion statement. -/

namespace Sys2Proof.Claims
open Sys2Proof Sys2Proof.Machine

/-- The command completes: `exec` answers the next state `settle u`, that is `u` and what follows it by itself, and `P` holds of `u`. -/
def Completes (i : Instr) (s : State) (P : State → Prop) : Prop := ∃ u, exec i s = .next (settle u) ∧ P u

/-- The command that executes a pattern instruction of each operation (Table 6-6). -/
def patRow (op : PatOp) (w : Nat) : Instr :=
  match op with
  | .nop => .patternNop w
  | .mov => .mov w
  | .add => .add w
  | .sub => .sub w
  | .mul => .mul w
  | .fma => .fma w
  | .fms => .fms w
  | .fnma => .fnma w
  | .div => .div w
  | .sqrt => .sqrt w
  | .min => .min w
  | .max => .max w
  | .minn => .minn w
  | .maxn => .maxn w
  | .abs => .abs w
  | .neg => .neg w
  | .cmpeq => .cmpeq w
  | .cmplt => .cmplt w
  | .cmple => .cmple w
  | .cmpun => .cmpun w
  | .sel => .sel w
  | .scale => .scale w
  | .cvt => .cvt w
  | .rint => .rint w
  | .qnt => .qnt w
  | .iadd => .iadd w
  | .isub => .isub w
  | .imul => .imul w
  | .and => .and w
  | .or => .or w
  | .xor => .xor w
  | .shl => .shl w
  | .shr => .shr w
  | .sra => .sra w
  | .imin => .imin w
  | .imax => .imax w
  | .exp2 => .exp2 w
  | .exp => .exp w
  | .log2 => .log2 w
  | .log => .log w
  | .rcp => .rcp w
  | .rsqrt => .rsqrt w
  | .tanh => .tanh w
  | .sigm => .sigm w
  | .erf => .erf w
  | .sin => .sin w
  | .cos => .cos w
  | .gath => .gath w
  | .scat => .scat w
  | .lxch => .lxch w
  | .lsum => .lsum w
  | .lshf => .lshf w

/-- The operations that compute a result from codes of one type: standard, integer and data operations (Table 6-6). -/
def plainOp (op : PatOp) : Bool :=
  match op with
  | .add | .sub | .mul | .fma | .fms | .fnma | .div | .sqrt | .min | .max | .minn | .maxn | .abs | .neg | .cmpeq | .cmplt | .cmple
  | .cmpun | .sel | .rint | .iadd | .isub | .imul | .and | .or | .xor | .shl | .shr | .sra | .imin | .imax => true
  | _ => false

/-- The head command of a queue dispatches now (R190): the queue may dispatch, the head has not ended already, its opcode is `op`,
its waits are met and its wing, where it needs one, is free; its slot can be read now and is
not poisoned, and no held domain stands in its way. -/
def HeadReady (s : State) (q op : Nat) : Prop :=
  let h := s.f F.QE_Q_HEAD_HEAD q
  let p := s.readPkt q h
  let a := s.slotAddr q h
  s.cmd q h = none ∧ s.canDispatch q = true ∧ hdr p 0 8 = op ∧ s.headHeld q p = false ∧ s.inHbm a 64 = true ∧
  s.readNow a 64 0 = true ∧ s.ctrlHeld q p = false ∧ (s.checkRead a 64 0x80 atCmd).poisoned a 64 = false

/-- The state and the record with which the head command of a queue, its slot read, goes to its unit. -/
def Taken (s : State) (q : Nat) : State × Cmd :=
  let p := s.readPkt q (s.f F.QE_Q_HEAD_HEAD q)
  (s.checkRead (s.slotAddr q (s.f F.QE_Q_HEAD_HEAD q)) 64 0x80 atCmd).takeHead q p (unitCode (hdr p 0 8) p)

/-- A record with the unit that its reply names. -/
def atUnit (c : Cmd) (u : Nat) : Cmd := { c with unit := u }

/-- No module holds a granule of these bytes, and none of them is being recalled (R344, R345). -/
def NoHolders (s : State) (a n : Nat) : Prop := ∀ g ∈ gransOf a n, s.dirEnt g = none ∧ s.tray.recalls.find? (fun r => r.gran == g) = none

/-- The first request of `src` in class `cls` that waits in the inbox is descriptor `d` of this OP, with its data cells `cs` (R346). -/
def Asked (s : State) (src cls op : Nat) (d : Cell) (cs : List Cell) : Prop := s.request src cls = some (d, cs) ∧ dOp d.payload = op

/-- The inbox without the cells of a request. -/
def Taken1 (s : State) (d : Cell) (cs : List Cell) : List Cell := (d :: cs).foldl (fun l c => l.erase c) s.fab.inbox

/-- What a command of an instance that an abort ended with this status and detail holds (R374). -/
def EndedBy (s : State) (q n st dt : Nat) : Prop := ∃ c, s.cmd q n = some c ∧ c.status = st ∧ c.detail = dt ∧ c.execDone = true ∧ c.noOutputs = true

/-- The cell of `src` that a row of the collective class takes next is `c`, of this kind, of the begun instance `x` of group `g`, on its edge `e` (R369). -/
def Arrives (s : State) (src gid kind : Nat) (c : Cell) (g : Nat) (x : ColInst) (e : ColIn) : Prop :=
  s.colHead src gid (fun _ => true) = some (c, g) ∧ cellKind c = kind ∧ s.instOf g = some x ∧ x.begun = true ∧ x.inst % 65536 = cellInst c ∧
    x.ins.find? (fun e => e.ep == src && e.tree == cellTree c && e.dir == cellDir c) = some e

/-- A new command of an open OPERATOR session on the lane, authenticated, of the right length and below the load of R409 (R405). -/
def InSession (s : State) (h : MgtHdr) (x : Sess) : Prop :=
  s.keelUp = true ∧ h.version = 1 ∧ s.loaded.1 = false ∧ h.via = none ∧ h.session ≠ 0 ∧ s.sess h.session = some x ∧ x.opened = true ∧ h.tagOk = true ∧
  h.lenOk = true ∧ x.cache.find? (fun e => e.1 == h.counter) = none ∧ x.last < h.counter ∧ s.lcs ≠ 5 ∧ hasRole x.roles 1 = true

/-- The state in which it acts: load and session note it (R405, R409). -/
def Acting (s : State) (h : MgtHdr) (x : Sess) : State :=
  (s.loaded.2.setMgt { s.loaded.2.mgt with storm := [] }).putSess { x with last := h.counter, used := s.now }

/-- The reply has left on the lane (R403). -/
def Replied (u : State) (x : Sess) (h : MgtHdr) (type st : Nat) (body : List Byte) : Prop :=
  OutMsg.mgt (mgtBytes (some x) type x.id h.counter st body) ∈ u.out

/-- Equal but for what a reply changes: the sessions and their count, and what has been sent. -/
def ButReply (t u : State) : Prop := u.mem = t.mem ∧ u.sec = t.sec ∧ ∀ y i j, Fld.reg y ≠ .CRU_MGT_STAT → u.f y i j = t.f y i j

/-- A datagram of the known version that the lane serves now, below the load of R409 (R401, R409). -/
def OnLane (s : State) (h : MgtHdr) : Prop := s.keelUp = true ∧ h.version = 1 ∧ s.loaded.1 = false ∧ h.via = none ∧ h.lenOk = true

/-- The SMBus target serves a transaction with a right error code (R412, R413). -/
def OnSmb (s : State) : Prop := s.lcs ≠ 0 ∧ (1 ≤ s.stage ∨ s.pwrState = 4 ∨ s.pwrState = 5)

end Sys2Proof.Claims

open Sys2Proof Sys2Proof.Machine Sys2Proof.Claims

/-- For every state whose queue of waiting commands is c :: rest, step answers what exec of c answers on the same state with rest
as its queue. The queue is the model's form (log entry 2). -/
def Obligations.StepRunsFrontCommand : Prop :=
  ∀ (c : Instr) (rest : List Instr) (s : State), s.pending = c :: rest → step s = exec c { s with pending := rest }

/-- On an empty queue step answers next with the idle state: the time base is that of one tick, memory is unchanged, and where
every light-engine port's FIFOs are empty nothing but the tick happens (else their free-running side moves). This is the
model's choice (log entry 1, DESIGN CHOICE). -/
def Obligations.IdleStepIsOneTick : Prop :=
  ∀ s : State, s.pending = [] → step s = .next s.idle ∧ s.idle.now = s.tick.now ∧ s.idle.mem = s.mem ∧
    ((∀ p, p < 16 → (s.link p).fifo = []) → s.idle = s.tick)

/-- For every command i whose operands name units that the module has (i.wf) and every state s, exec i s is a next state: no
command stops the model. What each command does there, the other statements say. -/
def Obligations.WellFormedCommandsComplete : Prop :=
  ∀ (i : Instr) (s : State), i.wf = true → ∃ t, exec i s = .next t

/-- For every command i that is not well-formed (an operand names a wing, domain, source, queue or other unit beyond those of the
module) and every state, exec answers the fault noSuchUnit. The fault is the model's (log entry 3). -/
def Obligations.UnknownUnitsFault : Prop :=
  ∀ (i : Instr) (s : State), i.wf = false → exec i s = .fault .noSuchUnit

/-- State.reset meets State.Inv (memory in canonical form, at most 256 records in the event ring and 32,768 in the Eyespot log,
poison on whole 64-byte sectors) and its queue of waiting commands is empty.
R397, R452. -/
def Obligations.InvariantAtReset : Prop := State.reset.Inv ∧ State.reset.pending = []

/-- For all states s and t: if s meets State.Inv (memory canonical; the event ring holds at most 256 records and the Eyespot log
at most 32,768; poisoned addresses are sector starts) and step s answers next t, then t meets it and the queue of t is the
queue of s without its front command. Nothing a command does puts another into the queue.
R452, R240. -/
def Obligations.EveryStepKeepsInvariant : Prop :=
  ∀ s t : State, s.Inv → step s = .next t → t.Inv ∧ t.pending = s.pending.tail

/-- If a state is quiet (no interrupt, reaction, commit, retirement or release is due in it), settle answers the same state, and
so does every number of settling rounds. -/
def Obligations.QuietStateIsSettled : Prop :=
  ∀ s : State, s.quiet = true → settle s = s ∧ ∀ n, settleN n s = s

/-- For every memory in canonical form, writing byte b at address a gives a memory in canonical form that reads b at a and at
every other address what it read before. (That an unlisted byte reads 0 is the model's choice, log entry 5.) -/
def Obligations.MemoryReadAfterWrite : Prop :=
  ∀ (m : List Host.Cell) (a : Nat) (b : Byte), cellsWf m = true →
    cellsWf (cellSet m a b) = true ∧ cellGet (cellSet m a b) a = b ∧ ∀ x, x ≠ a → cellGet (cellSet m a b) x = cellGet m x

/-- If two memories in canonical form read the same byte at every address, they are equal. -/
def Obligations.EqualMemoriesAreEqualData : Prop :=
  ∀ m n : List Host.Cell, cellsWf m = true → cellsWf n = true → (∀ a, cellGet m a = cellGet n a) → m = n

/-- For every state: each gate counter is below 2^48; every counter is 0 in State.reset; a module reset that firmware starts
completes with every counter at 0; and an addition of v to gate g leaves (old + v) modulo 2^48 in g and every other gate as
it was. Rows: CRU_RESET_MODULE.
R199. -/
def Obligations.GateCountersWrap : Prop :=
  ∀ (s : State) (m : Master), (∀ g, s.gate g < 2 ^ 48) ∧ (∀ g, State.reset.gate g = 0) ∧
    (s.pwrState = 2 → 2 ≤ s.stage → Completes (.cruResetModule m) s fun u => ∀ g, u.gate g = 0) ∧
    (∀ g v, (s.gateAdd g v).gate g = (s.gate g + v) % 2 ^ 48 ∧ ∀ h, h ≠ g → (s.gateAdd g v).gate h = s.gate h)

/-- A code of INT8, INT16 or INT32 reads as the signed value of its 8, 16 or 32 bits, with no flag; and every integer of the full
range (from -128, -32768 and -2^31 to 127, 32767 and 2^31 - 1) is the reading of its two's-complement code.
R66. -/
def Obligations.IntegerFormatsAreTwosComplement : Prop :=
  (∀ x, Fmt.read .int8 x 0 = (FVal.ofInt (BitVec.ofNat 8 x).toInt, 0)) ∧
  (∀ x, Fmt.read .int16 x 0 = (FVal.ofInt (BitVec.ofNat 16 x).toInt, 0)) ∧
  (∀ x, Fmt.read .int32 x 0 = (FVal.ofInt (BitVec.ofNat 32 x).toInt, 0)) ∧
  (∀ n : Int, -128 ≤ n → n ≤ 127 → ofSigned 8 n < 2 ^ 8 ∧ Fmt.read .int8 (ofSigned 8 n) 0 = (FVal.ofInt n, 0)) ∧
  (∀ n : Int, -32768 ≤ n → n ≤ 32767 → ofSigned 16 n < 2 ^ 16 ∧ Fmt.read .int16 (ofSigned 16 n) 0 = (FVal.ofInt n, 0)) ∧
  (∀ n : Int, -2 ^ 31 ≤ n → n < 2 ^ 31 → ofSigned 32 n < 2 ^ 32 ∧ Fmt.read .int32 (ofSigned 32 n) 0 = (FVal.ofInt n, 0))

/-- With sign s, exponent field e and fraction f. B16: e = 0 is a zero of the code's sign, with FLUSH where f is not 0; e = 1 to
254 is (-1)^s (128 + f) 2^(e - 134); e = 255 is the largest finite value, 255 x 2^120, with CLAMP. K4 with magnitude m and
block exponent k: (-1)^s m 2^(k - 127), element code 8 is +0 with CLAMP, k = 255 reads as 254 with CLAMP. K8e (up to the
largest finite code 126), K8m (e below 31) and K6: e = 0 is subnormal, else normal, with the biases of Table 3-3. (For a sign
bit of a zero see Table 3-3; reserved K8e and K8m codes are not in this statement.)
R64, R65, R67, R69. -/
def Obligations.GnoisCodesRead : Prop :=
  (∀ x e f : Nat, ∀ s : Bool, e < 256 → f < 128 → x = (if s then 32768 else 0) + e * 128 + f →
    (e = 0 → Fmt.read .b16 x 0 = (.fin s 0 0, if f = 0 then 0 else flagFLUSH)) ∧
    (1 ≤ e → e ≤ 254 → Fmt.read .b16 x 0 = (.fin s (128 + f) ((e : Int) - 134), 0)) ∧
    (e = 255 → Fmt.read .b16 x 0 = (.fin s 255 120, flagCLAMP))) ∧
  (∀ k m : Nat, ∀ s : Bool, k < 256 → m < 8 → Fmt.read .k4 ((if s then 8 else 0) + m) k =
    (.fin (s && m != 0) m ((if k = 255 then 254 else k : Int) - 127), (if s && m == 0 then flagCLAMP else 0) ||| (if k = 255 then flagCLAMP else 0))) ∧
  (∀ e f : Nat, ∀ s : Bool, e < 16 → f < 8 → e * 8 + f ≤ 126 → Fmt.read .k8e ((if s then 128 else 0) + e * 8 + f) 0 =
    (if e = 0 then .fin s f (-9) else .fin s (8 + f) ((e : Int) - 10), 0)) ∧
  (∀ e f : Nat, ∀ s : Bool, e < 31 → f < 4 → Fmt.read .k8m ((if s then 128 else 0) + e * 4 + f) 0 =
    (if e = 0 then .fin s f (-16) else .fin s (4 + f) ((e : Int) - 17), 0)) ∧
  (∀ e f : Nat, ∀ s : Bool, e < 8 → f < 4 → Fmt.read .k6 ((if s then 32 else 0) + e * 4 + f) 0 =
    (if e = 0 then .fin s f (-4) else .fin s (4 + f) ((e : Int) - 5), 0))

/-- For every monitored margin domain d below 408. A measured slack q at or below FLOOR, tap below 63, not held: the domain
holds, SLACK_NOW is q, HOLD_SEEN and LAST_DOMAIN say so, CNT.HOLDS counts (saturating) and the tap stays. A slack at or above
WIDEN releases a held domain. While widening under AUTO_WIDEN, not examined, slack below TARGET and tap below 63: TAP_WIDEN
adds one code, sets WIDEN_SEEN and counts. HOLD_WIDEN adds one code and the hold lasts exactly while the new slack is below
WIDEN. TAP_RELAX when relaxing is due: narrows by one code and counts, or is deferred with the tap unchanged when it would
raise the voltage floor above the rail; RELAX_REEVALUATE narrows a deferred one when it no longer does. A shadow capture
widens by one code up to 63, sets SHADOW_SEEN and counts. 'Completes' says: exec answers the next state 'settle u', u being
the state after the command's own effect, and the stated facts hold of u. Rows: SLACK_WINDOW_END, TAP_WIDEN, HOLD_WIDEN,
TAP_RELAX, RELAX_REEVALUATE, SHADOW_LATCH_FLAG.
R39, R41, R42, R44. -/
def Obligations.MarginStepsComplete : Prop :=
  ∀ (s : State) (d : Nat), d < 408 → s.monitored d = true →
    (∀ q : Int, -128 ≤ q → q ≤ 4 * (s.f F.MGN_CTRL_FLOOR : Int) → q ≤ 127 → s.f F.MGN_DOM_TAP_CURRENT d < 63 → (s.dom d).held = false →
      Completes (.slackWindowEnd d q) s fun u => (u.dom d).held = true ∧ u.fS F.MGN_DOM_SLACK_NOW d = q ∧
        u.f F.MGN_STATUS_HOLD_SEEN = 1 ∧ u.f F.MGN_STATUS_LAST_DOMAIN = d ∧
        u.f F.MGN_DOM_CNT_HOLDS d = min (s.f F.MGN_DOM_CNT_HOLDS d + 1) (2 ^ F.MGN_DOM_CNT_HOLDS.w - 1) ∧
        u.f F.MGN_DOM_TAP_CURRENT d = s.f F.MGN_DOM_TAP_CURRENT d) ∧
    (∀ q : Int, 4 * (s.f F.MGN_CTRL_WIDEN : Int) ≤ q → q ≤ 127 → -128 ≤ q → (s.dom d).held = true →
      Completes (.slackWindowEnd d q) s fun u => (u.dom d).held = false ∧ u.fS F.MGN_DOM_SLACK_NOW d = q) ∧
    ((s.dom d).widening = true → (s.dom d).held = false → s.f F.MGN_CTRL_AUTO_WIDEN = 1 → s.f F.MGN_DOM_TAP_CURRENT d < 63 →
      s.examined d = false → s.fS F.MGN_DOM_SLACK_NOW d < 4 * (s.f F.MGN_CTRL_TARGET : Int) →
      Completes (.tapWiden d) s fun u => u.f F.MGN_DOM_TAP_CURRENT d = s.f F.MGN_DOM_TAP_CURRENT d + 1 ∧
        u.f F.MGN_STATUS_WIDEN_SEEN = 1 ∧
        u.f F.MGN_DOM_CNT_WIDENS d = min (s.f F.MGN_DOM_CNT_WIDENS d + 1) (2 ^ F.MGN_DOM_CNT_WIDENS.w - 1)) ∧
    (∀ q : Int, (s.dom d).held = true → s.f F.MGN_DOM_TAP_CURRENT d < 62 →
      Completes (.holdWiden d q) s fun u => u.f F.MGN_DOM_TAP_CURRENT d = s.f F.MGN_DOM_TAP_CURRENT d + 1 ∧
        (u.dom d).held = decide (q < 4 * (s.f F.MGN_CTRL_WIDEN : Int))) ∧
    (s.mayRelax d = true → s.relaxRaises d = false →
      Completes (.tapRelax d) s fun u => u.f F.MGN_DOM_TAP_CURRENT d + 1 = s.f F.MGN_DOM_TAP_CURRENT d ∧
        u.f F.MGN_DOM_CNT_RELAXES d = min (s.f F.MGN_DOM_CNT_RELAXES d + 1) (2 ^ F.MGN_DOM_CNT_RELAXES.w - 1)) ∧
    (s.mayRelax d = true → s.relaxRaises d = true → Completes (.tapRelax d) s fun u => (u.dom d).deferred = true ∧
        u.f F.MGN_DOM_TAP_CURRENT d = s.f F.MGN_DOM_TAP_CURRENT d) ∧
    (s.mayRelax d = true → s.relaxRaises d = false → (s.dom d).deferred = true →
      Completes (.relaxReevaluate d) s fun u => u.f F.MGN_DOM_TAP_CURRENT d + 1 = s.f F.MGN_DOM_TAP_CURRENT d ∧ (u.dom d).deferred = false) ∧
    Completes (.shadowLatchFlag d) s fun u => u.f F.MGN_DOM_TAP_CURRENT d = min 63 (s.f F.MGN_DOM_TAP_CURRENT d + 1) ∧
        u.f F.MGN_STATUS_SHADOW_SEEN = 1 ∧
        u.f F.MGN_DOM_CNT_SHADOW d = min (s.f F.MGN_DOM_CNT_SHADOW d + 1) (2 ^ F.MGN_DOM_CNT_SHADOW.w - 1)

/-- For d below 408. A PLANNED value of at least FACTORY is stored and CURRENT is at least it and not below its old value; a
value below FACTORY stores FACTORY. SWEEP_OFF: the service processor's write during a running sweep of that wing, in TEMPER
and not held, stores the value; on a wing that is not in TEMPER the field is 0 afterwards. Clearing PEAK loads CURRENT,
clearing SLACK_MIN loads SLACK_NOW, and nothing but registers changes. Reading STEPS replies the count and latches the time
base into TIME. MGN_CTRL takes thresholds with 1 <= FLOOR < WIDEN < TARGET < RELAX_ABOVE and TARGET >= 6, nothing but
registers changing; WIDEN at or below FLOOR leaves MGN_CTRL unchanged. A register write of 0 or 1 to PWR_CTRL sets
AUTO_RESTART and clears LOW_HEAT_EN, only registers changing. The clauses with 'next t' hold in quiet states. 'Completes'
says: exec answers the next state 'settle u', u being the state after the command's own effect, and the stated facts hold of
u. Rows: PLANNED_WRITE, SWEEP_OFF_WRITE, MGN_PEAK_CLR, SLACK_MIN_CLR, STEPS_READ, MGN_CTRL_WRITE, REG_WRITE.
R47, R48, R58, R60, R38. -/
def Obligations.MarginRegistersComplete : Prop :=
  ∀ (s : State) (d : Nat) (m : Master), d < 408 →
    (∀ v, v < 64 → s.f F.MGN_DOM_TAP_FACTORY d ≤ v → Completes (.plannedWrite d v m) s fun u => u.f F.MGN_DOM_TAP_PLANNED d = v ∧
      s.f F.MGN_DOM_TAP_CURRENT d ≤ u.f F.MGN_DOM_TAP_CURRENT d ∧ v ≤ u.f F.MGN_DOM_TAP_CURRENT d) ∧
    (∀ v, v < s.f F.MGN_DOM_TAP_FACTORY d → Completes (.plannedWrite d v m) s fun u =>
      u.f F.MGN_DOM_TAP_PLANNED d = s.f F.MGN_DOM_TAP_FACTORY d) ∧
    (∀ v, v < 8 → d < 384 → d % 6 < 4 → s.wingState (d / 6) = 1 → (s.dom d).held = false →
      (∃ x ∈ s.eye.sweeps, x.running = true ∧ x.wing = d / 6) →
      Completes (.sweepOffWrite d v .sp) s fun u => u.f F.MGN_DOM_TAP_SWEEP_OFF d = v) ∧
    (∀ v, s.wingState (d / 6) ≠ 1 → Completes (.sweepOffWrite d v m) s fun u => u.f F.MGN_DOM_TAP_SWEEP_OFF d = 0) ∧
    (s.quiet = true → ∃ t, exec (.mgnPeakClr d m) s = .next t ∧ t.f F.MGN_DOM_TAP_PEAK d = s.f F.MGN_DOM_TAP_CURRENT d ∧
      t.f F.MGN_DOM_TAP_CURRENT d = s.f F.MGN_DOM_TAP_CURRENT d ∧ { t with regs := s.regs } = s) ∧
    (s.quiet = true → ∃ t, exec (.slackMinClr d m) s = .next t ∧ t.f F.MGN_DOM_SLACK_MIN d = s.f F.MGN_DOM_SLACK_NOW d ∧
      t.f F.MGN_DOM_SLACK_NOW d = s.f F.MGN_DOM_SLACK_NOW d ∧ { t with regs := s.regs } = s) ∧
    (∀ w, w < 64 → s.quiet = true → ∃ t, exec (.stepsRead w) s = .next t ∧ t.busReply = some (s.rd .MGN_RATE_STEPS w).toNat ∧
      t.rd .MGN_RATE_TIME w = s.rd .CRU_TIME) ∧
    (∀ v, let t := bitsAt v 8 8; let wd := bitsAt v 16 8; let fl := bitsAt v 24 8; let ra := bitsAt v 32 8
      1 ≤ fl → fl < wd → wd < t → 6 ≤ t → t < ra → s.quiet = true →
      ∃ u, exec (.mgnCtrlWrite v m) s = .next u ∧ u.f F.MGN_CTRL_TARGET = t ∧ u.f F.MGN_CTRL_WIDEN = wd ∧ u.f F.MGN_CTRL_FLOOR = fl ∧
        u.f F.MGN_CTRL_RELAX_ABOVE = ra ∧ { u with regs := s.regs } = s) ∧
    (∀ v, bitsAt v 16 8 ≤ bitsAt v 24 8 → Completes (.mgnCtrlWrite v m) s fun u => u.rd .MGN_CTRL = s.rd .MGN_CTRL) ∧
    (∀ v, v < 2 → s.quiet = true → ∃ t, exec (.regWrite (RegKey.addr ⟨.PWR_CTRL, 0, 0⟩) 8 v m) s = .next t ∧
      t.f F.PWR_CTRL_AUTO_RESTART = v ∧ t.f F.PWR_CTRL_LOW_HEAT_EN = 0 ∧ { t with regs := s.regs } = s)

/-- The recomputed floor of rail r is at least 600 mV and at least what every domain of the rail needs. A held runner, ladle or
turn domain not yet exhausted: EXHAUSTED and LAST_DOMAIN are set and the domain stays held. A temper command of mode 0 with a
domain up to 407 starts a pass on that domain when none runs, and is refused (TEMPER_REFUSED, the pass unchanged) while one
runs; a due rotation in stage 13 starts a pass over all 408 domains; eight codes above PLANNED trigger a pass of that domain.
A busy wing's domains move from the pass's list to its retry list. The pass of a domain under examination sets PLANNED and
CURRENT to max(planned code, FACTORY, PLANNED - NARROW_LIMIT) where that is at most 63. Bask taps of a rail that is not cold
fall by one code in each of its domains. 'Completes' says: exec answers the next state 'settle u', u being the state after
the command's own effect, and the stated facts hold of u. Rows: VFLOOR_RECOMPUTE, MARGIN_EXHAUSTED, TEMPER_START,
TEMPER_ROTATION_DUE, TEMPER_TRIGGERED, TEMPER_WING_SKIP, TEMPER_DOMAIN_PASS, BASK_TAP_REMOVE.
R43, R46, R51, R52, R53, R57. -/
def Obligations.MarginPassesComplete : Prop :=
  ∀ (s : State) (m : Master),
    (∀ r, r < 8 → Completes (.vfloorRecompute r) s fun u => 600 ≤ u.f F.MGN_VFLOOR_FLOOR_MV r ∧
      ∀ d ∈ railDoms r, s.needMv d (s.fS F.MGN_DOM_SLACK_NOW d) ≤ u.f F.MGN_VFLOOR_FLOOR_MV r) ∧
    (∀ d, 384 ≤ d → d < 408 → (s.dom d).held = true → s.f F.MGN_DOM_TAP_EXHAUSTED d = 0 →
      Completes (.marginExhausted d) s fun u => u.f F.MGN_STATUS_EXHAUSTED = 1 ∧ u.f F.MGN_STATUS_LAST_DOMAIN = d ∧ (u.dom d).held = true) ∧
    (s.margin.temper = none → s.f F.MGN_TEMPER_MODE = 0 → s.f F.MGN_TEMPER_DOMAIN ≤ 407 →
      Completes (.temperStart m) s fun u => u.f F.MGN_STATUS_TEMPER_BUSY = 1 ∧
        u.margin.temper = some ⟨3, [s.f F.MGN_TEMPER_DOMAIN], []⟩) ∧
    (s.margin.temper.isSome = true → Completes (.temperStart m) s fun u => u.f F.MGN_TEMPER_REFUSED = 1 ∧ u.margin = s.margin) ∧
    (s.margin.temper = none → s.f F.MGN_TEMPER_PERIOD_H ≠ 0 → s.stage = 13 →
      Completes .temperRotationDue s fun u => u.f F.MGN_STATUS_TEMPER_BUSY = 1 ∧ u.margin.temper = some ⟨1, List.range 408, []⟩) ∧
    (∀ d, d < 408 → s.margin.temper = none → s.f F.MGN_DOM_TAP_PLANNED d + 8 ≤ s.f F.MGN_DOM_TAP_CURRENT d → s.stage = 13 →
      Completes (.temperTriggered d) s fun u => u.f F.MGN_STATUS_TEMPER_BUSY = 1 ∧ u.margin.temper = some ⟨2, [d], []⟩) ∧
    (∀ w t, w < 64 → s.margin.temper = some t → t.head.bind domWing = some w → (s.wing w).jobs ≠ [] →
      (∃ d ∈ t.todo, domWing d = some w) →
      Completes (.temperWingSkip w) s fun u => u.margin.temper = some
        { t with todo := t.todo.filter fun d => domWing d != some w, retry := t.retry ++ t.todo.filter fun d => domWing d == some w }) ∧
    (∀ d t q e, d < 408 → s.margin.temper = some t → t.head = some d →
      s.examined d = true →
      let c := max (s.planCode d q) (max (s.f F.MGN_DOM_TAP_FACTORY d : Int) ((s.f F.MGN_DOM_TAP_PLANNED d : Int) - s.f F.MGN_CTRL_NARROW_LIMIT))
      c ≤ 63 → Completes (.temperDomainPass d q e) s fun u => u.f F.MGN_DOM_TAP_PLANNED d = c.toNat ∧ u.f F.MGN_DOM_TAP_CURRENT d = c.toNat) ∧
    (∀ r, r < 8 → s.railCold r = false → Completes (.baskTapRemove r) s fun u => ∀ d ∈ railDoms r, (u.dom d).bask = (s.dom d).bask - 1)

/-- For every source n that Table 16-6 defines. An occurrence (a level source only when not already asserted; not the first-boot
source 83/12) adds 1 to TOTAL, saturating. The end of a quiet period adds 1 to RECOVERIES modulo 2^16. The end of the count
window clears COUNT and keeps TOTAL. Unlatching clears LATCHED; latching an unlatched source sets LATCHED and LATCH_SEEN. A
write of EYE_SRC_CFG (by master class 5 for groups 82, 84 and 85) stores IRQ, NMI and MODULE, BLOCK only where the source has
a block reset, THRESH with 0 stored as 1, and a PIN code the source accepts. 'Completes' says: exec answers the next state
'settle u', u being the state after the command's own effect, and the stated facts hold of u. Rows: SOURCE_OCCURRENCE,
QUIET_EXPIRE, COUNT_WINDOW_EXPIRE, SOURCE_UNLATCH, SOURCE_LATCH, EYE_SRC_CFG_WRITE.
R443, R445, R446, R447, R449. -/
def Obligations.EyeSourcesComplete : Prop :=
  ∀ (s : State) (n : Nat) (m : Master), n < 2048 → (srcDef n).isSome = true →
    (∀ a b c, n ≠ srcOf 83 12 → ((srcDef n).any (fun d => d.level == 1) = true → s.f F.EYE_SRC_STAT_ASSERTED n = 0) →
      Completes (.sourceOccurrence n a b c) s fun u =>
        u.f F.EYE_SRC_STAT_TOTAL n = min (s.f F.EYE_SRC_STAT_TOTAL n + 1) (2 ^ F.EYE_SRC_STAT_TOTAL.w - 1)) ∧
    (s.f F.EYE_SRC_STAT_QUIET n = 1 → Completes (.quietExpire n) s fun u =>
        u.f F.EYE_SRC_STAT_RECOVERIES n = (s.f F.EYE_SRC_STAT_RECOVERIES n + 1) % 2 ^ 16) ∧
    Completes (.countWindowExpire n) s (fun u => u.f F.EYE_SRC_STAT_COUNT n = 0 ∧ u.f F.EYE_SRC_STAT_TOTAL n = s.f F.EYE_SRC_STAT_TOTAL n) ∧
    Completes (.sourceUnlatch n m) s (fun u => u.f F.EYE_SRC_STAT_LATCHED n = 0) ∧
    (s.f F.EYE_SRC_STAT_LATCHED n = 0 → Completes (.sourceLatch n m) s fun u =>
        u.f F.EYE_SRC_STAT_LATCHED n = 1 ∧ u.f F.EYE_STATUS_LATCH_SEEN = 1) ∧
    (∀ v, (n / 16 = 82 ∨ n / 16 = 84 ∨ n / 16 = 85 → m.cls = 5) → Completes (.eyeSrcCfgWrite n v m) s fun u =>
        u.f F.EYE_SRC_CFG_IRQ n = bitsAt v 0 1 ∧ u.f F.EYE_SRC_CFG_NMI n = bitsAt v 1 1 ∧ u.f F.EYE_SRC_CFG_MODULE n = bitsAt v 3 1 ∧
        u.f F.EYE_SRC_CFG_BLOCK n = (if srcHasBlock n then bitsAt v 2 1 else 0) ∧
        u.f F.EYE_SRC_CFG_THRESH n = max 1 (bitsAt v 8 4) ∧
        (pinAllowed n (bitsAt v 4 3) = true → u.f F.EYE_SRC_CFG_PIN n = bitsAt v 4 3))

/-- The oldest ring record moves to the end of a log that is not full, and LOG_NEXT counts modulo 32,768. The end of an alert or
security pulse clears the pulse and, without a hold, the pin. The HOLD fields take a write of master class 5. A kick by the
service processor clears the keel watchdog's assertion; an OS kick stores the time. The keel watchdog's expiry from stage 2
on (not in a trial of the keel image, not already asserted) and an enabled OS watchdog's expiry each count one occurrence.
Injection arms in the life-cycle states MAKER, DEPLOYED and RETURN (1, 3, 4). A sweep reaches its stress point when the array
is at stress, is dropped with BUSY cleared when it is abandoned, and ends with LAST_RESULT 1 when its running offset sweep
ended without failure. 'Completes' says: exec answers the next state 'settle u', u being the state after the command's own
effect, and the stated facts hold of u. Rows: LOG_RECORD_MOVE, ALERT_PULSE_END, EYE_PIN_HOLD_WRITE, KEEL_KICK, OS_KICK,
KEEL_WATCHDOG_EXPIRE, OS_WATCHDOG_EXPIRE, INJECTION_ARM, SWEEP_STRESS_POINT, SWEEP_ABANDON, SWEEP_END.
R446, R452, R454, R455, R457, R458, R459. -/
def Obligations.EyeRestComplete : Prop :=
  ∀ (s : State) (m : Master) (w a : Nat), w < 64 → a < 4 →
    (∀ r rest, s.eye.ring = r :: rest → s.eye.log.length < 32768 → Completes .logRecordMove s fun u =>
      u.eye.ring = rest ∧ u.eye.log = s.eye.log ++ [r] ∧ u.f F.EYE_LOG_NEXT = (s.f F.EYE_LOG_NEXT + 1) % 32768) ∧
    Completes (.alertPulseEnd false) s (fun u => u.pins.alertPulse = false ∧ (s.f F.EYE_PIN_ALERT_HOLD = 0 → u.f F.EYE_PIN_ALERT = 0)) ∧
    Completes (.alertPulseEnd true) s (fun u => u.pins.secPulse = false ∧ (s.f F.EYE_PIN_SECALERT_HOLD = 0 → u.f F.EYE_PIN_SECALERT = 0)) ∧
    (∀ x y, x < 2 → y < 2 → m.cls = 5 → Completes (.eyePinHoldWrite x y m) s fun u =>
      u.f F.EYE_PIN_ALERT_HOLD = x ∧ u.f F.EYE_PIN_SECALERT_HOLD = y) ∧
    Completes (.keelKick .sp) s (fun u => u.f F.EYE_SRC_STAT_ASSERTED (srcOf 83 8) = 0) ∧
    Completes (.osKick m) s (fun u => u.eye.osKick = s.now) ∧
    (2 ≤ s.stage → s.boot.trial.contains 0 = false → s.f F.EYE_SRC_STAT_ASSERTED (srcOf 83 8) = 0 → Completes .keelWatchdogExpire s fun u =>
      u.f F.EYE_SRC_STAT_TOTAL (srcOf 83 8) = min (s.f F.EYE_SRC_STAT_TOTAL (srcOf 83 8) + 1) (2 ^ F.EYE_SRC_STAT_TOTAL.w - 1)) ∧
    (s.f F.EYE_KICK_OS_MS ≠ 0 → Completes .osWatchdogExpire s fun u =>
      u.f F.EYE_SRC_STAT_TOTAL (srcOf 83 9) = min (s.f F.EYE_SRC_STAT_TOTAL (srcOf 83 9) + 1) (2 ^ F.EYE_SRC_STAT_TOTAL.w - 1)) ∧
    (s.lcs = 1 ∨ s.lcs = 3 ∨ s.lcs = 4 → Completes (.injectionArm m) s fun u => u.f F.EYE_INJ_CTRL_ARMED = 1) ∧
    (∀ x, s.eye.sweeps = [x] → x.wing = w → x.arr = a → x.reached = false → s.atStress w a = true →
      Completes (.sweepStressPoint w a) s fun u => u.eye.sweeps = [{ x with reached := true }]) ∧
    (∀ x, s.eye.sweeps = [x] → x.wing = w → x.arr = a → x.reached = false →
      Completes (.sweepAbandon w a) s fun u => u.eye.sweeps = [] ∧ u.f F.EYE_SWEEP_BUSY = 0) ∧
    (∀ x, s.eye.sweeps = [x] → x.wing = w → x.arr = a → x.running = true → x.ended = true → x.failed = false →
      Completes (.sweepEnd w a) s fun u => u.f F.EYE_SWEEP_LAST_RESULT = 1)

/-- Input power on a module without VSTBY takes the straps, raises VSTBY, clears memory and starts power-up step 1; each rail's
power-good advances the step and shows PGOOD; after step 6 with the reference clock the module is ON at boot stage 1; a rail
that does not come up ends in OFF with its cause; a rail fault when ON ends in TRIPPED state 5 with memory cleared. An input
sample between 42 and 60 V is stored. Input out of range, a stop request and input loss end ON in the orderly stop (3) with
causes 4, 7 and 5; the stop's end powers down to 4. Automatic restart starts power-up again. RESET_N low when ON from stage 2
and a firmware reset start a module reset at stage 2 with LAST_RESET 1 or 4 and an empty queue engine and no wing jobs;
RESET_N otherwise changes only the pin. A trip ends in state 5 with TRIP_SEEN and memory cleared. Losing the reference clock
shows on the pin; its return changes only the pin. 'Completes' says: exec answers the next state 'settle u', u being the
state after the command's own effect, and the stated facts hold of u. Rows: INPUT_VALID, RAIL_POWER_GOOD, RAIL_FAULT,
INPUT_SAMPLE, INPUT_OUT_OF_RANGE, PWR_STOP, POWER_DOWN, AUTO_RESTART, RESET_N_LOW, RESET_N_HIGH, INPUT_LOSS, TRIP,
REFCLK_LOSS, REFCLK_RETURN, CRU_RESET_MODULE.
R486, R488, R489, R490, R503, R504, R505, R506, R514, R517, R397. -/
def Obligations.PowerStatesComplete : Prop :=
  ∀ (s : State) (m : Master),
    (∀ x, x < 65536 → s.pins.vstby = false → s.sec.marker = none → Completes (.inputValid x) s fun u =>
      u.pins.straps = x % 64 ∧ u.pins.vstby = true ∧ u.pins.lost = false ∧ u.mem = [] ∧ u.pw.step = 1) ∧
    (∀ r, s.pwrState = 1 → 1 ≤ s.pw.step → s.pw.step < 6 → r ∈ powerSteps.getD (s.pw.step - 1) [] → Completes (.railPowerGood none) s fun u =>
      u.pw.step = s.pw.step + 1 ∧ u.f F.PWR_RAIL_MEAS_PGOOD r = 1) ∧
    (s.pwrState = 1 → s.pw.step = 6 → s.pins.refclk = true → s.pw.resume = false → Completes (.railPowerGood none) s fun u =>
      u.pwrState = 2 ∧ u.stage = 1) ∧
    (∀ r, r < 16 → r ∈ mainRails → s.pwrState = 1 → 1 ≤ s.pw.step → s.pw.step ≤ 6 → Completes (.railPowerGood (some r)) s fun u =>
      u.pwrState = 4 ∧ u.stage = 15 ∧ u.f F.CRU_BOOT_CAUSE = r + 1) ∧
    (∀ r, r < 16 → s.pwrState = 2 → Completes (.railFault r) s fun u => u.pwrState = 5 ∧ u.stage = 0 ∧ u.mem = [] ∧ u.f F.PWR_RAIL_MEAS_FAULT r = 1) ∧
    (∀ mv avg rails, mv < 65536 → Completes (.inputSample mv avg rails) s fun u => 42000 ≤ mv → mv ≤ 60000 → u.f F.PWR_IN_VIN_MV = mv) ∧
    (s.pwrState = 2 → Completes .inputOutOfRange s fun u => u.pwrState = 3 ∧ u.f F.PWR_STATE_STOP_CAUSE = 4) ∧
    (s.pwrState = 2 → Completes (.pwrStop m) s fun u => u.pwrState = 3 ∧ u.f F.PWR_STATE_STOP_CAUSE = 7 ∧ u.f F.QE_CTRL_DISPATCH_EN = 0) ∧
    (s.pwrState = 3 → s.pins.lost = false → Completes .powerDown s fun u => u.pwrState = 4 ∧ u.stage = 0 ∧ u.mem = []) ∧
    (s.f F.PWR_CTRL_AUTO_RESTART = 1 → (s.pwrState = 4 ∨ s.pwrState = 5) → s.restartOk = true → Completes .autoRestart s fun u =>
      u.pwrState = 1 ∧ u.stage = 0 ∧ u.pw.step = 1 ∧ u.f F.CRU_BOOT_LAST_RESET = 5) ∧
    (s.pwrState = 2 → 2 ≤ s.stage → Completes .resetNLow s fun u => u.stage = 2 ∧ u.f F.CRU_BOOT_LAST_RESET = 1) ∧
    Completes .resetNHigh s (fun u => u = { s with pins := { s.pins with resetN := true } }) ∧
    (s.pwrState ≠ 2 → Completes .resetNLow s fun u => u = { s with pins := { s.pins with resetN := false } }) ∧
    (s.pins.vstby = true → s.pwrState = 2 → 11 ≤ s.stage → s.stage ≤ 13 → Completes .inputLoss s fun u => u.pwrState = 3 ∧
      u.f F.PWR_STATE_STOP_CAUSE = 5) ∧
    (∀ n, n < 74 → s.pwrState ≠ 4 → s.pwrState ≠ 5 → Completes (.trip n) s fun u => u.pwrState = 5 ∧ u.stage = 0 ∧ u.f F.THM_STATUS_TRIP_SEEN = 1 ∧ u.mem = []) ∧
    Completes .refclkLoss s (fun u => u.pins.refclk = false) ∧
    Completes .refclkReturn s (fun u => u = { s with pins := { s.pins with refclk := true } }) ∧
    (s.pwrState = 2 → 2 ≤ s.stage → Completes (.cruResetModule m) s fun u => u.stage = 2 ∧ u.f F.CRU_BOOT_LAST_RESET = 4 ∧ u.qe = {} ∧ u.wings = [])

/-- For every opcode op of Table 6-8, every wing w below 64 whose run is at an instruction i of that opcode: not held at i (its
engine, and the ports of its lines): the row of that opcode completes; the run's checks of i's lines and then i itself over
the lanes of the chunk are done, and the run stands at the next instruction of the pattern, or after the last one at the
first instruction of the next chunk, or after the last chunk of a run with a reduction at its end (pattern done). patRow
names the row of each opcode. Runs whose last chunk ends without a reduction are in other statements. 'Completes' says: exec
answers the next state 'settle u', u being the state after the command's own effect, and the stated facts hold of u. Rows:
PATTERN_NOP, MOV, ADD, SUB, MUL, FMA, FMS, FNMA, DIV, SQRT, MIN, MAX, MINN, MAXN, ABS, NEG, CMPEQ, CMPLT, CMPLE, CMPUN, SEL,
SCALE, CVT, RINT, QNT, IADD, ISUB, IMUL, AND, OR, XOR, SHL, SHR, SRA, IMIN, IMAX, EXP2, EXP, LOG2, LOG, RCP, RSQRT, TANH,
SIGM, ERF, SIN, COS, GATH, SCAT, LXCH, LSUM, LSHF.
R151, R166, R173, R176. -/
def Obligations.PatternStepsComplete : Prop :=
  ∀ (s : State) (op : PatOp) (w : Nat) (r : VecRun) (i : Insn), w < 64 → (s.wing w).run = some r → r.patDone = false →
    r.pat[r.pc]? = some i → i.op = op → s.runHeld w r i = false →
    let z := (s.runCheck w r i).2.insn (s.runCheck w r i).1 w i
    (r.pc + 1 < r.pat.length → Completes (patRow op w) s fun u => ∃ m, (u.wing w).run = some { z.2 with pc := r.pc + 1, meter := m }) ∧
    (r.pat.length ≤ r.pc + 1 → r.chunk + 1 < r.chunks → Completes (patRow op w) s fun u =>
      ∃ m, (u.wing w).run = some { z.2 with pc := 0, chunk := r.chunk + 1, lanes := [], patDone := false, meter := m }) ∧
    (r.pat.length ≤ r.pc + 1 → r.chunks ≤ r.chunk + 1 → r.blk.redOp ≠ 0 → Completes (patRow op w) s fun u =>
      ∃ m, (u.wing w).run = some { z.2 with pc := 0, chunk := r.chunk + 1, lanes := [], patDone := true, meter := m })

/-- For ADD to RINT and IADD to IMAX with pattern registers v0 to v15 as sources and destination, at a type other than binary64:
the lane's destination register takes the operation's result on the source registers' bits of the type's width, the flags
raised are joined to the run's, and neither another register of the lane nor another part of the run or of the state changes.
R162, R163, R164. -/
def Obligations.PatternLaneResult : Prop :=
  ∀ (p : Pass) (w : Nat) (i : Insn) (t : Ty) (as : List Nat) (lane : Nat) (e : Elem) (l : List Nat),
    plainOp i.op = true → t ≠ .f64 → i.a ≤ 15 → i.b ≤ 15 → i.c ≤ 15 → i.d ≤ 15 →
    let v := fun k => laneReg l k % 2 ^ t.bits
    let z := aluOp i.op t (p.r.blk.mode i) (v i.a)
      (if i.op = .sqrt ∨ i.op = .abs ∨ i.op = .neg ∨ i.op = .rint then 0 else v i.b)
      (if i.op = .fma ∨ i.op = .fms ∨ i.op = .fnma ∨ i.op = .sel then v i.c else 0)
    let q := p.lane w i t as lane e l
    q.done = p.done ++ [listSet l i.d (z.1 % 2 ^ t.bits)] ∧ q.r = { p.r with flags := p.r.flags ||| z.2 } ∧ q.s = p.s

/-- On 32-bit sources: IADD, ISUB and IMUL are modulo 2^32; AND, OR and XOR are bitwise; SHL, SHR and SRA shift by the low five
bits of b, SRA with copies of the sign; IMIN and IMAX compare as signed words at INT32 and as unsigned words at UINT32. None
raises a flag.
R167. -/
def Obligations.IntegerResults : Prop :=
  ∀ (a b c : BitVec 32) (rm : RM),
    let f := fun op t => aluOp op t rm a.toNat b.toNat c.toNat
    (∀ t, f .iadd t = ((a + b).toNat, 0)) ∧ (∀ t, f .isub t = ((a - b).toNat, 0)) ∧ (∀ t, f .imul t = ((a * b).toNat, 0)) ∧
    (∀ t, f .and t = ((a &&& b).toNat, 0)) ∧ (∀ t, f .or t = ((a ||| b).toNat, 0)) ∧ (∀ t, f .xor t = ((a ^^^ b).toNat, 0)) ∧
    (∀ t, f .shl t = ((a <<< (b.toNat % 32)).toNat, 0)) ∧ (∀ t, f .shr t = ((a >>> (b.toNat % 32)).toNat, 0)) ∧
    (∀ t, f .sra t = ((a.sshiftRight (b.toNat % 32)).toNat, 0)) ∧
    f .imin .i32 = ((if a.toInt ≤ b.toInt then a else b).toNat, 0) ∧ f .imax .i32 = ((if a.toInt ≤ b.toInt then b else a).toNat, 0) ∧
    f .imin .u32 = (min a.toNat b.toNat, 0) ∧ f .imax .u32 = (max a.toNat b.toNat, 0)

/-- For every queue q below 256. A doorbell between TAIL and RHEAD + size sets TAIL; an RHEAD between RHEAD and the replies
written is stored; a gate write stores, a gate add adds modulo 2^48, and nothing but registers changes (quiet states).
Enabling a DISABLED queue gives RUNNING, ENABLE 1 and zero counts; disabling a queue that drains lets it disable at the
drain's end, disabling an idle running queue starts a drain. A drain by finish or by abort of a queue whose commands have all
dispatched (for abort: retired) notes its end; its end leaves STOPPED or DISABLED. RESUME of a STOPPED or ERROR queue gives
RUNNING. Clearing CLAMP clears the count and changes only registers. A head held longer than WAIT_MS (a wait, a wing, a held
domain) sets WAIT_LONG. 'Completes' says: exec answers the next state 'settle u', u being the state after the command's own
effect, and the stated facts hold of u. Rows: QUEUE_DOORBELL, RHEAD_WRITE, QE_GATE_VAL_WRITE, QE_GATE_ADD_WRITE,
QUEUE_ENABLE, QUEUE_DISABLE, QUEUE_DRAIN_FINISH, QUEUE_DRAIN_ABORT, QUEUE_DRAIN_DONE, QUEUE_RESUME, CLAMP_CLR,
QUEUE_WAIT_LONG.
R188, R199, R203, R211, R215, R216, R224. -/
def Obligations.QueueControlComplete : Prop :=
  ∀ (s : State) (m : Master) (q : Nat), q < 256 →
    (∀ v, v < 2 ^ F.QE_Q_TAIL_TAIL.w → s.f F.QE_Q_TAIL_TAIL q ≤ v → v ≤ s.f F.QE_Q_RHEAD_RHEAD q + s.qSize q →
      Completes (.queueDoorbell q v m) s fun u => u.f F.QE_Q_TAIL_TAIL q = v ∧ u.f F.QE_Q_HEAD_HEAD q = s.f F.QE_Q_HEAD_HEAD q) ∧
    (∀ v, v < 2 ^ F.QE_Q_RHEAD_RHEAD.w → s.f F.QE_Q_RHEAD_RHEAD q ≤ v → v ≤ (s.qx q).written →
      Completes (.rheadWrite q v m) s fun u => u.f F.QE_Q_RHEAD_RHEAD q = v) ∧
    (∀ g v, g < 4096 → v < 2 ^ 48 → s.quiet = true → ∃ t, exec (.qeGateValWrite g v m) s = .next t ∧ t.gate g = v ∧ { t with regs := s.regs } = s) ∧
    (∀ g v, g < 4096 → v < 2 ^ 48 → s.quiet = true → ∃ t, exec (.qeGateAddWrite g v m) s = .next t ∧ t.gate g = (s.gate g + v) % 2 ^ 48 ∧
      { t with regs := s.regs } = s) ∧
    (s.qState q = qDisabled → Completes (.queueEnable q m) s fun u => u.qState q = qRunning ∧ u.f F.QE_Q_CFG_ENABLE q = 1 ∧
      u.f F.QE_Q_TAIL_TAIL q = 0 ∧ u.f F.QE_Q_HEAD_HEAD q = 0 ∧ u.f F.QE_Q_RHEAD_RHEAD q = 0) ∧
    (s.qState q = qDraining → Completes (.queueDisable q m) s fun u => u.f F.QE_Q_CFG_ENABLE q = 0 ∧ (u.qx q).thenDisable = true) ∧
    (s.f F.QE_Q_HEAD_HEAD q = s.f F.QE_Q_TAIL_TAIL q → s.qState q = qRunning → Completes (.queueDisable q m) s fun u =>
      u.qState q = qDraining ∧ u.f F.QE_Q_CFG_ENABLE q = 0 ∧ (u.qx q).drain = some (1, s.f F.QE_Q_TAIL_TAIL q)) ∧
    (s.f F.QE_Q_HEAD_HEAD q = s.f F.QE_Q_TAIL_TAIL q → s.qState q ≠ qDisabled → Completes (.queueDrainFinish q m) s fun u =>
      u.qState q = qDraining ∧ (u.qx q).drain = some (1, s.f F.QE_Q_TAIL_TAIL q)) ∧
    (s.f F.QE_Q_HEAD_HEAD q = s.f F.QE_Q_TAIL_TAIL q → s.qState q ≠ qDisabled → (∀ c ∈ s.qe.cmds, c.q = q → c.retired = true) →
      Completes (.queueDrainAbort q m) s fun u => u.qState q = qDraining ∧ (u.qx q).drain = some (2, s.f F.QE_Q_TAIL_TAIL q)) ∧
    (∀ d t, (s.qx q).drain = some (d, t) → s.qState q = qDraining → (∀ c ∈ s.qe.cmds, c.q = q → c.seq < t → c.retired = true) →
      Completes (.queueDrainDone q) s fun u => u.qState q = (if (s.qx q).thenDisable then qDisabled else qStopped) ∧ (u.qx q).drain = none) ∧
    (s.qState q = qStopped ∨ s.qState q = qError → Completes (.queueResume q m) s fun u => u.qState q = qRunning) ∧
    Completes (.clampClr q m) s (fun u => u.f F.QE_Q_CLAMP_COUNT q = 0 ∧ { u with regs := s.regs } = s) ∧
    (s.f F.QE_Q_CFG_WAIT_MS q ≠ 0 → s.canDispatch q = true → s.headHeld q (s.readPkt q (s.f F.QE_Q_HEAD_HEAD q)) = true →
      Completes (.queueWaitLong q) s fun u => u.f F.QE_Q_STATE_WAIT_LONG q = 1)

/-- For a queue q whose head command can go now (HeadReady), with fewer than 16 in flight. The HEAD count goes on by one in each
case. NOP, by its own row or by COMMAND_DISPATCH: the command is recorded as done, with its packet; by its own row also with
status OK, no outputs, and INFLIGHT one more. GATE_ADD adds its 48-bit value to its gate modulo 2^48 and GATE_SET sets it.
ABORT of a command of this or another queue that has retired ends with status 3 and the retired command's status as detail.
MATMUL and VEC_RUN on a wing in READY or BUSY whose fields are accepted stand last among the wing's jobs, the wing BUSY, the
record naming packet and wing, and their streams are joined or their run started. HeadReady says: the head may dispatch, has
this opcode, its waits are met, its slot can be read now and is not poisoned, and no held domain stands in its way.
'Completes' says: exec answers the next state 'settle u', u being the state after the command's own effect, and the stated
facts hold of u. Rows: NOP, COMMAND_DISPATCH, GATE_ADD, GATE_SET, ABORT, MATMUL, VEC_RUN.
R190, R195, R199, R213. -/
def Obligations.DispatchComplete : Prop :=
  ∀ (s : State) (q : Nat), q < 256 →
    let h := s.f F.QE_Q_HEAD_HEAD q
    let p := s.readPkt q h
    h + 1 < 2 ^ F.QE_Q_HEAD_HEAD.w → s.f F.QE_Q_STATE_INFLIGHT q < 16 →
    (HeadReady s q 0 → Completes (.nop q) s fun u => u.f F.QE_Q_HEAD_HEAD q = h + 1 ∧ u.f F.QE_Q_STATE_INFLIGHT q = s.f F.QE_Q_STATE_INFLIGHT q + 1 ∧
      ∃ c, u.cmd q h = some c ∧ c.pkt = p ∧ c.execDone = true ∧ c.noOutputs = true ∧ c.status = 0) ∧
    (HeadReady s q 0 → Completes (.commandDispatch q) s fun u => u.f F.QE_Q_HEAD_HEAD q = h + 1 ∧
      ∃ c, u.cmd q h = some c ∧ c.pkt = p ∧ c.execDone = true) ∧
    (HeadReady s q 0x20 → bitsAt (p.getD 2 0) 0 16 < 4096 → Completes (.gateAdd q) s fun u => u.f F.QE_Q_HEAD_HEAD q = h + 1 ∧
      u.gate (bitsAt (p.getD 2 0) 0 16) = (s.gate (bitsAt (p.getD 2 0) 0 16) + bitsAt (p.getD 3 0) 0 48) % 2 ^ 48) ∧
    (HeadReady s q 0x21 → bitsAt (p.getD 2 0) 0 16 < 4096 → Completes (.gateSet q) s fun u => u.f F.QE_Q_HEAD_HEAD q = h + 1 ∧
      u.gate (bitsAt (p.getD 2 0) 0 16) = bitsAt (p.getD 3 0) 0 48) ∧
    (∀ t, HeadReady s q 0x30 → bitsAt (p.getD 2 0) 0 16 < 256 → p.getD 3 0 < s.f F.QE_Q_TAIL_TAIL (bitsAt (p.getD 2 0) 0 16) →
      ¬ (bitsAt (p.getD 2 0) 0 16 = q ∧ p.getD 3 0 = h) → s.cmd (bitsAt (p.getD 2 0) 0 16) (p.getD 3 0) = some t → t.retired = true →
      Completes (.abort q) s fun u => u.f F.QE_Q_HEAD_HEAD q = h + 1 ∧
      ∃ c, u.cmd q h = some c ∧ c.status = 3 ∧ c.detail = t.status) ∧
    (∀ (w : Nat) (j : MatJob), HeadReady s q 1 → (Taken s q).1.f F.QE_Q_CFG_WING q = w →
      let z := (Taken s q).1.decodeMat w q h p
      (Taken s q).1.wingState w ≠ 5 → (z.1.wingState w = 2 ∨ z.1.wingState w = 3) → z.2.res = .ok j → z.2.uncorr = false →
      Completes (.matmul q) s fun u => ∃ (v : State) (l : List Job) (n : Nat) (c : Cmd), u = v.joinStreams w j false ∧ (v.wing w).jobs = l ++ [.mat { j with ord := n }] ∧ v.wingState w = 3 ∧
        v.cmd q h = some c ∧ c.pkt = p ∧ c.wing = some w) ∧
    (∀ (w : Nat) (j : VecJob), HeadReady s q 2 → (Taken s q).1.f F.QE_Q_CFG_WING q = w →
      let z := (Taken s q).1.decodeVec w q h p
      (Taken s q).1.wingState w ≠ 5 → (z.1.wingState w = 2 ∨ z.1.wingState w = 3) → z.2.res = .ok j → z.2.uncorr = false →
      Completes (.vecRun q) s fun u => ∃ (v : State) (l : List Job) (n : Nat) (c : Cmd), u = v.startRun w ∧ (v.wing w).jobs = l ++ [.vec { j with ord := n }] ∧ v.wingState w = 3 ∧
        v.cmd q h = some c ∧ c.pkt = p ∧ c.wing = some w)

/-- For a queue q whose head can go now, with fewer than 16 in flight, and whose packet is a COPY (each of the five modes), a
turn-engine command (write, arm, disarm) or a ladle command (the five operations): where the unit does not refuse its fields,
its commits are free and, for COPY, the Flask has fewer than 8 copies, the row completes with the command taken from the
queue, its clamps noted, and run by its unit's operation. 'Completes' says: exec answers the next state 'settle u', u being
the state after the command's own effect, and the stated facts hold of u. Rows: COPY_LINEAR, COPY_STRIDED, COPY_GATHER,
COPY_SCATTER, COPY_ATOMIC, TURN_WRITE, TURN_ARM, TURN_DISARM, LADLE_WRITEBACK, LADLE_EVICT, LADLE_UNPROTECT, LADLE_PREFETCH,
LADLE_ZERO.
R190, R235, R348, R351, R352. -/
def Obligations.UnitCommandsComplete : Prop :=
  ∀ (s : State) (q : Nat), q < 256 →
    let h := s.f F.QE_Q_HEAD_HEAD q
    let p := s.readPkt q h
    let t := Taken s q
    h + 1 < 2 ^ F.QE_Q_HEAD_HEAD.w → s.f F.QE_Q_STATE_INFLIGHT q < 16 → HeadReady s q (hdr p 0 8) →
    (∀ row : Nat → Instr, (row, bitsAt (p.getD 2 0) 48 3) ∈ [(Instr.copyLinear, 0), (Instr.copyStrided, 1), (Instr.copyGather, 2), (Instr.copyScatter, 3), (Instr.copyAtomic, 4)] →
      let z := t.1.note (atUnit t.2 (0x40 + t.1.copyFlask (copyArgs p).1.src)) (copyArgs p).2
      hdr p 0 8 = 0x08 → z.1.copyRefuse (copyArgs p).1 = none → z.1.commitReady q h = true →
      (z.1.tray.copies.filter fun j => j.f == z.1.copyFlask (copyArgs p).1.src).length < 8 →
      Completes (row q) s fun u => u = z.1.copyRun z.2) ∧
    (∀ row : Nat → Instr, (row, turnMode p) ∈ [(Instr.turnWrite, 0), (Instr.turnArm, 1), (Instr.turnDisarm, 2)] →
      let z := t.1.note t.2 (turnClamp p).2
      hdr p 0 8 = 0x10 → z.1.turnRefuse p (turnClamp p).1 = none → z.1.commitReady q h = true →
      Completes (row q) s fun u => u = z.1.turnRun z.2) ∧
    (∀ row : Nat → Instr, (row, bitsAt (p.getD 2 0) 0 3) ∈ [(Instr.ladleWriteback, 0), (Instr.ladleEvict, 1), (Instr.ladleUnprotect, 2), (Instr.ladlePrefetch, 3), (Instr.ladleZero, 4)] →
      let x := ladleArgs p
      let z := t.1.note t.2 x.2
      hdr p 0 8 = 0x11 → z.1.ladleRefuse x.1.1 x.1.2.2.1 x.1.2.2.2 = none → z.1.commitReady q h = true →
      Completes (row q) s fun u => u = z.1.ladleRun z.2)

/-- For a queue q whose head can go now, with fewer than 16 in flight: a collective of each of the six operations, a STEP_COMMIT,
a PUSH, a RESTORE and a FENCE complete with the command taken from the queue (HEAD one more, the command recorded with its
packet) and started by its engine's operation. 'Completes' says: exec answers the next state 'settle u', u being the state
after the command's own effect, and the stated facts hold of u. Rows: STEP_COMMIT, FENCE, ALL_REDUCE, REDUCE_SCATTER,
ALL_GATHER, REDUCE, BROADCAST, BARRIER, PUSH, RESTORE.
R190, R361, R467, R471, R472. -/
def Obligations.FabricCommandsComplete : Prop :=
  ∀ (s : State) (q : Nat), q < 256 →
    let h := s.f F.QE_Q_HEAD_HEAD q
    let p := s.readPkt q h
    let t := Taken s q
    h + 1 < 2 ^ F.QE_Q_HEAD_HEAD.w → s.f F.QE_Q_STATE_INFLIGHT q < 16 → HeadReady s q (hdr p 0 8) →
    (∀ row : Nat → Instr, (row, bitsAt (p.getD 2 0) 16 4) ∈ [(Instr.allReduce, 0), (Instr.reduceScatter, 1), (Instr.allGather, 2), (Instr.reduce, 3), (Instr.broadcast, 4), (Instr.barrier, 5)] →
      hdr p 0 8 = 0x18 → Completes (row q) s fun u => u = (t.1.colDispatch t.2).unitStart q h) ∧
    (hdr p 0 8 = 0x28 → Completes (.stepCommit q) s fun u => u = (t.1.commitDispatch t.2).unitStart q h) ∧
    (∀ row : Nat → Instr, (row, bitsAt (p.getD 2 0) 0 2) ∈ [(Instr.push, 0), (Instr.restore, 1)] →
      hdr p 0 8 = 0x29 → Completes (row q) s fun u => u = (t.1.pushDispatch t.2).unitStart q h) ∧
    (hdr p 0 8 = 0x19 → Completes (.fence q) s fun u => u = t.1.fenceDispatch t.2) ∧
    t.1.f F.QE_Q_HEAD_HEAD q = h + 1 ∧ t.1.cmd q h = some t.2 ∧ t.2.pkt = p

/-- For command n of queue q below 256. A finished unit of a vector run whose outputs may be written: TILE_COMMIT writes its
outputs to memory once (none of a unit whose data were uncorrectable or that is repeated), counts the unit, and starts the
run's next unit; after the last one the command is committed. A command without a wing whose execution has ended, with its
outputs committed, retires: INFLIGHT is one less, and its status is its own, or 1 (OK after replay) or 0. A wing's finished
command retires with its flag byte and status 0x20 where data were uncorrectable. A retired ORDERED or signalling command
with no earlier one waiting adds its increment to its gate modulo 2^48. The reply of the oldest unreplied retired command is
written at its slot. 'Completes' says: exec answers the next state 'settle u', u being the state after the command's own
effect, and the stated facts hold of u. Rows: TILE_COMMIT, COMMAND_RETIRE, GATE_SIGNAL, REPLY_WRITE.
R176, R189, R190, R200, R201, R207, R213, R218. -/
def Obligations.QueueStagesComplete : Prop :=
  ∀ (s : State) (q n : Nat) (c : Cmd), q < 256 → s.cmd q n = some c →
    (∀ w r x, c.wing = some w → (s.wing w).run = some r → r.q = q → r.seq = n → r.unitDone = true → s.commitReady q n = true →
      s.outsHeld w r = false → s.claimOuts r.outs = (s, true) → (s.wing w).jobs.find? (fun j => j.key = (q, n)) = some (.vec x) →
      let bad := x.uncorr || r.uncorr
      let again := decide (r.rep < x.skipTo)
      let d : Bool := decide (x.committed + 1 ≥ x.blk.reps)
      let y : State := (s.commitRun w r bad again).setJob w (.vec { x with committed := x.committed + 1, flags := x.flags ||| r.flags, uncorr := bad, meter := r.meter, done := d })
      Completes (.tileCommit q n) s fun u =>
        u = ((if d then y.modCmd q n fun c => { c with committed := true } else y).startRun w) ∧
        ((bad || again) = false → y.mem = (s.putOuts r.outs).mem) ∧ ((bad || again) = true → y.mem = s.mem)) ∧
    (c.dispatched = true → c.awaitReplay = false → c.retired = false → c.wing = none → c.execDone = true → (c.noOutputs = true ∨ c.committed = true) →
      c.op ≠ 0x28 → s.turnJob q n = none → Completes (.commandRetire q n) s fun u =>
        u.f F.QE_Q_STATE_INFLIGHT q = (s.f F.QE_Q_STATE_INFLIGHT q - 1) ∧
        ∃ d, u.cmd q n = some d ∧ d.retired = true ∧ d.status = (if c.status = 0 then (if c.replays > 0 then 1 else 0) else c.status)) ∧
    (∀ w fl bad, c.dispatched = true → c.awaitReplay = false → c.retired = false → c.wing = some w → c.execDone = false → s.wingDone w q n = some (fl, bad) →
      c.op ≠ 0x28 → s.turnJob q n = none → Completes (.commandRetire q n) s fun u =>
        ∃ d, u.cmd q n = some d ∧ d.retired = true ∧ d.flags = fl ∧ d.status = (if bad then 0x20 else if c.replays > 0 then 1 else 0)) ∧
    (c.retired = true → c.signalled = false → c.signals = true → s.orderedBefore q n = false →
      Completes (.gateSignal q n) s fun u => u.gate c.sigGate = (s.gate c.sigGate + c.sigInc) % 2 ^ 48 ∧ u.cmd q n = some { c with signalled := true }) ∧
    ((s.qx q).written = n → c.retired = true → (c.signals = true → c.signalled = true) →
      let a := s.f F.QE_Q_RPL_BASE_BASE q + n % s.qSize q * 32
      s.inWindow a = false → s.inHbm a 32 = true → s.writeNow a 32 = true →
      Completes (.replyWrite q) s fun u => (u.qx q).written = n + 1 ∧ u.cmd q n = some { c with replied := true } ∧
        u.mem = (s.store a (replyBytes c (s.qSize q))).mem)

/-- For every wing w below 64. Taking out a wing in TEMPER or READY puts it OUT with cause 1; a BUSY wing drains and stays BUSY;
a drain's time-out puts it OUT with cause 1. A chain replay dispatches the replay set of the wing again, in order, a chain
past REPLAY_MAX ending with status 0x21 instead. At the end of an adoption copy the adopter's tile store holds the failed
wing's bytes, QE_ALIAS and QE_STATUS name failed wing and adopter, and the failed wing's commands are dispatched again to the
adopter in order. 'Completes' says: exec answers the next state 'settle u', u being the state after the command's own effect,
and the stated facts hold of u. Rows: WING_TAKE_OUT, WING_DRAIN_TIMEOUT, CHAIN_REPLAY, ADOPTION_COPY_DONE.
R114, R115, R215, R217, R218. -/
def Obligations.WingServiceComplete : Prop :=
  ∀ (s : State) (w : Nat) (m : Master), w < 64 →
    (s.wingState w = 1 ∨ s.wingState w = 2 → Completes (.wingTakeOut w m) s fun u => u.wingState w = 5 ∧ u.f F.WNG_STATUS_OUT_CAUSE w = 1) ∧
    (s.wingState w = 3 → Completes (.wingTakeOut w m) s fun u => (u.wing w).draining = true ∧ u.wingState w = 3) ∧
    (s.wingState w ≠ 5 → (s.wing w).draining = true → Completes (.wingDrainTimeout w) s fun u => u.wingState w = 5 ∧ u.f F.WNG_STATUS_OUT_CAUSE w = 1) ∧
    (∀ p, s.qe.replay.find? (fun p => p.1 == w) = some p → Completes (.chainReplay w) s fun u =>
      u = (foldS p.2 (fun (j : Job) (s : State) =>
        let failed := match j with | .mat m => m.failed | .vec _ => false
        match s.cmd j.key.1 j.key.2 with
        | none => s
        | some c =>
          if failed && decide (c.replays ≥ s.f F.QE_CTRL_REPLAY_MAX) then
            if c.retired then s else s.finishCmd c 0x21 c.flags
          else s.redispatch w j) { s with qe := { s.qe with replay := s.qe.replay.filter fun p => p.1 != w } }).wingBusy w) ∧
    (∀ a, s.qe.adopt.find? (fun a => a.failed == w) = some a → a.adopter < 64 → (s.wingState a.adopter = 2 ∨ s.wingState a.adopter = 3) → Completes (.adoptionCopyDone w) s fun u =>
      ∃ t, u = foldS a.jobs (fun j s => s.redispatch a.adopter j) t ∧
        t.mem = cellsCopy s.mem (tileAddr w 0) (tileAddr a.adopter 0) tileSize ∧
        t.f F.QE_ALIAS_VALID w = 1 ∧ t.f F.QE_ALIAS_TARGET w = a.adopter ∧
        t.f F.QE_STATUS_ADOPTED = 1 ∧ t.f F.QE_STATUS_LAST_FAILED = w ∧ t.f F.QE_STATUS_LAST_ADOPTER = a.adopter)

/-- For w below 64, a below 4, c below 64. A load that is ready (Table 4-3) leaves the tile it names with the MATMUL's rows and
depth and the sums of its data. A step that is ready counts one step and takes its weight bytes from the FIFO of each of its
arrays. A check that is due counts SKIPPED or CHECKS (saturating) and leaves the column passed where the check skips or
passes it. An epilogue whose columns have all passed starts its run, with VEC_STATUS.BUSY. A run whose pattern is done, on an
engine that is not held, has its reduction made and is then at its unit's end. 'Completes' says: exec answers the next state
'settle u', u being the state after the command's own effect, and the stated facts hold of u. Rows: ACTIVATION_LOAD,
ARRAY_STEP, TESTBAR_CHECK, EPILOGUE_RUN, VEC_REDUCTION.
R98, R99, R105, R111, R113, R151. -/
def Obligations.WingStepsComplete : Prop :=
  ∀ (s : State) (w a c : Nat), w < 64 → a < 4 → c < 64 →
    (∀ m js, (s.wing w).jobs = .mat m :: js → s.loadReady w m = true → Completes (.activationLoad w) s fun u =>
      ∃ t, (u.wing w).tileFor m = some t ∧ t.rows = m.rows ∧ t.depth = m.depth ∧ t.sums = tileSums m.mode t.data m.depth m.rows) ∧
    (∀ m t errs, (s.wing w).stepJob = some m → s.stepReady w m = true → (s.wing w).tileFor m = some t → Completes (.arrayStep w errs) s fun u =>
      u.f F.MGN_RATE_STEPS_STEPS w = (s.f F.MGN_RATE_STEPS_STEPS w + 1) % 2 ^ 64 ∧
      ∀ k ∈ m.arrs, (u.wing w).fifo.getD k [] = ((s.wing w).fifo.getD k []).drop m.mode.wBytes) ∧
    (s.checkDue w a c = true →
      (s.f F.EYE_INJ_CTRL_ARMED = 0 ∨ s.f F.EYE_INJ_CTRL_TARGET ≠ 5) →
      let x := s.col w a c
      let o := checkColumn x.int (s.f F.WNG_TB_CTRL_SIGMA w) x.n x.cv ((x.ent.getD (List.replicate 128 0)).take x.rows) x.exempt
      (o.res = none → Completes (.testbarCheck w a c) s fun u =>
        u.f F.WNG_ARR_TBCNT_SKIPPED w a = min (s.f F.WNG_ARR_TBCNT_SKIPPED w a + 1) (2 ^ F.WNG_ARR_TBCNT_SKIPPED.w - 1) ∧ (u.col w a c).chk = .passed) ∧
      (o.res = some true → Completes (.testbarCheck w a c) s fun u =>
        u.f F.WNG_ARR_TBCNT_CHECKS w a = min (s.f F.WNG_ARR_TBCNT_CHECKS w a + 1) (2 ^ F.WNG_ARR_TBCNT_CHECKS.w - 1) ∧ (u.col w a c).chk = .passed)) ∧
    (∀ m b p, (s.wing w).vecTurn = some (.epi m b p) → (s.wing w).run = none → s.wingState w = 3 → s.held (6 * w + 4) = false →
      s.held (6 * w + 5) = false → m.epiDone < m.g → (∀ a ∈ m.arrs, ∀ c ∈ natRange (m.colOf m.epiDone 0) m.ncol, s.colPassed w a c = true) →
      Completes (.epilogueRun w) s fun u => u.f F.WNG_VEC_STATUS_BUSY w = 1 ∧
        ∃ r, (u.wing w).run = some r ∧ r.q = m.q ∧ r.seq = m.seq ∧ r.epi = true ∧ r.grp = m.epiDone ∧ r.pat = p) ∧
    (∀ r, (s.wing w).run = some r → r.patDone = true → r.unitDone = false → s.held (6 * w + 4) = false → Completes (.vecReduction w) s fun u =>
      u = s.finishUnit w r ∧ ∃ r', (u.wing w).run = some r' ∧ r'.unitDone = true)

/-- A wing that stands although its step has its weights and no domain holds counts a hang at its source. RESTORE of a wing OUT
by command gives READY (in boot 2) and cause 0. Fencing an array sets FENCED and puts the wing OUT with cause 3. A self-test
starts in OFF or OUT (state BIST, BUSY) and is refused on a BUSY wing; its end clears BUSY, sets DONE and returns to the
state before. A window read of an accumulator column's word or of a TR row word in OFF or OUT answers the stored word and
changes nothing else. 'Completes' says: exec answers the next state 'settle u', u being the state after the command's own
effect, and the stated facts hold of u. Rows: WING_HANG, WING_RESTORE, ARRAY_FENCE, BIST_START, BIST_DONE, ACC_WINDOW_READ,
TR_WINDOW_READ.
R114, R117, R119, R120, R122, R123, R185. -/
def Obligations.WingEventsComplete : Prop :=
  ∀ (s : State) (w a : Nat) (m : Master), w < 64 → a < 4 →
    (∀ j, (s.wing w).stepJob = some j → s.wingState w = 3 →
      (∀ k ∈ j.arrs, j.mode.wBytes ≤ ((s.wing w).fifo.getD k []).length) → (∀ k, k < 4 → s.held (6 * w + k) = false) →
      Completes (.wingHang w) s fun u =>
        u.f F.EYE_SRC_STAT_TOTAL (srcOf w 5) = min (s.f F.EYE_SRC_STAT_TOTAL (srcOf w 5) + 1) (2 ^ F.EYE_SRC_STAT_TOTAL.w - 1)) ∧
    (s.wingState w = 5 → s.f F.WNG_STATUS_OUT_CAUSE w = 1 → Completes (.wingRestore w m) s fun u =>
      u.wingState w = 2 ∧ u.f F.WNG_STATUS_OUT_CAUSE w = 0) ∧
    (s.f F.WNG_ARR_STAT_FENCED w a = 0 → s.wingState w ≠ 5 → Completes (.arrayFence w a m) s fun u =>
      u.f F.WNG_ARR_STAT_FENCED w a = 1 ∧ u.wingState w = 5 ∧ u.f F.WNG_STATUS_OUT_CAUSE w = 3) ∧
    (s.wingState w = 0 ∨ s.wingState w = 5 → Completes (.bistStart w m) s fun u => u.wingState w = 4 ∧ u.f F.WNG_BIST_BUSY w = 1) ∧
    (s.wingState w = 3 → Completes (.bistStart w m) s fun u => u.f F.WNG_BIST_REFUSED w = 1 ∧ u.wingState w = 3) ∧
    (∀ rs, s.f F.WNG_BIST_BUSY w = 1 → s.wingState w = 4 → (s.wing w).bistRet < 8 → Completes (.bistDone w rs) s fun u =>
      u.f F.WNG_BIST_BUSY w = 0 ∧ u.f F.WNG_BIST_DONE w = 1 ∧ u.wingState w = (s.wing w).bistRet) ∧
    (∀ off l, off < 0x20000 → off % 4 = 0 → s.wingState w = 0 ∨ s.wingState w = 5 →
      (s.col w (off / 0x8000) (off % 0x8000 / 0x200)).ent = some l → Completes (.accWindowRead w off 4 m) s fun u =>
        u.busReply = some (l.getD (off % 0x200 / 4) 0) ∧ { u with busReply := s.busReply } = s) ∧
    (∀ off v, off < 0x8000 → off % 4 = 0 → s.wingState w = 0 ∨ s.wingState w = 5 →
      mget (s.wing w).tr (off % 512 / 4, off / 512) = some v → Completes (.trWindowRead w off 4 m) s fun u =>
        u.busReply = some v ∧ { u with busReply := s.busReply } = s)

/-- For descriptor i below 4,096. Validation of a descriptor that meets R130 sets VALID and clears ERR, nothing but registers
changing; one that does not sets ERR, DESC_INVALID and LAST_DESC. Writing a descriptor word without VALID clears VALID, and
word 1 stores the length. A formed instance that is ready opens with its receivers, length and source; the join time-out
opens one that still waits and sets JOIN_PARTIAL. A slab pass moves exactly the receivers at its place on by the slab. A
prune takes one receiver out of an open instance that keeps others and sets PRUNED. An open instance all of whose receivers
have its length closes. A stitch code error is counted at its source. A write through a tile-store port stores its line.
'Completes' says: exec answers the next state 'settle u', u being the state after the command's own effect, and the stated
facts hold of u. Rows: STREAM_VALIDATE, STREAM_DESC_WRITE, STREAM_INSTANCE_OPEN, JOIN_TIMEOUT, RUNNER_SLAB_PASS,
RECEIVER_PRUNE, INSTANCE_CLOSE, STITCH_CODE_ERROR, TILE_STORE_ACCESS.
R128, R129, R130, R132, R133, R134, R141, R144. -/
def Obligations.RunnerComplete : Prop :=
  ∀ (s : State) (i w : Nat) (m : Master), i < 4096 → w < 64 →
    (s.streamOk i = true → Completes (.streamValidate i m) s fun u =>
      u.f F.RUN_STREAM_SRC_VALID i = 1 ∧ u.f F.RUN_STREAM_SRC_ERR i = 0 ∧ { u with regs := s.regs } = s) ∧
    (s.streamOk i = false → Completes (.streamValidate i m) s fun u =>
      u.f F.RUN_STREAM_SRC_VALID i = 0 ∧ u.f F.RUN_STREAM_SRC_ERR i = 1 ∧ u.f F.RUN_STATUS_DESC_INVALID = 1 ∧ u.f F.RUN_STATUS_LAST_DESC = i) ∧
    (∀ word v, word < 4 → bitsAt v 63 1 = 0 → Completes (.streamDescWrite i word v m) s fun u => u.f F.RUN_STREAM_SRC_VALID i = 0) ∧
    (∀ v, v % 2 ^ 64 < 2 ^ F.RUN_STREAM_LEN_LENGTH.w → Completes (.streamDescWrite i 1 v m) s fun u => u.f F.RUN_STREAM_LEN_LENGTH i = v % 2 ^ 64) ∧
    (∀ x, s.forming i (fun x => x.recv.any fun r => r.w == w) = some x → x.pruneDue = [] → s.inst x.id = some x → s.instReady x = true →
      s.f F.RUN_STREAM_SRC_SRC_KIND i = 0 → s.f F.RUN_STREAM_SRC_VALID i = 1 →
      Completes (.streamInstanceOpen i w) s fun u => u.f F.RUN_STREAM_SRC_BUSY i = 1 ∧ ∃ y, u.inst x.id = some y ∧ y.isOpen = true ∧
        y.recv = x.recv ∧ y.len = s.f F.RUN_STREAM_LEN_LENGTH i ∧ y.src = s.f F.RUN_STREAM_SRC_SRC_ADDR i) ∧
    (∀ x, s.forming i (fun x => !x.unicast) = some x → x.pruneDue = [] → s.inst x.id = some x → s.instReady x = false →
      (∀ z ∈ s.insts, ¬ (z.desc = i ∧ z.isOpen = true ∧ z.unicast = false)) →
      s.f F.RUN_STREAM_SRC_SRC_KIND i = 0 → s.f F.RUN_STREAM_SRC_VALID i = 1 →
      Completes (.joinTimeout i) s fun u => u.f F.RUN_STATUS_JOIN_PARTIAL = 1 ∧ ∃ y, u.inst x.id = some y ∧ y.isOpen = true ∧ y.recv = x.recv) ∧
    (∀ x pos r rs, s.inst x.id = some x → x.pruneDue = [] → s.slabNext x = some (pos, r :: rs) → x.isOpen = true →
      0 < min r.slab (x.len - pos) → s.slabRoom x pos (min r.slab (x.len - pos)) (r :: rs) = true →
      s.slabSource x (streamAddr x.src x.len x.rowBytes x.rowPitch pos) (min r.slab (x.len - pos)) = true →
      Completes (.runnerSlabPass x.id) s fun u =>
        u.inst x.id = some { x with recv := x.recv.map fun y => if (r :: rs).contains y then { y with pos := y.pos + min r.slab (x.len - pos) } else y }) ∧
    (∀ x, s.inst x.id = some x → x.pruneDue.contains w = true → x.isOpen = true → (x.recv.filter fun r => r.w != w) ≠ [] →
      Completes (.receiverPrune x.id w) s fun u => u.f F.RUN_STATUS_PRUNED = 1 ∧ ∃ y, u.inst x.id = some y ∧
        y.recv = (x.recv.filter fun r => r.w != w)) ∧
    (∀ x, s.inst x.id = some x → x.isOpen = true → (∀ r ∈ x.recv, x.len ≤ r.pos) → Completes (.instanceClose x.id) s fun u => u.inst x.id = none) ∧
    (∀ x, x < 4 → Completes (.stitchCodeError x) s fun u => u.f F.RUN_STATUS_STITCH_ERR = 1 ∧
      u.f F.EYE_SRC_STAT_TOTAL (srcOf 65 x) = min (s.f F.EYE_SRC_STAT_TOTAL (srcOf 65 x) + 1) (2 ^ F.EYE_SRC_STAT_TOTAL.w - 1)) ∧
    (∀ off bs, off < tileSize → s.tileUp w = true → s.held (6 * w + 5) = false → s.f F.EYE_INJ_CTRL_ARMED = 0 → Completes (.tileStoreAccess w [⟨2, off, some bs, []⟩]) s fun u =>
      u.mem = cellsWrite s.mem (tileAddr w (off / 64 * 64)) (bs.take 64))

/-- OVERRIDE in the life-cycle states 1 and 4 is stored outside boot stage 6; in stage 6, with a quadrant failing only
identification, it brings stack 4f to READY and adds its PASS bit. A ladle read of one line whose sectors are held and good
answers the bytes of memory with memory unchanged; with a sector not held it is queued as a fetch. A byte written to the
ladle where it may be written at once is in memory; one that must wait is queued with its bytes, memory unchanged. A miss
fill that can be read answers the oldest fetch of that stack, memory unchanged. 'Completes' says: exec answers the next state
'settle u', u being the state after the command's own effect, and the stated facts hold of u. Rows: MEM_QUAL_OVERRIDE,
LADLE_READ, LADLE_WRITE, LADLE_MISS_FILL.
R227, R230, R231, R232, R241. -/
def Obligations.MemoryComplete : Prop :=
  ∀ (s : State) (a n hint k : Nat) (bs : List Byte) (m : Master), k < 16 →
    (∀ f, f < 4 → (s.lcs = 1 ∨ s.lcs = 4) → Completes (.memQualOverride f m) s fun u => s.stage ≠ 6 → u.f F.FLK_MEM_QUAL_OVERRIDE f = 1) ∧
    (∀ f, f < 4 → (s.lcs = 1 ∨ s.lcs = 4) → s.stage = 6 → s.f F.EYE_SRC_STAT_ASSERTED (srcOf (66 + f) 8) = 1 →
      s.f F.FLK_MEM_QUAL_FAIL_ID f = 1 → s.f F.FLK_MEM_QUAL_FAIL_TRAIN f = 0 → s.f F.FLK_MEM_QUAL_PASS f ∉ [14, 15] →
      Completes (.memQualOverride f m) s fun u => u.f F.FLK_MEM_QUAL_OVERRIDE f = 1 ∧ u.f F.FLK_MEM_STACK_STAT_STATE (4 * f) = 2 ∧
        u.f F.FLK_MEM_QUAL_PASS f = s.f F.FLK_MEM_QUAL_PASS f ||| 1) ∧
    (oneLine a n = true → s.lineBacked a n m = true → s.ladlePace a n = true → (∀ x ∈ sectorsOf a n, s.ladleGood x = true) →
      Completes (.ladleRead a n hint m) s fun u => u.mem = s.mem ∧ ∃ bad, u.out = s.out ++ [.data a (s.readBytes a n) bad]) ∧
    (oneLine a n = true → s.lineBacked a n m = true → (∃ x ∈ sectorsOf a n, s.ladleGood x = false) →
      Completes (.ladleRead a n hint m) s fun u => u.mem = s.mem ∧ u.ms.fetch = s.ms.fetch ++ [⟨a, n, hint, m.code, none⟩]) ∧
    (∀ b, s.lineBacked a 1 m = true → s.inWindow a = false → s.writeNow a 1 = true → a < tileBase → s.lostAt (a / 64 * 64) = false →
      Completes (.ladleWrite a [b] hint m) s fun u => u.mem = cellSet s.mem a b) ∧
    (oneLine a bs.length = true → s.lineBacked a bs.length m = true → s.inWindow a = false → s.writeNow a bs.length = false →
      Completes (.ladleWrite a bs hint m) s fun u => u.mem = s.mem ∧ u.ms.fetch = s.ms.fetch ++ [⟨a, bs.length, hint, m.code, some bs⟩]) ∧
    (∀ r errs ondie, s.ms.fetch.find? (fun r => stackOf r.addr == k) = some r → r.data = none →
      ({ s with ms := { s.ms with fetch := s.ms.fetch.erase r } } : State).readNow r.addr r.len r.hint = true →
      Completes (.ladleMissFill k errs ondie) s fun u => u.mem = s.mem ∧ ∃ bad, u.out = s.out ++ [.data r.addr (s.readBytes r.addr r.len) bad])

/-- For stack k below 16. Refresh and refresh management of a powered stack count. A temperature below 100.0 degrees shows in the
sensor (tenths) and CASE_C (degrees); above 85.0 sets REFRESH_2X and at or below 82.0 clears it; at 95.0 and more a READY
stack becomes HOT. A scrub read advances the stack's place by 64. A successful parity retry counts and ends the attempts; a
failed one counts up to two, the third failure starts a retraining, as does a lock loss. A successful retraining ends HOT or
READY by temperature; a failed one ends LOST. 'Completes' says: exec answers the next state 'settle u', u being the state
after the command's own effect, and the stated facts hold of u. Rows: PER_BANK_REFRESH, REFRESH_MANAGEMENT_REQUEST,
STACK_TEMP_READ, SCRUB_READ, PARITY_ERROR, PHY_LOCK_LOSS, STACK_RETRAIN_DONE.
R225, R238, R242, R243. -/
def Obligations.StackServiceComplete : Prop :=
  ∀ (s : State) (k : Nat), k < 16 →
    (s.stackOn k = true → Completes (.perBankRefresh k) s fun u => mgetD u.ms.refresh k 0 = mgetD s.ms.refresh k 0 + 1) ∧
    (s.stackOn k = true → Completes (.refreshManagementRequest k) s fun u => mgetD u.ms.rfm k 0 = mgetD s.ms.rfm k 0 + 1) ∧
    (∀ t : Int, -1280 ≤ t → t < 1000 → s.stage ≠ 4 → s.f F.FLK_MEM_STACK_STAT_STATE k ≠ 2 → s.f F.FLK_MEM_STACK_STAT_STATE k ≠ 3 →
      Completes (.stackTempRead k t) s fun u => u.fS F.THM_SENS_TEMP (74 + k) = t ∧ u.fS F.FLK_MEM_STACK_STAT_CASE_C k = t / 10 ∧
        u.f F.FLK_MEM_STACK_STAT_REFRESH_2X k = (if t > 850 then 1 else if t ≤ 820 then 0 else s.f F.FLK_MEM_STACK_STAT_REFRESH_2X k)) ∧
    (∀ t : Int, 950 ≤ t → t < 1000 → s.stage ≠ 4 → s.f F.FLK_MEM_STACK_STAT_STATE k = 2 → Completes (.stackTempRead k t) s fun u =>
      u.f F.FLK_MEM_STACK_STAT_STATE k = 3) ∧
    (s.f F.FLK_MEM_CTRL_SCRUB_EN (k / 4) = 1 → s.f F.FLK_MEM_STACK_STAT_STATE k = 2 → Completes (.scrubRead k [0]) s fun u =>
      mgetD u.ms.scrub k 0 = mgetD s.ms.scrub k 0 + 64 ∧ u.mem = s.mem) ∧
    (s.stackOn k = true → Completes (.parityError k true) s fun u => mgetD u.ms.parity k 0 = 0 ∧
      u.f F.FLK_MEM_STACK_ECC_PARITY_RETRY k = min (s.f F.FLK_MEM_STACK_ECC_PARITY_RETRY k + 1) (2 ^ F.FLK_MEM_STACK_ECC_PARITY_RETRY.w - 1)) ∧
    (s.stackOn k = true → mgetD s.ms.parity k 0 < 2 → Completes (.parityError k false) s fun u =>
      mgetD u.ms.parity k 0 = mgetD s.ms.parity k 0 + 1) ∧
    (s.stackOn k = true → 2 ≤ mgetD s.ms.parity k 0 → Completes (.parityError k false) s fun u => u.f F.FLK_MEM_STACK_STAT_STATE k = 1) ∧
    (s.stackOn k = true → Completes (.phyLockLoss k) s fun u => u.f F.FLK_MEM_STACK_STAT_STATE k = 1 ∧
      u.f F.FLK_MEM_STACK_STAT_RETRAINS k = min (s.f F.FLK_MEM_STACK_STAT_RETRAINS k + 1) (2 ^ F.FLK_MEM_STACK_STAT_RETRAINS.w - 1)) ∧
    (s.f F.FLK_MEM_STACK_STAT_STATE k = 1 → 950 ≤ s.fS F.THM_SENS_TEMP (74 + k) → Completes (.stackRetrainDone k true) s fun u =>
      u.f F.FLK_MEM_STACK_STAT_STATE k = 3) ∧
    (s.f F.FLK_MEM_STACK_STAT_STATE k = 1 → s.fS F.THM_SENS_TEMP (74 + k) < 950 → Completes (.stackRetrainDone k true) s fun u =>
      u.f F.FLK_MEM_STACK_STAT_STATE k = 2) ∧
    (s.f F.FLK_MEM_STACK_STAT_STATE k = 1 → Completes (.stackRetrainDone k false) s fun u => u.f F.FLK_MEM_STACK_STAT_STATE k = 4)

/-- For link l below 9. A good data frame of the expected SEQ, of a class the link carries, on an active slice, which the sender
may send and the receiver is not holding, is delivered and the expectation moves on modulo 4,096. A NAK of a frame in the
retry buffer sends it again on the next active slice. Link control sets the acknowledged place and the credits. An edge slice
at the head of retraining becomes active with at most four repairs and stays as it was with TRAIN_FAIL otherwise. SWITCH
starts a mode change or is refused during one; the change's end gives the other mode once drained. A lock loss starts
retraining and counts; its end gives forwarded mode again. 'Completes' says: exec answers the next state 'settle u', u being
the state after the command's own effect, and the stated facts hold of u. Rows: D2D_FRAME_RECEIVE, D2D_NAK, D2D_LINK_CONTROL,
SLICE_RETRAIN_DONE, D2D_SWITCH, D2D_MODE_CHANGE_DONE, D2D_LOCK_LOSS, EDGE_RETRAIN_DONE.
R257, R258, R262, R264, R266, R267, R268, R271. -/
def Obligations.DieLinksComplete : Prop :=
  ∀ (s : State) (l dir x f : Nat) (m : Master), l < 9 → dir < 2 → x < 64 → f < 4 →
    (∀ c seq payload offered d, s.sliceOn l dir x = true → s.linkPasses l = true → c ∈ linkClasses l → seq < 4096 →
      let z := s.drainRx l dir
      let k := z.d2dCls l dir c
      let tag := c + 8 + 16 * seq
      s.rxHeld l dir = false → z.rxHeld l dir = false → k.known seq = false → z.maySend l dir c seq offered = some d → k.expect = seq → k.early = [] →
      s.f F.EYE_INJ_CTRL_TARGET ≠ 3 → z.f F.EYE_INJ_CTRL_TARGET ≠ 3 → frameArrives tag payload 0 false = (tag, payload, true) →
      Completes (.d2dFrameReceive l dir x tag payload ⟨0, offered⟩) s fun u =>
        (∃ msg, u.out = z.out ++ [.d2dData l dir c seq payload, msg]) ∧ (u.d2dCls l dir c).expect = (seq + 1) % 4096) ∧
    (∀ c seq r y ys, c < 6 → (s.d2dCls l dir c).retry.find? (fun r => r.seq == seq) = some r → s.linkPasses l = true →
      s.slicesAfter l dir r.slice = y :: ys → Completes (.d2dNak l dir c seq) s fun u =>
        u.out = s.out ++ [.d2dFrame l dir y c seq r.data] ∧ u.mem = s.mem) ∧
    (∀ a cr, (s.d2dCls l dir 0).ahead a ≤ (s.d2dCls l dir 0).ahead (s.d2dCls l dir 0).next → Completes (.d2dLinkControl l dir [a] [cr]) s fun u =>
      (u.d2dCls l dir 0).acked = a % 4096 ∧ (u.d2dCls l dir 0).credits = cr) ∧
    (∀ n repairs eye, n < 128 → (s.edge f).slices.head? = some n → s.f F.FLK_D2D_STATUS_MODE f ≠ 3 → repairs.length ≤ 4 →
      Completes (.sliceRetrainDone f n true repairs eye) s fun u => u.f F.FLK_D2D_SLICE_ACTIVE f n = 1 ∧
        (u.edge f).slices = (s.edge f).slices.drop 1) ∧
    (∀ n repairs eye, n < 128 → (s.edge f).slices.head? = some n → s.f F.FLK_D2D_STATUS_MODE f ≠ 3 →
      Completes (.sliceRetrainDone f n false repairs eye) s fun u => u.f F.FLK_D2D_STATUS_TRAIN_FAIL f = 1 ∧
        u.f F.FLK_D2D_SLICE_ACTIVE f n = s.f F.FLK_D2D_SLICE_ACTIVE f n) ∧
    (s.f F.FLK_D2D_STATUS_MODE f = 1 → s.f F.FLK_D2D_CTRL_MODE_REQ f = 0 → Completes (.d2dSwitch f m) s fun u =>
      u.f F.FLK_D2D_STATUS_MODE f = 3 ∧ (u.edge f).fromMode = 1) ∧
    (s.f F.FLK_D2D_STATUS_MODE f = 3 → Completes (.d2dSwitch f m) s fun u =>
      u.f F.FLK_D2D_STATUS_SWITCH_REFUSED f = 1 ∧ u.f F.FLK_D2D_STATUS_MODE f = 3) ∧
    (s.f F.FLK_D2D_STATUS_MODE f = 3 → (s.edge f).retraining = false → s.edgeDrained f = true → (s.edge f).fromMode = 2 →
      Completes (.d2dModeChangeDone f none) s fun u => u.f F.FLK_D2D_STATUS_MODE f = 1) ∧
    (s.f F.FLK_D2D_STATUS_MODE f = 3 → (s.edge f).retraining = false → s.edgeDrained f = true → (s.edge f).fromMode = 1 →
      Completes (.d2dModeChangeDone f none) s fun u => u.f F.FLK_D2D_STATUS_MODE f = 2) ∧
    (s.f F.FLK_D2D_STATUS_MODE f = 2 → Completes (.d2dLockLoss f) s fun u => u.f F.FLK_D2D_STATUS_MODE f = 3 ∧
      (u.edge f).retraining = true ∧ u.f F.FLK_D2D_CNT_RETRAINS f = min (s.f F.FLK_D2D_CNT_RETRAINS f + 1) (2 ^ F.FLK_D2D_CNT_RETRAINS.w - 1)) ∧
    (s.f F.FLK_D2D_STATUS_MODE f = 3 → (s.edge f).retraining = true → Completes (.edgeRetrainDone f none) s fun u =>
      u.f F.FLK_D2D_STATUS_MODE f = 2 ∧ (u.edge f).retraining = false)

/-- For port p, ring r, engine e, comb c. A ring error of at most 80 units is shown and keeps the lock; a larger one counts a
loss, and the ring is locked again or failed as the re-acquisition goes. A heater code is shown, and above 95 % sets
HEATER_LIMIT. A comb's millisecond shows bias and its percentage of I0. A line of the lit comb below LINE_MIN is marked
failed (no swap with AUTO_LINE 0). Received optical amplitude and corrected symbols are shown. Loss of signal on a line
without a lane changes only RX_LOS; on a lane of an UP port without AUTO it narrows the port two frames later. Rings acquired
bring a port to TRAIN, alignment of all lines to UP. 'Completes' says: exec answers the next state 'settle u', u being the
state after the command's own effect, and the stated facts hold of u. Rows: RING_LOCK_LOSS, HEATER_LIMIT, COMB_MONITOR,
LINE_SOURCE_FAIL, RX_MONITOR, LOSS_OF_SIGNAL, RING_ACQUISITION_DONE, PEER_ALIGNED.
R284, R285, R287, R288, R290, R295, R297. -/
def Obligations.LightRingsComplete : Prop :=
  ∀ (s : State) (p r e c frame : Nat), p < 16 → r < 36 → e < 8 → c < 2 →
    (∀ (err : Int) again, err.natAbs ≤ 80 → Completes (.ringLockLoss p r frame ⟨err, again⟩) s fun u =>
      u.fS F.LE_PORT_RING_ERR p r = err ∧ u.f F.LE_PORT_RING_LOCKED p r = s.f F.LE_PORT_RING_LOCKED p r) ∧
    (∀ err : Int, 80 < err.natAbs → s.f F.LE_PORT_RING_LOCKED p r = 1 → Completes (.ringLockLoss p r frame ⟨err, true⟩) s fun u =>
      u.f F.LE_PORT_RING_LOCKED p r = 1 ∧ u.f F.LE_STATUS_LOCK_LOSS (p / 2) = 1 ∧
      u.f F.LE_PORT_RING_LOSSES p r = min (s.f F.LE_PORT_RING_LOSSES p r + 1) (2 ^ F.LE_PORT_RING_LOSSES.w - 1)) ∧
    (∀ err : Int, 80 < err.natAbs → s.f F.LE_PORT_RING_LOCKED p r = 1 → Completes (.ringLockLoss p r frame ⟨err, false⟩) s fun u =>
      u.f F.LE_PORT_RING_LOCKED p r = 0 ∧ u.f F.LE_PORT_RING_FAILED p r = 1) ∧
    (∀ code again, code < 65535 → Completes (.heaterLimit p r ⟨code, frame, again⟩) s fun u => u.f F.LE_PORT_RING_HEATER p r = code ∧
      (19 * 65535 < 20 * code → u.f F.LE_STATUS_HEATER_LIMIT (p / 2) = 1)) ∧
    (∀ bias (temp : Int) powers, s.combState e c ∈ [1, 2, 3] → s.f F.LE_COMB_HEALTH_I0 e c ≠ 0 → s.f F.LE_CTRL_AUTO_COMB e = 0 →
      bias < 2 ^ F.LE_COMB_HEALTH_BIAS.w → Completes (.combMonitor e c bias temp powers true frame) s fun u =>
        u.f F.LE_COMB_HEALTH_BIAS e c = bias ∧ u.f F.LE_COMB_HEALTH_BIAS_PC e c = min (bias * 100 / s.f F.LE_COMB_HEALTH_I0 e c) 255) ∧
    (∀ n, n < 18 → s.combState e (s.activeComb e) = cActive → s.fS (linePwr (s.activeComb e)) e n < s.fS F.LE_THRESH_LINE_MIN e →
      s.f F.LE_LINEPWR_FAILED e n = 0 → s.f F.LE_CTRL_AUTO_LINE e = 0 → s.f F.LE_CTRL_AUTO_COMB e = 0 →
      Completes (.lineSourceFail e n frame) s fun u => u.f F.LE_LINEPWR_FAILED e n = 1 ∧ u.le = s.le) ∧
    (∀ x : RxLine, -32768 ≤ x.oma → x.oma < 32768 → Completes (.rxMonitor p [x] frame) s fun u => u.fS F.LE_PORT_RX_OMA p 0 = x.oma ∧
      u.f F.LE_PORT_RX_CORR p 0 = min (x.corr + (lineCounts x.words).1) (2 ^ 24 - 1)) ∧
    (∀ n, n < 18 → s.laneOf p n = none → Completes (.lossOfSignal p n frame) s fun u => u.f F.LE_PORT_RX_LOS p n = 1 ∧ u.le = s.le) ∧
    (∀ n k, n < 18 → s.laneOf p n = some k → s.portState p = pUp → (s.port p).stripe = none → Completes (.lossOfSignal p n frame) s fun u =>
      u.f F.LE_PORT_RX_LOS p n = 1 ∧ (u.port p).stripe = some ((s.lanesOn p).filter (fun j => j != k), frameAfter frame)) ∧
    (∀ xs, s.portState p = pAcquire → s.combState (p / 2) (s.activeComb (p / 2)) = cWarming → s.f F.LE_PORT_CTRL_DISABLE p = 0 →
      Completes (.ringAcquisitionDone p frame xs) s fun u => u.portState p = pTrain ∧ u.f F.FAB_PORT_STAT_CHECK p = 0) ∧
    (∀ lines, s.portState p = pTrain → (∀ n, n < 18 → (n, 0) ∈ lines) → (s.port p).failed = [] → (∀ k, k < 16 → s.laneLine p k < 18) →
      s.f F.LE_PORT_CTRL_MIN_LANES p ≤ 16 → Completes (.peerAligned p lines) s fun u => u.portState p = pUp ∧
        ∀ n, n < 18 → u.f F.LE_PORT_RX_LOS p n = 0)

/-- For a port p and a message number not seen last. A request for a used lane and a free spare is taken as the port's transmit
swap; LSWAP_DUP as its receive swap, stage 1. A verified receive swap goes to stage 2, LSWAP_DONE takes the transmit swap
there; the cut-over writes the spare into the lane map, notes the old line as failed and sets LINE_SWAPPED. An abandon or a
time-out ends the transmit swap (counted, and told to the peer at a time-out). LSWAP of an UP port starts a receive swap to
its first free spare. NARROW_AT and WIDEN_AT are kept for frame F, at which lanes not named are removed. LANE_ACK drops the
acknowledged message; CSWAP_AT, PORT_OFF and PEER_ID note what they say. 'Completes' says: exec answers the next state
'settle u', u being the state after the command's own effect, and the stated facts hold of u. Rows: LSWAP_REQ, LSWAP_DUP,
LSWAP_VERIFY_DONE, LSWAP_DONE, LSWAP_CUTOVER, LSWAP_ABANDON, LSWAP_TIMEOUT, LE_LSWAP, NARROW_AT, WIDEN_AT, STRIPE_CHANGE,
LANE_ACK, CSWAP_AT, PORT_OFF, PEER_ID.
R291, R292, R293, R295, R298. -/
def Obligations.LineSwapsComplete : Prop :=
  ∀ (s : State) (p num lane spare f frame : Nat) (m : Master), p < 16 → lane < 16 → (s.port p).seen ≠ some num →
    ((s.port p).tx = none → s.laneLine p lane ≠ 0x1F → spare ∈ s.spares p → Completes (.lswapReq p num lane spare frame) s fun u =>
      (u.port p).tx = some { lane := lane, line := s.laneLine p lane, spare := spare, stage := 1, f := frameAfter frame, own := false } ∧
      (u.port p).seen = some num) ∧
    (s.laneLine p lane ≠ 0x1F → Completes (.lswapDup p num lane spare f) s fun u =>
      ∃ w, (u.port p).rx = some w ∧ w.lane = lane ∧ w.line = s.laneLine p lane ∧ w.spare = spare ∧ w.stage = 1 ∧ w.f = f) ∧
    (∀ w, (s.port p).rx = some w → w.stage = 1 → Completes (.lswapVerifyDone p frame true) s fun u =>
      (u.port p).rx = some { w with stage := 2, f := frameAfter frame } ∧ u.mem = s.mem) ∧
    (∀ w, (s.port p).tx = some w → w.lane = lane → w.spare = spare → Completes (.lswapDone p num lane spare f) s fun u =>
      (u.port p).tx = some { w with stage := 2, f := f }) ∧
    (∀ w, (s.port p).rx = some w → w.stage = 2 → w.lane < 16 → w.spare < 18 → (s.port p).queue = [] → (s.port p).cutAfter = false →
      (s.port p).drainAfter = false → Completes (.lswapCutover p frame false) s fun u =>
        u.laneLine p w.lane = w.spare ∧ (u.port p).rx = none ∧ w.line ∈ (u.port p).failed ∧ u.f F.LE_STATUS_LINE_SWAPPED (p / 2) = 1) ∧
    (∀ w verify, (s.port p).tx = some w → w.lane = lane → w.spare = spare → w.own = false → (s.port p).queue = [] → (s.port p).cutAfter = false →
      (s.port p).drainAfter = false → Completes (.lswapAbandon p num lane spare frame verify) s fun u => (u.port p).tx = none ∧
        u.f F.LE_PORT_CNT_ABANDONS p = min (s.f F.LE_PORT_CNT_ABANDONS p + 1) (2 ^ F.LE_PORT_CNT_ABANDONS.w - 1)) ∧
    (∀ w, (s.port p).tx = some w → w.own = false → (s.port p).queue = [] → (s.port p).cutAfter = false →
      (s.port p).drainAfter = false → Completes (.lswapTimeout p frame true) s fun u => (u.port p).tx = none ∧
        (∃ n, (n, LaneMsg.lswapAbandon w.lane w.spare false) ∈ (u.port p).sent)) ∧
    (s.portState p = pUp → s.laneLine p lane ≠ 0x1F → (s.port p).tx = none → (s.port p).rx = none → (∀ n ns, s.spares p = n :: ns →
      Completes (.leLswap p lane frame m) s fun u => u.f F.LE_PORT_CTRL_LSWAP_LANE p = lane ∧
        ∃ w, (u.port p).rx = some w ∧ w.lane = lane ∧ w.spare = n)) ∧
    (∀ lanes, Completes (.narrowAt p num lanes f) s fun u => (u.port p).stripe = some (lanes, f) ∧ (u.port p).seen = some num) ∧
    (∀ lanes, Completes (.widenAt p num lanes f) s fun u => (u.port p).stripe = some (lanes, f) ∧ (u.port p).seen = some num) ∧
    (∀ lanes, (s.port p).stripe = some (lanes, f) → Completes (.stripeChange p) s fun u =>
      (∀ k, k < 16 → k ∉ lanes → u.laneLine p k = 0x1F) ∧ (u.port p).stripe = none) ∧
    Completes (.laneAck p num) s (fun u => (u.port p).sent = (s.port p).sent.filter (fun x => x.1 != num) ∧ u.regs = s.regs) ∧
    Completes (.cswapAt p num f) s (fun u => (u.port p).peerCswap = some f) ∧
    Completes (.portOff p num) s (fun u => (u.port p).peerOff = true) ∧
    (∀ a port, s.f F.LE_PORT_STATUS_PEER_VALID p = 1 → a < 65536 → port < 16 → Completes (.peerId p num a port) s fun u =>
      u.f F.LE_PORT_STATUS_PEER p = a ∧ u.f F.LE_PORT_STATUS_PEER_PORT p = port)

/-- For engine e and port p. A comb swap with an OFF standby lights it (WARMING) and sets SWAP_BUSY; a standby that is locked for
its time is LOCKED; the lock time-out refuses the swap. A cut-over frame cuts the port over. Disabling an UP port without
swaps drains it; its drain's end disables it with an empty retry buffer; enabling a disabled port trains it. ENABLE 1 before
stage 4 is stored; ENABLE 0 with both ports disabled stores it and puts both ports OFF. Thresholds with BIAS_WARN < BIAS_SWAP
< 160 are stored, SER_SWAP_EXP at least 3. 'Completes' says: exec answers the next state 'settle u', u being the state after
the command's own effect, and the stated facts hold of u. Rows: COMB_SWAP, COMB_LOCKED, COMB_LOCK_TIMEOUT, COMB_CUTOVER,
PORT_DISABLE, PORT_ENABLE, PORT_DRAIN_DONE, LE_ENABLE_WRITE, LE_THRESH_WRITE.
R286, R288, R294, R298. -/
def Obligations.LightPortsComplete : Prop :=
  ∀ (s : State) (e p frame : Nat) (m : Master), e < 8 → p < 16 →
    (∀ req, mget s.le.swap e = none → s.f F.LE_CTRL_ENABLE e = 1 → s.combState e (1 - s.activeComb e) = cOff → s.activeComb e < 2 →
      0 ≤ s.fS F.LE_STATUS_TEMP_C e → Completes (.combSwap e frame req) s fun u =>
        u.combState e (1 - s.activeComb e) = cWarming ∧ u.f F.LE_STATUS_SWAP_BUSY e = 1 ∧
        mget u.le.swap e = some { comb := 1 - s.activeComb e, requested := req }) ∧
    (∀ c, c < 2 → s.combState e c = cWarming → c ≠ s.activeComb e → mget s.le.swap e = none → Completes (.combLocked e c frame) s fun u =>
      u.combState e c = cLocked) ∧
    (∀ w, mget s.le.swap e = some w → w.cutting = false → Completes (.combLockTimeout e) s fun u =>
      u.f F.LE_STATUS_SWAP_REFUSED e = 1 ∧ u.f F.LE_STATUS_SWAP_BUSY e = 0 ∧ mget u.le.swap e = none) ∧
    ((s.port p).cswap.isSome = true → mget s.le.swap (p / 2) = none → Completes (.combCutover p frame) s fun u =>
      (u.port p).cut = true ∧ (u.port p).cswap = none) ∧
    (s.portState p = pUp → s.swapsDone p = true → Completes (.portDisable p m) s fun u =>
      u.f F.LE_PORT_CTRL_DISABLE p = 1 ∧ u.portState p = pDraining) ∧
    (s.portState p = pDisabled → Completes (.portEnable p m) s fun u => u.f F.LE_PORT_CTRL_DISABLE p = 0 ∧ u.portState p = pTrain) ∧
    (s.portState p = pDraining → Completes (.portDrainDone p) s fun u => u.portState p = pDisabled ∧ (u.link p).retry = []) ∧
    (∀ v, v % 2 = 1 → s.f F.LE_CTRL_ENABLE e = 0 → s.stage < 4 → Completes (.leEnableWrite e v m) s fun u => u.f F.LE_CTRL_ENABLE e = 1) ∧
    (∀ v, v % 2 = 0 → s.f F.LE_CTRL_ENABLE e = 1 → s.portState (2 * e) = pDisabled → s.portState (2 * e + 1) = pDisabled →
      Completes (.leEnableWrite e v m) s fun u => u.f F.LE_CTRL_ENABLE e = 0 ∧ u.portState (2 * e) = pOff ∧ u.portState (2 * e + 1) = pOff) ∧
    (∀ v, let x := BitVec.ofNat 64 v; getBits x 0 8 < getBits x 8 8 → getBits x 8 8 < 160 → Completes (.leThreshWrite e v m) s fun u =>
      u.f F.LE_THRESH_BIAS_WARN_PC e = getBits x 0 8 ∧ u.f F.LE_THRESH_BIAS_SWAP_PC e = getBits x 8 8 ∧
      u.f F.LE_THRESH_LINE_MIN e = getBits x 16 16 ∧ u.f F.LE_THRESH_RX_SWAP e = getBits x 32 16 ∧
      u.f F.LE_THRESH_SER_SWAP_EXP e = max 3 (getBits x 48 4))

/-- For port p below 16 that carries cells. A unit without changed bits whose LSEQ is the expected one moves the expectation on
modulo 32,768 and its cell stands last in the receive buffer, on the channel of its class and rank, with its pool. A NAK, and
a time-out from the oldest unit, send every unit of the retry buffer from that LSEQ on again, in order, into the crossing
FIFO, the buffer unchanged and one resend more. A link-control unit names the credits free in each pool. A cell for the
module itself at the head of a channel is ejected and leaves the receive buffer. Usability is recomputed (R317); ACCEPT of a
failed check sets ACCEPTED; a re-check of a port whose peer and peer port are the planned ones gives MATCH. 'Completes' says:
exec answers the next state 'settle u', u being the state after the command's own effect, and the stated facts hold of u.
Rows: LINK_UNIT_RECEIVE, LINK_NAK, LINK_RESEND_TIMEOUT, LINK_CONTROL_UNIT, CELL_ROUTE, PORT_USABILITY_CHANGE, CABLE_ACCEPT,
CABLE_RECHECK.
R306, R307, R308, R316, R317, R330, R332. -/
def Obligations.FabricLinksComplete : Prop :=
  ∀ (s : State) (p : Nat) (m : Master), p < 16 →
    (∀ u cell first, s.carries p = true → u.cell = some cell → u.lseq = (s.link p).expect →
      Completes (.linkUnitReceive p u ⟨0, first, []⟩) s fun t =>
        (t.link p).expect = ((s.link p).expect + 1) % 32768 ∧
        (t.link p).rx = (s.link p).rx ++ [⟨2 * (cell.cls % 4) + (if cell.rank = 4 ∨ cell.rank = 5 ∨ cell.rank = 6 then 1 else 0), u.fpool, cell⟩]) ∧
    (∀ lseq, s.carries p = true → (s.link p).retry ≠ [] → (s.link p).resends + 1 < 16 → Completes (.linkNak p lseq) s fun t =>
      (t.link p).resends = (s.link p).resends + 1 ∧ (t.link p).retry = (s.link p).retry ∧
      (t.link p).fifo.map (fun x => (x.1.cell, x.1.lseq)) = (s.link p).fifo.map (fun x => (x.1.cell, x.1.lseq)) ++
        (((s.link p).retry.filter fun u => decide ((u.lseq + 32768 - lseq) % 32768 < 16384)).map fun u => (some u.cell, u.lseq))) ∧
    (∀ x xs, s.carries p = true → (s.link p).retry = x :: xs → (s.link p).resends + 1 < 16 → Completes (.linkResendTimeout p) s fun t =>
      (t.link p).resends = (s.link p).resends + 1 ∧
      (t.link p).fifo.map (fun x => (x.1.cell, x.1.lseq)) = (s.link p).fifo.map (fun x => (x.1.cell, x.1.lseq)) ++
        (((s.link p).retry.filter fun u => decide ((u.lseq + 32768 - x.lseq) % 32768 < 16384)).map fun u => (some u.cell, u.lseq))) ∧
    (s.carries p = true → s.phyRoom p = true → Completes (.linkControlUnit p) s fun t => ∃ x bad,
      (t.link p).fifo = (s.link p).fifo ++ [(x, bad)] ∧ x.cell = none ∧ x.counts = some
        ((List.range 8).map (fun v => 256 - ((s.link p).rx.filter fun u => u.pool == 0 && u.vc == v).length),
          [22528 - ((s.link p).rx.filter fun u => u.pool == 1).length])) ∧
    (∀ v x, v < 8 → s.f F.FAB_CTRL_ENABLE = 1 → (s.link p).rx.find? (fun u => u.vc == v) = some x → x.cell.mc = false → x.cell.kind ∈ [1, 2, 3, 4] →
      addrRack x.cell.dst = s.rackNo → addrLocal x.cell.dst = s.localIdx → addrFunc x.cell.dst < 2 → s.bankState x.cell.epoch ∈ [2, 3, 4] →
      Completes (.cellRoute p v) s fun t => t.fab.eject = s.fab.eject ++ [x.cell] ∧ (t.link p).rx = (s.link p).rx.erase x) ∧
    Completes (.portUsabilityChange p) s (fun t => t.f F.FAB_PORT_STAT_USABLE p = (if s.usableNow p then 1 else 0)) ∧
    (s.f F.FAB_PORT_STAT_CHECK p ∈ [2, 3, 4] → Completes (.cableAccept p m) s fun t => t.f F.FAB_PORT_STAT_ACCEPTED p = 1) ∧
    (s.f F.LE_PORT_STATUS_PEER_VALID p = 1 → s.f F.FAB_PORT_EXPECT_PLANNED p = 1 →
      s.f F.LE_PORT_STATUS_PEER p = s.f F.FAB_PORT_EXPECT_PEER p → s.f F.LE_PORT_STATUS_PEER_PORT p = s.f F.FAB_PORT_EXPECT_PEER_PORT p →
      s.f F.LE_PORT_STATUS_PEER p / 4 ≠ s.self / 4 → Completes (.cableRecheck p m) s fun t => t.f F.FAB_PORT_STAT_CHECK p = 1)

/-- LOAD of an IDLE bank makes it LOADING, ARM of a LOADING one READY, FLIP makes a READY bank CURRENT and the current one
DRAINING; a DRAINING bank without occupancy becomes IDLE. An entry written to a LOADING bank is stored. FAB_ADDR while
disabled, with RACK at most 128 and below RACKS, RACKS at most 129, stores both and sets RACK_VALID; ENABLE is stored once
RACK_VALID is 1, only registers changing. PEER_CLR takes the peer out of the unreachable list and changes nothing else. A
FENCE whose TIMEOUT_US has elapsed with a recorded sequence outstanding ends with status 0x39 and names that peer and class.
'Completes' says: exec answers the next state 'settle u', u being the state after the command's own effect, and the stated
facts hold of u. Rows: RT_LOAD, RT_ARM, RT_FLIP, RT_BANK_DRAINED, RT_ENTRY_WRITE, FAB_ADDR_WRITE, FAB_ENABLE, PEER_CLEAR,
FENCE_TIMEOUT.
R318, R319, R327, R328, R329, R333, R334. -/
def Obligations.FabricTablesComplete : Prop :=
  ∀ (s : State) (m : Master),
    (∀ c, s.f F.FAB_RT_CTRL_CUR = c → c < 2 →
      (s.bankState (1 - c) = 0 → Completes (.rtLoad m) s fun t => t.bankState (1 - c) = 1 ∧ t.f F.FAB_RT_CTRL_CUR = c) ∧
      (s.bankState (1 - c) = 1 → Completes (.rtArm m) s fun t => t.bankState (1 - c) = 2 ∧ t.f F.FAB_RT_CTRL_CUR = c) ∧
      (s.bankState (1 - c) = 2 → Completes (.rtFlip m) s fun t => t.bankState (1 - c) = 3 ∧ t.bankState c = 4 ∧ t.f F.FAB_RT_CTRL_CUR = 1 - c)) ∧
    (∀ b, b < 2 → s.bankState b = 4 → s.f (if b = 0 then F.FAB_RT_OCC_OCC0 else F.FAB_RT_OCC_OCC1) = 0 → Completes (.rtBankDrained b) s fun t => t.bankState b = 0) ∧
    (∀ b r v, b < 2 → r < 64 → s.bankState b = 1 → Completes (.rtEntryWrite b true r v m) s fun t => t.rd .FAB_RT_LOCAL b r = BitVec.ofNat 64 (v % 256)) ∧
    (∀ b r v, b < 2 → r < 256 → s.bankState b = 1 → Completes (.rtEntryWrite b false r v m) s fun t => t.rd .FAB_RT_RACK b r = BitVec.ofNat 64 (v % 256)) ∧
    (∀ v, let x := BitVec.ofNat 64 v; s.f F.FAB_CTRL_ENABLE = 0 → getBits x 8 8 ≤ 128 → getBits x 8 8 < getBits x 24 8 → getBits x 24 8 ≤ 129 →
      Completes (.fabAddrWrite v m) s fun t => t.f F.FAB_ADDR_RACK = getBits x 8 8 ∧ t.f F.FAB_ADDR_RACKS = getBits x 24 8 ∧ t.f F.FAB_ADDR_RACK_VALID = 1) ∧
    (∀ v, s.f F.FAB_ADDR_RACK_VALID = 1 → Completes (.fabEnable v m) s fun t => t.f F.FAB_CTRL_ENABLE = v % 2 ∧ { t with regs := s.regs } = s) ∧
    (∀ a, Completes (.peerClear a m) s fun t => t.fab.unreach = s.fab.unreach.filter (fun x => x != a) ∧ { t with fab := s.fab } = s) ∧
    (∀ q n j c x, q < 256 → s.fab.fences.find? (fun j => j.q == q && j.seq == n) = some j → s.cmd q n = some c → c.retired = false →
      (fenceArgs c.pkt).1.limit ≠ 0 → j.targets.find? (fun t => !s.fencePast t) = some x → Completes (.fenceTimeout q n) s fun t =>
        t.cmd q n = some { c with status := 0x39, detail := x.1 + x.2.1 * 2 ^ 16, execDone := true, noOutputs := true })

/-- For class c below 4 and the first ejected cell x of it. A DATA cell of a known incarnation with the expected SEQ goes to the
inbox and the expectation moves on modulo 4,096; one far from it is discarded and counted. A CLOSE with the expected SEQ
frees the receiving entry. An ACK takes the cells it covers out of the window of a peer's class that does not close, and
clears its expiries. A RESET of the entry's incarnation gives the entry the next incarnation and tells the units above. The
acknowledgement delay sends one ACK with the sequence reached. A retransmission below RETRY_MAX sends the window again and
counts the expiry; at RETRY_MAX the peer is unreachable: its entry is gone and UNREACH set. Evicting an idle peer drops an
entry without classes and otherwise sends a CLOSE in each class. 'Completes' says: exec answers the next state 'settle u', u
being the state after the command's own effect, and the stated facts hold of u. Rows: E2E_DATA_RECEIVE, E2E_CLOSE_RECEIVE,
E2E_ACK_RECEIVE, E2E_RESET_RECEIVE, E2E_ACK_DELAY_EXPIRE, E2E_RETRANSMIT, PEER_EVICT.
R322, R323, R324, R326, R327. -/
def Obligations.EndToEndComplete : Prop :=
  ∀ (s : State) (c : Nat), c < 4 →
    (∀ x e, s.fab.eject.find? (fun x => x.cls == c) = some x → x.kind = 1 → x.mc = false → x.cls ≠ 2 →
      mget s.fab.rx (x.src, x.cls, 0) = some e → e.inc = x.inc → e.expect = x.seq → Completes (.e2eDataReceive c) s fun t =>
        t.fab.inbox = s.fab.inbox ++ [x] ∧ t.fab.eject = s.fab.eject.erase x ∧
        ∃ y, mget t.fab.rx (x.src, x.cls, 0) = some y ∧ y.expect = (x.seq + 1) % 4096 ∧ y.inc = x.inc) ∧
    (∀ x e, s.fab.eject.find? (fun x => x.cls == c) = some x → x.kind = 1 → x.mc = false → x.cls ≠ 2 →
      mget s.fab.rx (x.src, x.cls, 0) = some e → e.inc = x.inc → e.expect ≠ x.seq → 256 ≤ (e.expect + 4095 - x.seq) % 4096 →
      Completes (.e2eDataReceive c) s fun t => t.fab.inbox = s.fab.inbox ∧ t.fab.eject = s.fab.eject.erase x ∧ t.fab.rx = s.fab.rx ∧
        t.f F.FAB_CNT_OOO_DISCARD (homeFlask x.src) = min (s.f F.FAB_CNT_OOO_DISCARD (homeFlask x.src) + 1) (2 ^ F.FAB_CNT_OOO_DISCARD.w - 1)) ∧
    (∀ x e, s.fab.eject.find? (fun x => x.cls == c) = some x → x.kind = 4 → x.mc = false →
      mget s.fab.rx (x.src, x.cls, 0) = some e → e.inc = x.inc → e.expect = x.seq → Completes (.e2eCloseReceive c) s fun t =>
        mget t.fab.rx (x.src, x.cls, 0) = none ∧ t.fab.inbox = s.fab.inbox) ∧
    (∀ x e cl y, s.fab.eject.find? (fun x => x.cls == c) = some x → x.kind = 2 → cl = (x.payload.getD 0 0).toNat % 4 →
      (x.payload.getD 2 0).toNat % 2 = 0 → mget s.fab.tx x.src = some e → mget e.cls cl = some y →
      (y.unacked.filter fun z => !ackedBy x.seq z.cell).length ≠ y.unacked.length → y.closing = false →
      (∀ z ∈ e.cls, z.2.closing = false) → s.fab.backlog = [] → Completes (.e2eAckReceive c) s fun t =>
        ∃ e', mget t.fab.tx x.src = some e' ∧ mget e'.cls cl = some { y with unacked := y.unacked.filter fun z => !ackedBy x.seq z.cell, expiries := 0 }) ∧
    (∀ x e, s.fab.eject.find? (fun x => x.cls == c) = some x → x.kind = 3 → mget s.fab.tx x.src = some e → e.inc = x.inc →
      Completes (.e2eResetReceive c) s fun t => (∃ e', mget t.fab.tx x.src = some e' ∧ e'.inc = s.fab.incNext) ∧
        t.fab.incNext = (s.fab.incNext + 1) % 16 ∧ t.fab.events = s.fab.events ++ [.reset x.src]) ∧
    (∀ peer g x, mget s.fab.rx (peer, c, g) = some x → x.pend ≠ 0 → Completes (.e2eAckDelayExpire peer c g) s fun t =>
      mget t.fab.rx (peer, c, g) = some { x with pend := 0 } ∧ ∃ k, t.fab.inject = s.fab.inject ++ [k] ∧ k.kind = 2 ∧ k.dst = peer ∧
        k.inc = x.inc ∧ k.seq = s.ackSeq peer c g x) ∧
    (∀ a e y, mget s.fab.tx a = some e → mget e.cls c = some y → y.unacked ≠ [] → y.expiries + 1 < s.f F.FAB_E2E_RETRY_MAX →
      Completes (.e2eRetransmit a c false) s fun t => (∃ e', mget t.fab.tx a = some e' ∧ mget e'.cls c = some { y with expiries := y.expiries + 1 }) ∧
        (t.fab.inject.map fun k => (k.dst, k.cls, k.seq)) = (s.fab.inject.map fun k => (k.dst, k.cls, k.seq)) ++
          y.unacked.map fun z => (z.cell.dst, z.cell.cls, z.cell.seq)) ∧
    (∀ a e y, mget s.fab.tx a = some e → mget e.cls c = some y → y.unacked ≠ [] → s.f F.FAB_E2E_RETRY_MAX ≤ y.expiries + 1 → s.fab.backlog = [] →
      Completes (.e2eRetransmit a c false) s fun t => a ∈ t.fab.unreach ∧ mget t.fab.tx a = none ∧ t.f F.FAB_STATUS_UNREACH = 1) ∧
    (∀ a e, mget s.fab.tx a = some e → e.idle = true → e.closing = false → e.cls = [] → Completes (.peerEvict a) s fun t => mget t.fab.tx a = none) ∧
    (∀ a e, mget s.fab.tx a = some e → e.idle = true → e.closing = false → e.cls ≠ [] → Completes (.peerEvict a) s fun t =>
      ∃ e', mget t.fab.tx a = some e' ∧ (∀ z ∈ e'.cls, z.2.closing = true) ∧ e'.cls.map (·.1) = e.cls.map (·.1) ∧
      (t.fab.inject.map fun k => (k.kind, k.dst, k.cls)) = (s.fab.inject.map fun k => (k.kind, k.dst, k.cls)) ++ e.cls.map fun z => (4, a, z.1))

/-- For hart h below 16. A load of readable, unpoisoned local memory answers its bytes and leaves memory; a load of another
module's memory that the tray serves waits as a request (R338). A store to local memory whose granules no module holds is in
memory and answered; one to another module is posted: answered at once, with a request. An atomic to another module waits as
a request; one to the own window and a local one answer the old value and store the AMO's result. A fence answers at once
without the predecessor bit or with the hart quiet, and otherwise waits. LR in the window answers the bytes and reserves the
granule; SC without the reservation answers 1 and stores nothing, with it answers 0 and stores. NoHolders: no granule of the
bytes is held or recalled. 'Completes' says: exec answers the next state 'settle u', u being the state after the command's
own effect, and the stated facts hold of u. Rows: TRAY_LOAD, TRAY_STORE, TRAY_ATOMIC, CORE_FENCE, CORE_LOCAL_ATOMIC.
R336, R337, R338, R339, R340, R341, R385. -/
def Obligations.TrayAccessesComplete : Prop :=
  ∀ (s : State) (h : Nat), h < 16 →
    (∀ a n cached, coreSize n = true → a < hbmEnd → s.inHbm a n = true → s.readNow a n 0 = true →
      (s.checkRead a n (Master.mk 0 h).code atRead).poisoned a n = false → Completes (.trayLoad h a n cached) s fun u =>
        u.mem = s.mem ∧ u.out = s.out ++ [.core h (.data (s.readBytes a n))]) ∧
    (∀ a m o n, trayOf a = some (m, o) → coreSize n = true → m ≠ s.slotNo → s.trayOpen m o n = true → Completes (.trayLoad h a n false) s fun u =>
      u.mem = s.mem ∧ u.tray.reqs = s.tray.reqs ++ [{ slot := m, tag := s.tray.nextTag, hart := h, kind := 0, addr := a, n := n }]) ∧
    (∀ a bs cached, coreSize bs.length = true → a < hbmEnd → s.inHbm a bs.length = true → s.writeNow a bs.length = true → NoHolders s a bs.length →
      Completes (.trayStore h a bs cached) s fun u => u.mem = (s.store a bs).mem ∧ u.out = s.out ++ [.core h .done]) ∧
    (∀ a m o bs, trayOf a = some (m, o) → coreSize bs.length = true → m ≠ s.slotNo → s.trayOpen m o bs.length = true →
      Completes (.trayStore h a bs false) s fun u => u.mem = s.mem ∧ u.out = s.out ++ [.core h .done] ∧
        u.tray.reqs = s.tray.reqs ++ [{ slot := m, tag := s.tray.nextTag, hart := h, kind := 1, addr := a, n := bs.length }]) ∧
    (∀ a m o n op code x y, trayOf a = some (m, o) → amoCode op = some code → o % n = 0 → n = 4 ∨ n = 8 → m ≠ s.slotNo → s.trayOpen m o n = true →
      Completes (.trayAtomic h a n op x y) s fun u => u.mem = s.mem ∧
        u.tray.reqs = s.tray.reqs ++ [{ slot := m, tag := s.tray.nextTag, hart := h, kind := 2, addr := a, n := n }]) ∧
    (∀ a o n op code x y, trayOf a = some (s.slotNo, o) → amoCode op = some code → o % n = 0 → n = 4 ∨ n = 8 → s.inHbm o n = true → s.readNow o n 0 = true →
      NoHolders s o n → (s.checkRead o n (Master.mk 0 h).code atAtomic).poisoned o n = false → Completes (.trayAtomic h a n op x y) s fun u =>
        u.mem = ((s.checkRead o n (Master.mk 0 h).code atAtomic).store o (leBytes n (amoApply op n (s.readNat o n) x y))).mem ∧
        u.out = s.out ++ [.core h (.data (leBytes n (s.readNat o n)))]) ∧
    (∀ pred, pred = false ∨ s.hartQuiet h = true → Completes (.coreFence h pred) s fun u => u.out = s.out ++ [.core h .done] ∧ u.mem = s.mem) ∧
    (s.hartQuiet h = false → Completes (.coreFence h true) s fun u => u.tray.fences = s.tray.fences ++ [h] ∧ u.out = s.out) ∧
    (∀ a n op x y, op ≠ .lr → op ≠ .sc → n = 4 ∨ n = 8 → a % n = 0 → s.inHbm a n = true → s.readNow a n 0 = true → s.inWindow a = false → NoHolders s a n →
      s.dirEnt (granOf a) = none → (s.checkRead a n (Master.mk 0 h).code atAtomic).poisoned a n = false → Completes (.coreLocalAtomic h a n op x y) s fun u =>
        u.mem = ((s.checkRead a n (Master.mk 0 h).code atAtomic).store a (leBytes n (amoApply op n (s.readNat a n) x y))).mem ∧
        u.out = s.out ++ [.core h (.data (leBytes n (s.readNat a n)))]) ∧
    (∀ a n x y, n = 4 ∨ n = 8 → a % n = 0 → s.inHbm a n = true → s.readNow a n 0 = true → s.inWindow a = true → NoHolders s a n →
      ((s.dirPut ⟨granOf a, [], some s.slotNo, 0⟩).checkRead a n (Master.mk 0 h).code atAtomic).poisoned a n = false → Completes (.coreLocalAtomic h a n .lr x y) s fun u =>
        u.mem = s.mem ∧ u.resv = (s.resv.filter fun r => r.1 != h) ++ [(h, granOf a)] ∧ u.out = s.out ++ [.core h (.data (s.readBytes a n))]) ∧
    (∀ a n x y, n = 4 ∨ n = 8 → a % n = 0 → s.inHbm a n = true → s.readNow a n 0 = true → s.inWindow a = true → NoHolders s a n →
      s.resv.contains (h, granOf a) = false → Completes (.coreLocalAtomic h a n .sc x y) s fun u => u.mem = s.mem ∧ u.out = s.out ++ [.core h (.data (leBytes n 1))]) ∧
    (∀ a n x y, n = 4 ∨ n = 8 → a % n = 0 → s.inHbm a n = true → s.readNow a n 0 = true → s.inWindow a = true → NoHolders s a n →
      s.resv.contains (h, granOf a) = true → Completes (.coreLocalAtomic h a n .sc x y) s fun u =>
        u.mem = ((s.dirPut ⟨granOf a, [], some s.slotNo, 0⟩).store a (leBytes n x)).mem ∧ u.out = s.out ++ [.core h (.data (leBytes n 0))])

/-- A join from OFF with the fabric enabled sets ENABLE and gives JOINING; a leave from the state 2 clears ENABLE, empties the
cached granules and gives LEAVING; a leave whose cells, requests and holders are all gone ends OFF with no peer. A window
written in OFF with a size of at most 16 GiB that is 0 or lies in HBM below the reserve is stored, only registers changing.
'Completes' says: exec answers the next state 'settle u', u being the state after the command's own effect, and the stated
facts hold of u. Rows: TRAY_JOIN_START, TRAY_LEAVE_START, TRAY_LEAVE_DONE, TRY_WIN_WRITE.
R343, R354, R355, R357, R358. -/
def Obligations.TrayMembershipComplete : Prop :=
  ∀ (s : State) (m : Master),
    (s.f F.FAB_CTRL_ENABLE = 1 → s.trayState = 0 → Completes (.trayJoinStart m) s fun u => u.f F.TRY_CTRL_ENABLE = 1 ∧ u.trayState = 2 ∧ u.mem = s.mem) ∧
    (s.trayState = 2 → Completes (.trayLeaveStart m) s fun u => u.f F.TRY_CTRL_ENABLE = 0 ∧ u.trayState = 3 ∧ u.tray.cache = []) ∧
    (s.trayState = 3 → s.fab.inbox = [] → s.fab.tx = [] → s.fab.backlog = [] → s.tray.reqs = [] →
      (∀ d ∈ s.tray.dir, ∀ x ∈ d.holders, x = s.slotNo) → Completes .trayLeaveDone s fun u => u.trayState = 0 ∧ u.f F.TRY_STATUS_PEERS = 0 ∧
        u.tray.sent = [] ∧ u.tray.recv = []) ∧
    (∀ v, let base := bitsAt v 0 10; let size := bitsAt v 16 5; s.trayState = 0 → size ≤ 16 →
      size = 0 ∨ (0x10000000 ≤ base * 0x40000000 ∧ (base + size) * 0x40000000 ≤ s.hbmTop) → Completes (.tryWinWrite v m) s fun u =>
        u.f F.TRY_WIN_BASE_G = base ∧ u.f F.TRY_WIN_SIZE_G = size ∧ { u with regs := s.regs } = s)

/-- For source src, first request d of its class in the inbox with data cells cs; the request leaves the inbox in each case. A
READ it may make leaves memory and the tray unchanged. READ_LINE and READ_OWN of an unheld granule enter the asker as a
holder or as the owner. WRITE and WRITE_BURST store their bytes where no module holds a granule. ATOMIC stores the AMO's
result. WRITEBACK by the owner stores the line and removes the directory entry. INVAL drops the granule from the cache,
INVAL_ACK takes the module out of what recalls wait for. ARRIVE adds its increment to the gate modulo 2^48. JOIN of a module
that had not joined and LEAVE note the peer. 'Completes' says: exec answers the next state 'settle u', u being the state
after the command's own effect, and the stated facts hold of u. Rows: READ, READ_OWN, READ_LINE, WRITE, WRITE_BURST, ATOMIC,
WRITEBACK, INVAL, INVAL_ACK, ARRIVE, JOIN, LEAVE.
R341, R343, R344, R345, R346, R347, R353. -/
def Obligations.TrayHomeComplete : Prop :=
  ∀ (s : State) (src : Nat) (d : Cell) (cs : List Cell), let a := dAddr d.payload; let n := dSize d.payload; let m := epSlot src; let g := granOf a
    let w := writeData d cs; let line := a / 128 * 128
    (Asked s src 0 1 d cs → s.inTray src = true → s.homeCause src a n = 0 → s.readNow (s.xlat a) n 0 = true → NoHolders s a n → Completes (.read src) s fun u =>
      u.mem = s.mem ∧ u.fab.inbox = Taken1 s d cs ∧ u.tray = s.tray) ∧
    (∀ own : Bool, Asked s src 0 (if own then 3 else 2) d cs → s.inTray src = true → s.inWindow line = true → s.homeCause src line 128 = 0 → s.readNow line 128 0 = true →
      s.dirEnt (granOf line) = none → s.tray.recalls = [] → s.tray.dir.length < 16 →
      Completes (if own then .readOwn src else .readLine src) s fun u => u.mem = s.mem ∧ u.fab.inbox = Taken1 s d cs ∧
        (u.dirEnt (granOf line)).map (fun e => (e.shared, e.owner)) = some (if own then ([], some m) else ([m], none))) ∧
    (∀ op, op = 4 ∨ op = 5 → Asked s src 0 op d cs → a < hbmEnd → s.homeCause src a w.1.length = 0 → s.writeNow (s.xlat a) w.1.length = true →
      NoHolders s a w.1.length → Completes (if op = 4 then .write src else .writeBurst src) s fun u =>
        u.mem = (s.store (s.xlat a) w.1).mem ∧ u.fab.inbox = Taken1 s d cs) ∧
    (∀ k, k = (if dAop d.payload / 8 % 2 = 1 then 8 else 4) → Asked s src 0 6 d cs → s.inTray src = true → s.trayState = 2 → a % k = 0 → dAop d.payload % 8 < 6 →
      s.inHbm a k = true → s.homeCause src a k = 0 → s.readNow a k 0 = true → NoHolders s a k →
      (s.checkRead a k (Master.mk 3 m).code atAtomic).poisoned a k = false → Completes (.atomic src) s fun u =>
        u.mem = ((s.checkRead a k (Master.mk 3 m).code atAtomic).store a
          (leBytes k (amoApply (amoOf (dAop d.payload % 8)) k (s.readNat a k) (dOperand d.payload) (dCompare d.payload)))).mem ∧ u.fab.inbox = Taken1 s d cs) ∧
    (∀ e, Asked s src 0 7 d cs → s.dirEnt (granOf line) = some e → e.owner = some m → Completes (.writeback src) s fun u =>
      u.mem = (s.store line (cs.flatMap fun c => c.payload.take 64)).mem ∧ u.fab.inbox = Taken1 s d cs ∧ u.dirEnt (granOf line) = none) ∧
    (Asked s src 0 8 d cs → Completes (.inval src) s fun u => u.mem = s.mem ∧ u.fab.inbox = Taken1 s d cs ∧
      ∀ c ∈ u.tray.cache, ¬ (c.slot = m ∧ c.gran = g)) ∧
    (Asked s src 1 0x82 d cs → Completes (.invalAck src) s fun u => u.mem = s.mem ∧ u.fab.inbox = Taken1 s d cs ∧
      ∀ r ∈ u.tray.recalls, r.gran = g → m ∉ r.waits) ∧
    (Asked s src 0 11 d cs → Completes (.arrive src) s fun u => u.gate (dGate d.payload % 4096) = (s.gate (dGate d.payload % 4096) + dOperand d.payload % 256) % 2 ^ 48 ∧
      u.mem = s.mem ∧ u.fab.inbox = Taken1 s d cs) ∧
    (Asked s src 0 9 d cs → s.inTray src = true → s.trayState = 2 → s.joined m = false → s.tray.recv.contains m = false → Completes (.join src) s fun u =>
      u.joined m = true ∧ u.tray.recv = m :: s.tray.recv ∧ u.fab.inbox = Taken1 s d cs) ∧
    (Asked s src 0 10 d cs → s.inTray src = true → Completes (.leave src) s fun u =>
      u.joined m = false ∧ u.tray.sent.contains m = false ∧ u.tray.recv.contains m = false ∧ u.fab.inbox = Taken1 s d cs)

/-- For a request r of a hart that the reply's tag and source name. TRAY_DATA_REPLY without poison: a load or atomic answers the
hart with the request's length of bytes and ends the request; a cached load answers the bytes from the line and enters it
shared; a cached store enters the line owned and changed with the store's bytes. A refused access answers a fault to the hart
and ends the request. Memory does not change by a plain reply or a refusal. 'Completes' says: exec answers the next state
'settle u', u being the state after the command's own effect, and the stated facts hold of u. Rows: TRAY_DATA_REPLY,
TRAY_REFUSED.
R338, R341, R345, R346, R353. -/
def Obligations.TrayRepliesComplete : Prop :=
  ∀ (s : State) (src : Nat) (d : Cell) (cs : List Cell) (r : TrayReq), let o := r.addr % traySpan
    let bytes := if cs.isEmpty then dInline d.payload else cs.flatMap fun c => c.payload.take 64
    s.tray.reqs.find? (fun r => r.tag == dTag d.payload && s.slotEp r.slot == src) = some r →
    (Asked s src 1 0x81 d cs → d.poison = false → cs.any (·.poison) = false →
      (r.kind = 0 ∨ r.kind = 2 → Completes (.trayDataReply src) s fun u => u.out = s.out ++ [.core r.hart (.data (bytes.take r.n))] ∧ u.mem = s.mem ∧
        u.tray = { s.tray with reqs := s.tray.reqs.filter fun x => x != r } ∧ u.fab.inbox = Taken1 s d cs) ∧
      (r.kind = 3 → Completes (.trayDataReply src) s fun u => u.out = s.out ++ [.core r.hart (.data ((bytes.drop (o % 128)).take r.n))] ∧
        ⟨r.slot, o / 128, false, false, bytes⟩ ∈ u.tray.cache ∧ r ∉ u.tray.reqs) ∧
      (r.kind = 4 → Completes (.trayDataReply src) s fun u => u.out = s.out ++ [.core r.hart .done] ∧
        ⟨r.slot, o / 128, true, true, bytes.take (o % 128) ++ r.data ++ bytes.drop (o % 128 + r.n)⟩ ∈ u.tray.cache ∧ r ∉ u.tray.reqs)) ∧
    (Asked s src 1 0x83 d cs → r.kind ≠ 5 → Completes (.trayRefused src) s fun u => OutMsg.core r.hart .fault ∈ u.out ∧ r ∉ u.tray.reqs ∧
      u.mem = s.mem ∧ u.fab.inbox = Taken1 s d cs)

/-- For group g below 256. Enabling a DISABLED group with a valid configuration gives state 1, instance count 0 and the members
of its list; with an invalid one it stays DISABLED with CFG_ERR. Disabling state 1 or 3 gives DISABLED, or DRAINING while it
has an instance. The drain's time-out gives DISABLED and drops the group's waiting cells. COL_GRP_LIST and COL_GRP_CFG
written in DISABLED are stored field by field, only registers changing. The expiry of the staged cells of a GID no enabled
group has drops those cells and nothing else. 'Completes' says: exec answers the next state 'settle u', u being the state
after the command's own effect, and the stated facts hold of u. Rows: GROUP_ENABLE, GROUP_DISABLE, GROUP_DRAIN_TIMEOUT,
COL_GRP_CFG_WRITE, COLL_STAGE_EXPIRE.
R359, R360, R375, R378, R379, R382. -/
def Obligations.GroupsComplete : Prop :=
  ∀ (s : State) (g : Nat) (m : Master), g < 256 →
    (s.grpState g = 0 → s.grpValid g = true → Completes (.groupEnable g m) s fun u => u.grpState g = 1 ∧ u.f F.COL_GRP_STAT_INST g = 0 ∧
      (u.grp g).members = s.grpList g ∧ u.mem = s.mem) ∧
    (s.grpState g = 0 → s.grpValid g = false → Completes (.groupEnable g m) s fun u => u.grpState g = 0 ∧ u.f F.COL_STATUS_CFG_ERR (g % 4) = 1 ∧ u.mem = s.mem) ∧
    (s.grpState g = 1 ∨ s.grpState g = 3 → Completes (.groupDisable g m) s fun u => u.grpState g = (if (s.instOf g).isNone then 0 else 2) ∧ u.mem = s.mem) ∧
    (s.grpState g = 2 → Completes (.groupDrainTimeout g) s fun u => u.grpState g = 0 ∧ ∀ c ∈ u.fab.inbox, c.cls = 2 → cellGid c ≠ s.grpGid g) ∧
    (∀ v, s.grpState g = 0 → Completes (.colGrpCfgWrite g true v m) s fun u => u.f F.COL_GRP_LIST_LIST_ADDR g = v % 2 ^ 48 ∧ { u with regs := s.regs } = s) ∧
    (∀ v, s.grpState g = 0 → Completes (.colGrpCfgWrite g false v m) s fun u => u.grpGid g = bitsAt v 0 16 ∧ u.grpN g = bitsAt v 16 14 ∧
      u.grpRank g = bitsAt v 32 14 ∧ u.f F.COL_GRP_CFG_QUEUE g = bitsAt v 48 8 ∧ { u with regs := s.regs } = s) ∧
    (∀ gid, (∀ h < 256, s.grpState h = 1 → s.grpGid h ≠ gid) → Completes (.collStageExpire gid) s fun u =>
      u.fab.inbox = s.fab.inbox.filter (fun c => !(c.cls == 2 && cellGid c == gid)) ∧ u.mem = s.mem ∧ u.coll = s.coll)

/-- For the cell c of src that the row takes next and the begun instance x it belongs to, with its edge e (Arrives). A signature
that agrees marks the edge and lets the instance go on; one that differs ends the instance's command with 0x30 and the own
address, sets MISMATCH_SEEN and removes the instance. DATA appends its bytes and poison to the edge; END notes flags and
verdict; then the instance goes on. ABORT of a present instance ends its command with 0x31 and the sender's detail, sets
ABORT_SEEN and removes it; one of an instance ahead is recorded. A time-out other than 0 ends the command with 0x33, sets
TIMEOUT_SEEN and removes the instance. 'Completes' says: exec answers the next state 'settle u', u being the state after the
command's own effect, and the stated facts hold of u. Rows: COLL_SIG, COLL_DATA, COLL_END, COLL_ABORT, COLL_TIMEOUT.
R371, R372, R373, R374, R375. -/
def Obligations.CollectiveCellsComplete : Prop :=
  ∀ (s : State) (src gid g : Nat) (c : Cell) (x : ColInst),
    (∀ e, Arrives s src gid 0 c g x e → leNat ((c.payload.drop 8).take 8) = x.sig → cellHalf c 16 = s.grpN x.g → cellHalf c 18 = e.rank →
      Completes (.collSig src gid) s fun u => u = (((s.takeStaged c).putInst (x.putEdge { e with sig := true })).colGo (x.putEdge { e with sig := true })).collStat) ∧
    (∀ e d, Arrives s src gid 0 c g x e → leNat ((c.payload.drop 8).take 8) ≠ x.sig → s.cmd x.q x.seq = some d → d.retired = false → x.op ≠ 15 →
      Completes (.collSig src gid) s fun u => EndedBy u x.q x.seq 0x30 (s.self + 2 ^ 16) ∧ u.f F.COL_STATUS_MISMATCH_SEEN (x.g % 4) = 1 ∧
        ∀ y ∈ u.coll.insts, ¬ (y.g = x.g ∧ y.inst = x.inst)) ∧
    (∀ e, Arrives s src gid 1 c g x e → let x2 := x.putEdge { e with cells := e.cells ++ [(c.payload.drop 8, c.poison)] }
      Completes (.collData src gid) s fun u => u = (((s.takeStaged c).putInst x2).colGo x2).collStat) ∧
    (∀ e, Arrives s src gid 2 c g x e → x.op ≠ 15 →
      let x2 := x.putEdge { e with ended := true, flags := cellByte c 5, verdict := 0, bit := cellByte c 9, low := cellHalf c 10 }
      Completes (.collEnd src gid) s fun u => u = (((s.takeStaged c).putInst x2).colGo x2).collStat) ∧
    (∀ d, s.colHead src gid (fun c => cellKind c == 3) = some (c, g) → s.coll.insts.find? (fun y => y.g == g && y.inst % 65536 == cellInst c) = some x →
      s.cmd x.q x.seq = some d → d.retired = false → x.op ≠ 15 → cellByte c 8 ≠ 1 → Completes (.collAbort src gid) s fun u =>
        EndedBy u x.q x.seq 0x31 (cellHalf c 16 + cellByte c 8 * 2 ^ 16) ∧ u.f F.COL_STATUS_ABORT_SEEN (x.g % 4) = 1 ∧
        ∀ y ∈ u.coll.insts, ¬ (y.g = x.g ∧ y.inst = x.inst)) ∧
    (s.colHead src gid (fun c => cellKind c == 3) = some (c, g) → s.coll.insts.find? (fun y => y.g == g && y.inst % 65536 == cellInst c) = none →
      s.instAhead g (cellInst c) = true → (s.grp g).recs = [] → Completes (.collAbort src gid) s fun u =>
        (u.grp g).recs = [⟨cellInst c, cellByte c 8, cellByte c 9, cellHalf c 16, c.src⟩] ∧ u.mem = s.mem) ∧
    (∀ q n d, q < 256 → s.coll.insts.find? (fun y => y.q == q && y.seq == n) = some x → s.cmd q n = some d → d.retired = false → x.op ≠ 15 →
      bitsAt (d.pkt.getD 6 0) 0 32 ≠ 0 → Completes (.collTimeout q n) s fun u => EndedBy u q n 0x33 0 ∧ u.f F.COL_STATUS_TIMEOUT_SEEN (x.g % 4) = 1 ∧
        ∀ y ∈ u.coll.insts, ¬ (y.g = x.g ∧ y.inst = x.inst))

/-- A buddy time-out with a time other than 0 ends the command with 0x3E and the endpoint with cause 3, and removes the job.
TAINT_SET adds bit 7 to TAINT_NOW, only registers changing. LAST written with the engine off or unresolved stores the step,
clears UNRESOLVED and marks the held state of that step committed, the other not; otherwise it changes neither LAST nor
memory. CRU_RES_CTRL with a buddy of 0 or of another tray is stored; with an illegal buddy ENABLE and BUDDY stay. 'Completes'
says: exec answers the next state 'settle u', u being the state after the command's own effect, and the stated facts hold of
u. Rows: BUDDY_TIMEOUT, TAINT_SET, LAST_WRITE, RES_CTRL_WRITE.
R462, R470, R477, R482. -/
def Obligations.ResilienceComplete : Prop :=
  ∀ (s : State) (m : Master),
    (∀ q n j c, q < 256 → s.res.jobs.find? (fun j => j.q == q && j.seq == n) = some j → s.cmd q n = some c → c.retired = false →
      bitsAt (c.pkt.getD 7 0) 0 32 ≠ 0 → Completes (.buddyTimeout q n) s fun u =>
        (∃ d, u.cmd q n = some d ∧ d.status = 0x3E ∧ d.detail = j.ep + 3 * 2 ^ 16 ∧ d.execDone = true) ∧ ∀ x ∈ u.res.jobs, ¬ (x.q = q ∧ x.seq = n)) ∧
    Completes (.taintSet m) s (fun u => u.f F.CRU_RES_TAINT_NOW = s.f F.CRU_RES_TAINT_NOW ||| 128 ∧ { u with regs := s.regs } = s) ∧
    (∀ v, s.f F.CRU_RES_CTRL_ENABLE = 0 ∨ s.f F.CRU_RES_COMMIT_UNRESOLVED = 1 → Completes (.lastWrite v m) s fun u =>
      u.f F.CRU_RES_COMMIT_LAST = v % 2 ^ 48 ∧ u.f F.CRU_RES_COMMIT_UNRESOLVED = 0 ∧
      ∀ g, [0, 1].find? (fun g => s.f F.CRU_RES_HELD_STATE g == 2 && s.f F.CRU_RES_HELD_STEP g == v % 2 ^ 48) = some g →
        u.f F.CRU_RES_HELD_COMMITTED g = 1 ∧ u.f F.CRU_RES_HELD_COMMITTED (1 - g) = 0) ∧
    (∀ v, s.f F.CRU_RES_CTRL_ENABLE = 1 → s.f F.CRU_RES_COMMIT_UNRESOLVED = 0 → Completes (.lastWrite v m) s fun u =>
      u.f F.CRU_RES_COMMIT_LAST = s.f F.CRU_RES_COMMIT_LAST ∧ u.mem = s.mem) ∧
    (∀ v, let b := bitsAt v 16 16; b = 0 ∨ (addrFunc b = 0 ∧ addrRack b < s.racks ∧ b / 32 ≠ s.self / 32) → Completes (.resCtrlWrite v m) s fun u =>
      u.f F.CRU_RES_CTRL_ENABLE = bitsAt v 0 1 ∧ u.f F.CRU_RES_CTRL_BUDDY = b ∧
      u.f F.CRU_RES_TAINT_NOW = (if bitsAt v 32 1 = 1 then s.f F.CRU_RES_TAINT_NOW ||| 128 else s.f F.CRU_RES_TAINT_NOW) ∧ { u with regs := s.regs } = s) ∧
    (∀ v, let b := bitsAt v 16 16; b ≠ 0 → addrFunc b ≠ 0 ∨ s.racks ≤ addrRack b ∨ b / 32 = s.self / 32 → Completes (.resCtrlWrite v m) s fun u =>
      u.f F.CRU_RES_CTRL_ENABLE = s.f F.CRU_RES_CTRL_ENABLE ∧ u.f F.CRU_RES_CTRL_BUDDY = s.f F.CRU_RES_CTRL_BUDDY ∧ u.mem = s.mem)

/-- A sensor update shows its temperature; a stack's below 100.0 degrees its CASE_C. A stale die sensor is FAILED. MAX_CLR gives
MAX the present value. A rail settles at its target. A power tick in ON outside bask shows the watts and gives each rail the
fitted request, at most 10 mV up. CAP_W is stored within 1,200 to 2,600; PEAK_CLR clears PEAK_W. A throttle step on a hot
rail lowers the thermal request by 10 mV, at 600 mV it adds one hold (at most 64); recovery first ends the hold, then raises
by 10 mV to at most 850. A dT/dt hold's end restores the request. In stage 4 with bask 1: with every sensor warm enough the
boot goes on to stage 5, with a colder one it waits; a bask time-out fails the boot with cause 1 (stage 15). The abort point
of a stop with no command in flight drains every port. 'Completes' says: exec answers the next state 'settle u', u being the
state after the command's own effect, and the stated facts hold of u. Rows: THERMAL_SENSOR_UPDATE, SENSOR_STALE,
SENSOR_MAX_CLR, SETPOINT_SETTLE, POWER_CONTROL_TICK, PWR_CAP_WRITE, PWR_PEAK_CLR, THROTTLE_STEP, THROTTLE_RECOVER_STEP,
DTDT_HOLD_EXPIRE, COLD_HOLD_CHECK, BASK_TIMEOUT, STOP_ABORT_POINT.
R24, R491, R492, R494, R495, R496, R497, R499, R500, R501, R502, R504. -/
def Obligations.PowerControlComplete : Prop :=
  ∀ (s : State) (m : Master),
    (∀ n part t, n < 74 ∨ (98 ≤ n ∧ n < 104) → part < 4 → Completes (.thermalSensorUpdate n ⟨part, t⟩) s fun u =>
      u.f F.THM_SENS_TEMP n = ofSigned 16 (satSigned 16 t)) ∧
    (∀ k part t, k < 16 → part < 4 → t < 1000 → Completes (.thermalSensorUpdate (74 + k) ⟨part, t⟩) s fun u =>
      u.f F.FLK_MEM_STACK_STAT_CASE_C k = ofSigned 8 (satSigned 8 (t / 10))) ∧
    (∀ n, n < 74 → Completes (.sensorStale n) s fun u => u.f F.THM_SENS_FAILED n = 1) ∧
    (∀ n, n < 104 → Completes (.sensorMaxClr n m) s fun u => u.f F.THM_SENS_MAX n = s.f F.THM_SENS_TEMP n ∧ { u with regs := s.regs } = s) ∧
    (∀ r, r < 8 → s.pwrState = 2 ∨ s.pwrState = 3 → s.margin.temper = none → Completes (.setpointSettle r) s fun u =>
      u.f F.PWR_RAIL_SET_MV r = s.railTarget r ∧ { u with regs := s.regs } = s) ∧
    (∀ watts fit hold, s.pwrState = 2 → s.f F.PWR_BASK_STATE ≠ 2 → let x := clampNat 600 850 fit / 10 * 10; let old := s.f F.PWR_RAIL_PWR_REQ_MV 0
      Completes (.powerControlTick watts fit ⟨hold, []⟩) s fun u => u.f F.PWR_IN_POWER_W = watts % 2 ^ 16 ∧ u.pwrState = 2 ∧
        ∀ r < 8, u.f F.PWR_RAIL_PWR_REQ_MV r = (if x ≤ old then x else min x (old + 10))) ∧
    (∀ v, Completes (.pwrCapWrite v m) s fun u => u.f F.PWR_CAP_CAP_W = clampNat 1200 2600 (v % 4096) ∧ { u with regs := s.regs } = s) ∧
    Completes (.pwrPeakClr m) s (fun u => u.f F.PWR_IN_PEAK_W = 0 ∧ { u with regs := s.regs } = s) ∧
    (∀ r, r < 8 → 1000 ≤ s.railTj r ∨ s.stackHotRail r = true → mget s.pw.dtdt r = none → 600 < s.f F.PWR_RAIL_THM_REQ_MV r → Completes (.throttleStep r) s fun u =>
      u.f F.PWR_RAIL_THM_REQ_MV r = max 600 (min (s.f F.PWR_RAIL_THM_REQ_MV r) (s.f F.PWR_RAIL_SET_MV r) - 10)) ∧
    (∀ r, r < 8 → 1000 ≤ s.railTj r ∨ s.stackHotRail r = true → s.f F.PWR_RAIL_THM_REQ_MV r ≤ 600 → Completes (.throttleStep r) s fun u =>
      mgetD u.pw.hold r 0 = min 64 (mgetD s.pw.hold r 0 + 1)) ∧
    (∀ r, r < 8 → s.railTj r < 970 → s.stackHotRail r = false → 0 < mgetD s.pw.hold r 0 → Completes (.throttleRecoverStep r) s fun u => mgetD u.pw.hold r 0 = 0) ∧
    (∀ r, r < 8 → s.railTj r < 970 → s.stackHotRail r = false → mgetD s.pw.hold r 0 = 0 → mget s.pw.dtdt r = none → Completes (.throttleRecoverStep r) s fun u =>
      u.f F.PWR_RAIL_THM_REQ_MV r = min 850 (mgetD s.pw.thr r 850 + 10)) ∧
    (∀ r, r < 8 → mgetD s.pw.thr r 850 < 2 ^ 16 → Completes (.dtdtHoldExpire r) s fun u => mget u.pw.dtdt r = none ∧ u.f F.PWR_RAIL_THM_REQ_MV r = mgetD s.pw.thr r 850) ∧
    (s.stage = 4 → s.f F.PWR_BASK_STATE = 1 → (∀ n < 74, s.hasReading n = true ∧ 100 ≤ s.reading n) → (∀ n, 74 ≤ n → n < 98 → s.hasReading n = true ∧ 0 ≤ s.reading n) →
      Completes .coldHoldCheck s fun u => u.f F.PWR_BASK_STATE = 3 ∧ u.stage = 5) ∧
    (s.stage = 4 → s.f F.PWR_BASK_STATE = 1 → (∃ n < 74, s.hasReading n = true ∧ s.reading n < -100) → Completes .coldHoldCheck s fun u =>
      u.f F.PWR_BASK_STATE = 1 ∧ u.stage = 4) ∧
    (s.stage = 4 → s.f F.PWR_BASK_STATE = 2 → s.boot.trial = [] → Completes .baskTimeout s fun u => u.stage = 15 ∧ u.f F.CRU_BOOT_CAUSE = 1) ∧
    (s.pwrState = 3 → (s.qe.cmds.filter fun c => c.dispatched && !c.retired) = [] → Completes .stopAbortPoint s fun u =>
      u = foldS (List.range 16) (fun p s => s.portDisable p) s)

/-- For a new authenticated command of the right length in an open session on the lane, below its load. STATUS, READ_LOG and
TIME_SYNC measure answer their bodies and change no more than a reply does (ButReply). READ_REG and WRITE_REG answer the
control space's value or acceptance as master class 5, status 4 for a block that is down, 5 for a refused access. TIME_SYNC
adjust within 1 ms slews by the offset, beyond it steps. RESET in ON from stage 2 on resets to stage 2 with LAST_RESET 2, in
STOPPING is refused with 4. POWER_CAP stores the clamped cap and notices it. IMAGE_BEGIN, CHUNK, END and CANCEL: a transfer
starts when none runs (2 otherwise), grows, ends with cause 9 where bytes are missing, installs a verified image as pending,
or is dropped. BYE closes the session. 'Completes' says: exec answers the next state 'settle u', u being the state after the
command's own effect, and the stated facts hold of u. Rows: STATUS, READ_REG, WRITE_REG, READ_LOG, TIME_SYNC_MEASURE,
TIME_SYNC_ADJUST, MGT_RESET, POWER_CAP, IMAGE_BEGIN, IMAGE_CHUNK, IMAGE_END, IMAGE_CANCEL, BYE.
R395, R403, R405, R406, R407, R410, R421, R423, R495. -/
def Obligations.SessionCommandsComplete : Prop :=
  ∀ (s : State) (h : MgtHdr) (x : Sess), InSession s h x → let t := Acting s h x; let m : Master := ⟨5, x.idx⟩
    Completes (.status h) s (fun u => Replied u x h 0x90 0 t.statusBody ∧ ButReply t u) ∧
    (∀ a, (ctlBlock a).isNone ∨ t.blockUp a = true → Completes (.readReg h a) s fun u => ButReply (t.ctlRead a 8 m).2 u ∧
      match (t.ctlRead a 8 m).1 with | some v => Replied u x h 0x91 0 (beBytes 8 v) | none => Replied u x h 0x91 5 []) ∧
    (∀ a v, (ctlBlock a).isSome → t.blockUp a = false → Completes (.readReg h a) s (fun u => Replied u x h 0x91 4 [] ∧ ButReply t u) ∧
      Completes (.writeReg h a v) s fun u => Replied u x h 0x92 4 [] ∧ ButReply t u) ∧
    (∀ a v, (ctlBlock a).isNone ∨ t.blockUp a = true → Completes (.writeReg h a v) s fun u => ButReply (t.ctlWrite a 8 v m).2 u ∧
      match (t.ctlWrite a 8 v m).1 with | some c => Replied u x h 0x92 0 (clampBody c) | none => Replied u x h 0x92 5 []) ∧
    (∀ eye first n, Completes (.readLog h eye first n) s fun u => Replied u x h 0x93 0 (t.logBody eye first n) ∧ ButReply t u) ∧
    Completes (.timeSyncMeasure h) s (fun u => Replied u x h 0x94 0 (beBytes 8 t.now ++ beBytes 8 t.now) ∧ ButReply t u) ∧
    (∀ off, off ≠ 0 → -1000000 ≤ off → off ≤ 1000000 → Completes (.timeSyncAdjust h off) s fun u => Replied u x h 0x94 0 [] ∧
      u.f F.CRU_TIME_STAT_STATE = 1 ∧ u.mgt.remain = off) ∧
    (∀ off, 1000000 < off → s.now + off.toNat < 2 ^ 64 → Completes (.timeSyncAdjust h off) s fun u => Replied u x h 0x94 0 [] ∧
      u.f F.CRU_TIME_STAT_STATE = 2 ∧ u.now = s.now + off.toNat) ∧
    (s.pwrState = 2 → 2 ≤ s.stage → Completes (.mgtReset h) s fun u => u.stage = 2 ∧ u.f F.CRU_BOOT_LAST_RESET = 2) ∧
    (s.pwrState = 3 → Completes (.mgtReset h) s fun u => Replied u x h 0x95 4 [] ∧ ButReply t u) ∧
    (∀ w, Completes (.powerCap h w) s fun u => Replied u x h 0x96 0 (clampBody (decide (w < 1200 ∨ 2600 < w))) ∧
      u.f F.PWR_CAP_CAP_W = clampNat 1200 2600 w ∧ u.f F.CRU_NOTICE_CODE = 2) ∧
    (∀ c total, s.sec.xfer = none → Completes (.imageBegin h c total) s fun u => Replied u x h 0x97 0 [0, 0] ∧
      u.sec = { s.sec with xfer := some { cls := c, total := total, last := s.now } }) ∧
    (∀ c total, s.sec.xfer ≠ none → Completes (.imageBegin h c total) s fun u => Replied u x h 0x97 2 [0, 0] ∧ u.sec = s.sec) ∧
    (∀ y data, s.sec.xfer = some y → data ≠ [] → data.length ≤ 1024 → Completes (.imageChunk h y.cls y.data.length data) s fun u =>
      Replied u x h 0x97 0 [0, 0] ∧ u.sec.xfer = some { y with data := y.data ++ data, last := s.now }) ∧
    (∀ y, s.sec.xfer = some y → y.data.length ≠ y.total → Completes (.imageEnd h y.cls) s fun u => Replied u x h 0x97 1 [0, 9] ∧ u.sec.xfer = none) ∧
    (∀ y, s.sec.xfer = some y → y.data.length = y.total → y.cls ≤ 3 → t.dropXfer.verify y.cls y.data true = 0 → Completes (.imageEnd h y.cls) s fun u =>
      Replied u x h 0x97 0 [0, 0] ∧ u.sec.xfer = none ∧ u.imgPending y.cls = true ∧ u.slotObj y.cls (1 - s.activeSlot y.cls) = some y.data) ∧
    (∀ y, s.sec.xfer = some y → Completes (.imageCancel h y.cls) s fun u => Replied u x h 0x97 0 [0, 0] ∧ u.sec = { s.sec with xfer := none }) ∧
    Completes (.bye h) s (fun u => Replied u x h 0x98 0 [] ∧ u.sess x.id = none)

/-- On the lane below its load (OnLane): IDENT answers the identity. HELLO of a certificate without roles is denied (status 1)
with the sessions unchanged; one with roles, outside SCRAPPED and with fewer than 64 sessions, opens a session in waiting
with its roles. FINISH with the client's signature opens the session and answers; a wrong signature drops it silently. A
transfer's time-out drops the transfer; an idle session is closed. A slew with nothing remaining ends in state 2, any other
state stays. Attestation k below 4: START on an idle unit outside zeroisation sets BUSY, otherwise REFUSED; its end clears
BUSY and sets DONE, only registers changing. 'Completes' says: exec answers the next state 'settle u', u being the state
after the command's own effect, and the stated facts hold of u. Rows: IDENT, HELLO, FINISH, IMAGE_TRANSFER_TIMEOUT,
SLEW_DONE, SESSION_IDLE_CLOSE, ATTEST_START, ATTEST_DONE.
R404, R405, R406, R421, R423, R428, R429. -/
def Obligations.SessionsComplete : Prop :=
  ∀ (s : State) (h : MgtHdr) (m : Master),
    (OnLane s h → Completes (.ident h) s fun u => u.out = s.out ++ [.mgt (mgtBytes none 0xA0 h.session h.counter 0 s.loaded.2.identBody)] ∧ u.mem = s.mem) ∧
    (∀ key nonce cert, OnLane s h → s.mgt.hellos.1 ≠ s.now / 1000000000 → s.clientRoles cert = 0 → Completes (.hello h key nonce cert) s fun u =>
      u.out = s.out ++ [.mgt (mgtBytes none 0x81 0 h.counter 1 [])] ∧ u.mgt.sess = s.mgt.sess) ∧
    (∀ key nonce cert, OnLane s h → s.mgt.hellos.1 ≠ s.now / 1000000000 → s.clientRoles cert ≠ 0 → s.lcs ≠ 5 → s.mgt.sess.length < 64 →
      Completes (.hello h key nonce cert) s fun u => ∃ x, u.mgt.sess = s.mgt.sess ++ [x] ∧ x.opened = false ∧ x.cert = cert ∧ x.roles = s.clientRoles cert ∧ x.used = s.now) ∧
    (∀ x sig, OnLane s h → s.sess h.session = some x → x.opened = false → Config.ecdsaVerify (certKey x.cert) x.transcript (nats sig) = true →
      Completes (.finish h sig) s fun u => u.sess h.session = some { x with opened := true, used := s.now, last := h.counter } ∧
        u.out = s.out ++ [.mgt (mgtBytes (some x) 0x83 x.id h.counter 0 [])]) ∧
    (∀ x sig, OnLane s h → s.sess h.session = some x → x.opened = false → Config.ecdsaVerify (certKey x.cert) x.transcript (nats sig) = false →
      Completes (.finish h sig) s fun u => u.sess h.session = none ∧ u.out = s.out) ∧
    Completes .imageTransferTimeout s (fun u => u = { s with sec := { s.sec with xfer := none } }) ∧
    (s.f F.CRU_TIME_STAT_STATE = 1 → s.mgt.remain = 0 → Completes .slewDone s fun u => u.f F.CRU_TIME_STAT_STATE = 2 ∧ { u with regs := s.regs } = s) ∧
    (s.f F.CRU_TIME_STAT_STATE ≠ 1 ∨ s.mgt.remain ≠ 0 → Completes .slewDone s fun u => u = s) ∧
    (∀ id, Completes (.sessionIdleClose id) s fun u => u.sess id = none ∧ u.mem = s.mem ∧ u.out = s.out) ∧
    (∀ k, k < 4 → s.f F.SEC_ATT_CTRL_BUSY k = 0 → s.f F.SEC_LCS_ZEROISING = 0 → Completes (.attestStart k m) s fun u =>
      u.f F.SEC_ATT_CTRL_BUSY k = 1 ∧ { u with regs := s.regs } = s) ∧
    (∀ k, k < 4 → s.f F.SEC_ATT_CTRL_BUSY k = 1 ∨ s.f F.SEC_LCS_ZEROISING = 1 → Completes (.attestStart k m) s fun u =>
      u.f F.SEC_ATT_CTRL_REFUSED k = 1 ∧ u.f F.SEC_ATT_CTRL_BUSY k = s.f F.SEC_ATT_CTRL_BUSY k ∧ { u with regs := s.regs } = s) ∧
    (∀ k, k < 4 → s.f F.SEC_ATT_CTRL_BUSY k = 1 → Completes (.attestDone k) s fun u =>
      u.f F.SEC_ATT_CTRL_BUSY k = 0 ∧ u.f F.SEC_ATT_CTRL_DONE k = 1 ∧ { u with regs := s.regs } = s)

/-- A first fragment of a message starts its collection; a time-out drops one message's fragments. A received frame is stored in
its ring slot, the place moves on and interrupt 385 is pending; one that finds the ring full is counted as dropped. A
transmitted frame leaves from its slot. A prefix advertisement adds an address; neighbour solicitation and echo of an own
address are answered. Identity, status, power and Tj over SMBus answer their bytes and count; the stop request in ON starts
an orderly stop with cause 6, elsewhere it sets STOP_IGNORED; a wrong PEC only sets PEC_ERR. A link change shows LINK_UP
while the lane is on. 'Completes' says: exec answers the next state 'settle u', u being the state after the command's own
effect, and the stated facts hold of u. Rows: MGT_FRAGMENT_RECEIVE, MGT_FRAGMENT_TIMEOUT, OS_FRAME_RECEIVE,
OS_FRAME_TRANSMIT, ROUTER_ADVERTISEMENT, NEIGHBOUR_DISCOVERY, ICMPV6_ECHO, SMB_READ_IDENTITY, SMB_READ_STATUS,
SMB_READ_POWER, SMB_READ_TJ, SMB_STOP_REQUEST, MGT_LINK_CHANGE.
R402, R408, R411, R412, R413, R503. -/
def Obligations.LaneComplete : Prop :=
  ∀ (s : State),
    (∀ src c, s.fab.inbox.find? (fun c => c.src == src && c.cls == 3) = some c → s.keelUp = true → cellByte c 0 < cellByte c 1 → 1 < cellByte c 1 →
      (∀ f ∈ s.mgt.frags, ¬ (f.src = src ∧ f.num = beNat (cut c.payload 2 2))) → Completes (.mgtFragmentReceive src) s fun u =>
        u.fab.inbox = s.fab.inbox.erase c ∧ u.mgt.frags = s.mgt.frags ++ [{ src := src, num := beNat (cut c.payload 2 2), count := cellByte c 1, time := s.now, parts := [(cellByte c 0, (c.payload.drop 4).take 60)] }]) ∧
    (∀ src num, Completes (.mgtFragmentTimeout src num) s fun u => (∀ f ∈ u.mgt.frags, ¬ (f.src = src ∧ f.num = num)) ∧ u.mem = s.mem ∧ u.regs = s.regs) ∧
    (∀ frame, s.keelUp = true → frame.length ≤ 1518 → s.osOn = true → let a := s.f F.CRU_MGT_OSQ_BASE + s.mgt.osRx % s.osSlots * 2048; s.inHbm a 2048 = true →
      Completes (.osFrameReceive frame false false) s fun u => u.mem = (s.store a frame).mem ∧ u.mgt.osRx = (s.mgt.osRx + 1) % s.osSlots ∧ 385 ∈ u.plic.pending) ∧
    (∀ frame full, s.keelUp = true → frame.length ≤ 1518 → s.osOn = true → full = true → Completes (.osFrameReceive frame false full) s fun u =>
      u.f F.CRU_MGT_CNT_FRAME_DROP = min (s.f F.CRU_MGT_CNT_FRAME_DROP + 1) (2 ^ F.CRU_MGT_CNT_FRAME_DROP.w - 1) ∧ { u with regs := s.regs } = s) ∧
    (∀ n, s.keelUp = true → s.osOn = true → n ≤ 1518 → let a := s.f F.CRU_MGT_OSQ_BASE + (s.osSlots + s.mgt.osTx % s.osSlots) * 2048; s.inHbm a 2048 = true →
      s.readNow a n 0 = true → Completes (.osFrameTransmit n) s fun u => u.out = s.out ++ [.frame (s.readBytes a n)] ∧ u.mgt.osTx = (s.mgt.osTx + 1) % s.osSlots ∧ u.mem = s.mem) ∧
    (∀ pre, s.keelUp = true → pre.length = 8 → s.mgt.addrs.length < 4 → s.mgt.addrs.contains (pre ++ s.eui) = false → Completes (.routerAdvertisement pre false) s fun u =>
      u.mgt.addrs = s.mgt.addrs ++ [pre ++ s.eui] ∧ u.f F.CRU_MGT_STAT_ADDR_GLOBAL = 1) ∧
    (∀ target, s.keelUp = true → s.ownAddrs.contains target = true → Completes (.neighbourDiscovery target false) s fun u =>
      u = { s with out := s.out ++ [.neighbour target (s.f F.CRU_MGT_MAC_MAC)] }) ∧
    (∀ target data, s.keelUp = true → s.ownAddrs.contains target = true → Completes (.icmpv6Echo target data false) s fun u => u = { s with out := s.out ++ [.echo data] }) ∧
    (OnSmb s → let t := s.bump F.CRU_SMB_STAT_TRANSACTIONS
      Completes (.smbReadIdentity true) s (fun u => u = { t with out := t.out ++ [.smb (leBytes 4 ((s.rd .CRU_ID).toNat % 4294967296) ++ leBytes 4 (serialNo % 4294967296))] }) ∧
      Completes (.smbReadStatus true) s (fun u => u = { t with out := t.out ++ [.smb (cut t.statusBody 8 12 ++ cut t.statusBody 48 4)] }) ∧
      Completes (.smbReadPower true) s (fun u => u = { t with out := t.out ++ [.smb (leBytes 2 (s.f F.PWR_IN_POWER_W))] }) ∧
      Completes (.smbReadTj true) s (fun u => u = { t with out := t.out ++ [.smb (leBytes 2 (s.f F.THM_STATUS_TJ_MAX))] })) ∧
    (OnSmb s → s.pwrState = 2 → Completes (.smbStopRequest 0xA5 true) s fun u => u.pwrState = 3 ∧ u.f F.PWR_STATE_STOP_CAUSE = 6) ∧
    (OnSmb s → s.pwrState ≠ 2 → Completes (.smbStopRequest 0xA5 true) s fun u => u.f F.CRU_SMB_STAT_STOP_IGNORED = 1 ∧ { u with regs := s.regs } = s) ∧
    (OnSmb s → Completes (.smbReadTj false) s fun u => u.f F.CRU_SMB_STAT_PEC_ERR = 1 ∧ { u with regs := s.regs } = s) ∧
    (∀ up, Completes (.mgtLinkChange up) s fun u => u.f F.CRU_MGT_STAT_LINK_UP = (if up && s.keelUp then 1 else 0) ∧ { u with regs := s.regs } = s)

/-- In power state ON: stage 1 with bad fuses fails with cause 2; stage 2 ends in stage 3 with RESET_N high outside SCRAPPED;
stage 7 ends in 8; stage 8 ends in 9 once all 408 domains are given; stage 9 ends in 10 with no tile store byte poisoned;
stage 11 ends in 12 with dispatch enabled and every wing of state 0 in state 2; stage 12 ends in 13 with hart 0 released and
no image on trial. In another power state nothing changes. The factory test in BLANK gives MAKER, keeps or sets the device
certificate and leaves no marker; in any other life-cycle state it changes nothing. 'Completes' says: exec answers the next
state 'settle u', u being the state after the command's own effect, and the stated facts hold of u. Rows: BOOT_STAGE_ADVANCE,
FACTORY_TEST_PROGRAM.
R11, R114, R145, R397, R398, R399, R425, R432. -/
def Obligations.BootComplete : Prop :=
  ∀ (s : State),
    (s.pwrState = 2 →
      (s.stage = 1 → s.lcs ≠ 0 → s.boot.trial = [] → Completes (.bootStageAdvance (.rom false)) s fun u => u.stage = 15 ∧ u.f F.CRU_BOOT_CAUSE = 2) ∧
      (s.stage = 2 → s.pins.resetN = true → s.lcs ≠ 5 → Completes (.bootStageAdvance .fuse) s fun u => u.stage = 3) ∧
      (s.stage = 7 → ∀ ws, Completes (.bootStageAdvance (.wings ws)) s fun u => u.stage = 8) ∧
      (s.stage = 8 → ∀ ds : List DomWork, 408 ≤ ds.length → Completes (.bootStageAdvance (.temper ds)) s fun u => u.stage = 9) ∧
      (s.stage = 9 → Completes (.bootStageAdvance .zero) s fun u => u.stage = 10 ∧
        ∀ x ∈ u.poison, ¬ (tileBase ≤ x ∧ x < tileBase + 64 * tileStride)) ∧
      (s.stage = 11 → Completes (.bootStageAdvance .dispatch) s fun u => u.stage = 12 ∧ u.f F.QE_CTRL_DISPATCH_EN = 1 ∧
        ∀ w < 64, u.wingState w = (if s.wingState w = 0 then 2 else s.wingState w)) ∧
      (s.stage = 12 → Completes (.bootStageAdvance .release) s fun u => u.stage = 13 ∧ u.boot.harts = [0] ∧ u.boot.trial = [])) ∧
    (∀ work, s.pwrState ≠ 2 → Completes (.bootStageAdvance work) s fun u => u = s) ∧
    (∀ cert images, s.lcs = 0 → Completes (.factoryTestProgram cert images) s fun u => u.lcs = 1 ∧ u.sec.deviceCert = (s.sec.deviceCert || cert) ∧ u.sec.marker = none) ∧
    (∀ cert images, s.lcs ≠ 0 → Completes (.factoryTestProgram cert images) s fun u => u = s)
end

