-- ==== Sys2Proof/Laws/Cells.lean ====
section
/-! SUPPORT. The canonical form of memory (addresses strictly rising, no entry equal to what an unlisted address reads as) is
kept by every operation over it. -/

namespace Sys2Proof.Machine

theorem cellSet_lt {m : List Host.Cell} {a : Nat} {b : Byte} {x : Nat} {v : Byte} (h : cellsWf ((x, v) :: m) = true) (hx : x < a) :
    cellsWf ((x, v) :: cellSet m a b) = true := by
  induction m generalizing x v with
  | nil =>
    unfold cellSet
    split
    · exact h
    · simp only [cellsWf, Bool.and_eq_true, decide_eq_true_eq, bne_iff_ne] at h ⊢
      exact ⟨⟨h, hx⟩, by assumption⟩
  | cons p t ih =>
    obtain ⟨y, w⟩ := p
    unfold cellSet
    have h' := h
    simp only [cellsWf, Bool.and_eq_true, decide_eq_true_eq, bne_iff_ne] at h
    obtain ⟨⟨hv, hxy⟩, ht⟩ := h
    split
    · split
      · exact h'
      · simp only [cellsWf, Bool.and_eq_true, decide_eq_true_eq, bne_iff_ne]
        refine ⟨⟨hv, hx⟩, ⟨by assumption, by omega⟩, ?_⟩
        cases t <;> simp_all [cellsWf]
    · split
      · split
        · cases t with
          | nil => simp_all [cellsWf]
          | cons r t => obtain ⟨z, u⟩ := r; simp only [cellsWf, Bool.and_eq_true, decide_eq_true_eq, bne_iff_ne] at ht ⊢
                        exact ⟨⟨hv, by omega⟩, ht.2⟩
        · subst_vars
          simp only [cellsWf, Bool.and_eq_true, decide_eq_true_eq, bne_iff_ne]
          refine ⟨⟨hv, by omega⟩, ?_⟩
          cases t <;> simp_all [cellsWf]
      · have := ih ht (by omega)
        simp only [cellsWf, Bool.and_eq_true, decide_eq_true_eq, bne_iff_ne]
        exact ⟨⟨hv, hxy⟩, this⟩

theorem cellsWf_tail {p : Host.Cell} {m : List Host.Cell} (h : cellsWf (p :: m) = true) : cellsWf m = true := by
  cases m with
  | nil => rfl
  | cons r t => simp only [cellsWf, Bool.and_eq_true] at h; exact h.2

theorem cellSet_wf (m : List Host.Cell) (a : Nat) (b : Byte) (h : cellsWf m = true) : cellsWf (cellSet m a b) = true := by
  cases m with
  | nil => unfold cellSet; split <;> simp_all [cellsWf]
  | cons p t =>
    obtain ⟨y, w⟩ := p
    unfold cellSet
    split
    · split
      · exact h
      · simp only [cellsWf, Bool.and_eq_true, decide_eq_true_eq, bne_iff_ne]
        exact ⟨⟨by assumption, by assumption⟩, h⟩
    · split
      · subst_vars
        split
        · exact cellsWf_tail h
        · cases t <;> simp_all [cellsWf]
      · exact cellSet_lt h (by omega)

theorem cellsWrite_wf (m : List Host.Cell) (a : Nat) (bs : List Byte) (h : cellsWf m = true) : cellsWf (cellsWrite m a bs) = true := by
  induction bs generalizing m a with
  | nil => exact h
  | cons b t ih => exact ih _ _ (cellSet_wf m a b h)

theorem cellsWf_cons {x : Nat} {v : Byte} {m : List Host.Cell} :
    cellsWf ((x, v) :: m) = true ↔ v ≠ 0 ∧ (∀ p ∈ m, x < p.1) ∧ cellsWf m = true := by
  induction m generalizing x v with
  | nil => simp [cellsWf]
  | cons p t ih =>
    obtain ⟨y, w⟩ := p
    simp only [cellsWf, Bool.and_eq_true, decide_eq_true_eq, bne_iff_ne]
    constructor
    · rintro ⟨⟨hv, hxy⟩, ht⟩
      refine ⟨hv, ?_, ht⟩
      intro p hp
      rcases List.mem_cons.mp hp with rfl | hp
      · exact hxy
      · exact Nat.lt_trans hxy ((ih.mp ht).2.1 p hp)
    · rintro ⟨hv, hx, ht⟩
      exact ⟨⟨hv, hx (y, w) List.mem_cons_self⟩, ht⟩

theorem cells_filter_wf (p : Host.Cell → Bool) (m : List Host.Cell) (h : cellsWf m = true) : cellsWf (m.filter p) = true := by
  induction m with
  | nil => rfl
  | cons c t ih =>
    obtain ⟨x, v⟩ := c
    obtain ⟨hv, hx, ht⟩ := cellsWf_cons.mp h
    rw [List.filter_cons]
    split
    · exact cellsWf_cons.mpr ⟨hv, fun p hp => hx p (List.mem_filter.mp hp).1, ih ht⟩
    · exact ih ht

theorem cellsZero_wf (m : List Host.Cell) (lo n : Nat) (h : cellsWf m = true) : cellsWf (cellsZero m lo n) = true :=
  cells_filter_wf _ m h

theorem cellsCopy_wf (m : List Host.Cell) (src dst n : Nat) (h : cellsWf m = true) : cellsWf (cellsCopy m src dst n) = true := by
  unfold cellsCopy
  generalize m.filter _ = l
  have hz := cellsZero_wf m dst n h
  generalize cellsZero m dst n = z at hz
  induction l generalizing z with
  | nil => exact hz
  | cons c t ih => exact ih _ (cellSet_wf _ _ _ hz)
end Sys2Proof.Machine
end

