-- ==== Sys2Proof/Laws/State.lean ====
section
/-! SUPPORT. Reading the state after an update: maps, bit fields of a word, registers and their fields, and every field of
`State` after the operations that most meanings use. Register facts close with `simp (disch := decide)`. -/

namespace Sys2Proof.Machine

/-! ### Maps -/

theorem mget_mset_same {κ ν : Type} [DecidableEq κ] (m : List (κ × ν)) (k : κ) (v : ν) : mget (mset m k v) k = some v := by
  induction m with
  | nil => simp [mset, mget]
  | cons p t ih =>
    obtain ⟨x, y⟩ := p
    by_cases h : x = k
    · simp [mset, mget, h]
    · simp [mset, mget, h, ih]

theorem mget_mset_ne {κ ν : Type} [DecidableEq κ] (m : List (κ × ν)) {k k' : κ} (v : ν) (h : k ≠ k') :
    mget (mset m k v) k' = mget m k' := by
  induction m with
  | nil => simp [mset, mget, h]
  | cons p t ih =>
    obtain ⟨x, y⟩ := p
    by_cases hx : x = k
    · subst hx
      simp [mset, mget, h]
    · simp [mset, mget, hx, ih]

@[simp] theorem mgetD_mset_same {κ ν : Type} [DecidableEq κ] (m : List (κ × ν)) (k : κ) (v d : ν) : mgetD (mset m k v) k d = v := by
  simp [mgetD, mget_mset_same]

theorem mgetD_mset_ne {κ ν : Type} [DecidableEq κ] (m : List (κ × ν)) {k k' : κ} (v d : ν) (h : k ≠ k') :
    mgetD (mset m k v) k' d = mgetD m k' d := by
  simp [mgetD, mget_mset_ne m v h]

/-! ### Bit fields of a word -/

theorem testBit_getBits (x : Word) (l w n : Nat) : (getBits x l w).testBit n = (decide (n < w) && x.getLsbD (l + n)) := by
  simp [getBits, Nat.testBit_mod_two_pow, Nat.testBit_shiftRight, BitVec.getLsbD]

theorem getLsbD_setBits (x : Word) (l w v n : Nat) (hw : l + w ≤ 64) :
    (setBits x l w v).getLsbD n = if l ≤ n ∧ n < l + w then v.testBit (n - l) else x.getLsbD n := by
  unfold setBits
  by_cases hn : n < 64
  · have h0 : n - l < 64 := by omega
    simp only [BitVec.getLsbD_or, BitVec.getLsbD_and, BitVec.getLsbD_not, BitVec.getLsbD_shiftLeft, BitVec.getLsbD_ofNat,
      Nat.testBit_two_pow_sub_one, Nat.testBit_mod_two_pow, hn, h0, decide_true, Bool.true_and]
    by_cases h1 : l ≤ n
    · by_cases h2 : n < l + w
      · have : n - l < w := by omega
        have h3 : ¬ n < l := by omega
        simp [h1, h2, this, h3]
      · have : ¬ n - l < w := by omega
        simp [h2, this]
    · have : n < l := by omega
      simp [h1, this]
  · have : ¬ (l ≤ n ∧ n < l + w) := by omega
    rw [if_neg this, BitVec.getLsbD_of_ge _ n (by omega), BitVec.getLsbD_of_ge _ n (by omega)]

/-- A field reads as what was written into it. -/
theorem getBits_setBits_same (x : Word) (l w v : Nat) (hw : l + w ≤ 64) : getBits (setBits x l w v) l w = v % 2 ^ w := by
  apply Nat.eq_of_testBit_eq
  intro n
  rw [testBit_getBits, getLsbD_setBits _ _ _ _ _ hw, Nat.testBit_mod_two_pow]
  by_cases h : n < w
  · simp [h]
  · simp [h]

/-- Writing a field leaves a disjoint field alone. -/
theorem getBits_setBits_ne (x : Word) (l w v l' w' : Nat) (hw : l + w ≤ 64) (h : l + w ≤ l' ∨ l' + w' ≤ l) :
    getBits (setBits x l w v) l' w' = getBits x l' w' := by
  apply Nat.eq_of_testBit_eq
  intro n
  rw [testBit_getBits, testBit_getBits, getLsbD_setBits _ _ _ _ _ hw]
  by_cases h' : n < w'
  · have : ¬ (l ≤ l' + n ∧ l' + n < l + w) := by omega
    simp [this]
  · simp [h']

/-! ### Registers -/

theorem State.rd_wr_same (s : State) (n : RegName) (v : Word) (i j : Nat) : (s.wr n v i j).rd n i j = v := by
  simp [State.rd, State.wr]

/-- Which fuse maps are loaded depends on no register but CRU_BOOT (R11). -/
theorem State.fusesIn_wr (s : State) (n : RegName) (v : Word) (i j : Nat) (k : RegKey) (h : n ≠ .CRU_BOOT) :
    (s.wr n v i j).fusesIn k = s.fusesIn k := by
  have : (⟨n, i, j⟩ : RegKey) ≠ ⟨.CRU_BOOT, 0, 0⟩ := fun e => h (RegKey.mk.inj e).1
  simp only [State.fusesIn, State.wr, mgetD_mset_ne _ _ _ this]

theorem State.rd_wr_reg (s : State) {n n' : RegName} (v : Word) (i j a b : Nat) (h : n ≠ n') (hb : n ≠ .CRU_BOOT) :
    (s.wr n v i j).rd n' a b = s.rd n' a b := by
  have : (⟨n, i, j⟩ : RegKey) ≠ ⟨n', a, b⟩ := fun e => h (RegKey.mk.inj e).1
  unfold State.rd
  rw [State.fusesIn_wr _ _ _ _ _ _ hb]
  exact mgetD_mset_ne _ _ _ this

theorem State.rd_wr_idx (s : State) (n n' : RegName) (v : Word) {i j a b : Nat} (h : i ≠ a ∨ j ≠ b) (hb : n ≠ .CRU_BOOT) :
    (s.wr n v i j).rd n' a b = s.rd n' a b := by
  have : (⟨n, i, j⟩ : RegKey) ≠ ⟨n', a, b⟩ := fun e => by cases e; simp at h
  unfold State.rd
  rw [State.fusesIn_wr _ _ _ _ _ _ hb]
  exact mgetD_mset_ne _ _ _ this

/-- A field reads as what was written into it. -/
theorem State.f_setF_same (s : State) (x : Fld) (v i j : Nat) (h : x.lsb + x.w ≤ 64) : (s.setF x v i j).f x i j = v % 2 ^ x.w := by
  unfold State.f State.setF
  rw [State.rd_wr_same, getBits_setBits_same _ _ _ _ h]

/-- Writing a field leaves every other register alone. -/
theorem State.f_setF_reg (s : State) (x y : Fld) (v i j a b : Nat) (h : x.reg ≠ y.reg) (hb : x.reg ≠ .CRU_BOOT) :
    (s.setF x v i j).f y a b = s.f y a b := by
  unfold State.f State.setF
  rw [State.rd_wr_reg _ _ _ _ _ _ h hb]

/-- Writing a field leaves every other instance of its register alone. -/
theorem State.f_setF_idx (s : State) (x y : Fld) (v : Nat) {i j a b : Nat} (h : i ≠ a ∨ j ≠ b) (hb : x.reg ≠ .CRU_BOOT) :
    (s.setF x v i j).f y a b = s.f y a b := by
  unfold State.f State.setF
  rw [State.rd_wr_idx _ _ _ _ h hb]

/-- Writing a field leaves a disjoint field of any instance of its register alone. -/
theorem State.f_setF_bits (s : State) (x y : Fld) (v i j a b : Nat) (hr : x.reg = y.reg) (hb : x.reg ≠ .CRU_BOOT)
    (hw : x.lsb + x.w ≤ 64) (h : x.lsb + x.w ≤ y.lsb ∨ y.lsb + y.w ≤ x.lsb) : (s.setF x v i j).f y a b = s.f y a b := by
  by_cases hi : i = a ∧ j = b
  · obtain ⟨rfl, rfl⟩ := hi
    unfold State.f State.setF
    rw [← hr, State.rd_wr_same, getBits_setBits_ne _ _ _ _ _ _ hw h]
  · have : i ≠ a ∨ j ≠ b := by
      by_cases h1 : i = a
      · exact .inr fun h2 => hi ⟨h1, h2⟩
      · exact .inl h1
    unfold State.f State.setF
    rw [State.rd_wr_idx _ _ _ _ this hb]

theorem resetWord_boot (st : Nat) (b : Bool) : resetWord ⟨.CRU_BOOT, 0, 0⟩ st b = 0x20000 := by
  simp only [resetWord, RegName.info, infoCRU_BOOT, List.foldl]
  decide

theorem State.rd_boot (s : State) : s.rd .CRU_BOOT = mgetD s.regs ⟨.CRU_BOOT, 0, 0⟩ 0x20000 := by
  unfold State.rd
  rw [resetWord_boot]

/-- A write of CRU_BOOT outside bits 16 to 18 leaves the loaded fuse maps as they are. -/
theorem State.fusesIn_setF_boot (s : State) (x : Fld) (v : Nat) (k : RegKey) (hx : x.reg = .CRU_BOOT) (hw : x.lsb + x.w ≤ 64)
    (h16 : x.lsb + x.w ≤ 16 ∨ 19 ≤ x.lsb) : (s.setF x v).fusesIn k = s.fusesIn k := by
  have hb : mgetD (s.setF x v).regs ⟨.CRU_BOOT, 0, 0⟩ 0x20000 = setBits (mgetD s.regs ⟨.CRU_BOOT, 0, 0⟩ 0x20000) x.lsb x.w v := by
    unfold State.setF State.wr
    rw [hx, mgetD_mset_same, State.rd_boot]
  have he : (s.setF x v).engFused = s.engFused := rfl
  unfold State.fusesIn
  rw [hb, he]
  dsimp only
  rw [getBits_setBits_ne _ _ _ _ _ _ hw (by omega), getBits_setBits_ne _ _ _ _ _ _ hw (by omega)]

/-- Writing a field of CRU_BOOT outside bits 16 to 18 leaves every other register alone. -/
theorem State.f_setF_boot (s : State) (x y : Fld) (v a b : Nat) (hx : x.reg = .CRU_BOOT) (hw : x.lsb + x.w ≤ 64)
    (h16 : x.lsb + x.w ≤ 16 ∨ 19 ≤ x.lsb) (h : x.reg ≠ y.reg) : (s.setF x v).f y a b = s.f y a b := by
  have : (⟨x.reg, 0, 0⟩ : RegKey) ≠ ⟨y.reg, a, b⟩ := fun e => h (RegKey.mk.inj e).1
  unfold State.f State.rd
  rw [State.fusesIn_setF_boot s x v _ hx hw h16]
  exact congrArg (fun z => getBits z y.lsb y.w) (mgetD_mset_ne _ _ _ this)

/-- Writing a field of CRU_BOOT leaves its other fields alone. -/
theorem State.f_setF_boot_bits (s : State) (x y : Fld) (v : Nat) (hx : x.reg = .CRU_BOOT) (hy : y.reg = .CRU_BOOT)
    (hw : x.lsb + x.w ≤ 64) (h : x.lsb + x.w ≤ y.lsb ∨ y.lsb + y.w ≤ x.lsb) : (s.setF x v).f y = s.f y := by
  unfold State.f State.setF
  rw [hx, hy, State.rd_wr_same, getBits_setBits_ne _ _ _ _ _ _ hw h]

/-- Where two writes differ only in value, the second counts. -/
theorem State.rd_setF_same (s : State) (x : Fld) (v i j : Nat) : (s.setF x v i j).rd x.reg i j = setBits (s.rd x.reg i j) x.lsb x.w v :=
  State.rd_wr_same _ _ _ _ _

/-- A count that has not reached its end goes up by its step. -/
theorem State.f_bump_same (s : State) (x : Fld) (k i j : Nat) (h : x.lsb + x.w ≤ 64) :
    (s.bump x k i j).f x i j = min (s.f x i j + k) (2 ^ x.w - 1) := by
  unfold State.bump satAdd
  rw [State.f_setF_same _ _ _ _ _ h]
  refine Nat.mod_eq_of_lt ?_
  have := Nat.two_pow_pos x.w
  omega

theorem State.f_bump_reg (s : State) (x y : Fld) (k i j a b : Nat) (h : x.reg ≠ y.reg) (hb : x.reg ≠ .CRU_BOOT) :
    (s.bump x k i j).f y a b = s.f y a b := State.f_setF_reg _ _ _ _ _ _ _ _ h hb

theorem State.f_bump_bits (s : State) (x y : Fld) (k i j a b : Nat) (hr : x.reg = y.reg) (hb : x.reg ≠ .CRU_BOOT)
    (hw : x.lsb + x.w ≤ 64) (h : x.lsb + x.w ≤ y.lsb ∨ y.lsb + y.w ≤ x.lsb) : (s.bump x k i j).f y a b = s.f y a b :=
  State.f_setF_bits _ _ _ _ _ _ _ _ hr hb hw h

/-- A field is below 2 to its width. -/
theorem State.f_lt (s : State) (x : Fld) (i j : Nat) : s.f x i j < 2 ^ x.w := Nat.mod_lt _ (Nat.two_pow_pos _)

/-! ### What follows by itself -/

theorem settle_of_quiet {s : State} (h : s.quiet = true) : settle s = s := by
  unfold settle
  generalize 8 + s.eye.react.length + s.fab.events.length = n
  cases n with
  | zero => rfl
  | succ n => unfold settleN; rw [if_pos h]

theorem done_of_quiet {s : State} (h : s.quiet = true) : done s = .next s := by
  unfold done
  rw [settle_of_quiet h]

theorem onUnit_true (k : Host.Outcome State Fault Refusal) : onUnit true k = k := rfl

/-! ### Every field of the state after each operation -/

@[simp] theorem State.wr_pending (s : State) (n : RegName) (v : Word) (i j : Nat) : (s.wr n v i j).pending = s.pending := rfl
@[simp] theorem State.setF_pending (s : State) (x : Fld) (v i j : Nat) : (s.setF x v i j).pending = s.pending := rfl
@[simp] theorem State.bump_pending (s : State) (x : Fld) (k i j : Nat) : (s.bump x k i j).pending = s.pending := rfl
@[simp] theorem State.send_pending (s : State) (m : OutMsg) : (s.send m).pending = s.pending := rfl
@[simp] theorem State.draw_pending (s : State) : s.draw.2.pending = s.pending := rfl

@[simp] theorem State.send_regs (s : State) (m : OutMsg) : (s.send m).regs = s.regs := rfl
@[simp] theorem State.draw_regs (s : State) : s.draw.2.regs = s.regs := rfl

@[simp] theorem State.wr_mem (s : State) (n : RegName) (v : Word) (i j : Nat) : (s.wr n v i j).mem = s.mem := rfl
@[simp] theorem State.setF_mem (s : State) (x : Fld) (v i j : Nat) : (s.setF x v i j).mem = s.mem := rfl
@[simp] theorem State.bump_mem (s : State) (x : Fld) (k i j : Nat) : (s.bump x k i j).mem = s.mem := rfl
@[simp] theorem State.send_mem (s : State) (m : OutMsg) : (s.send m).mem = s.mem := rfl
@[simp] theorem State.draw_mem (s : State) : s.draw.2.mem = s.mem := rfl

@[simp] theorem State.wr_poison (s : State) (n : RegName) (v : Word) (i j : Nat) : (s.wr n v i j).poison = s.poison := rfl
@[simp] theorem State.setF_poison (s : State) (x : Fld) (v i j : Nat) : (s.setF x v i j).poison = s.poison := rfl
@[simp] theorem State.bump_poison (s : State) (x : Fld) (k i j : Nat) : (s.bump x k i j).poison = s.poison := rfl
@[simp] theorem State.send_poison (s : State) (m : OutMsg) : (s.send m).poison = s.poison := rfl
@[simp] theorem State.draw_poison (s : State) : s.draw.2.poison = s.poison := rfl

@[simp] theorem State.wr_latent (s : State) (n : RegName) (v : Word) (i j : Nat) : (s.wr n v i j).latent = s.latent := rfl
@[simp] theorem State.setF_latent (s : State) (x : Fld) (v i j : Nat) : (s.setF x v i j).latent = s.latent := rfl
@[simp] theorem State.bump_latent (s : State) (x : Fld) (k i j : Nat) : (s.bump x k i j).latent = s.latent := rfl
@[simp] theorem State.send_latent (s : State) (m : OutMsg) : (s.send m).latent = s.latent := rfl
@[simp] theorem State.draw_latent (s : State) : s.draw.2.latent = s.latent := rfl

@[simp] theorem State.wr_free (s : State) (n : RegName) (v : Word) (i j : Nat) : (s.wr n v i j).free = s.free := rfl
@[simp] theorem State.setF_free (s : State) (x : Fld) (v i j : Nat) : (s.setF x v i j).free = s.free := rfl
@[simp] theorem State.bump_free (s : State) (x : Fld) (k i j : Nat) : (s.bump x k i j).free = s.free := rfl
@[simp] theorem State.send_free (s : State) (m : OutMsg) : (s.send m).free = s.free := rfl

@[simp] theorem State.wr_busReply (s : State) (n : RegName) (v : Word) (i j : Nat) : (s.wr n v i j).busReply = s.busReply := rfl
@[simp] theorem State.setF_busReply (s : State) (x : Fld) (v i j : Nat) : (s.setF x v i j).busReply = s.busReply := rfl
@[simp] theorem State.bump_busReply (s : State) (x : Fld) (k i j : Nat) : (s.bump x k i j).busReply = s.busReply := rfl
@[simp] theorem State.send_busReply (s : State) (m : OutMsg) : (s.send m).busReply = s.busReply := rfl
@[simp] theorem State.draw_busReply (s : State) : s.draw.2.busReply = s.busReply := rfl

@[simp] theorem State.wr_out (s : State) (n : RegName) (v : Word) (i j : Nat) : (s.wr n v i j).out = s.out := rfl
@[simp] theorem State.setF_out (s : State) (x : Fld) (v i j : Nat) : (s.setF x v i j).out = s.out := rfl
@[simp] theorem State.bump_out (s : State) (x : Fld) (k i j : Nat) : (s.bump x k i j).out = s.out := rfl
@[simp] theorem State.draw_out (s : State) : s.draw.2.out = s.out := rfl

@[simp] theorem State.wr_poweredH (s : State) (n : RegName) (v : Word) (i j : Nat) : (s.wr n v i j).poweredH = s.poweredH := rfl
@[simp] theorem State.setF_poweredH (s : State) (x : Fld) (v i j : Nat) : (s.setF x v i j).poweredH = s.poweredH := rfl
@[simp] theorem State.bump_poweredH (s : State) (x : Fld) (k i j : Nat) : (s.bump x k i j).poweredH = s.poweredH := rfl
@[simp] theorem State.send_poweredH (s : State) (m : OutMsg) : (s.send m).poweredH = s.poweredH := rfl
@[simp] theorem State.draw_poweredH (s : State) : s.draw.2.poweredH = s.poweredH := rfl

@[simp] theorem State.wr_fuses (s : State) (n : RegName) (v : Word) (i j : Nat) : (s.wr n v i j).fuses = s.fuses := rfl
@[simp] theorem State.setF_fuses (s : State) (x : Fld) (v i j : Nat) : (s.setF x v i j).fuses = s.fuses := rfl
@[simp] theorem State.bump_fuses (s : State) (x : Fld) (k i j : Nat) : (s.bump x k i j).fuses = s.fuses := rfl
@[simp] theorem State.send_fuses (s : State) (m : OutMsg) : (s.send m).fuses = s.fuses := rfl
@[simp] theorem State.draw_fuses (s : State) : s.draw.2.fuses = s.fuses := rfl

@[simp] theorem State.wr_pins (s : State) (n : RegName) (v : Word) (i j : Nat) : (s.wr n v i j).pins = s.pins := rfl
@[simp] theorem State.setF_pins (s : State) (x : Fld) (v i j : Nat) : (s.setF x v i j).pins = s.pins := rfl
@[simp] theorem State.bump_pins (s : State) (x : Fld) (k i j : Nat) : (s.bump x k i j).pins = s.pins := rfl
@[simp] theorem State.send_pins (s : State) (m : OutMsg) : (s.send m).pins = s.pins := rfl
@[simp] theorem State.draw_pins (s : State) : s.draw.2.pins = s.pins := rfl

@[simp] theorem State.wr_margin (s : State) (n : RegName) (v : Word) (i j : Nat) : (s.wr n v i j).margin = s.margin := rfl
@[simp] theorem State.setF_margin (s : State) (x : Fld) (v i j : Nat) : (s.setF x v i j).margin = s.margin := rfl
@[simp] theorem State.bump_margin (s : State) (x : Fld) (k i j : Nat) : (s.bump x k i j).margin = s.margin := rfl
@[simp] theorem State.send_margin (s : State) (m : OutMsg) : (s.send m).margin = s.margin := rfl
@[simp] theorem State.draw_margin (s : State) : s.draw.2.margin = s.margin := rfl

@[simp] theorem State.wr_eye (s : State) (n : RegName) (v : Word) (i j : Nat) : (s.wr n v i j).eye = s.eye := rfl
@[simp] theorem State.setF_eye (s : State) (x : Fld) (v i j : Nat) : (s.setF x v i j).eye = s.eye := rfl
@[simp] theorem State.bump_eye (s : State) (x : Fld) (k i j : Nat) : (s.bump x k i j).eye = s.eye := rfl
@[simp] theorem State.send_eye (s : State) (m : OutMsg) : (s.send m).eye = s.eye := rfl
@[simp] theorem State.draw_eye (s : State) : s.draw.2.eye = s.eye := rfl

@[simp] theorem State.wr_wings (s : State) (n : RegName) (v : Word) (i j : Nat) : (s.wr n v i j).wings = s.wings := rfl
@[simp] theorem State.setF_wings (s : State) (x : Fld) (v i j : Nat) : (s.setF x v i j).wings = s.wings := rfl
@[simp] theorem State.bump_wings (s : State) (x : Fld) (k i j : Nat) : (s.bump x k i j).wings = s.wings := rfl
@[simp] theorem State.send_wings (s : State) (m : OutMsg) : (s.send m).wings = s.wings := rfl
@[simp] theorem State.draw_wings (s : State) : s.draw.2.wings = s.wings := rfl

@[simp] theorem State.wr_insts (s : State) (n : RegName) (v : Word) (i j : Nat) : (s.wr n v i j).insts = s.insts := rfl
@[simp] theorem State.setF_insts (s : State) (x : Fld) (v i j : Nat) : (s.setF x v i j).insts = s.insts := rfl
@[simp] theorem State.bump_insts (s : State) (x : Fld) (k i j : Nat) : (s.bump x k i j).insts = s.insts := rfl
@[simp] theorem State.send_insts (s : State) (m : OutMsg) : (s.send m).insts = s.insts := rfl
@[simp] theorem State.draw_insts (s : State) : s.draw.2.insts = s.insts := rfl

@[simp] theorem State.wr_nextInst (s : State) (n : RegName) (v : Word) (i j : Nat) : (s.wr n v i j).nextInst = s.nextInst := rfl
@[simp] theorem State.setF_nextInst (s : State) (x : Fld) (v i j : Nat) : (s.setF x v i j).nextInst = s.nextInst := rfl
@[simp] theorem State.bump_nextInst (s : State) (x : Fld) (k i j : Nat) : (s.bump x k i j).nextInst = s.nextInst := rfl
@[simp] theorem State.send_nextInst (s : State) (m : OutMsg) : (s.send m).nextInst = s.nextInst := rfl
@[simp] theorem State.draw_nextInst (s : State) : s.draw.2.nextInst = s.nextInst := rfl

@[simp] theorem State.wr_nmi (s : State) (n : RegName) (v : Word) (i j : Nat) : (s.wr n v i j).nmi = s.nmi := rfl
@[simp] theorem State.setF_nmi (s : State) (x : Fld) (v i j : Nat) : (s.setF x v i j).nmi = s.nmi := rfl
@[simp] theorem State.bump_nmi (s : State) (x : Fld) (k i j : Nat) : (s.bump x k i j).nmi = s.nmi := rfl
@[simp] theorem State.send_nmi (s : State) (m : OutMsg) : (s.send m).nmi = s.nmi := rfl
@[simp] theorem State.draw_nmi (s : State) : s.draw.2.nmi = s.nmi := rfl

@[simp] theorem State.wr_engFused (s : State) (n : RegName) (v : Word) (i j : Nat) : (s.wr n v i j).engFused = s.engFused := rfl
@[simp] theorem State.setF_engFused (s : State) (x : Fld) (v i j : Nat) : (s.setF x v i j).engFused = s.engFused := rfl
@[simp] theorem State.bump_engFused (s : State) (x : Fld) (k i j : Nat) : (s.bump x k i j).engFused = s.engFused := rfl
@[simp] theorem State.send_engFused (s : State) (m : OutMsg) : (s.send m).engFused = s.engFused := rfl
@[simp] theorem State.draw_engFused (s : State) : s.draw.2.engFused = s.engFused := rfl

@[simp] theorem State.wr_qe (s : State) (n : RegName) (v : Word) (i j : Nat) : (s.wr n v i j).qe = s.qe := rfl
@[simp] theorem State.setF_qe (s : State) (x : Fld) (v i j : Nat) : (s.setF x v i j).qe = s.qe := rfl
@[simp] theorem State.bump_qe (s : State) (x : Fld) (k i j : Nat) : (s.bump x k i j).qe = s.qe := rfl
@[simp] theorem State.send_qe (s : State) (m : OutMsg) : (s.send m).qe = s.qe := rfl
@[simp] theorem State.draw_qe (s : State) : s.draw.2.qe = s.qe := rfl

@[simp] theorem State.wr_ms (s : State) (n : RegName) (v : Word) (i j : Nat) : (s.wr n v i j).ms = s.ms := rfl
@[simp] theorem State.setF_ms (s : State) (x : Fld) (v i j : Nat) : (s.setF x v i j).ms = s.ms := rfl
@[simp] theorem State.bump_ms (s : State) (x : Fld) (k i j : Nat) : (s.bump x k i j).ms = s.ms := rfl
@[simp] theorem State.send_ms (s : State) (m : OutMsg) : (s.send m).ms = s.ms := rfl
@[simp] theorem State.draw_ms (s : State) : s.draw.2.ms = s.ms := rfl

@[simp] theorem State.wr_plic (s : State) (n : RegName) (v : Word) (i j : Nat) : (s.wr n v i j).plic = s.plic := rfl
@[simp] theorem State.setF_plic (s : State) (x : Fld) (v i j : Nat) : (s.setF x v i j).plic = s.plic := rfl
@[simp] theorem State.bump_plic (s : State) (x : Fld) (k i j : Nat) : (s.bump x k i j).plic = s.plic := rfl
@[simp] theorem State.send_plic (s : State) (m : OutMsg) : (s.send m).plic = s.plic := rfl
@[simp] theorem State.draw_plic (s : State) : s.draw.2.plic = s.plic := rfl

@[simp] theorem State.wr_injLeft (s : State) (n : RegName) (v : Word) (i j : Nat) : (s.wr n v i j).injLeft = s.injLeft := rfl
@[simp] theorem State.setF_injLeft (s : State) (x : Fld) (v i j : Nat) : (s.setF x v i j).injLeft = s.injLeft := rfl
@[simp] theorem State.bump_injLeft (s : State) (x : Fld) (k i j : Nat) : (s.bump x k i j).injLeft = s.injLeft := rfl
@[simp] theorem State.send_injLeft (s : State) (m : OutMsg) : (s.send m).injLeft = s.injLeft := rfl
@[simp] theorem State.draw_injLeft (s : State) : s.draw.2.injLeft = s.injLeft := rfl

@[simp] theorem State.wr_d2d (s : State) (n : RegName) (v : Word) (i j : Nat) : (s.wr n v i j).d2d = s.d2d := rfl
@[simp] theorem State.setF_d2d (s : State) (x : Fld) (v i j : Nat) : (s.setF x v i j).d2d = s.d2d := rfl
@[simp] theorem State.bump_d2d (s : State) (x : Fld) (k i j : Nat) : (s.bump x k i j).d2d = s.d2d := rfl
@[simp] theorem State.send_d2d (s : State) (m : OutMsg) : (s.send m).d2d = s.d2d := rfl
@[simp] theorem State.draw_d2d (s : State) : s.draw.2.d2d = s.d2d := rfl

@[simp] theorem State.wr_le (s : State) (n : RegName) (v : Word) (i j : Nat) : (s.wr n v i j).le = s.le := rfl
@[simp] theorem State.setF_le (s : State) (x : Fld) (v i j : Nat) : (s.setF x v i j).le = s.le := rfl
@[simp] theorem State.bump_le (s : State) (x : Fld) (k i j : Nat) : (s.bump x k i j).le = s.le := rfl
@[simp] theorem State.send_le (s : State) (m : OutMsg) : (s.send m).le = s.le := rfl
@[simp] theorem State.draw_le (s : State) : s.draw.2.le = s.le := rfl

@[simp] theorem State.wr_fab (s : State) (n : RegName) (v : Word) (i j : Nat) : (s.wr n v i j).fab = s.fab := rfl
@[simp] theorem State.setF_fab (s : State) (x : Fld) (v i j : Nat) : (s.setF x v i j).fab = s.fab := rfl
@[simp] theorem State.bump_fab (s : State) (x : Fld) (k i j : Nat) : (s.bump x k i j).fab = s.fab := rfl
@[simp] theorem State.send_fab (s : State) (m : OutMsg) : (s.send m).fab = s.fab := rfl
@[simp] theorem State.draw_fab (s : State) : s.draw.2.fab = s.fab := rfl

@[simp] theorem State.wr_tray (s : State) (n : RegName) (v : Word) (i j : Nat) : (s.wr n v i j).tray = s.tray := rfl
@[simp] theorem State.setF_tray (s : State) (x : Fld) (v i j : Nat) : (s.setF x v i j).tray = s.tray := rfl
@[simp] theorem State.bump_tray (s : State) (x : Fld) (k i j : Nat) : (s.bump x k i j).tray = s.tray := rfl
@[simp] theorem State.send_tray (s : State) (m : OutMsg) : (s.send m).tray = s.tray := rfl
@[simp] theorem State.draw_tray (s : State) : s.draw.2.tray = s.tray := rfl

@[simp] theorem State.wr_res (s : State) (n : RegName) (v : Word) (i j : Nat) : (s.wr n v i j).res = s.res := rfl
@[simp] theorem State.setF_res (s : State) (x : Fld) (v i j : Nat) : (s.setF x v i j).res = s.res := rfl
@[simp] theorem State.bump_res (s : State) (x : Fld) (k i j : Nat) : (s.bump x k i j).res = s.res := rfl
@[simp] theorem State.send_res (s : State) (m : OutMsg) : (s.send m).res = s.res := rfl
@[simp] theorem State.draw_res (s : State) : s.draw.2.res = s.res := rfl

@[simp] theorem State.wr_coll (s : State) (n : RegName) (v : Word) (i j : Nat) : (s.wr n v i j).coll = s.coll := rfl
@[simp] theorem State.setF_coll (s : State) (x : Fld) (v i j : Nat) : (s.setF x v i j).coll = s.coll := rfl
@[simp] theorem State.bump_coll (s : State) (x : Fld) (k i j : Nat) : (s.bump x k i j).coll = s.coll := rfl
@[simp] theorem State.send_coll (s : State) (m : OutMsg) : (s.send m).coll = s.coll := rfl
@[simp] theorem State.draw_coll (s : State) : s.draw.2.coll = s.coll := rfl

@[simp] theorem State.wr_resv (s : State) (n : RegName) (v : Word) (i j : Nat) : (s.wr n v i j).resv = s.resv := rfl
@[simp] theorem State.setF_resv (s : State) (x : Fld) (v i j : Nat) : (s.setF x v i j).resv = s.resv := rfl
@[simp] theorem State.bump_resv (s : State) (x : Fld) (k i j : Nat) : (s.bump x k i j).resv = s.resv := rfl
@[simp] theorem State.send_resv (s : State) (m : OutMsg) : (s.send m).resv = s.resv := rfl
@[simp] theorem State.draw_resv (s : State) : s.draw.2.resv = s.resv := rfl

@[simp] theorem State.wr_pw (s : State) (n : RegName) (v : Word) (i j : Nat) : (s.wr n v i j).pw = s.pw := rfl
@[simp] theorem State.setF_pw (s : State) (x : Fld) (v i j : Nat) : (s.setF x v i j).pw = s.pw := rfl
@[simp] theorem State.bump_pw (s : State) (x : Fld) (k i j : Nat) : (s.bump x k i j).pw = s.pw := rfl
@[simp] theorem State.send_pw (s : State) (m : OutMsg) : (s.send m).pw = s.pw := rfl
@[simp] theorem State.draw_pw (s : State) : s.draw.2.pw = s.pw := rfl

@[simp] theorem State.wr_boot (s : State) (n : RegName) (v : Word) (i j : Nat) : (s.wr n v i j).boot = s.boot := rfl
@[simp] theorem State.setF_boot (s : State) (x : Fld) (v i j : Nat) : (s.setF x v i j).boot = s.boot := rfl
@[simp] theorem State.bump_boot (s : State) (x : Fld) (k i j : Nat) : (s.bump x k i j).boot = s.boot := rfl
@[simp] theorem State.send_boot (s : State) (m : OutMsg) : (s.send m).boot = s.boot := rfl
@[simp] theorem State.draw_boot (s : State) : s.draw.2.boot = s.boot := rfl

@[simp] theorem State.wr_sec (s : State) (n : RegName) (v : Word) (i j : Nat) : (s.wr n v i j).sec = s.sec := rfl
@[simp] theorem State.setF_sec (s : State) (x : Fld) (v i j : Nat) : (s.setF x v i j).sec = s.sec := rfl
@[simp] theorem State.bump_sec (s : State) (x : Fld) (k i j : Nat) : (s.bump x k i j).sec = s.sec := rfl
@[simp] theorem State.send_sec (s : State) (m : OutMsg) : (s.send m).sec = s.sec := rfl
@[simp] theorem State.draw_sec (s : State) : s.draw.2.sec = s.sec := rfl

@[simp] theorem State.wr_mgt (s : State) (n : RegName) (v : Word) (i j : Nat) : (s.wr n v i j).mgt = s.mgt := rfl
@[simp] theorem State.setF_mgt (s : State) (x : Fld) (v i j : Nat) : (s.setF x v i j).mgt = s.mgt := rfl
@[simp] theorem State.bump_mgt (s : State) (x : Fld) (k i j : Nat) : (s.bump x k i j).mgt = s.mgt := rfl
@[simp] theorem State.send_mgt (s : State) (m : OutMsg) : (s.send m).mgt = s.mgt := rfl
@[simp] theorem State.draw_mgt (s : State) : s.draw.2.mgt = s.mgt := rfl

@[simp] theorem State.wr_fru (s : State) (n : RegName) (v : Word) (i j : Nat) : (s.wr n v i j).fru = s.fru := rfl
@[simp] theorem State.setF_fru (s : State) (x : Fld) (v i j : Nat) : (s.setF x v i j).fru = s.fru := rfl
@[simp] theorem State.bump_fru (s : State) (x : Fld) (k i j : Nat) : (s.bump x k i j).fru = s.fru := rfl
@[simp] theorem State.send_fru (s : State) (m : OutMsg) : (s.send m).fru = s.fru := rfl
@[simp] theorem State.draw_fru (s : State) : s.draw.2.fru = s.fru := rfl

@[simp] theorem State.send_out (s : State) (m : OutMsg) : (s.send m).out = s.out ++ [m] := rfl
@[simp] theorem State.draw_free (s : State) : s.draw.2.free = s.free + 1 := rfl
@[simp] theorem State.wr_quiet (s : State) (n : RegName) (v : Word) (i j : Nat) : (s.wr n v i j).quiet = s.quiet := rfl
@[simp] theorem State.setF_quiet (s : State) (x : Fld) (v i j : Nat) : (s.setF x v i j).quiet = s.quiet := rfl
@[simp] theorem State.bump_quiet (s : State) (x : Fld) (k i j : Nat) : (s.bump x k i j).quiet = s.quiet := rfl
@[simp] theorem State.send_quiet (s : State) (m : OutMsg) : (s.send m).quiet = s.quiet := rfl
@[simp] theorem State.draw_quiet (s : State) : s.draw.2.quiet = s.quiet := rfl
@[simp] theorem State.f_send (s : State) (m : OutMsg) (x : Fld) (i j : Nat) : (s.send m).f x i j = s.f x i j := rfl
@[simp] theorem State.f_draw (s : State) (x : Fld) (i j : Nat) : s.draw.2.f x i j = s.f x i j := rfl

end Sys2Proof.Machine
end

