-- ==== Sys2Proof/Laws/Issue.lean ====
section
/-! SUPPORT. What issuing cells can change (R321, R322, R326, R327): the sender side of the end-to-end layer, its counts of peers and of
occupancy, and the free values drawn for a new peer; nothing else. -/

namespace Sys2Proof.Machine

/-- The registers that issuing a cell may write. -/
def issueWrites : RegName → Bool
  | .FAB_STATUS | .FAB_RT_OCC => true
  | _ => false

/-- A fabric state with the sender side of another. -/
def FabSt.sender (a b : FabSt) : FabSt :=
  { a with inject := b.inject, backlog := b.backlog, tx := b.tx, mctx := b.mctx, incNext := b.incNext, events := b.events }

/-- The state after it differs from the state before it only where issuing cells may write. -/
structure IssueFrame (s t : State) : Prop where
  rd : ∀ n i j, issueWrites n = false → t.rd n i j = s.rd n i j
  rest : { t with regs := s.regs, free := s.free, fab := t.fab.sender s.fab } = s

theorem IssueFrame.refl (s : State) : IssueFrame s s := ⟨fun _ _ _ _ => rfl, rfl⟩

theorem IssueFrame.trans {s t u : State} (h : IssueFrame s t) (k : IssueFrame t u) : IssueFrame s u := by
  refine ⟨fun n i j hn => (k.rd n i j hn).trans (h.rd n i j hn), ?_⟩
  have e := h.rest
  rw [← k.rest] at e
  exact e

variable {s t : State}

theorem IssueFrame.setF (h : IssueFrame s t) (x : Fld) (v i j : Nat) (hx : issueWrites x.reg = true) : IssueFrame s (t.setF x v i j) := by
  refine ⟨fun n a b hn => ?_, h.rest⟩
  have hne : x.reg ≠ n := fun e => by rw [e, hn] at hx; cases hx
  have hb : x.reg ≠ .CRU_BOOT := fun e => by rw [e] at hx; cases hx
  unfold State.setF
  rw [State.rd_wr_reg _ _ _ _ _ _ hne hb]
  exact h.rd n a b hn

/-- Changing the parts of the fabric that issuing may change, and drawing. -/
theorem IssueFrame.parts (h : IssueFrame s t) (k : Nat) (a : List Cell) (b : List TxReq) (c : List (Nat × TxEnt)) (d : List ((Nat × Nat) × TxCls))
    (e : Nat) (f : List FabEvent) :
    IssueFrame s { t with free := k, fab := { t.fab with inject := a, backlog := b, tx := c, mctx := d, incNext := e, events := f } } :=
  ⟨fun n i j hn => h.rd n i j hn, h.rest⟩

theorem IssueFrame.foldS {α : Type} {f : α → State → State} (xs : List α) (h : IssueFrame s t)
    (hf : ∀ x t, IssueFrame s t → IssueFrame s (f x t)) : IssueFrame s (foldS xs f t) := by
  unfold Machine.foldS
  induction xs generalizing t with
  | nil => exact h
  | cons x r ih => exact ih (hf x t h)

theorem IssueFrame.occ (h : IssueFrame s t) : IssueFrame s t.occ := (h.setF _ _ _ _ rfl).setF _ _ _ _ rfl
theorem IssueFrame.countPeers (h : IssueFrame s t) : IssueFrame s t.countPeers := h.setF _ _ _ _ rfl
theorem IssueFrame.setTx (h : IssueFrame s t) (a : Nat) (x : TxEnt) : IssueFrame s (t.setTx a x) :=
  (h.parts t.free _ _ _ _ _ _).countPeers
theorem IssueFrame.cellInject (h : IssueFrame s t) (c : Cell) : IssueFrame s (cellInject c t) := (h.parts t.free _ _ _ _ _ _).occ

theorem IssueFrame.closePeer (h : IssueFrame s t) (a : Nat) : IssueFrame s (t.closePeer a) := by
  unfold State.closePeer
  split
  · exact h
  · dsimp only
    split
    · exact h
    · split
      · exact (h.parts t.free _ _ _ _ _ _).countPeers
      · exact .foldS _ (h.setTx _ _) fun _ _ k => k.cellInject _

theorem IssueFrame.openPeer (h : IssueFrame s t) (a : Nat) : IssueFrame s (t.openPeer a).2 ∧ ∀ u, (t.openPeer a).1 = some u → IssueFrame s u := by
  unfold State.openPeer
  split
  · exact ⟨h, fun u e => by cases e; exact h⟩
  · dsimp only
    split
    · exact ⟨h.parts t.free _ _ _ _ _ _, fun u e => by cases e; exact (h.parts t.free _ _ _ _ _ _).setTx _ _⟩
    · split
      · exact ⟨h.setF _ _ _ _ rfl, fun u e => by cases e⟩
      · exact ⟨h.closePeer _, fun u e => by cases e⟩

theorem IssueFrame.txClass (h : IssueFrame s t) (o : Option TxCls) : IssueFrame s (t.txClass o).2 := by
  cases o with
  | none => exact h.parts _ _ _ _ _ _ _
  | some x => exact h

theorem IssueFrame.letIn (h : IssueFrame s t) (r : TxReq) : IssueFrame s (t.letIn r).2 ∧ ∀ u, (t.letIn r).1 = some u → IssueFrame s u := by
  unfold State.letIn
  split
  · refine ⟨h.txClass _, fun u e => ?_⟩
    unfold State.letMc at e
    split at e
    · cases e
    · cases e; exact (((h.txClass _).parts _ _ _ _ _ _ _)).cellInject _
  · have k := h.openPeer r.dst
    split
    · rename_i e; rw [e] at k; exact ⟨k.1, fun u e => by cases e⟩
    · rename_i v _ e
      have hv := k.2 v (by rw [e])
      dsimp only
      split
      · exact ⟨hv, fun u e => by cases e⟩
      · refine ⟨hv.txClass _, fun u e => ?_⟩
        dsimp only at e
        unfold State.letUni at e
        split at e
        · cases e
        · cases e; exact ((hv.txClass _).setTx _ _).cellInject _

theorem IssueFrame.pumpList (rs : List TxReq) (bl : List (Nat × Nat)) (h : IssueFrame s t) : IssueFrame s (pumpList rs bl t) := by
  induction rs generalizing t bl with
  | nil => exact h
  | cons r rs ih =>
    unfold Machine.pumpList
    split
    · exact ih _ (h.parts t.free _ _ _ _ _ _)
    · have k := h.letIn r
      split
      · rename_i u _ e; exact ih _ (k.2 u (by rw [e]))
      · rename_i u e
        rw [e] at k
        exact ih _ (k.1.parts _ _ _ _ _ _ _)

theorem IssueFrame.pump (h : IssueFrame s t) : IssueFrame s t.pump := .pumpList _ _ (h.parts t.free _ _ _ _ _ _)

theorem IssueFrame.issue (h : IssueFrame s t) (rs : List TxReq) : IssueFrame s (t.issue rs) := by
  unfold State.issue
  split
  · exact h
  · split
    · exact h.parts t.free _ _ _ _ _ _
    · exact (h.parts t.free _ _ _ _ _ _).pump

/-- A register field outside what issuing may write. -/
theorem IssueFrame.f_eq (h : IssueFrame s t) (x : Fld) (i j : Nat) (hx : issueWrites x.reg = false) : t.f x i j = s.f x i j := by
  unfold State.f
  rw [h.rd _ i j hx]
theorem IssueFrame.mem_eq (h : IssueFrame s t) : t.mem = s.mem := by
  have e := congrArg State.mem h.rest
  exact e
theorem IssueFrame.tray_eq (h : IssueFrame s t) : t.tray = s.tray := by
  have e := congrArg State.tray h.rest
  exact e
theorem IssueFrame.out_eq (h : IssueFrame s t) : t.out = s.out := by
  have e := congrArg State.out h.rest
  exact e
theorem IssueFrame.qe_eq (h : IssueFrame s t) : t.qe = s.qe := by
  have e := congrArg State.qe h.rest
  exact e
theorem IssueFrame.res_eq (h : IssueFrame s t) : t.res = s.res := by
  have e := congrArg State.res h.rest
  exact e
theorem IssueFrame.coll_eq (h : IssueFrame s t) : t.coll = s.coll := by
  have e := congrArg State.coll h.rest
  exact e
theorem IssueFrame.inbox_eq (h : IssueFrame s t) : t.fab.inbox = s.fab.inbox := by
  have e := congrArg (fun u : State => u.fab.inbox) h.rest
  exact e
theorem IssueFrame.poison_eq (h : IssueFrame s t) : t.poison = s.poison := by
  have e := congrArg State.poison h.rest
  exact e

end Sys2Proof.Machine
end

