-- ==== Sys2Proof/Laws/Kept.lean ====
section
/-! SUPPORT. What every command keeps: `Kept q s` is the invariant `State.Inv` together with the queue. The lemmas here say how it
passes through folds, choices and record updates; the files KeptWing … KeptExec say it of every operation. -/

namespace Sys2Proof.Machine

/-- A well-formed state (`State.Inv`) with a given queue. -/
def Kept (q : List Instr) (s : State) : Prop :=
  cellsWf s.mem = true ∧ s.pending = q ∧ s.eye.ring.length ≤ 256 ∧ s.eye.log.length ≤ 32768 ∧ ∀ x ∈ s.poison, x % 64 = 0

theorem kept_iff {q : List Instr} {s : State} : Kept q s ↔ s.Inv ∧ s.pending = q :=
  ⟨fun h => ⟨⟨h.1, h.2.2⟩, h.2.1⟩, fun h => ⟨h.1.1, h.2, h.1.2⟩⟩

theorem foldS_kept {α : Type} {q : List Instr} {s : State} {f : α → State → State} (xs : List α) (h : Kept q s)
    (hf : ∀ x s, Kept q s → Kept q (f x s)) : Kept q (foldS xs f s) := by
  unfold foldS
  induction xs generalizing s with
  | nil => exact h
  | cons x t ih => exact ih (hf x s h)

theorem fst_kept {α : Type} {q : List Instr} {z : State × α} {s : State} {x : α} (e : z = (s, x)) (h : Kept q z.1) : Kept q s := by
  subst e; exact h

theorem snd_kept {α : Type} {q : List Instr} {z : α × State} {s : State} {x : α} (e : z = (x, s)) (h : Kept q z.2) : Kept q s := by
  subst e; exact h

theorem ring_le {q : List Instr} {s : State} (h : Kept q s) : s.eye.ring.length ≤ 256 := h.2.2.1

theorem log_le {q : List Instr} {s : State} (h : Kept q s) : s.eye.log.length ≤ 32768 := h.2.2.2.1

theorem ite_kept {q : List Instr} {c : Prop} [Decidable c] {s t : State} (h1 : Kept q s) (h2 : Kept q t) :
    Kept q (if c then s else t) := by split <;> assumption

theorem ite_kept1 {α : Type} {q : List Instr} {c : Prop} [Decidable c] {s t : State × α} (h1 : Kept q s.1) (h2 : Kept q t.1) :
    Kept q (if c then s else t).1 := by split <;> assumption

theorem ite_kept2 {α : Type} {q : List Instr} {c : Prop} [Decidable c] {s t : α × State} (h1 : Kept q s.2) (h2 : Kept q t.2) :
    Kept q (if c then s else t).2 := by split <;> assumption

theorem fst_mk {α : Type} {q : List Instr} {s : State} {x : α} (h : Kept q s) : Kept q (s, x).1 := h

theorem snd_mk {α : Type} {q : List Instr} {s : State} {x : α} (h : Kept q s) : Kept q (x, s).2 := h

theorem foldl_kept {α : Type} {q : List Instr} {s : State} {f : State → α → State} (xs : List α) (h : Kept q s)
    (hf : ∀ s x, Kept q s → Kept q (f s x)) : Kept q (xs.foldl f s) := by
  induction xs generalizing s with
  | nil => exact h
  | cons x t ih => exact ih (hf s x h)

theorem foldl1_kept {α β : Type} {q : List Instr} {z : State × β} {f : State × β → α → State × β} (xs : List α) (h : Kept q z.1)
    (hf : ∀ z x, Kept q z.1 → Kept q (f z x).1) : Kept q (xs.foldl f z).1 := by
  induction xs generalizing z with
  | nil => exact h
  | cons x t ih => exact ih (hf z x h)

theorem foldl2_kept {α β : Type} {q : List Instr} {z : β × State} {f : β × State → α → β × State} (xs : List α) (h : Kept q z.2)
    (hf : ∀ z x, Kept q z.2 → Kept q (f z x).2) : Kept q (xs.foldl f z).2 := by
  induction xs generalizing z with
  | nil => exact h
  | cons x t ih => exact ih (hf z x h)

theorem foldS1_kept {α β : Type} {q : List Instr} {z : State × β} {f : α → State × β → State × β} (xs : List α) (h : Kept q z.1)
    (hf : ∀ x z, Kept q z.1 → Kept q (f x z).1) : Kept q (foldS xs f z).1 := by
  unfold foldS
  exact foldl1_kept xs h fun z x hz => hf x z hz

theorem foldP_kept {α : Type} {q : List Instr} {z : Pass} {f : Pass → α → Pass} (xs : List α) (h : Kept q z.s)
    (hf : ∀ z x, Kept q z.s → Kept q (f z x).s) : Kept q (xs.foldl f z).s := by
  induction xs generalizing z with
  | nil => exact h
  | cons x t ih => exact ih (hf z x h)

theorem pass_mk {q : List Instr} {s : State} {r : VecRun} {d : List (List Nat)} (h : Kept q s) : Kept q (Pass.mk s r d).s := h

theorem ans_mk {q : List Instr} {s : State} {n : Nat} {b : List Byte} {x y : Bool} {z : Option Nat} {w : Option Bool} (h : Kept q s) :
    Kept q (MgtAns.mk n b s x y z w).s := h

theorem ite_keptP {q : List Instr} {c : Prop} [Decidable c] {s t : Pass} (h1 : Kept q s.s) (h2 : Kept q t.s) :
    Kept q (if c then s else t).s := by split <;> assumption

theorem ite_keptA {q : List Instr} {c : Prop} [Decidable c] {s t : MgtAns} (h1 : Kept q s.s) (h2 : Kept q t.s) :
    Kept q (if c then s else t).s := by split <;> assumption

theorem kept_of {q : List Instr} {t : State} (hm : cellsWf t.mem = true) (hp : t.pending = q) (hr : t.eye.ring.length ≤ 256)
    (hl : t.eye.log.length ≤ 32768) (hx : ∀ x ∈ t.poison, x % 64 = 0) : Kept q t := ⟨hm, hp, hr, hl, hx⟩

theorem kept_mk {q : List Instr} {s : State} {regs' : List (RegKey × Word)} {latent' : List (Nat × Nat)} {free' : Nat} {busReply' : Option Nat} {out' : List OutMsg} {poweredH' : Nat} {pins' : Pins} {margin' : MarginSt} {wings' : List (Nat × WingSt)} {insts' : List Inst} {nextInst' : Nat} {nmi' : Nat} {engFused' : List Nat} {qe' : QeSt} {ms' : MemSt} {plic' : PlicSt} {injLeft' : Nat} {d2d' : D2dSt} {le' : LeSt} {fab' : FabSt} {tray' : TraySt} {res' : ResSt} {coll' : CollSt} {resv' : List (Nat × Nat)} {pw' : PwrSt} {boot' : BootSt} {sec' : SecSt} {mgt' : MgtSt} {fru' : List (Nat × Byte)} (h : Kept q s) :
    Kept q (State.mk s.pending regs' s.mem s.poison latent' free' busReply' out' poweredH' s.fuses pins' margin' s.eye wings' insts' nextInst' nmi' engFused' qe' ms' plic' injLeft' d2d' le' fab' tray' res' coll' resv' pw' boot' sec' mgt' fru') := h

theorem kept_eye {q : List Instr} {s : State} {regs' : List (RegKey × Word)} {latent' : List (Nat × Nat)} {free' : Nat} {busReply' : Option Nat} {out' : List OutMsg} {poweredH' : Nat} {pins' : Pins} {margin' : MarginSt} {eye' : EyeSt} {wings' : List (Nat × WingSt)} {insts' : List Inst} {nextInst' : Nat} {nmi' : Nat} {engFused' : List Nat} {qe' : QeSt} {ms' : MemSt} {plic' : PlicSt} {injLeft' : Nat} {d2d' : D2dSt} {le' : LeSt} {fab' : FabSt} {tray' : TraySt} {res' : ResSt} {coll' : CollSt} {resv' : List (Nat × Nat)} {pw' : PwrSt} {boot' : BootSt} {sec' : SecSt} {mgt' : MgtSt} {fru' : List (Nat × Byte)} (h : Kept q s) (he : eye'.ring.length ≤ 256) (hl : eye'.log.length ≤ 32768) :
    Kept q (State.mk s.pending regs' s.mem s.poison latent' free' busReply' out' poweredH' s.fuses pins' margin' eye' wings' insts' nextInst' nmi' engFused' qe' ms' plic' injLeft' d2d' le' fab' tray' res' coll' resv' pw' boot' sec' mgt' fru') := ⟨h.1, h.2.1, he, hl, h.2.2.2.2⟩

end Sys2Proof.Machine
end

