-- ==== Sys2Proof/Laws/KeptWing.lean ====
section
/-! SUPPORT. Every operation over registers, sources, memory, vector runs, wings and queues keeps `Kept`: the memory in canonical form, the bounds of the event ring and the log,
poison on sectors, and the queue. One lemma per operation, in the order of the files that define them. -/

namespace Sys2Proof.Machine

theorem State.loadFuses_kept {q : List Instr} {s : State} (h : Kept q s) (a1) (a2) : Kept q (State.loadFuses s a1 a2) := by
  unfold State.loadFuses
  refine kept_mk ?_
  exact h

theorem State.wr_kept {q : List Instr} {s : State} (h : Kept q s) (a1) (a2) (a3) (a4) : Kept q (State.wr s a1 a2 a3 a4) := by
  unfold State.wr
  refine kept_mk ?_
  exact h

theorem State.setF_kept {q : List Instr} {s : State} (h : Kept q s) (a1) (a2) (a3) (a4) : Kept q (State.setF s a1 a2 a3 a4) := by
  unfold State.setF
  apply State.wr_kept
  exact h

theorem State.bump_kept {q : List Instr} {s : State} (h : Kept q s) (a1) (a2) (a3) (a4) : Kept q (State.bump s a1 a2 a3 a4) := by
  unfold State.bump
  apply State.setF_kept
  exact h

theorem State.draw_kept {q : List Instr} {s : State} (h : Kept q s) : Kept q (State.draw s).2 := by
  unfold State.draw
  refine snd_mk ?_
  refine kept_mk ?_
  exact h

theorem State.send_kept {q : List Instr} {s : State} (h : Kept q s) (a1) : Kept q (State.send s a1) := by
  unfold State.send
  refine kept_mk ?_
  exact h

theorem State.writeBytes_kept {q : List Instr} {s : State} (h : Kept q s) (a : Nat) (bs : List Byte) : Kept q (s.writeBytes a bs) :=
  ⟨cellsWrite_wf _ _ _ h.1, h.2.1, h.2.2.1, h.2.2.2.1, fun x hx => h.2.2.2.2 x (List.mem_filter.mp hx).1⟩

theorem State.writeNat_kept {q : List Instr} {s : State} (h : Kept q s) (a1) (a2) (a3) : Kept q (State.writeNat s a1 a2 a3) := by
  unfold State.writeNat
  apply State.writeBytes_kept
  exact h

theorem State.poisonAt_kept {q : List Instr} {s : State} (h : Kept q s) (a : Nat) : Kept q (s.poisonAt a) := by
  unfold State.poisonAt
  refine ite_kept h ⟨h.1, h.2.1, h.2.2.1, h.2.2.2.1, fun x hx => ?_⟩
  rcases List.mem_cons.mp hx with rfl | hx
  · exact Nat.mul_mod_left _ _
  · exact h.2.2.2.2 x hx

theorem State.setEyeSrc_kept {q : List Instr} {s : State} (h : Kept q s) (a1) (a2) : Kept q (State.setEyeSrc s a1 a2) := by
  unfold State.setEyeSrc
  refine kept_mk ?_
  exact h

theorem State.refreshPins_kept {q : List Instr} {s : State} (h : Kept q s) : Kept q (State.refreshPins s) := by
  unfold State.refreshPins
  extract_lets -underBinder -merge +onlyGivenNames x0
  clear_value x0
  extract_lets -underBinder -merge +onlyGivenNames x1
  clear_value x1
  extract_lets -underBinder -merge +onlyGivenNames x2
  clear_value x2
  extract_lets -underBinder -merge +onlyGivenNames x3
  clear_value x3
  extract_lets -underBinder -merge +onlyGivenNames x4
  clear_value x4
  apply State.setF_kept
  exact h

theorem State.releasePins_kept {q : List Instr} {s : State} (h : Kept q s) : Kept q (State.releasePins s) := by
  unfold State.releasePins
  extract_lets -underBinder -merge +onlyGivenNames x0
  have h1 : Kept q x0 := by
    unfold x0
    refine ite_kept ?_ ?_
    · apply State.setF_kept
      exact h
    · exact h
  clear_value x0
  refine ite_kept ?_ ?_
  · apply State.setF_kept
    exact h1
  · exact h1

theorem State.withPins_kept {q : List Instr} {s : State} (h : Kept q s) {f : State → State} (hf : ∀ s, Kept q s → Kept q (f s)) :
    Kept q (s.withPins f) := by
  unfold State.withPins
  have hs := hf s h
  repeat' (first | with_reducible assumption | with_reducible (first | apply State.refreshPins_kept | apply State.releasePins_kept | apply ite_kept | apply State.setF_kept))

theorem State.pinReact_kept {q : List Instr} {s : State} (h : Kept q s) (a1) : Kept q (State.pinReact s a1) := by
  unfold State.pinReact
  extract_lets -underBinder -merge +onlyGivenNames x0
  clear_value x0
  extract_lets -underBinder -merge +onlyGivenNames x1
  clear_value x1
  extract_lets -underBinder -merge +onlyGivenNames x2
  have h3 : Kept q x2 := by
    unfold x2
    apply State.setEyeSrc_kept
    exact h
  clear_value x2
  refine ite_kept ?_ ?_
  · exact h3
  · refine ite_kept ?_ ?_
    · extract_lets -underBinder -merge +onlyGivenNames x4
      have h5 : Kept q x4 := by
        unfold x4
        apply State.setF_kept
        apply State.setF_kept
        exact h3
      clear_value x4
      refine kept_mk ?_
      exact h5
    · refine ite_kept ?_ ?_
      · extract_lets -underBinder -merge +onlyGivenNames x6
        have h7 : Kept q x6 := by
          unfold x6
          apply State.setF_kept
          apply State.setF_kept
          exact h3
        clear_value x6
        refine kept_mk ?_
        exact h7
      · exact h3

theorem State.capture_kept {q : List Instr} {s : State} (h : Kept q s) (a1) (a2) : Kept q (State.capture s a1 a2) := by
  unfold State.capture
  extract_lets -underBinder -merge +onlyGivenNames x0
  clear_value x0
  refine ite_kept ?_ ?_
  · extract_lets -underBinder -merge +onlyGivenNames x1
    have h2 : Kept q x1 := by
      unfold x1
      apply State.setF_kept
      exact h
    clear_value x1
    extract_lets -underBinder -merge +onlyGivenNames x3
    have h4 : Kept q x3 := by
      unfold x3
      apply State.setF_kept
      exact h2
    clear_value x3
    extract_lets -underBinder -merge +onlyGivenNames x5
    have h6 : Kept q x5 := by
      unfold x5
      apply State.setF_kept
      exact h4
    clear_value x5
    extract_lets -underBinder -merge +onlyGivenNames x7
    have h8 : Kept q x7 := by
      unfold x7
      apply State.setF_kept
      exact h6
    clear_value x7
    extract_lets -underBinder -merge +onlyGivenNames x9
    have h10 : Kept q x9 := by
      unfold x9
      apply State.setF_kept
      exact h8
    clear_value x9
    apply State.setF_kept
    exact h10
  · apply State.setF_kept
    exact h

theorem State.record_kept {q : List Instr} {s : State} (h : Kept q s) (n : Nat) (c : Cap) (extra : List Int) :
    Kept q (s.record n c extra).1 := by
  unfold State.record
  dsimp only
  split
  · refine kept_eye h ?_ (log_le h)
    simp only [List.length_append, List.length_singleton]; omega
  · refine State.setF_kept ?_ _ _ _ _
    refine kept_eye h ?_ (log_le h)
    have := ring_le h
    simp only [List.length_append, List.length_singleton, List.length_drop]; omega

theorem State.dropSweeps_kept {q : List Instr} {s : State} (h : Kept q s) (a1) (a2) : Kept q (State.dropSweeps s a1 a2) := by
  unfold State.dropSweeps
  extract_lets -underBinder -merge +onlyGivenNames x0
  clear_value x0
  refine ite_kept ?_ ?_
  · exact h
  · extract_lets -underBinder -merge +onlyGivenNames x1
    have h2 : Kept q x1 := by
      unfold x1
      refine foldS_kept _ ?_ ?_
      · exact h
      · intro x3
        intro x4 x5
        extract_lets -underBinder -merge +onlyGivenNames x6
        have h7 : Kept q x6 := by
          unfold x6
          refine foldS_kept _ ?_ ?_
          · exact x5
          · intro x8
            intro x9 x10
            apply State.setF_kept
            exact x10
        clear_value x6
        extract_lets -underBinder -merge +onlyGivenNames x11
        have h12 : Kept q x11 := by
          unfold x11
          apply State.setF_kept
          exact h7
        clear_value x11
        extract_lets -underBinder -merge +onlyGivenNames x13
        have h14 : Kept q x13 := by
          unfold x13
          refine ite_kept ?_ ?_
          · apply State.setF_kept
            exact h12
          · exact h12
        clear_value x13
        extract_lets -underBinder -merge +onlyGivenNames x15
        clear_value x15
        refine kept_mk ?_
        exact h14
    clear_value x1
    extract_lets -underBinder -merge +onlyGivenNames x16
    clear_value x16
    extract_lets -underBinder -merge +onlyGivenNames x17
    have h18 : Kept q x17 := by
      unfold x17
      apply State.setF_kept
      exact h2
    clear_value x17
    extract_lets -underBinder -merge +onlyGivenNames x19
    clear_value x19
    refine kept_mk ?_
    exact h18

theorem State.react_kept {q : List Instr} {s : State} (h : Kept q s) (a1) : Kept q (State.react s a1) := by
  unfold State.react
  extract_lets -underBinder -merge +onlyGivenNames x0
  have h1 : Kept q x0 := by
    unfold x0
    apply State.setF_kept
    exact h
  clear_value x0
  extract_lets -underBinder -merge +onlyGivenNames x2
  have h3 : Kept q x2 := by
    unfold x2
    refine ite_kept ?_ ?_
    · refine kept_mk ?_
      exact h1
    · exact h
  clear_value x2
  extract_lets -underBinder -merge +onlyGivenNames x4
  have h5 : Kept q x4 := by
    unfold x4
    apply State.setF_kept
    exact h3
  clear_value x4
  extract_lets -underBinder -merge +onlyGivenNames x6
  have h7 : Kept q x6 := by
    unfold x6
    apply State.setF_kept
    exact h5
  clear_value x6
  extract_lets -underBinder -merge +onlyGivenNames x8
  have h9 : Kept q x8 := by
    unfold x8
    apply State.bump_kept
    exact h7
  clear_value x8
  extract_lets -underBinder -merge +onlyGivenNames x10
  have h11 : Kept q x10 := by
    unfold x10
    apply State.refreshPins_kept
    apply State.pinReact_kept
    exact h9
  clear_value x10
  extract_lets -underBinder -merge +onlyGivenNames x12
  have h13 : Kept q x12 := by
    unfold x12
    refine ite_kept ?_ ?_
    · apply State.dropSweeps_kept
      exact h11
    · exact h11
  clear_value x12
  refine ite_kept ?_ ?_
  · refine kept_mk ?_
    exact h13
  · refine ite_kept ?_ ?_
    · refine kept_mk ?_
      exact h13
    · exact h13

theorem State.taint_kept {q : List Instr} {s : State} (h : Kept q s) (a1) : Kept q (State.taint s a1) := by
  unfold State.taint
  apply State.setF_kept
  exact h

theorem State.occur_kept {q : List Instr} {s : State} (h : Kept q s) (a1) (a2) (a3) (a4) : Kept q (State.occur s a1 a2 a3 a4).1 := by
  unfold State.occur
  refine ite_kept1 ?_ ?_
  · refine fst_mk ?_
    exact h
  · extract_lets -underBinder -merge +onlyGivenNames x0
    have h1 : Kept q x0 := by
      unfold x0
      apply State.bump_kept
      exact h
    clear_value x0
    extract_lets -underBinder -merge +onlyGivenNames x2
    clear_value x2
    extract_lets -underBinder -merge +onlyGivenNames x3
    have h4 : Kept q x3 := by
      unfold x3
      apply State.setEyeSrc_kept
      exact h1
    clear_value x3
    extract_lets -underBinder -merge +onlyGivenNames x5
    have h6 : Kept q x5 := by
      unfold x5
      refine ite_kept ?_ ?_
      · apply State.taint_kept
        exact h4
      · exact h4
    clear_value x5
    refine ite_kept1 ?_ ?_
    · refine fst_mk ?_
      exact h6
    · extract_lets -underBinder -merge +onlyGivenNames x7
      clear_value x7
      extract_lets -underBinder -merge +onlyGivenNames x8
      have h9 : Kept q x8 := by
        unfold x8
        refine ite_kept ?_ ?_
        · apply State.setEyeSrc_kept
          exact h6
        · exact h6
      clear_value x8
      extract_lets -underBinder -merge +onlyGivenNames x10
      have h11 : Kept q x10 := by
        unfold x10
        apply State.bump_kept
        exact h9
      clear_value x10
      extract_lets -underBinder -merge +onlyGivenNames x12
      have h13 : Kept q x12 := by
        unfold x12
        apply State.setF_kept
        exact h11
      clear_value x12
      split
      extract_lets -underBinder -merge +onlyGivenNames x14
      have h15 : Kept q x14 := by
        unfold x14
        apply State.capture_kept
        refine fst_kept (by assumption) ?_
        refine ite_kept1 ?_ ?_
        · apply State.record_kept
          exact h13
        · refine fst_mk ?_
          exact h13
      clear_value x14
      extract_lets -underBinder -merge +onlyGivenNames x16
      have h17 : Kept q x16 := by
        unfold x16
        refine ite_kept ?_ ?_
        · apply State.setF_kept
          exact h15
        · exact h15
      clear_value x16
      extract_lets -underBinder -merge +onlyGivenNames x18
      have h19 : Kept q x18 := by
        unfold x18
        refine ite_kept ?_ ?_
        · apply State.react_kept
          exact h17
        · exact h17
      clear_value x18
      refine fst_mk ?_
      exact h19

theorem State.sweepTrigger_kept {q : List Instr} {s : State} (h : Kept q s) (a1) : Kept q (State.sweepTrigger s a1) := by
  unfold State.sweepTrigger
  extract_lets -underBinder -merge +onlyGivenNames x0
  clear_value x0
  extract_lets -underBinder -merge +onlyGivenNames x1
  clear_value x1
  refine ite_kept ?_ ?_
  · extract_lets -underBinder -merge +onlyGivenNames x2
    have h3 : Kept q x2 := by
      unfold x2
      apply State.setF_kept
      exact h
    clear_value x2
    refine kept_eye ?_ ?_ ?_
    · exact h3
    · refine ring_le (q := q) ?_
      exact h
    · refine log_le (q := q) ?_
      exact h
  · exact h

theorem State.raiseX_kept {q : List Instr} {s : State} (h : Kept q s) (a1) (a2) (a3) : Kept q (State.raiseX s a1 a2 a3) := by
  unfold State.raiseX
  split
  extract_lets -underBinder -merge +onlyGivenNames x0
  have h1 : Kept q x0 := by
    unfold x0
    apply State.sweepTrigger_kept
    refine fst_kept (by assumption) ?_
    apply State.occur_kept
    exact h
  clear_value x0
  refine ite_kept ?_ ?_
  · apply State.occur_kept
    exact h1
  · exact h1

theorem State.raise_kept {q : List Instr} {s : State} (h : Kept q s) (a1) (a2) : Kept q (State.raise s a1 a2) := by
  unfold State.raise
  apply State.raiseX_kept
  exact h

theorem State.raiseLevel_kept {q : List Instr} {s : State} (h : Kept q s) (a1) (a2) : Kept q (State.raiseLevel s a1 a2) := by
  unfold State.raiseLevel
  refine ite_kept ?_ ?_
  · exact h
  · apply State.raise_kept
    apply State.setF_kept
    exact h

theorem State.lowerLevel_kept {q : List Instr} {s : State} (h : Kept q s) (a1) : Kept q (State.lowerLevel s a1) := by
  unfold State.lowerLevel
  refine ite_kept ?_ ?_
  · exact h
  · apply State.withPins_kept
    · exact h
    · intro x0
      intro x1
      extract_lets -underBinder -merge +onlyGivenNames x2
      have h3 : Kept q x2 := by
        unfold x2
        apply State.setF_kept
        exact x1
      clear_value x2
      refine ite_kept ?_ ?_
      · exact h3
      · apply State.setEyeSrc_kept
        exact h3

theorem State.accessErr_kept {q : List Instr} {s : State} (h : Kept q s) (a1) (a2) (a3) : Kept q (State.accessErr s a1 a2 a3) := by
  unfold State.accessErr
  apply State.raise_kept
  exact h

theorem State.cfgErr_kept {q : List Instr} {s : State} (h : Kept q s) (a1) (a2) : Kept q (State.cfgErr s a1 a2) := by
  unfold State.cfgErr
  apply State.raise_kept
  exact h

theorem State.lcViolation_kept {q : List Instr} {s : State} (h : Kept q s) (a1) (a2) : Kept q (State.lcViolation s a1 a2) := by
  unfold State.lcViolation
  apply State.raise_kept
  exact h

theorem State.class5_kept {q : List Instr} {s : State} (h : Kept q s) (a : Nat) (m : Master) {k : State → State}
    (hk : Kept q (k s)) : Kept q (s.class5 a m k) := ite_kept hk (State.accessErr_kept h _ _ _)

theorem State.injFire_kept {q : List Instr} {s : State} (h : Kept q s) : Kept q (State.injFire s) := by
  unfold State.injFire
  extract_lets -underBinder -merge +onlyGivenNames x0
  have h1 : Kept q x0 := by
    unfold x0
    apply State.setF_kept
    apply State.setF_kept
    exact h
  clear_value x0
  apply State.raise_kept
  exact h1

theorem State.setWing_kept {q : List Instr} {s : State} (h : Kept q s) (a1) (a2) : Kept q (State.setWing s a1 a2) := by
  unfold State.setWing
  refine kept_mk ?_
  exact h

theorem State.setWingState_kept {q : List Instr} {s : State} (h : Kept q s) (a1) (a2) : Kept q (State.setWingState s a1 a2) := by
  unfold State.setWingState
  apply State.setF_kept
  exact h

theorem State.tileUncorr_kept {q : List Instr} {s : State} (h : Kept q s) (a1) (a2) (a3) (a4) : Kept q (State.tileUncorr s a1 a2 a3 a4) := by
  unfold State.tileUncorr
  extract_lets -underBinder -merge +onlyGivenNames x0
  have h1 : Kept q x0 := by
    unfold x0
    apply State.poisonAt_kept
    exact h
  clear_value x0
  extract_lets -underBinder -merge +onlyGivenNames x2
  have h3 : Kept q x2 := by
    unfold x2
    apply State.bump_kept
    exact h1
  clear_value x2
  extract_lets -underBinder -merge +onlyGivenNames x4
  have h5 : Kept q x4 := by
    unfold x4
    refine ite_kept ?_ ?_
    · apply State.setF_kept
      apply State.setF_kept
      exact h3
    · exact h3
  clear_value x4
  apply State.raise_kept
  exact h5

theorem State.stackUncorr_kept {q : List Instr} {s : State} (h : Kept q s) (a1) (a2) (a3) (a4) : Kept q (State.stackUncorr s a1 a2 a3 a4) := by
  unfold State.stackUncorr
  extract_lets -underBinder -merge +onlyGivenNames x0
  have h1 : Kept q x0 := by
    unfold x0
    apply State.poisonAt_kept
    exact h
  clear_value x0
  extract_lets -underBinder -merge +onlyGivenNames x2
  have h3 : Kept q x2 := by
    unfold x2
    apply State.bump_kept
    exact h1
  clear_value x2
  apply State.raise_kept
  exact h3

theorem State.unitRead_kept {q : List Instr} {s : State} (h : Kept q s) (a1) (a2) (a3) (a4) (a5) : Kept q (State.unitRead s a1 a2 a3 a4 a5) := by
  unfold State.unitRead
  refine ite_kept ?_ ?_
  · exact h
  · refine ite_kept ?_ ?_
    · apply State.bump_kept
      exact h
    · apply State.stackUncorr_kept
      exact h

theorem State.lineRead_kept {q : List Instr} {s : State} (h : Kept q s) (a1) (a2) (a3) (a4) (a5) : Kept q (State.lineRead s a1 a2 a3 a4 a5) := by
  unfold State.lineRead
  extract_lets -underBinder -merge +onlyGivenNames x0
  clear_value x0
  extract_lets -underBinder -merge +onlyGivenNames x1
  have h2 : Kept q x1 := by
    unfold x1
    refine ite_kept ?_ ?_
    · exact h
    · apply State.bump_kept
      exact h
  clear_value x1
  refine ite_kept ?_ ?_
  · apply State.tileUncorr_kept
    exact h2
  · exact h2

theorem State.latentCheck_kept {q : List Instr} {s : State} (h : Kept q s) (a1) (a2) (a3) : Kept q (State.latentCheck s a1 a2 a3) := by
  unfold State.latentCheck
  extract_lets -underBinder -merge +onlyGivenNames x0
  clear_value x0
  extract_lets -underBinder -merge +onlyGivenNames x1
  have h2 : Kept q x1 := by
    unfold x1
    refine kept_mk ?_
    exact h
  clear_value x1
  split
  · apply State.lineRead_kept
    exact h2
  · apply State.unitRead_kept
    exact h2

theorem State.ladleStat_kept {q : List Instr} {s : State} (h : Kept q s) (a1) : Kept q (State.ladleStat s a1) := by
  unfold State.ladleStat
  extract_lets -underBinder -merge +onlyGivenNames x0
  clear_value x0
  apply State.setF_kept
  apply State.setF_kept
  exact h

theorem State.setLadle_kept {q : List Instr} {s : State} (h : Kept q s) (a1) : Kept q (State.setLadle s a1) := by
  unfold State.setLadle
  refine kept_mk ?_
  exact h

theorem State.dropSector_kept {q : List Instr} {s : State} (h : Kept q s) (a1) : Kept q (State.dropSector s a1) := by
  unfold State.dropSector
  extract_lets -underBinder -merge +onlyGivenNames x0
  clear_value x0
  extract_lets -underBinder -merge +onlyGivenNames x1
  clear_value x1
  apply State.ladleStat_kept
  apply State.setLadle_kept
  exact h

theorem State.wordCheck_kept {q : List Instr} {s : State} (h : Kept q s) (a1) (a2) (a3) (a4) : Kept q (State.wordCheck s a1 a2 a3 a4) := by
  unfold State.wordCheck
  extract_lets -underBinder -merge +onlyGivenNames x0
  clear_value x0
  refine ite_kept ?_ ?_
  · exact h
  · refine ite_kept ?_ ?_
    · apply State.stackUncorr_kept
      exact h
    · apply State.dropSector_kept
      apply State.bump_kept
      exact h

theorem State.checkWords_kept {q : List Instr} {s : State} (h : Kept q s) (a1) (a2) (a3) (a4) : Kept q (State.checkWords s a1 a2 a3 a4) := by
  unfold State.checkWords
  extract_lets -underBinder -merge +onlyGivenNames x0
  clear_value x0
  refine foldS_kept _ ?_ ?_
  · refine kept_mk ?_
    exact h
  · intro x1
    intro x2 x3
    apply State.wordCheck_kept
    exact x3

theorem State.injWrite_kept {q : List Instr} {s : State} (h : Kept q s) (a1) (a2) (a3) : Kept q (State.injWrite s a1 a2 a3) := by
  unfold State.injWrite
  split
  · exact h
  · extract_lets -underBinder -merge +onlyGivenNames x0
    have h1 : Kept q x0 := by
      unfold x0
      refine kept_mk ?_
      exact h
    clear_value x0
    apply State.injFire_kept
    exact h1

theorem State.injWord_kept {q : List Instr} {s : State} (h : Kept q s) (a1) (a2) : Kept q (State.injWord s a1 a2) := by
  unfold State.injWord
  extract_lets -underBinder -merge +onlyGivenNames x0
  clear_value x0
  split
  · exact h
  · apply State.injFire_kept
    refine kept_mk ?_
    exact h

theorem State.ladleBytes_kept {q : List Instr} {s : State} (h : Kept q s) (a1) (a2) : Kept q (State.ladleBytes s a1 a2) := by
  unfold State.ladleBytes
  extract_lets -underBinder -merge +onlyGivenNames x0
  have h1 : Kept q x0 := by
    unfold x0
    apply State.writeBytes_kept
    exact h
  clear_value x0
  extract_lets -underBinder -merge +onlyGivenNames x2
  clear_value x2
  apply State.injWord_kept
  refine kept_mk ?_
  exact h1

theorem State.backSector_kept {q : List Instr} {s : State} (h : Kept q s) (a1) : Kept q (State.backSector s a1) := by
  unfold State.backSector
  extract_lets -underBinder -merge +onlyGivenNames x0
  have h1 : Kept q x0 := by
    unfold x0
    apply State.checkWords_kept
    exact h
  clear_value x0
  refine ite_kept ?_ ?_
  · exact h1
  · apply State.injWrite_kept
    refine kept_mk ?_
    exact h1

theorem State.backLine_kept {q : List Instr} {s : State} (h : Kept q s) (a1) : Kept q (State.backLine s a1) := by
  unfold State.backLine
  extract_lets -underBinder -merge +onlyGivenNames x0
  have h1 : Kept q x0 := by
    unfold x0
    refine ite_kept ?_ ?_
    · apply State.backSector_kept
      exact h
    · exact h
  clear_value x0
  refine ite_kept ?_ ?_
  · apply State.backSector_kept
    exact h1
  · exact h1

theorem State.ladleSet_kept {q : List Instr} {s : State} (h : Kept q s) (a1) (a2) : Kept q (State.ladleSet s a1 a2) := by
  unfold State.ladleSet
  extract_lets -underBinder -merge +onlyGivenNames x0
  clear_value x0
  apply State.ladleStat_kept
  apply State.setLadle_kept
  refine foldS_kept _ ?_ ?_
  · exact h
  · intro x1
    intro x2 x3
    apply State.backLine_kept
    exact x3

theorem State.ladlePut_kept {q : List Instr} {s : State} (h : Kept q s) (a1) (a2) : Kept q (State.ladlePut s a1 a2) := by
  unfold State.ladlePut
  extract_lets -underBinder -merge +onlyGivenNames x0
  clear_value x0
  extract_lets -underBinder -merge +onlyGivenNames x1
  clear_value x1
  extract_lets -underBinder -merge +onlyGivenNames x2
  clear_value x2
  extract_lets -underBinder -merge +onlyGivenNames x3
  clear_value x3
  extract_lets -underBinder -merge +onlyGivenNames x4
  clear_value x4
  extract_lets -underBinder -merge +onlyGivenNames x5
  clear_value x5
  apply State.ladleSet_kept
  exact h

theorem State.ladleStay_kept {q : List Instr} {s : State} (h : Kept q s) (a1) : Kept q (State.ladleStay s a1) := by
  unfold State.ladleStay
  apply State.ladleSet_kept
  exact h

theorem State.ladleDrop_kept {q : List Instr} {s : State} (h : Kept q s) (a1) : Kept q (State.ladleDrop s a1) := by
  unfold State.ladleDrop
  extract_lets -underBinder -merge +onlyGivenNames x0
  have h1 : Kept q x0 := by
    unfold x0
    split
    · apply State.backLine_kept
      exact h
    · exact h
  clear_value x0
  apply State.ladleStat_kept
  apply State.setLadle_kept
  exact h1

theorem State.ladleClean_kept {q : List Instr} {s : State} (h : Kept q s) (a1) : Kept q (State.ladleClean s a1) := by
  unfold State.ladleClean
  split
  · apply State.ladleStay_kept
    apply State.backLine_kept
    exact h
  · exact h

theorem State.ladleHit_kept {q : List Instr} {s : State} (h : Kept q s) (a1) (a2) : Kept q (State.ladleHit s a1 a2) := by
  unfold State.ladleHit
  split
  · apply State.ladlePut_kept
    exact h
  · apply State.ladleSet_kept
    exact h
  · apply State.ladlePut_kept
    exact h
  · refine ite_kept ?_ ?_
    · extract_lets -underBinder -merge +onlyGivenNames x0
      have h1 : Kept q x0 := by
        unfold x0
        apply State.ladlePut_kept
        exact h
      clear_value x0
      refine ite_kept ?_ ?_
      · apply State.ladleClean_kept
        exact h1
      · refine kept_mk ?_
        exact h1
    · apply State.ladleDrop_kept
      exact h

theorem State.backOwed_kept {q : List Instr} {s : State} (h : Kept q s) (a1) : Kept q (State.backOwed s a1) := by
  unfold State.backOwed
  extract_lets -underBinder -merge +onlyGivenNames x0
  clear_value x0
  refine foldS_kept _ ?_ ?_
  · refine kept_mk ?_
    exact h
  · intro x1
    intro x2 x3
    apply State.ladleClean_kept
    exact x3

theorem State.ladleAlloc_kept {q : List Instr} {s : State} (h : Kept q s) (a1) (a2) (a3) : Kept q (State.ladleAlloc s a1 a2 a3) := by
  unfold State.ladleAlloc
  extract_lets -underBinder -merge +onlyGivenNames x0
  clear_value x0
  extract_lets -underBinder -merge +onlyGivenNames x1
  clear_value x1
  extract_lets -underBinder -merge +onlyGivenNames x2
  clear_value x2
  split
  · apply State.ladlePut_kept
    exact h
  · apply State.ladlePut_kept
    exact h
  · refine ite_kept ?_ ?_
    · apply State.ladlePut_kept
      exact h
    · exact h

theorem State.fetchUnit_kept {q : List Instr} {s : State} (h : Kept q s) (a1) (a2) (a3) (a4) : Kept q (State.fetchUnit s a1 a2 a3 a4) := by
  unfold State.fetchUnit
  refine ite_kept ?_ ?_
  · apply State.poisonAt_kept
    exact h
  · apply State.unitRead_kept
    apply State.latentCheck_kept
    exact h

theorem State.readLine_kept {q : List Instr} {s : State} (h : Kept q s) (a1) (a2) (a3) (a4) (a5) (a6) : Kept q (State.readLine s a1 a2 a3 a4 a5 a6) := by
  unfold State.readLine
  extract_lets -underBinder -merge +onlyGivenNames x0
  clear_value x0
  extract_lets -underBinder -merge +onlyGivenNames x1
  clear_value x1
  extract_lets -underBinder -merge +onlyGivenNames x2
  have h3 : Kept q x2 := by
    unfold x2
    apply State.bump_kept
    apply State.bump_kept
    exact h
  clear_value x2
  extract_lets -underBinder -merge +onlyGivenNames x4
  have h5 : Kept q x4 := by
    unfold x4
    refine foldS_kept _ ?_ ?_
    · exact h3
    · intro x6
      intro x7 x8
      refine ite_kept ?_ ?_
      · apply State.poisonAt_kept
        exact x8
      · exact x8
  clear_value x4
  extract_lets -underBinder -merge +onlyGivenNames x9
  have h10 : Kept q x9 := by
    unfold x9
    refine ite_kept ?_ ?_
    · exact h5
    · split
      · apply State.ladleHit_kept
        exact h5
      · exact h5
  clear_value x9
  refine foldS_kept _ ?_ ?_
  · exact h10
  · intro x11
    intro x12 x13
    apply State.ladleAlloc_kept
    apply State.fetchUnit_kept
    exact x13

theorem State.readWith_kept {q : List Instr} {s : State} (h : Kept q s) (a1) (a2) (a3) (a4) (a5) (a6) : Kept q (State.readWith s a1 a2 a3 a4 a5 a6) := by
  unfold State.readWith
  refine ite_kept ?_ ?_
  · refine foldS_kept _ ?_ ?_
    · exact h
    · intro x0
      intro x1 x2
      apply State.latentCheck_kept
      exact x2
  · extract_lets -underBinder -merge +onlyGivenNames x3
    have h4 : Kept q x3 := by
      unfold x3
      apply State.checkWords_kept
      exact h
    clear_value x3
    extract_lets -underBinder -merge +onlyGivenNames x5
    clear_value x5
    extract_lets -underBinder -merge +onlyGivenNames x6
    clear_value x6
    extract_lets -underBinder -merge +onlyGivenNames x7
    clear_value x7
    refine foldS_kept _ ?_ ?_
    · exact h4
    · intro x8
      intro x9 x10
      apply State.readLine_kept
      exact x10

theorem State.checkRead_kept {q : List Instr} {s : State} (h : Kept q s) (a1) (a2) (a3) (a4) : Kept q (State.checkRead s a1 a2 a3 a4) := by
  unfold State.checkRead
  apply State.readWith_kept
  exact h

theorem State.checkSpans_kept {q : List Instr} {s : State} (h : Kept q s) (a1) (a2) (a3) : Kept q (State.checkSpans s a1 a2 a3) := by
  unfold State.checkSpans
  refine foldS_kept _ ?_ ?_
  · exact h
  · intro x0
    intro x1 x2
    apply State.checkRead_kept
    exact x2

theorem State.storeSector_kept {q : List Instr} {s : State} (h : Kept q s) (a1) (a2) (a3) (a4) : Kept q (State.storeSector s a1 a2 a3 a4) := by
  unfold State.storeSector
  extract_lets -underBinder -merge +onlyGivenNames x0
  clear_value x0
  refine ite_kept ?_ ?_
  · extract_lets -underBinder -merge +onlyGivenNames x1
    have h2 : Kept q x1 := by
      unfold x1
      apply State.writeBytes_kept
      exact h
    clear_value x1
    refine ite_kept ?_ ?_
    · apply State.injWrite_kept
      exact h2
    · exact h2
  · refine ite_kept ?_ ?_
    · exact h
    · extract_lets -underBinder -merge +onlyGivenNames x3
      have h4 : Kept q x3 := by
        unfold x3
        refine ite_kept ?_ ?_
        · exact h
        · apply State.checkWords_kept
          exact h
      clear_value x3
      extract_lets -underBinder -merge +onlyGivenNames x5
      have h6 : Kept q x5 := by
        unfold x5
        refine ite_kept ?_ ?_
        · exact h
        · refine ite_kept ?_ ?_
          · refine ite_kept ?_ ?_
            · exact h4
            · apply State.checkWords_kept
              exact h4
          · apply State.fetchUnit_kept
            apply State.checkWords_kept
            exact h
      clear_value x5
      apply State.ladleBytes_kept
      apply State.ladleAlloc_kept
      exact h6

theorem State.storeWith_kept {q : List Instr} {s : State} (h : Kept q s) (a1) (a2) (a3) (a4) : Kept q (State.storeWith s a1 a2 a3 a4) := by
  unfold State.storeWith
  refine foldS_kept _ ?_ ?_
  · exact h
  · intro x0
    intro x1 x2
    extract_lets -underBinder -merge +onlyGivenNames x3
    clear_value x3
    extract_lets -underBinder -merge +onlyGivenNames x4
    clear_value x4
    apply State.storeSector_kept
    exact x2

theorem State.store_kept {q : List Instr} {s : State} (h : Kept q s) (a1) (a2) : Kept q (State.store s a1 a2) := by
  unfold State.store
  apply State.storeWith_kept
  exact h

theorem State.ladleReturn_kept {q : List Instr} {s : State} (h : Kept q s) (a1) (a2) : Kept q (State.ladleReturn s a1 a2) := by
  unfold State.ladleReturn
  apply State.send_kept
  exact h

theorem State.ladleWait_kept {q : List Instr} {s : State} (h : Kept q s) (a1) : Kept q (State.ladleWait s a1) := by
  unfold State.ladleWait
  refine kept_mk ?_
  exact h

theorem State.ladleRead_kept {q : List Instr} {s : State} (h : Kept q s) (a1) (a2) (a3) (a4) : Kept q (State.ladleRead s a1 a2 a3 a4) := by
  unfold State.ladleRead
  refine ite_kept ?_ ?_
  · apply State.ladleReturn_kept
    apply State.readWith_kept
    exact h
  · apply State.ladleWait_kept
    exact h

theorem State.ladleWrite_kept {q : List Instr} {s : State} (h : Kept q s) (a1) (a2) (a3) (a4) : Kept q (State.ladleWrite s a1 a2 a3 a4) := by
  unfold State.ladleWrite
  refine ite_kept ?_ ?_
  · apply State.storeWith_kept
    exact h
  · apply State.ladleWait_kept
    exact h

theorem State.missFill_kept {q : List Instr} {s : State} (h : Kept q s) (a1) (a2) (a3) : Kept q (State.missFill s a1 a2 a3) := by
  unfold State.missFill
  split
  · exact h
  · extract_lets -underBinder -merge +onlyGivenNames x0
    clear_value x0
    extract_lets -underBinder -merge +onlyGivenNames x1
    have h2 : Kept q x1 := by
      unfold x1
      refine kept_mk ?_
      exact h
    clear_value x1
    split
    · refine ite_kept ?_ ?_
      · apply State.storeWith_kept
        exact h2
      · exact h
    · refine ite_kept ?_ ?_
      · exact h
      · extract_lets -underBinder -merge +onlyGivenNames x3
        have h4 : Kept q x3 := by
          unfold x3
          refine ite_kept ?_ ?_
          · apply State.bump_kept
            exact h2
          · exact h2
        clear_value x3
        apply State.ladleReturn_kept
        apply State.readWith_kept
        exact h4

theorem State.ladleOpLine_kept {q : List Instr} {s : State} (h : Kept q s) (a1) (a2) (a3) : Kept q (State.ladleOpLine s a1 a2 a3) := by
  unfold State.ladleOpLine
  split
  · apply State.ladleClean_kept
    exact h
  · refine ite_kept ?_ ?_
    · apply State.ladleDrop_kept
      exact h
    · exact h
  · split
    · apply State.ladleStay_kept
      exact h
    · exact h
  · apply State.readWith_kept
    exact h
  · apply State.storeWith_kept
    exact h

theorem State.ladleOp_kept {q : List Instr} {s : State} (h : Kept q s) (a1) (a2) (a3) (a4) : Kept q (State.ladleOp s a1 a2 a3 a4) := by
  unfold State.ladleOp
  refine ite_kept ?_ ?_
  · refine foldS_kept _ ?_ ?_
    · exact h
    · intro x0
      intro x1 x2
      apply State.ladleOpLine_kept
      exact x2
  · refine foldS_kept _ ?_ ?_
    · exact h
    · intro x3
      intro x4 x5
      apply State.ladleOpLine_kept
      exact x5

theorem State.stackRetrain_kept {q : List Instr} {s : State} (h : Kept q s) (a1) : Kept q (State.stackRetrain s a1) := by
  unfold State.stackRetrain
  extract_lets -underBinder -merge +onlyGivenNames x0
  clear_value x0
  extract_lets -underBinder -merge +onlyGivenNames x1
  have h2 : Kept q x1 := by
    unfold x1
    refine kept_mk ?_
    exact h
  clear_value x1
  apply State.bump_kept
  apply State.setF_kept
  exact h2

theorem State.scrubUnit_kept {q : List Instr} {s : State} (h : Kept q s) (a1) (a2) : Kept q (State.scrubUnit s a1 a2) := by
  unfold State.scrubUnit
  extract_lets -underBinder -merge +onlyGivenNames x0
  clear_value x0
  extract_lets -underBinder -merge +onlyGivenNames x1
  clear_value x1
  extract_lets -underBinder -merge +onlyGivenNames x2
  have h3 : Kept q x2 := by
    unfold x2
    refine ite_kept ?_ ?_
    · exact h
    · apply State.unitRead_kept
      apply State.latentCheck_kept
      exact h
  clear_value x2
  extract_lets -underBinder -merge +onlyGivenNames x4
  clear_value x4
  extract_lets -underBinder -merge +onlyGivenNames x5
  clear_value x5
  extract_lets -underBinder -merge +onlyGivenNames x6
  have h7 : Kept q x6 := by
    unfold x6
    refine kept_mk ?_
    exact h3
  clear_value x6
  extract_lets -underBinder -merge +onlyGivenNames x8
  clear_value x8
  extract_lets -underBinder -merge +onlyGivenNames x9
  clear_value x9
  extract_lets -underBinder -merge +onlyGivenNames x10
  clear_value x10
  apply State.setF_kept
  apply State.setF_kept
  exact h7

theorem State.turnRead_kept {q : List Instr} {s : State} (h : Kept q s) (a1) (a2) : Kept q (State.turnRead s a1 a2) := by
  unfold State.turnRead
  refine foldS_kept _ ?_ ?_
  · exact h
  · intro x0
    intro x1 x2
    apply State.readWith_kept
    exact x2

theorem State.scrambleRange_kept {q : List Instr} {s : State} (h : Kept q s) (a1) (a2) : Kept q (State.scrambleRange s a1 a2) := by
  unfold State.scrambleRange
  refine foldS_kept _ ?_ ?_
  · exact h
  · intro x0
    intro x1 x2
    split
    apply State.store_kept
    refine snd_kept (by assumption) ?_
    apply State.draw_kept
    exact x2

theorem State.accEntry_kept {q : List Instr} {s : State} (h : Kept q s) (a1) (a2) (a3) (a4) : Kept q (State.accEntry s a1 a2 a3 a4).2 := by
  unfold State.accEntry
  extract_lets -underBinder -merge +onlyGivenNames x0
  clear_value x0
  split
  · split
    · refine snd_mk ?_
      exact h
    · extract_lets -underBinder -merge +onlyGivenNames x1
      have h2 : Kept q x1.2 := by
        unfold x1
        apply State.draw_kept
        exact h
      clear_value x1
      refine snd_mk ?_
      exact h2
  · extract_lets -underBinder -merge +onlyGivenNames x3
    have h4 : Kept q x3.2 := by
      unfold x3
      apply State.draw_kept
      exact h
    clear_value x3
    refine snd_mk ?_
    exact h4

theorem VecRun.vecElem_kept {q : List Instr} {s : State} (h : Kept q s) (a0) (a2) (a3) : Kept q (VecRun.vecElem a0 s a2 a3).2 := by
  unfold VecRun.vecElem
  refine ite_kept2 ?_ ?_
  · extract_lets -underBinder -merge +onlyGivenNames x0
    have h1 : Kept q x0.2 := by
      unfold x0
      apply State.draw_kept
      exact h
    clear_value x0
    refine snd_mk ?_
    exact h1
  · refine snd_mk ?_
    exact h

theorem VecRun.source_kept {q : List Instr} {s : State} (h : Kept q s) (a0) (a2) (a3) (a4) (a5) (a6) (a7) : Kept q (VecRun.source a0 s a2 a3 a4 a5 a6 a7).2 := by
  unfold VecRun.source
  extract_lets -underBinder -merge +onlyGivenNames x0
  clear_value x0
  refine ite_kept2 ?_ ?_
  · refine snd_mk ?_
    exact h
  · refine ite_kept2 ?_ ?_
    · apply State.accEntry_kept
      exact h
    · refine ite_kept2 ?_ ?_
      · refine snd_mk ?_
        exact h
      · refine ite_kept2 ?_ ?_
        · refine snd_mk ?_
          exact h
        · refine ite_kept2 ?_ ?_
          · split
            · refine snd_mk ?_
              exact h
            · split
              · refine snd_mk ?_
                exact h
              · extract_lets -underBinder -merge +onlyGivenNames x1
                have h2 : Kept q x1.2 := by
                  unfold x1
                  apply State.draw_kept
                  exact h
                clear_value x1
                refine snd_mk ?_
                exact h2
          · refine ite_kept2 ?_ ?_
            · apply VecRun.vecElem_kept
              exact h
            · refine ite_kept2 ?_ ?_
              · apply VecRun.vecElem_kept
                exact h
              · refine ite_kept2 ?_ ?_
                · refine snd_mk ?_
                  exact h
                · refine ite_kept2 ?_ ?_
                  · refine snd_mk ?_
                    exact h
                  · refine ite_kept2 ?_ ?_
                    · refine snd_mk ?_
                      exact h
                    · refine snd_mk ?_
                      exact h

theorem State.trOp_kept {q : List Instr} {s : State} (h : Kept q s) (a1) (a2) (a3) : Kept q (State.trOp s a1 a2 a3).2 := by
  unfold State.trOp
  extract_lets -underBinder -merge +onlyGivenNames x0
  have h1 : Kept q x0.2 := by
    unfold x0
    apply State.draw_kept
    exact h
  clear_value x0
  extract_lets -underBinder -merge +onlyGivenNames x2
  clear_value x2
  refine ite_kept2 ?_ ?_
  · extract_lets -underBinder -merge +onlyGivenNames x3
    clear_value x3
    refine snd_mk ?_
    exact h1
  · refine snd_mk ?_
    exact h1

theorem Pass.lane_kept {q : List Instr} {p : Pass} (h : Kept q p.s) (a1) (a2) (a3) (a4) (a5) (a6) (a7) : Kept q (Pass.lane p a1 a2 a3 a4 a5 a6 a7).s := by
  unfold Pass.lane
  extract_lets -underBinder -merge +onlyGivenNames x0
  clear_value x0
  extract_lets -underBinder -merge +onlyGivenNames x1
  extract_lets -underBinder -merge +onlyGivenNames x2
  split
  · unfold x2
    refine pass_mk ?_
    exact h
  · extract_lets -underBinder -merge +onlyGivenNames x3
    have h4 : Kept q x3.2 := by
      unfold x3
      apply VecRun.source_kept
      exact h
    clear_value x3
    extract_lets -underBinder -merge +onlyGivenNames x5
    clear_value x5
    unfold x1
    extract_lets -underBinder -merge +onlyGivenNames x6
    clear_value x6
    refine pass_mk ?_
    exact h4
  · extract_lets -underBinder -merge +onlyGivenNames x7
    have h8 : Kept q x7.2 := by
      unfold x7
      apply VecRun.source_kept
      exact h
    clear_value x7
    extract_lets -underBinder -merge +onlyGivenNames x9
    have h10 : Kept q x9.2 := by
      unfold x9
      apply VecRun.source_kept
      exact h8
    clear_value x9
    extract_lets -underBinder -merge +onlyGivenNames x11
    clear_value x11
    extract_lets -underBinder -merge +onlyGivenNames x12
    clear_value x12
    extract_lets -underBinder -merge +onlyGivenNames x13
    clear_value x13
    unfold x1
    extract_lets -underBinder -merge +onlyGivenNames x14
    clear_value x14
    refine pass_mk ?_
    exact h10
  · extract_lets -underBinder -merge +onlyGivenNames x15
    have h16 : Kept q x15.2 := by
      unfold x15
      apply VecRun.source_kept
      exact h
    clear_value x15
    extract_lets -underBinder -merge +onlyGivenNames x17
    clear_value x17
    split
    · unfold x2
      refine pass_mk ?_
      exact h16
    · extract_lets -underBinder -merge +onlyGivenNames x18
      clear_value x18
      unfold x1
      extract_lets -underBinder -merge +onlyGivenNames x19
      clear_value x19
      refine pass_mk ?_
      exact h16
  · extract_lets -underBinder -merge +onlyGivenNames x20
    have h21 : Kept q x20.2 := by
      unfold x20
      apply VecRun.source_kept
      exact h
    clear_value x20
    extract_lets -underBinder -merge +onlyGivenNames x22
    have h23 : Kept q x22.2 := by
      unfold x22
      apply VecRun.source_kept
      exact h21
    clear_value x22
    extract_lets -underBinder -merge +onlyGivenNames x24
    have h25 : Kept q x24.2 := by
      unfold x24
      apply VecRun.source_kept
      exact h23
    clear_value x24
    extract_lets -underBinder -merge +onlyGivenNames x26
    clear_value x26
    extract_lets -underBinder -merge +onlyGivenNames x27
    clear_value x27
    extract_lets -underBinder -merge +onlyGivenNames x28
    clear_value x28
    split
    · unfold x2
      refine pass_mk ?_
      exact h25
    · extract_lets -underBinder -merge +onlyGivenNames x29
      clear_value x29
      extract_lets -underBinder -merge +onlyGivenNames x30
      clear_value x30
      extract_lets -underBinder -merge +onlyGivenNames x31
      clear_value x31
      extract_lets -underBinder -merge +onlyGivenNames x32
      have h33 : Kept q x32.2 := by
        unfold x32
        apply State.draw_kept
        exact h25
      clear_value x32
      extract_lets -underBinder -merge +onlyGivenNames x34
      have h35 : Kept q x34.2 := by
        unfold x34
        refine ite_kept2 ?_ ?_
        · refine snd_mk ?_
          exact h25
        · refine snd_mk ?_
          exact h33
      clear_value x34
      extract_lets -underBinder -merge +onlyGivenNames x36
      clear_value x36
      extract_lets -underBinder -merge +onlyGivenNames x37
      clear_value x37
      unfold x2
      refine pass_mk ?_
      exact h35
  · extract_lets -underBinder -merge +onlyGivenNames x38
    have h39 : Kept q x38.2 := by
      unfold x38
      apply VecRun.source_kept
      exact h
    clear_value x38
    extract_lets -underBinder -merge +onlyGivenNames x40
    clear_value x40
    extract_lets -underBinder -merge +onlyGivenNames x41
    clear_value x41
    refine ite_keptP ?_ ?_
    · unfold x1
      extract_lets -underBinder -merge +onlyGivenNames x42
      clear_value x42
      refine pass_mk ?_
      exact h39
    · split
      · unfold x2
        refine pass_mk ?_
        exact h39
      · extract_lets -underBinder -merge +onlyGivenNames x43
        clear_value x43
        extract_lets -underBinder -merge +onlyGivenNames x44
        clear_value x44
        unfold x1
        extract_lets -underBinder -merge +onlyGivenNames x45
        clear_value x45
        refine pass_mk ?_
        exact h39
  · extract_lets -underBinder -merge +onlyGivenNames x46
    have h47 : Kept q x46.2 := by
      unfold x46
      apply VecRun.source_kept
      exact h
    clear_value x46
    extract_lets -underBinder -merge +onlyGivenNames x48
    have h49 : Kept q x48.2 := by
      unfold x48
      apply VecRun.source_kept
      exact h47
    clear_value x48
    extract_lets -underBinder -merge +onlyGivenNames x50
    clear_value x50
    extract_lets -underBinder -merge +onlyGivenNames x51
    clear_value x51
    extract_lets -underBinder -merge +onlyGivenNames x52
    clear_value x52
    extract_lets -underBinder -merge +onlyGivenNames x53
    clear_value x53
    extract_lets -underBinder -merge +onlyGivenNames x54
    clear_value x54
    refine ite_keptP ?_ ?_
    · unfold x2
      refine pass_mk ?_
      exact h49
    · split
      · unfold x2
        refine pass_mk ?_
        exact h49
      · extract_lets -underBinder -merge +onlyGivenNames x55
        clear_value x55
        extract_lets -underBinder -merge +onlyGivenNames x56
        clear_value x56
        extract_lets -underBinder -merge +onlyGivenNames x57
        clear_value x57
        unfold x2
        refine pass_mk ?_
        exact h49
  · extract_lets -underBinder -merge +onlyGivenNames x58
    have h59 : Kept q x58.2 := by
      unfold x58
      apply VecRun.source_kept
      exact h
    clear_value x58
    extract_lets -underBinder -merge +onlyGivenNames x60
    clear_value x60
    unfold x1
    extract_lets -underBinder -merge +onlyGivenNames x61
    clear_value x61
    refine pass_mk ?_
    exact h59
  · extract_lets -underBinder -merge +onlyGivenNames x62
    have h63 : Kept q x62.2 := by
      unfold x62
      apply VecRun.source_kept
      exact h
    clear_value x62
    extract_lets -underBinder -merge +onlyGivenNames x64
    clear_value x64
    unfold x1
    extract_lets -underBinder -merge +onlyGivenNames x65
    clear_value x65
    refine pass_mk ?_
    exact h63
  · extract_lets -underBinder -merge +onlyGivenNames x66
    clear_value x66
    extract_lets -underBinder -merge +onlyGivenNames x67
    clear_value x67
    extract_lets -underBinder -merge +onlyGivenNames x68
    clear_value x68
    extract_lets -underBinder -merge +onlyGivenNames x69
    clear_value x69
    unfold x1
    extract_lets -underBinder -merge +onlyGivenNames x70
    clear_value x70
    refine pass_mk ?_
    exact h
  · split
    · extract_lets -underBinder -merge +onlyGivenNames x71
      have h72 : Kept q x71.2 := by
        unfold x71
        apply VecRun.source_kept
        exact h
      clear_value x71
      extract_lets -underBinder -merge +onlyGivenNames x73
      clear_value x73
      extract_lets -underBinder -merge +onlyGivenNames x74
      have h75 : Kept q x74.2 := by
        unfold x74
        apply State.trOp_kept
        exact h72
      clear_value x74
      unfold x1
      extract_lets -underBinder -merge +onlyGivenNames x76
      clear_value x76
      refine pass_mk ?_
      exact h75
    · extract_lets -underBinder -merge +onlyGivenNames x77
      have h78 : Kept q x77.2 := by
        unfold x77
        apply VecRun.source_kept
        exact h
      clear_value x77
      extract_lets -underBinder -merge +onlyGivenNames x79
      have h80 : Kept q x79.2 := by
        unfold x79
        apply VecRun.source_kept
        exact h78
      clear_value x79
      extract_lets -underBinder -merge +onlyGivenNames x81
      have h82 : Kept q x81.2 := by
        unfold x81
        apply VecRun.source_kept
        exact h80
      clear_value x81
      extract_lets -underBinder -merge +onlyGivenNames x83
      clear_value x83
      extract_lets -underBinder -merge +onlyGivenNames x84
      clear_value x84
      extract_lets -underBinder -merge +onlyGivenNames x85
      clear_value x85
      extract_lets -underBinder -merge +onlyGivenNames x86
      clear_value x86
      extract_lets -underBinder -merge +onlyGivenNames x87
      clear_value x87
      extract_lets -underBinder -merge +onlyGivenNames x88
      clear_value x88
      unfold x1
      extract_lets -underBinder -merge +onlyGivenNames x89
      clear_value x89
      refine pass_mk ?_
      refine ite_kept ?_ ?_
      · exact h82
      · refine ite_kept ?_ ?_
        · exact h80
        · exact h78

theorem Pass.gatherA_kept {q : List Instr} {p : Pass} (h : Kept q p.s) (w i t l acc) : Kept q (Pass.gatherA p w i t l acc).1.s := by
  induction l generalizing p acc with
  | nil => exact h
  | cons y l ih =>
    obtain ⟨lane, e, l⟩ := y
    unfold Pass.gatherA
    exact ih (pass_mk (VecRun.source_kept h _ _ _ _ _ _ _)) _

theorem VecRun.insn_kept {q : List Instr} {s : State} (h : Kept q s) (r w i) : Kept q (VecRun.insn r s w i).1 := by
  unfold VecRun.insn
  split
  · exact h
  · extract_lets items exch g p
    have hg : Kept q g.1.s := by
      unfold g
      split
      · exact Pass.gatherA_kept (pass_mk h) _ _ _ _ _
      · exact h
    clear_value g
    exact foldP_kept _ hg fun z x hz => Pass.lane_kept hz _ _ _ _ _ _ _

theorem VecRun.trRead_kept {q : List Instr} {s : State} (h : Kept q s) (a0) (a2) (a3) (a4) : Kept q (VecRun.trRead a0 s a2 a3 a4).2 := by
  unfold VecRun.trRead
  split
  · refine snd_mk ?_
    exact h
  · split
    · refine snd_mk ?_
      exact h
    · extract_lets -underBinder -merge +onlyGivenNames x0
      have h1 : Kept q x0.2 := by
        unfold x0
        apply State.draw_kept
        exact h
      clear_value x0
      refine snd_mk ?_
      exact h1

theorem VecRun.trList_kept {q : List Instr} {s : State} (h : Kept q s) (r w l acc) : Kept q (VecRun.trList r w s l acc).2 := by
  induction l generalizing s acc with
  | nil => exact h
  | cons p t ih => exact ih (VecRun.trRead_kept h _ _ _ _) _

theorem VecRun.reduce_kept {q : List Instr} {s : State} (h : Kept q s) (a0) (a2) : Kept q (VecRun.reduce a0 s a2).1 := by
  unfold VecRun.reduce
  extract_lets -underBinder -merge +onlyGivenNames x0
  clear_value x0
  refine ite_kept1 ?_ ?_
  · refine fst_mk ?_
    exact h
  · extract_lets -underBinder -merge +onlyGivenNames x1
    clear_value x1
    extract_lets -underBinder -merge +onlyGivenNames x2
    clear_value x2
    extract_lets -underBinder -merge +onlyGivenNames x3
    clear_value x3
    extract_lets -underBinder -merge +onlyGivenNames x4
    extract_lets -underBinder -merge +onlyGivenNames x5
    have h6 : Kept q x5.1 := by
      unfold x5
      refine foldl1_kept _ ?_ ?_
      · refine fst_mk ?_
        exact h
      · intro x7
        intro x8 x9
        unfold x4
        extract_lets -underBinder -merge +onlyGivenNames x10
        have h11 : Kept q x10.2 := by
          unfold x10
          apply VecRun.trList_kept
          exact x9
        clear_value x10
        extract_lets -underBinder -merge +onlyGivenNames x12
        clear_value x12
        refine fst_mk ?_
        exact h11
    clear_value x5
    refine fst_mk ?_
    exact h6

theorem State.putElem_kept {q : List Instr} {s : State} (h : Kept q s) (a1) : Kept q (State.putElem s a1) := by
  unfold State.putElem
  extract_lets -underBinder -merge +onlyGivenNames x0
  clear_value x0
  extract_lets -underBinder -merge +onlyGivenNames x1
  clear_value x1
  extract_lets -underBinder -merge +onlyGivenNames x2
  clear_value x2
  apply State.store_kept
  exact h

theorem State.putSector_kept {q : List Instr} {s : State} (h : Kept q s) (a1) (a2) : Kept q (State.putSector s a1 a2) := by
  unfold State.putSector
  extract_lets -underBinder -merge +onlyGivenNames x0
  clear_value x0
  extract_lets -underBinder -merge +onlyGivenNames x1
  have h2 : Kept q x1 := by
    unfold x1
    refine foldS_kept _ ?_ ?_
    · exact h
    · intro x3
      intro x4 x5
      apply State.putElem_kept
      exact x5
  clear_value x1
  refine ite_kept ?_ ?_
  · apply State.store_kept
    exact h
  · exact h2

theorem State.putOuts_kept {q : List Instr} {s : State} (h : Kept q s) (a1) : Kept q (State.putOuts s a1) := by
  unfold State.putOuts
  refine foldS_kept _ ?_ ?_
  · exact h
  · intro x0
    intro x1 x2
    apply State.putSector_kept
    exact x2

theorem State.wingBusy_kept {q : List Instr} {s : State} (h : Kept q s) (a1) : Kept q (State.wingBusy s a1) := by
  unfold State.wingBusy
  refine ite_kept ?_ ?_
  · apply State.setWingState_kept
    exact h
  · exact h

theorem State.setTiles_kept {q : List Instr} {s : State} (h : Kept q s) (a1) (a2) : Kept q (State.setTiles s a1 a2) := by
  unfold State.setTiles
  extract_lets -underBinder -merge +onlyGivenNames x0
  have h1 : Kept q x0 := by
    unfold x0
    apply State.setWing_kept
    exact h
  clear_value x0
  extract_lets -underBinder -merge +onlyGivenNames x2
  have h3 : Kept q x2 := by
    unfold x2
    apply State.setF_kept
    exact h1
  clear_value x2
  extract_lets -underBinder -merge +onlyGivenNames x4
  have h5 : Kept q x4 := by
    unfold x4
    apply State.setF_kept
    exact h3
  clear_value x4
  apply State.setF_kept
  exact h5

theorem State.setCol_kept {q : List Instr} {s : State} (h : Kept q s) (a1) (a2) (a3) (a4) : Kept q (State.setCol s a1 a2 a3 a4) := by
  unfold State.setCol
  extract_lets -underBinder -merge +onlyGivenNames x0
  clear_value x0
  apply State.setWing_kept
  exact h

theorem State.setJob_kept {q : List Instr} {s : State} (h : Kept q s) (a1) (a2) : Kept q (State.setJob s a1 a2) := by
  unfold State.setJob
  extract_lets -underBinder -merge +onlyGivenNames x0
  clear_value x0
  apply State.setWing_kept
  exact h

theorem State.loadTile_kept {q : List Instr} {s : State} (h : Kept q s) (a1) (a2) : Kept q (State.loadTile s a1 a2) := by
  unfold State.loadTile
  extract_lets -underBinder -merge +onlyGivenNames x0
  clear_value x0
  extract_lets -underBinder -merge +onlyGivenNames x1
  clear_value x1
  extract_lets -underBinder -merge +onlyGivenNames x2
  clear_value x2
  extract_lets -underBinder -merge +onlyGivenNames x3
  have h4 : Kept q x3 := by
    unfold x3
    refine foldS_kept _ ?_ ?_
    · exact h
    · intro x5
      intro x6 x7
      apply State.checkRead_kept
      exact x7
  clear_value x3
  extract_lets -underBinder -merge +onlyGivenNames x8
  clear_value x8
  extract_lets -underBinder -merge +onlyGivenNames x9
  clear_value x9
  extract_lets -underBinder -merge +onlyGivenNames x10
  clear_value x10
  extract_lets -underBinder -merge +onlyGivenNames x11
  have h12 : Kept q x11 := by
    unfold x11
    apply State.setTiles_kept
    exact h4
  clear_value x11
  apply State.setJob_kept
  exact h12

theorem State.drawN_kept {q : List Instr} {s : State} (h : Kept q s) (n) (acc) : Kept q (State.drawN n s acc).2 := by
  induction n generalizing s acc with
  | zero => exact h
  | succ n ih => exact ih (State.draw_kept h) _

theorem State.openCol_kept {q : List Instr} {s : State} (h : Kept q s) (a1) (a2) (a3) (a4) : Kept q (State.openCol s a1 a2 a3 a4) := by
  unfold State.openCol
  extract_lets -underBinder -merge +onlyGivenNames x0
  clear_value x0
  refine ite_kept ?_ ?_
  · extract_lets -underBinder -merge +onlyGivenNames x1
    have h2 : Kept q x1.2 := by
      unfold x1
      split
      · refine snd_mk ?_
        exact h
      · extract_lets -underBinder -merge +onlyGivenNames x3
        have h4 : Kept q x3.2 := by
          unfold x3
          apply State.drawN_kept
          exact h
        clear_value x3
        refine snd_mk ?_
        exact h4
    clear_value x1
    extract_lets -underBinder -merge +onlyGivenNames x5
    clear_value x5
    apply State.setCol_kept
    exact h2
  · apply State.setCol_kept
    exact h

theorem State.stepArray_kept {q : List Instr} {s : State} (h : Kept q s) (a1) (a2) (a3) (a4) (a5) : Kept q (State.stepArray s a1 a2 a3 a4 a5) := by
  unfold State.stepArray
  extract_lets -underBinder -merge +onlyGivenNames x0
  clear_value x0
  extract_lets -underBinder -merge +onlyGivenNames x1
  clear_value x1
  extract_lets -underBinder -merge +onlyGivenNames x2
  clear_value x2
  extract_lets -underBinder -merge +onlyGivenNames x3
  have h4 : Kept q x3 := by
    unfold x3
    apply State.setWing_kept
    exact h
  clear_value x3
  extract_lets -underBinder -merge +onlyGivenNames x5
  clear_value x5
  extract_lets -underBinder -merge +onlyGivenNames x6
  have h7 : Kept q x6 := by
    unfold x6
    refine ite_kept ?_ ?_
    · apply State.openCol_kept
      exact h4
    · exact h4
  clear_value x6
  extract_lets -underBinder -merge +onlyGivenNames x8
  clear_value x8
  extract_lets -underBinder -merge +onlyGivenNames x9
  clear_value x9
  extract_lets -underBinder -merge +onlyGivenNames x10
  clear_value x10
  extract_lets -underBinder -merge +onlyGivenNames x11
  clear_value x11
  extract_lets -underBinder -merge +onlyGivenNames x12
  clear_value x12
  extract_lets -underBinder -merge +onlyGivenNames x13
  have h14 : Kept q x13.2 := by
    unfold x13
    refine ite_kept2 ?_ ?_
    · apply State.drawN_kept
      exact h7
    · refine snd_mk ?_
      exact h7
  clear_value x13
  extract_lets -underBinder -merge +onlyGivenNames x15
  have h16 : Kept q x15 := by
    unfold x15
    exact h14
  clear_value x15
  extract_lets -underBinder -merge +onlyGivenNames x17
  clear_value x17
  extract_lets -underBinder -merge +onlyGivenNames x18
  clear_value x18
  extract_lets -underBinder -merge +onlyGivenNames x19
  clear_value x19
  extract_lets -underBinder -merge +onlyGivenNames x20
  clear_value x20
  extract_lets -underBinder -merge +onlyGivenNames x21
  clear_value x21
  extract_lets -underBinder -merge +onlyGivenNames x22
  clear_value x22
  extract_lets -underBinder -merge +onlyGivenNames x23
  have h24 : Kept q x23 := by
    unfold x23
    apply State.setCol_kept
    exact h16
  clear_value x23
  split
  · apply State.setJob_kept
    exact h24
  · exact h24

theorem State.arrayStep_kept {q : List Instr} {s : State} (h : Kept q s) (a1) (a2) : Kept q (State.arrayStep s a1 a2) := by
  unfold State.arrayStep
  split
  · exact h
  · refine ite_kept ?_ ?_
    · exact h
    · split
      · exact h
      · extract_lets -underBinder -merge +onlyGivenNames x0
        clear_value x0
        extract_lets -underBinder -merge +onlyGivenNames x1
        have h2 : Kept q x1 := by
          unfold x1
          apply State.setTiles_kept
          exact h
        clear_value x1
        extract_lets -underBinder -merge +onlyGivenNames x3
        have h4 : Kept q x3 := by
          unfold x3
          refine foldS_kept _ ?_ ?_
          · exact h2
          · intro x5
            intro x6 x7
            apply State.stepArray_kept
            exact x7
        clear_value x3
        extract_lets -underBinder -merge +onlyGivenNames x8
        have h9 : Kept q x8 := by
          unfold x8
          apply State.setF_kept
          exact h4
        clear_value x8
        split
        · apply State.setJob_kept
          exact h9
        · exact h9

theorem State.mismatchRec_kept {q : List Instr} {s : State} (h : Kept q s) (a1) (a2) (a3) (a4) : Kept q (State.mismatchRec s a1 a2 a3 a4) := by
  unfold State.mismatchRec
  extract_lets -underBinder -merge +onlyGivenNames x0
  clear_value x0
  extract_lets -underBinder -merge +onlyGivenNames x1
  have h2 : Kept q x1 := by
    unfold x1
    apply State.wr_kept
    exact h
  clear_value x1
  extract_lets -underBinder -merge +onlyGivenNames x3
  have h4 : Kept q x3 := by
    unfold x3
    apply State.wr_kept
    exact h2
  clear_value x3
  extract_lets -underBinder -merge +onlyGivenNames x5
  have h6 : Kept q x5 := by
    unfold x5
    apply State.wr_kept
    exact h4
  clear_value x5
  extract_lets -underBinder -merge +onlyGivenNames x7
  have h8 : Kept q x7 := by
    unfold x7
    apply State.wr_kept
    exact h6
  clear_value x7
  apply State.bump_kept
  apply State.setF_kept
  exact h8

theorem State.noteStress_kept {q : List Instr} {s : State} (h : Kept q s) (a1) (a2) (a3) (a4) : Kept q (State.noteStress s a1 a2 a3 a4) := by
  unfold State.noteStress
  refine kept_mk ?_
  exact h

theorem State.mismatch_kept {q : List Instr} {s : State} (h : Kept q s) (a1) (a2) (a3) (a4) (a5) : Kept q (State.mismatch s a1 a2 a3 a4 a5) := by
  unfold State.mismatch
  extract_lets -underBinder -merge +onlyGivenNames x0
  clear_value x0
  extract_lets -underBinder -merge +onlyGivenNames x1
  clear_value x1
  extract_lets -underBinder -merge +onlyGivenNames x2
  clear_value x2
  extract_lets -underBinder -merge +onlyGivenNames x3
  clear_value x3
  extract_lets -underBinder -merge +onlyGivenNames x4
  clear_value x4
  extract_lets -underBinder -merge +onlyGivenNames x5
  clear_value x5
  extract_lets -underBinder -merge +onlyGivenNames x6
  clear_value x6
  extract_lets -underBinder -merge +onlyGivenNames x7
  clear_value x7
  extract_lets -underBinder -merge +onlyGivenNames x8
  have h9 : Kept q x8 := by
    unfold x8
    apply State.noteStress_kept
    apply State.mismatchRec_kept
    exact h
  clear_value x8
  extract_lets -underBinder -merge +onlyGivenNames x10
  clear_value x10
  apply State.raiseX_kept
  exact h9

theorem State.checkCol_kept {q : List Instr} {s : State} (h : Kept q s) (a1) (a2) (a3) : Kept q (State.checkCol s a1 a2 a3).1 := by
  unfold State.checkCol
  extract_lets -underBinder -merge +onlyGivenNames x0
  clear_value x0
  extract_lets -underBinder -merge +onlyGivenNames x1
  clear_value x1
  extract_lets -underBinder -merge +onlyGivenNames x2
  clear_value x2
  extract_lets -underBinder -merge +onlyGivenNames x3
  clear_value x3
  split
  split
  · refine fst_mk ?_
    apply State.setCol_kept
    apply State.bump_kept
    refine snd_kept (by assumption) ?_
    split
    · refine snd_mk ?_
      exact h
    · refine snd_mk ?_
      apply State.injFire_kept
      exact h
  · refine fst_mk ?_
    apply State.setCol_kept
    apply State.bump_kept
    refine snd_kept (by assumption) ?_
    split
    · refine snd_mk ?_
      exact h
    · refine snd_mk ?_
      apply State.injFire_kept
      exact h
  · extract_lets -underBinder -merge +onlyGivenNames x4
    have h5 : Kept q x4 := by
      unfold x4
      apply State.bump_kept
      apply State.bump_kept
      refine snd_kept (by assumption) ?_
      split
      · refine snd_mk ?_
        exact h
      · refine snd_mk ?_
        apply State.injFire_kept
        exact h
    clear_value x4
    refine fst_mk ?_
    apply State.mismatch_kept
    apply State.setCol_kept
    exact h5

theorem State.startRun_kept {q : List Instr} {s : State} (h : Kept q s) (a1) : Kept q (State.startRun s a1) := by
  unfold State.startRun
  extract_lets -underBinder -merge +onlyGivenNames x0
  clear_value x0
  refine ite_kept ?_ ?_
  · exact h
  · split
    · exact h
    · extract_lets -underBinder -merge +onlyGivenNames x1
      clear_value x1
      refine ite_kept ?_ ?_
      · exact h
      · extract_lets -underBinder -merge +onlyGivenNames x2
        clear_value x2
        apply State.setF_kept
        apply State.setF_kept
        apply State.setWing_kept
        exact h
    · extract_lets -underBinder -merge +onlyGivenNames x3
      clear_value x3
      extract_lets -underBinder -merge +onlyGivenNames x4
      clear_value x4
      refine ite_kept ?_ ?_
      · extract_lets -underBinder -merge +onlyGivenNames x5
        clear_value x5
        extract_lets -underBinder -merge +onlyGivenNames x6
        clear_value x6
        apply State.setF_kept
        apply State.setF_kept
        apply State.setWing_kept
        exact h
      · exact h

theorem State.finishUnit_kept {q : List Instr} {s : State} (h : Kept q s) (a1) (a2) : Kept q (State.finishUnit s a1 a2) := by
  unfold State.finishUnit
  extract_lets -underBinder -merge +onlyGivenNames x0
  have h1 : Kept q x0.1 := by
    unfold x0
    apply VecRun.reduce_kept
    exact h
  clear_value x0
  extract_lets -underBinder -merge +onlyGivenNames x2
  clear_value x2
  extract_lets -underBinder -merge +onlyGivenNames x3
  clear_value x3
  extract_lets -underBinder -merge +onlyGivenNames x4
  have h5 : Kept q x4 := by
    unfold x4
    exact h1
  clear_value x4
  extract_lets -underBinder -merge +onlyGivenNames x6
  clear_value x6
  extract_lets -underBinder -merge +onlyGivenNames x7
  clear_value x7
  extract_lets -underBinder -merge +onlyGivenNames x8
  have h9 : Kept q x8 := by
    unfold x8
    refine ite_kept ?_ ?_
    · exact h5
    · apply State.setF_kept
      exact h5
  clear_value x8
  extract_lets -underBinder -merge +onlyGivenNames x10
  clear_value x10
  extract_lets -underBinder -merge +onlyGivenNames x11
  have h12 : Kept q x11 := by
    unfold x11
    apply State.setWing_kept
    exact h9
  clear_value x11
  refine ite_kept ?_ ?_
  · refine foldS_kept _ ?_ ?_
    · exact h12
    · intro x13
      intro x14 x15
      refine foldS_kept _ ?_ ?_
      · exact x15
      · intro x16
        intro x17 x18
        apply State.setCol_kept
        exact x18
  · exact h12

theorem State.runCheck_kept {q : List Instr} {s : State} (h : Kept q s) (a1) (a2) (a3) : Kept q (State.runCheck s a1 a2 a3).1 := by
  unfold State.runCheck
  extract_lets -underBinder -merge +onlyGivenNames x0
  have h1 : Kept q x0 := by
    unfold x0
    apply State.checkSpans_kept
    exact h
  clear_value x0
  refine fst_mk ?_
  exact h1

theorem State.runInsn_kept {q : List Instr} {s : State} (h : Kept q s) (a1) (a2) : Kept q (State.runInsn s a1 a2) := by
  unfold State.runInsn
  split
  · exact h
  · refine ite_kept ?_ ?_
    · exact h
    · split
      · exact h
      · refine ite_kept ?_ ?_
        · exact h
        · extract_lets -underBinder -merge +onlyGivenNames x0
          have h1 : Kept q x0.1 := by
            unfold x0
            apply State.runCheck_kept
            exact h
          clear_value x0
          extract_lets -underBinder -merge +onlyGivenNames x2
          have h3 : Kept q x2.1 := by
            unfold x2
            apply VecRun.insn_kept
            exact h1
          clear_value x2
          extract_lets -underBinder -merge +onlyGivenNames x4
          clear_value x4
          extract_lets -underBinder -merge +onlyGivenNames x5
          clear_value x5
          extract_lets -underBinder -merge +onlyGivenNames x6
          have h7 : Kept q x6 := by
            unfold x6
            apply State.setF_kept
            exact h3
          clear_value x6
          extract_lets -underBinder -merge +onlyGivenNames x8
          clear_value x8
          extract_lets -underBinder -merge +onlyGivenNames x9
          clear_value x9
          extract_lets -underBinder -merge +onlyGivenNames x10
          have h11 : Kept q x10 := by
            unfold x10
            apply State.setWing_kept
            exact h7
          clear_value x10
          refine ite_kept ?_ ?_
          · apply State.finishUnit_kept
            exact h11
          · exact h11

theorem State.streamValidate_kept {q : List Instr} {s : State} (h : Kept q s) (a1) (a2) : Kept q (State.streamValidate s a1 a2) := by
  unfold State.streamValidate
  refine ite_kept ?_ ?_
  · apply State.setF_kept
    apply State.setF_kept
    exact h
  · extract_lets -underBinder -merge +onlyGivenNames x0
    have h1 : Kept q x0 := by
      unfold x0
      apply State.setF_kept
      apply State.setF_kept
      exact h
    clear_value x0
    extract_lets -underBinder -merge +onlyGivenNames x2
    have h3 : Kept q x2 := by
      unfold x2
      apply State.setF_kept
      apply State.setF_kept
      exact h1
    clear_value x2
    apply State.cfgErr_kept
    exact h3

theorem State.setInst_kept {q : List Instr} {s : State} (h : Kept q s) (a1) : Kept q (State.setInst s a1) := by
  unfold State.setInst
  refine kept_mk ?_
  exact h

theorem State.dropInst_kept {q : List Instr} {s : State} (h : Kept q s) (a1) : Kept q (State.dropInst s a1) := by
  unfold State.dropInst
  refine kept_mk ?_
  exact h

theorem State.streamBusy_kept {q : List Instr} {s : State} (h : Kept q s) (a1) : Kept q (State.streamBusy s a1) := by
  unfold State.streamBusy
  apply State.setF_kept
  exact h

theorem State.slotBusy_kept {q : List Instr} {s : State} (h : Kept q s) (a1) : Kept q (State.slotBusy s a1) := by
  unfold State.slotBusy
  refine ite_kept ?_ ?_
  · extract_lets -underBinder -merge +onlyGivenNames x0
    clear_value x0
    extract_lets -underBinder -merge +onlyGivenNames x1
    clear_value x1
    apply State.setF_kept
    exact h
  · exact h

theorem State.turnCount_kept {q : List Instr} {s : State} (h : Kept q s) (a1) : Kept q (State.turnCount s a1) := by
  unfold State.turnCount
  apply State.setF_kept
  exact h

theorem State.joinStreams_kept {q : List Instr} {s : State} (h : Kept q s) (a1) (a2) (a3) : Kept q (State.joinStreams s a1 a2 a3) := by
  unfold State.joinStreams
  extract_lets -underBinder -merge +onlyGivenNames x0
  clear_value x0
  refine foldS_kept _ ?_ ?_
  · exact h
  · intro x1
    intro x2 x3
    extract_lets -underBinder -merge +onlyGivenNames x4
    clear_value x4
    extract_lets -underBinder -merge +onlyGivenNames x5
    clear_value x5
    extract_lets -underBinder -merge +onlyGivenNames x6
    clear_value x6
    extract_lets -underBinder -merge +onlyGivenNames x7
    clear_value x7
    extract_lets -underBinder -merge +onlyGivenNames x8
    extract_lets -underBinder -merge +onlyGivenNames x9
    have h10 : Kept q x9.1 := by
      unfold x9
      refine ite_kept1 ?_ ?_
      · unfold x8
        refine fst_mk ?_
        refine kept_mk ?_
        exact x3
      · split
        · refine fst_mk ?_
          apply State.setInst_kept
          exact x3
        · unfold x8
          refine fst_mk ?_
          refine kept_mk ?_
          exact x3
    clear_value x9
    split
    · apply State.setJob_kept
      exact h10
    · exact h10

theorem State.openInst_some {q : List Instr} {s t : State} {x : Inst} (h : Kept q s) (e : s.openInst x = some t) : Kept q t := by
  unfold State.openInst at e
  dsimp only at e
  split at e
  · injection e
  · split at e
    · split at e
      · injection e
      · injection e with e
        subst e
        exact State.turnCount_kept (State.slotBusy_kept (State.streamBusy_kept (State.setInst_kept (State.turnRead_kept h _ _) _) _) _) _
    · injection e with e
      subst e
      exact State.streamBusy_kept (State.setInst_kept h _) _

theorem State.closeInst_kept {q : List Instr} {s : State} (h : Kept q s) (a1) : Kept q (State.closeInst s a1) := by
  unfold State.closeInst
  extract_lets -underBinder -merge +onlyGivenNames x0
  have h1 : Kept q x0 := by
    unfold x0
    apply State.slotBusy_kept
    apply State.streamBusy_kept
    apply State.dropInst_kept
    exact h
  clear_value x0
  extract_lets -underBinder -merge +onlyGivenNames x2
  clear_value x2
  extract_lets -underBinder -merge +onlyGivenNames x3
  have h4 : Kept q x3 := by
    unfold x3
    refine ite_kept ?_ ?_
    · exact h1
    · refine kept_mk ?_
      exact h1
  clear_value x3
  refine ite_kept ?_ ?_
  · apply State.turnCount_kept
    exact h4
  · exact h4

theorem State.markPrune_kept {q : List Instr} {s : State} (h : Kept q s) (a1) (a2) : Kept q (State.markPrune s a1 a2) := by
  unfold State.markPrune
  refine kept_mk ?_
  exact h

theorem State.pruneRecv_kept {q : List Instr} {s : State} (h : Kept q s) (a1) (a2) : Kept q (State.pruneRecv s a1 a2) := by
  unfold State.pruneRecv
  refine ite_kept ?_ ?_
  · exact h
  · extract_lets -underBinder -merge +onlyGivenNames x0
    clear_value x0
    extract_lets -underBinder -merge +onlyGivenNames x1
    have h2 : Kept q x1 := by
      unfold x1
      refine ite_kept ?_ ?_
      · apply State.setF_kept
        exact h
      · exact h
    clear_value x1
    refine ite_kept ?_ ?_
    · apply State.closeInst_kept
      apply State.setInst_kept
      exact h2
    · apply State.setInst_kept
      exact h2

theorem State.slabTo_kept {q : List Instr} {s : State} (h : Kept q s) (a1) (a2) (a3) : Kept q (State.slabTo s a1 a2 a3) := by
  unfold State.slabTo
  extract_lets -underBinder -merge +onlyGivenNames x0
  clear_value x0
  extract_lets -underBinder -merge +onlyGivenNames x1
  have h2 : Kept q x1 := by
    unfold x1
    apply State.setWing_kept
    exact h
  clear_value x1
  refine ite_kept ?_ ?_
  · split
    · apply State.setJob_kept
      exact h2
    · exact h2
  · exact h2

theorem State.freeBytes_kept {q : List Instr} {s : State} (h : Kept q s) (n) (acc) : Kept q (State.freeBytes n s acc).2 := by
  induction n generalizing s acc with
  | zero => exact h
  | succ n ih => exact ih (State.draw_kept h) _

theorem State.slabNow_kept {q : List Instr} {s : State} (h : Kept q s) (a1) : Kept q (State.slabNow s a1) := by
  unfold State.slabNow
  split
  · exact h
  · extract_lets -underBinder -merge +onlyGivenNames x0
    clear_value x0
    extract_lets -underBinder -merge +onlyGivenNames x1
    clear_value x1
    extract_lets -underBinder -merge +onlyGivenNames x2
    clear_value x2
    refine ite_kept ?_ ?_
    · exact h
    · extract_lets -underBinder -merge +onlyGivenNames x3
      clear_value x3
      extract_lets -underBinder -merge +onlyGivenNames x4
      have h5 : Kept q x4 := by
        unfold x4
        refine ite_kept ?_ ?_
        · apply State.readWith_kept
          exact h
        · exact h
      clear_value x4
      extract_lets -underBinder -merge +onlyGivenNames x6
      clear_value x6
      extract_lets -underBinder -merge +onlyGivenNames x7
      have h8 : Kept q x7.2 := by
        unfold x7
        refine ite_kept2 ?_ ?_
        · apply State.freeBytes_kept
          exact h5
        · refine snd_mk ?_
          exact h5
      clear_value x7
      extract_lets -underBinder -merge +onlyGivenNames x9
      have h10 : Kept q x9 := by
        unfold x9
        refine foldS_kept _ ?_ ?_
        · exact h8
        · intro x11
          intro x12 x13
          apply State.slabTo_kept
          exact x13
      clear_value x9
      apply State.setInst_kept
      exact h10

theorem State.pruneDue_kept {q : List Instr} {s : State} (h : Kept q s) (a1) : Kept q (State.pruneDue s a1) := by
  unfold State.pruneDue
  refine foldS_kept _ ?_ ?_
  · exact h
  · intro x0
    intro x1 x2
    split
    · apply State.pruneRecv_kept
      exact x2
    · exact x2

theorem State.passSlab_kept {q : List Instr} {s : State} (h : Kept q s) (a1) : Kept q (State.passSlab s a1) := by
  unfold State.passSlab
  extract_lets -underBinder -merge +onlyGivenNames x0
  have h1 : Kept q x0 := by
    unfold x0
    apply State.pruneDue_kept
    exact h
  clear_value x0
  split
  · apply State.slabNow_kept
    exact h1
  · exact h1

theorem State.irq_kept {q : List Instr} {s : State} (h : Kept q s) (a1) : Kept q (State.irq s a1) := by
  unfold State.irq
  extract_lets -underBinder -merge +onlyGivenNames x0
  have h1 : Kept q x0 := by
    unfold x0
    apply State.send_kept
    exact h
  clear_value x0
  refine ite_kept ?_ ?_
  · exact h1
  · refine kept_mk ?_
    exact h1

theorem State.setQState_kept {q : List Instr} {s : State} (h : Kept q s) (a1) (a2) : Kept q (State.setQState s a1 a2) := by
  unfold State.setQState
  apply State.setF_kept
  exact h

theorem State.setQx_kept {q : List Instr} {s : State} (h : Kept q s) (a1) (a2) : Kept q (State.setQx s a1 a2) := by
  unfold State.setQx
  refine kept_mk ?_
  exact h

theorem State.putCmd_kept {q : List Instr} {s : State} (h : Kept q s) (a1) : Kept q (State.putCmd s a1) := by
  unfold State.putCmd
  extract_lets -underBinder -merge +onlyGivenNames x0
  clear_value x0
  extract_lets -underBinder -merge +onlyGivenNames x1
  clear_value x1
  refine kept_mk ?_
  exact h

theorem State.modCmd_kept {q : List Instr} {s : State} (h : Kept q s) (a1) (a2) (a3) : Kept q (State.modCmd s a1 a2 a3) := by
  unfold State.modCmd
  split
  · apply State.putCmd_kept
    exact h
  · exact h

theorem State.gateAdd_kept {q : List Instr} {s : State} (h : Kept q s) (a1) (a2) : Kept q (State.gateAdd s a1 a2) := by
  unfold State.gateAdd
  apply State.setF_kept
  exact h

theorem State.countClamps_kept {q : List Instr} {s : State} (h : Kept q s) (a1) (a2) (a3) : Kept q (State.countClamps s a1 a2 a3) := by
  unfold State.countClamps
  split
  · exact h
  · extract_lets -underBinder -merge +onlyGivenNames x0
    have h1 : Kept q x0 := by
      unfold x0
      apply State.bump_kept
      exact h
    clear_value x0
    apply State.setF_kept
    apply State.setF_kept
    exact h1

theorem State.vecRefused_kept {q : List Instr} {s : State} (h : Kept q s) (a1) (a2) (a3) : Kept q (State.vecRefused s a1 a2 a3) := by
  unfold State.vecRefused
  extract_lets -underBinder -merge +onlyGivenNames x0
  have h1 : Kept q x0 := by
    unfold x0
    apply State.setF_kept
    apply State.setF_kept
    exact h
  clear_value x0
  extract_lets -underBinder -merge +onlyGivenNames x2
  have h3 : Kept q x2 := by
    unfold x2
    apply State.setF_kept
    exact h1
  clear_value x2
  refine ite_kept ?_ ?_
  · apply State.bump_kept
    exact h3
  · exact h3

theorem State.checkBlk_kept {q : List Instr} {s : State} (h : Kept q s) (a1) (a2) : Kept q (State.checkBlk s a1 a2) := by
  unfold State.checkBlk
  apply State.checkSpans_kept
  exact h

theorem State.decodeMat_kept {q : List Instr} {s : State} (h : Kept q s) (a1) (a2) (a3) (a4) : Kept q (State.decodeMat s a1 a2 a3 a4).1 := by
  unfold State.decodeMat
  extract_lets -underBinder -merge +onlyGivenNames x0
  clear_value x0
  extract_lets -underBinder -merge +onlyGivenNames x1
  clear_value x1
  split
  · refine fst_mk ?_
    exact h
  · extract_lets -underBinder -merge +onlyGivenNames x2
    clear_value x2
    refine ite_kept1 ?_ ?_
    · refine fst_mk ?_
      exact h
    · extract_lets -underBinder -merge +onlyGivenNames x3
      clear_value x3
      extract_lets -underBinder -merge +onlyGivenNames x4
      have h5 : Kept q x4 := by
        unfold x4
        apply State.checkBlk_kept
        exact h
      clear_value x4
      split
      · refine fst_mk ?_
        apply State.vecRefused_kept
        exact h5
      · refine ite_kept1 ?_ ?_
        · refine fst_mk ?_
          exact h5
        · extract_lets -underBinder -merge +onlyGivenNames x6
          clear_value x6
          split
          · refine fst_mk ?_
            apply State.vecRefused_kept
            exact h5
          · refine fst_mk ?_
            exact h5

theorem State.decodeVec_kept {q : List Instr} {s : State} (h : Kept q s) (a1) (a2) (a3) (a4) : Kept q (State.decodeVec s a1 a2 a3 a4).1 := by
  unfold State.decodeVec
  extract_lets -underBinder -merge +onlyGivenNames x0
  have h1 : Kept q x0 := by
    unfold x0
    apply State.checkBlk_kept
    exact h
  clear_value x0
  split
  · refine fst_mk ?_
    apply State.vecRefused_kept
    exact h1
  · extract_lets -underBinder -merge +onlyGivenNames x2
    clear_value x2
    refine ite_kept1 ?_ ?_
    · refine fst_mk ?_
      exact h1
    · split
      · refine fst_mk ?_
        apply State.vecRefused_kept
        exact h1
      · refine fst_mk ?_
        exact h1

theorem State.skipHead_kept {q : List Instr} {s : State} (h : Kept q s) (a n) : Kept q (State.skipHead s a n) := by
  induction n generalizing s with
  | zero => exact h
  | succ n ih =>
    unfold State.skipHead
    refine ite_kept (ih (State.setF_kept h _ _ _ _)) h

theorem State.takeHead_kept {q : List Instr} {s : State} (h : Kept q s) (a1) (a2) (a3) : Kept q (State.takeHead s a1 a2 a3).1 := by
  unfold State.takeHead
  extract_lets -underBinder -merge +onlyGivenNames x0
  clear_value x0
  extract_lets -underBinder -merge +onlyGivenNames x1
  have h2 : Kept q x1 := by
    unfold x1
    apply State.setF_kept
    apply State.setF_kept
    exact h
  clear_value x1
  extract_lets -underBinder -merge +onlyGivenNames x3
  have h4 : Kept q x3 := by
    unfold x3
    apply State.setQState_kept
    exact h2
  clear_value x3
  extract_lets -underBinder -merge +onlyGivenNames x5
  clear_value x5
  extract_lets -underBinder -merge +onlyGivenNames x6
  have h7 : Kept q x6 := by
    unfold x6
    refine ite_kept ?_ ?_
    · apply State.countClamps_kept
      exact h4
    · exact h4
  clear_value x6
  extract_lets -underBinder -merge +onlyGivenNames x8
  clear_value x8
  refine fst_mk ?_
  apply State.putCmd_kept
  exact h7

theorem State.refuseCmd_kept {q : List Instr} {s : State} (h : Kept q s) (a1) (a2) : Kept q (State.refuseCmd s a1 a2) := by
  unfold State.refuseCmd
  apply State.putCmd_kept
  exact h

theorem State.uncorrCmd_kept {q : List Instr} {s : State} (h : Kept q s) (a1) : Kept q (State.uncorrCmd s a1) := by
  unfold State.uncorrCmd
  apply State.putCmd_kept
  exact h

theorem State.addJob_kept {q : List Instr} {s : State} (h : Kept q s) (a1) (a2) : Kept q (State.addJob s a1 a2) := by
  unfold State.addJob
  extract_lets -underBinder -merge +onlyGivenNames x0
  clear_value x0
  apply State.wingBusy_kept
  apply State.setWing_kept
  exact h

theorem State.startWing_kept {q : List Instr} {s : State} (h : Kept q s) (a1) (a2) : Kept q (State.startWing s a1 a2) := by
  unfold State.startWing
  refine ite_kept ?_ ?_
  · extract_lets -underBinder -merge +onlyGivenNames x0
    clear_value x0
    apply State.refuseCmd_kept
    apply State.countClamps_kept
    exact h
  · extract_lets -underBinder -merge +onlyGivenNames x1
    extract_lets -underBinder -merge +onlyGivenNames x2
    refine ite_kept ?_ ?_
    · extract_lets -underBinder -merge +onlyGivenNames x3
      have h4 : Kept q x3.1 := by
        unfold x3
        apply State.decodeMat_kept
        exact h
      clear_value x3
      extract_lets -underBinder -merge +onlyGivenNames x5
      clear_value x5
      extract_lets -underBinder -merge +onlyGivenNames x6
      have h7 : Kept q x6 := by
        unfold x6
        unfold x2
        apply State.countClamps_kept
        exact h4
      clear_value x6
      extract_lets -underBinder -merge +onlyGivenNames x8
      clear_value x8
      refine ite_kept ?_ ?_
      · apply State.uncorrCmd_kept
        exact h7
      · split
        · apply State.refuseCmd_kept
          exact h7
        · extract_lets -underBinder -merge +onlyGivenNames x9
          have h10 : Kept q x9 := by
            unfold x9
            apply State.putCmd_kept
            exact h7
          clear_value x9
          apply State.joinStreams_kept
          apply State.addJob_kept
          exact h10
    · extract_lets -underBinder -merge +onlyGivenNames x11
      have h12 : Kept q x11.1 := by
        unfold x11
        apply State.decodeVec_kept
        exact h
      clear_value x11
      extract_lets -underBinder -merge +onlyGivenNames x13
      clear_value x13
      extract_lets -underBinder -merge +onlyGivenNames x14
      have h15 : Kept q x14 := by
        unfold x14
        unfold x2
        apply State.countClamps_kept
        exact h12
      clear_value x14
      extract_lets -underBinder -merge +onlyGivenNames x16
      clear_value x16
      refine ite_kept ?_ ?_
      · apply State.uncorrCmd_kept
        exact h15
      · split
        · apply State.refuseCmd_kept
          exact h15
        · apply State.startRun_kept
          apply State.addJob_kept
          apply State.putCmd_kept
          exact h15

theorem State.commitRun_kept {q : List Instr} {s : State} (h : Kept q s) (a1) (a2) (a3) (a4) : Kept q (State.commitRun s a1 a2 a3 a4) := by
  unfold State.commitRun
  extract_lets -underBinder -merge +onlyGivenNames x0
  have h1 : Kept q x0 := by
    unfold x0
    refine ite_kept ?_ ?_
    · exact h
    · apply State.putOuts_kept
      exact h
  clear_value x0
  extract_lets -underBinder -merge +onlyGivenNames x2
  clear_value x2
  extract_lets -underBinder -merge +onlyGivenNames x3
  clear_value x3
  apply State.setF_kept
  apply State.setWing_kept
  exact h1

theorem State.tileCommit_kept {q : List Instr} {s : State} (h : Kept q s) (a1) (a2) : Kept q (State.tileCommit s a1 a2) := by
  unfold State.tileCommit
  split
  · exact h
  · split
    · exact h
    · split
      · exact h
      · refine ite_kept ?_ ?_
        · exact h
        · split
          · extract_lets -underBinder -merge +onlyGivenNames x0
            have h1 : Kept q x0 := by
              unfold x0
              apply State.commitRun_kept
              exact h
            clear_value x0
            extract_lets -underBinder -merge +onlyGivenNames x2
            clear_value x2
            extract_lets -underBinder -merge +onlyGivenNames x3
            have h4 : Kept q x3 := by
              unfold x3
              apply State.setJob_kept
              exact h1
            clear_value x3
            extract_lets -underBinder -merge +onlyGivenNames x5
            have h6 : Kept q x5 := by
              unfold x5
              refine ite_kept ?_ ?_
              · apply State.modCmd_kept
                exact h4
              · exact h4
            clear_value x5
            apply State.startRun_kept
            exact h6
          · extract_lets -underBinder -merge +onlyGivenNames x7
            have h8 : Kept q x7 := by
              unfold x7
              apply State.commitRun_kept
              exact h
            clear_value x7
            extract_lets -underBinder -merge +onlyGivenNames x9
            clear_value x9
            extract_lets -underBinder -merge +onlyGivenNames x10
            have h11 : Kept q x10 := by
              unfold x10
              apply State.setJob_kept
              exact h8
            clear_value x10
            extract_lets -underBinder -merge +onlyGivenNames x12
            have h13 : Kept q x12 := by
              unfold x12
              refine ite_kept ?_ ?_
              · apply State.modCmd_kept
                exact h11
              · exact h11
            clear_value x12
            apply State.startRun_kept
            exact h13
          · exact h

theorem State.taintCmd_kept {q : List Instr} {s : State} (h : Kept q s) (a1) (a2) : Kept q (State.taintCmd s a1 a2) := by
  unfold State.taintCmd
  split
  · refine ite_kept ?_ ?_
    · apply State.taint_kept
      exact h
    · exact h
  · exact h

theorem State.finishCmd_kept {q : List Instr} {s : State} (h : Kept q s) (a1) (a2) (a3) : Kept q (State.finishCmd s a1 a2 a3) := by
  unfold State.finishCmd
  extract_lets -underBinder -merge +onlyGivenNames x0
  have h1 : Kept q x0 := by
    unfold x0
    apply State.taintCmd_kept
    exact h
  clear_value x0
  extract_lets -underBinder -merge +onlyGivenNames x2
  have h3 : Kept q x2 := by
    unfold x2
    apply State.putCmd_kept
    exact h1
  clear_value x2
  apply State.setF_kept
  exact h3

theorem State.leaveWing_kept {q : List Instr} {s : State} (h : Kept q s) (a1) (a2) (a3) : Kept q (State.leaveWing s a1 a2 a3) := by
  unfold State.leaveWing
  extract_lets -underBinder -merge +onlyGivenNames x0
  clear_value x0
  split
  · exact h
  · extract_lets -underBinder -merge +onlyGivenNames x1
    clear_value x1
    extract_lets -underBinder -merge +onlyGivenNames x2
    have h3 : Kept q x2 := by
      unfold x2
      split
      · extract_lets -underBinder -merge +onlyGivenNames x4
        clear_value x4
        extract_lets -underBinder -merge +onlyGivenNames x5
        clear_value x5
        extract_lets -underBinder -merge +onlyGivenNames x6
        have h7 : Kept q x6 := by
          unfold x6
          apply State.setWing_kept
          exact h
        clear_value x6
        extract_lets -underBinder -merge +onlyGivenNames x8
        have h9 : Kept q x8 := by
          unfold x8
          refine foldS_kept _ ?_ ?_
          · exact h7
          · intro x10
            intro x11 x12
            apply State.setF_kept
            exact x12
        clear_value x8
        refine ite_kept ?_ ?_
        · apply State.setF_kept
          exact h9
        · exact h9
      · extract_lets -underBinder -merge +onlyGivenNames x13
        have h14 : Kept q x13 := by
          unfold x13
          apply State.setWing_kept
          exact h
        clear_value x13
        apply State.setF_kept
        exact h14
    clear_value x2
    extract_lets -underBinder -merge +onlyGivenNames x15
    have h16 : Kept q x15 := by
      unfold x15
      split
      · refine ite_kept ?_ ?_
        · apply State.bump_kept
          exact h3
        · exact h3
      · apply State.bump_kept
        exact h3
    clear_value x15
    extract_lets -underBinder -merge +onlyGivenNames x17
    clear_value x17
    extract_lets -underBinder -merge +onlyGivenNames x18
    clear_value x18
    extract_lets -underBinder -merge +onlyGivenNames x19
    have h20 : Kept q x19 := by
      unfold x19
      apply State.setWing_kept
      exact h16
    clear_value x19
    apply State.startRun_kept
    apply State.wingBusy_kept
    exact h20

theorem State.leaveAgain_kept {q : List Instr} {s : State} (h : Kept q s) (a1) (a2) : Kept q (State.leaveAgain s a1 a2) := by
  unfold State.leaveAgain
  split
  · refine ite_kept ?_ ?_
    · apply State.leaveWing_kept
      exact h
    · exact h
  · exact h

theorem State.retire_kept {q : List Instr} {s : State} (h : Kept q s) (a1) (a2) : Kept q (State.retire s a1 a2) := by
  unfold State.retire
  split
  · exact h
  · refine ite_kept ?_ ?_
    · exact h
    · refine ite_kept ?_ ?_
      · apply State.leaveAgain_kept
        exact h
      · extract_lets -underBinder -merge +onlyGivenNames x0
        clear_value x0
        split
        · refine ite_kept ?_ ?_
          · apply State.finishCmd_kept
            exact h
          · split
            · exact h
            · apply State.leaveWing_kept
              apply State.finishCmd_kept
              exact h
        · refine ite_kept ?_ ?_
          · apply State.finishCmd_kept
            exact h
          · exact h

theorem State.signalCmd_kept {q : List Instr} {s : State} (h : Kept q s) (a1) (a2) : Kept q (State.signalCmd s a1 a2) := by
  unfold State.signalCmd
  split
  · exact h
  · refine ite_kept ?_ ?_
    · exact h
    · apply State.putCmd_kept
      apply State.gateAdd_kept
      exact h

theorem State.enterError_kept {q : List Instr} {s : State} (h : Kept q s) (a1) : Kept q (State.enterError s a1) := by
  unfold State.enterError
  extract_lets -underBinder -merge +onlyGivenNames x0
  have h1 : Kept q x0 := by
    unfold x0
    apply State.setQState_kept
    exact h
  clear_value x0
  refine ite_kept ?_ ?_
  · apply State.irq_kept
    exact h1
  · exact h1

theorem State.replyCmd_kept {q : List Instr} {s : State} (h : Kept q s) (a1) : Kept q (State.replyCmd s a1) := by
  unfold State.replyCmd
  extract_lets -underBinder -merge +onlyGivenNames x0
  clear_value x0
  split
  · exact h
  · refine ite_kept ?_ ?_
    · exact h
    · extract_lets -underBinder -merge +onlyGivenNames x1
      clear_value x1
      extract_lets -underBinder -merge +onlyGivenNames x2
      clear_value x2
      refine ite_kept ?_ ?_
      · exact h
      · extract_lets -underBinder -merge +onlyGivenNames x3
        have h4 : Kept q x3 := by
          unfold x3
          refine ite_kept ?_ ?_
          · apply State.store_kept
            exact h
          · apply State.raise_kept
            exact h
        clear_value x3
        extract_lets -underBinder -merge +onlyGivenNames x5
        have h6 : Kept q x5 := by
          unfold x5
          apply State.setQx_kept
          exact h4
        clear_value x5
        extract_lets -underBinder -merge +onlyGivenNames x7
        have h8 : Kept q x7 := by
          unfold x7
          apply State.putCmd_kept
          exact h6
        clear_value x7
        extract_lets -underBinder -merge +onlyGivenNames x9
        have h10 : Kept q x9 := by
          unfold x9
          refine ite_kept ?_ ?_
          · apply State.irq_kept
            exact h8
          · exact h8
        clear_value x9
        extract_lets -underBinder -merge +onlyGivenNames x11
        clear_value x11
        refine ite_kept ?_ ?_
        · apply State.enterError_kept
          exact h10
        · exact h10

theorem State.stopOnWing_kept {q : List Instr} {s : State} (h : Kept q s) (a1) (a2) (a3) : Kept q (State.stopOnWing s a1 a2 a3) := by
  unfold State.stopOnWing
  extract_lets -underBinder -merge +onlyGivenNames x0
  clear_value x0
  extract_lets -underBinder -merge +onlyGivenNames x1
  clear_value x1
  extract_lets -underBinder -merge +onlyGivenNames x2
  clear_value x2
  extract_lets -underBinder -merge +onlyGivenNames x3
  clear_value x3
  extract_lets -underBinder -merge +onlyGivenNames x4
  clear_value x4
  extract_lets -underBinder -merge +onlyGivenNames x5
  have h6 : Kept q x5 := by
    unfold x5
    apply State.setWing_kept
    exact h
  clear_value x5
  extract_lets -underBinder -merge +onlyGivenNames x7
  have h8 : Kept q x7 := by
    unfold x7
    refine ite_kept ?_ ?_
    · apply State.setF_kept
      exact h6
    · exact h6
  clear_value x7
  extract_lets -underBinder -merge +onlyGivenNames x9
  have h10 : Kept q x9 := by
    unfold x9
    apply State.markPrune_kept
    exact h8
  clear_value x9
  extract_lets -underBinder -merge +onlyGivenNames x11
  clear_value x11
  extract_lets -underBinder -merge +onlyGivenNames x12
  clear_value x12
  extract_lets -underBinder -merge +onlyGivenNames x13
  clear_value x13
  extract_lets -underBinder -merge +onlyGivenNames x14
  have h15 : Kept q x14 := by
    unfold x14
    refine kept_mk ?_
    exact h10
  clear_value x14
  apply State.startRun_kept
  apply State.wingBusy_kept
  exact h15

theorem State.markReplay_kept {q : List Instr} {s : State} (h : Kept q s) (a1) : Kept q (State.markReplay s a1) := by
  unfold State.markReplay
  refine foldS_kept _ ?_ ?_
  · exact h
  · intro x0
    intro x1 x2
    apply State.modCmd_kept
    exact x2

theorem State.failChain_kept {q : List Instr} {s : State} (h : Kept q s) (a1) (a2) (a3) : Kept q (State.failChain s a1 a2 a3) := by
  unfold State.failChain
  extract_lets -underBinder -merge +onlyGivenNames x0
  clear_value x0
  extract_lets -underBinder -merge +onlyGivenNames x1
  clear_value x1
  extract_lets -underBinder -merge +onlyGivenNames x2
  clear_value x2
  extract_lets -underBinder -merge +onlyGivenNames x3
  clear_value x3
  extract_lets -underBinder -merge +onlyGivenNames x4
  clear_value x4
  extract_lets -underBinder -merge +onlyGivenNames x5
  clear_value x5
  extract_lets -underBinder -merge +onlyGivenNames x6
  clear_value x6
  extract_lets -underBinder -merge +onlyGivenNames x7
  have h8 : Kept q x7 := by
    unfold x7
    apply State.setWing_kept
    exact h
  clear_value x7
  extract_lets -underBinder -merge +onlyGivenNames x9
  have h10 : Kept q x9 := by
    unfold x9
    refine ite_kept ?_ ?_
    · apply State.setF_kept
      exact h8
    · exact h8
  clear_value x9
  extract_lets -underBinder -merge +onlyGivenNames x11
  have h12 : Kept q x11 := by
    unfold x11
    refine foldS_kept _ ?_ ?_
    · exact h10
    · intro x13
      intro x14 x15
      apply State.markPrune_kept
      exact x15
  clear_value x11
  extract_lets -underBinder -merge +onlyGivenNames x16
  have h17 : Kept q x16 := by
    unfold x16
    apply State.markReplay_kept
    exact h12
  clear_value x16
  refine kept_mk ?_
  exact h17

theorem State.redispatch_kept {q : List Instr} {s : State} (h : Kept q s) (a1) (a2) : Kept q (State.redispatch s a1 a2) := by
  unfold State.redispatch
  extract_lets -underBinder -merge +onlyGivenNames x0
  clear_value x0
  split
  · exact h
  · extract_lets -underBinder -merge +onlyGivenNames x1
    clear_value x1
    extract_lets -underBinder -merge +onlyGivenNames x2
    have h3 : Kept q x2 := by
      unfold x2
      apply State.putCmd_kept
      exact h
    clear_value x2
    extract_lets -underBinder -merge +onlyGivenNames x4
    extract_lets -underBinder -merge +onlyGivenNames x5
    split
    · extract_lets -underBinder -merge +onlyGivenNames x6
      have h7 : Kept q x6.1 := by
        unfold x6
        apply State.decodeMat_kept
        exact h3
      clear_value x6
      extract_lets -underBinder -merge +onlyGivenNames x8
      have h9 : Kept q x8 := by
        unfold x8
        unfold x5
        apply State.countClamps_kept
        exact h7
      clear_value x8
      refine ite_kept ?_ ?_
      · refine ite_kept ?_ ?_
        · exact h9
        · apply State.uncorrCmd_kept
          exact h9
      · split
        · unfold x4
          refine ite_kept ?_ ?_
          · exact h9
          · apply State.refuseCmd_kept
            exact h9
        · extract_lets -underBinder -merge +onlyGivenNames x10
          clear_value x10
          apply State.joinStreams_kept
          apply State.addJob_kept
          exact h9
    · extract_lets -underBinder -merge +onlyGivenNames x11
      have h12 : Kept q x11.1 := by
        unfold x11
        apply State.decodeVec_kept
        exact h3
      clear_value x11
      extract_lets -underBinder -merge +onlyGivenNames x13
      have h14 : Kept q x13 := by
        unfold x13
        unfold x5
        apply State.countClamps_kept
        exact h12
      clear_value x13
      refine ite_kept ?_ ?_
      · refine ite_kept ?_ ?_
        · exact h14
        · apply State.uncorrCmd_kept
          exact h14
      · split
        · unfold x4
          refine ite_kept ?_ ?_
          · exact h14
          · apply State.refuseCmd_kept
            exact h14
        · apply State.startRun_kept
          apply State.addJob_kept
          exact h14

theorem State.chainReplay_kept {q : List Instr} {s : State} (h : Kept q s) (a1) : Kept q (State.chainReplay s a1) := by
  unfold State.chainReplay
  split
  · exact h
  · extract_lets -underBinder -merge +onlyGivenNames x0
    clear_value x0
    extract_lets -underBinder -merge +onlyGivenNames x1
    have h2 : Kept q x1 := by
      unfold x1
      refine kept_mk ?_
      exact h
    clear_value x1
    extract_lets -underBinder -merge +onlyGivenNames x3
    have h4 : Kept q x3 := by
      unfold x3
      refine foldS_kept _ ?_ ?_
      · exact h2
      · intro x5
        intro x6 x7
        extract_lets -underBinder -merge +onlyGivenNames x8
        clear_value x8
        extract_lets -underBinder -merge +onlyGivenNames x9
        clear_value x9
        split
        · exact x7
        · refine ite_kept ?_ ?_
          · refine ite_kept ?_ ?_
            · exact x7
            · apply State.finishCmd_kept
              exact x7
          · apply State.redispatch_kept
            exact x7
    clear_value x3
    apply State.wingBusy_kept
    exact h4

theorem State.noAdopter_kept {q : List Instr} {s : State} (h : Kept q s) (a1) (a2) : Kept q (State.noAdopter s a1 a2) := by
  unfold State.noAdopter
  extract_lets -underBinder -merge +onlyGivenNames x0
  have h1 : Kept q x0 := by
    unfold x0
    refine foldS_kept _ ?_ ?_
    · exact h
    · intro x2
      intro x3 x4
      split
      · refine ite_kept ?_ ?_
        · exact x4
        · apply State.finishCmd_kept
          exact x4
      · exact x4
  clear_value x0
  extract_lets -underBinder -merge +onlyGivenNames x5
  have h6 : Kept q x5 := by
    unfold x5
    refine foldS_kept _ ?_ ?_
    · exact h1
    · intro x7
      intro x8 x9
      apply State.enterError_kept
      exact x9
  clear_value x5
  extract_lets -underBinder -merge +onlyGivenNames x10
  have h11 : Kept q x10 := by
    unfold x10
    apply State.setF_kept
    apply State.setF_kept
    exact h6
  clear_value x10
  apply State.raise_kept
  exact h11

theorem State.chooseAdopter_kept {q : List Instr} {s : State} (h : Kept q s) (a1) (a2) : Kept q (State.chooseAdopter s a1 a2) := by
  unfold State.chooseAdopter
  split
  · apply State.noAdopter_kept
    exact h
  · refine kept_mk ?_
    exact h

theorem State.wingLeave_kept {q : List Instr} {s : State} (h : Kept q s) (a1) (a2) : Kept q (State.wingLeave s a1 a2) := by
  unfold State.wingLeave
  refine ite_kept ?_ ?_
  · refine ite_kept ?_ ?_
    · apply State.setF_kept
      exact h
    · exact h
  · extract_lets -underBinder -merge +onlyGivenNames x0
    clear_value x0
    extract_lets -underBinder -merge +onlyGivenNames x1
    clear_value x1
    extract_lets -underBinder -merge +onlyGivenNames x2
    clear_value x2
    extract_lets -underBinder -merge +onlyGivenNames x3
    have h4 : Kept q x3 := by
      unfold x3
      apply State.markReplay_kept
      exact h
    clear_value x3
    extract_lets -underBinder -merge +onlyGivenNames x5
    clear_value x5
    extract_lets -underBinder -merge +onlyGivenNames x6
    have h7 : Kept q x6 := by
      unfold x6
      refine kept_mk ?_
      exact h4
    clear_value x6
    extract_lets -underBinder -merge +onlyGivenNames x8
    have h9 : Kept q x8 := by
      unfold x8
      apply State.markPrune_kept
      exact h7
    clear_value x8
    extract_lets -underBinder -merge +onlyGivenNames x10
    have h11 : Kept q x10 := by
      unfold x10
      apply State.setTiles_kept
      exact h9
    clear_value x10
    extract_lets -underBinder -merge +onlyGivenNames x12
    have h13 : Kept q x12 := by
      unfold x12
      apply State.setF_kept
      exact h11
    clear_value x12
    extract_lets -underBinder -merge +onlyGivenNames x14
    have h15 : Kept q x14 := by
      unfold x14
      apply State.setF_kept
      apply State.setWingState_kept
      exact h13
    clear_value x14
    extract_lets -underBinder -merge +onlyGivenNames x16
    have h17 : Kept q x16 := by
      unfold x16
      refine foldS_kept _ ?_ ?_
      · exact h15
      · intro x18
        intro x19 x20
        apply State.setF_kept
        exact x20
    clear_value x16
    extract_lets -underBinder -merge +onlyGivenNames x21
    have h22 : Kept q x21 := by
      unfold x21
      apply State.dropSweeps_kept
      exact h17
    clear_value x21
    extract_lets -underBinder -merge +onlyGivenNames x23
    have h24 : Kept q x23 := by
      unfold x23
      apply State.raise_kept
      exact h22
    clear_value x23
    extract_lets -underBinder -merge +onlyGivenNames x25
    clear_value x25
    extract_lets -underBinder -merge +onlyGivenNames x26
    clear_value x26
    extract_lets -underBinder -merge +onlyGivenNames x27
    have h28 : Kept q x27 := by
      unfold x27
      refine kept_mk ?_
      exact h24
    clear_value x27
    extract_lets -underBinder -merge +onlyGivenNames x29
    have h30 : Kept q x29 := by
      unfold x29
      refine foldS_kept _ ?_ ?_
      · exact h28
      · intro x31
        intro x32 x33
        apply State.chooseAdopter_kept
        exact x33
    clear_value x29
    apply State.chooseAdopter_kept
    exact h30

theorem State.tileCopy_kept {q : List Instr} {s : State} (h : Kept q s) (w v) : Kept q (State.tileCopy s w v) := by
  refine ⟨cellsCopy_wf _ _ _ _ h.1, h.2.1, h.2.2.1, h.2.2.2.1, fun x hx => ?_⟩
  rcases List.mem_append.mp hx with hx | hx
  · exact h.2.2.2.2 x (List.mem_filter.mp hx).1
  · obtain ⟨y, hy, rfl⟩ := List.mem_map.mp hx
    have hy1 := h.2.2.2.2 y (List.mem_filter.mp hy).1
    have hy2 := (List.mem_filter.mp hy).2
    simp only [Bool.and_eq_true, decide_eq_true_eq, tileAddr, tileBase, tileStride] at hy2 ⊢
    omega

theorem State.adoptDone_kept {q : List Instr} {s : State} (h : Kept q s) (a1) : Kept q (State.adoptDone s a1) := by
  unfold State.adoptDone
  split
  · exact h
  · extract_lets -underBinder -merge +onlyGivenNames x0
    clear_value x0
    refine ite_kept ?_ ?_
    · exact h
    · extract_lets -underBinder -merge +onlyGivenNames x1
      have h2 : Kept q x1 := by
        unfold x1
        apply State.tileCopy_kept
        apply State.checkRead_kept
        exact h
      clear_value x1
      extract_lets -underBinder -merge +onlyGivenNames x3
      clear_value x3
      extract_lets -underBinder -merge +onlyGivenNames x4
      have h5 : Kept q x4 := by
        unfold x4
        refine kept_mk ?_
        exact h2
      clear_value x4
      extract_lets -underBinder -merge +onlyGivenNames x6
      have h7 : Kept q x6 := by
        unfold x6
        refine foldS_kept _ ?_ ?_
        · exact h5
        · intro x8
          intro x9 x10
          apply State.setF_kept
          exact x10
      clear_value x6
      extract_lets -underBinder -merge +onlyGivenNames x11
      have h12 : Kept q x11 := by
        unfold x11
        apply State.setF_kept
        apply State.setF_kept
        exact h7
      clear_value x11
      extract_lets -underBinder -merge +onlyGivenNames x13
      have h14 : Kept q x13 := by
        unfold x13
        refine foldS_kept _ ?_ ?_
        · exact h12
        · intro x15
          intro x16 x17
          apply State.setF_kept
          exact x17
      clear_value x13
      extract_lets -underBinder -merge +onlyGivenNames x18
      have h19 : Kept q x18 := by
        unfold x18
        apply State.setF_kept
        apply State.setF_kept
        apply State.setF_kept
        exact h14
      clear_value x18
      extract_lets -underBinder -merge +onlyGivenNames x20
      have h21 : Kept q x20 := by
        unfold x20
        apply State.raise_kept
        exact h19
      clear_value x20
      refine foldS_kept _ ?_ ?_
      · exact h21
      · intro x22
        intro x23 x24
        apply State.redispatch_kept
        exact x24

end Sys2Proof.Machine
end

