-- ==== Sys2Proof/Laws/KeptLinks.lean ====
section
/-! SUPPORT. Every operation over margin, fault collection, security, light engines and the fabric keeps `Kept`: the memory in canonical form, the bounds of the event ring and the log,
poison on sectors, and the queue. One lemma per operation, in the order of the files that define them. -/

namespace Sys2Proof.Machine

theorem State.setDom_kept {q : List Instr} {s : State} (h : Kept q s) (a1) (a2) : Kept q (State.setDom s a1 a2) := by
  unfold State.setDom
  refine kept_mk ?_
  exact h

theorem State.setSlack_kept {q : List Instr} {s : State} (h : Kept q s) (a1) (a2) : Kept q (State.setSlack s a1 a2) := by
  unfold State.setSlack
  extract_lets -underBinder -merge +onlyGivenNames x0
  clear_value x0
  extract_lets -underBinder -merge +onlyGivenNames x1
  have h2 : Kept q x1 := by
    unfold x1
    apply State.setF_kept
    exact h
  clear_value x1
  refine ite_kept ?_ ?_
  · apply State.setF_kept
    exact h2
  · exact h2

theorem State.setTap_kept {q : List Instr} {s : State} (h : Kept q s) (a1) (a2) : Kept q (State.setTap s a1 a2) := by
  unfold State.setTap
  extract_lets -underBinder -merge +onlyGivenNames x0
  have h1 : Kept q x0 := by
    unfold x0
    apply State.setF_kept
    exact h
  clear_value x0
  refine ite_kept ?_ ?_
  · apply State.setF_kept
    exact h1
  · exact h1

theorem State.showHeld_kept {q : List Instr} {s : State} (h : Kept q s) (a1) : Kept q (State.showHeld s a1) := by
  unfold State.showHeld
  refine ite_kept ?_ ?_
  · extract_lets -underBinder -merge +onlyGivenNames x0
    clear_value x0
    extract_lets -underBinder -merge +onlyGivenNames x1
    clear_value x1
    apply State.setF_kept
    exact h
  · exact h

theorem State.setHeld_kept {q : List Instr} {s : State} (h : Kept q s) (a1) (a2) : Kept q (State.setHeld s a1 a2) := by
  unfold State.setHeld
  apply State.showHeld_kept
  apply State.setDom_kept
  exact h

theorem State.wearLog_kept {q : List Instr} {s : State} (h : Kept q s) (a1) (a2) (a3) (a4) (a5) (a6) : Kept q (State.wearLog s a1 a2 a3 a4 a5 a6) := by
  unfold State.wearLog
  extract_lets -underBinder -merge +onlyGivenNames x0
  clear_value x0
  extract_lets -underBinder -merge +onlyGivenNames x1
  clear_value x1
  extract_lets -underBinder -merge +onlyGivenNames x2
  clear_value x2
  extract_lets -underBinder -merge +onlyGivenNames x3
  clear_value x3
  extract_lets -underBinder -merge +onlyGivenNames x4
  clear_value x4
  extract_lets -underBinder -merge +onlyGivenNames x5
  clear_value x5
  extract_lets -underBinder -merge +onlyGivenNames x6
  have h7 : Kept q x6 := by
    unfold x6
    apply State.setDom_kept
    exact h
  clear_value x6
  refine kept_mk ?_
  exact h7

theorem State.exhaust_kept {q : List Instr} {s : State} (h : Kept q s) (a1) : Kept q (State.exhaust s a1) := by
  unfold State.exhaust
  refine ite_kept ?_ ?_
  · exact h
  · extract_lets -underBinder -merge +onlyGivenNames x0
    have h1 : Kept q x0 := by
      unfold x0
      apply State.setF_kept
      exact h
    clear_value x0
    extract_lets -underBinder -merge +onlyGivenNames x2
    clear_value x2
    extract_lets -underBinder -merge +onlyGivenNames x3
    have h4 : Kept q x3 := by
      unfold x3
      apply State.showHeld_kept
      apply State.setDom_kept
      exact h1
    clear_value x3
    extract_lets -underBinder -merge +onlyGivenNames x5
    have h6 : Kept q x5 := by
      unfold x5
      apply State.setF_kept
      apply State.setF_kept
      exact h4
    clear_value x5
    extract_lets -underBinder -merge +onlyGivenNames x7
    clear_value x7
    extract_lets -underBinder -merge +onlyGivenNames x8
    have h9 : Kept q x8 := by
      unfold x8
      apply State.wearLog_kept
      exact h6
    clear_value x8
    extract_lets -underBinder -merge +onlyGivenNames x10
    have h11 : Kept q x10 := by
      unfold x10
      apply State.raise_kept
      exact h9
    clear_value x10
    split
    · apply State.wingLeave_kept
      exact h11
    · exact h11

theorem State.windowEnd_kept {q : List Instr} {s : State} (h : Kept q s) (a1) (a2) : Kept q (State.windowEnd s a1 a2) := by
  unfold State.windowEnd
  extract_lets -underBinder -merge +onlyGivenNames x0
  have h1 : Kept q x0 := by
    unfold x0
    apply State.setSlack_kept
    exact h
  clear_value x0
  refine ite_kept ?_ ?_
  · exact h1
  · extract_lets -underBinder -merge +onlyGivenNames x2
    clear_value x2
    extract_lets -underBinder -merge +onlyGivenNames x3
    clear_value x3
    refine ite_kept ?_ ?_
    · apply State.exhaust_kept
      exact h1
    · refine ite_kept ?_ ?_
      · refine ite_kept ?_ ?_
        · apply State.showHeld_kept
          apply State.setDom_kept
          exact h1
        · exact h1
      · refine ite_kept ?_ ?_
        · extract_lets -underBinder -merge +onlyGivenNames x4
          have h5 : Kept q x4 := by
            unfold x4
            apply State.showHeld_kept
            apply State.setDom_kept
            exact h1
          clear_value x4
          extract_lets -underBinder -merge +onlyGivenNames x6
          have h7 : Kept q x6 := by
            unfold x6
            apply State.bump_kept
            exact h5
          clear_value x6
          apply State.setF_kept
          apply State.setF_kept
          exact h7
        · extract_lets -underBinder -merge +onlyGivenNames x8
          clear_value x8
          extract_lets -underBinder -merge +onlyGivenNames x9
          clear_value x9
          apply State.setDom_kept
          exact h1

theorem State.tapWiden_kept {q : List Instr} {s : State} (h : Kept q s) (a1) : Kept q (State.tapWiden s a1) := by
  unfold State.tapWiden
  extract_lets -underBinder -merge +onlyGivenNames x0
  clear_value x0
  extract_lets -underBinder -merge +onlyGivenNames x1
  clear_value x1
  refine ite_kept ?_ ?_
  · apply State.setF_kept
    apply State.bump_kept
    apply State.setTap_kept
    exact h
  · exact h

theorem State.holdWiden_kept {q : List Instr} {s : State} (h : Kept q s) (a1) (a2) : Kept q (State.holdWiden s a1 a2) := by
  unfold State.holdWiden
  extract_lets -underBinder -merge +onlyGivenNames x0
  clear_value x0
  refine ite_kept ?_ ?_
  · exact h
  · extract_lets -underBinder -merge +onlyGivenNames x1
    clear_value x1
    extract_lets -underBinder -merge +onlyGivenNames x2
    have h3 : Kept q x2 := by
      unfold x2
      refine ite_kept ?_ ?_
      · apply State.setF_kept
        apply State.bump_kept
        apply State.setTap_kept
        exact h
      · exact h
    clear_value x2
    extract_lets -underBinder -merge +onlyGivenNames x4
    have h5 : Kept q x4 := by
      unfold x4
      apply State.setSlack_kept
      exact h3
    clear_value x4
    extract_lets -underBinder -merge +onlyGivenNames x6
    clear_value x6
    refine ite_kept ?_ ?_
    · apply State.showHeld_kept
      apply State.setDom_kept
      exact h5
    · refine ite_kept ?_ ?_
      · apply State.exhaust_kept
        exact h5
      · exact h5

theorem State.recomputeFloor_kept {q : List Instr} {s : State} (h : Kept q s) (a1) : Kept q (State.recomputeFloor s a1) := by
  unfold State.recomputeFloor
  extract_lets -underBinder -merge +onlyGivenNames x0
  clear_value x0
  apply State.setF_kept
  apply State.setF_kept
  exact h

theorem State.narrow_kept {q : List Instr} {s : State} (h : Kept q s) (a1) : Kept q (State.narrow s a1) := by
  unfold State.narrow
  extract_lets -underBinder -merge +onlyGivenNames x0
  have h1 : Kept q x0 := by
    unfold x0
    apply State.setTap_kept
    exact h
  clear_value x0
  apply State.setDom_kept
  apply State.bump_kept
  exact h1

theorem State.tapRelax_kept {q : List Instr} {s : State} (h : Kept q s) (a1) : Kept q (State.tapRelax s a1) := by
  unfold State.tapRelax
  refine ite_kept ?_ ?_
  · exact h
  · refine ite_kept ?_ ?_
    · apply State.setDom_kept
      exact h
    · apply State.narrow_kept
      exact h

theorem State.relaxAgain_kept {q : List Instr} {s : State} (h : Kept q s) (a1) : Kept q (State.relaxAgain s a1) := by
  unfold State.relaxAgain
  refine ite_kept ?_ ?_
  · apply State.narrow_kept
    exact h
  · exact h

theorem State.shadowFlag_kept {q : List Instr} {s : State} (h : Kept q s) (a1) : Kept q (State.shadowFlag s a1) := by
  unfold State.shadowFlag
  extract_lets -underBinder -merge +onlyGivenNames x0
  clear_value x0
  extract_lets -underBinder -merge +onlyGivenNames x1
  have h2 : Kept q x1 := by
    unfold x1
    refine ite_kept ?_ ?_
    · apply State.setF_kept
      apply State.setTap_kept
      exact h
    · exact h
  clear_value x1
  apply State.setF_kept
  apply State.bump_kept
  exact h2

theorem State.reserveUsed_kept {q : List Instr} {s : State} (h : Kept q s) (a1) : Kept q (State.reserveUsed s a1) := by
  unfold State.reserveUsed
  refine ite_kept ?_ ?_
  · apply State.setF_kept
    exact h
  · exact h

theorem State.planWrite_kept {q : List Instr} {s : State} (h : Kept q s) (a1) (a2) : Kept q (State.planWrite s a1 a2) := by
  unfold State.planWrite
  extract_lets -underBinder -merge +onlyGivenNames x0
  clear_value x0
  extract_lets -underBinder -merge +onlyGivenNames x1
  have h2 : Kept q x1 := by
    unfold x1
    apply State.setF_kept
    exact h
  clear_value x1
  extract_lets -underBinder -merge +onlyGivenNames x3
  have h4 : Kept q x3 := by
    unfold x3
    refine ite_kept ?_ ?_
    · apply State.setTap_kept
      exact h2
    · exact h2
  clear_value x3
  apply State.reserveUsed_kept
  exact h4

theorem State.sweepOffWrite_kept {q : List Instr} {s : State} (h : Kept q s) (a1) (a2) (a3) : Kept q (State.sweepOffWrite s a1 a2 a3) := by
  unfold State.sweepOffWrite
  extract_lets -underBinder -merge +onlyGivenNames x0
  clear_value x0
  apply State.setF_kept
  exact h

theorem State.mgnCtrlWrite_kept {q : List Instr} {s : State} (h : Kept q s) (a1) (a2) : Kept q (State.mgnCtrlWrite s a1 a2) := by
  unfold State.mgnCtrlWrite
  extract_lets -underBinder -merge +onlyGivenNames x0
  clear_value x0
  extract_lets -underBinder -merge +onlyGivenNames x1
  clear_value x1
  extract_lets -underBinder -merge +onlyGivenNames x2
  clear_value x2
  extract_lets -underBinder -merge +onlyGivenNames x3
  clear_value x3
  refine ite_kept ?_ ?_
  · apply State.wr_kept
    exact h
  · apply State.cfgErr_kept
    exact h

theorem State.temperTake_kept {q : List Instr} {s : State} (h : Kept q s) : Kept q (State.temperTake s) := by
  unfold State.temperTake
  split
  · exact h
  · split
    · split
      · refine ite_kept ?_ ?_
        · apply State.setWingState_kept
          exact h
        · exact h
      · exact h
    · exact h

theorem State.temperBegin_kept {q : List Instr} {s : State} (h : Kept q s) (a1) (a2) : Kept q (State.temperBegin s a1 a2) := by
  unfold State.temperBegin
  refine ite_kept ?_ ?_
  · refine kept_mk ?_
    exact h
  · extract_lets -underBinder -merge +onlyGivenNames x0
    clear_value x0
    extract_lets -underBinder -merge +onlyGivenNames x1
    have h2 : Kept q x1 := by
      unfold x1
      refine kept_mk ?_
      exact h
    clear_value x1
    apply State.temperTake_kept
    apply State.setF_kept
    exact h2

theorem State.temperStart_kept {q : List Instr} {s : State} (h : Kept q s) : Kept q (State.temperStart s) := by
  unfold State.temperStart
  extract_lets -underBinder -merge +onlyGivenNames x0
  refine ite_kept ?_ ?_
  · apply State.setF_kept
    exact h
  · apply State.temperBegin_kept
    exact h

theorem State.temperNext_kept {q : List Instr} {s : State} (h : Kept q s) (a1) (a2) : Kept q (State.temperNext s a1 a2) := by
  unfold State.temperNext
  extract_lets -underBinder -merge +onlyGivenNames x0
  have h1 : Kept q x0 := by
    unfold x0
    split
    · refine ite_kept ?_ ?_
      · apply State.setWingState_kept
        exact h
      · exact h
    · exact h
  clear_value x0
  split
  · extract_lets -underBinder -merge +onlyGivenNames x2
    clear_value x2
    extract_lets -underBinder -merge +onlyGivenNames x3
    have h4 : Kept q x3 := by
      unfold x3
      refine kept_mk ?_
      exact h1
    clear_value x3
    extract_lets -underBinder -merge +onlyGivenNames x5
    have h6 : Kept q x5 := by
      unfold x5
      apply State.setF_kept
      exact h4
    clear_value x5
    apply State.temperTake_kept
    refine ite_kept ?_ ?_
    · apply State.setF_kept
      exact h6
    · exact h6
  · apply State.temperTake_kept
    refine kept_mk ?_
    exact h1

theorem State.domainPass_kept {q : List Instr} {s : State} (h : Kept q s) (a1) (a2) (a3) : Kept q (State.domainPass s a1 a2 a3) := by
  unfold State.domainPass
  split
  · exact h
  · refine ite_kept ?_ ?_
    · exact h
    · extract_lets -underBinder -merge +onlyGivenNames x0
      clear_value x0
      extract_lets -underBinder -merge +onlyGivenNames x1
      have h2 : Kept q x1 := by
        unfold x1
        apply State.setDom_kept
        exact h
      clear_value x1
      extract_lets -underBinder -merge +onlyGivenNames x3
      have h4 : Kept q x3 := by
        unfold x3
        apply State.setSlack_kept
        exact h2
      clear_value x3
      extract_lets -underBinder -merge +onlyGivenNames x5
      have h6 : Kept q x5 := by
        unfold x5
        apply State.setF_kept
        exact h4
      clear_value x5
      extract_lets -underBinder -merge +onlyGivenNames x7
      clear_value x7
      extract_lets -underBinder -merge +onlyGivenNames x8
      clear_value x8
      refine ite_kept ?_ ?_
      · extract_lets -underBinder -merge +onlyGivenNames x9
        have h10 : Kept q x9 := by
          unfold x9
          apply State.wearLog_kept
          exact h6
        clear_value x9
        apply State.temperNext_kept
        apply State.exhaust_kept
        exact h10
      · extract_lets -underBinder -merge +onlyGivenNames x11
        have h12 : Kept q x11 := by
          unfold x11
          apply State.setTap_kept
          apply State.setF_kept
          exact h6
        clear_value x11
        extract_lets -underBinder -merge +onlyGivenNames x13
        have h14 : Kept q x13 := by
          unfold x13
          apply State.wearLog_kept
          apply State.reserveUsed_kept
          exact h12
        clear_value x13
        apply State.temperNext_kept
        apply State.recomputeFloor_kept
        exact h14

theorem State.temperRestart_kept {q : List Instr} {s : State} (h : Kept q s) (a1) : Kept q (State.temperRestart s a1) := by
  unfold State.temperRestart
  split
  · exact h
  · split
    · exact h
    · extract_lets -underBinder -merge +onlyGivenNames x0
      clear_value x0
      refine ite_kept ?_ ?_
      · exact h
      · refine ite_kept ?_ ?_
        · apply State.temperNext_kept
          apply State.setDom_kept
          exact h
        · apply State.setDom_kept
          exact h

theorem State.temperSkip_kept {q : List Instr} {s : State} (h : Kept q s) (a1) : Kept q (State.temperSkip s a1) := by
  unfold State.temperSkip
  split
  · exact h
  · extract_lets -underBinder -merge +onlyGivenNames x0
    clear_value x0
    refine ite_kept ?_ ?_
    · extract_lets -underBinder -merge +onlyGivenNames x1
      clear_value x1
      apply State.temperTake_kept
      refine kept_mk ?_
      exact h
    · exact h

theorem State.baskAdd_kept {q : List Instr} {s : State} (h : Kept q s) (a1) : Kept q (State.baskAdd s a1) := by
  unfold State.baskAdd
  refine ite_kept ?_ ?_
  · exact h
  · extract_lets -underBinder -merge +onlyGivenNames x0
    clear_value x0
    refine foldS_kept _ ?_ ?_
    · exact h
    · intro x1
      intro x2 x3
      extract_lets -underBinder -merge +onlyGivenNames x4
      clear_value x4
      extract_lets -underBinder -merge +onlyGivenNames x5
      clear_value x5
      extract_lets -underBinder -merge +onlyGivenNames x6
      clear_value x6
      refine ite_kept ?_ ?_
      · exact x3
      · apply State.setDom_kept
        apply State.setTap_kept
        exact x3

theorem State.baskRemove_kept {q : List Instr} {s : State} (h : Kept q s) (a1) : Kept q (State.baskRemove s a1) := by
  unfold State.baskRemove
  refine ite_kept ?_ ?_
  · exact h
  · refine foldS_kept _ ?_ ?_
    · exact h
    · intro x0
      intro x1 x2
      extract_lets -underBinder -merge +onlyGivenNames x3
      clear_value x3
      refine ite_kept ?_ ?_
      · exact x2
      · apply State.setDom_kept
        apply State.setTap_kept
        exact x2

theorem State.quietOff_kept {q : List Instr} {s : State} (h : Kept q s) (a1) : Kept q (State.quietOff s a1) := by
  unfold State.quietOff
  refine ite_kept ?_ ?_
  · exact h
  · apply State.setF_kept
    apply State.setF_kept
    exact h

theorem State.toIdle_kept {q : List Instr} {s : State} (h : Kept q s) (a1) : Kept q (State.toIdle s a1) := by
  unfold State.toIdle
  extract_lets -underBinder -merge +onlyGivenNames x0
  clear_value x0
  apply State.setEyeSrc_kept
  exact h

theorem State.latchOn_kept {q : List Instr} {s : State} (h : Kept q s) (a1) : Kept q (State.latchOn s a1) := by
  unfold State.latchOn
  refine ite_kept ?_ ?_
  · exact h
  · apply State.setF_kept
    apply State.bump_kept
    apply State.setF_kept
    exact h

theorem State.latchRaise_kept {q : List Instr} {s : State} (h : Kept q s) (a1) : Kept q (State.latchRaise s a1) := by
  unfold State.latchRaise
  apply State.raise_kept
  exact h

theorem State.occurAgain_kept {q : List Instr} {s : State} (h : Kept q s) (a1) : Kept q (State.occurAgain s a1) := by
  unfold State.occurAgain
  refine ite_kept ?_ ?_
  · apply State.raise_kept
    exact h
  · exact h

theorem State.quietExit_kept {q : List Instr} {s : State} (h : Kept q s) (a1) : Kept q (State.quietExit s a1) := by
  unfold State.quietExit
  refine ite_kept ?_ ?_
  · exact h
  · extract_lets -underBinder -merge +onlyGivenNames x0
    clear_value x0
    extract_lets -underBinder -merge +onlyGivenNames x1
    clear_value x1
    extract_lets -underBinder -merge +onlyGivenNames x2
    clear_value x2
    extract_lets -underBinder -merge +onlyGivenNames x3
    have h4 : Kept q x3 := by
      unfold x3
      apply State.withPins_kept
      · exact h
      · intro x5
        intro x6
        extract_lets -underBinder -merge +onlyGivenNames x7
        have h8 : Kept q x7 := by
          unfold x7
          apply State.quietOff_kept
          exact x6
        clear_value x7
        extract_lets -underBinder -merge +onlyGivenNames x9
        have h10 : Kept q x9 := by
          unfold x9
          apply State.setF_kept
          exact h8
        clear_value x9
        extract_lets -underBinder -merge +onlyGivenNames x11
        clear_value x11
        extract_lets -underBinder -merge +onlyGivenNames x12
        have h13 : Kept q x12 := by
          unfold x12
          apply State.setEyeSrc_kept
          exact h10
        clear_value x12
        refine ite_kept ?_ ?_
        · apply State.latchOn_kept
          exact h13
        · apply State.toIdle_kept
          exact h13
    clear_value x3
    refine ite_kept ?_ ?_
    · apply State.latchRaise_kept
      exact h4
    · exact h4

theorem State.quietExpire_kept {q : List Instr} {s : State} (h : Kept q s) (a1) : Kept q (State.quietExpire s a1) := by
  unfold State.quietExpire
  refine ite_kept ?_ ?_
  · exact h
  · extract_lets -underBinder -merge +onlyGivenNames x0
    have h1 : Kept q x0 := by
      unfold x0
      apply State.quietExit_kept
      exact h
    clear_value x0
    refine ite_kept ?_ ?_
    · exact h1
    · apply State.occurAgain_kept
      exact h1

theorem State.unlatch_kept {q : List Instr} {s : State} (h : Kept q s) (a1) : Kept q (State.unlatch s a1) := by
  unfold State.unlatch
  extract_lets -underBinder -merge +onlyGivenNames x0
  clear_value x0
  extract_lets -underBinder -merge +onlyGivenNames x1
  have h2 : Kept q x1 := by
    unfold x1
    apply State.setEyeSrc_kept
    exact h
  clear_value x1
  refine ite_kept ?_ ?_
  · exact h2
  · extract_lets -underBinder -merge +onlyGivenNames x3
    have h4 : Kept q x3 := by
      unfold x3
      apply State.withPins_kept
      · exact h2
      · intro x5
        intro x6
        extract_lets -underBinder -merge +onlyGivenNames x7
        have h8 : Kept q x7 := by
          unfold x7
          apply State.setF_kept
          exact x6
        clear_value x7
        apply State.toIdle_kept
        apply State.setF_kept
        exact h8
    clear_value x3
    apply State.occurAgain_kept
    exact h4

theorem State.latch_kept {q : List Instr} {s : State} (h : Kept q s) (a1) : Kept q (State.latch s a1) := by
  unfold State.latch
  refine ite_kept ?_ ?_
  · exact h
  · apply State.latchRaise_kept
    apply State.withPins_kept
    · exact h
    · intro x0
      intro x1
      apply State.latchOn_kept
      apply State.quietOff_kept
      exact x1

theorem State.countEnd_kept {q : List Instr} {s : State} (h : Kept q s) (a1) : Kept q (State.countEnd s a1) := by
  unfold State.countEnd
  apply State.setF_kept
  exact h

theorem State.srcCfg_kept {q : List Instr} {s : State} (h : Kept q s) (a1) (a2) (a3) : Kept q (State.srcCfg s a1 a2 a3) := by
  unfold State.srcCfg
  extract_lets -underBinder -merge +onlyGivenNames x0
  clear_value x0
  refine ite_kept ?_ ?_
  · exact h
  · refine ite_kept ?_ ?_
    · apply State.accessErr_kept
      exact h
    · extract_lets -underBinder -merge +onlyGivenNames x1
      have h2 : Kept q x1 := by
        unfold x1
        apply State.setF_kept
        exact h
      clear_value x1
      extract_lets -underBinder -merge +onlyGivenNames x3
      have h4 : Kept q x3 := by
        unfold x3
        apply State.setF_kept
        exact h2
      clear_value x3
      extract_lets -underBinder -merge +onlyGivenNames x5
      have h6 : Kept q x5 := by
        unfold x5
        apply State.setF_kept
        exact h4
      clear_value x5
      extract_lets -underBinder -merge +onlyGivenNames x7
      have h8 : Kept q x7 := by
        unfold x7
        apply State.setF_kept
        exact h6
      clear_value x7
      extract_lets -underBinder -merge +onlyGivenNames x9
      have h10 : Kept q x9 := by
        unfold x9
        apply State.setF_kept
        exact h8
      clear_value x9
      refine ite_kept ?_ ?_
      · apply State.setF_kept
        exact h10
      · apply State.cfgErr_kept
        exact h10

theorem State.logMove_kept {q : List Instr} {s : State} (h : Kept q s) : Kept q (State.logMove s) := by
  unfold State.logMove
  split
  · exact h
  · rename_i r rest e
    have hr := ring_le h
    have hl := log_le h
    rw [e, List.length_cons] at hr
    dsimp only
    refine State.bump_kept ?_ _ _ _ _
    refine State.setF_kept ?_ _ _ _ _
    refine kept_eye h ?_ ?_
    · show rest.length ≤ 256
      omega
    · show (if (s.eye.log ++ [r]).length > 32768 then (s.eye.log ++ [r]).drop 1 else s.eye.log ++ [r]).length ≤ 32768
      split <;> simp only [List.length_append, List.length_singleton, List.length_drop] at * <;> omega

theorem State.pulseEnd_kept {q : List Instr} {s : State} (h : Kept q s) (a1) : Kept q (State.pulseEnd s a1) := by
  unfold State.pulseEnd
  extract_lets -underBinder -merge +onlyGivenNames x0
  clear_value x0
  extract_lets -underBinder -merge +onlyGivenNames x1
  clear_value x1
  extract_lets -underBinder -merge +onlyGivenNames x2
  clear_value x2
  apply State.releasePins_kept
  refine kept_mk ?_
  exact h

theorem State.pinHold_kept {q : List Instr} {s : State} (h : Kept q s) (a1) (a2) (a3) : Kept q (State.pinHold s a1 a2 a3) := by
  unfold State.pinHold
  apply State.class5_kept
  · exact h
  · apply State.releasePins_kept
    apply State.setF_kept
    apply State.setF_kept
    exact h

theorem State.keelKick_kept {q : List Instr} {s : State} (h : Kept q s) (a1) : Kept q (State.keelKick s a1) := by
  unfold State.keelKick
  refine ite_kept ?_ ?_
  · apply State.lowerLevel_kept
    exact h
  · exact h

theorem State.osKickNow_kept {q : List Instr} {s : State} (h : Kept q s) : Kept q (State.osKickNow s) := by
  unfold State.osKickNow
  refine kept_mk ?_
  exact h

theorem State.osExpire_kept {q : List Instr} {s : State} (h : Kept q s) : Kept q (State.osExpire s) := by
  unfold State.osExpire
  refine ite_kept ?_ ?_
  · exact h
  · apply State.raise_kept
    apply State.osKickNow_kept
    exact h

theorem State.injArm_kept {q : List Instr} {s : State} (h : Kept q s) (a1) : Kept q (State.injArm s a1) := by
  unfold State.injArm
  refine ite_kept ?_ ?_
  · extract_lets -underBinder -merge +onlyGivenNames x0
    have h1 : Kept q x0 := by
      unfold x0
      apply State.setF_kept
      exact h
    clear_value x0
    refine kept_mk ?_
    exact h1
  · apply State.lcViolation_kept
    exact h

theorem State.fenceArray_kept {q : List Instr} {s : State} (h : Kept q s) (a1) (a2) : Kept q (State.fenceArray s a1 a2) := by
  unfold State.fenceArray
  refine ite_kept ?_ ?_
  · exact h
  · apply State.wingLeave_kept
    apply State.bump_kept
    apply State.setF_kept
    exact h

theorem State.setSweep_kept {q : List Instr} {s : State} (h : Kept q s) (a1) : Kept q (State.setSweep s a1) := by
  unfold State.setSweep
  refine kept_mk ?_
  exact h

theorem State.bistStart_kept {q : List Instr} {s : State} (h : Kept q s) (a1) : Kept q (State.bistStart s a1) := by
  unfold State.bistStart
  extract_lets -underBinder -merge +onlyGivenNames x0
  clear_value x0
  refine ite_kept ?_ ?_
  · extract_lets -underBinder -merge +onlyGivenNames x1
    clear_value x1
    extract_lets -underBinder -merge +onlyGivenNames x2
    have h3 : Kept q x2 := by
      unfold x2
      apply State.setWing_kept
      exact h
    clear_value x2
    apply State.setF_kept
    apply State.setWingState_kept
    exact h3
  · refine ite_kept ?_ ?_
    · apply State.setF_kept
      exact h
    · apply State.setF_kept
      exact h

theorem State.bistReport_kept {q : List Instr} {s : State} (h : Kept q s) (a1) (a2) (a3) : Kept q (State.bistReport s a1 a2 a3) := by
  unfold State.bistReport
  extract_lets -underBinder -merge +onlyGivenNames x0
  clear_value x0
  extract_lets -underBinder -merge +onlyGivenNames x1
  clear_value x1
  extract_lets -underBinder -merge +onlyGivenNames x2
  clear_value x2
  apply State.wr_kept
  exact h

theorem State.sweepNext_kept {q : List Instr} {s : State} (h : Kept q s) (a1) (a2) : Kept q (State.sweepNext s a1 a2) := by
  unfold State.sweepNext
  extract_lets -underBinder -merge +onlyGivenNames x0
  clear_value x0
  refine ite_kept ?_ ?_
  · apply State.setSweep_kept
    exact h
  · apply State.setSweep_kept
    apply State.setF_kept
    exact h

theorem State.bistDone_kept {q : List Instr} {s : State} (h : Kept q s) (a1) (a2) : Kept q (State.bistDone s a1 a2) := by
  unfold State.bistDone
  refine ite_kept ?_ ?_
  · exact h
  · extract_lets -underBinder -merge +onlyGivenNames x0
    have h1 : Kept q x0 := by
      unfold x0
      apply State.setF_kept
      apply State.setF_kept
      exact h
    clear_value x0
    refine ite_kept ?_ ?_
    · extract_lets -underBinder -merge +onlyGivenNames x2
      have h3 : Kept q x2 := by
        unfold x2
        refine foldS_kept _ ?_ ?_
        · exact h1
        · intro x4
          intro x5 x6
          apply State.bistReport_kept
          exact x6
      clear_value x2
      apply State.setWingState_kept
      exact h3
    · extract_lets -underBinder -merge +onlyGivenNames x7
      clear_value x7
      extract_lets -underBinder -merge +onlyGivenNames x8
      clear_value x8
      extract_lets -underBinder -merge +onlyGivenNames x9
      have h10 : Kept q x9 := by
        unfold x9
        apply State.bistReport_kept
        exact h1
      clear_value x9
      split
      · refine ite_kept ?_ ?_
        · apply State.sweepNext_kept
          exact h10
        · exact h10
      · exact h10

theorem State.sweepGo_kept {q : List Instr} {s : State} (h : Kept q s) : Kept q (State.sweepGo s) := by
  unfold State.sweepGo
  extract_lets -underBinder -merge +onlyGivenNames x0
  have h1 : Kept q x0 := by
    unfold x0
    apply State.temperTake_kept
    exact h
  clear_value x0
  extract_lets -underBinder -merge +onlyGivenNames x2
  have h3 : Kept q x2 := by
    unfold x2
    split
    · exact h1
    · split
      · exact h1
      · extract_lets -underBinder -merge +onlyGivenNames x4
        clear_value x4
        refine ite_kept ?_ ?_
        · extract_lets -underBinder -merge +onlyGivenNames x5
          have h6 : Kept q x5 := by
            unfold x5
            apply State.setF_kept
            apply State.setWingState_kept
            exact h1
          clear_value x5
          extract_lets -underBinder -merge +onlyGivenNames x7
          clear_value x7
          extract_lets -underBinder -merge +onlyGivenNames x8
          have h9 : Kept q x8 := by
            unfold x8
            apply State.setWing_kept
            exact h6
          clear_value x8
          apply State.setSweep_kept
          exact h9
        · exact h1
  clear_value x2
  split
  · exact h3
  · extract_lets -underBinder -merge +onlyGivenNames x10
    clear_value x10
    refine ite_kept ?_ ?_
    · exact h3
    · extract_lets -underBinder -merge +onlyGivenNames x11
      have h12 : Kept q x11 := by
        unfold x11
        apply State.setF_kept
        exact h3
      clear_value x11
      apply State.setF_kept
      apply State.setF_kept
      exact h12

theorem State.sweepReached_kept {q : List Instr} {s : State} (h : Kept q s) (a1) (a2) : Kept q (State.sweepReached s a1 a2) := by
  unfold State.sweepReached
  split
  · refine ite_kept ?_ ?_
    · exact h
    · refine kept_mk ?_
      exact h
  · exact h

theorem State.sweepAbandon_kept {q : List Instr} {s : State} (h : Kept q s) (a1) (a2) : Kept q (State.sweepAbandon s a1 a2) := by
  unfold State.sweepAbandon
  apply State.dropSweeps_kept
  exact h

theorem State.sweepEnd_kept {q : List Instr} {s : State} (h : Kept q s) (a1) (a2) : Kept q (State.sweepEnd s a1 a2) := by
  unfold State.sweepEnd
  split
  · exact h
  · extract_lets -underBinder -merge +onlyGivenNames x0
    clear_value x0
    extract_lets -underBinder -merge +onlyGivenNames x1
    clear_value x1
    extract_lets -underBinder -merge +onlyGivenNames x2
    have h3 : Kept q x2 := by
      unfold x2
      apply State.dropSweeps_kept
      exact h
    clear_value x2
    extract_lets -underBinder -merge +onlyGivenNames x4
    have h5 : Kept q x4 := by
      unfold x4
      apply State.setF_kept
      exact h3
    clear_value x4
    extract_lets -underBinder -merge +onlyGivenNames x6
    have h7 : Kept q x6 := by
      unfold x6
      apply State.raise_kept
      exact h5
    clear_value x6
    refine ite_kept ?_ ?_
    · extract_lets -underBinder -merge +onlyGivenNames x8
      clear_value x8
      refine ite_kept ?_ ?_
      · apply State.exhaust_kept
        exact h7
      · apply State.planWrite_kept
        exact h7
    · refine ite_kept ?_ ?_
      · apply State.fenceArray_kept
        exact h7
      · exact h7

theorem State.setSec_kept {q : List Instr} {s : State} (h : Kept q s) (a1) : Kept q (State.setSec s a1) := by
  unfold State.setSec
  refine kept_mk ?_
  exact h

theorem State.imgStat_kept {q : List Instr} {s : State} (h : Kept q s) (a1) : Kept q (State.imgStat s a1) := by
  unfold State.imgStat
  extract_lets -underBinder -merge +onlyGivenNames x0
  clear_value x0
  extract_lets -underBinder -merge +onlyGivenNames x1
  clear_value x1
  extract_lets -underBinder -merge +onlyGivenNames x2
  have h3 : Kept q x2 := by
    unfold x2
    apply State.setF_kept
    exact h
  clear_value x2
  extract_lets -underBinder -merge +onlyGivenNames x4
  have h5 : Kept q x4 := by
    unfold x4
    apply State.setF_kept
    exact h3
  clear_value x4
  extract_lets -underBinder -merge +onlyGivenNames x6
  have h7 : Kept q x6 := by
    unfold x6
    apply State.setF_kept
    exact h5
  clear_value x6
  apply State.setF_kept
  exact h7

theorem State.rootStat_kept {q : List Instr} {s : State} (h : Kept q s) : Kept q (State.rootStat s) := by
  unfold State.rootStat
  apply State.setF_kept
  apply State.setF_kept
  exact h

theorem State.fuseStat_kept {q : List Instr} {s : State} (h : Kept q s) : Kept q (State.fuseStat s) := by
  unfold State.fuseStat
  extract_lets -underBinder -merge +onlyGivenNames x0
  have h1 : Kept q x0 := by
    unfold x0
    apply State.setF_kept
    apply State.setF_kept
    exact h
  clear_value x0
  extract_lets -underBinder -merge +onlyGivenNames x2
  clear_value x2
  apply State.setF_kept
  apply State.setF_kept
  apply State.setF_kept
  apply State.setF_kept
  exact h1

theorem State.installPending_kept {q : List Instr} {s : State} (h : Kept q s) (a1) (a2) : Kept q (State.installPending s a1 a2) := by
  unfold State.installPending
  extract_lets -underBinder -merge +onlyGivenNames x0
  clear_value x0
  extract_lets -underBinder -merge +onlyGivenNames x1
  clear_value x1
  apply State.imgStat_kept
  apply State.setSec_kept
  exact h

theorem State.dropPending_kept {q : List Instr} {s : State} (h : Kept q s) (a1) : Kept q (State.dropPending s a1) := by
  unfold State.dropPending
  refine ite_kept ?_ ?_
  · exact h
  · extract_lets -underBinder -merge +onlyGivenNames x0
    clear_value x0
    extract_lets -underBinder -merge +onlyGivenNames x1
    clear_value x1
    extract_lets -underBinder -merge +onlyGivenNames x2
    have h3 : Kept q x2 := by
      unfold x2
      apply State.setSec_kept
      exact h
    clear_value x2
    apply State.setF_kept
    apply State.imgStat_kept
    exact h3

theorem State.bootImage_kept {q : List Instr} {s : State} (h : Kept q s) (a1) : Kept q (State.bootImage s a1).2 := by
  unfold State.bootImage
  extract_lets -underBinder -merge +onlyGivenNames x0
  extract_lets -underBinder -merge +onlyGivenNames x1
  clear_value x1
  split
  · refine snd_mk ?_
    refine kept_mk ?_
    exact h
  · extract_lets -underBinder -merge +onlyGivenNames x2
    have h3 : Kept q x2 := by
      unfold x2
      apply State.dropPending_kept
      exact h
    clear_value x2
    split
    · refine snd_mk ?_
      exact h3
    · refine snd_mk ?_
      apply State.raise_kept
      exact h3

theorem State.bootReached_kept {q : List Instr} {s : State} (h : Kept q s) : Kept q (State.bootReached s) := by
  unfold State.bootReached
  extract_lets -underBinder -merge +onlyGivenNames x
  have hx : Kept q x := foldS_kept _ h fun c s hs => ite_kept hs (State.imgStat_kept (State.setSec_kept hs _) _)
  clear_value x
  extract_lets -underBinder -merge +onlyGivenNames svn rb
  have hp := hx.2.1
  have hr := ring_le hx
  have hl := log_le hx
  exact State.fuseStat_kept (kept_of hx.1 hp hr hl hx.2.2.2.2)

theorem State.trialFails_kept {q : List Instr} {s : State} (h : Kept q s) : Kept q (State.trialFails s) := by
  unfold State.trialFails
  extract_lets -underBinder -merge +onlyGivenNames x0
  have h1 : Kept q x0 := by
    unfold x0
    refine foldS_kept _ ?_ ?_
    · exact h
    · intro x2
      intro x3 x4
      apply State.dropPending_kept
      exact x4
  clear_value x0
  refine kept_mk ?_
  exact h1

theorem State.newChallenge_kept {q : List Instr} {s : State} (h : Kept q s) : Kept q (State.newChallenge s) := by
  unfold State.newChallenge
  refine foldS_kept _ ?_ ?_
  · exact h
  · intro x0
    intro x1 x2
    extract_lets -underBinder -merge +onlyGivenNames x3
    have h4 : Kept q x3.2 := by
      unfold x3
      apply State.draw_kept
      exact x2
    clear_value x3
    apply State.wr_kept
    exact h4

theorem State.putReport_kept {q : List Instr} {s : State} (h : Kept q s) (a1) (a2) : Kept q (State.putReport s a1 a2) := by
  unfold State.putReport
  refine foldS_kept _ ?_ ?_
  · exact h
  · intro x0
    intro x1 x2
    apply State.wr_kept
    exact x2

theorem State.attStart_kept {q : List Instr} {s : State} (h : Kept q s) (a1) : Kept q (State.attStart s a1) := by
  unfold State.attStart
  refine ite_kept ?_ ?_
  · apply State.setF_kept
    exact h
  · apply State.putReport_kept
    apply State.setF_kept
    exact h

theorem State.attDone_kept {q : List Instr} {s : State} (h : Kept q s) (a1) : Kept q (State.attDone s a1) := by
  unfold State.attDone
  refine ite_kept ?_ ?_
  · exact h
  · apply State.setF_kept
    apply State.setF_kept
    apply State.putReport_kept
    exact h

theorem State.openScopes_kept {q : List Instr} {s : State} (h : Kept q s) (a1) : Kept q (State.openScopes s a1) := by
  unfold State.openScopes
  refine ite_kept ?_ ?_
  · exact h
  · extract_lets -underBinder -merge +onlyGivenNames x0
    have h1 : Kept q x0 := by
      unfold x0
      apply State.setF_kept
      exact h
    clear_value x0
    extract_lets -underBinder -merge +onlyGivenNames x2
    have h3 : Kept q x2 := by
      unfold x2
      apply State.setF_kept
      exact h1
    clear_value x2
    extract_lets -underBinder -merge +onlyGivenNames x4
    have h5 : Kept q x4 := by
      unfold x4
      apply State.setF_kept
      exact h3
    clear_value x4
    refine ite_kept ?_ ?_
    · apply State.raise_kept
      exact h5
    · exact h5

theorem State.objectDenied_kept {q : List Instr} {s : State} (h : Kept q s) (a1) (a2) : Kept q (State.objectDenied s a1 a2) := by
  unfold State.objectDenied
  extract_lets -underBinder -merge +onlyGivenNames x0
  have h1 : Kept q x0 := by
    unfold x0
    apply State.setF_kept
    apply State.setF_kept
    exact h
  clear_value x0
  extract_lets -underBinder -merge +onlyGivenNames x2
  have h3 : Kept q x2 := by
    unfold x2
    refine ite_kept ?_ ?_
    · apply State.setF_kept
      exact h1
    · apply State.setF_kept
      exact h1
  clear_value x2
  extract_lets -underBinder -merge +onlyGivenNames x4
  have h5 : Kept q x4 := by
    unfold x4
    refine ite_kept ?_ ?_
    · apply State.raise_kept
      exact h3
    · exact h3
  clear_value x4
  refine ite_kept ?_ ?_
  · apply State.raise_kept
    exact h5
  · exact h5

theorem State.tokenOk_kept {q : List Instr} {s : State} (h : Kept q s) : Kept q (State.tokenOk s) := by
  unfold State.tokenOk
  apply State.newChallenge_kept
  apply State.setF_kept
  exact h

theorem State.installRoots_kept {q : List Instr} {s : State} (h : Kept q s) (a1) : Kept q (State.installRoots s a1) := by
  unfold State.installRoots
  apply State.rootStat_kept
  apply State.setF_kept
  apply State.setSec_kept
  exact h

theorem State.zeroise_kept {q : List Instr} {s : State} (h : Kept q s) (a1) : Kept q (State.zeroise s a1) := by
  unfold State.zeroise
  refine ite_kept ?_ ?_
  · exact h
  · extract_lets -underBinder -merge +onlyGivenNames x0
    clear_value x0
    extract_lets -underBinder -merge +onlyGivenNames x1
    clear_value x1
    extract_lets -underBinder -merge +onlyGivenNames x2
    have h3 : Kept q x2 := by
      unfold x2
      apply State.setSec_kept
      exact h
    clear_value x2
    refine kept_mk ?_
    exact h3

theorem State.burn_kept {q : List Instr} {s : State} (h : Kept q s) (t) : Kept q (State.burn s t) := by
  unfold State.burn
  dsimp only
  exact kept_of h.1 h.2.1 (ring_le h) (log_le h) h.2.2.2.2

theorem State.finishMarker_kept {q : List Instr} {s : State} (h : Kept q s) : Kept q (State.finishMarker s) := by
  unfold State.finishMarker
  split
  · exact h
  · extract_lets -underBinder -merge +onlyGivenNames x0
    have h1 : Kept q x0 := by
      unfold x0
      refine ite_kept ?_ ?_
      · exact h
      · apply State.burn_kept
        apply State.zeroise_kept
        exact h
    clear_value x0
    apply State.setSec_kept
    exact h1

theorem State.setPort_kept {q : List Instr} {s : State} (h : Kept q s) (a1) (a2) : Kept q (State.setPort s a1 a2) := by
  unfold State.setPort
  refine kept_mk ?_
  exact h

theorem State.setPortState_kept {q : List Instr} {s : State} (h : Kept q s) (a1) (a2) : Kept q (State.setPortState s a1 a2) := by
  unfold State.setPortState
  apply State.setF_kept
  exact h

theorem State.setCombState_kept {q : List Instr} {s : State} (h : Kept q s) (a1) (a2) (a3) : Kept q (State.setCombState s a1 a2 a3) := by
  unfold State.setCombState
  extract_lets -underBinder -merge +onlyGivenNames x0
  have h1 : Kept q x0 := by
    unfold x0
    apply State.setF_kept
    exact h
  clear_value x0
  refine ite_kept ?_ ?_
  · refine kept_mk ?_
    exact h1
  · exact h1

theorem State.portCounts_kept {q : List Instr} {s : State} (h : Kept q s) (a1) : Kept q (State.portCounts s a1) := by
  unfold State.portCounts
  extract_lets -underBinder -merge +onlyGivenNames x0
  have h1 : Kept q x0 := by
    unfold x0
    apply State.setF_kept
    exact h
  clear_value x0
  extract_lets -underBinder -merge +onlyGivenNames x2
  have h3 : Kept q x2 := by
    unfold x2
    apply State.setF_kept
    exact h1
  clear_value x2
  apply State.setF_kept
  exact h3

theorem State.sendLane_kept {q : List Instr} {s : State} (h : Kept q s) (a1) (a2) : Kept q (State.sendLane s a1 a2) := by
  unfold State.sendLane
  extract_lets -underBinder -merge +onlyGivenNames x0
  clear_value x0
  extract_lets -underBinder -merge +onlyGivenNames x1
  have h2 : Kept q x1 := by
    unfold x1
    apply State.setPort_kept
    exact h
  clear_value x1
  apply State.send_kept
  exact h2

theorem State.laneMsg_kept {q : List Instr} {s : State} (h : Kept q s) (p num : Nat) {k : State → State}
    (hk : ∀ s, Kept q s → Kept q (k s)) : Kept q (s.laneMsg p num k) :=
  ite_kept (State.send_kept h _) (hk _ (State.setPort_kept (State.send_kept h _) _ _))

theorem State.portDown_kept {q : List Instr} {s : State} (h : Kept q s) (a1) : Kept q (State.portDown s a1) := by
  unfold State.portDown
  extract_lets -underBinder -merge +onlyGivenNames x0
  clear_value x0
  extract_lets -underBinder -merge +onlyGivenNames x1
  have h2 : Kept q x1 := by
    unfold x1
    apply State.setPort_kept
    exact h
  clear_value x1
  apply State.raiseLevel_kept
  apply State.portCounts_kept
  apply State.setPortState_kept
  exact h2

theorem State.laneNarrow_kept {q : List Instr} {s : State} (h : Kept q s) (a1) (a2) (a3) : Kept q (State.laneNarrow s a1 a2 a3) := by
  unfold State.laneNarrow
  extract_lets -underBinder -merge +onlyGivenNames x0
  clear_value x0
  extract_lets -underBinder -merge +onlyGivenNames x1
  clear_value x1
  extract_lets -underBinder -merge +onlyGivenNames x2
  have h3 : Kept q x2 := by
    unfold x2
    apply State.setPort_kept
    exact h
  clear_value x2
  apply State.sendLane_kept
  exact h3

theorem State.startSwap_kept {q : List Instr} {s : State} (h : Kept q s) (a1) (a2) (a3) (a4) : Kept q (State.startSwap s a1 a2 a3 a4) := by
  unfold State.startSwap
  extract_lets -underBinder -merge +onlyGivenNames x0
  clear_value x0
  extract_lets -underBinder -merge +onlyGivenNames x1
  clear_value x1
  refine ite_kept ?_ ?_
  · exact h
  · refine ite_kept ?_ ?_
    · refine ite_kept ?_ ?_
      · exact h
      · apply State.setPort_kept
        exact h
    · split
      · refine ite_kept ?_ ?_
        · exact h
        · apply State.laneNarrow_kept
          exact h
      · extract_lets -underBinder -merge +onlyGivenNames x2
        clear_value x2
        extract_lets -underBinder -merge +onlyGivenNames x3
        have h4 : Kept q x3 := by
          unfold x3
          refine ite_kept ?_ ?_
          · apply State.sendLane_kept
            apply State.setPort_kept
            exact h
          · apply State.sendLane_kept
            apply State.setPort_kept
            exact h
        clear_value x3
        apply State.portCounts_kept
        exact h4

theorem State.nextSwap_kept {q : List Instr} {s : State} (h : Kept q s) (a1) (a2) (a3) : Kept q (State.nextSwap s a1 a2 a3) := by
  unfold State.nextSwap
  extract_lets -underBinder -merge +onlyGivenNames x0
  clear_value x0
  split
  · exact h
  · apply State.startSwap_kept
    apply State.setPort_kept
    exact h

theorem State.portOff_kept {q : List Instr} {s : State} (h : Kept q s) (a1) : Kept q (State.portOff s a1) := by
  unfold State.portOff
  apply State.portCounts_kept
  apply State.setPortState_kept
  apply State.sendLane_kept
  exact h

theorem State.portDrain_kept {q : List Instr} {s : State} (h : Kept q s) (a1) : Kept q (State.portDrain s a1) := by
  unfold State.portDrain
  extract_lets -underBinder -merge +onlyGivenNames x0
  clear_value x0
  refine ite_kept ?_ ?_
  · refine ite_kept ?_ ?_
    · apply State.setPortState_kept
      exact h
    · apply State.setPort_kept
      exact h
  · refine ite_kept ?_ ?_
    · apply State.portOff_kept
      exact h
    · exact h

theorem State.cutOrder_kept {q : List Instr} {s : State} (h : Kept q s) (a1) (a2) : Kept q (State.cutOrder s a1 a2) := by
  unfold State.cutOrder
  extract_lets -underBinder -merge +onlyGivenNames x0
  clear_value x0
  extract_lets -underBinder -merge +onlyGivenNames x1
  clear_value x1
  refine ite_kept ?_ ?_
  · refine ite_kept ?_ ?_
    · apply State.sendLane_kept
      apply State.setPort_kept
      exact h
    · apply State.setPort_kept
      exact h
  · apply State.setPort_kept
    exact h

theorem State.afterSwap_kept {q : List Instr} {s : State} (h : Kept q s) (a1) (a2) (a3) : Kept q (State.afterSwap s a1 a2 a3) := by
  unfold State.afterSwap
  extract_lets -underBinder -merge +onlyGivenNames x0
  have h1 : Kept q x0 := by
    unfold x0
    apply State.portCounts_kept
    apply State.nextSwap_kept
    exact h
  clear_value x0
  refine ite_kept ?_ ?_
  · extract_lets -underBinder -merge +onlyGivenNames x2
    clear_value x2
    extract_lets -underBinder -merge +onlyGivenNames x3
    have h4 : Kept q x3 := by
      unfold x3
      refine ite_kept ?_ ?_
      · apply State.cutOrder_kept
        exact h1
      · exact h1
    clear_value x3
    refine ite_kept ?_ ?_
    · apply State.portDrain_kept
      apply State.setPort_kept
      exact h4
    · exact h4
  · exact h1

theorem State.abandon_kept {q : List Instr} {s : State} (h : Kept q s) (a1) (a2) (a3) (a4) (a5) : Kept q (State.abandon s a1 a2 a3 a4 a5) := by
  unfold State.abandon
  extract_lets -underBinder -merge +onlyGivenNames x0
  clear_value x0
  split
  · exact h
  · extract_lets -underBinder -merge +onlyGivenNames x1
    clear_value x1
    extract_lets -underBinder -merge +onlyGivenNames x2
    clear_value x2
    extract_lets -underBinder -merge +onlyGivenNames x3
    have h4 : Kept q x3 := by
      unfold x3
      apply State.bump_kept
      apply State.setPort_kept
      exact h
    clear_value x3
    extract_lets -underBinder -merge +onlyGivenNames x5
    have h6 : Kept q x5 := by
      unfold x5
      refine ite_kept ?_ ?_
      · apply State.sendLane_kept
        exact h4
      · exact h4
    clear_value x5
    extract_lets -underBinder -merge +onlyGivenNames x7
    clear_value x7
    extract_lets -underBinder -merge +onlyGivenNames x8
    clear_value x8
    extract_lets -underBinder -merge +onlyGivenNames x9
    clear_value x9
    extract_lets -underBinder -merge +onlyGivenNames x10
    clear_value x10
    extract_lets -underBinder -merge +onlyGivenNames x11
    clear_value x11
    extract_lets -underBinder -merge +onlyGivenNames x12
    have h13 : Kept q x12 := by
      unfold x12
      refine ite_kept ?_ ?_
      · apply State.sendLane_kept
        apply State.setPort_kept
        exact h6
      · apply State.sendLane_kept
        apply State.setPort_kept
        exact h6
    clear_value x12
    extract_lets -underBinder -merge +onlyGivenNames x14
    have h15 : Kept q x14 := by
      unfold x14
      refine ite_kept ?_ ?_
      · refine ite_kept ?_ ?_
        · exact h6
        · apply State.laneNarrow_kept
          exact h6
      · refine ite_kept ?_ ?_
        · exact h13
        · exact h6
    clear_value x14
    apply State.afterSwap_kept
    exact h15

theorem State.recvSwapReq_kept {q : List Instr} {s : State} (h : Kept q s) (a1) (a2) (a3) (a4) : Kept q (State.recvSwapReq s a1 a2 a3 a4) := by
  unfold State.recvSwapReq
  extract_lets -underBinder -merge +onlyGivenNames x0
  clear_value x0
  refine ite_kept ?_ ?_
  · refine ite_kept ?_ ?_
    · exact h
    · apply State.sendLane_kept
      exact h
  · extract_lets -underBinder -merge +onlyGivenNames x1
    clear_value x1
    apply State.portCounts_kept
    apply State.sendLane_kept
    apply State.setPort_kept
    exact h

theorem State.recvSwapDup_kept {q : List Instr} {s : State} (h : Kept q s) (a1) (a2) (a3) (a4) : Kept q (State.recvSwapDup s a1 a2 a3 a4) := by
  unfold State.recvSwapDup
  extract_lets -underBinder -merge +onlyGivenNames x0
  clear_value x0
  extract_lets -underBinder -merge +onlyGivenNames x1
  clear_value x1
  extract_lets -underBinder -merge +onlyGivenNames x2
  clear_value x2
  refine ite_kept ?_ ?_
  · exact h
  · apply State.portCounts_kept
    apply State.setPort_kept
    exact h

theorem State.verifyDone_kept {q : List Instr} {s : State} (h : Kept q s) (a1) (a2) (a3) : Kept q (State.verifyDone s a1 a2 a3) := by
  unfold State.verifyDone
  split
  · exact h
  · refine ite_kept ?_ ?_
    · exact h
    · refine ite_kept ?_ ?_
      · apply State.sendLane_kept
        apply State.setPort_kept
        exact h
      · apply State.abandon_kept
        exact h

theorem State.recvSwapDone_kept {q : List Instr} {s : State} (h : Kept q s) (a1) (a2) (a3) (a4) : Kept q (State.recvSwapDone s a1 a2 a3 a4) := by
  unfold State.recvSwapDone
  split
  · exact h
  · refine ite_kept ?_ ?_
    · apply State.setPort_kept
      exact h
    · exact h

theorem State.swapCut_kept {q : List Instr} {s : State} (h : Kept q s) (a1) (a2) (a3) : Kept q (State.swapCut s a1 a2 a3) := by
  unfold State.swapCut
  extract_lets -underBinder -merge +onlyGivenNames x0
  clear_value x0
  split
  · exact h
  · refine ite_kept ?_ ?_
    · exact h
    · extract_lets -underBinder -merge +onlyGivenNames x1
      clear_value x1
      extract_lets -underBinder -merge +onlyGivenNames x2
      clear_value x2
      extract_lets -underBinder -merge +onlyGivenNames x3
      have h4 : Kept q x3 := by
        unfold x3
        apply State.setF_kept
        apply State.setPort_kept
        exact h
      clear_value x3
      extract_lets -underBinder -merge +onlyGivenNames x5
      have h6 : Kept q x5 := by
        unfold x5
        apply State.setF_kept
        apply State.bump_kept
        exact h4
      clear_value x5
      apply State.afterSwap_kept
      exact h6

theorem State.stripeAt_kept {q : List Instr} {s : State} (h : Kept q s) (a1) (a2) (a3) : Kept q (State.stripeAt s a1 a2 a3) := by
  unfold State.stripeAt
  apply State.setPort_kept
  exact h

theorem State.stripeChange_kept {q : List Instr} {s : State} (h : Kept q s) (a1) : Kept q (State.stripeChange s a1) := by
  unfold State.stripeChange
  split
  · exact h
  · extract_lets -underBinder -merge +onlyGivenNames x0
    clear_value x0
    extract_lets -underBinder -merge +onlyGivenNames x1
    clear_value x1
    extract_lets -underBinder -merge +onlyGivenNames x2
    have h3 : Kept q x2 := by
      unfold x2
      apply State.setPort_kept
      exact h
    clear_value x2
    extract_lets -underBinder -merge +onlyGivenNames x4
    have h5 : Kept q x4 := by
      unfold x4
      refine foldS_kept _ ?_ ?_
      · exact h3
      · intro x6
        intro x7 x8
        refine ite_kept ?_ ?_
        · refine ite_kept ?_ ?_
          · split
            · apply State.setF_kept
              exact x8
            · exact x8
          · exact x8
        · extract_lets -underBinder -merge +onlyGivenNames x9
          clear_value x9
          refine ite_kept ?_ ?_
          · exact x8
          · extract_lets -underBinder -merge +onlyGivenNames x10
            clear_value x10
            extract_lets -underBinder -merge +onlyGivenNames x11
            clear_value x11
            apply State.setF_kept
            apply State.setPort_kept
            exact x8
    clear_value x4
    extract_lets -underBinder -merge +onlyGivenNames x12
    clear_value x12
    extract_lets -underBinder -merge +onlyGivenNames x13
    have h14 : Kept q x13 := by
      unfold x13
      refine ite_kept ?_ ?_
      · apply State.bump_kept
        apply State.setF_kept
        exact h5
      · exact h5
    clear_value x13
    extract_lets -underBinder -merge +onlyGivenNames x15
    clear_value x15
    extract_lets -underBinder -merge +onlyGivenNames x16
    have h17 : Kept q x16 := by
      unfold x16
      refine ite_kept ?_ ?_
      · apply State.portDown_kept
        exact h14
      · refine ite_kept ?_ ?_
        · apply State.setPortState_kept
          exact h14
        · exact h14
    clear_value x16
    apply State.portCounts_kept
    exact h17

theorem State.combDark_kept {q : List Instr} {s : State} (h : Kept q s) (a1) (a2) (a3) : Kept q (State.combDark s a1 a2 a3) := by
  unfold State.combDark
  refine foldS_kept _ ?_ ?_
  · apply State.setCombState_kept
    exact h
  · intro x0
    intro x1 x2
    apply State.setF_kept
    exact x2

theorem State.lightComb_kept {q : List Instr} {s : State} (h : Kept q s) (a1) (a2) : Kept q (State.lightComb s a1 a2) := by
  unfold State.lightComb
  refine ite_kept ?_ ?_
  · apply State.setCombState_kept
    exact h
  · exact h

theorem State.swapRefuse_kept {q : List Instr} {s : State} (h : Kept q s) (a1) : Kept q (State.swapRefuse s a1) := by
  unfold State.swapRefuse
  extract_lets -underBinder -merge +onlyGivenNames x0
  have h1 : Kept q x0 := by
    unfold x0
    apply State.setF_kept
    apply State.setF_kept
    exact h
  clear_value x0
  extract_lets -underBinder -merge +onlyGivenNames x2
  have h3 : Kept q x2 := by
    unfold x2
    split
    · extract_lets -underBinder -merge +onlyGivenNames x4
      clear_value x4
      extract_lets -underBinder -merge +onlyGivenNames x5
      have h6 : Kept q x5 := by
        unfold x5
        refine ite_kept ?_ ?_
        · apply State.combDark_kept
          exact h1
        · exact h1
      clear_value x5
      refine kept_mk ?_
      exact h6
    · exact h1
  clear_value x2
  apply State.raise_kept
  exact h3

theorem State.widen_kept {q : List Instr} {s : State} (h : Kept q s) (a1) (a2) : Kept q (State.widen s a1 a2) := by
  unfold State.widen
  extract_lets -underBinder -merge +onlyGivenNames x0
  clear_value x0
  extract_lets -underBinder -merge +onlyGivenNames x1
  clear_value x1
  refine ite_kept ?_ ?_
  · exact h
  · extract_lets -underBinder -merge +onlyGivenNames x2
    clear_value x2
    apply State.sendLane_kept
    apply State.setPort_kept
    exact h

theorem State.combDone_kept {q : List Instr} {s : State} (h : Kept q s) (a1) (a2) (a3) : Kept q (State.combDone s a1 a2 a3) := by
  unfold State.combDone
  extract_lets -underBinder -merge +onlyGivenNames x0
  clear_value x0
  extract_lets -underBinder -merge +onlyGivenNames x1
  have h2 : Kept q x1 := by
    unfold x1
    refine ite_kept ?_ ?_
    · apply State.combDark_kept
      exact h
    · apply State.combDark_kept
      exact h
  clear_value x1
  extract_lets -underBinder -merge +onlyGivenNames x3
  have h4 : Kept q x3 := by
    unfold x3
    apply State.setCombState_kept
    exact h2
  clear_value x3
  extract_lets -underBinder -merge +onlyGivenNames x5
  have h6 : Kept q x5 := by
    unfold x5
    apply State.setF_kept
    exact h4
  clear_value x5
  extract_lets -underBinder -merge +onlyGivenNames x7
  clear_value x7
  extract_lets -underBinder -merge +onlyGivenNames x8
  have h9 : Kept q x8 := by
    unfold x8
    refine kept_mk ?_
    exact h6
  clear_value x8
  extract_lets -underBinder -merge +onlyGivenNames x10
  have h11 : Kept q x10 := by
    unfold x10
    apply State.setF_kept
    apply State.setF_kept
    exact h9
  clear_value x10
  extract_lets -underBinder -merge +onlyGivenNames x12
  clear_value x12
  extract_lets -underBinder -merge +onlyGivenNames x13
  have h14 : Kept q x13 := by
    unfold x13
    refine foldS_kept _ ?_ ?_
    · exact h11
    · intro x15
      intro x16 x17
      apply State.setF_kept
      exact x17
  clear_value x13
  extract_lets -underBinder -merge +onlyGivenNames x18
  have h19 : Kept q x18 := by
    unfold x18
    refine foldS_kept _ ?_ ?_
    · exact h14
    · intro x20
      intro x21 x22
      extract_lets -underBinder -merge +onlyGivenNames x23
      clear_value x23
      extract_lets -underBinder -merge +onlyGivenNames x24
      clear_value x24
      apply State.widen_kept
      apply State.portCounts_kept
      apply State.setPort_kept
      exact x22
  clear_value x18
  refine ite_kept ?_ ?_
  · apply State.lightComb_kept
    exact h19
  · exact h19

theorem State.cutNext_kept {q : List Instr} {s : State} (h : Kept q s) (a1) (a2) : Kept q (State.cutNext s a1 a2) := by
  unfold State.cutNext
  split
  · exact h
  · extract_lets -underBinder -merge +onlyGivenNames x0
    have h1 : Kept q x0 := by
      unfold x0
      refine ite_kept ?_ ?_
      · exact h
      · apply State.cutOrder_kept
        exact h
    clear_value x0
    extract_lets -underBinder -merge +onlyGivenNames x2
    have h3 : Kept q x2 := by
      unfold x2
      refine ite_kept ?_ ?_
      · exact h1
      · apply State.cutOrder_kept
        exact h1
    clear_value x2
    refine ite_kept ?_ ?_
    · apply State.combDone_kept
      exact h3
    · exact h3

theorem State.swapCheck_kept {q : List Instr} {s : State} (h : Kept q s) (a1) (a2) : Kept q (State.swapCheck s a1 a2) := by
  unfold State.swapCheck
  split
  · exact h
  · extract_lets -underBinder -merge +onlyGivenNames x0
    refine ite_kept ?_ ?_
    · apply State.swapRefuse_kept
      exact h
    · apply State.cutNext_kept
      refine kept_mk ?_
      exact h

theorem State.combSwap_kept {q : List Instr} {s : State} (h : Kept q s) (a1) (a2) (a3) : Kept q (State.combSwap s a1 a2 a3) := by
  unfold State.combSwap
  refine ite_kept ?_ ?_
  · exact h
  · extract_lets -underBinder -merge +onlyGivenNames x0
    clear_value x0
    extract_lets -underBinder -merge +onlyGivenNames x1
    clear_value x1
    refine ite_kept ?_ ?_
    · apply State.swapRefuse_kept
      exact h
    · extract_lets -underBinder -merge +onlyGivenNames x2
      clear_value x2
      extract_lets -underBinder -merge +onlyGivenNames x3
      have h4 : Kept q x3 := by
        unfold x3
        refine kept_mk ?_
        exact h
      clear_value x3
      extract_lets -underBinder -merge +onlyGivenNames x5
      have h6 : Kept q x5 := by
        unfold x5
        apply State.setF_kept
        exact h4
      clear_value x5
      refine ite_kept ?_ ?_
      · apply State.swapCheck_kept
        exact h6
      · apply State.lightComb_kept
        exact h6

theorem State.combLocked_kept {q : List Instr} {s : State} (h : Kept q s) (a1) (a2) (a3) : Kept q (State.combLocked s a1 a2 a3) := by
  unfold State.combLocked
  refine ite_kept ?_ ?_
  · exact h
  · extract_lets -underBinder -merge +onlyGivenNames x0
    have h1 : Kept q x0 := by
      unfold x0
      apply State.setCombState_kept
      exact h
    clear_value x0
    split
    · refine ite_kept ?_ ?_
      · apply State.swapCheck_kept
        exact h1
      · exact h1
    · exact h1

theorem State.combCut_kept {q : List Instr} {s : State} (h : Kept q s) (a1) (a2) : Kept q (State.combCut s a1 a2) := by
  unfold State.combCut
  refine ite_kept ?_ ?_
  · exact h
  · apply State.cutNext_kept
    apply State.setPort_kept
    exact h

theorem State.showAge_kept {q : List Instr} {s : State} (h : Kept q s) (a1) (a2) (a3) : Kept q (State.showAge s a1 a2 a3) := by
  unfold State.showAge
  apply State.setF_kept
  apply State.setF_kept
  exact h

theorem State.combAge_kept {q : List Instr} {s : State} (h : Kept q s) (a1) (a2) : Kept q (State.combAge s a1 a2) := by
  unfold State.combAge
  extract_lets -underBinder -merge +onlyGivenNames x0
  clear_value x0
  extract_lets -underBinder -merge +onlyGivenNames x1
  have h2 : Kept q x1.2 := by
    unfold x1
    apply State.draw_kept
    exact h
  clear_value x1
  extract_lets -underBinder -merge +onlyGivenNames x3
  have h4 : Kept q x3.2 := by
    unfold x3
    refine ite_kept2 ?_ ?_
    · refine snd_mk ?_
      exact h2
    · refine snd_mk ?_
      exact h
  clear_value x3
  extract_lets -underBinder -merge +onlyGivenNames x5
  have h6 : Kept q x5 := by
    unfold x5
    exact h4
  clear_value x5
  extract_lets -underBinder -merge +onlyGivenNames x7
  clear_value x7
  extract_lets -underBinder -merge +onlyGivenNames x8
  have h9 : Kept q x8 := by
    unfold x8
    refine kept_mk ?_
    exact h6
  clear_value x8
  apply State.showAge_kept
  exact h9

theorem State.combMonitor_kept {q : List Instr} {s : State} (h : Kept q s) (a1) (a2) (a3) (a4) (a5) (a6) (a7) : Kept q (State.combMonitor s a1 a2 a3 a4 a5 a6 a7) := by
  unfold State.combMonitor
  extract_lets -underBinder -merge +onlyGivenNames x0
  clear_value x0
  refine ite_kept ?_ ?_
  · exact h
  · extract_lets -underBinder -merge +onlyGivenNames x1
    have h2 : Kept q x1 := by
      unfold x1
      apply State.combAge_kept
      exact h
    clear_value x1
    extract_lets -underBinder -merge +onlyGivenNames x3
    clear_value x3
    extract_lets -underBinder -merge +onlyGivenNames x4
    clear_value x4
    extract_lets -underBinder -merge +onlyGivenNames x5
    clear_value x5
    split
    extract_lets -underBinder -merge +onlyGivenNames x6
    have h7 : Kept q x6 := by
      unfold x6
      apply State.setF_kept
      apply State.setF_kept
      refine snd_kept (by assumption) ?_
      refine ite_kept2 ?_ ?_
      · apply State.draw_kept
        exact h2
      · refine snd_mk ?_
        exact h2
    clear_value x6
    extract_lets -underBinder -merge +onlyGivenNames x8
    have h9 : Kept q x8 := by
      unfold x8
      apply State.setF_kept
      exact h7
    clear_value x8
    extract_lets -underBinder -merge +onlyGivenNames x10
    have h11 : Kept q x10 := by
      unfold x10
      refine foldS_kept _ ?_ ?_
      · exact h9
      · intro x12
        intro x13 x14
        apply State.setF_kept
        exact x14
    clear_value x10
    extract_lets -underBinder -merge +onlyGivenNames x15
    clear_value x15
    extract_lets -underBinder -merge +onlyGivenNames x16
    have h17 : Kept q x16 := by
      unfold x16
      apply State.setF_kept
      exact h11
    clear_value x16
    extract_lets -underBinder -merge +onlyGivenNames x18
    have h19 : Kept q x18 := by
      unfold x18
      refine ite_kept ?_ ?_
      · apply State.raise_kept
        apply State.setF_kept
        exact h17
      · exact h17
    clear_value x18
    extract_lets -underBinder -merge +onlyGivenNames x20
    extract_lets -underBinder -merge +onlyGivenNames x21
    clear_value x21
    refine ite_kept ?_ ?_
    · extract_lets -underBinder -merge +onlyGivenNames x22
      have h23 : Kept q x22 := by
        unfold x22
        apply State.combDark_kept
        exact h19
      clear_value x22
      refine ite_kept ?_ ?_
      · extract_lets -underBinder -merge +onlyGivenNames x24
        have h25 : Kept q x24 := by
          unfold x24
          apply State.raise_kept
          exact h23
        clear_value x24
        refine ite_kept ?_ ?_
        · apply State.combSwap_kept
          exact h25
        · exact h25
      · refine ite_kept ?_ ?_
        · apply State.swapRefuse_kept
          exact h23
        · apply State.raise_kept
          exact h23
    · refine ite_kept ?_ ?_
      · apply State.combSwap_kept
        exact h19
      · refine ite_kept ?_ ?_
        · apply State.combSwap_kept
          exact h19
        · exact h19

theorem State.lineSourceFail_kept {q : List Instr} {s : State} (h : Kept q s) (a1) (a2) (a3) : Kept q (State.lineSourceFail s a1 a2 a3) := by
  unfold State.lineSourceFail
  extract_lets -underBinder -merge +onlyGivenNames x0
  clear_value x0
  refine ite_kept ?_ ?_
  · exact h
  · extract_lets -underBinder -merge +onlyGivenNames x1
    have h2 : Kept q x1 := by
      unfold x1
      apply State.setF_kept
      exact h
    clear_value x1
    extract_lets -underBinder -merge +onlyGivenNames x3
    have h4 : Kept q x3 := by
      unfold x3
      refine ite_kept ?_ ?_
      · refine foldS_kept _ ?_ ?_
        · exact h2
        · intro x5
          intro x6 x7
          split
          · apply State.startSwap_kept
            exact x7
          · apply State.portCounts_kept
            apply State.setPort_kept
            exact x7
      · exact h2
    clear_value x3
    refine ite_kept ?_ ?_
    · apply State.combSwap_kept
      exact h4
    · exact h4

theorem State.lineFails_kept {q : List Instr} {s : State} (h : Kept q s) (a1) (a2) (a3) (a4) : Kept q (State.lineFails s a1 a2 a3 a4) := by
  unfold State.lineFails
  extract_lets -underBinder -merge +onlyGivenNames x0
  clear_value x0
  extract_lets -underBinder -merge +onlyGivenNames x1
  have h2 : Kept q x1 := by
    unfold x1
    refine ite_kept ?_ ?_
    · exact h
    · apply State.setPort_kept
      exact h
  clear_value x1
  split
  · apply State.startSwap_kept
    exact h2
  · apply State.portCounts_kept
    exact h2

theorem State.ringFail_kept {q : List Instr} {s : State} (h : Kept q s) (a1) (a2) (a3) : Kept q (State.ringFail s a1 a2 a3) := by
  unfold State.ringFail
  extract_lets -underBinder -merge +onlyGivenNames x0
  have h1 : Kept q x0 := by
    unfold x0
    apply State.setF_kept
    apply State.setF_kept
    exact h
  clear_value x0
  apply State.lineFails_kept
  apply State.raise_kept
  exact h1

theorem State.ringLoss_kept {q : List Instr} {s : State} (h : Kept q s) (a1) (a2) (a3) (a4) : Kept q (State.ringLoss s a1 a2 a3 a4) := by
  unfold State.ringLoss
  refine ite_kept ?_ ?_
  · exact h
  · extract_lets -underBinder -merge +onlyGivenNames x0
    have h1 : Kept q x0 := by
      unfold x0
      apply State.bump_kept
      apply State.setF_kept
      exact h
    clear_value x0
    extract_lets -underBinder -merge +onlyGivenNames x2
    have h3 : Kept q x2 := by
      unfold x2
      apply State.bump_kept
      apply State.setF_kept
      exact h1
    clear_value x2
    refine ite_kept ?_ ?_
    · apply State.setF_kept
      exact h3
    · apply State.ringFail_kept
      exact h3

theorem State.ringError_kept {q : List Instr} {s : State} (h : Kept q s) (a1) (a2) (a3) (a4) (a5) : Kept q (State.ringError s a1 a2 a3 a4 a5) := by
  unfold State.ringError
  extract_lets -underBinder -merge +onlyGivenNames x0
  have h1 : Kept q x0 := by
    unfold x0
    apply State.setF_kept
    exact h
  clear_value x0
  refine ite_kept ?_ ?_
  · exact h1
  · apply State.ringLoss_kept
    exact h1

theorem State.rxLine_kept {q : List Instr} {s : State} (h : Kept q s) (a1) (a2) (a3) (a4) : Kept q (State.rxLine s a1 a2 a3 a4) := by
  unfold State.rxLine
  extract_lets -underBinder -merge +onlyGivenNames x0
  clear_value x0
  extract_lets -underBinder -merge +onlyGivenNames x1
  have h2 : Kept q x1 := by
    unfold x1
    apply State.setF_kept
    exact h
  clear_value x1
  extract_lets -underBinder -merge +onlyGivenNames x3
  clear_value x3
  extract_lets -underBinder -merge +onlyGivenNames x4
  have h5 : Kept q x4 := by
    unfold x4
    apply State.setF_kept
    exact h2
  clear_value x4
  extract_lets -underBinder -merge +onlyGivenNames x6
  have h7 : Kept q x6 := by
    unfold x6
    apply State.bump_kept
    exact h5
  clear_value x6
  extract_lets -underBinder -merge +onlyGivenNames x8
  clear_value x8
  split
  · refine ite_kept ?_ ?_
    · apply State.startSwap_kept
      exact h7
    · exact h7
  · exact h7

theorem State.signalLoss_kept {q : List Instr} {s : State} (h : Kept q s) (a1) (a2) (a3) : Kept q (State.signalLoss s a1 a2 a3) := by
  unfold State.signalLoss
  extract_lets -underBinder -merge +onlyGivenNames x0
  have h1 : Kept q x0 := by
    unfold x0
    apply State.setF_kept
    exact h
  clear_value x0
  split
  · refine ite_kept ?_ ?_
    · apply State.laneNarrow_kept
      exact h1
    · exact h1
  · exact h1

theorem State.setLink_kept {q : List Instr} {s : State} (h : Kept q s) (a1) (a2) : Kept q (State.setLink s a1 a2) := by
  unfold State.setLink
  refine kept_mk ?_
  exact h

theorem State.occ_kept {q : List Instr} {s : State} (h : Kept q s) : Kept q (State.occ s) := by
  unfold State.occ
  extract_lets -underBinder -merge +onlyGivenNames x0
  clear_value x0
  apply State.setF_kept
  apply State.setF_kept
  exact h

theorem State.toTrain_kept {q : List Instr} {s : State} (h : Kept q s) (a1) : Kept q (State.toTrain s a1) := by
  unfold State.toTrain
  extract_lets -underBinder -merge +onlyGivenNames x0
  have h1 : Kept q x0 := by
    unfold x0
    apply State.setF_kept
    apply State.setPortState_kept
    exact h
  clear_value x0
  extract_lets -underBinder -merge +onlyGivenNames x2
  have h3 : Kept q x2 := by
    unfold x2
    apply State.setF_kept
    exact h1
  clear_value x2
  extract_lets -underBinder -merge +onlyGivenNames x4
  have h5 : Kept q x4 := by
    unfold x4
    apply State.setF_kept
    apply State.setF_kept
    exact h3
  clear_value x4
  extract_lets -underBinder -merge +onlyGivenNames x6
  extract_lets -underBinder -merge +onlyGivenNames x7
  have h8 : Kept q x7 := by
    unfold x7
    unfold x6
    apply State.setF_kept
    apply State.setF_kept
    apply State.setF_kept
    apply State.setF_kept
    exact h5
  clear_value x7
  extract_lets -underBinder -merge +onlyGivenNames x9
  clear_value x9
  extract_lets -underBinder -merge +onlyGivenNames x10
  have h11 : Kept q x10 := by
    unfold x10
    apply State.setPort_kept
    exact h8
  clear_value x10
  extract_lets -underBinder -merge +onlyGivenNames x12
  clear_value x12
  extract_lets -underBinder -merge +onlyGivenNames x13
  have h14 : Kept q x13 := by
    unfold x13
    apply State.occ_kept
    apply State.setLink_kept
    exact h11
  clear_value x13
  apply State.portCounts_kept
  apply State.sendLane_kept
  exact h14

theorem State.engineStart_kept {q : List Instr} {s : State} (h : Kept q s) (a1) : Kept q (State.engineStart s a1) := by
  unfold State.engineStart
  refine ite_kept ?_ ?_
  · exact h
  · extract_lets -underBinder -merge +onlyGivenNames x0
    have h1 : Kept q x0 := by
      unfold x0
      refine ite_kept ?_ ?_
      · exact h
      · apply State.loadFuses_kept
        refine kept_mk ?_
        exact h
    clear_value x0
    extract_lets -underBinder -merge +onlyGivenNames x2
    clear_value x2
    extract_lets -underBinder -merge +onlyGivenNames x3
    have h4 : Kept q x3 := by
      unfold x3
      refine kept_mk ?_
      exact h1
    clear_value x3
    extract_lets -underBinder -merge +onlyGivenNames x5
    have h6 : Kept q x5 := by
      unfold x5
      apply State.setF_kept
      exact h4
    clear_value x5
    extract_lets -underBinder -merge +onlyGivenNames x7
    clear_value x7
    extract_lets -underBinder -merge +onlyGivenNames x8
    have h9 : Kept q x8 := by
      unfold x8
      apply State.setF_kept
      exact h6
    clear_value x8
    extract_lets -underBinder -merge +onlyGivenNames x10
    have h11 : Kept q x10 := by
      unfold x10
      refine foldS_kept _ ?_ ?_
      · exact h9
      · intro x12
        intro x13 x14
        split
        · apply State.setF_kept
          exact x14
        · exact x14
    clear_value x10
    extract_lets -underBinder -merge +onlyGivenNames x15
    have h16 : Kept q x15 := by
      unfold x15
      refine foldS_kept _ ?_ ?_
      · exact h11
      · intro x17
        intro x18 x19
        split
        · apply State.showAge_kept
          exact x19
        · exact x19
    clear_value x15
    extract_lets -underBinder -merge +onlyGivenNames x20
    have h21 : Kept q x20 := by
      unfold x20
      refine foldS_kept _ ?_ ?_
      · exact h16
      · intro x22
        intro x23 x24
        extract_lets -underBinder -merge +onlyGivenNames x25
        clear_value x25
        extract_lets -underBinder -merge +onlyGivenNames x26
        clear_value x26
        extract_lets -underBinder -merge +onlyGivenNames x27
        have h28 : Kept q x27 := by
          unfold x27
          apply State.setPort_kept
          exact x24
        clear_value x27
        extract_lets -underBinder -merge +onlyGivenNames x29
        have h30 : Kept q x29 := by
          unfold x29
          refine foldS_kept _ ?_ ?_
          · exact h28
          · intro x31
            intro x32 x33
            apply State.setF_kept
            exact x33
        clear_value x29
        apply State.portCounts_kept
        apply State.lowerLevel_kept
        apply State.setPortState_kept
        exact h30
    clear_value x20
    refine ite_kept ?_ ?_
    · extract_lets -underBinder -merge +onlyGivenNames x34
      clear_value x34
      extract_lets -underBinder -merge +onlyGivenNames x35
      have h36 : Kept q x35 := by
        unfold x35
        refine kept_mk ?_
        exact h21
      clear_value x35
      refine ite_kept ?_ ?_
      · apply State.setCombState_kept
        exact h36
      · exact h36
    · refine kept_mk ?_
      exact h21

theorem State.ringAcquire_kept {q : List Instr} {s : State} (h : Kept q s) (a1) (a2) (a3) (a4) : Kept q (State.ringAcquire s a1 a2 a3 a4) := by
  unfold State.ringAcquire
  split
  · apply State.setF_kept
    apply State.setF_kept
    exact h
  · apply State.ringFail_kept
    exact h

theorem State.ringsDone_kept {q : List Instr} {s : State} (h : Kept q s) (a1) (a2) (a3) : Kept q (State.ringsDone s a1 a2 a3) := by
  unfold State.ringsDone
  extract_lets -underBinder -merge +onlyGivenNames x0
  clear_value x0
  extract_lets -underBinder -merge +onlyGivenNames x1
  clear_value x1
  refine ite_kept ?_ ?_
  · exact h
  · extract_lets -underBinder -merge +onlyGivenNames x2
    have h3 : Kept q x2 := by
      unfold x2
      apply State.setCombState_kept
      exact h
    clear_value x2
    extract_lets -underBinder -merge +onlyGivenNames x4
    have h5 : Kept q x4 := by
      unfold x4
      refine foldS_kept _ ?_ ?_
      · exact h3
      · intro x6
        intro x7 x8
        refine ite_kept ?_ ?_
        · exact x8
        · apply State.ringAcquire_kept
          exact x8
    clear_value x4
    extract_lets -underBinder -merge +onlyGivenNames x9
    have h10 : Kept q x9 := by
      unfold x9
      refine ite_kept ?_ ?_
      · apply State.lightComb_kept
        exact h5
      · exact h5
    clear_value x9
    refine ite_kept ?_ ?_
    · apply State.portOff_kept
      exact h10
    · apply State.toTrain_kept
      exact h10

theorem State.aligned_kept {q : List Instr} {s : State} (h : Kept q s) (a1) (a2) : Kept q (State.aligned s a1 a2) := by
  unfold State.aligned
  refine ite_kept ?_ ?_
  · exact h
  · extract_lets -underBinder -merge +onlyGivenNames x0
    clear_value x0
    extract_lets -underBinder -merge +onlyGivenNames x1
    extract_lets -underBinder -merge +onlyGivenNames x2
    have h3 : Kept q x2 := by
      unfold x2
      refine foldS_kept _ ?_ ?_
      · exact h
      · intro x4
        intro x5 x6
        apply State.setF_kept
        exact x6
    clear_value x2
    extract_lets -underBinder -merge +onlyGivenNames x7
    have h8 : Kept q x7 := by
      unfold x7
      refine foldS_kept _ ?_ ?_
      · exact h3
      · intro x9
        intro x10 x11
        extract_lets -underBinder -merge +onlyGivenNames x12
        clear_value x12
        refine ite_kept ?_ ?_
        · exact x11
        · extract_lets -underBinder -merge +onlyGivenNames x13
          clear_value x13
          extract_lets -underBinder -merge +onlyGivenNames x14
          have h15 : Kept q x14 := by
            unfold x14
            apply State.setPort_kept
            exact x11
          clear_value x14
          split
          · apply State.setF_kept
            exact h15
          · apply State.setF_kept
            exact h15
    clear_value x7
    extract_lets -underBinder -merge +onlyGivenNames x16
    clear_value x16
    refine ite_kept ?_ ?_
    · apply State.portDown_kept
      exact h8
    · apply State.portCounts_kept
      apply State.setPortState_kept
      exact h8

theorem State.leEnable_kept {q : List Instr} {s : State} (h : Kept q s) (a1) (a2) (a3) : Kept q (State.leEnable s a1 a2 a3) := by
  unfold State.leEnable
  extract_lets -underBinder -merge +onlyGivenNames x0
  clear_value x0
  refine ite_kept ?_ ?_
  · refine ite_kept ?_ ?_
    · exact h
    · refine ite_kept ?_ ?_
      · extract_lets -underBinder -merge +onlyGivenNames x1
        have h2 : Kept q x1 := by
          unfold x1
          apply State.setF_kept
          exact h
        clear_value x1
        extract_lets -underBinder -merge +onlyGivenNames x3
        have h4 : Kept q x3 := by
          unfold x3
          refine foldS_kept _ ?_ ?_
          · exact h2
          · intro x5
            intro x6 x7
            extract_lets -underBinder -merge +onlyGivenNames x8
            clear_value x8
            apply State.combDark_kept
            exact x7
        clear_value x3
        extract_lets -underBinder -merge +onlyGivenNames x9
        clear_value x9
        extract_lets -underBinder -merge +onlyGivenNames x10
        have h11 : Kept q x10 := by
          unfold x10
          refine kept_mk ?_
          exact h4
        clear_value x10
        extract_lets -underBinder -merge +onlyGivenNames x12
        have h13 : Kept q x12 := by
          unfold x12
          apply State.setF_kept
          exact h11
        clear_value x12
        refine foldS_kept _ ?_ ?_
        · exact h13
        · intro x14
          intro x15 x16
          apply State.portCounts_kept
          apply State.setPortState_kept
          exact x16
      · apply State.cfgErr_kept
        exact h
  · refine ite_kept ?_ ?_
    · exact h
    · extract_lets -underBinder -merge +onlyGivenNames x17
      have h18 : Kept q x17 := by
        unfold x17
        apply State.setF_kept
        exact h
      clear_value x17
      refine ite_kept ?_ ?_
      · apply State.engineStart_kept
        exact h18
      · exact h18

theorem State.standbyWarm_kept {q : List Instr} {s : State} (h : Kept q s) (a1) (a2) : Kept q (State.standbyWarm s a1 a2) := by
  unfold State.standbyWarm
  extract_lets -underBinder -merge +onlyGivenNames x0
  have h1 : Kept q x0 := by
    unfold x0
    apply State.setF_kept
    exact h
  clear_value x0
  extract_lets -underBinder -merge +onlyGivenNames x2
  clear_value x2
  refine ite_kept ?_ ?_
  · refine ite_kept ?_ ?_
    · apply State.lightComb_kept
      exact h1
    · exact h1
  · refine ite_kept ?_ ?_
    · apply State.combDark_kept
      exact h1
    · exact h1

theorem State.leThresh_kept {q : List Instr} {s : State} (h : Kept q s) (a1) (a2) (a3) : Kept q (State.leThresh s a1 a2 a3) := by
  unfold State.leThresh
  extract_lets -underBinder -merge +onlyGivenNames x0
  clear_value x0
  refine ite_kept ?_ ?_
  · extract_lets -underBinder -merge +onlyGivenNames x1
    have h2 : Kept q x1 := by
      unfold x1
      apply State.setF_kept
      apply State.setF_kept
      exact h
    clear_value x1
    extract_lets -underBinder -merge +onlyGivenNames x3
    have h4 : Kept q x3 := by
      unfold x3
      apply State.setF_kept
      apply State.setF_kept
      exact h2
    clear_value x3
    apply State.setF_kept
    exact h4
  · apply State.cfgErr_kept
    exact h

theorem State.portDisable_kept {q : List Instr} {s : State} (h : Kept q s) (a1) : Kept q (State.portDisable s a1) := by
  unfold State.portDisable
  apply State.portDrain_kept
  apply State.setF_kept
  exact h

theorem State.portEnable_kept {q : List Instr} {s : State} (h : Kept q s) (a1) : Kept q (State.portEnable s a1) := by
  unfold State.portEnable
  extract_lets -underBinder -merge +onlyGivenNames x0
  have h1 : Kept q x0 := by
    unfold x0
    apply State.setF_kept
    exact h
  clear_value x0
  extract_lets -underBinder -merge +onlyGivenNames x2
  clear_value x2
  extract_lets -underBinder -merge +onlyGivenNames x3
  have h4 : Kept q x3 := by
    unfold x3
    apply State.setPort_kept
    exact h1
  clear_value x3
  refine ite_kept ?_ ?_
  · apply State.toTrain_kept
    exact h4
  · exact h4

theorem State.leLswap_kept {q : List Instr} {s : State} (h : Kept q s) (a1) (a2) (a3) : Kept q (State.leLswap s a1 a2 a3) := by
  unfold State.leLswap
  apply State.startSwap_kept
  apply State.setF_kept
  exact h

theorem State.leSensor_kept {q : List Instr} {s : State} (h : Kept q s) (a1) (a2) (a3) : Kept q (State.leSensor s a1 a2 a3).1 := by
  unfold State.leSensor
  extract_lets -underBinder -merge +onlyGivenNames x0
  clear_value x0
  refine fst_mk ?_
  refine kept_mk ?_
  exact h

theorem State.leTemp_kept {q : List Instr} {s : State} (h : Kept q s) (a1) (a2) : Kept q (State.leTemp s a1 a2) := by
  unfold State.leTemp
  extract_lets -underBinder -merge +onlyGivenNames x0
  clear_value x0
  extract_lets -underBinder -merge +onlyGivenNames x1
  have h2 : Kept q x1 := by
    unfold x1
    apply State.setF_kept
    apply State.setF_kept
    exact h
  clear_value x1
  extract_lets -underBinder -merge +onlyGivenNames x3
  have h4 : Kept q x3 := by
    unfold x3
    refine ite_kept ?_ ?_
    · apply State.raiseLevel_kept
      exact h2
    · apply State.lowerLevel_kept
      exact h2
  clear_value x3
  refine ite_kept ?_ ?_
  · refine ite_kept ?_ ?_
    · exact h4
    · extract_lets -underBinder -merge +onlyGivenNames x5
      have h6 : Kept q x5 := by
        unfold x5
        apply State.raiseLevel_kept
        exact h4
      clear_value x5
      extract_lets -underBinder -merge +onlyGivenNames x7
      have h8 : Kept q x7 := by
        unfold x7
        refine foldS_kept _ ?_ ?_
        · exact h6
        · intro x9
          intro x10 x11
          extract_lets -underBinder -merge +onlyGivenNames x12
          clear_value x12
          apply State.combDark_kept
          exact x11
      clear_value x7
      extract_lets -underBinder -merge +onlyGivenNames x13
      clear_value x13
      extract_lets -underBinder -merge +onlyGivenNames x14
      have h15 : Kept q x14 := by
        unfold x14
        refine kept_mk ?_
        exact h8
      clear_value x14
      refine foldS_kept _ ?_ ?_
      · apply State.setF_kept
        exact h15
      · intro x16
        intro x17 x18
        refine ite_kept ?_ ?_
        · exact x18
        · apply State.portDown_kept
          exact x18
  · refine ite_kept ?_ ?_
    · apply State.engineStart_kept
      apply State.lowerLevel_kept
      exact h4
    · refine ite_kept ?_ ?_
      · apply State.engineStart_kept
        exact h4
      · exact h4

theorem State.toPhy_kept {q : List Instr} {s : State} (h : Kept q s) (a1) (a2) (a3) : Kept q (State.toPhy s a1 a2 a3) := by
  unfold State.toPhy
  extract_lets -underBinder -merge +onlyGivenNames x0
  clear_value x0
  apply State.setLink_kept
  exact h

theorem State.sendUnit_kept {q : List Instr} {s : State} (h : Kept q s) (a1) (a2) (a3) (a4) (a5) : Kept q (State.sendUnit s a1 a2 a3 a4 a5) := by
  unfold State.sendUnit
  extract_lets -underBinder -merge +onlyGivenNames x0
  clear_value x0
  split
  extract_lets -underBinder -merge +onlyGivenNames x1
  clear_value x1
  extract_lets -underBinder -merge +onlyGivenNames x2
  have h3 : Kept q x2 := by
    unfold x2
    apply State.setLink_kept
    exact h
  clear_value x2
  extract_lets -underBinder -merge +onlyGivenNames x4
  clear_value x4
  refine ite_kept ?_ ?_
  · apply State.toPhy_kept
    extract_lets -underBinder -merge +onlyGivenNames x5
    have h6 : Kept q x5 := by
      unfold x5
      apply State.injFire_kept
      exact h3
    clear_value x5
    refine kept_mk ?_
    exact h6
  · refine ite_kept ?_ ?_
    · apply State.toPhy_kept
      refine kept_mk ?_
      exact h3
    · apply State.toPhy_kept
      exact h3

theorem State.phyTake_kept {q : List Instr} {s : State} (h : Kept q s) (a1) : Kept q (State.phyTake s a1) := by
  unfold State.phyTake
  extract_lets -underBinder -merge +onlyGivenNames x0
  clear_value x0
  refine ite_kept ?_ ?_
  · exact h
  · extract_lets -underBinder -merge +onlyGivenNames x1
    clear_value x1
    extract_lets -underBinder -merge +onlyGivenNames x2
    clear_value x2
    extract_lets -underBinder -merge +onlyGivenNames x3
    have h4 : Kept q x3 := by
      unfold x3
      apply State.setLink_kept
      exact h
    clear_value x3
    refine foldS_kept _ ?_ ?_
    · exact h4
    · intro x5
      intro x6 x7
      apply State.send_kept
      exact x7

theorem State.linkFail_kept {q : List Instr} {s : State} (h : Kept q s) (a1) : Kept q (State.linkFail s a1) := by
  unfold State.linkFail
  extract_lets -underBinder -merge +onlyGivenNames x0
  have h1 : Kept q x0 := by
    unfold x0
    apply State.setF_kept
    apply State.setF_kept
    exact h
  clear_value x0
  extract_lets -underBinder -merge +onlyGivenNames x2
  clear_value x2
  extract_lets -underBinder -merge +onlyGivenNames x3
  have h4 : Kept q x3 := by
    unfold x3
    apply State.setLink_kept
    exact h1
  clear_value x3
  apply State.raise_kept
  apply State.occ_kept
  exact h4

theorem State.resend_kept {q : List Instr} {s : State} (h : Kept q s) (a1) (a2) : Kept q (State.resend s a1 a2) := by
  unfold State.resend
  extract_lets -underBinder -merge +onlyGivenNames x0
  clear_value x0
  refine ite_kept ?_ ?_
  · exact h
  · extract_lets -underBinder -merge +onlyGivenNames x1
    have h2 : Kept q x1 := by
      unfold x1
      apply State.bump_kept
      exact h
    clear_value x1
    extract_lets -underBinder -merge +onlyGivenNames x3
    have h4 : Kept q x3 := by
      unfold x3
      apply State.setLink_kept
      exact h2
    clear_value x3
    extract_lets -underBinder -merge +onlyGivenNames x5
    clear_value x5
    extract_lets -underBinder -merge +onlyGivenNames x6
    have h7 : Kept q x6 := by
      unfold x6
      refine foldS_kept _ ?_ ?_
      · exact h4
      · intro x8
        intro x9 x10
        apply State.sendUnit_kept
        exact x10
    clear_value x6
    refine ite_kept ?_ ?_
    · apply State.linkFail_kept
      exact h7
    · exact h7

theorem State.lackRecv_kept {q : List Instr} {s : State} (h : Kept q s) (a1) (a2) : Kept q (State.lackRecv s a1 a2) := by
  unfold State.lackRecv
  extract_lets -underBinder -merge +onlyGivenNames x0
  clear_value x0
  extract_lets -underBinder -merge +onlyGivenNames x1
  clear_value x1
  refine ite_kept ?_ ?_
  · exact h
  · apply State.occ_kept
    apply State.setLink_kept
    exact h

theorem State.credits_kept {q : List Instr} {s : State} (h : Kept q s) (a1) (a2) (a3) (a4) : Kept q (State.credits s a1 a2 a3 a4) := by
  unfold State.credits
  extract_lets -underBinder -merge +onlyGivenNames x0
  clear_value x0
  refine ite_kept ?_ ?_
  · apply State.setLink_kept
    exact h
  · apply State.setLink_kept
    exact h

theorem State.linkNak_kept {q : List Instr} {s : State} (h : Kept q s) (a1) : Kept q (State.linkNak s a1) := by
  unfold State.linkNak
  extract_lets -underBinder -merge +onlyGivenNames x0
  clear_value x0
  refine ite_kept ?_ ?_
  · exact h
  · apply State.send_kept
    apply State.setLink_kept
    exact h

theorem State.unitRecv_kept {q : List Instr} {s : State} (h : Kept q s) (a1) (a2) (a3) : Kept q (State.unitRecv s a1 a2 a3) := by
  unfold State.unitRecv
  refine ite_kept ?_ ?_
  · exact h
  · refine ite_kept ?_ ?_
    · apply State.linkNak_kept
      apply State.bump_kept
      exact h
    · extract_lets -underBinder -merge +onlyGivenNames x0
      split
      · extract_lets -underBinder -merge +onlyGivenNames x1
        have h2 : Kept q x1 := by
          unfold x1
          unfold x0
          apply State.credits_kept
          apply State.lackRecv_kept
          exact h
        clear_value x1
        split
        · exact h2
        · apply State.setLink_kept
          exact h2
      · extract_lets -underBinder -merge +onlyGivenNames x3
        clear_value x3
        refine ite_kept ?_ ?_
        · extract_lets -underBinder -merge +onlyGivenNames x4
          have h5 : Kept q x4 := by
            unfold x4
            unfold x0
            apply State.credits_kept
            apply State.lackRecv_kept
            exact h
          clear_value x4
          extract_lets -underBinder -merge +onlyGivenNames x6
          clear_value x6
          extract_lets -underBinder -merge +onlyGivenNames x7
          clear_value x7
          apply State.occ_kept
          apply State.setLink_kept
          exact h5
        · apply State.linkNak_kept
          unfold x0
          apply State.credits_kept
          apply State.lackRecv_kept
          exact h

theorem State.unitArrives_kept {q : List Instr} {s : State} (h : Kept q s) (a1) (a2) (a3) (a4) (a5) : Kept q (State.unitArrives s a1 a2 a3 a4 a5) := by
  unfold State.unitArrives
  refine ite_kept ?_ ?_
  · exact h
  · apply State.unitRecv_kept
    exact h

theorem State.controlUnit_kept {q : List Instr} {s : State} (h : Kept q s) (a1) : Kept q (State.controlUnit s a1) := by
  unfold State.controlUnit
  refine ite_kept ?_ ?_
  · exact h
  · extract_lets -underBinder -merge +onlyGivenNames x0
    clear_value x0
    extract_lets -underBinder -merge +onlyGivenNames x1
    clear_value x1
    extract_lets -underBinder -merge +onlyGivenNames x2
    clear_value x2
    apply State.sendUnit_kept
    exact h

theorem State.setUsable_kept {q : List Instr} {s : State} (h : Kept q s) (a1) : Kept q (State.setUsable s a1) := by
  unfold State.setUsable
  apply State.setF_kept
  exact h

theorem State.setBank_kept {q : List Instr} {s : State} (h : Kept q s) (a1) (a2) : Kept q (State.setBank s a1 a2) := by
  unfold State.setBank
  apply State.setF_kept
  exact h

theorem State.discard_kept {q : List Instr} {s : State} (h : Kept q s) (a1) : Kept q (State.discard s a1) := by
  unfold State.discard
  apply State.bump_kept
  exact h

theorem State.tablePort_kept {q : List Instr} {s : State} (h : Kept q s) (a1) (a2) : Kept q (State.tablePort s a1 a2).2 := by
  unfold State.tablePort
  split
  · refine snd_mk ?_
    exact h
  · refine ite_kept2 ?_ ?_
    · split
      · refine snd_mk ?_
        apply State.bump_kept
        exact h
      · refine snd_mk ?_
        exact h
    · refine snd_mk ?_
      exact h

theorem State.hops_kept {q : List Instr} {s : State} (h : Kept q s) (a1) : Kept q (State.hops s a1).2 := by
  unfold State.hops
  extract_lets -underBinder -merge +onlyGivenNames x0
  clear_value x0
  extract_lets -underBinder -merge +onlyGivenNames x1
  clear_value x1
  extract_lets -underBinder -merge +onlyGivenNames x2
  clear_value x2
  refine ite_kept2 ?_ ?_
  · refine snd_mk ?_
    exact h
  · refine ite_kept2 ?_ ?_
    · refine snd_mk ?_
      exact h
    · refine ite_kept2 ?_ ?_
      · refine snd_mk ?_
        exact h
      · refine ite_kept2 ?_ ?_
        · refine snd_mk ?_
          exact h
        · extract_lets -underBinder -merge +onlyGivenNames x3
          clear_value x3
          extract_lets -underBinder -merge +onlyGivenNames x4
          clear_value x4
          split
          · refine snd_mk ?_
            refine snd_kept (by assumption) ?_
            apply State.tablePort_kept
            exact h
          · refine snd_mk ?_
            apply State.setF_kept
            refine snd_kept (by assumption) ?_
            apply State.tablePort_kept
            exact h

theorem State.takeHop_kept {q : List Instr} {s : State} (h : Kept q s) (a1) (a2) : Kept q (State.takeHop s a1 a2) := by
  unfold State.takeHop
  split
  · apply State.discard_kept
    exact h
  · exact h
  · split
    · extract_lets -underBinder -merge +onlyGivenNames x0
      have h1 : Kept q x0 := by
        unfold x0
        apply State.setF_kept
        apply State.discard_kept
        exact h
      clear_value x0
      apply State.raise_kept
      exact h1
    · split
      · exact h
      · extract_lets -underBinder -merge +onlyGivenNames x2
        clear_value x2
        extract_lets -underBinder -merge +onlyGivenNames x3
        clear_value x3
        extract_lets -underBinder -merge +onlyGivenNames x4
        clear_value x4
        extract_lets -underBinder -merge +onlyGivenNames x5
        clear_value x5
        extract_lets -underBinder -merge +onlyGivenNames x6
        clear_value x6
        apply State.sendUnit_kept
        apply State.setLink_kept
        exact h

theorem State.routeCell_some {q : List Instr} {s t : State} {p : Nat} {c : Cell} (h : Kept q s) (e : s.routeCell p c = some t) : Kept q t := by
  unfold State.routeCell at e
  extract_lets st z y u at e
  have hz : Kept q z.2 := ite_kept2 h (State.bump_kept h _ _ _ _)
  clear_value z
  have hy : Kept q y.2 := State.hops_kept hz _
  clear_value y
  have hu : Kept q u := foldS_kept _ hy fun _ _ hs => State.takeHop_kept hs _ _
  clear_value u
  split at e
  · have e := Option.some.inj e
    rw [← e]
    exact ite_kept (kept_mk hu) hu
  · exact absurd e (by simp)

theorem State.cellRoute_kept {q : List Instr} {s : State} (h : Kept q s) (a1) (a2) : Kept q (State.cellRoute s a1 a2) := by
  unfold State.cellRoute
  refine ite_kept ?_ ?_
  · exact h
  · refine ite_kept ?_ ?_
    · split
      · exact h
      · extract_lets -underBinder -merge +onlyGivenNames x0
        clear_value x0
        extract_lets -underBinder -merge +onlyGivenNames x1
        have h2 : Kept q x1 := by
          unfold x1
          refine kept_mk ?_
          exact h
        clear_value x1
        split
        · apply State.occ_kept
          refine State.routeCell_some ?_ (by assumption)
          exact h2
        · exact h
    · extract_lets -underBinder -merge +onlyGivenNames x3
      clear_value x3
      split
      · exact h
      · extract_lets -underBinder -merge +onlyGivenNames x4
        have h5 : Kept q x4 := by
          unfold x4
          apply State.setLink_kept
          exact h
        clear_value x4
        split
        · apply State.occ_kept
          refine State.routeCell_some ?_ (by assumption)
          exact h5
        · exact h

theorem cellInject_kept {q : List Instr} {s : State} (h : Kept q s) (a0) : Kept q (cellInject a0 s) := by
  unfold cellInject
  apply State.occ_kept
  refine kept_mk ?_
  exact h

theorem State.countPeers_kept {q : List Instr} {s : State} (h : Kept q s) : Kept q (State.countPeers s) := by
  unfold State.countPeers
  apply State.setF_kept
  exact h

theorem State.setTx_kept {q : List Instr} {s : State} (h : Kept q s) (a1) (a2) : Kept q (State.setTx s a1 a2) := by
  unfold State.setTx
  apply State.countPeers_kept
  refine kept_mk ?_
  exact h

theorem State.closePeer_kept {q : List Instr} {s : State} (h : Kept q s) (a1) : Kept q (State.closePeer s a1) := by
  unfold State.closePeer
  split
  · exact h
  · refine ite_kept ?_ ?_
    · exact h
    · refine ite_kept ?_ ?_
      · apply State.countPeers_kept
        refine kept_mk ?_
        exact h
      · extract_lets -underBinder -merge +onlyGivenNames x0
        clear_value x0
        extract_lets -underBinder -merge +onlyGivenNames x1
        clear_value x1
        extract_lets -underBinder -merge +onlyGivenNames x2
        clear_value x2
        extract_lets -underBinder -merge +onlyGivenNames x3
        clear_value x3
        refine foldS_kept _ ?_ ?_
        · apply State.setTx_kept
          exact h
        · intro x4
          intro x5 x6
          apply cellInject_kept
          exact x6

theorem State.openPeer_some1 {q : List Instr} {s t u : State} {a : Nat} (h : Kept q s) (e : s.openPeer a = (some t, u)) : Kept q t := by
  unfold State.openPeer at e
  dsimp only at e
  split at e
  · injection e with e1 e2; injection e1 with e1; subst e1; exact h
  · split at e
    · injection e with e1 e2; injection e1 with e1; subst e1; exact State.setTx_kept (kept_mk h) _ _
    · split at e <;> (injection e with e1 e2; injection e1)

theorem State.openPeer_kept {q : List Instr} {s : State} (h : Kept q s) (a) : Kept q (s.openPeer a).2 := by
  unfold State.openPeer
  refine ite_kept2 h (ite_kept2 (kept_mk h) ?_)
  dsimp only
  split
  · exact State.setF_kept h _ _ _ _
  · exact State.closePeer_kept h _

theorem State.txClass_kept {q : List Instr} {s : State} (h : Kept q s) (a1) : Kept q (State.txClass s a1).2 := by
  unfold State.txClass
  split
  · refine snd_mk ?_
    exact h
  · refine snd_mk ?_
    apply State.draw_kept
    exact h

theorem State.letMc_kept {q : List Instr} {s t : State} (h : Kept q s) {r x} (e : s.letMc r x = some t) : Kept q t := by
  unfold State.letMc at e
  split at e
  · exact absurd e (by simp)
  · rw [← Option.some.inj e]
    exact cellInject_kept (kept_mk h) _

theorem State.letUni_kept {q : List Instr} {s t : State} (h : Kept q s) {r e x} (he : s.letUni r e x = some t) : Kept q t := by
  unfold State.letUni at he
  split at he
  · exact absurd he (by simp)
  · rw [← Option.some.inj he]
    exact cellInject_kept (State.setTx_kept h _ _) _

theorem State.letIn_kept {q : List Instr} {s : State} (h : Kept q s) (r) : Kept q (s.letIn r).2 ∧ ∀ t, (s.letIn r).1 = some t → Kept q t := by
  unfold State.letIn
  split
  · exact ⟨State.txClass_kept h _, fun t e => State.letMc_kept (State.txClass_kept h _) e⟩
  · split
    · rename_i s1 e1
      have := State.openPeer_kept h r.dst
      rw [e1] at this
      exact ⟨this, fun t e => absurd e (by simp)⟩
    · rename_i s1 _ e1
      have h1 := State.openPeer_some1 h e1
      dsimp only
      split
      · exact ⟨h1, fun t e => absurd e (by simp)⟩
      · exact ⟨State.txClass_kept h1 _, fun t e => State.letUni_kept (State.txClass_kept h1 _) e⟩

theorem pumpList_kept {q : List Instr} {s : State} (h : Kept q s) (l b) : Kept q (pumpList l b s) := by
  induction l generalizing s b with
  | nil => exact h
  | cons r t ih =>
    unfold pumpList
    refine ite_kept (ih (kept_mk h) _) ?_
    have h1 := State.letIn_kept h r
    split
    · rename_i e
      exact ih (h1.2 _ (by rw [e])) _
    · rename_i e
      rw [e] at h1
      exact ih (kept_mk h1.1) _

theorem State.pump_kept {q : List Instr} {s : State} (h : Kept q s) : Kept q (State.pump s) := by
  unfold State.pump
  apply pumpList_kept
  refine kept_mk ?_
  exact h

theorem State.fabEvent_kept {q : List Instr} {s : State} (h : Kept q s) (a1) : Kept q (State.fabEvent s a1) := by
  unfold State.fabEvent
  refine kept_mk ?_
  exact h

theorem State.issue_kept {q : List Instr} {s : State} (h : Kept q s) (a1) : Kept q (State.issue s a1) := by
  unfold State.issue
  split
  · exact h
  · refine ite_kept ?_ ?_
    · apply State.fabEvent_kept
      exact h
    · apply State.pump_kept
      refine kept_mk ?_
      exact h

theorem State.freeClosed_kept {q : List Instr} {s : State} (h : Kept q s) (a1) : Kept q (State.freeClosed s a1) := by
  unfold State.freeClosed
  split
  · exact h
  · refine ite_kept ?_ ?_
    · apply State.countPeers_kept
      refine kept_mk ?_
      exact h
    · exact h

theorem State.ackRecv_kept {q : List Instr} {s : State} (h : Kept q s) (a1) : Kept q (State.ackRecv s a1) := by
  unfold State.ackRecv
  extract_lets -underBinder -merge +onlyGivenNames x0
  clear_value x0
  refine ite_kept ?_ ?_
  · extract_lets -underBinder -merge +onlyGivenNames x1
    clear_value x1
    split
    · exact h
    · apply State.pump_kept
      refine kept_mk ?_
      exact h
  · split
    · exact h
    · split
      · exact h
      · extract_lets -underBinder -merge +onlyGivenNames x2
        clear_value x2
        refine ite_kept ?_ ?_
        · exact h
        · extract_lets -underBinder -merge +onlyGivenNames x3
          have h4 : Kept q x3 := by
            unfold x3
            apply State.setTx_kept
            exact h
          clear_value x3
          apply State.pump_kept
          apply State.freeClosed_kept
          exact h4

theorem State.sendAck_kept {q : List Instr} {s : State} (h : Kept q s) (a1) (a2) (a3) : Kept q (State.sendAck s a1 a2 a3) := by
  unfold State.sendAck
  split
  · exact h
  · extract_lets -underBinder -merge +onlyGivenNames x0
    clear_value x0
    extract_lets -underBinder -merge +onlyGivenNames x1
    have h2 : Kept q x1 := by
      unfold x1
      refine kept_mk ?_
      exact h
    clear_value x1
    extract_lets -underBinder -merge +onlyGivenNames x3
    clear_value x3
    apply cellInject_kept
    exact h2

theorem State.answer_kept {q : List Instr} {s : State} (h : Kept q s) (a1) (a2) (a3) : Kept q (State.answer s a1 a2 a3) := by
  unfold State.answer
  extract_lets -underBinder -merge +onlyGivenNames x0
  clear_value x0
  apply cellInject_kept
  exact h

theorem State.accept_kept {q : List Instr} {s : State} (h : Kept q s) (a1) (a2) (a3) : Kept q (State.accept s a1 a2 a3) := by
  unfold State.accept
  extract_lets -underBinder -merge +onlyGivenNames x0
  clear_value x0
  extract_lets -underBinder -merge +onlyGivenNames x1
  have h2 : Kept q x1 := by
    unfold x1
    refine kept_mk ?_
    exact h
  clear_value x1
  extract_lets -underBinder -merge +onlyGivenNames x3
  have h4 : Kept q x3 := by
    unfold x3
    apply State.answer_kept
    exact h2
  clear_value x3
  extract_lets -underBinder -merge +onlyGivenNames x5
  clear_value x5
  extract_lets -underBinder -merge +onlyGivenNames x6
  clear_value x6
  extract_lets -underBinder -merge +onlyGivenNames x7
  have h8 : Kept q x7 := by
    unfold x7
    refine kept_mk ?_
    exact h2
  clear_value x7
  extract_lets -underBinder -merge +onlyGivenNames x9
  have h10 : Kept q x9 := by
    unfold x9
    refine ite_kept ?_ ?_
    · refine kept_mk ?_
      exact h4
    · refine ite_kept ?_ ?_
      · apply State.sendAck_kept
        exact h8
      · exact h8
  clear_value x9
  apply State.countPeers_kept
  exact h10

theorem State.dataRecv_kept {q : List Instr} {s : State} (h : Kept q s) (a1) : Kept q (State.dataRecv s a1) := by
  unfold State.dataRecv
  extract_lets -underBinder -merge +onlyGivenNames x0
  clear_value x0
  extract_lets -underBinder -merge +onlyGivenNames x1
  clear_value x1
  extract_lets -underBinder -merge +onlyGivenNames x2
  clear_value x2
  extract_lets -underBinder -merge +onlyGivenNames x3
  clear_value x3
  split
  · refine ite_kept ?_ ?_
    · apply State.setF_kept
      exact h
    · refine ite_kept ?_ ?_
      · apply State.accept_kept
        exact h
      · refine ite_kept ?_ ?_
        · apply State.sendAck_kept
          exact h
        · apply State.bump_kept
          exact h
  · refine ite_kept ?_ ?_
    · refine ite_kept ?_ ?_
      · apply State.setF_kept
        exact h
      · extract_lets -underBinder -merge +onlyGivenNames x4
        have h5 : Kept q x4 := by
          unfold x4
          refine ite_kept ?_ ?_
          · apply State.fabEvent_kept
            exact h
          · exact h
        clear_value x4
        apply State.accept_kept
        exact h5
    · refine ite_kept ?_ ?_
      · apply State.answer_kept
        exact h
      · refine ite_kept ?_ ?_
        · apply State.answer_kept
          exact h
        · apply State.bump_kept
          exact h

theorem State.resetRecv_kept {q : List Instr} {s : State} (h : Kept q s) (a1) : Kept q (State.resetRecv s a1) := by
  unfold State.resetRecv
  split
  · exact h
  · refine ite_kept ?_ ?_
    · exact h
    · extract_lets -underBinder -merge +onlyGivenNames x0
      clear_value x0
      extract_lets -underBinder -merge +onlyGivenNames x1
      clear_value x1
      extract_lets -underBinder -merge +onlyGivenNames x2
      have h3 : Kept q x2 := by
        unfold x2
        refine kept_mk ?_
        exact h
      clear_value x2
      extract_lets -underBinder -merge +onlyGivenNames x4
      clear_value x4
      extract_lets -underBinder -merge +onlyGivenNames x5
      clear_value x5
      extract_lets -underBinder -merge +onlyGivenNames x6
      have h7 : Kept q x6 := by
        unfold x6
        apply State.setTx_kept
        exact h3
      clear_value x6
      extract_lets -underBinder -merge +onlyGivenNames x8
      have h9 : Kept q x8 := by
        unfold x8
        refine foldS_kept _ ?_ ?_
        · exact h7
        · intro x10
          intro x11 x12
          refine foldS_kept _ ?_ ?_
          · exact x12
          · intro x13
            intro x14 x15
            apply cellInject_kept
            exact x15
      clear_value x8
      apply State.fabEvent_kept
      exact h9

theorem State.unreachable_kept {q : List Instr} {s : State} (h : Kept q s) (a1) : Kept q (State.unreachable s a1) := by
  unfold State.unreachable
  extract_lets -underBinder -merge +onlyGivenNames x0
  clear_value x0
  extract_lets -underBinder -merge +onlyGivenNames x1
  clear_value x1
  extract_lets -underBinder -merge +onlyGivenNames x2
  clear_value x2
  extract_lets -underBinder -merge +onlyGivenNames x3
  have h4 : Kept q x3 := by
    unfold x3
    refine kept_mk ?_
    exact h
  clear_value x3
  extract_lets -underBinder -merge +onlyGivenNames x5
  clear_value x5
  extract_lets -underBinder -merge +onlyGivenNames x6
  clear_value x6
  extract_lets -underBinder -merge +onlyGivenNames x7
  clear_value x7
  extract_lets -underBinder -merge +onlyGivenNames x8
  clear_value x8
  extract_lets -underBinder -merge +onlyGivenNames x9
  have h10 : Kept q x9 := by
    unfold x9
    refine kept_mk ?_
    exact h4
  clear_value x9
  extract_lets -underBinder -merge +onlyGivenNames x11
  have h12 : Kept q x11 := by
    unfold x11
    apply State.setF_kept
    apply State.setF_kept
    exact h10
  clear_value x11
  apply State.pump_kept
  apply State.fabEvent_kept
  apply State.countPeers_kept
  exact h12

theorem State.retransmit_kept {q : List Instr} {s : State} (h : Kept q s) (a1) (a2) (a3) : Kept q (State.retransmit s a1 a2 a3) := by
  unfold State.retransmit
  refine ite_kept ?_ ?_
  · split
    · exact h
    · refine ite_kept ?_ ?_
      · exact h
      · refine ite_kept ?_ ?_
        · extract_lets -underBinder -merge +onlyGivenNames x0
          clear_value x0
          refine foldS_kept _ ?_ ?_
          · exact h
          · intro x1
            intro x2 x3
            apply State.unreachable_kept
            exact x3
        · extract_lets -underBinder -merge +onlyGivenNames x4
          clear_value x4
          extract_lets -underBinder -merge +onlyGivenNames x5
          have h6 : Kept q x5 := by
            unfold x5
            refine kept_mk ?_
            exact h
          clear_value x5
          extract_lets -underBinder -merge +onlyGivenNames x7
          clear_value x7
          refine foldS_kept _ ?_ ?_
          · apply State.bump_kept
            exact h6
          · intro x8
            intro x9 x10
            apply cellInject_kept
            exact x10
  · split
    · exact h
    · split
      · exact h
      · refine ite_kept ?_ ?_
        · exact h
        · refine ite_kept ?_ ?_
          · apply State.unreachable_kept
            exact h
          · extract_lets -underBinder -merge +onlyGivenNames x11
            have h12 : Kept q x11 := by
              unfold x11
              apply State.setTx_kept
              exact h
            clear_value x11
            extract_lets -underBinder -merge +onlyGivenNames x13
            have h14 : Kept q x13 := by
              unfold x13
              apply State.bump_kept
              exact h12
            clear_value x13
            refine foldS_kept _ ?_ ?_
            · exact h14
            · intro x15
              intro x16 x17
              apply cellInject_kept
              exact x17

theorem State.ejected_kept {q : List Instr} {s : State} (h : Kept q s) (c : Nat) (kind : Nat → Bool) {k : Cell → State → State}
    (hk : ∀ x s, Kept q s → Kept q (k x s)) : Kept q (s.ejected c kind k) := by
  unfold State.ejected
  split
  · exact h
  · exact ite_kept (hk _ _ h) h

theorem State.rtRefuse_kept {q : List Instr} {s : State} (h : Kept q s) : Kept q (State.rtRefuse s) := by
  unfold State.rtRefuse
  apply State.setF_kept
  exact h

theorem State.rtLoad_kept {q : List Instr} {s : State} (h : Kept q s) : Kept q (State.rtLoad s) := by
  unfold State.rtLoad
  extract_lets -underBinder -merge +onlyGivenNames x0
  clear_value x0
  refine ite_kept ?_ ?_
  · apply State.setBank_kept
    exact h
  · apply State.rtRefuse_kept
    exact h

theorem State.rtArm_kept {q : List Instr} {s : State} (h : Kept q s) : Kept q (State.rtArm s) := by
  unfold State.rtArm
  extract_lets -underBinder -merge +onlyGivenNames x0
  clear_value x0
  refine ite_kept ?_ ?_
  · apply State.setBank_kept
    exact h
  · apply State.rtRefuse_kept
    exact h

theorem State.rtFlip_kept {q : List Instr} {s : State} (h : Kept q s) : Kept q (State.rtFlip s) := by
  unfold State.rtFlip
  extract_lets -underBinder -merge +onlyGivenNames x0
  clear_value x0
  refine ite_kept ?_ ?_
  · apply State.setF_kept
    apply State.setBank_kept
    apply State.setBank_kept
    exact h
  · apply State.rtRefuse_kept
    exact h

theorem State.rtDrained_kept {q : List Instr} {s : State} (h : Kept q s) (a1) : Kept q (State.rtDrained s a1) := by
  unfold State.rtDrained
  refine ite_kept ?_ ?_
  · apply State.setBank_kept
    exact h
  · exact h

theorem State.rtEntry_kept {q : List Instr} {s : State} (h : Kept q s) (a1) (a2) (a3) (a4) (a5) : Kept q (State.rtEntry s a1 a2 a3 a4 a5) := by
  unfold State.rtEntry
  extract_lets -underBinder -merge +onlyGivenNames x0
  clear_value x0
  refine ite_kept ?_ ?_
  · apply State.wr_kept
    exact h
  · apply State.cfgErr_kept
    exact h

theorem State.setExpect_kept {q : List Instr} {s : State} (h : Kept q s) (a1) : Kept q (State.setExpect s a1) := by
  unfold State.setExpect
  extract_lets -underBinder -merge +onlyGivenNames x0
  clear_value x0
  apply State.setF_kept
  apply State.setF_kept
  apply State.setF_kept
  exact h

theorem State.setCheck_kept {q : List Instr} {s : State} (h : Kept q s) (a1) (a2) : Kept q (State.setCheck s a1 a2) := by
  unfold State.setCheck
  extract_lets -underBinder -merge +onlyGivenNames x0
  have h1 : Kept q x0 := by
    unfold x0
    apply State.setF_kept
    exact h
  clear_value x0
  extract_lets -underBinder -merge +onlyGivenNames x2
  unfold x2
  apply State.setF_kept
  apply State.setF_kept
  apply State.setF_kept
  apply State.setF_kept
  exact h1

theorem State.cableCheck_kept {q : List Instr} {s : State} (h : Kept q s) (a1) : Kept q (State.cableCheck s a1) := by
  unfold State.cableCheck
  refine ite_kept ?_ ?_
  · exact h
  · extract_lets -underBinder -merge +onlyGivenNames x0
    clear_value x0
    extract_lets -underBinder -merge +onlyGivenNames x1
    clear_value x1
    extract_lets -underBinder -merge +onlyGivenNames x2
    clear_value x2
    extract_lets -underBinder -merge +onlyGivenNames x3
    clear_value x3
    extract_lets -underBinder -merge +onlyGivenNames x4
    have h5 : Kept q x4 := by
      unfold x4
      apply State.setCheck_kept
      exact h
    clear_value x4
    extract_lets -underBinder -merge +onlyGivenNames x6
    have h7 : Kept q x6 := by
      unfold x6
      split
      · refine ite_kept ?_ ?_
        · apply State.setCheck_kept
          exact h5
        · exact h5
      · exact h5
    clear_value x6
    refine ite_kept ?_ ?_
    · exact h7
    · apply State.raise_kept
      exact h7

theorem State.peerId_kept {q : List Instr} {s : State} (h : Kept q s) (a1) (a2) (a3) : Kept q (State.peerId s a1 a2 a3) := by
  unfold State.peerId
  extract_lets -underBinder -merge +onlyGivenNames x0
  clear_value x0
  extract_lets -underBinder -merge +onlyGivenNames x1
  have h2 : Kept q x1 := by
    unfold x1
    apply State.setF_kept
    apply State.setF_kept
    apply State.setF_kept
    exact h
  clear_value x1
  refine ite_kept ?_ ?_
  · apply State.cableCheck_kept
    exact h2
  · exact h2

theorem State.cableAccept_kept {q : List Instr} {s : State} (h : Kept q s) (a1) : Kept q (State.cableAccept s a1) := by
  unfold State.cableAccept
  extract_lets -underBinder -merge +onlyGivenNames x0
  clear_value x0
  refine ite_kept ?_ ?_
  · apply State.setF_kept
    exact h
  · exact h

theorem State.fabAddr_kept {q : List Instr} {s : State} (h : Kept q s) (a1) (a2) : Kept q (State.fabAddr s a1 a2) := by
  unfold State.fabAddr
  extract_lets -underBinder -merge +onlyGivenNames x0
  clear_value x0
  extract_lets -underBinder -merge +onlyGivenNames x1
  clear_value x1
  extract_lets -underBinder -merge +onlyGivenNames x2
  clear_value x2
  refine ite_kept ?_ ?_
  · apply State.cfgErr_kept
    exact h
  · extract_lets -underBinder -merge +onlyGivenNames x3
    have h4 : Kept q x3 := by
      unfold x3
      apply State.setF_kept
      apply State.setF_kept
      apply State.setF_kept
      exact h
    clear_value x3
    refine foldS_kept _ ?_ ?_
    · exact h4
    · intro x5
      intro x6 x7
      apply State.setExpect_kept
      exact x7

theorem State.fabEnable_kept {q : List Instr} {s : State} (h : Kept q s) (a1) : Kept q (State.fabEnable s a1) := by
  unfold State.fabEnable
  refine ite_kept ?_ ?_
  · exact h
  · apply State.setF_kept
    exact h

theorem State.peerClear_kept {q : List Instr} {s : State} (h : Kept q s) (a1) : Kept q (State.peerClear s a1) := by
  unfold State.peerClear
  refine kept_mk ?_
  exact h

theorem State.drainDone_kept {q : List Instr} {s : State} (h : Kept q s) (a1) : Kept q (State.drainDone s a1) := by
  unfold State.drainDone
  refine ite_kept ?_ ?_
  · exact h
  · apply State.occ_kept
    apply State.portOff_kept
    apply State.setLink_kept
    exact h

end Sys2Proof.Machine
end

