-- ==== Sys2Proof/Laws/KeptTray.lean ====
section
/-! SUPPORT. Every operation over the tray protocol, collectives, fencing and the held copies keeps `Kept`: the memory in canonical form, the bounds of the event ring and the log,
poison on sectors, and the queue. One lemma per operation, in the order of the files that define them. -/

namespace Sys2Proof.Machine

theorem State.setTray_kept {q : List Instr} {s : State} (h : Kept q s) (a1) : Kept q (State.setTray s a1) := by
  unfold State.setTray
  refine kept_mk ?_
  exact h

theorem State.newTag_kept {q : List Instr} {s : State} (h : Kept q s) : Kept q (State.newTag s).2 := by
  unfold State.newTag
  refine snd_mk ?_
  apply State.setTray_kept
  exact h

theorem State.coreFault_kept {q : List Instr} {s : State} (h : Kept q s) (a1) (a2) (a3) : Kept q (State.coreFault s a1 a2 a3) := by
  unfold State.coreFault
  apply State.accessErr_kept
  apply State.send_kept
  exact h

theorem State.dirCount_kept {q : List Instr} {s : State} (h : Kept q s) (a1) : Kept q (State.dirCount s a1) := by
  unfold State.dirCount
  extract_lets -underBinder -merge +onlyGivenNames x0
  clear_value x0
  apply State.setF_kept
  exact h

theorem State.dirDel_kept {q : List Instr} {s : State} (h : Kept q s) (a1) : Kept q (State.dirDel s a1) := by
  unfold State.dirDel
  apply State.dirCount_kept
  apply State.setTray_kept
  exact h

theorem State.dirPut_kept {q : List Instr} {s : State} (h : Kept q s) (a1) : Kept q (State.dirPut s a1) := by
  unfold State.dirPut
  extract_lets -underBinder -merge +onlyGivenNames x0
  clear_value x0
  extract_lets -underBinder -merge +onlyGivenNames x1
  clear_value x1
  extract_lets -underBinder -merge +onlyGivenNames x2
  clear_value x2
  apply State.dirCount_kept
  apply State.setTray_kept
  exact h

theorem State.dropHolder_kept {q : List Instr} {s : State} (h : Kept q s) (a1) (a2) : Kept q (State.dropHolder s a1 a2) := by
  unfold State.dropHolder
  split
  · exact h
  · extract_lets -underBinder -merge +onlyGivenNames x0
    clear_value x0
    refine ite_kept ?_ ?_
    · apply State.dirDel_kept
      exact h
    · apply State.dirCount_kept
      apply State.setTray_kept
      exact h

theorem State.recallAnswered_kept {q : List Instr} {s : State} (h : Kept q s) (a1) (a2) : Kept q (State.recallAnswered s a1 a2) := by
  unfold State.recallAnswered
  extract_lets -underBinder -merge +onlyGivenNames x0
  clear_value x0
  apply State.setTray_kept
  exact h

theorem State.recall_kept {q : List Instr} {s : State} (h : Kept q s) (a1) (a2) (a3) : Kept q (State.recall s a1 a2 a3) := by
  unfold State.recall
  extract_lets -underBinder -merge +onlyGivenNames x0
  have h1 : Kept q x0 := by
    unfold x0
    refine ite_kept ?_ ?_
    · apply State.dropHolder_kept
      exact h
    · exact h
  clear_value x0
  extract_lets -underBinder -merge +onlyGivenNames x2
  clear_value x2
  refine ite_kept ?_ ?_
  · exact h1
  · extract_lets -underBinder -merge +onlyGivenNames x3
    clear_value x3
    extract_lets -underBinder -merge +onlyGivenNames x4
    clear_value x4
    extract_lets -underBinder -merge +onlyGivenNames x5
    have h6 : Kept q x5 := by
      unfold x5
      apply State.setTray_kept
      exact h1
    clear_value x5
    extract_lets -underBinder -merge +onlyGivenNames x7
    have h8 : Kept q x7 := by
      unfold x7
      apply State.bump_kept
      exact h6
    clear_value x7
    refine foldS_kept _ ?_ ?_
    · exact h8
    · intro x9
      intro x10 x11
      split
      apply State.issue_kept
      refine snd_kept (by assumption) ?_
      apply State.newTag_kept
      exact x11

theorem State.granFree_kept {q : List Instr} {s : State} (h : Kept q s) (a1) (a2) (a3) : Kept q (State.granFree s a1 a2 a3).1 := by
  unfold State.granFree
  split
  · refine ite_kept1 ?_ ?_
    · refine fst_mk ?_
      apply State.setTray_kept
      exact h
    · refine fst_mk ?_
      exact h
  · refine ite_kept1 ?_ ?_
    · refine fst_mk ?_
      exact h
    · extract_lets -underBinder -merge +onlyGivenNames x0
      have h1 : Kept q x0 := by
        unfold x0
        apply State.recall_kept
        exact h
      clear_value x0
      refine fst_mk ?_
      exact h1

theorem State.claim_kept {q : List Instr} {s : State} (h : Kept q s) (a1) (a2) (a3) : Kept q (State.claim s a1 a2 a3).1 := by
  unfold State.claim
  refine foldl1_kept _ ?_ ?_
  · refine fst_mk ?_
    exact h
  · intro x0
    intro x1 x2
    split
    · split
      · exact x2
      · extract_lets -underBinder -merge +onlyGivenNames x3
        have h4 : Kept q x3.1 := by
          unfold x3
          apply State.granFree_kept
          exact x2
        clear_value x3
        refine fst_mk ?_
        exact h4
    · extract_lets -underBinder -merge +onlyGivenNames x5
      have h6 : Kept q x5.1 := by
        unfold x5
        apply State.granFree_kept
        exact x2
      clear_value x5
      refine fst_mk ?_
      refine ite_kept ?_ ?_
      · apply State.dirDel_kept
        exact h6
      · exact h6

theorem State.claimIf_kept {q : List Instr} {s : State} (h : Kept q s) (c : Prop) [Decidable c] (a n m) : Kept q (State.claimIf s c a n m).1 :=
  ite_kept1 (State.claim_kept h _ _ _) h

theorem State.dirRoom_kept {q : List Instr} {s : State} (h : Kept q s) (a1) (a2) : Kept q (State.dirRoom s a1 a2).1 := by
  unfold State.dirRoom
  extract_lets -underBinder -merge +onlyGivenNames x0
  clear_value x0
  refine ite_kept1 ?_ ?_
  · refine fst_mk ?_
    exact h
  · split
    · refine fst_mk ?_
      exact h
    · extract_lets -underBinder -merge +onlyGivenNames x1
      clear_value x1
      extract_lets -underBinder -merge +onlyGivenNames x2
      clear_value x2
      extract_lets -underBinder -merge +onlyGivenNames x3
      have h4 : Kept q x3.1 := by
        unfold x3
        apply State.granFree_kept
        exact h
      clear_value x3
      extract_lets -underBinder -merge +onlyGivenNames x5
      have h6 : Kept q x5 := by
        unfold x5
        refine ite_kept ?_ ?_
        · apply State.bump_kept
          exact h4
        · exact h4
      clear_value x5
      refine ite_kept1 ?_ ?_
      · refine fst_mk ?_
        apply State.dirDel_kept
        exact h6
      · refine fst_mk ?_
        exact h6

theorem State.setPeer_kept {q : List Instr} {s : State} (h : Kept q s) (a1) (a2) : Kept q (State.setPeer s a1 a2) := by
  unfold State.setPeer
  extract_lets -underBinder -merge +onlyGivenNames x0
  clear_value x0
  apply State.setF_kept
  exact h

theorem State.copyEnd_kept {q : List Instr} {s : State} (h : Kept q s) (a1) (a2) (a3) : Kept q (State.copyEnd s a1 a2 a3) := by
  unfold State.copyEnd
  extract_lets -underBinder -merge +onlyGivenNames x0
  clear_value x0
  extract_lets -underBinder -merge +onlyGivenNames x1
  have h2 : Kept q x1 := by
    unfold x1
    apply State.setTray_kept
    exact h
  clear_value x1
  extract_lets -underBinder -merge +onlyGivenNames x3
  have h4 : Kept q x3 := by
    unfold x3
    apply State.setF_kept
    exact h2
  clear_value x3
  apply State.modCmd_kept
  exact h4

theorem State.departOwn_kept {q : List Instr} {s : State} (h : Kept q s) (a1) : Kept q (State.departOwn s a1) := by
  unfold State.departOwn
  extract_lets -underBinder -merge +onlyGivenNames x0
  clear_value x0
  extract_lets -underBinder -merge +onlyGivenNames x1
  have h2 : Kept q x1 := by
    unfold x1
    refine foldS_kept _ ?_ ?_
    · exact h
    · intro x3
      intro x4 x5
      extract_lets -underBinder -merge +onlyGivenNames x6
      have h7 : Kept q x6 := by
        unfold x6
        apply State.poisonAt_kept
        apply State.poisonAt_kept
        exact x5
      clear_value x6
      extract_lets -underBinder -merge +onlyGivenNames x8
      have h9 : Kept q x8 := by
        unfold x8
        apply State.setF_kept
        exact h7
      clear_value x8
      extract_lets -underBinder -merge +onlyGivenNames x10
      have h11 : Kept q x10 := by
        unfold x10
        refine ite_kept ?_ ?_
        · apply State.raise_kept
          exact h9
        · exact x5
      clear_value x10
      apply State.dropHolder_kept
      exact h11
  clear_value x1
  refine foldS_kept _ ?_ ?_
  · exact h2
  · intro x12
    intro x13 x14
    apply State.recallAnswered_kept
    exact x14

theorem State.departCache_kept {q : List Instr} {s : State} (h : Kept q s) (a1) : Kept q (State.departCache s a1) := by
  unfold State.departCache
  extract_lets -underBinder -merge +onlyGivenNames x0
  clear_value x0
  extract_lets -underBinder -merge +onlyGivenNames x1
  clear_value x1
  extract_lets -underBinder -merge +onlyGivenNames x2
  have h3 : Kept q x2 := by
    unfold x2
    apply State.setTray_kept
    exact h
  clear_value x2
  refine foldS_kept _ ?_ ?_
  · exact h3
  · intro x4
    intro x5 x6
    extract_lets -underBinder -merge +onlyGivenNames x7
    clear_value x7
    apply State.raise_kept
    apply State.setF_kept
    exact x6

theorem State.departReqs_kept {q : List Instr} {s : State} (h : Kept q s) (a1) : Kept q (State.departReqs s a1) := by
  unfold State.departReqs
  extract_lets -underBinder -merge +onlyGivenNames x0
  clear_value x0
  extract_lets -underBinder -merge +onlyGivenNames x1
  clear_value x1
  extract_lets -underBinder -merge +onlyGivenNames x2
  have h3 : Kept q x2 := by
    unfold x2
    apply State.setTray_kept
    exact h
  clear_value x2
  extract_lets -underBinder -merge +onlyGivenNames x4
  have h5 : Kept q x4 := by
    unfold x4
    refine foldS_kept _ ?_ ?_
    · exact h3
    · intro x6
      intro x7 x8
      refine ite_kept ?_ ?_
      · exact x8
      · apply State.raise_kept
        apply State.send_kept
        exact x8
  clear_value x4
  extract_lets -underBinder -merge +onlyGivenNames x9
  clear_value x9
  refine foldS_kept _ ?_ ?_
  · exact h5
  · intro x10
    intro x11 x12
    apply State.copyEnd_kept
    exact x12

theorem State.depart_kept {q : List Instr} {s : State} (h : Kept q s) (a1) (a2) : Kept q (State.depart s a1 a2) := by
  unfold State.depart
  extract_lets -underBinder -merge +onlyGivenNames x0
  clear_value x0
  extract_lets -underBinder -merge +onlyGivenNames x1
  have h2 : Kept q x1 := by
    unfold x1
    refine ite_kept ?_ ?_
    · apply State.departOwn_kept
      apply State.departCache_kept
      apply State.departReqs_kept
      exact h
    · exact h
  clear_value x1
  extract_lets -underBinder -merge +onlyGivenNames x3
  have h4 : Kept q x3 := by
    unfold x3
    apply State.setPeer_kept
    exact h2
  clear_value x3
  extract_lets -underBinder -merge +onlyGivenNames x5
  have h6 : Kept q x5 := by
    unfold x5
    refine ite_kept ?_ ?_
    · apply State.setF_kept
      exact h4
    · exact h4
  clear_value x5
  apply State.setTray_kept
  exact h6

theorem State.joinCheck_kept {q : List Instr} {s : State} (h : Kept q s) (a1) : Kept q (State.joinCheck s a1) := by
  unfold State.joinCheck
  refine ite_kept ?_ ?_
  · apply State.setPeer_kept
    exact h
  · exact h

theorem State.sendJoin_kept {q : List Instr} {s : State} (h : Kept q s) (a1) : Kept q (State.sendJoin s a1) := by
  unfold State.sendJoin
  extract_lets -underBinder -merge +onlyGivenNames x0
  have h1 : Kept q x0 := by
    unfold x0
    apply State.issue_kept
    exact h
  clear_value x0
  apply State.setTray_kept
  exact h1

theorem State.recvJoin_kept {q : List Instr} {s : State} (h : Kept q s) (a1) : Kept q (State.recvJoin s a1) := by
  unfold State.recvJoin
  extract_lets -underBinder -merge +onlyGivenNames x0
  have h1 : Kept q x0 := by
    unfold x0
    refine ite_kept ?_ ?_
    · apply State.depart_kept
      exact h
    · exact h
  clear_value x0
  extract_lets -underBinder -merge +onlyGivenNames x2
  clear_value x2
  extract_lets -underBinder -merge +onlyGivenNames x3
  have h4 : Kept q x3 := by
    unfold x3
    apply State.setTray_kept
    exact h1
  clear_value x3
  extract_lets -underBinder -merge +onlyGivenNames x5
  have h6 : Kept q x5 := by
    unfold x5
    refine ite_kept ?_ ?_
    · apply State.sendJoin_kept
      exact h4
    · exact h4
  clear_value x5
  apply State.joinCheck_kept
  exact h6

theorem State.joinStart_kept {q : List Instr} {s : State} (h : Kept q s) : Kept q (State.joinStart s) := by
  unfold State.joinStart
  refine ite_kept ?_ ?_
  · exact h
  · extract_lets -underBinder -merge +onlyGivenNames x0
    have h1 : Kept q x0 := by
      unfold x0
      apply State.setF_kept
      exact h
    clear_value x0
    refine ite_kept ?_ ?_
    · exact h1
    · extract_lets -underBinder -merge +onlyGivenNames x2
      have h3 : Kept q x2 := by
        unfold x2
        apply State.setF_kept
        exact h1
      clear_value x2
      extract_lets -underBinder -merge +onlyGivenNames x4
      clear_value x4
      extract_lets -underBinder -merge +onlyGivenNames x5
      have h6 : Kept q x5 := by
        unfold x5
        refine foldS_kept _ ?_ ?_
        · exact h3
        · intro x7
          intro x8 x9
          apply State.sendJoin_kept
          exact x9
      clear_value x5
      extract_lets -underBinder -merge +onlyGivenNames x10
      have h11 : Kept q x10 := by
        unfold x10
        apply State.setPeer_kept
        apply State.setF_kept
        exact h6
      clear_value x10
      refine foldS_kept _ ?_ ?_
      · exact h11
      · intro x12
        intro x13 x14
        apply State.joinCheck_kept
        exact x14

theorem State.writeBack_kept {q : List Instr} {s : State} (h : Kept q s) (a1) (a2) : Kept q (State.writeBack s a1 a2) := by
  unfold State.writeBack
  split
  extract_lets -underBinder -merge +onlyGivenNames x0
  clear_value x0
  apply State.issue_kept
  refine snd_kept (by assumption) ?_
  apply State.newTag_kept
  exact h

theorem State.leaveStart_kept {q : List Instr} {s : State} (h : Kept q s) : Kept q (State.leaveStart s) := by
  unfold State.leaveStart
  extract_lets -underBinder -merge +onlyGivenNames x0
  have h1 : Kept q x0 := by
    unfold x0
    apply State.setF_kept
    exact h
  clear_value x0
  refine ite_kept ?_ ?_
  · exact h1
  · extract_lets -underBinder -merge +onlyGivenNames x2
    have h3 : Kept q x2 := by
      unfold x2
      apply State.setF_kept
      exact h1
    clear_value x2
    extract_lets -underBinder -merge +onlyGivenNames x4
    have h5 : Kept q x4 := by
      unfold x4
      refine foldS_kept _ ?_ ?_
      · exact h3
      · intro x6
        intro x7 x8
        refine ite_kept ?_ ?_
        · exact x8
        · apply State.recall_kept
          exact x8
    clear_value x4
    extract_lets -underBinder -merge +onlyGivenNames x9
    have h10 : Kept q x9 := by
      unfold x9
      refine foldS_kept _ ?_ ?_
      · exact h5
      · intro x11
        intro x12 x13
        apply State.writeBack_kept
        exact x13
    clear_value x9
    apply State.setTray_kept
    exact h10

theorem State.leaveDone_kept {q : List Instr} {s : State} (h : Kept q s) : Kept q (State.leaveDone s) := by
  unfold State.leaveDone
  extract_lets -underBinder -merge +onlyGivenNames x0
  clear_value x0
  extract_lets -underBinder -merge +onlyGivenNames x1
  clear_value x1
  extract_lets -underBinder -merge +onlyGivenNames x2
  clear_value x2
  refine ite_kept ?_ ?_
  · exact h
  · extract_lets -underBinder -merge +onlyGivenNames x3
    clear_value x3
    extract_lets -underBinder -merge +onlyGivenNames x4
    have h5 : Kept q x4 := by
      unfold x4
      refine foldS_kept _ ?_ ?_
      · exact h
      · intro x6
        intro x7 x8
        apply State.issue_kept
        exact x8
    clear_value x4
    extract_lets -underBinder -merge +onlyGivenNames x9
    have h10 : Kept q x9 := by
      unfold x9
      apply State.setF_kept
      apply State.setF_kept
      exact h5
    clear_value x9
    apply State.setTray_kept
    exact h10

theorem State.tryWin_kept {q : List Instr} {s : State} (h : Kept q s) (a1) (a2) : Kept q (State.tryWin s a1 a2) := by
  unfold State.tryWin
  extract_lets -underBinder -merge +onlyGivenNames x0
  clear_value x0
  extract_lets -underBinder -merge +onlyGivenNames x1
  clear_value x1
  extract_lets -underBinder -merge +onlyGivenNames x2
  clear_value x2
  extract_lets -underBinder -merge +onlyGivenNames x3
  clear_value x3
  extract_lets -underBinder -merge +onlyGivenNames x4
  refine ite_kept ?_ ?_
  · apply State.cfgErr_kept
    exact h
  · apply State.setF_kept
    apply State.setF_kept
    exact h

theorem State.atomicAt_kept {q : List Instr} {s : State} (h : Kept q s) (a1) (a2) (a3) (a4) (a5) (a6) : Kept q (State.atomicAt s a1 a2 a3 a4 a5 a6).1 := by
  unfold State.atomicAt
  extract_lets -underBinder -merge +onlyGivenNames x0
  have h1 : Kept q x0 := by
    unfold x0
    apply State.checkRead_kept
    exact h
  clear_value x0
  refine ite_kept1 ?_ ?_
  · refine fst_mk ?_
    exact h1
  · extract_lets -underBinder -merge +onlyGivenNames x2
    clear_value x2
    refine fst_mk ?_
    apply State.store_kept
    exact h1

theorem State.trayReq_kept {q : List Instr} {s : State} (h : Kept q s) (a1) (a2) (a3) (a4) : Kept q (State.trayReq s a1 a2 a3 a4) := by
  unfold State.trayReq
  split
  extract_lets -underBinder -merge +onlyGivenNames x0
  clear_value x0
  extract_lets -underBinder -merge +onlyGivenNames x1
  have h2 : Kept q x1 := by
    unfold x1
    apply State.setTray_kept
    refine snd_kept (by assumption) ?_
    apply State.newTag_kept
    exact h
  clear_value x1
  apply State.issue_kept
  exact h2

theorem State.ownLoad_kept {q : List Instr} {s : State} (h : Kept q s) (a1) (a2) (a3) (a4) (a5) (a6) : Kept q (State.ownLoad s a1 a2 a3 a4 a5 a6) := by
  unfold State.ownLoad
  refine ite_kept ?_ ?_
  · apply State.coreFault_kept
    exact h
  · refine ite_kept ?_ ?_
    · exact h
    · extract_lets -underBinder -merge +onlyGivenNames x0
      have h1 : Kept q x0 := by
        unfold x0
        apply State.checkRead_kept
        exact h
      clear_value x0
      refine ite_kept ?_ ?_
      · apply State.coreFault_kept
        exact h1
      · apply State.send_kept
        exact h1

theorem State.ownStore_kept {q : List Instr} {s : State} (h : Kept q s) (a1) (a2) (a3) (a4) (a5) (a6) : Kept q (State.ownStore s a1 a2 a3 a4 a5 a6) := by
  unfold State.ownStore
  refine ite_kept ?_ ?_
  · apply State.coreFault_kept
    exact h
  · refine ite_kept ?_ ?_
    · exact h
    · extract_lets -underBinder -merge +onlyGivenNames x0
      have h1 : Kept q x0.1 := by
        unfold x0
        apply State.claimIf_kept
        exact h
      clear_value x0
      refine ite_kept ?_ ?_
      · apply State.send_kept
        apply State.store_kept
        exact h1
      · exact h1

theorem State.trayLoad_kept {q : List Instr} {s : State} (h : Kept q s) (a1) (a2) (a3) (a4) : Kept q (State.trayLoad s a1 a2 a3 a4) := by
  unfold State.trayLoad
  split
  · apply State.coreFault_kept
    exact h
  · refine ite_kept ?_ ?_
    · apply State.ownLoad_kept
      exact h
    · refine ite_kept ?_ ?_
      · apply State.coreFault_kept
        exact h
      · split
        · apply State.send_kept
          exact h
        · extract_lets -underBinder -merge +onlyGivenNames x0
          clear_value x0
          apply State.trayReq_kept
          exact h

theorem State.trayStore_kept {q : List Instr} {s : State} (h : Kept q s) (a1) (a2) (a3) (a4) : Kept q (State.trayStore s a1 a2 a3 a4) := by
  unfold State.trayStore
  split
  · apply State.coreFault_kept
    exact h
  · extract_lets -underBinder -merge +onlyGivenNames x0
    clear_value x0
    refine ite_kept ?_ ?_
    · apply State.ownStore_kept
      exact h
    · refine ite_kept ?_ ?_
      · apply State.coreFault_kept
        exact h
      · split
        · refine ite_kept ?_ ?_
          · extract_lets -underBinder -merge +onlyGivenNames x1
            clear_value x1
            extract_lets -underBinder -merge +onlyGivenNames x2
            clear_value x2
            apply State.send_kept
            apply State.setTray_kept
            exact h
          · apply State.trayReq_kept
            exact h
        · extract_lets -underBinder -merge +onlyGivenNames x3
          have h4 : Kept q x3 := by
            unfold x3
            apply State.trayReq_kept
            exact h
          clear_value x3
          apply State.send_kept
          exact h4

theorem State.trayAtomic_kept {q : List Instr} {s : State} (h : Kept q s) (a1) (a2) (a3) (a4) (a5) (a6) : Kept q (State.trayAtomic s a1 a2 a3 a4 a5 a6) := by
  unfold State.trayAtomic
  split
  · refine ite_kept ?_ ?_
    · apply State.coreFault_kept
      exact h
    · refine ite_kept ?_ ?_
      · refine ite_kept ?_ ?_
        · apply State.coreFault_kept
          exact h
        · refine ite_kept ?_ ?_
          · exact h
          · extract_lets -underBinder -merge +onlyGivenNames x0
            have h1 : Kept q x0.1 := by
              unfold x0
              apply State.claim_kept
              exact h
            clear_value x0
            refine ite_kept ?_ ?_
            · exact h1
            · split
              · apply State.send_kept
                refine fst_kept (by assumption) ?_
                apply State.atomicAt_kept
                exact h1
              · apply State.send_kept
                refine fst_kept (by assumption) ?_
                apply State.atomicAt_kept
                exact h1
      · refine ite_kept ?_ ?_
        · apply State.coreFault_kept
          exact h
        · apply State.trayReq_kept
          exact h
  · apply State.coreFault_kept
    exact h

theorem State.coreFence_kept {q : List Instr} {s : State} (h : Kept q s) (a1) (a2) : Kept q (State.coreFence s a1 a2) := by
  unfold State.coreFence
  refine ite_kept ?_ ?_
  · apply State.send_kept
    exact h
  · apply State.setTray_kept
    exact h

theorem State.localAtomic_kept {q : List Instr} {s : State} (h : Kept q s) (hh a n o op cm) : Kept q (State.localAtomic s hh a n o op cm) := by
  unfold State.localAtomic
  dsimp only
  refine ite_kept (State.coreFault_kept h _ _ _) (ite_kept h ?_)
  have h1 : Kept q (s.claimIf (s.inWindow a ∨ (s.dirEnt (granOf a)).isSome) a n none).1 := State.claimIf_kept h _ _ _ _
  revert h1
  generalize s.claimIf (s.inWindow a ∨ (s.dirEnt (granOf a)).isSome) a n none = z
  intro h1
  refine ite_kept h1 ?_
  have h2 : Kept q (if z.1.inWindow a then z.1.dirPut ⟨granOf a, [], some z.1.slotNo, 0⟩ else z.1) := ite_kept (State.dirPut_kept h1 _) h1
  revert h2
  generalize (if z.1.inWindow a then z.1.dirPut ⟨granOf a, [], some z.1.slotNo, 0⟩ else z.1) = s2
  intro h2
  have hc := State.checkRead_kept h2 a n (Master.mk 0 hh).code atAtomic
  refine ite_kept (ite_kept (State.send_kept hc _) (State.send_kept (kept_mk hc) _)) ?_
  refine ite_kept ?_ ?_
  · exact State.send_kept (kept_mk (ite_kept (State.store_kept h2 _ _) h2)) _
  · have h3 := State.atomicAt_kept h2 a n o op cm (Master.mk 0 hh).code
    revert h3
    generalize s2.atomicAt a n o op cm (Master.mk 0 hh).code = y
    intro h3
    obtain ⟨s3, r⟩ := y
    cases r <;> exact State.send_kept h3 _

theorem State.genHeader_kept {q : List Instr} {s : State} (h : Kept q s) (a1) (a2) (a3) (a4) (a5) : Kept q (State.genHeader s a1 a2 a3 a4 a5) := by
  unfold State.genHeader
  extract_lets -underBinder -merge +onlyGivenNames x0
  have h1 : Kept q x0 := by
    unfold x0
    apply State.setF_kept
    apply State.setF_kept
    apply State.store_kept
    exact h
  clear_value x0
  refine kept_mk ?_
  exact h1

theorem State.takeCells_kept {q : List Instr} {s : State} (h : Kept q s) (a1) : Kept q (State.takeCells s a1) := by
  unfold State.takeCells
  refine kept_mk ?_
  exact h

theorem State.onRequest_kept {q : List Instr} {s : State} (h : Kept q s) (src cls op : Nat) {k : Cell → List Cell → State → State}
    (hk : ∀ x l s, Kept q s → Kept q (k x l s)) : Kept q (s.onRequest src cls op k) := by
  unfold State.onRequest
  split
  · exact h
  · exact ite_kept (hk _ _ _ h) (ite_kept h (State.bump_kept (State.takeCells_kept h _) _ _ _ _))

theorem State.refuseReq_kept {q : List Instr} {s : State} (h : Kept q s) (a1) (a2) (a3) (a4) : Kept q (State.refuseReq s a1 a2 a3 a4) := by
  unfold State.refuseReq
  extract_lets -underBinder -merge +onlyGivenNames x0
  clear_value x0
  extract_lets -underBinder -merge +onlyGivenNames x1
  have h2 : Kept q x1 := by
    unfold x1
    apply State.setF_kept
    apply State.bump_kept
    apply State.takeCells_kept
    exact h
  clear_value x1
  extract_lets -underBinder -merge +onlyGivenNames x3
  have h4 : Kept q x3 := by
    unfold x3
    apply State.issue_kept
    exact h2
  clear_value x3
  refine ite_kept ?_ ?_
  · apply State.accessErr_kept
    exact h4
  · exact h4

theorem State.served_kept {q : List Instr} {s : State} (h : Kept q s) (a1) (a2) : Kept q (State.served s a1 a2) := by
  unfold State.served
  apply State.bump_kept
  apply State.takeCells_kept
  exact h

theorem State.dataReply_kept {q : List Instr} {s : State} (h : Kept q s) (a1) (a2) (a3) (a4) : Kept q (State.dataReply s a1 a2 a3 a4) := by
  unfold State.dataReply
  extract_lets -underBinder -merge +onlyGivenNames x0
  clear_value x0
  refine ite_kept ?_ ?_
  · apply State.issue_kept
    exact h
  · extract_lets -underBinder -merge +onlyGivenNames x1
    clear_value x1
    apply State.issue_kept
    exact h

theorem State.homeRead_kept {q : List Instr} {s : State} (h : Kept q s) (a1) : Kept q (State.homeRead s a1) := by
  unfold State.homeRead
  apply State.onRequest_kept
  · exact h
  · intro x0
    intro x1 x2 x3
    extract_lets -underBinder -merge +onlyGivenNames x4
    clear_value x4
    extract_lets -underBinder -merge +onlyGivenNames x5
    clear_value x5
    extract_lets -underBinder -merge +onlyGivenNames x6
    clear_value x6
    refine ite_kept ?_ ?_
    · apply State.refuseReq_kept
      exact x3
    · refine ite_kept ?_ ?_
      · exact x3
      · extract_lets -underBinder -merge +onlyGivenNames x7
        clear_value x7
        extract_lets -underBinder -merge +onlyGivenNames x8
        have h9 : Kept q x8.1 := by
          unfold x8
          apply State.claimIf_kept
          exact x3
        clear_value x8
        refine ite_kept ?_ ?_
        · apply State.dataReply_kept
          apply State.served_kept
          apply State.checkRead_kept
          exact h9
        · exact h9

theorem State.homeLine_kept {q : List Instr} {s : State} (h : Kept q s) (a1) (a2) : Kept q (State.homeLine s a1 a2) := by
  unfold State.homeLine
  apply State.onRequest_kept
  · exact h
  · intro x0
    intro x1 x2 x3
    extract_lets -underBinder -merge +onlyGivenNames x4
    clear_value x4
    extract_lets -underBinder -merge +onlyGivenNames x5
    clear_value x5
    extract_lets -underBinder -merge +onlyGivenNames x6
    clear_value x6
    extract_lets -underBinder -merge +onlyGivenNames x7
    clear_value x7
    refine ite_kept ?_ ?_
    · apply State.refuseReq_kept
      exact x3
    · refine ite_kept ?_ ?_
      · exact x3
      · extract_lets -underBinder -merge +onlyGivenNames x8
        have h9 : Kept q x8.1 := by
          unfold x8
          apply State.dirRoom_kept
          exact x3
        clear_value x8
        refine ite_kept ?_ ?_
        · exact h9
        · extract_lets -underBinder -merge +onlyGivenNames x10
          have h11 : Kept q x10 := by
            unfold x10
            exact h9
          clear_value x10
          extract_lets -underBinder -merge +onlyGivenNames x12
          clear_value x12
          extract_lets -underBinder -merge +onlyGivenNames x13
          clear_value x13
          extract_lets -underBinder -merge +onlyGivenNames x14
          have h15 : Kept q x14.1 := by
            unfold x14
            apply State.granFree_kept
            exact h11
          clear_value x14
          refine ite_kept ?_ ?_
          · exact h15
          · extract_lets -underBinder -merge +onlyGivenNames x16
            have h17 : Kept q x16 := by
              unfold x16
              exact h15
            clear_value x16
            extract_lets -underBinder -merge +onlyGivenNames x18
            clear_value x18
            extract_lets -underBinder -merge +onlyGivenNames x19
            clear_value x19
            apply State.dataReply_kept
            apply State.served_kept
            apply State.checkRead_kept
            apply State.dirPut_kept
            exact h17

theorem State.acceptWrite_kept {q : List Instr} {s : State} (h : Kept q s) (a1) (a2) (a3) : Kept q (State.acceptWrite s a1 a2 a3) := by
  unfold State.acceptWrite
  extract_lets -underBinder -merge +onlyGivenNames x0
  have h1 : Kept q x0 := by
    unfold x0
    apply State.store_kept
    exact h
  clear_value x0
  refine foldS_kept _ ?_ ?_
  · exact h1
  · intro x2
    intro x3 x4
    apply State.poisonAt_kept
    exact x4

theorem State.homeStore_kept {q : List Instr} {s : State} (h : Kept q s) (src a d cs) : Kept q (State.homeStore s src a d cs) := by
  unfold State.homeStore
  refine ite_kept h ?_
  have h1 : Kept q (s.claim a (writeData d cs).1.length (some src)).1 := State.claim_kept h _ _ _
  revert h1
  generalize s.claim a (writeData d cs).1.length (some src) = z
  intro h1
  exact ite_kept (State.served_kept (State.acceptWrite_kept h1 _ _ _) _ _) h1

theorem State.aperture_done {q : List Instr} {s t : State} {src a : Nat} {bs : List Byte} (h : Kept q s) (e : s.aperture src a bs = .done t) : Kept q t := by
  unfold State.aperture at e
  extract_lets -underBinder -merge +onlyGivenNames o hd st state opening at e
  clear_value o hd st state opening
  split at e
  · exact absurd e (by simp)
  · split at e
    · exact absurd e (by simp)
    · split at e
      · exact absurd e (by simp)
      · split at e
        · exact absurd e (by simp)
        · rw [← Aper.done.inj e]
          exact ite_kept (State.genHeader_kept h _ _ _ _ _) (State.store_kept h _ _)

theorem State.homeWrite_kept {q : List Instr} {s : State} (h : Kept q s) (src op) : Kept q (State.homeWrite s src op) := by
  unfold State.homeWrite
  refine State.onRequest_kept h _ _ _ fun d cs s hs => ?_
  extract_lets a w cause
  clear_value a w
  split
  · split
    · exact State.raise_kept (State.refuseReq_kept hs _ _ _ _) _ _
    · exact hs
    · rename_i e
      exact State.served_kept (foldS_kept _ (State.aperture_done hs e) fun _ _ hs => State.poisonAt_kept hs _) _ _
  · split
    · exact State.refuseReq_kept hs _ _ _ _
    · exact State.homeStore_kept hs _ _ _ _

theorem State.homeAtomic_kept {q : List Instr} {s : State} (h : Kept q s) (a1) : Kept q (State.homeAtomic s a1) := by
  unfold State.homeAtomic
  apply State.onRequest_kept
  · exact h
  · intro x0
    intro x1 x2 x3
    extract_lets -underBinder -merge +onlyGivenNames x4
    clear_value x4
    extract_lets -underBinder -merge +onlyGivenNames x5
    clear_value x5
    extract_lets -underBinder -merge +onlyGivenNames x6
    clear_value x6
    extract_lets -underBinder -merge +onlyGivenNames x7
    clear_value x7
    refine ite_kept ?_ ?_
    · apply State.refuseReq_kept
      exact x3
    · refine ite_kept ?_ ?_
      · exact x3
      · extract_lets -underBinder -merge +onlyGivenNames x8
        have h9 : Kept q x8.1 := by
          unfold x8
          apply State.claim_kept
          exact x3
        clear_value x8
        refine ite_kept ?_ ?_
        · exact h9
        · split
          · apply State.issue_kept
            apply State.served_kept
            refine fst_kept (by assumption) ?_
            apply State.atomicAt_kept
            exact h9
          · apply State.issue_kept
            apply State.served_kept
            refine fst_kept (by assumption) ?_
            apply State.atomicAt_kept
            exact h9

theorem State.homeWriteback_kept {q : List Instr} {s : State} (h : Kept q s) (a1) : Kept q (State.homeWriteback s a1) := by
  unfold State.homeWriteback
  apply State.onRequest_kept
  · exact h
  · intro x0
    intro x1 x2 x3
    extract_lets -underBinder -merge +onlyGivenNames x4
    clear_value x4
    extract_lets -underBinder -merge +onlyGivenNames x5
    clear_value x5
    refine ite_kept ?_ ?_
    · extract_lets -underBinder -merge +onlyGivenNames x6
      clear_value x6
      extract_lets -underBinder -merge +onlyGivenNames x7
      have h8 : Kept q x7 := by
        unfold x7
        apply State.acceptWrite_kept
        exact x3
      clear_value x7
      apply State.served_kept
      apply State.recallAnswered_kept
      apply State.dirDel_kept
      exact h8
    · apply State.refuseReq_kept
      exact x3

theorem State.holderInval_kept {q : List Instr} {s : State} (h : Kept q s) (a1) : Kept q (State.holderInval s a1) := by
  unfold State.holderInval
  apply State.onRequest_kept
  · exact h
  · intro x0
    intro x1 x2 x3
    extract_lets -underBinder -merge +onlyGivenNames x4
    have h5 : Kept q x4 := by
      unfold x4
      apply State.served_kept
      exact x3
    clear_value x4
    extract_lets -underBinder -merge +onlyGivenNames x6
    clear_value x6
    extract_lets -underBinder -merge +onlyGivenNames x7
    clear_value x7
    extract_lets -underBinder -merge +onlyGivenNames x8
    split
    · unfold x8
      apply State.issue_kept
      exact h5
    · extract_lets -underBinder -merge +onlyGivenNames x9
      clear_value x9
      extract_lets -underBinder -merge +onlyGivenNames x10
      have h11 : Kept q x10 := by
        unfold x10
        apply State.setTray_kept
        exact h5
      clear_value x10
      refine ite_kept ?_ ?_
      · extract_lets -underBinder -merge +onlyGivenNames x12
        clear_value x12
        extract_lets -underBinder -merge +onlyGivenNames x13
        have h14 : Kept q x13 := by
          unfold x13
          apply State.setTray_kept
          exact h11
        clear_value x13
        apply State.writeBack_kept
        exact h14
      · unfold x8
        apply State.issue_kept
        exact h11

theorem State.homeInvalAck_kept {q : List Instr} {s : State} (h : Kept q s) (a1) : Kept q (State.homeInvalAck s a1) := by
  unfold State.homeInvalAck
  apply State.onRequest_kept
  · exact h
  · intro x0
    intro x1 x2 x3
    extract_lets -underBinder -merge +onlyGivenNames x4
    clear_value x4
    apply State.recallAnswered_kept
    apply State.dropHolder_kept
    apply State.takeCells_kept
    exact x3

theorem State.homeArrive_kept {q : List Instr} {s : State} (h : Kept q s) (a1) : Kept q (State.homeArrive s a1) := by
  unfold State.homeArrive
  apply State.onRequest_kept
  · exact h
  · intro x0
    intro x1 x2 x3
    apply State.gateAdd_kept
    apply State.served_kept
    exact x3

theorem State.homeJoin_kept {q : List Instr} {s : State} (h : Kept q s) (a1) : Kept q (State.homeJoin s a1) := by
  unfold State.homeJoin
  apply State.onRequest_kept
  · exact h
  · intro x0
    intro x1 x2 x3
    extract_lets -underBinder -merge +onlyGivenNames x4
    have h5 : Kept q x4 := by
      unfold x4
      apply State.takeCells_kept
      exact x3
    clear_value x4
    refine ite_kept ?_ ?_
    · apply State.recvJoin_kept
      exact h5
    · exact h5

theorem State.homeLeave_kept {q : List Instr} {s : State} (h : Kept q s) (a1) : Kept q (State.homeLeave s a1) := by
  unfold State.homeLeave
  apply State.onRequest_kept
  · exact h
  · intro x0
    intro x1 x2 x3
    extract_lets -underBinder -merge +onlyGivenNames x4
    have h5 : Kept q x4 := by
      unfold x4
      apply State.takeCells_kept
      exact x3
    clear_value x4
    refine ite_kept ?_ ?_
    · apply State.depart_kept
      exact h5
    · exact h5

theorem State.dropReq_kept {q : List Instr} {s : State} (h : Kept q s) (a1) : Kept q (State.dropReq s a1) := by
  unfold State.dropReq
  apply State.setTray_kept
  exact h

theorem State.fillCache_kept {q : List Instr} {s : State} (h : Kept q s) (a1) (a2) (a3) (a4) (a5) : Kept q (State.fillCache s a1 a2 a3 a4 a5) := by
  unfold State.fillCache
  extract_lets -underBinder -merge +onlyGivenNames x0
  clear_value x0
  apply State.setTray_kept
  exact h

theorem State.replyData_kept {q : List Instr} {s : State} (h : Kept q s) (a1) : Kept q (State.replyData s a1) := by
  unfold State.replyData
  apply State.onRequest_kept
  · exact h
  · intro x0
    intro x1 x2 x3
    extract_lets -underBinder -merge +onlyGivenNames x4
    have h5 : Kept q x4 := by
      unfold x4
      apply State.takeCells_kept
      exact x3
    clear_value x4
    split
    · exact h5
    · extract_lets -underBinder -merge +onlyGivenNames x6
      have h7 : Kept q x6 := by
        unfold x6
        apply State.dropReq_kept
        exact h5
      clear_value x6
      extract_lets -underBinder -merge +onlyGivenNames x8
      clear_value x8
      extract_lets -underBinder -merge +onlyGivenNames x9
      clear_value x9
      extract_lets -underBinder -merge +onlyGivenNames x10
      clear_value x10
      split
      · refine ite_kept ?_ ?_
        · apply State.coreFault_kept
          exact h7
        · apply State.send_kept
          exact h7
      · refine ite_kept ?_ ?_
        · apply State.send_kept
          exact h7
        · apply State.send_kept
          exact h7
      · refine ite_kept ?_ ?_
        · apply State.coreFault_kept
          exact h7
        · apply State.send_kept
          apply State.fillCache_kept
          exact h7
      · refine ite_kept ?_ ?_
        · apply State.coreFault_kept
          exact h7
        · apply State.send_kept
          apply State.fillCache_kept
          exact h7
      · split
        · exact h7
        · extract_lets -underBinder -merge +onlyGivenNames x11
          clear_value x11
          extract_lets -underBinder -merge +onlyGivenNames x12
          clear_value x12
          extract_lets -underBinder -merge +onlyGivenNames x13
          have h14 : Kept q x13 := by
            unfold x13
            refine ite_kept ?_ ?_
            · exact h7
            · apply State.store_kept
              exact h7
          clear_value x13
          apply State.setTray_kept
          exact h14
      · exact h7

theorem State.replyRefused_kept {q : List Instr} {s : State} (h : Kept q s) (a1) : Kept q (State.replyRefused s a1) := by
  unfold State.replyRefused
  apply State.onRequest_kept
  · exact h
  · intro x0
    intro x1 x2 x3
    extract_lets -underBinder -merge +onlyGivenNames x4
    have h5 : Kept q x4 := by
      unfold x4
      apply State.takeCells_kept
      exact x3
    clear_value x4
    extract_lets -underBinder -merge +onlyGivenNames x6
    clear_value x6
    extract_lets -underBinder -merge +onlyGivenNames x7
    have h8 : Kept q x7 := by
      unfold x7
      split
      · apply State.coreFault_kept
        apply State.dropReq_kept
        exact h5
      · exact h5
    clear_value x7
    extract_lets -underBinder -merge +onlyGivenNames x9
    clear_value x9
    extract_lets -underBinder -merge +onlyGivenNames x10
    have h11 : Kept q x10 := by
      unfold x10
      apply State.setTray_kept
      exact h8
    clear_value x10
    extract_lets -underBinder -merge +onlyGivenNames x12
    clear_value x12
    extract_lets -underBinder -merge +onlyGivenNames x13
    clear_value x13
    extract_lets -underBinder -merge +onlyGivenNames x14
    have h15 : Kept q x14 := by
      unfold x14
      apply State.setTray_kept
      exact h11
    clear_value x14
    extract_lets -underBinder -merge +onlyGivenNames x16
    clear_value x16
    refine kept_mk ?_
    exact h15

theorem State.copyRow_kept {q : List Instr} {s : State} (h : Kept q s) (a1) (a2) (a3) (a4) (a5) : Kept q (State.copyRow s a1 a2 a3 a4 a5) := by
  unfold State.copyRow
  extract_lets -underBinder -merge +onlyGivenNames x0
  clear_value x0
  extract_lets -underBinder -merge +onlyGivenNames x1
  clear_value x1
  extract_lets -underBinder -merge +onlyGivenNames x2
  clear_value x2
  split
  extract_lets -underBinder -merge +onlyGivenNames x3
  have h4 : Kept q x3 := by
    unfold x3
    apply State.storeWith_kept
    refine snd_kept (by assumption) ?_
    refine ite_kept2 ?_ ?_
    · refine foldl2_kept _ ?_ ?_
      · refine snd_mk ?_
        exact h
      · intro x5
        intro x6 x7
        refine ite_kept2 ?_ ?_
        · split
          refine snd_mk ?_
          refine snd_kept (by assumption) ?_
          apply State.draw_kept
          exact x7
        · refine snd_mk ?_
          exact x7
    · refine snd_mk ?_
      exact h
  clear_value x3
  refine foldS_kept _ ?_ ?_
  · exact h4
  · intro x8
    intro x9 x10
    extract_lets -underBinder -merge +onlyGivenNames x11
    clear_value x11
    extract_lets -underBinder -merge +onlyGivenNames x12
    clear_value x12
    refine foldS_kept _ ?_ ?_
    · exact x10
    · intro x13
      intro x14 x15
      apply State.poisonAt_kept
      exact x15

theorem State.arriveLocal_kept {q : List Instr} {s : State} (h : Kept q s) (a1) : Kept q (State.arriveLocal s a1) := by
  unfold State.arriveLocal
  split
  · apply State.gateAdd_kept
    exact h
  · exact h

theorem State.copyRead_kept {q : List Instr} {s : State} (h : Kept q s) (a1) (a2) (a3) : Kept q (State.copyRead s a1 a2 a3) := by
  unfold State.copyRead
  extract_lets -underBinder -merge +onlyGivenNames x0
  have h1 : Kept q x0 := by
    unfold x0
    refine foldS_kept _ ?_ ?_
    · exact h
    · intro x2
      intro x3 x4
      apply State.checkRead_kept
      exact x4
  clear_value x0
  refine foldS_kept _ ?_ ?_
  · exact h1
  · intro x5
    intro x6 x7
    apply State.readWith_kept
    exact x7

theorem State.copyRun_kept {q : List Instr} {s : State} (h : Kept q s) (a1) : Kept q (State.copyRun s a1) := by
  unfold State.copyRun
  extract_lets -underBinder -merge +onlyGivenNames x0
  clear_value x0
  extract_lets -underBinder -merge +onlyGivenNames x1
  clear_value x1
  extract_lets -underBinder -merge +onlyGivenNames x2
  clear_value x2
  extract_lets -underBinder -merge +onlyGivenNames x3
  clear_value x3
  extract_lets -underBinder -merge +onlyGivenNames x4
  clear_value x4
  split
  · refine ite_kept ?_ ?_
    · refine ite_kept ?_ ?_
      · exact h
      · extract_lets -underBinder -merge +onlyGivenNames x5
        have h6 : Kept q x5.1 := by
          unfold x5
          apply State.claim_kept
          exact h
        clear_value x5
        refine ite_kept ?_ ?_
        · exact h6
        · split
          · apply State.putCmd_kept
            apply State.arriveLocal_kept
            apply State.store_kept
            refine fst_kept (by assumption) ?_
            apply State.atomicAt_kept
            exact h6
          · apply State.putCmd_kept
            refine fst_kept (by assumption) ?_
            apply State.atomicAt_kept
            exact h6
    · extract_lets -underBinder -merge +onlyGivenNames x7
      clear_value x7
      refine ite_kept ?_ ?_
      · exact h
      · extract_lets -underBinder -merge +onlyGivenNames x8
        have h9 : Kept q x8.1 := by
          unfold x8
          refine foldl1_kept _ ?_ ?_
          · refine fst_mk ?_
            exact h
          · intro x10
            intro x11 x12
            extract_lets -underBinder -merge +onlyGivenNames x13
            have h14 : Kept q x13.1 := by
              unfold x13
              apply State.claim_kept
              exact x12
            clear_value x13
            refine fst_mk ?_
            exact h14
        clear_value x8
        refine ite_kept ?_ ?_
        · exact h9
        · extract_lets -underBinder -merge +onlyGivenNames x15
          have h16 : Kept q x15 := by
            unfold x15
            exact h9
          clear_value x15
          extract_lets -underBinder -merge +onlyGivenNames x17
          have h18 : Kept q x17 := by
            unfold x17
            apply State.copyRead_kept
            exact h16
          clear_value x17
          extract_lets -underBinder -merge +onlyGivenNames x19
          clear_value x19
          extract_lets -underBinder -merge +onlyGivenNames x20
          have h21 : Kept q x20 := by
            unfold x20
            refine foldS_kept _ ?_ ?_
            · exact h18
            · intro x22
              intro x23 x24
              apply State.copyRow_kept
              exact x24
          clear_value x20
          extract_lets -underBinder -merge +onlyGivenNames x25
          have h26 : Kept q x25 := by
            unfold x25
            apply State.bump_kept
            exact h21
          clear_value x25
          extract_lets -underBinder -merge +onlyGivenNames x27
          clear_value x27
          split
          apply State.putCmd_kept
          apply State.arriveLocal_kept
          exact h26
  · extract_lets -underBinder -merge +onlyGivenNames x28
    clear_value x28
    extract_lets -underBinder -merge +onlyGivenNames x29
    clear_value x29
    refine ite_kept ?_ ?_
    · exact h
    · split
      extract_lets -underBinder -merge +onlyGivenNames x30
      have h31 : Kept q x30 := by
        unfold x30
        apply State.putCmd_kept
        refine snd_kept (by assumption) ?_
        apply State.newTag_kept
        exact h
      clear_value x30
      refine ite_kept ?_ ?_
      · extract_lets -underBinder -merge +onlyGivenNames x32
        clear_value x32
        extract_lets -underBinder -merge +onlyGivenNames x33
        clear_value x33
        extract_lets -underBinder -merge +onlyGivenNames x34
        clear_value x34
        extract_lets -underBinder -merge +onlyGivenNames x35
        have h36 : Kept q x35 := by
          unfold x35
          apply State.setTray_kept
          exact h31
        clear_value x35
        extract_lets -underBinder -merge +onlyGivenNames x37
        have h38 : Kept q x37 := by
          unfold x37
          apply State.setF_kept
          exact h36
        clear_value x37
        apply State.issue_kept
        exact h38
      · extract_lets -underBinder -merge +onlyGivenNames x39
        clear_value x39
        extract_lets -underBinder -merge +onlyGivenNames x40
        clear_value x40
        extract_lets -underBinder -merge +onlyGivenNames x41
        have h42 : Kept q x41 := by
          unfold x41
          apply State.copyRead_kept
          exact h31
        clear_value x41
        extract_lets -underBinder -merge +onlyGivenNames x43
        clear_value x43
        split
        extract_lets -underBinder -merge +onlyGivenNames x44
        clear_value x44
        extract_lets -underBinder -merge +onlyGivenNames x45
        clear_value x45
        extract_lets -underBinder -merge +onlyGivenNames x46
        have h47 : Kept q x46 := by
          unfold x46
          apply State.setTray_kept
          exact h42
        clear_value x46
        extract_lets -underBinder -merge +onlyGivenNames x48
        have h49 : Kept q x48 := by
          unfold x48
          apply State.setF_kept
          exact h47
        clear_value x48
        extract_lets -underBinder -merge +onlyGivenNames x50
        have h51 : Kept q x50 := by
          unfold x50
          apply State.bump_kept
          exact h49
        clear_value x50
        extract_lets -underBinder -merge +onlyGivenNames x52
        clear_value x52
        apply State.issue_kept
        exact h51

theorem State.copyStep_kept {q : List Instr} {s : State} (h : Kept q s) (a1) : Kept q (State.copyStep s a1) := by
  unfold State.copyStep
  extract_lets -underBinder -merge +onlyGivenNames x0
  clear_value x0
  refine ite_kept ?_ ?_
  · exact h
  · refine ite_kept ?_ ?_
    · apply State.copyEnd_kept
      exact h
    · split
      · refine ite_kept ?_ ?_
        · apply State.copyEnd_kept
          exact h
        · extract_lets -underBinder -merge +onlyGivenNames x1
          clear_value x1
          extract_lets -underBinder -merge +onlyGivenNames x2
          have h3 : Kept q x2 := by
            unfold x2
            apply State.setTray_kept
            exact h
          clear_value x2
          apply State.issue_kept
          exact h3
      · apply State.copyEnd_kept
        exact h

theorem State.traySettle_kept {q : List Instr} {s : State} (h : Kept q s) : Kept q (State.traySettle s) := by
  unfold State.traySettle
  extract_lets -underBinder -merge +onlyGivenNames x0
  have h1 : Kept q x0 := by
    unfold x0
    refine foldS_kept _ ?_ ?_
    · exact h
    · intro x2
      intro x3 x4
      refine ite_kept ?_ ?_
      · apply State.copyStep_kept
        exact x4
      · exact x4
  clear_value x0
  extract_lets -underBinder -merge +onlyGivenNames x5
  clear_value x5
  extract_lets -underBinder -merge +onlyGivenNames x6
  clear_value x6
  extract_lets -underBinder -merge +onlyGivenNames x7
  have h8 : Kept q x7 := by
    unfold x7
    apply State.setTray_kept
    exact h1
  clear_value x7
  extract_lets -underBinder -merge +onlyGivenNames x9
  have h10 : Kept q x9 := by
    unfold x9
    refine foldS_kept _ ?_ ?_
    · exact h8
    · intro x11
      intro x12 x13
      apply State.issue_kept
      exact x13
  clear_value x9
  extract_lets -underBinder -merge +onlyGivenNames x14
  clear_value x14
  extract_lets -underBinder -merge +onlyGivenNames x15
  clear_value x15
  extract_lets -underBinder -merge +onlyGivenNames x16
  clear_value x16
  extract_lets -underBinder -merge +onlyGivenNames x17
  have h18 : Kept q x17 := by
    unfold x17
    apply State.setTray_kept
    exact h10
  clear_value x17
  extract_lets -underBinder -merge +onlyGivenNames x19
  clear_value x19
  extract_lets -underBinder -merge +onlyGivenNames x20
  clear_value x20
  extract_lets -underBinder -merge +onlyGivenNames x21
  have h22 : Kept q x21 := by
    unfold x21
    apply State.setTray_kept
    exact h18
  clear_value x21
  refine foldS_kept _ ?_ ?_
  · exact h22
  · intro x23
    intro x24 x25
    apply State.send_kept
    exact x25

theorem State.setGrp_kept {q : List Instr} {s : State} (h : Kept q s) (a1) (a2) : Kept q (State.setGrp s a1 a2) := by
  unfold State.setGrp
  apply State.setF_kept
  exact h

theorem State.putGrp_kept {q : List Instr} {s : State} (h : Kept q s) (a1) (a2) : Kept q (State.putGrp s a1 a2) := by
  unfold State.putGrp
  refine kept_mk ?_
  exact h

theorem State.groupEnable_kept {q : List Instr} {s : State} (h : Kept q s) (a1) (a2) : Kept q (State.groupEnable s a1 a2) := by
  unfold State.groupEnable
  refine ite_kept ?_ ?_
  · exact h
  · refine ite_kept ?_ ?_
    · apply State.setGrp_kept
      apply State.setF_kept
      apply State.putGrp_kept
      exact h
    · apply State.cfgErr_kept
      apply State.setF_kept
      exact h

theorem State.dropStaged_kept {q : List Instr} {s : State} (h : Kept q s) (a1) : Kept q (State.dropStaged s a1) := by
  unfold State.dropStaged
  refine kept_mk ?_
  exact h

theorem State.groupOff_kept {q : List Instr} {s : State} (h : Kept q s) (a1) : Kept q (State.groupOff s a1) := by
  unfold State.groupOff
  extract_lets -underBinder -merge +onlyGivenNames x0
  have h1 : Kept q x0 := by
    unfold x0
    apply State.dropStaged_kept
    exact h
  clear_value x0
  apply State.setGrp_kept
  refine kept_mk ?_
  exact h1

theorem State.setInsts_kept {q : List Instr} {s : State} (h : Kept q s) (a1) : Kept q (State.setInsts s a1) := by
  unfold State.setInsts
  refine kept_mk ?_
  exact h

theorem State.putInst_kept {q : List Instr} {s : State} (h : Kept q s) (a1) : Kept q (State.putInst s a1) := by
  unfold State.putInst
  apply State.setInsts_kept
  exact h

theorem State.dropColInst_kept {q : List Instr} {s : State} (h : Kept q s) (a1) : Kept q (State.dropColInst s a1) := by
  unfold State.dropColInst
  apply State.setInsts_kept
  exact h

theorem State.groupDisable_kept {q : List Instr} {s : State} (h : Kept q s) (a1) : Kept q (State.groupDisable s a1) := by
  unfold State.groupDisable
  refine ite_kept ?_ ?_
  · extract_lets -underBinder -merge +onlyGivenNames x0
    have h1 : Kept q x0 := by
      unfold x0
      apply State.setGrp_kept
      exact h
    clear_value x0
    refine ite_kept ?_ ?_
    · apply State.groupOff_kept
      exact h1
    · exact h1
  · exact h

theorem State.groupCfg_kept {q : List Instr} {s : State} (h : Kept q s) (a1) (a2) (a3) (a4) : Kept q (State.groupCfg s a1 a2 a3 a4) := by
  unfold State.groupCfg
  extract_lets -underBinder -merge +onlyGivenNames x0
  clear_value x0
  refine ite_kept ?_ ?_
  · apply State.cfgErr_kept
    exact h
  · refine ite_kept ?_ ?_
    · apply State.setF_kept
      exact h
    · extract_lets -underBinder -merge +onlyGivenNames x1
      clear_value x1
      apply State.setF_kept
      apply State.setF_kept
      apply State.setF_kept
      apply State.setF_kept
      exact h

theorem State.stageExpire_kept {q : List Instr} {s : State} (h : Kept q s) (a1) : Kept q (State.stageExpire s a1) := by
  unfold State.stageExpire
  refine ite_kept ?_ ?_
  · exact h
  · apply State.dropStaged_kept
    exact h

theorem State.collStat_kept {q : List Instr} {s : State} (h : Kept q s) : Kept q (State.collStat s) := by
  unfold State.collStat
  refine foldS_kept _ ?_ ?_
  · exact h
  · intro x0
    intro x1 x2
    extract_lets -underBinder -merge +onlyGivenNames x3
    have h4 : Kept q x3 := by
      unfold x3
      apply State.setF_kept
      exact x2
    clear_value x3
    apply State.setF_kept
    exact h4

theorem State.colWrite_kept {q : List Instr} {s : State} (h : Kept q s) (a1) (a2) (a3) (a4) : Kept q (State.colWrite s a1 a2 a3 a4).1 := by
  unfold State.colWrite
  extract_lets -underBinder -merge +onlyGivenNames x0
  clear_value x0
  extract_lets -underBinder -merge +onlyGivenNames x1
  clear_value x1
  extract_lets -underBinder -merge +onlyGivenNames x2
  clear_value x2
  extract_lets -underBinder -merge +onlyGivenNames x3
  clear_value x3
  extract_lets -underBinder -merge +onlyGivenNames x4
  clear_value x4
  extract_lets -underBinder -merge +onlyGivenNames x5
  clear_value x5
  extract_lets -underBinder -merge +onlyGivenNames x6
  clear_value x6
  extract_lets -underBinder -merge +onlyGivenNames x7
  clear_value x7
  refine ite_kept1 ?_ ?_
  · refine fst_mk ?_
    exact h
  · extract_lets -underBinder -merge +onlyGivenNames x8
    clear_value x8
    extract_lets -underBinder -merge +onlyGivenNames x9
    have h10 : Kept q x9.1 := by
      unfold x9
      apply State.claim_kept
      exact h
    clear_value x9
    refine ite_kept1 ?_ ?_
    · refine fst_mk ?_
      exact h10
    · extract_lets -underBinder -merge +onlyGivenNames x11
      have h12 : Kept q x11 := by
        unfold x11
        exact h10
      clear_value x11
      extract_lets -underBinder -merge +onlyGivenNames x13
      clear_value x13
      extract_lets -underBinder -merge +onlyGivenNames x14
      have h15 : Kept q x14.2 := by
        unfold x14
        refine ite_kept2 ?_ ?_
        · refine foldl2_kept _ ?_ ?_
          · refine snd_mk ?_
            exact h12
          · intro x16
            intro x17 x18
            refine snd_mk ?_
            apply State.draw_kept
            exact x18
        · refine snd_mk ?_
          exact h12
      clear_value x14
      extract_lets -underBinder -merge +onlyGivenNames x19
      have h20 : Kept q x19 := by
        unfold x19
        apply State.store_kept
        exact h15
      clear_value x19
      extract_lets -underBinder -merge +onlyGivenNames x21
      have h22 : Kept q x21 := by
        unfold x21
        refine ite_kept ?_ ?_
        · refine foldS_kept _ ?_ ?_
          · exact h20
          · intro x23
            intro x24 x25
            apply State.poisonAt_kept
            exact x25
        · exact h20
      clear_value x21
      extract_lets -underBinder -merge +onlyGivenNames x26
      clear_value x26
      refine fst_mk ?_
      exact h22

theorem State.colUp_kept {q : List Instr} {s : State} (h : Kept q s) (x n y) : Kept q (State.colUp s x n y).1 := by
  induction n generalizing s y with
  | zero => exact h
  | succ n ih =>
    unfold State.colUp
    extract_lets kids
    refine ite_kept1 h ?_
    exact ih (State.issue_kept h _) _

theorem State.colDown_kept {q : List Instr} {s : State} (h : Kept q s) (x n y) : Kept q (State.colDown s x n y).1 := by
  induction n generalizing s x y with
  | zero => exact h
  | succ n ih =>
    unfold State.colDown
    extract_lets next
    clear_value next
    split
    · exact h
    · extract_lets z
      have hz : Kept q z.1 := State.colWrite_kept h _ _ _ _
      clear_value z
      split
      · exact hz
      · exact ih (State.issue_kept hz _) _ _

theorem State.colUpEnd_kept {q : List Instr} {s : State} (h : Kept q s) (a1) (a2) : Kept q (State.colUpEnd s a1 a2).1 := by
  unfold State.colUpEnd
  extract_lets -underBinder -merge +onlyGivenNames x0
  clear_value x0
  refine ite_kept1 ?_ ?_
  · extract_lets -underBinder -merge +onlyGivenNames x1
    clear_value x1
    extract_lets -underBinder -merge +onlyGivenNames x2
    clear_value x2
    extract_lets -underBinder -merge +onlyGivenNames x3
    clear_value x3
    extract_lets -underBinder -merge +onlyGivenNames x4
    have h5 : Kept q x4 := by
      unfold x4
      apply State.issue_kept
      exact h
    clear_value x4
    refine fst_mk ?_
    exact h5
  · refine fst_mk ?_
    exact h

theorem State.colDownEnd_kept {q : List Instr} {s : State} (h : Kept q s) (a1) (a2) : Kept q (State.colDownEnd s a1 a2).1 := by
  unfold State.colDownEnd
  extract_lets -underBinder -merge +onlyGivenNames x0
  clear_value x0
  refine ite_kept1 ?_ ?_
  · extract_lets -underBinder -merge +onlyGivenNames x1
    clear_value x1
    extract_lets -underBinder -merge +onlyGivenNames x2
    clear_value x2
    extract_lets -underBinder -merge +onlyGivenNames x3
    have h4 : Kept q x3 := by
      unfold x3
      apply State.issue_kept
      exact h
    clear_value x3
    refine fst_mk ?_
    exact h4
  · refine fst_mk ?_
    exact h

theorem State.colHalf_kept {q : List Instr} {s : State} (h : Kept q s) (a1) (a2) : Kept q (State.colHalf s a1 a2).1 := by
  unfold State.colHalf
  split
  · refine fst_mk ?_
    exact h
  · extract_lets -underBinder -merge +onlyGivenNames x0
    have h1 : Kept q x0.1 := by
      unfold x0
      refine ite_kept1 ?_ ?_
      · refine fst_mk ?_
        exact h
      · apply State.colUp_kept
        exact h
    clear_value x0
    extract_lets -underBinder -merge +onlyGivenNames x2
    have h3 : Kept q x2.1 := by
      unfold x2
      apply State.colUpEnd_kept
      exact h1
    clear_value x2
    extract_lets -underBinder -merge +onlyGivenNames x4
    have h5 : Kept q x4.1 := by
      unfold x4
      apply State.colDown_kept
      exact h3
    clear_value x4
    extract_lets -underBinder -merge +onlyGivenNames x6
    have h7 : Kept q x6.1 := by
      unfold x6
      apply State.colDownEnd_kept
      exact h5
    clear_value x6
    refine fst_mk ?_
    exact h7

theorem State.colGo_kept {q : List Instr} {s : State} (h : Kept q s) (a1) : Kept q (State.colGo s a1) := by
  unfold State.colGo
  refine ite_kept ?_ ?_
  · exact h
  · extract_lets -underBinder -merge +onlyGivenNames x0
    have h1 : Kept q x0.1 := by
      unfold x0
      refine foldl1_kept _ ?_ ?_
      · refine fst_mk ?_
        exact h
      · intro x2
        intro x3 x4
        apply State.colHalf_kept
        exact x4
    clear_value x0
    apply State.putInst_kept
    exact h1

theorem State.colEnd_kept {q : List Instr} {s : State} (h : Kept q s) (a1) : Kept q (State.colEnd s a1) := by
  unfold State.colEnd
  split
  extract_lets -underBinder -merge +onlyGivenNames x0
  clear_value x0
  extract_lets -underBinder -merge +onlyGivenNames x1
  have h2 : Kept q x1 := by
    unfold x1
    apply State.modCmd_kept
    exact h
  clear_value x1
  extract_lets -underBinder -merge +onlyGivenNames x3
  have h4 : Kept q x3 := by
    unfold x3
    apply State.setF_kept
    apply State.bump_kept
    exact h2
  clear_value x3
  apply State.dropColInst_kept
  exact h4

theorem State.colAbort_kept {q : List Instr} {s : State} (h : Kept q s) (a1) (a2) (a3) (a4) (a5) (a6) (a7) : Kept q (State.colAbort s a1 a2 a3 a4 a5 a6 a7) := by
  unfold State.colAbort
  extract_lets -underBinder -merge +onlyGivenNames x0
  have h1 : Kept q x0 := by
    unfold x0
    apply State.dropColInst_kept
    exact h
  clear_value x0
  extract_lets -underBinder -merge +onlyGivenNames x2
  clear_value x2
  extract_lets -underBinder -merge +onlyGivenNames x3
  clear_value x3
  extract_lets -underBinder -merge +onlyGivenNames x4
  clear_value x4
  extract_lets -underBinder -merge +onlyGivenNames x5
  have h6 : Kept q x5 := by
    unfold x5
    refine foldS_kept _ ?_ ?_
    · exact h1
    · intro x7
      intro x8 x9
      apply State.issue_kept
      exact x9
  clear_value x5
  extract_lets -underBinder -merge +onlyGivenNames x10
  clear_value x10
  extract_lets -underBinder -merge +onlyGivenNames x11
  have h12 : Kept q x11 := by
    unfold x11
    split
    · apply State.scrambleRange_kept
      exact h6
    · exact h6
  clear_value x11
  extract_lets -underBinder -merge +onlyGivenNames x13
  have h14 : Kept q x13 := by
    unfold x13
    apply State.setF_kept
    apply State.setF_kept
    exact h12
  clear_value x13
  extract_lets -underBinder -merge +onlyGivenNames x15
  have h16 : Kept q x15 := by
    unfold x15
    refine ite_kept ?_ ?_
    · apply State.bump_kept
      exact h14
    · apply State.bump_kept
      exact h14
  clear_value x15
  split
  extract_lets -underBinder -merge +onlyGivenNames x17
  have h18 : Kept q x17 := by
    unfold x17
    apply State.setF_kept
    exact h16
  clear_value x17
  apply State.modCmd_kept
  exact h18

theorem State.colStop_kept {q : List Instr} {s : State} (h : Kept q s) (a1) (a2) (a3) : Kept q (State.colStop s a1 a2 a3) := by
  unfold State.colStop
  extract_lets -underBinder -merge +onlyGivenNames x0
  have h1 : Kept q x0 := by
    unfold x0
    refine ite_kept ?_ ?_
    · apply State.setF_kept
      exact h
    · exact h
  clear_value x0
  extract_lets -underBinder -merge +onlyGivenNames x2
  clear_value x2
  apply State.colAbort_kept
  exact h1

theorem State.colLocal_kept {q : List Instr} {s : State} (h : Kept q s) (a1) (a2) : Kept q (State.colLocal s a1 a2) := by
  unfold State.colLocal
  extract_lets -underBinder -merge +onlyGivenNames x0
  clear_value x0
  refine foldS_kept _ ?_ ?_
  · exact h
  · intro x1
    intro x2 x3
    apply State.issue_kept
    exact x3

theorem State.takeInst_kept {q : List Instr} {s : State} (h : Kept q s) (a1) : Kept q (State.takeInst s a1).2 := by
  unfold State.takeInst
  extract_lets -underBinder -merge +onlyGivenNames x0
  clear_value x0
  refine snd_mk ?_
  apply State.setF_kept
  exact h

theorem State.colSkip_kept {q : List Instr} {s : State} (h : Kept q s) (a1) : Kept q (State.colSkip s a1) := by
  unfold State.colSkip
  extract_lets -underBinder -merge +onlyGivenNames x0
  clear_value x0
  refine ite_kept ?_ ?_
  · exact h
  · split
    apply State.colLocal_kept
    refine snd_kept (by assumption) ?_
    apply State.takeInst_kept
    exact h

theorem State.colOpen_kept {q : List Instr} {s : State} (h : Kept q s) (a1) (a2) : Kept q (State.colOpen s a1 a2) := by
  unfold State.colOpen
  split
  extract_lets -underBinder -merge +onlyGivenNames x0
  clear_value x0
  extract_lets -underBinder -merge +onlyGivenNames x1
  have h2 : Kept q x1 := by
    unfold x1
    apply State.putCmd_kept
    refine snd_kept (by assumption) ?_
    apply State.takeInst_kept
    exact h
  clear_value x1
  extract_lets -underBinder -merge +onlyGivenNames x3
  have h4 : Kept q x3 := by
    unfold x3
    apply State.setInsts_kept
    exact h2
  clear_value x3
  extract_lets -underBinder -merge +onlyGivenNames x5
  clear_value x5
  split
  · exact h4
  · extract_lets -underBinder -merge +onlyGivenNames x6
    have h7 : Kept q x6 := by
      unfold x6
      apply State.putGrp_kept
      exact h4
    clear_value x6
    extract_lets -underBinder -merge +onlyGivenNames x8
    clear_value x8
    apply State.colAbort_kept
    exact h7

theorem State.colDispatch_kept {q : List Instr} {s : State} (h : Kept q s) (a1) : Kept q (State.colDispatch s a1) := by
  unfold State.colDispatch
  split
  extract_lets -underBinder -merge +onlyGivenNames x0
  have h1 : Kept q x0 := by
    unfold x0
    apply State.countClamps_kept
    exact h
  clear_value x0
  extract_lets -underBinder -merge +onlyGivenNames x2
  clear_value x2
  split
  · extract_lets -underBinder -merge +onlyGivenNames x3
    have h4 : Kept q x3 := by
      unfold x3
      refine ite_kept ?_ ?_
      · apply State.setGrp_kept
        exact h1
      · exact h1
    clear_value x3
    apply State.refuseCmd_kept
    exact h4
  · extract_lets -underBinder -merge +onlyGivenNames x5
    clear_value x5
    extract_lets -underBinder -merge +onlyGivenNames x6
    clear_value x6
    extract_lets -underBinder -merge +onlyGivenNames x7
    clear_value x7
    apply State.colOpen_kept
    exact h1

theorem State.colBegin_kept {q : List Instr} {s : State} (h : Kept q s) (a1) : Kept q (State.colBegin s a1) := by
  unfold State.colBegin
  extract_lets -underBinder -merge +onlyGivenNames x0
  clear_value x0
  extract_lets -underBinder -merge +onlyGivenNames x1
  clear_value x1
  extract_lets -underBinder -merge +onlyGivenNames x2
  clear_value x2
  extract_lets -underBinder -merge +onlyGivenNames x3
  clear_value x3
  extract_lets -underBinder -merge +onlyGivenNames x4
  clear_value x4
  extract_lets -underBinder -merge +onlyGivenNames x5
  have h6 : Kept q x5 := by
    unfold x5
    split
    · apply State.checkRead_kept
      exact h
    · exact h
  clear_value x5
  extract_lets -underBinder -merge +onlyGivenNames x7
  clear_value x7
  extract_lets -underBinder -merge +onlyGivenNames x8
  clear_value x8
  extract_lets -underBinder -merge +onlyGivenNames x9
  clear_value x9
  extract_lets -underBinder -merge +onlyGivenNames x10
  have h11 : Kept q x10 := by
    unfold x10
    refine foldS_kept _ ?_ ?_
    · exact h6
    · intro x12
      intro x13 x14
      apply State.issue_kept
      exact x14
  clear_value x10
  extract_lets -underBinder -merge +onlyGivenNames x15
  clear_value x15
  extract_lets -underBinder -merge +onlyGivenNames x16
  have h17 : Kept q x16 := by
    unfold x16
    refine foldS_kept _ ?_ ?_
    · exact h11
    · intro x18
      intro x19 x20
      apply State.issue_kept
      exact x20
  clear_value x16
  extract_lets -underBinder -merge +onlyGivenNames x21
  have h22 : Kept q x21 := by
    unfold x21
    refine ite_kept ?_ ?_
    · refine foldS_kept _ ?_ ?_
      · exact h17
      · intro x23
        intro x24 x25
        split
        · apply State.issue_kept
          apply State.issue_kept
          exact x25
        · exact x25
    · exact h17
  clear_value x21
  apply State.putInst_kept
  apply State.modCmd_kept
  exact h22

theorem State.takeStaged_kept {q : List Instr} {s : State} (h : Kept q s) (a1) : Kept q (State.takeStaged s a1) := by
  unfold State.takeStaged
  refine kept_mk ?_
  exact h

theorem State.onColCell_kept {q : List Instr} {s : State} (h : Kept q s) (src gid kind : Nat) {k : Cell → ColInst → ColIn → State → State}
    {other : Cell → ColInst → State → State} (hk : ∀ c x e s, Kept q s → Kept q (k c x e s))
    (ho : ∀ c x s, Kept q s → Kept q (other c x s)) : Kept q (s.onColCell src gid kind k other) := by
  unfold State.onColCell
  split
  · exact h
  · refine ite_kept (State.setF_kept (State.takeStaged_kept h _) _ _ _ _) (ite_kept h ?_)
    split
    · refine ite_kept (ite_kept h ?_) (ite_kept h (State.takeStaged_kept h _))
      dsimp only
      split
      · exact hk _ _ _ _ (State.takeStaged_kept h _)
      · exact ho _ _ _ (State.takeStaged_kept h _)
    · exact ite_kept h (State.takeStaged_kept h _)

theorem State.colMismatch_kept {q : List Instr} {s : State} (h : Kept q s) (a1) (a2) (a3) : Kept q (State.colMismatch s a1 a2 a3) := by
  unfold State.colMismatch
  extract_lets -underBinder -merge +onlyGivenNames x0
  clear_value x0
  extract_lets -underBinder -merge +onlyGivenNames x1
  have h2 : Kept q x1 := by
    unfold x1
    apply State.setF_kept
    apply State.setF_kept
    exact h
  clear_value x1
  extract_lets -underBinder -merge +onlyGivenNames x3
  have h4 : Kept q x3 := by
    unfold x3
    apply State.setF_kept
    exact h2
  clear_value x3
  apply State.colAbort_kept
  exact h4

theorem State.colSigRecv_kept {q : List Instr} {s : State} (h : Kept q s) (a1) (a2) : Kept q (State.colSigRecv s a1 a2) := by
  unfold State.colSigRecv
  extract_lets -underBinder -merge +onlyGivenNames x0
  apply State.onColCell_kept
  · exact h
  · intro x1
    intro x2 x3 x4
    intro x5
    split
    · apply State.colMismatch_kept
      exact x5
    · extract_lets -underBinder -merge +onlyGivenNames x6
      clear_value x6
      apply State.colGo_kept
      apply State.putInst_kept
      exact x5
  · intro x7
    intro x8 x9 x10
    split
    · apply State.colMismatch_kept
      exact x10
    · exact x10

theorem State.colDataRecv_kept {q : List Instr} {s : State} (h : Kept q s) (a1) (a2) : Kept q (State.colDataRecv s a1 a2) := by
  unfold State.colDataRecv
  apply State.onColCell_kept
  · exact h
  · intro x0
    intro x1 x2 x3
    intro x4
    extract_lets -underBinder -merge +onlyGivenNames x5
    clear_value x5
    apply State.colGo_kept
    apply State.putInst_kept
    exact x4
  · intro x6
    intro x7 x8 x9
    exact x9

theorem State.colEndRecv_kept {q : List Instr} {s : State} (h : Kept q s) (a1) (a2) : Kept q (State.colEndRecv s a1 a2) := by
  unfold State.colEndRecv
  apply State.onColCell_kept
  · exact h
  · intro x0
    intro x1 x2 x3
    intro x4
    extract_lets -underBinder -merge +onlyGivenNames x5
    clear_value x5
    apply State.colGo_kept
    apply State.putInst_kept
    exact x4
  · intro x6
    intro x7 x8 x9
    exact x9

theorem State.colRecord_kept {q : List Instr} {s : State} (h : Kept q s) (a1) (a2) (a3) : Kept q (State.colRecord s a1 a2 a3) := by
  unfold State.colRecord
  refine ite_kept ?_ ?_
  · extract_lets -underBinder -merge +onlyGivenNames x0
    clear_value x0
    refine ite_kept ?_ ?_
    · exact h
    · apply State.putGrp_kept
      exact h
  · exact h

theorem State.colAbortRecv_kept {q : List Instr} {s : State} (h : Kept q s) (a1) (a2) : Kept q (State.colAbortRecv s a1 a2) := by
  unfold State.colAbortRecv
  split
  · exact h
  · extract_lets -underBinder -merge +onlyGivenNames x0
    have h1 : Kept q x0 := by
      unfold x0
      apply State.takeStaged_kept
      exact h
    clear_value x0
    extract_lets -underBinder -merge +onlyGivenNames x2
    clear_value x2
    split
    · apply State.colAbort_kept
      exact h1
    · apply State.colRecord_kept
      exact h1

theorem State.colPeer_kept {q : List Instr} {s : State} (h : Kept q s) (a1) (a2) : Kept q (State.colPeer s a1 a2) := by
  unfold State.colPeer
  refine foldS_kept _ ?_ ?_
  · exact h
  · intro x0
    intro x1 x2
    refine ite_kept ?_ ?_
    · apply State.colStop_kept
      exact x2
    · exact x2

theorem State.colTimeout_kept {q : List Instr} {s : State} (h : Kept q s) (a1) (a2) : Kept q (State.colTimeout s a1 a2) := by
  unfold State.colTimeout
  split
  · split
    · extract_lets -underBinder -merge +onlyGivenNames x0
      clear_value x0
      refine ite_kept ?_ ?_
      · exact h
      · apply State.colStop_kept
        exact h
    · exact h
  · exact h

theorem State.groupTimeout_kept {q : List Instr} {s : State} (h : Kept q s) (a1) : Kept q (State.groupTimeout s a1) := by
  unfold State.groupTimeout
  refine ite_kept ?_ ?_
  · exact h
  · extract_lets -underBinder -merge +onlyGivenNames x0
    have h1 : Kept q x0 := by
      unfold x0
      refine foldS_kept _ ?_ ?_
      · exact h
      · intro x2
        intro x3 x4
        apply State.colStop_kept
        exact x4
    clear_value x0
    apply State.groupOff_kept
    exact h1

theorem State.collSettle_kept {q : List Instr} {s : State} (h : Kept q s) : Kept q (State.collSettle s) := by
  unfold State.collSettle
  extract_lets -underBinder -merge +onlyGivenNames x0
  have h1 : Kept q x0 := by
    unfold x0
    refine foldS_kept _ ?_ ?_
    · exact h
    · intro x2
      intro x3 x4
      split
      · apply State.colGo_kept
        exact x4
      · exact x4
  clear_value x0
  extract_lets -underBinder -merge +onlyGivenNames x5
  have h6 : Kept q x5 := by
    unfold x5
    refine foldS_kept _ ?_ ?_
    · exact h1
    · intro x7
      intro x8 x9
      refine ite_kept ?_ ?_
      · apply State.colEnd_kept
        exact x9
      · exact x9
  clear_value x5
  extract_lets -underBinder -merge +onlyGivenNames x10
  have h11 : Kept q x10 := by
    unfold x10
    refine foldS_kept _ ?_ ?_
    · exact h6
    · intro x12
      intro x13 x14
      refine ite_kept ?_ ?_
      · apply State.groupOff_kept
        exact x14
      · exact x14
  clear_value x10
  apply State.collStat_kept
  exact h11

theorem State.setFences_kept {q : List Instr} {s : State} (h : Kept q s) (a1) : Kept q (State.setFences s a1) := by
  unfold State.setFences
  refine kept_mk ?_
  exact h

theorem State.fenceEnd_kept {q : List Instr} {s : State} (h : Kept q s) (a1) (a2) (a3) : Kept q (State.fenceEnd s a1 a2 a3) := by
  unfold State.fenceEnd
  extract_lets -underBinder -merge +onlyGivenNames x0
  have h1 : Kept q x0 := by
    unfold x0
    apply State.setFences_kept
    exact h
  clear_value x0
  apply State.modCmd_kept
  exact h1

theorem State.fenceDispatch_kept {q : List Instr} {s : State} (h : Kept q s) (a1) : Kept q (State.fenceDispatch s a1) := by
  unfold State.fenceDispatch
  split
  extract_lets -underBinder -merge +onlyGivenNames x0
  have h1 : Kept q x0 := by
    unfold x0
    apply State.countClamps_kept
    exact h
  clear_value x0
  extract_lets -underBinder -merge +onlyGivenNames x2
  clear_value x2
  split
  · apply State.refuseCmd_kept
    exact h1
  · extract_lets -underBinder -merge +onlyGivenNames x3
    clear_value x3
    extract_lets -underBinder -merge +onlyGivenNames x4
    have h5 : Kept q x4 := by
      unfold x4
      apply State.putCmd_kept
      exact h1
    clear_value x4
    extract_lets -underBinder -merge +onlyGivenNames x6
    clear_value x6
    split
    · apply State.fenceEnd_kept
      exact h5
    · refine ite_kept ?_ ?_
      · apply State.fenceEnd_kept
        exact h5
      · apply State.setFences_kept
        exact h5

theorem State.fenceSettle_kept {q : List Instr} {s : State} (h : Kept q s) : Kept q (State.fenceSettle s) := by
  unfold State.fenceSettle
  refine foldS_kept _ ?_ ?_
  · exact h
  · intro x0
    intro x1 x2
    refine ite_kept ?_ ?_
    · apply State.fenceEnd_kept
      exact x2
    · exact x2

theorem State.fencePeer_kept {q : List Instr} {s : State} (h : Kept q s) (a1) : Kept q (State.fencePeer s a1) := by
  unfold State.fencePeer
  refine foldS_kept _ ?_ ?_
  · exact h
  · intro x0
    intro x1 x2
    apply State.fenceEnd_kept
    exact x2

theorem State.fenceTimeout_kept {q : List Instr} {s : State} (h : Kept q s) (a1) (a2) : Kept q (State.fenceTimeout s a1 a2) := by
  unfold State.fenceTimeout
  split
  · exact h
  · extract_lets -underBinder -merge +onlyGivenNames x0
    clear_value x0
    refine ite_kept ?_ ?_
    · exact h
    · split
      · apply State.fenceEnd_kept
        exact h
      · apply State.fenceEnd_kept
        exact h

theorem State.setRes_kept {q : List Instr} {s : State} (h : Kept q s) (a1) : Kept q (State.setRes s a1) := by
  unfold State.setRes
  refine kept_mk ?_
  exact h

theorem State.putJobs_kept {q : List Instr} {s : State} (h : Kept q s) (a1) : Kept q (State.putJobs s a1) := by
  unfold State.putJobs
  apply State.setF_kept
  apply State.setRes_kept
  exact h

theorem State.pushDispatch_kept {q : List Instr} {s : State} (h : Kept q s) (a1) : Kept q (State.pushDispatch s a1) := by
  unfold State.pushDispatch
  split
  extract_lets -underBinder -merge +onlyGivenNames x0
  clear_value x0
  split
  extract_lets -underBinder -merge +onlyGivenNames x1
  clear_value x1
  extract_lets -underBinder -merge +onlyGivenNames x2
  have h3 : Kept q x2 := by
    unfold x2
    apply State.countClamps_kept
    exact h
  clear_value x2
  extract_lets -underBinder -merge +onlyGivenNames x4
  clear_value x4
  split
  · apply State.refuseCmd_kept
    exact h3
  · extract_lets -underBinder -merge +onlyGivenNames x5
    have h6 : Kept q x5 := by
      unfold x5
      apply State.putCmd_kept
      exact h3
    clear_value x5
    split
    refine ite_kept ?_ ?_
    · apply State.putJobs_kept
      refine snd_kept (by assumption) ?_
      apply State.newTag_kept
      exact h6
    · extract_lets -underBinder -merge +onlyGivenNames x7
      clear_value x7
      extract_lets -underBinder -merge +onlyGivenNames x8
      clear_value x8
      extract_lets -underBinder -merge +onlyGivenNames x9
      clear_value x9
      extract_lets -underBinder -merge +onlyGivenNames x10
      clear_value x10
      extract_lets -underBinder -merge +onlyGivenNames x11
      have h12 : Kept q x11 := by
        unfold x11
        apply State.setRes_kept
        refine snd_kept (by assumption) ?_
        apply State.newTag_kept
        exact h6
      clear_value x11
      extract_lets -underBinder -merge +onlyGivenNames x13
      have h14 : Kept q x13 := by
        unfold x13
        apply State.setF_kept
        apply State.setF_kept
        exact h12
      clear_value x13
      apply State.putJobs_kept
      exact h14

theorem State.modJob_kept {q : List Instr} {s : State} (h : Kept q s) (a1) (a2) : Kept q (State.modJob s a1 a2) := by
  unfold State.modJob
  apply State.setRes_kept
  exact h

theorem State.jobEnd_kept {q : List Instr} {s : State} (h : Kept q s) (a1) (a2) (a3) : Kept q (State.jobEnd s a1 a2 a3) := by
  unfold State.jobEnd
  extract_lets -underBinder -merge +onlyGivenNames x0
  have h1 : Kept q x0 := by
    unfold x0
    apply State.putJobs_kept
    exact h
  clear_value x0
  extract_lets -underBinder -merge +onlyGivenNames x2
  have h3 : Kept q x2 := by
    unfold x2
    refine ite_kept ?_ ?_
    · apply State.raise_kept
      exact h1
    · refine ite_kept ?_ ?_
      · apply State.raise_kept
        exact h1
      · exact h1
  clear_value x2
  extract_lets -underBinder -merge +onlyGivenNames x4
  have h5 : Kept q x4 := by
    unfold x4
    refine ite_kept ?_ ?_
    · apply State.bump_kept
      exact h3
    · exact h3
  clear_value x4
  extract_lets -underBinder -merge +onlyGivenNames x6
  have h7 : Kept q x6 := by
    unfold x6
    refine ite_kept ?_ ?_
    · apply State.setF_kept
      exact h5
    · exact h5
  clear_value x6
  apply State.modCmd_kept
  exact h7

theorem State.jobBegin_kept {q : List Instr} {s : State} (h : Kept q s) (a1) : Kept q (State.jobBegin s a1) := by
  unfold State.jobBegin
  refine ite_kept ?_ ?_
  · split
    · apply State.jobEnd_kept
      exact h
    · extract_lets -underBinder -merge +onlyGivenNames x0
      have h1 : Kept q x0 := by
        unfold x0
        apply State.modJob_kept
        exact h
      clear_value x0
      apply State.issue_kept
      apply State.modCmd_kept
      exact h1
  · extract_lets -underBinder -merge +onlyGivenNames x2
    have h3 : Kept q x2 := by
      unfold x2
      apply State.modJob_kept
      exact h
    clear_value x2
    apply State.issue_kept
    apply State.modCmd_kept
    exact h3

theorem State.jobStep_kept {q : List Instr} {s : State} (h : Kept q s) (a1) : Kept q (State.jobStep s a1) := by
  unfold State.jobStep
  refine ite_kept ?_ ?_
  · exact h
  · refine ite_kept ?_ ?_
    · apply State.jobEnd_kept
      exact h
    · refine ite_kept ?_ ?_
      · apply State.jobEnd_kept
        exact h
      · refine ite_kept ?_ ?_
        · split
          · apply State.jobEnd_kept
            exact h
          · extract_lets -underBinder -merge +onlyGivenNames x0
            have h1 : Kept q x0 := by
              unfold x0
              apply State.modJob_kept
              exact h
            clear_value x0
            apply State.issue_kept
            exact h1
        · extract_lets -underBinder -merge +onlyGivenNames x2
          clear_value x2
          extract_lets -underBinder -merge +onlyGivenNames x3
          clear_value x3
          extract_lets -underBinder -merge +onlyGivenNames x4
          have h5 : Kept q x4 := by
            unfold x4
            apply State.modJob_kept
            exact h
          clear_value x4
          apply State.issue_kept
          exact h5

theorem State.jobPeer_kept {q : List Instr} {s : State} (h : Kept q s) (a1) : Kept q (State.jobPeer s a1) := by
  unfold State.jobPeer
  refine foldS_kept _ ?_ ?_
  · exact h
  · intro x0
    intro x1 x2
    apply State.jobEnd_kept
    exact x2

theorem State.buddyTimeout_kept {q : List Instr} {s : State} (h : Kept q s) (a1) (a2) : Kept q (State.buddyTimeout s a1 a2) := by
  unfold State.buddyTimeout
  split
  · exact h
  · extract_lets -underBinder -merge +onlyGivenNames x0
    clear_value x0
    refine ite_kept ?_ ?_
    · exact h
    · apply State.jobEnd_kept
      exact h

theorem State.resSettle_kept {q : List Instr} {s : State} (h : Kept q s) : Kept q (State.resSettle s) := by
  unfold State.resSettle
  refine foldS_kept _ ?_ ?_
  · exact h
  · intro x0
    intro x1 x2
    refine ite_kept ?_ ?_
    · apply State.jobStep_kept
      exact x2
    · exact x2

theorem State.commitDispatch_kept {q : List Instr} {s : State} (h : Kept q s) (a1) : Kept q (State.commitDispatch s a1) := by
  unfold State.commitDispatch
  extract_lets -underBinder -merge +onlyGivenNames x0
  clear_value x0
  extract_lets -underBinder -merge +onlyGivenNames x1
  clear_value x1
  extract_lets -underBinder -merge +onlyGivenNames x2
  clear_value x2
  extract_lets -underBinder -merge +onlyGivenNames x3
  have h4 : Kept q x3 := by
    unfold x3
    apply State.countClamps_kept
    exact h
  clear_value x3
  extract_lets -underBinder -merge +onlyGivenNames x5
  have h6 : Kept q x5 := by
    unfold x5
    apply State.setF_kept
    apply State.setF_kept
    exact h4
  clear_value x5
  extract_lets -underBinder -merge +onlyGivenNames x7
  clear_value x7
  split
  · apply State.refuseCmd_kept
    exact h6
  · refine ite_kept ?_ ?_
    · extract_lets -underBinder -merge +onlyGivenNames x8
      have h9 : Kept q x8 := by
        unfold x8
        apply State.refuseCmd_kept
        exact h6
      clear_value x8
      split
      apply State.colLocal_kept
      refine snd_kept (by assumption) ?_
      apply State.takeInst_kept
      exact h9
    · extract_lets -underBinder -merge +onlyGivenNames x10
      clear_value x10
      apply State.colOpen_kept
      exact h6

theorem State.commitHeld_kept {q : List Instr} {s : State} (h : Kept q s) (a1) : Kept q (State.commitHeld s a1) := by
  unfold State.commitHeld
  split
  · exact h
  · apply State.setF_kept
    apply State.setF_kept
    exact h

theorem State.commitOutcome_kept {q : List Instr} {s : State} (h : Kept q s) (a1) : Kept q (State.commitOutcome s a1) := by
  unfold State.commitOutcome
  extract_lets -underBinder -merge +onlyGivenNames x0
  clear_value x0
  extract_lets -underBinder -merge +onlyGivenNames x1
  clear_value x1
  extract_lets -underBinder -merge +onlyGivenNames x2
  have h3 : Kept q x2 := by
    unfold x2
    refine ite_kept ?_ ?_
    · apply State.setRes_kept
      exact h
    · exact h
  clear_value x2
  refine ite_kept ?_ ?_
  · apply State.bump_kept
    apply State.commitHeld_kept
    apply State.setF_kept
    exact h3
  · refine ite_kept ?_ ?_
    · apply State.raise_kept
      apply State.bump_kept
      exact h3
    · refine ite_kept ?_ ?_
      · extract_lets -underBinder -merge +onlyGivenNames x4
        have h5 : Kept q x4 := by
          unfold x4
          refine ite_kept ?_ ?_
          · apply State.bump_kept
            exact h3
          · exact h3
        clear_value x4
        apply State.raiseLevel_kept
        apply State.raise_kept
        apply State.setF_kept
        exact h5
      · exact h3

theorem State.resCtrl_kept {q : List Instr} {s : State} (h : Kept q s) (a1) (a2) : Kept q (State.resCtrl s a1 a2) := by
  unfold State.resCtrl
  extract_lets -underBinder -merge +onlyGivenNames x0
  clear_value x0
  extract_lets -underBinder -merge +onlyGivenNames x1
  clear_value x1
  extract_lets -underBinder -merge +onlyGivenNames x2
  clear_value x2
  refine ite_kept ?_ ?_
  · apply State.cfgErr_kept
    exact h
  · extract_lets -underBinder -merge +onlyGivenNames x3
    have h4 : Kept q x3 := by
      unfold x3
      apply State.setF_kept
      apply State.setF_kept
      exact h
    clear_value x3
    refine ite_kept ?_ ?_
    · apply State.taint_kept
      exact h4
    · exact h4

theorem State.lastWrite_kept {q : List Instr} {s : State} (h : Kept q s) (a1) (a2) : Kept q (State.lastWrite s a1 a2) := by
  unfold State.lastWrite
  extract_lets -underBinder -merge +onlyGivenNames x0
  clear_value x0
  refine ite_kept ?_ ?_
  · apply State.cfgErr_kept
    exact h
  · extract_lets -underBinder -merge +onlyGivenNames x1
    have h2 : Kept q x1 := by
      unfold x1
      apply State.commitHeld_kept
      apply State.setF_kept
      exact h
    clear_value x1
    apply State.lowerLevel_kept
    apply State.setF_kept
    exact h2

end Sys2Proof.Machine
end

