-- ==== Sys2Proof/Laws/KeptPower.lean ====
section
/-! SUPPORT. Every operation over resets, power, the die-to-die links and boot keeps `Kept`: the memory in canonical form, the bounds of the event ring and the log,
poison on sectors, and the queue. One lemma per operation, in the order of the files that define them. -/

namespace Sys2Proof.Machine

theorem State.resetRegs_kept {q : List Instr} {s : State} (h : Kept q s) (a1) : Kept q (State.resetRegs s a1) := by
  unfold State.resetRegs
  refine kept_mk ?_
  exact h

theorem State.noteWings_kept {q : List Instr} {s : State} (h : Kept q s) : Kept q (State.noteWings s) := by
  unfold State.noteWings
  extract_lets -underBinder -merge +onlyGivenNames x0
  clear_value x0
  refine kept_mk ?_
  exact h

theorem State.resetUnits_kept {q : List Instr} {s : State} (h : Kept q s) : Kept q (State.resetUnits s) := by
  unfold State.resetUnits
  refine kept_mk ?_
  exact h

theorem State.resetEye_kept {q : List Instr} {s : State} (h : Kept q s) : Kept q (State.resetEye s) := by
  unfold State.resetEye
  extract_lets -underBinder -merge +onlyGivenNames x0
  clear_value x0
  extract_lets -underBinder -merge +onlyGivenNames x1
  have h2 : Kept q x1 := by
    unfold x1
    refine foldS_kept _ ?_ ?_
    · exact h
    · intro x3
      intro x4 x5
      apply State.quietExit_kept
      exact x5
  clear_value x1
  extract_lets -underBinder -merge +onlyGivenNames x6
  have h7 : Kept q x6 := by
    unfold x6
    apply State.dropSweeps_kept
    exact h2
  clear_value x6
  refine kept_mk ?_
  exact h7

theorem State.keepPlans_kept {q : List Instr} {s : State} (h : Kept q s) : Kept q (State.keepPlans s) := by
  unfold State.keepPlans
  refine ite_kept ?_ ?_
  · refine foldS_kept _ ?_ ?_
    · exact h
    · intro x0
      intro x1 x2
      apply State.wr_kept
      exact x2
  · exact h

theorem State.resetMain_kept {q : List Instr} {s : State} (h : Kept q s) : Kept q (State.resetMain s) := by
  unfold State.resetMain
  apply State.resetUnits_kept
  apply State.resetRegs_kept
  apply State.noteWings_kept
  apply State.keepPlans_kept
  exact h

theorem State.resetModule_kept {q : List Instr} {s : State} (h : Kept q s) : Kept q (State.resetModule s) := by
  unfold State.resetModule
  extract_lets -underBinder -merge +onlyGivenNames x0
  have h1 : Kept q x0 := by
    unfold x0
    apply State.resetMain_kept
    apply State.resetEye_kept
    exact h
  clear_value x0
  extract_lets -underBinder -merge +onlyGivenNames x2
  clear_value x2
  extract_lets -underBinder -merge +onlyGivenNames x3
  clear_value x3
  extract_lets -underBinder -merge +onlyGivenNames x4
  clear_value x4
  extract_lets -underBinder -merge +onlyGivenNames x5
  have h6 : Kept q x5 := by
    unfold x5
    apply State.resetRegs_kept
    exact h1
  clear_value x5
  extract_lets -underBinder -merge +onlyGivenNames x7
  have h8 : Kept q x7 := by
    unfold x7
    apply State.setF_kept
    exact h6
  clear_value x7
  extract_lets -underBinder -merge +onlyGivenNames x9
  have h10 : Kept q x9 := by
    unfold x9
    apply State.setF_kept
    exact h8
  clear_value x9
  extract_lets -underBinder -merge +onlyGivenNames x11
  have h12 : Kept q x11 := by
    unfold x11
    apply State.setF_kept
    exact h10
  clear_value x11
  extract_lets -underBinder -merge +onlyGivenNames x13
  have h14 : Kept q x13 := by
    unfold x13
    refine foldS_kept _ ?_ ?_
    · exact h12
    · intro x15
      intro x16 x17
      apply State.imgStat_kept
      exact x17
  clear_value x13
  apply State.newChallenge_kept
  apply State.releasePins_kept
  exact h14

theorem State.resetPowerOn_kept {q : List Instr} {s : State} (h : Kept q s) (a) : Kept q (State.resetPowerOn s a) := by
  unfold State.resetPowerOn
  have h0 := State.noteWings_kept h
  generalize s.noteWings = x at h0
  have hp := h0.2.1
  have hl := log_le h0
  dsimp only
  refine State.finishMarker_kept ?_
  refine State.setF_kept ?_ _ _ _ _
  exact kept_of rfl hp (Nat.zero_le _) hl fun x hx => absurd hx List.not_mem_nil

theorem State.notice_kept {q : List Instr} {s : State} (h : Kept q s) (a1) : Kept q (State.notice s a1) := by
  unfold State.notice
  extract_lets -underBinder -merge +onlyGivenNames x0
  have h1 : Kept q x0 := by
    unfold x0
    refine ite_kept ?_ ?_
    · apply State.setF_kept
      exact h
    · exact h
  clear_value x0
  apply State.irq_kept
  apply State.setF_kept
  apply State.setF_kept
  exact h1

theorem State.setStage_kept {q : List Instr} {s : State} (h : Kept q s) (a1) : Kept q (State.setStage s a1) := by
  unfold State.setStage
  apply State.refreshPins_kept
  apply State.setF_kept
  exact h

theorem State.bootFail_kept {q : List Instr} {s : State} (h : Kept q s) (a1) : Kept q (State.bootFail s a1) := by
  unfold State.bootFail
  extract_lets -underBinder -merge +onlyGivenNames x0
  clear_value x0
  extract_lets -underBinder -merge +onlyGivenNames x1
  have h2 : Kept q x1 := by
    unfold x1
    apply State.trialFails_kept
    exact h
  clear_value x1
  refine ite_kept ?_ ?_
  · apply State.setStage_kept
    apply State.setF_kept
    exact h2
  · apply State.setStage_kept
    apply State.setF_kept
    exact h2

theorem State.moduleReset_kept {q : List Instr} {s : State} (h : Kept q s) (a1) : Kept q (State.moduleReset s a1) := by
  unfold State.moduleReset
  refine ite_kept ?_ ?_
  · exact h
  · extract_lets -underBinder -merge +onlyGivenNames x0
    have h1 : Kept q x0 := by
      unfold x0
      apply State.resetModule_kept
      exact h
    clear_value x0
    apply State.setStage_kept
    apply State.setF_kept
    apply State.setF_kept
    exact h1

theorem State.railUp_kept {q : List Instr} {s : State} (h : Kept q s) (a1) : Kept q (State.railUp s a1) := by
  unfold State.railUp
  extract_lets -underBinder -merge +onlyGivenNames x0
  have h1 : Kept q x0 := by
    unfold x0
    apply State.setF_kept
    apply State.setF_kept
    exact h
  clear_value x0
  refine ite_kept ?_ ?_
  · apply State.setF_kept
    apply State.setF_kept
    exact h1
  · exact h1

theorem State.setPw_kept {q : List Instr} {s : State} (h : Kept q s) (a1) : Kept q (State.setPw s a1) := by
  unfold State.setPw
  refine kept_mk ?_
  exact h

theorem State.railsOff_kept {q : List Instr} {s : State} (h : Kept q s) : Kept q (State.railsOff s) := by
  have h0 : ∀ s : State, Kept q s → Kept q (foldS mainRails (fun r (s : State) =>
      let f := s.f F.PWR_RAIL_MEAS_FAULT r
      (s.setF F.PWR_RAIL_SET_MV 0 r).wr .PWR_RAIL_MEAS (BitVec.ofNat 64 (f * 2 ^ 49)) r) s) := fun s hs =>
    foldS_kept _ hs fun _ _ hs => State.wr_kept (State.setF_kept hs _ _ _ _) _ _ _ _
  have h1 := h0 _ (State.resetMain_kept h)
  unfold State.railsOff
  extract_lets x y z
  have hz : Kept q z := State.setPw_kept h1 { step := 0 }
  clear_value z
  have hp := hz.2.1
  have hr := ring_le hz
  have hl := log_le hz
  exact kept_of rfl hp hr hl fun x hx => absurd hx List.not_mem_nil

theorem State.powerUpFail_kept {q : List Instr} {s : State} (h : Kept q s) (a1) : Kept q (State.powerUpFail s a1) := by
  unfold State.powerUpFail
  extract_lets -underBinder -merge +onlyGivenNames x0
  have h1 : Kept q x0 := by
    unfold x0
    apply State.setF_kept
    apply State.setF_kept
    apply State.railsOff_kept
    exact h
  clear_value x0
  apply State.setStage_kept
  apply State.setF_kept
  exact h1

theorem State.powerUpDone_kept {q : List Instr} {s : State} (h : Kept q s) : Kept q (State.powerUpDone s) := by
  unfold State.powerUpDone
  extract_lets -underBinder -merge +onlyGivenNames x0
  clear_value x0
  extract_lets -underBinder -merge +onlyGivenNames x1
  clear_value x1
  extract_lets -underBinder -merge +onlyGivenNames x2
  have h3 : Kept q x2 := by
    unfold x2
    apply State.setF_kept
    apply State.setPw_kept
    exact h
  clear_value x2
  refine ite_kept ?_ ?_
  · apply State.setStage_kept
    exact h3
  · refine ite_kept ?_ ?_
    · apply State.bootFail_kept
      exact h3
    · apply State.setStage_kept
      exact h3

theorem State.railGood_kept {q : List Instr} {s : State} (h : Kept q s) (a1) : Kept q (State.railGood s a1) := by
  unfold State.railGood
  extract_lets -underBinder -merge +onlyGivenNames x0
  clear_value x0
  refine ite_kept ?_ ?_
  · exact h
  · split
    · refine ite_kept ?_ ?_
      · apply State.powerUpFail_kept
        apply State.setF_kept
        exact h
      · exact h
    · extract_lets -underBinder -merge +onlyGivenNames x1
      have h2 : Kept q x1 := by
        unfold x1
        refine foldS_kept _ ?_ ?_
        · exact h
        · intro x3
          intro x4 x5
          apply State.railUp_kept
          exact x5
      clear_value x1
      refine ite_kept ?_ ?_
      · apply State.powerUpDone_kept
        exact h2
      · apply State.setPw_kept
        exact h2

theorem State.inputValid_kept {q : List Instr} {s : State} (h : Kept q s) (a1) : Kept q (State.inputValid s a1) := by
  unfold State.inputValid
  extract_lets -underBinder -merge +onlyGivenNames x0
  clear_value x0
  extract_lets -underBinder -merge +onlyGivenNames x1
  have h2 : Kept q x1 := by
    unfold x1
    refine kept_mk ?_
    exact h
  clear_value x1
  refine ite_kept ?_ ?_
  · exact h2
  · apply State.resetPowerOn_kept
    exact h2

theorem State.inputGone_kept {q : List Instr} {s : State} (h : Kept q s) : Kept q (State.inputGone s) := by
  unfold State.inputGone
  extract_lets -underBinder -merge +onlyGivenNames x0
  have h1 : Kept q x0 := by
    unfold x0
    apply State.resetPowerOn_kept
    exact h
  clear_value x0
  refine kept_mk ?_
  exact h1

theorem State.restart_kept {q : List Instr} {s : State} (h : Kept q s) (a1) : Kept q (State.restart s a1) := by
  unfold State.restart
  extract_lets -underBinder -merge +onlyGivenNames x0
  have h1 : Kept q x0 := by
    unfold x0
    apply State.resetModule_kept
    exact h
  clear_value x0
  extract_lets -underBinder -merge +onlyGivenNames x2
  have h3 : Kept q x2 := by
    unfold x2
    apply State.setF_kept
    apply State.setF_kept
    exact h1
  clear_value x2
  extract_lets -underBinder -merge +onlyGivenNames x4
  clear_value x4
  extract_lets -underBinder -merge +onlyGivenNames x5
  have h6 : Kept q x5 := by
    unfold x5
    apply State.setPw_kept
    apply State.setF_kept
    exact h3
  clear_value x5
  apply State.setStage_kept
  exact h6

theorem State.autoRestart_kept {q : List Instr} {s : State} (h : Kept q s) : Kept q (State.autoRestart s) := by
  unfold State.autoRestart
  refine ite_kept ?_ ?_
  · apply State.restart_kept
    exact h
  · exact h

theorem State.capForce_kept {q : List Instr} {s : State} (h : Kept q s) : Kept q (State.capForce s) := by
  unfold State.capForce
  extract_lets -underBinder -merge +onlyGivenNames x0
  clear_value x0
  apply State.setF_kept
  exact h

theorem State.capWrite_kept {q : List Instr} {s : State} (h : Kept q s) (a1) : Kept q (State.capWrite s a1) := by
  unfold State.capWrite
  apply State.capForce_kept
  apply State.setF_kept
  exact h

theorem State.thmReq_kept {q : List Instr} {s : State} (h : Kept q s) (a1) : Kept q (State.thmReq s a1) := by
  unfold State.thmReq
  extract_lets -underBinder -merge +onlyGivenNames x0
  clear_value x0
  apply State.setF_kept
  exact h

theorem State.setpoint_kept {q : List Instr} {s : State} (h : Kept q s) (a1) : Kept q (State.setpoint s a1) := by
  unfold State.setpoint
  refine ite_kept ?_ ?_
  · exact h
  · refine ite_kept ?_ ?_
    · extract_lets -underBinder -merge +onlyGivenNames x0
      clear_value x0
      refine ite_kept ?_ ?_
      · exact h
      · apply State.temperRestart_kept
        apply State.setF_kept
        exact h
    · refine ite_kept ?_ ?_
      · apply State.setF_kept
        exact h
      · exact h

theorem State.showHolds_kept {q : List Instr} {s : State} (h : Kept q s) : Kept q (State.showHolds s) := by
  unfold State.showHolds
  extract_lets -underBinder -merge +onlyGivenNames x0
  clear_value x0
  extract_lets -underBinder -merge +onlyGivenNames x1
  have h2 : Kept q x1 := by
    unfold x1
    refine foldS_kept _ ?_ ?_
    · exact h
    · intro x3
      intro x4 x5
      apply State.setF_kept
      exact x5
  clear_value x1
  extract_lets -underBinder -merge +onlyGivenNames x6
  clear_value x6
  extract_lets -underBinder -merge +onlyGivenNames x7
  have h8 : Kept q x7 := by
    unfold x7
    apply State.setF_kept
    exact h2
  clear_value x7
  refine ite_kept ?_ ?_
  · apply State.lowerLevel_kept
    exact h8
  · apply State.raiseLevel_kept
    exact h8

theorem State.setPwrReq_kept {q : List Instr} {s : State} (h : Kept q s) (a1) : Kept q (State.setPwrReq s a1) := by
  unfold State.setPwrReq
  refine foldS_kept _ ?_ ?_
  · exact h
  · intro x0
    intro x1 x2
    apply State.setF_kept
    exact x2

theorem State.figure_kept {q : List Instr} {s : State} (h : Kept q s) (a1) : Kept q (State.figure s a1) := by
  unfold State.figure
  split
  · apply State.setF_kept
    exact h
  · apply State.setF_kept
    exact h
  · apply State.setF_kept
    exact h
  · apply State.setF_kept
    exact h
  · apply State.setF_kept
    exact h
  · apply State.setF_kept
    exact h
  · apply State.setF_kept
    exact h
  · apply State.setF_kept
    exact h
  · apply State.setF_kept
    exact h
  · apply State.setF_kept
    exact h
  · apply State.setF_kept
    exact h
  · apply State.setF_kept
    exact h
  · apply State.setF_kept
    exact h
  · apply State.setF_kept
    exact h
  · apply State.setF_kept
    exact h

theorem State.powerTick_kept {q : List Instr} {s : State} (h : Kept q s) (a1) (a2) (a3) (a4) : Kept q (State.powerTick s a1 a2 a3 a4) := by
  unfold State.powerTick
  extract_lets -underBinder -merge +onlyGivenNames x0
  have h1 : Kept q x0 := by
    unfold x0
    refine foldS_kept _ ?_ ?_
    · exact h
    · intro x2
      intro x3 x4
      apply State.figure_kept
      exact x4
  clear_value x0
  refine ite_kept ?_ ?_
  · exact h1
  · extract_lets -underBinder -merge +onlyGivenNames x5
    have h6 : Kept q x5 := by
      unfold x5
      apply State.capForce_kept
      apply State.setF_kept
      exact h1
    clear_value x5
    extract_lets -underBinder -merge +onlyGivenNames x7
    have h8 : Kept q x7 := by
      unfold x7
      refine ite_kept ?_ ?_
      · apply State.raise_kept
        exact h6
      · exact h6
    clear_value x7
    extract_lets -underBinder -merge +onlyGivenNames x9
    extract_lets -underBinder -merge +onlyGivenNames x10
    clear_value x10
    extract_lets -underBinder -merge +onlyGivenNames x11
    clear_value x11
    extract_lets -underBinder -merge +onlyGivenNames x12
    clear_value x12
    extract_lets -underBinder -merge +onlyGivenNames x13
    have h14 : Kept q x13 := by
      unfold x13
      apply State.setPwrReq_kept
      exact h8
    clear_value x13
    extract_lets -underBinder -merge +onlyGivenNames x15
    clear_value x15
    extract_lets -underBinder -merge +onlyGivenNames x16
    clear_value x16
    extract_lets -underBinder -merge +onlyGivenNames x17
    clear_value x17
    extract_lets -underBinder -merge +onlyGivenNames x18
    clear_value x18
    extract_lets -underBinder -merge +onlyGivenNames x19
    clear_value x19
    extract_lets -underBinder -merge +onlyGivenNames x20
    have h21 : Kept q x20 := by
      unfold x20
      apply State.setF_kept
      apply State.setPw_kept
      exact h14
    clear_value x20
    extract_lets -underBinder -merge +onlyGivenNames x22
    have h23 : Kept q x22 := by
      unfold x22
      refine ite_kept ?_ ?_
      · apply State.raiseLevel_kept
        exact h21
      · apply State.lowerLevel_kept
        exact h21
    clear_value x22
    apply State.showHolds_kept
    exact h23

theorem State.orderlyStop_kept {q : List Instr} {s : State} (h : Kept q s) (a1) : Kept q (State.orderlyStop s a1) := by
  unfold State.orderlyStop
  refine ite_kept ?_ ?_
  · exact h
  · extract_lets -underBinder -merge +onlyGivenNames x0
    have h1 : Kept q x0 := by
      unfold x0
      apply State.setF_kept
      apply State.setF_kept
      exact h
    clear_value x0
    extract_lets -underBinder -merge +onlyGivenNames x2
    have h3 : Kept q x2 := by
      unfold x2
      apply State.raise_kept
      apply State.notice_kept
      apply State.setF_kept
      exact h1
    clear_value x2
    apply State.setPwrReq_kept
    exact h3

theorem State.powerDown_kept {q : List Instr} {s : State} (h : Kept q s) : Kept q (State.powerDown s) := by
  unfold State.powerDown
  refine ite_kept ?_ ?_
  · exact h
  · extract_lets -underBinder -merge +onlyGivenNames x0
    have h1 : Kept q x0 := by
      unfold x0
      apply State.setStage_kept
      apply State.setF_kept
      apply State.railsOff_kept
      exact h
    clear_value x0
    refine ite_kept ?_ ?_
    · apply State.inputGone_kept
      exact h1
    · exact h1

theorem State.cutRails_kept {q : List Instr} {s : State} (h : Kept q s) : Kept q (State.cutRails s) := by
  unfold State.cutRails
  refine ite_kept ?_ ?_
  · exact h
  · apply State.setStage_kept
    apply State.setF_kept
    apply State.railsOff_kept
    exact h

theorem State.trip_kept {q : List Instr} {s : State} (h : Kept q s) : Kept q (State.trip s) := by
  unfold State.trip
  refine ite_kept ?_ ?_
  · exact h
  · apply State.raise_kept
    apply State.setF_kept
    apply State.cutRails_kept
    exact h

theorem State.railFault_kept {q : List Instr} {s : State} (h : Kept q s) (a1) : Kept q (State.railFault s a1) := by
  unfold State.railFault
  refine ite_kept ?_ ?_
  · exact h
  · apply State.raise_kept
    apply State.setF_kept
    apply State.cutRails_kept
    exact h

theorem State.inputSample_kept {q : List Instr} {s : State} (h : Kept q s) (a1) (a2) (a3) : Kept q (State.inputSample s a1 a2 a3) := by
  unfold State.inputSample
  extract_lets -underBinder -merge +onlyGivenNames x0
  have h1 : Kept q x0 := by
    unfold x0
    apply State.setF_kept
    exact h
  clear_value x0
  extract_lets -underBinder -merge +onlyGivenNames x2
  have h3 : Kept q x2 := by
    unfold x2
    refine ite_kept ?_ ?_
    · apply State.setF_kept
      exact h1
    · exact h1
  clear_value x2
  extract_lets -underBinder -merge +onlyGivenNames x4
  have h5 : Kept q x4 := by
    unfold x4
    refine foldS_kept _ ?_ ?_
    · exact h3
    · intro x6
      intro x7 x8
      extract_lets -underBinder -merge +onlyGivenNames x9
      clear_value x9
      refine ite_kept ?_ ?_
      · exact x8
      · extract_lets -underBinder -merge +onlyGivenNames x10
        have h11 : Kept q x10 := by
          unfold x10
          apply State.setF_kept
          exact x8
        clear_value x10
        apply State.setF_kept
        apply State.setF_kept
        exact h11
  clear_value x4
  extract_lets -underBinder -merge +onlyGivenNames x12
  clear_value x12
  extract_lets -underBinder -merge +onlyGivenNames x13
  have h14 : Kept q x13 := by
    unfold x13
    refine ite_kept ?_ ?_
    · refine kept_mk ?_
      exact h5
    · exact h5
  clear_value x13
  extract_lets -underBinder -merge +onlyGivenNames x15
  have h16 : Kept q x15 := by
    unfold x15
    refine ite_kept ?_ ?_
    · apply State.raiseLevel_kept
      exact h14
    · apply State.lowerLevel_kept
      exact h14
  clear_value x15
  refine ite_kept ?_ ?_
  · refine ite_kept ?_ ?_
    · apply State.powerUpFail_kept
      exact h16
    · exact h16
  · refine ite_kept ?_ ?_
    · apply State.raise_kept
      apply State.orderlyStop_kept
      exact h16
    · exact h16

theorem State.inputRange_kept {q : List Instr} {s : State} (h : Kept q s) : Kept q (State.inputRange s) := by
  unfold State.inputRange
  refine ite_kept ?_ ?_
  · apply State.raise_kept
    apply State.orderlyStop_kept
    exact h
  · exact h

theorem State.inputLoss_kept {q : List Instr} {s : State} (h : Kept q s) : Kept q (State.inputLoss s) := by
  unfold State.inputLoss
  refine ite_kept ?_ ?_
  · exact h
  · refine ite_kept ?_ ?_
    · refine kept_mk ?_
      exact h
    · refine ite_kept ?_ ?_
      · extract_lets -underBinder -merge +onlyGivenNames x0
        clear_value x0
        extract_lets -underBinder -merge +onlyGivenNames x1
        have h2 : Kept q x1 := by
          unfold x1
          refine kept_mk ?_
          exact h
        clear_value x1
        apply State.raise_kept
        apply State.orderlyStop_kept
        exact h2
      · apply State.inputGone_kept
        exact h

theorem State.heatClock_kept {q : List Instr} {s : State} (h : Kept q s) (a1) : Kept q (State.heatClock s a1) := by
  unfold State.heatClock
  extract_lets -underBinder -merge +onlyGivenNames x0
  clear_value x0
  extract_lets -underBinder -merge +onlyGivenNames x1
  clear_value x1
  extract_lets -underBinder -merge +onlyGivenNames x2
  have h3 : Kept q x2 := by
    unfold x2
    apply State.setPw_kept
    exact h
  clear_value x2
  apply State.setF_kept
  exact h3

theorem State.baskEval_kept {q : List Instr} {s : State} (h : Kept q s) : Kept q (State.baskEval s) := by
  unfold State.baskEval
  refine ite_kept ?_ ?_
  · exact h
  · extract_lets -underBinder -merge +onlyGivenNames x0
    clear_value x0
    extract_lets -underBinder -merge +onlyGivenNames x1
    clear_value x1
    extract_lets -underBinder -merge +onlyGivenNames x2
    clear_value x2
    refine ite_kept ?_ ?_
    · apply State.setStage_kept
      apply State.lowerLevel_kept
      apply State.capForce_kept
      apply State.setF_kept
      apply State.heatClock_kept
      exact h
    · refine ite_kept ?_ ?_
      · apply State.raiseLevel_kept
        apply State.capForce_kept
        apply State.setF_kept
        apply State.heatClock_kept
        exact h
      · apply State.setPwrReq_kept
        apply State.lowerLevel_kept
        apply State.capForce_kept
        apply State.setF_kept
        apply State.heatClock_kept
        exact h

theorem State.coldCheck_kept {q : List Instr} {s : State} (h : Kept q s) : Kept q (State.coldCheck s) := by
  unfold State.coldCheck
  refine ite_kept ?_ ?_
  · apply State.baskEval_kept
    exact h
  · exact h

theorem State.baskTimeout_kept {q : List Instr} {s : State} (h : Kept q s) : Kept q (State.baskTimeout s) := by
  unfold State.baskTimeout
  refine ite_kept ?_ ?_
  · apply State.bootFail_kept
    apply State.raise_kept
    apply State.heatClock_kept
    exact h
  · exact h

theorem State.throttle_kept {q : List Instr} {s : State} (h : Kept q s) (a1) : Kept q (State.throttle s a1) := by
  unfold State.throttle
  refine ite_kept ?_ ?_
  · refine ite_kept ?_ ?_
    · apply State.showHolds_kept
      apply State.setPw_kept
      exact h
    · apply State.thmReq_kept
      apply State.setPw_kept
      exact h
  · exact h

theorem State.throttleBack_kept {q : List Instr} {s : State} (h : Kept q s) (a1) : Kept q (State.throttleBack s a1) := by
  unfold State.throttleBack
  refine ite_kept ?_ ?_
  · refine ite_kept ?_ ?_
    · apply State.showHolds_kept
      apply State.setPw_kept
      exact h
    · apply State.thmReq_kept
      apply State.setPw_kept
      exact h
  · exact h

theorem State.rateEvent_kept {q : List Instr} {s : State} (h : Kept q s) (a1) : Kept q (State.rateEvent s a1) := by
  unfold State.rateEvent
  extract_lets -underBinder -merge +onlyGivenNames x0
  have h1 : Kept q x0 := by
    unfold x0
    apply State.raise_kept
    apply State.setF_kept
    exact h
  clear_value x0
  refine ite_kept ?_ ?_
  · exact h1
  · extract_lets -underBinder -merge +onlyGivenNames x2
    clear_value x2
    extract_lets -underBinder -merge +onlyGivenNames x3
    clear_value x3
    split
    · apply State.thmReq_kept
      apply State.setPw_kept
      exact h1
    · refine ite_kept ?_ ?_
      · exact h1
      · apply State.thmReq_kept
        apply State.setPw_kept
        exact h1

theorem State.rateHoldEnd_kept {q : List Instr} {s : State} (h : Kept q s) (a1) : Kept q (State.rateHoldEnd s a1) := by
  unfold State.rateHoldEnd
  apply State.thmReq_kept
  apply State.setPw_kept
  exact h

theorem State.condition_kept {q : List Instr} {s : State} (h : Kept q s) (a1) (a2) (a3) : Kept q (State.condition s a1 a2 a3) := by
  unfold State.condition
  extract_lets -underBinder -merge +onlyGivenNames x0
  have h1 : Kept q x0 := by
    unfold x0
    apply State.setF_kept
    exact h
  clear_value x0
  refine ite_kept ?_ ?_
  · apply State.raiseLevel_kept
    exact h1
  · apply State.lowerLevel_kept
    exact h1

theorem State.dieThresholds_kept {q : List Instr} {s : State} (h : Kept q s) (a1) (a2) : Kept q (State.dieThresholds s a1 a2) := by
  unfold State.dieThresholds
  extract_lets -underBinder -merge +onlyGivenNames x0
  clear_value x0
  extract_lets -underBinder -merge +onlyGivenNames x1
  clear_value x1
  extract_lets -underBinder -merge +onlyGivenNames x2
  clear_value x2
  extract_lets -underBinder -merge +onlyGivenNames x3
  clear_value x3
  extract_lets -underBinder -merge +onlyGivenNames x4
  have h5 : Kept q x4 := by
    unfold x4
    apply State.setF_kept
    apply State.setF_kept
    exact h
  clear_value x4
  extract_lets -underBinder -merge +onlyGivenNames x6
  have h7 : Kept q x6 := by
    unfold x6
    apply State.setF_kept
    exact h5
  clear_value x6
  extract_lets -underBinder -merge +onlyGivenNames x8
  have h9 : Kept q x8 := by
    unfold x8
    refine ite_kept ?_ ?_
    · apply State.condition_kept
      exact h7
    · refine ite_kept ?_ ?_
      · apply State.condition_kept
        exact h7
      · exact h7
  clear_value x8
  extract_lets -underBinder -merge +onlyGivenNames x10
  clear_value x10
  extract_lets -underBinder -merge +onlyGivenNames x11
  clear_value x11
  extract_lets -underBinder -merge +onlyGivenNames x12
  have h13 : Kept q x12 := by
    unfold x12
    apply State.condition_kept
    apply State.setPw_kept
    exact h9
  clear_value x12
  extract_lets -underBinder -merge +onlyGivenNames x14
  clear_value x14
  extract_lets -underBinder -merge +onlyGivenNames x15
  clear_value x15
  extract_lets -underBinder -merge +onlyGivenNames x16
  have h17 : Kept q x16 := by
    unfold x16
    refine ite_kept ?_ ?_
    · apply State.orderlyStop_kept
      apply State.raise_kept
      exact h13
    · exact h13
  clear_value x16
  extract_lets -underBinder -merge +onlyGivenNames x18
  have h19 : Kept q x18 := by
    unfold x18
    refine ite_kept ?_ ?_
    · apply State.condition_kept
      exact h17
    · refine ite_kept ?_ ?_
      · apply State.condition_kept
        exact h17
      · exact h17
  clear_value x18
  refine ite_kept ?_ ?_
  · apply State.orderlyStop_kept
    apply State.raise_kept
    exact h19
  · exact h19

theorem State.sensorFail_kept {q : List Instr} {s : State} (h : Kept q s) (a1) : Kept q (State.sensorFail s a1) := by
  unfold State.sensorFail
  refine ite_kept ?_ ?_
  · exact h
  · apply State.raise_kept
    apply State.setF_kept
    exact h

theorem State.sensorStore_kept {q : List Instr} {s : State} (h : Kept q s) (a1) (a2) : Kept q (State.sensorStore s a1 a2) := by
  unfold State.sensorStore
  extract_lets -underBinder -merge +onlyGivenNames x0
  have h1 : Kept q x0 := by
    unfold x0
    apply State.setF_kept
    exact h
  clear_value x0
  refine ite_kept ?_ ?_
  · apply State.setF_kept
    exact h1
  · exact h1

theorem State.stackTemp_kept {q : List Instr} {s : State} (h : Kept q s) (a1) (a2) : Kept q (State.stackTemp s a1 a2) := by
  unfold State.stackTemp
  extract_lets -underBinder -merge +onlyGivenNames x0
  clear_value x0
  extract_lets -underBinder -merge +onlyGivenNames x1
  extract_lets -underBinder -merge +onlyGivenNames x2
  have h3 : Kept q x2 := by
    unfold x2
    apply State.setF_kept
    apply State.sensorStore_kept
    exact h
  clear_value x2
  extract_lets -underBinder -merge +onlyGivenNames x4
  have h5 : Kept q x4 := by
    unfold x4
    refine ite_kept ?_ ?_
    · apply State.setF_kept
      exact h3
    · refine ite_kept ?_ ?_
      · apply State.setF_kept
        exact h3
      · exact h3
  clear_value x4
  extract_lets -underBinder -merge +onlyGivenNames x6
  clear_value x6
  extract_lets -underBinder -merge +onlyGivenNames x7
  have h8 : Kept q x7 := by
    unfold x7
    refine ite_kept ?_ ?_
    · apply State.setF_kept
      exact h5
    · refine ite_kept ?_ ?_
      · apply State.backOwed_kept
        apply State.setF_kept
        exact h5
      · exact h5
  clear_value x7
  extract_lets -underBinder -merge +onlyGivenNames x9
  have h10 : Kept q x9 := by
    unfold x9
    apply State.condition_kept
    exact h8
  clear_value x9
  refine ite_kept ?_ ?_
  · apply State.orderlyStop_kept
    apply State.raise_kept
    exact h10
  · exact h10

theorem State.dieUpdate_kept {q : List Instr} {s : State} (h : Kept q s) (a1) (a2) : Kept q (State.dieUpdate s a1 a2) := by
  unfold State.dieUpdate
  extract_lets -underBinder -merge +onlyGivenNames x0
  clear_value x0
  extract_lets -underBinder -merge +onlyGivenNames x1
  clear_value x1
  extract_lets -underBinder -merge +onlyGivenNames x2
  clear_value x2
  extract_lets -underBinder -merge +onlyGivenNames x3
  clear_value x3
  extract_lets -underBinder -merge +onlyGivenNames x4
  clear_value x4
  extract_lets -underBinder -merge +onlyGivenNames x5
  clear_value x5
  extract_lets -underBinder -merge +onlyGivenNames x6
  have h7 : Kept q x6 := by
    unfold x6
    apply State.setPw_kept
    apply State.sensorStore_kept
    exact h
  clear_value x6
  extract_lets -underBinder -merge +onlyGivenNames x8
  have h9 : Kept q x8 := by
    unfold x8
    apply State.setF_kept
    exact h7
  clear_value x8
  extract_lets -underBinder -merge +onlyGivenNames x10
  have h11 : Kept q x10 := by
    unfold x10
    refine ite_kept ?_ ?_
    · apply State.sensorFail_kept
      exact h9
    · exact h9
  clear_value x10
  extract_lets -underBinder -merge +onlyGivenNames x12
  have h13 : Kept q x12 := by
    unfold x12
    apply State.dieThresholds_kept
    exact h11
  clear_value x12
  extract_lets -underBinder -merge +onlyGivenNames x14
  clear_value x14
  extract_lets -underBinder -merge +onlyGivenNames x15
  have h16 : Kept q x15 := by
    unfold x15
    refine ite_kept ?_ ?_
    · apply State.rateEvent_kept
      exact h13
    · exact h13
  clear_value x15
  extract_lets -underBinder -merge +onlyGivenNames x17
  have h18 : Kept q x17 := by
    unfold x17
    refine ite_kept ?_ ?_
    · apply State.baskAdd_kept
      exact h16
    · refine ite_kept ?_ ?_
      · apply State.baskAdd_kept
        exact h16
      · exact h16
  clear_value x17
  apply State.baskEval_kept
  exact h18

theorem State.sensorUpdate_kept {q : List Instr} {s : State} (h : Kept q s) (a1) (a2) (a3) : Kept q (State.sensorUpdate s a1 a2 a3) := by
  unfold State.sensorUpdate
  refine ite_kept ?_ ?_
  · apply State.dieUpdate_kept
    exact h
  · refine ite_kept ?_ ?_
    · apply State.baskEval_kept
      apply State.stackTemp_kept
      exact h
    · refine ite_kept ?_ ?_
      · extract_lets -underBinder -merge +onlyGivenNames x0
        have h1 : Kept q x0.1 := by
          unfold x0
          apply State.leSensor_kept
          exact h
        clear_value x0
        apply State.baskEval_kept
        apply State.leTemp_kept
        apply State.sensorStore_kept
        exact h1
      · refine ite_kept ?_ ?_
        · extract_lets -underBinder -merge +onlyGivenNames x2
          clear_value x2
          apply State.condition_kept
          apply State.sensorStore_kept
          exact h
        · apply State.sensorStore_kept
          exact h

theorem State.sensorStale_kept {q : List Instr} {s : State} (h : Kept q s) (a1) : Kept q (State.sensorStale s a1) := by
  unfold State.sensorStale
  refine ite_kept ?_ ?_
  · apply State.dieThresholds_kept
    apply State.sensorFail_kept
    exact h
  · exact h

theorem State.resetNLow_kept {q : List Instr} {s : State} (h : Kept q s) : Kept q (State.resetNLow s) := by
  unfold State.resetNLow
  apply State.moduleReset_kept
  refine kept_mk ?_
  exact h

theorem State.resetNHigh_kept {q : List Instr} {s : State} (h : Kept q s) : Kept q (State.resetNHigh s) := by
  unfold State.resetNHigh
  refine kept_mk ?_
  exact h

theorem State.setD2dCls_kept {q : List Instr} {s : State} (h : Kept q s) (a1) (a2) (a3) (a4) : Kept q (State.setD2dCls s a1 a2 a3 a4) := by
  unfold State.setD2dCls
  refine kept_mk ?_
  exact h

theorem State.setD2dDir_kept {q : List Instr} {s : State} (h : Kept q s) (a1) (a2) (a3) : Kept q (State.setD2dDir s a1 a2 a3) := by
  unfold State.setD2dDir
  refine kept_mk ?_
  exact h

theorem State.setEdge_kept {q : List Instr} {s : State} (h : Kept q s) (a1) (a2) : Kept q (State.setEdge s a1 a2) := by
  unfold State.setEdge
  refine kept_mk ?_
  exact h

theorem State.countEdge_kept {q : List Instr} {s : State} (h : Kept q s) (a1) : Kept q (State.countEdge s a1) := by
  unfold State.countEdge
  extract_lets -underBinder -merge +onlyGivenNames x0
  clear_value x0
  apply State.setF_kept
  apply State.setF_kept
  exact h

theorem State.countCru_kept {q : List Instr} {s : State} (h : Kept q s) (a1) : Kept q (State.countCru s a1) := by
  unfold State.countCru
  extract_lets -underBinder -merge +onlyGivenNames x0
  clear_value x0
  extract_lets -underBinder -merge +onlyGivenNames x1
  have h2 : Kept q x1 := by
    unfold x1
    apply State.setF_kept
    apply State.setF_kept
    exact h
  clear_value x1
  refine ite_kept ?_ ?_
  · apply State.raiseLevel_kept
    apply State.setF_kept
    exact h2
  · apply State.lowerLevel_kept
    apply State.setF_kept
    exact h2

theorem State.edgeCheck_kept {q : List Instr} {s : State} (h : Kept q s) (a1) : Kept q (State.edgeCheck s a1) := by
  unfold State.edgeCheck
  refine ite_kept ?_ ?_
  · apply State.raiseLevel_kept
    exact h
  · refine ite_kept ?_ ?_
    · exact h
    · apply State.lowerLevel_kept
      exact h

theorem State.setSlice_kept {q : List Instr} {s : State} (h : Kept q s) (a1) (a2) (a3) : Kept q (State.setSlice s a1 a2 a3) := by
  unfold State.setSlice
  refine ite_kept ?_ ?_
  · apply State.edgeCheck_kept
    apply State.countEdge_kept
    apply State.setF_kept
    exact h
  · extract_lets -underBinder -merge +onlyGivenNames x0
    clear_value x0
    apply State.countCru_kept
    refine kept_mk ?_
    exact h

theorem State.d2dResend_kept {q : List Instr} {s : State} (h : Kept q s) (a1) (a2) (a3) (a4) : Kept q (State.d2dResend s a1 a2 a3 a4) := by
  unfold State.d2dResend
  extract_lets -underBinder -merge +onlyGivenNames x0
  clear_value x0
  refine ite_kept ?_ ?_
  · extract_lets -underBinder -merge +onlyGivenNames x1
    clear_value x1
    apply State.setD2dDir_kept
    exact h
  · refine foldS_kept _ ?_ ?_
    · exact h
    · intro x2
      intro x3 x4
      extract_lets -underBinder -merge +onlyGivenNames x5
      clear_value x5
      extract_lets -underBinder -merge +onlyGivenNames x6
      clear_value x6
      split
      · exact x4
      · apply State.send_kept
        apply State.setD2dCls_kept
        exact x4

theorem State.flushDue_kept {q : List Instr} {s : State} (h : Kept q s) (a1) : Kept q (State.flushDue s a1) := by
  unfold State.flushDue
  refine ite_kept ?_ ?_
  · exact h
  · refine foldS_kept _ ?_ ?_
    · exact h
    · intro x0
      intro x1 x2
      extract_lets -underBinder -merge +onlyGivenNames x3
      clear_value x3
      extract_lets -underBinder -merge +onlyGivenNames x4
      have h5 : Kept q x4 := by
        unfold x4
        apply State.setD2dDir_kept
        exact x2
      clear_value x4
      refine foldS_kept _ ?_ ?_
      · exact h5
      · intro x6
        intro x7 x8
        extract_lets -underBinder -merge +onlyGivenNames x9
        clear_value x9
        split
        · exact x8
        · refine ite_kept ?_ ?_
          · apply State.setD2dDir_kept
            exact x8
          · apply State.d2dResend_kept
            exact x8

theorem State.removeSlice_kept {q : List Instr} {s : State} (h : Kept q s) (a1) (a2) (a3) : Kept q (State.removeSlice s a1 a2 a3) := by
  unfold State.removeSlice
  extract_lets -underBinder -merge +onlyGivenNames x0
  clear_value x0
  extract_lets -underBinder -merge +onlyGivenNames x1
  have h2 : Kept q x1 := by
    unfold x1
    apply State.setSlice_kept
    exact h
  clear_value x1
  extract_lets -underBinder -merge +onlyGivenNames x3
  have h4 : Kept q x3 := by
    unfold x3
    refine ite_kept ?_ ?_
    · apply State.raise_kept
      apply State.bump_kept
      apply State.setF_kept
      exact h2
    · exact h2
  clear_value x3
  extract_lets -underBinder -merge +onlyGivenNames x5
  clear_value x5
  extract_lets -underBinder -merge +onlyGivenNames x6
  have h7 : Kept q x6 := by
    unfold x6
    apply State.setEdge_kept
    exact h4
  clear_value x6
  apply State.d2dResend_kept
  apply State.send_kept
  exact h7

theorem State.crcFail_kept {q : List Instr} {s : State} (h : Kept q s) (a1) (a2) (a3) : Kept q (State.crcFail s a1 a2 a3) := by
  unfold State.crcFail
  extract_lets -underBinder -merge +onlyGivenNames x0
  clear_value x0
  extract_lets -underBinder -merge +onlyGivenNames x1
  have h2 : Kept q x1 := by
    unfold x1
    refine ite_kept ?_ ?_
    · apply State.bump_kept
      apply State.bump_kept
      exact h
    · apply State.bump_kept
      exact h
  clear_value x1
  extract_lets -underBinder -merge +onlyGivenNames x3
  clear_value x3
  extract_lets -underBinder -merge +onlyGivenNames x4
  clear_value x4
  extract_lets -underBinder -merge +onlyGivenNames x5
  have h6 : Kept q x5 := by
    unfold x5
    apply State.setEdge_kept
    exact h2
  clear_value x5
  refine ite_kept ?_ ?_
  · apply State.removeSlice_kept
    exact h6
  · exact h6

theorem State.deliver_kept {q : List Instr} {s : State} (h : Kept q s) (l dir c n) : Kept q (State.deliver s l dir c n) := by
  induction n generalizing s with
  | zero => exact h
  | succ n ih =>
    unfold State.deliver
    dsimp only
    split
    · exact h
    · exact ih (State.send_kept (State.setD2dCls_kept h _ _ _ _) _)

theorem State.frameIn_kept {q : List Instr} {s : State} (h : Kept q s) (a1) (a2) (a3) (a4) (a5) (a6) : Kept q (State.frameIn s a1 a2 a3 a4 a5 a6) := by
  unfold State.frameIn
  extract_lets -underBinder -merge +onlyGivenNames x0
  clear_value x0
  refine ite_kept ?_ ?_
  · apply State.deliver_kept
    apply State.setD2dCls_kept
    exact h
  · exact h

theorem State.drainRx_kept {q : List Instr} {s : State} (h : Kept q s) (a1) (a2) : Kept q (State.drainRx s a1 a2) := by
  unfold State.drainRx
  refine ite_kept ?_ ?_
  · exact h
  · extract_lets -underBinder -merge +onlyGivenNames x0
    clear_value x0
    extract_lets -underBinder -merge +onlyGivenNames x1
    have h2 : Kept q x1 := by
      unfold x1
      apply State.setD2dDir_kept
      exact h
    clear_value x1
    refine foldS_kept _ ?_ ?_
    · exact h2
    · intro x3
      intro x4 x5
      refine foldS_kept _ ?_ ?_
      · exact x5
      · intro x6
        intro x7 x8
        apply State.frameIn_kept
        exact x8

theorem State.sendControl_kept {q : List Instr} {s : State} (h : Kept q s) (a1) (a2) : Kept q (State.sendControl s a1 a2) := by
  unfold State.sendControl
  extract_lets -underBinder -merge +onlyGivenNames x0
  clear_value x0
  extract_lets -underBinder -merge +onlyGivenNames x1
  clear_value x1
  apply State.send_kept
  exact h

theorem State.frameAccept_kept {q : List Instr} {s : State} (h : Kept q s) (a1) (a2) (a3) (a4) (a5) (a6) : Kept q (State.frameAccept s a1 a2 a3 a4 a5 a6) := by
  unfold State.frameAccept
  extract_lets -underBinder -merge +onlyGivenNames x0
  clear_value x0
  extract_lets -underBinder -merge +onlyGivenNames x1
  have h2 : Kept q x1 := by
    unfold x1
    refine ite_kept ?_ ?_
    · apply State.setD2dDir_kept
      exact h
    · apply State.frameIn_kept
      exact h
  clear_value x1
  apply State.sendControl_kept
  exact h2

theorem State.injFrame_kept {q : List Instr} {s : State} (h : Kept q s) (a1) (a2) : Kept q (State.injFrame s a1 a2).2 := by
  unfold State.injFrame
  refine ite_kept2 ?_ ?_
  · refine snd_mk ?_
    exact h
  · refine ite_kept2 ?_ ?_
    · refine snd_mk ?_
      extract_lets -underBinder -merge +onlyGivenNames x0
      have h1 : Kept q x0 := by
        unfold x0
        apply State.injFire_kept
        exact h
      clear_value x0
      refine kept_mk ?_
      exact h1
    · refine ite_kept2 ?_ ?_
      · refine snd_mk ?_
        refine kept_mk ?_
        exact h
      · refine snd_mk ?_
        exact h

theorem State.frameFails_kept {q : List Instr} {s : State} (h : Kept q s) (a1) (a2) (a3) (a4) : Kept q (State.frameFails s a1 a2 a3 a4) := by
  unfold State.frameFails
  apply State.crcFail_kept
  apply State.send_kept
  exact h

theorem State.dataFrame_kept {q : List Instr} {s : State} (h : Kept q s) (a1) (a2) (a3) (a4) (a5) (a6) (a7) : Kept q (State.dataFrame s a1 a2 a3 a4 a5 a6 a7) := by
  unfold State.dataFrame
  extract_lets -underBinder -merge +onlyGivenNames x0
  clear_value x0
  extract_lets -underBinder -merge +onlyGivenNames x1
  clear_value x1
  extract_lets -underBinder -merge +onlyGivenNames x2
  clear_value x2
  extract_lets -underBinder -merge +onlyGivenNames x3
  refine ite_kept ?_ ?_
  · exact h
  · refine ite_kept ?_ ?_
    · unfold x3
      extract_lets -underBinder -merge +onlyGivenNames x4
      have h5 : Kept q x4.2 := by
        unfold x4
        apply State.injFrame_kept
        apply State.setD2dCls_kept
        exact h
      clear_value x4
      extract_lets -underBinder -merge +onlyGivenNames x6
      clear_value x6
      extract_lets -underBinder -merge +onlyGivenNames x7
      clear_value x7
      refine ite_kept ?_ ?_
      · apply State.frameFails_kept
        exact h5
      · apply State.frameAccept_kept
        exact h5
    · split
      · unfold x3
        extract_lets -underBinder -merge +onlyGivenNames x8
        have h9 : Kept q x8.2 := by
          unfold x8
          apply State.injFrame_kept
          apply State.setD2dCls_kept
          apply State.setD2dDir_kept
          exact h
        clear_value x8
        extract_lets -underBinder -merge +onlyGivenNames x10
        clear_value x10
        extract_lets -underBinder -merge +onlyGivenNames x11
        clear_value x11
        refine ite_kept ?_ ?_
        · apply State.frameFails_kept
          exact h9
        · apply State.frameAccept_kept
          exact h9
      · refine ite_kept ?_ ?_
        · apply State.send_kept
          exact h
        · exact h

theorem State.frameReceive_kept {q : List Instr} {s : State} (h : Kept q s) (a1) (a2) (a3) (a4) (a5) (a6) (a7) : Kept q (State.frameReceive s a1 a2 a3 a4 a5 a6 a7) := by
  unfold State.frameReceive
  refine ite_kept ?_ ?_
  · exact h
  · extract_lets -underBinder -merge +onlyGivenNames x0
    have h1 : Kept q x0 := by
      unfold x0
      apply State.drainRx_kept
      exact h
    clear_value x0
    refine ite_kept ?_ ?_
    · refine ite_kept ?_ ?_
      · apply State.frameFails_kept
        exact h1
      · apply State.dataFrame_kept
        exact h1
    · extract_lets -underBinder -merge +onlyGivenNames x2
      clear_value x2
      refine ite_kept ?_ ?_
      · apply State.frameFails_kept
        exact h1
      · exact h1

theorem State.nakReceive_kept {q : List Instr} {s : State} (h : Kept q s) (a1) (a2) (a3) (a4) : Kept q (State.nakReceive s a1 a2 a3 a4) := by
  unfold State.nakReceive
  split
  · exact h
  · apply State.d2dResend_kept
    exact h

theorem State.linkControl_kept {q : List Instr} {s : State} (h : Kept q s) (a1) (a2) (a3) (a4) : Kept q (State.linkControl s a1 a2 a3 a4) := by
  unfold State.linkControl
  refine foldS_kept _ ?_ ?_
  · exact h
  · intro x0
    intro x1 x2
    extract_lets -underBinder -merge +onlyGivenNames x3
    clear_value x3
    split
    · exact x2
    · refine ite_kept ?_ ?_
      · apply State.setD2dCls_kept
        exact x2
      · exact x2

theorem State.sliceTrained_kept {q : List Instr} {s : State} (h : Kept q s) (a1) (a2) (a3) (a4) : Kept q (State.sliceTrained s a1 a2 a3 a4) := by
  unfold State.sliceTrained
  extract_lets -underBinder -merge +onlyGivenNames x0
  have h1 : Kept q x0 := by
    unfold x0
    apply State.setF_kept
    exact h
  clear_value x0
  extract_lets -underBinder -merge +onlyGivenNames x2
  have h3 : Kept q x2 := by
    unfold x2
    apply State.setF_kept
    exact h1
  clear_value x2
  extract_lets -underBinder -merge +onlyGivenNames x4
  have h5 : Kept q x4 := by
    unfold x4
    apply State.setF_kept
    exact h3
  clear_value x4
  extract_lets -underBinder -merge +onlyGivenNames x6
  have h7 : Kept q x6 := by
    unfold x6
    apply State.setF_kept
    exact h5
  clear_value x6
  split
  · apply State.setF_kept
    exact h7
  · exact h7

theorem State.edgeTrained_kept {q : List Instr} {s : State} (h : Kept q s) (a1) (a2) (a3) (a4) : Kept q (State.edgeTrained s a1 a2 a3 a4) := by
  unfold State.edgeTrained
  apply State.countEdge_kept
  refine foldS_kept _ ?_ ?_
  · exact h
  · intro x0
    intro x1 x2
    refine ite_kept ?_ ?_
    · exact x2
    · apply State.sliceTrained_kept
      apply State.setF_kept
      exact x2

theorem State.edgeFailed_kept {q : List Instr} {s : State} (h : Kept q s) (a1) : Kept q (State.edgeFailed s a1) := by
  unfold State.edgeFailed
  apply State.raiseLevel_kept
  apply State.setF_kept
  exact h

theorem State.trainFailed_kept {q : List Instr} {s : State} (h : Kept q s) (a1) : Kept q (State.trainFailed s a1) := by
  unfold State.trainFailed
  extract_lets -underBinder -merge +onlyGivenNames x0
  have h1 : Kept q x0 := by
    unfold x0
    apply State.setF_kept
    exact h
  clear_value x0
  refine ite_kept ?_ ?_
  · apply State.raise_kept
    apply State.setF_kept
    apply State.setF_kept
    exact h1
  · apply State.edgeFailed_kept
    exact h1

theorem State.trainEnds_kept {q : List Instr} {s : State} (h : Kept q s) (a1) (a2) : Kept q (State.trainEnds s a1 a2) := by
  unfold State.trainEnds
  extract_lets -underBinder -merge +onlyGivenNames x0
  clear_value x0
  extract_lets -underBinder -merge +onlyGivenNames x1
  have h2 : Kept q x1 := by
    unfold x1
    split
    · apply State.edgeCheck_kept
      apply State.setF_kept
      exact h
    · refine ite_kept ?_ ?_
      · apply State.trainFailed_kept
        exact h
      · extract_lets -underBinder -merge +onlyGivenNames x3
        have h4 : Kept q x3 := by
          unfold x3
          apply State.edgeTrained_kept
          exact h
        clear_value x3
        refine ite_kept ?_ ?_
        · apply State.edgeFailed_kept
          apply State.setF_kept
          exact h4
        · apply State.edgeCheck_kept
          apply State.setF_kept
          exact h4
  clear_value x1
  apply State.flushDue_kept
  exact h2

theorem State.d2dSwitch_kept {q : List Instr} {s : State} (h : Kept q s) (a1) : Kept q (State.d2dSwitch s a1) := by
  unfold State.d2dSwitch
  extract_lets -underBinder -merge +onlyGivenNames x0
  clear_value x0
  extract_lets -underBinder -merge +onlyGivenNames x1
  clear_value x1
  refine ite_kept ?_ ?_
  · apply State.setF_kept
    exact h
  · refine ite_kept ?_ ?_
    · exact h
    · apply State.setF_kept
      apply State.setEdge_kept
      exact h

theorem State.modeDone_kept {q : List Instr} {s : State} (h : Kept q s) (a1) (a2) : Kept q (State.modeDone s a1 a2) := by
  unfold State.modeDone
  extract_lets -underBinder -merge +onlyGivenNames x0
  clear_value x0
  refine ite_kept ?_ ?_
  · exact h
  · refine ite_kept ?_ ?_
    · apply State.trainEnds_kept
      exact h
    · apply State.flushDue_kept
      apply State.setF_kept
      exact h

theorem State.lockLoss_kept {q : List Instr} {s : State} (h : Kept q s) (a1) : Kept q (State.lockLoss s a1) := by
  unfold State.lockLoss
  refine ite_kept ?_ ?_
  · exact h
  · extract_lets -underBinder -merge +onlyGivenNames x0
    clear_value x0
    extract_lets -underBinder -merge +onlyGivenNames x1
    have h2 : Kept q x1 := by
      unfold x1
      apply State.setF_kept
      apply State.setEdge_kept
      exact h
    clear_value x1
    apply State.bump_kept
    exact h2

theorem State.edgeRetrained_kept {q : List Instr} {s : State} (h : Kept q s) (a1) (a2) : Kept q (State.edgeRetrained s a1 a2) := by
  unfold State.edgeRetrained
  extract_lets -underBinder -merge +onlyGivenNames x0
  clear_value x0
  refine ite_kept ?_ ?_
  · exact h
  · apply State.trainEnds_kept
    apply State.setEdge_kept
    exact h

theorem State.sliceRetrained_kept {q : List Instr} {s : State} (h : Kept q s) (a1) (a2) (a3) (a4) (a5) : Kept q (State.sliceRetrained s a1 a2 a3 a4 a5) := by
  unfold State.sliceRetrained
  extract_lets -underBinder -merge +onlyGivenNames x0
  clear_value x0
  refine ite_kept ?_ ?_
  · exact h
  · extract_lets -underBinder -merge +onlyGivenNames x1
    have h2 : Kept q x1 := by
      unfold x1
      apply State.setEdge_kept
      exact h
    clear_value x1
    refine ite_kept ?_ ?_
    · refine ite_kept ?_ ?_
      · apply State.setF_kept
        exact h2
      · exact h2
    · extract_lets -underBinder -merge +onlyGivenNames x3
      have h4 : Kept q x3 := by
        unfold x3
        refine ite_kept ?_ ?_
        · apply State.sliceTrained_kept
          exact h2
        · apply State.bump_kept
          exact h2
      clear_value x3
      apply State.flushDue_kept
      apply State.setSlice_kept
      exact h4

theorem State.edgeReset_kept {q : List Instr} {s : State} (h : Kept q s) (a1) : Kept q (State.edgeReset s a1) := by
  unfold State.edgeReset
  extract_lets -underBinder -merge +onlyGivenNames x0
  clear_value x0
  extract_lets -underBinder -merge +onlyGivenNames x1
  refine ite_kept ?_ ?_
  · apply State.flushDue_kept
    apply State.setF_kept
    apply State.setEdge_kept
    exact h
  · refine ite_kept ?_ ?_
    · apply State.setF_kept
      apply State.setEdge_kept
      exact h
    · apply State.flushDue_kept
      apply State.setF_kept
      exact h

theorem State.bootFailFree_kept {q : List Instr} {s : State} (h : Kept q s) : Kept q (State.bootFailFree s) := by
  unfold State.bootFailFree
  extract_lets -underBinder -merge +onlyGivenNames x0
  have h1 : Kept q x0.2 := by
    unfold x0
    apply State.draw_kept
    exact h
  clear_value x0
  apply State.bootFail_kept
  exact h1

theorem State.bootRom_kept {q : List Instr} {s : State} (h : Kept q s) (a1) : Kept q (State.bootRom s a1) := by
  unfold State.bootRom
  refine ite_kept ?_ ?_
  · exact h
  · refine ite_kept ?_ ?_
    · apply State.bootFail_kept
      exact h
    · refine ite_kept ?_ ?_
      · apply State.bootFail_kept
        exact h
      · extract_lets -underBinder -merge +onlyGivenNames x0
        clear_value x0
        extract_lets -underBinder -merge +onlyGivenNames x1
        have h2 : Kept q x1.2 := by
          unfold x1
          apply State.bootImage_kept
          exact h
        clear_value x1
        split
        · apply State.bootFail_kept
          exact h2
        · extract_lets -underBinder -merge +onlyGivenNames x3
          have h4 : Kept q x3 := by
            unfold x3
            exact h2
          clear_value x3
          extract_lets -underBinder -merge +onlyGivenNames x5
          clear_value x5
          extract_lets -underBinder -merge +onlyGivenNames x6
          clear_value x6
          extract_lets -underBinder -merge +onlyGivenNames x7
          have h8 : Kept q x7 := by
            unfold x7
            apply State.setSec_kept
            exact h4
          clear_value x7
          extract_lets -underBinder -merge +onlyGivenNames x9
          have h10 : Kept q x9 := by
            unfold x9
            refine foldS_kept _ ?_ ?_
            · apply State.rootStat_kept
              exact h8
            · intro x11
              intro x12 x13
              apply State.imgStat_kept
              exact x13
          clear_value x9
          extract_lets -underBinder -merge +onlyGivenNames x14
          have h15 : Kept q x14 := by
            unfold x14
            refine ite_kept ?_ ?_
            · apply State.setF_kept
              apply State.setF_kept
              exact h10
            · exact h10
          clear_value x14
          apply State.setStage_kept
          apply State.newChallenge_kept
          exact h15

theorem State.bootFuse_kept {q : List Instr} {s : State} (h : Kept q s) : Kept q (State.bootFuse s) := by
  unfold State.bootFuse
  refine ite_kept ?_ ?_
  · exact h
  · apply State.setStage_kept
    apply State.rootStat_kept
    apply State.fuseStat_kept
    apply State.loadFuses_kept
    apply State.setF_kept
    exact h

theorem State.bootLinks_kept {q : List Instr} {s : State} (h : Kept q s) (a1) (a2) : Kept q (State.bootLinks s a1 a2) := by
  unfold State.bootLinks
  extract_lets -underBinder -merge +onlyGivenNames x0
  clear_value x0
  extract_lets -underBinder -merge +onlyGivenNames x1
  have h2 : Kept q x1 := by
    unfold x1
    refine kept_mk ?_
    exact h
  clear_value x1
  extract_lets -underBinder -merge +onlyGivenNames x3
  have h4 : Kept q x3 := by
    unfold x3
    refine foldS_kept _ ?_ ?_
    · exact h2
    · intro x5
      intro x6 x7
      apply State.countCru_kept
      apply State.setF_kept
      exact x7
  clear_value x3
  refine ite_kept ?_ ?_
  · apply State.bootFailFree_kept
    exact h4
  · extract_lets -underBinder -merge +onlyGivenNames x8
    have h9 : Kept q x8 := by
      unfold x8
      apply State.loadFuses_kept
      apply State.setF_kept
      exact h4
    clear_value x8
    extract_lets -underBinder -merge +onlyGivenNames x10
    have h11 : Kept q x10 := by
      unfold x10
      refine ite_kept ?_ ?_
      · exact h9
      · refine kept_mk ?_
        exact h9
    clear_value x10
    extract_lets -underBinder -merge +onlyGivenNames x12
    have h13 : Kept q x12.2 := by
      unfold x12
      apply State.bootImage_kept
      exact h11
    clear_value x12
    extract_lets -underBinder -merge +onlyGivenNames x14
    have h15 : Kept q x14 := by
      unfold x14
      exact h13
    clear_value x14
    extract_lets -underBinder -merge +onlyGivenNames x16
    clear_value x16
    extract_lets -underBinder -merge +onlyGivenNames x17
    have h18 : Kept q x17 := by
      unfold x17
      refine kept_mk ?_
      exact h15
    clear_value x17
    extract_lets -underBinder -merge +onlyGivenNames x19
    have h20 : Kept q x19 := by
      unfold x19
      refine foldS_kept _ ?_ ?_
      · exact h18
      · intro x21
        intro x22 x23
        apply State.engineStart_kept
        exact x23
    clear_value x19
    apply State.baskEval_kept
    apply State.setStage_kept
    exact h20

theorem State.bootEdge_kept {q : List Instr} {s : State} (h : Kept q s) (a1) (a2) : Kept q (State.bootEdge s a1 a2).1 := by
  unfold State.bootEdge
  extract_lets -underBinder -merge +onlyGivenNames x0
  clear_value x0
  extract_lets -underBinder -merge +onlyGivenNames x1
  have h2 : Kept q x1 := by
    unfold x1
    apply State.edgeTrained_kept
    exact h
  clear_value x1
  refine ite_kept1 ?_ ?_
  · refine fst_mk ?_
    apply State.setF_kept
    exact h2
  · refine ite_kept1 ?_ ?_
    · refine fst_mk ?_
      apply State.setF_kept
      exact h2
    · refine ite_kept1 ?_ ?_
      · refine fst_mk ?_
        apply State.setF_kept
        exact h2
      · refine ite_kept1 ?_ ?_
        · refine fst_mk ?_
          apply State.trainFailed_kept
          exact h2
        · refine fst_mk ?_
          apply State.setF_kept
          exact h2

theorem State.bootEdges_kept {q : List Instr} {s : State} (h : Kept q s) (a1) : Kept q (State.bootEdges s a1) := by
  unfold State.bootEdges
  extract_lets -underBinder -merge +onlyGivenNames x0
  have h1 : Kept q x0.1 := by
    unfold x0
    refine foldS1_kept _ ?_ ?_
    · refine fst_mk ?_
      exact h
    · intro x2
      intro x3 x4
      extract_lets -underBinder -merge +onlyGivenNames x5
      have h6 : Kept q x5.1 := by
        unfold x5
        apply State.bootEdge_kept
        exact x4
      clear_value x5
      refine fst_mk ?_
      exact h6
  clear_value x0
  refine ite_kept ?_ ?_
  · apply State.setStage_kept
    exact h1
  · apply State.bootFailFree_kept
    exact h1

theorem State.admitStack_kept {q : List Instr} {s : State} (h : Kept q s) (k) : Kept q (State.admitStack s k) := by
  unfold State.admitStack
  have hp := h.2.1
  have hr := ring_le h
  have hl := log_le h
  dsimp only
  refine State.setF_kept ?_ _ _ _ _
  refine State.setF_kept ?_ _ _ _ _
  exact kept_of (cellsZero_wf _ _ _ h.1) hp hr hl fun x hx => h.2.2.2.2 x (List.mem_filter.mp hx).1

theorem State.memoryNext_kept {q : List Instr} {s : State} (h : Kept q s) : Kept q (State.memoryNext s) := by
  unfold State.memoryNext
  refine ite_kept ?_ ?_
  · apply State.setStage_kept
    exact h
  · exact h

theorem State.bootMemory_kept {q : List Instr} {s : State} (h : Kept q s) (a1) : Kept q (State.bootMemory s a1) := by
  unfold State.bootMemory
  refine ite_kept ?_ ?_
  · exact h
  · extract_lets -underBinder -merge +onlyGivenNames x0
    have h1 : Kept q x0.2 := by
      unfold x0
      apply State.bootImage_kept
      exact h
    clear_value x0
    extract_lets -underBinder -merge +onlyGivenNames x2
    have h3 : Kept q x2 := by
      unfold x2
      exact h1
    clear_value x2
    extract_lets -underBinder -merge +onlyGivenNames x4
    clear_value x4
    extract_lets -underBinder -merge +onlyGivenNames x5
    have h6 : Kept q x5 := by
      unfold x5
      refine foldS_kept _ ?_ ?_
      · exact h3
      · intro x7
        intro x8 x9
        refine ite_kept ?_ ?_
        · exact x9
        · extract_lets -underBinder -merge +onlyGivenNames x10
          clear_value x10
          extract_lets -underBinder -merge +onlyGivenNames x11
          clear_value x11
          extract_lets -underBinder -merge +onlyGivenNames x12
          have h13 : Kept q x12 := by
            unfold x12
            apply State.setF_kept
            exact x9
          clear_value x12
          extract_lets -underBinder -merge +onlyGivenNames x14
          have h15 : Kept q x14 := by
            unfold x14
            apply State.setF_kept
            exact h13
          clear_value x14
          extract_lets -underBinder -merge +onlyGivenNames x16
          clear_value x16
          extract_lets -underBinder -merge +onlyGivenNames x17
          have h18 : Kept q x17 := by
            unfold x17
            refine ite_kept ?_ ?_
            · exact h15
            · apply State.setF_kept
              exact h15
          clear_value x17
          extract_lets -underBinder -merge +onlyGivenNames x19
          have h20 : Kept q x19 := by
            unfold x19
            refine ite_kept ?_ ?_
            · exact h18
            · apply State.setF_kept
              exact h18
          clear_value x19
          refine ite_kept ?_ ?_
          · apply State.admitStack_kept
            exact h20
          · refine ite_kept ?_ ?_
            · exact h20
            · apply State.setF_kept
              exact h20
    clear_value x5
    extract_lets -underBinder -merge +onlyGivenNames x21
    have h22 : Kept q x21 := by
      unfold x21
      refine foldS_kept _ ?_ ?_
      · exact h6
      · intro x23
        intro x24 x25
        extract_lets -underBinder -merge +onlyGivenNames x26
        have h27 : Kept q x26 := by
          unfold x26
          refine ite_kept ?_ ?_
          · apply State.setF_kept
            exact x25
          · exact x25
        clear_value x26
        refine ite_kept ?_ ?_
        · exact h27
        · apply State.raiseLevel_kept
          exact h27
    clear_value x21
    extract_lets -underBinder -merge +onlyGivenNames x28
    clear_value x28
    apply State.memoryNext_kept
    refine kept_mk ?_
    exact h22

theorem State.qualOverride_kept {q : List Instr} {s : State} (h : Kept q s) (a1) (a2) : Kept q (State.qualOverride s a1 a2) := by
  unfold State.qualOverride
  refine ite_kept ?_ ?_
  · refine ite_kept ?_ ?_
    · exact h
    · apply State.lcViolation_kept
      exact h
  · extract_lets -underBinder -merge +onlyGivenNames x0
    have h1 : Kept q x0 := by
      unfold x0
      apply State.setF_kept
      exact h
    clear_value x0
    extract_lets -underBinder -merge +onlyGivenNames x2
    clear_value x2
    refine ite_kept ?_ ?_
    · exact h1
    · extract_lets -underBinder -merge +onlyGivenNames x3
      have h4 : Kept q x3 := by
        unfold x3
        refine foldS_kept _ ?_ ?_
        · exact h1
        · intro x5
          intro x6 x7
          refine ite_kept ?_ ?_
          · apply State.admitStack_kept
            exact x7
          · exact x7
      clear_value x3
      refine ite_kept ?_ ?_
      · apply State.memoryNext_kept
        apply State.lowerLevel_kept
        exact h4
      · exact h4

theorem State.applySoft_kept {q : List Instr} {s : State} (h : Kept q s) (a1) (a2) : Kept q (State.applySoft s a1 a2) := by
  unfold State.applySoft
  refine foldS_kept _ ?_ ?_
  · exact h
  · intro x0
    intro x1 x2
    extract_lets -underBinder -merge +onlyGivenNames x3
    clear_value x3
    extract_lets -underBinder -merge +onlyGivenNames x4
    clear_value x4
    extract_lets -underBinder -merge +onlyGivenNames x5
    clear_value x5
    extract_lets -underBinder -merge +onlyGivenNames x6
    have h7 : Kept q x6 := by
      unfold x6
      apply State.setF_kept
      exact x2
    clear_value x6
    apply State.setF_kept
    exact h7

theorem State.swapWing_kept {q : List Instr} {s : State} (h : Kept q s) (a1) : Kept q (State.swapWing s a1) := by
  unfold State.swapWing
  refine ite_kept ?_ ?_
  · exact h
  · extract_lets -underBinder -merge +onlyGivenNames x0
    clear_value x0
    apply State.setF_kept
    apply State.setF_kept
    apply State.setF_kept
    exact h

theorem State.repairWing_kept {q : List Instr} {s : State} (h : Kept q s) (a1) (a2) : Kept q (State.repairWing s a1 a2) := by
  unfold State.repairWing
  extract_lets -underBinder -merge +onlyGivenNames x0
  clear_value x0
  extract_lets -underBinder -merge +onlyGivenNames x1
  have h2 : Kept q x1 := by
    unfold x1
    refine foldS_kept _ ?_ ?_
    · exact h
    · intro x3
      intro x4 x5
      apply State.bistReport_kept
      exact x5
  clear_value x1
  extract_lets -underBinder -merge +onlyGivenNames x6
  clear_value x6
  extract_lets -underBinder -merge +onlyGivenNames x7
  refine ite_kept ?_ ?_
  · extract_lets -underBinder -merge +onlyGivenNames x8
    have h9 : Kept q x8 := by
      unfold x8
      refine foldS_kept _ ?_ ?_
      · exact h2
      · intro x10
        intro x11 x12
        extract_lets -underBinder -merge +onlyGivenNames x13
        clear_value x13
        extract_lets -underBinder -merge +onlyGivenNames x14
        have h15 : Kept q x14 := by
          unfold x14
          refine foldS_kept _ ?_ ?_
          · exact x12
          · intro x16
            intro x17 x18
            apply State.setF_kept
            exact x18
        clear_value x14
        apply State.applySoft_kept
        exact h15
    clear_value x8
    unfold x7
    refine kept_mk ?_
    exact h9
  · refine ite_kept ?_ ?_
    · unfold x7
      refine kept_mk ?_
      exact h2
    · refine ite_kept ?_ ?_
      · unfold x7
        refine kept_mk ?_
        apply State.swapWing_kept
        exact h2
      · extract_lets -underBinder -merge +onlyGivenNames x19
        have h20 : Kept q x19 := by
          unfold x19
          apply State.setF_kept
          apply State.setWingState_kept
          exact h2
        clear_value x19
        refine kept_mk ?_
        exact h20

theorem State.bootWings_kept {q : List Instr} {s : State} (h : Kept q s) (a1) : Kept q (State.bootWings s a1) := by
  unfold State.bootWings
  extract_lets -underBinder -merge +onlyGivenNames x0
  clear_value x0
  extract_lets -underBinder -merge +onlyGivenNames x1
  have h2 : Kept q x1 := by
    unfold x1
    refine foldS_kept _ ?_ ?_
    · exact h
    · intro x3
      intro x4 x5
      apply State.wr_kept
      exact x5
  clear_value x1
  extract_lets -underBinder -merge +onlyGivenNames x6
  have h7 : Kept q x6 := by
    unfold x6
    refine ite_kept ?_ ?_
    · exact h
    · refine foldS_kept _ ?_ ?_
      · exact h2
      · intro x8
        intro x9 x10
        apply State.setF_kept
        exact x10
  clear_value x6
  extract_lets -underBinder -merge +onlyGivenNames x11
  have h12 : Kept q x11 := by
    unfold x11
    refine foldS_kept _ ?_ ?_
    · exact h7
    · intro x13
      intro x14 x15
      extract_lets -underBinder -merge +onlyGivenNames x16
      have h17 : Kept q x16 := by
        unfold x16
        refine ite_kept ?_ ?_
        · apply State.swapWing_kept
          exact x15
        · exact x15
      clear_value x16
      refine foldS_kept _ ?_ ?_
      · exact h17
      · intro x18
        intro x19 x20
        apply State.applySoft_kept
        exact x20
  clear_value x11
  extract_lets -underBinder -merge +onlyGivenNames x21
  clear_value x21
  extract_lets -underBinder -merge +onlyGivenNames x22
  have h23 : Kept q x22 := by
    unfold x22
    refine foldS_kept _ ?_ ?_
    · exact h12
    · intro x24
      intro x25 x26
      apply State.repairWing_kept
      exact x26
  clear_value x22
  extract_lets -underBinder -merge +onlyGivenNames x27
  clear_value x27
  extract_lets -underBinder -merge +onlyGivenNames x28
  clear_value x28
  apply State.setStage_kept
  refine kept_mk ?_
  exact h23

theorem State.fullDomain_kept {q : List Instr} {s : State} (h : Kept q s) (a1) (a2) : Kept q (State.fullDomain s a1 a2) := by
  unfold State.fullDomain
  extract_lets -underBinder -merge +onlyGivenNames x0
  have h1 : Kept q x0 := by
    unfold x0
    apply State.setF_kept
    apply State.setF_kept
    exact h
  clear_value x0
  extract_lets -underBinder -merge +onlyGivenNames x2
  clear_value x2
  extract_lets -underBinder -merge +onlyGivenNames x3
  have h4 : Kept q x3 := by
    unfold x3
    apply State.setDom_kept
    exact h1
  clear_value x3
  extract_lets -underBinder -merge +onlyGivenNames x5
  have h6 : Kept q x5 := by
    unfold x5
    apply State.setSlack_kept
    exact h4
  clear_value x5
  extract_lets -underBinder -merge +onlyGivenNames x7
  clear_value x7
  extract_lets -underBinder -merge +onlyGivenNames x8
  clear_value x8
  refine ite_kept ?_ ?_
  · apply State.exhaust_kept
    apply State.wearLog_kept
    exact h6
  · extract_lets -underBinder -merge +onlyGivenNames x9
    have h10 : Kept q x9 := by
      unfold x9
      apply State.setTap_kept
      apply State.setF_kept
      exact h6
    clear_value x9
    apply State.wearLog_kept
    apply State.reserveUsed_kept
    exact h10

theorem State.bootTemper_kept {q : List Instr} {s : State} (h : Kept q s) (a1) : Kept q (State.bootTemper s a1) := by
  unfold State.bootTemper
  refine ite_kept ?_ ?_
  · exact h
  · extract_lets -underBinder -merge +onlyGivenNames x0
    have h1 : Kept q x0 := by
      unfold x0
      refine foldS_kept _ ?_ ?_
      · exact h
      · intro x2
        intro x3 x4
        apply State.fullDomain_kept
        exact x4
    clear_value x0
    apply State.setStage_kept
    refine foldS_kept _ ?_ ?_
    · exact h1
    · intro x5
      intro x6 x7
      apply State.recomputeFloor_kept
      exact x7

theorem State.bootZero_kept {q : List Instr} {s : State} (h : Kept q s) : Kept q (State.bootZero s) := by
  unfold State.bootZero
  have hp := h.2.1
  have hr := ring_le h
  have hl := log_le h
  dsimp only
  refine State.setStage_kept ?_ _
  exact kept_of (cellsZero_wf _ _ _ h.1) hp hr hl fun x hx => h.2.2.2.2 x (List.mem_filter.mp hx).1

theorem State.bootCopy_kept {q : List Instr} {s : State} (h : Kept q s) (a1) : Kept q (State.bootCopy s a1) := by
  unfold State.bootCopy
  refine ite_kept ?_ ?_
  · exact h
  · extract_lets -underBinder -merge +onlyGivenNames x0
    have h1 : Kept q x0.2 := by
      unfold x0
      apply State.bootImage_kept
      exact h
    clear_value x0
    split
    · apply State.bootFail_kept
      exact h1
    · extract_lets -underBinder -merge +onlyGivenNames x2
      clear_value x2
      refine ite_kept ?_ ?_
      · apply State.bootFail_kept
        exact h1
      · extract_lets -underBinder -merge +onlyGivenNames x3
        have h4 : Kept q x3 := by
          unfold x3
          apply State.store_kept
          exact h1
        clear_value x3
        extract_lets -underBinder -merge +onlyGivenNames x5
        have h6 : Kept q x5 := by
          unfold x5
          apply State.setF_kept
          apply State.setF_kept
          exact h4
        clear_value x5
        apply State.setStage_kept
        refine kept_mk ?_
        exact h6

theorem State.bootDispatch_kept {q : List Instr} {s : State} (h : Kept q s) : Kept q (State.bootDispatch s) := by
  unfold State.bootDispatch
  extract_lets -underBinder -merge +onlyGivenNames x0
  have h1 : Kept q x0 := by
    unfold x0
    apply State.setF_kept
    exact h
  clear_value x0
  extract_lets -underBinder -merge +onlyGivenNames x2
  have h3 : Kept q x2 := by
    unfold x2
    refine foldS_kept _ ?_ ?_
    · exact h1
    · intro x4
      intro x5 x6
      refine ite_kept ?_ ?_
      · apply State.setWingState_kept
        exact x6
      · exact x6
  clear_value x2
  apply State.setStage_kept
  exact h3

theorem State.bootRelease_kept {q : List Instr} {s : State} (h : Kept q s) : Kept q (State.bootRelease s) := by
  unfold State.bootRelease
  apply State.bootReached_kept
  apply State.setStage_kept
  refine kept_mk ?_
  exact h

theorem State.bootAdvance_kept {q : List Instr} {s : State} (h : Kept q s) (a1) : Kept q (State.bootAdvance s a1) := by
  unfold State.bootAdvance
  refine ite_kept ?_ ?_
  · exact h
  · extract_lets -underBinder -merge +onlyGivenNames x0
    split
    · unfold x0
      refine ite_kept ?_ ?_
      · apply State.bootRom_kept
        exact h
      · exact h
    · unfold x0
      refine ite_kept ?_ ?_
      · apply State.bootFuse_kept
        exact h
      · exact h
    · unfold x0
      refine ite_kept ?_ ?_
      · apply State.bootLinks_kept
        exact h
      · exact h
    · unfold x0
      refine ite_kept ?_ ?_
      · apply State.bootEdges_kept
        exact h
      · exact h
    · unfold x0
      refine ite_kept ?_ ?_
      · refine ite_kept ?_ ?_
        · apply State.bootMemory_kept
          exact h
        · exact h
      · exact h
    · unfold x0
      refine ite_kept ?_ ?_
      · apply State.bootWings_kept
        exact h
      · exact h
    · unfold x0
      refine ite_kept ?_ ?_
      · apply State.bootTemper_kept
        exact h
      · exact h
    · unfold x0
      refine ite_kept ?_ ?_
      · apply State.bootZero_kept
        exact h
      · exact h
    · unfold x0
      refine ite_kept ?_ ?_
      · apply State.bootCopy_kept
        exact h
      · exact h
    · unfold x0
      refine ite_kept ?_ ?_
      · apply State.bootDispatch_kept
        exact h
      · exact h
    · unfold x0
      refine ite_kept ?_ ?_
      · apply State.bootRelease_kept
        exact h
      · exact h
    · refine ite_kept ?_ ?_
      · apply State.bootFailFree_kept
        exact h
      · exact h

theorem State.keelExpire_kept {q : List Instr} {s : State} (h : Kept q s) : Kept q (State.keelExpire s) := by
  unfold State.keelExpire
  refine ite_kept ?_ ?_
  · exact h
  · extract_lets -underBinder -merge +onlyGivenNames x0
    have h1 : Kept q x0 := by
      unfold x0
      apply State.refreshPins_kept
      apply State.raiseLevel_kept
      exact h
    clear_value x0
    refine ite_kept ?_ ?_
    · apply State.setStage_kept
      apply State.trialFails_kept
      exact h1
    · exact h1

theorem State.lifeChange_kept {q : List Instr} {s : State} (h : Kept q s) (a1) : Kept q (State.lifeChange s a1) := by
  unfold State.lifeChange
  extract_lets -underBinder -merge +onlyGivenNames x0
  have h1 : Kept q x0 := by
    unfold x0
    apply State.raise_kept
    apply State.setF_kept
    exact h
  clear_value x0
  extract_lets -underBinder -merge +onlyGivenNames x2
  clear_value x2
  extract_lets -underBinder -merge +onlyGivenNames x3
  have h4 : Kept q x3 := by
    unfold x3
    apply State.zeroise_kept
    apply State.setSec_kept
    exact h1
  clear_value x3
  extract_lets -underBinder -merge +onlyGivenNames x5
  have h6 : Kept q x5 := by
    unfold x5
    apply State.burn_kept
    exact h4
  clear_value x5
  apply State.resetPowerOn_kept
  apply State.setSec_kept
  exact h6

theorem State.factory_kept {q : List Instr} {s : State} (h : Kept q s) (a1) (a2) : Kept q (State.factory s a1 a2) := by
  unfold State.factory
  refine ite_kept ?_ ?_
  · exact h
  · extract_lets -underBinder -merge +onlyGivenNames x0
    clear_value x0
    apply State.lifeChange_kept
    apply State.setSec_kept
    exact h

theorem State.refclkLoss_kept {q : List Instr} {s : State} (h : Kept q s) : Kept q (State.refclkLoss s) := by
  unfold State.refclkLoss
  refine ite_kept ?_ ?_
  · exact h
  · extract_lets -underBinder -merge +onlyGivenNames x0
    clear_value x0
    extract_lets -underBinder -merge +onlyGivenNames x1
    have h2 : Kept q x1 := by
      unfold x1
      refine kept_mk ?_
      exact h
    refine ite_kept ?_ ?_
    · apply State.setF_kept
      exact h2
    · extract_lets -underBinder -merge +onlyGivenNames x3
      have h4 : Kept q x3 := by
        unfold x3
        refine foldS_kept _ ?_ ?_
        · exact h2
        · intro x5
          intro x6 x7
          extract_lets -underBinder -merge +onlyGivenNames x8
          clear_value x8
          refine ite_kept ?_ ?_
          · apply State.stackRetrain_kept
            exact x7
          · exact x7
      clear_value x3
      extract_lets -underBinder -merge +onlyGivenNames x9
      have h10 : Kept q x9 := by
        unfold x9
        refine foldS_kept _ ?_ ?_
        · exact h4
        · intro x11
          intro x12 x13
          apply State.lockLoss_kept
          exact x13
      clear_value x9
      apply State.setF_kept
      exact h10

theorem State.refclkReturn_kept {q : List Instr} {s : State} (h : Kept q s) : Kept q (State.refclkReturn s) := by
  unfold State.refclkReturn
  refine kept_mk ?_
  exact h

end Sys2Proof.Machine
end

