-- ==== Sys2Proof/Laws/KeptActs.lean ====
section
/-! SUPPORT. Every operation over the units, what follows by itself, deliveries, control space and management keeps `Kept`: the memory in canonical form, the bounds of the event ring and the log,
poison on sectors, and the queue. One lemma per operation, in the order of the files that define them. -/

namespace Sys2Proof.Machine

theorem State.endCmd_kept {q : List Instr} {s : State} (h : Kept q s) (a1) (a2) : Kept q (State.endCmd s a1 a2) := by
  unfold State.endCmd
  apply State.modCmd_kept
  exact h

theorem State.ladleRun_kept {q : List Instr} {s : State} (h : Kept q s) (a1) : Kept q (State.ladleRun s a1) := by
  unfold State.ladleRun
  extract_lets -underBinder -merge +onlyGivenNames x0
  clear_value x0
  refine ite_kept ?_ ?_
  · exact h
  · extract_lets -underBinder -merge +onlyGivenNames x1
    have h2 : Kept q x1.1 := by
      unfold x1
      apply State.claimIf_kept
      exact h
    clear_value x1
    refine ite_kept ?_ ?_
    · exact h2
    · apply State.endCmd_kept
      apply State.ladleOp_kept
      exact h2

theorem State.turnRun_kept {q : List Instr} {s : State} (h : Kept q s) (a1) : Kept q (State.turnRun s a1) := by
  unfold State.turnRun
  extract_lets -underBinder -merge +onlyGivenNames x0
  clear_value x0
  extract_lets -underBinder -merge +onlyGivenNames x1
  clear_value x1
  extract_lets -underBinder -merge +onlyGivenNames x2
  clear_value x2
  extract_lets -underBinder -merge +onlyGivenNames x3
  clear_value x3
  refine ite_kept ?_ ?_
  · refine ite_kept ?_ ?_
    · exact h
    · extract_lets -underBinder -merge +onlyGivenNames x4
      have h5 : Kept q x4.1 := by
        unfold x4
        apply State.claim_kept
        exact h
      clear_value x4
      refine ite_kept ?_ ?_
      · exact h5
      · extract_lets -underBinder -merge +onlyGivenNames x6
        have h7 : Kept q x6 := by
          unfold x6
          apply State.modCmd_kept
          exact h5
        clear_value x6
        apply State.turnCount_kept
        refine kept_mk ?_
        exact h7
  · refine ite_kept ?_ ?_
    · exact h
    · refine ite_kept ?_ ?_
      · extract_lets -underBinder -merge +onlyGivenNames x8
        clear_value x8
        extract_lets -underBinder -merge +onlyGivenNames x9
        have h10 : Kept q x9 := by
          unfold x9
          refine kept_mk ?_
          exact h
        clear_value x9
        apply State.endCmd_kept
        apply State.setF_kept
        apply State.setF_kept
        exact h10
      · extract_lets -underBinder -merge +onlyGivenNames x11
        clear_value x11
        extract_lets -underBinder -merge +onlyGivenNames x12
        have h13 : Kept q x12 := by
          unfold x12
          refine kept_mk ?_
          exact h
        clear_value x12
        apply State.endCmd_kept
        apply State.setF_kept
        apply State.setF_kept
        exact h13

theorem State.turnDrop_kept {q : List Instr} {s : State} (h : Kept q s) (a1) : Kept q (State.turnDrop s a1) := by
  unfold State.turnDrop
  apply State.turnCount_kept
  refine kept_mk ?_
  exact h

theorem State.turnFinish_kept {q : List Instr} {s : State} (h : Kept q s) (a1) (a2) : Kept q (State.turnFinish s a1 a2) := by
  unfold State.turnFinish
  split
  · extract_lets -underBinder -merge +onlyGivenNames x0
    clear_value x0
    refine ite_kept ?_ ?_
    · exact h
    · extract_lets -underBinder -merge +onlyGivenNames x1
      have h2 : Kept q x1 := by
        unfold x1
        apply State.turnRead_kept
        apply State.turnDrop_kept
        exact h
      clear_value x1
      extract_lets -underBinder -merge +onlyGivenNames x3
      clear_value x3
      extract_lets -underBinder -merge +onlyGivenNames x4
      have h5 : Kept q x4 := by
        unfold x4
        apply State.store_kept
        exact h2
      clear_value x4
      extract_lets -underBinder -merge +onlyGivenNames x6
      have h7 : Kept q x6 := by
        unfold x6
        refine foldS_kept _ ?_ ?_
        · exact h5
        · intro x8
          intro x9 x10
          apply State.poisonAt_kept
          exact x10
      clear_value x6
      apply State.endCmd_kept
      exact h7
  · exact h

theorem State.turnStop_kept {q : List Instr} {s : State} (h : Kept q s) (a1) (a2) : Kept q (State.turnStop s a1 a2) := by
  unfold State.turnStop
  split
  · apply State.scrambleRange_kept
    apply State.turnDrop_kept
    exact h
  · exact h

theorem State.unitStart_kept {q : List Instr} {s : State} (h : Kept q s) (a1) (a2) : Kept q (State.unitStart s a1 a2) := by
  unfold State.unitStart
  split
  · exact h
  · refine ite_kept ?_ ?_
    · exact h
    · refine ite_kept ?_ ?_
      · extract_lets -underBinder -merge +onlyGivenNames x0
        clear_value x0
        refine ite_kept ?_ ?_
        · exact h
        · apply State.copyRun_kept
          exact h
      · refine ite_kept ?_ ?_
        · apply State.turnRun_kept
          exact h
        · refine ite_kept ?_ ?_
          · apply State.ladleRun_kept
            exact h
          · refine ite_kept ?_ ?_
            · split
              · extract_lets -underBinder -merge +onlyGivenNames x1
                clear_value x1
                refine ite_kept ?_ ?_
                · apply State.colBegin_kept
                  exact h
                · exact h
              · exact h
            · refine ite_kept ?_ ?_
              · split
                · refine ite_kept ?_ ?_
                  · apply State.jobBegin_kept
                    exact h
                  · exact h
                · exact h
              · exact h

theorem State.unitsStart_kept {q : List Instr} {s : State} (h : Kept q s) : Kept q (State.unitsStart s) := by
  unfold State.unitsStart
  refine foldS_kept _ ?_ ?_
  · exact h
  · intro x0
    intro x1 x2
    apply State.unitStart_kept
    exact x2

theorem State.retireCmd_kept {q : List Instr} {s : State} (h : Kept q s) (a1) (a2) : Kept q (State.retireCmd s a1 a2) := by
  unfold State.retireCmd
  extract_lets -underBinder -merge +onlyGivenNames x0
  clear_value x0
  extract_lets -underBinder -merge +onlyGivenNames x1
  have h2 : Kept q x1 := by
    unfold x1
    apply State.retire_kept
    apply State.turnFinish_kept
    exact h
  clear_value x1
  split
  · refine ite_kept ?_ ?_
    · apply State.commitOutcome_kept
      exact h2
    · exact h2
  · exact h2

theorem State.abortCmd_kept {q : List Instr} {s : State} (h : Kept q s) (a1) : Kept q (State.abortCmd s a1) := by
  unfold State.abortCmd
  refine ite_kept ?_ ?_
  · exact h
  · split
    · apply State.stopOnWing_kept
      apply State.finishCmd_kept
      exact h
    · extract_lets -underBinder -merge +onlyGivenNames x0
      clear_value x0
      extract_lets -underBinder -merge +onlyGivenNames x1
      have h2 : Kept q x1 := by
        unfold x1
        apply State.setTray_kept
        exact h
      clear_value x1
      extract_lets -underBinder -merge +onlyGivenNames x3
      have h4 : Kept q x3 := by
        unfold x3
        apply State.turnStop_kept
        exact h2
      clear_value x3
      extract_lets -underBinder -merge +onlyGivenNames x5
      have h6 : Kept q x5 := by
        unfold x5
        apply State.setFences_kept
        exact h4
      clear_value x5
      extract_lets -underBinder -merge +onlyGivenNames x7
      have h8 : Kept q x7 := by
        unfold x7
        refine ite_kept ?_ ?_
        · apply State.putJobs_kept
          exact h6
        · exact h6
      clear_value x7
      extract_lets -underBinder -merge +onlyGivenNames x9
      have h10 : Kept q x9 := by
        unfold x9
        split
        · apply State.colStop_kept
          exact h8
        · exact h8
      clear_value x9
      extract_lets -underBinder -merge +onlyGivenNames x11
      have h12 : Kept q x11 := by
        unfold x11
        apply State.finishCmd_kept
        exact h10
      clear_value x11
      refine ite_kept ?_ ?_
      · apply State.commitOutcome_kept
        exact h12
      · exact h12

theorem State.endPosted_kept {q : List Instr} {s : State} (h : Kept q s) (a1) (a2) (a3) : Kept q (State.endPosted s a1 a2 a3) := by
  unfold State.endPosted
  extract_lets -underBinder -merge +onlyGivenNames x0
  clear_value x0
  apply State.putCmd_kept
  apply State.taintCmd_kept
  exact h

theorem State.passHead_kept {q : List Instr} {s : State} (h : Kept q s) (a n) : Kept q (State.passHead s a n) := by
  induction n generalizing s with
  | zero => exact h
  | succ n ih =>
    unfold State.passHead
    dsimp only
    split
    · exact ite_kept (ih (State.setF_kept (ite_kept (State.colSkip_kept h _) h) _ _ _ _)) h
    · exact h

theorem State.abortRun_kept {q : List Instr} {s : State} (h : Kept q s) (a1) : Kept q (State.abortRun s a1) := by
  unfold State.abortRun
  extract_lets -underBinder -merge +onlyGivenNames x0
  clear_value x0
  extract_lets -underBinder -merge +onlyGivenNames x1
  clear_value x1
  refine ite_kept ?_ ?_
  · apply State.refuseCmd_kept
    exact h
  · refine ite_kept ?_ ?_
    · apply State.refuseCmd_kept
      exact h
    · split
      · refine ite_kept ?_ ?_
        · apply State.putCmd_kept
          exact h
        · apply State.modCmd_kept
          apply State.abortCmd_kept
          exact h
      · apply State.modCmd_kept
        apply State.endPosted_kept
        exact h

theorem State.note_kept {q : List Instr} {s : State} (h : Kept q s) (a1) (a2) : Kept q (State.note s a1 a2).1 := by
  unfold State.note
  extract_lets -underBinder -merge +onlyGivenNames x0
  have h1 : Kept q x0 := by
    unfold x0
    apply State.countClamps_kept
    exact h
  clear_value x0
  extract_lets -underBinder -merge +onlyGivenNames x2
  clear_value x2
  refine fst_mk ?_
  apply State.putCmd_kept
  exact h1

theorem State.dispatchTo_kept {q : List Instr} {s : State} (h : Kept q s) (a1) : Kept q (State.dispatchTo s a1) := by
  unfold State.dispatchTo
  extract_lets -underBinder -merge +onlyGivenNames x0
  clear_value x0
  extract_lets -underBinder -merge +onlyGivenNames x1
  clear_value x1
  extract_lets -underBinder -merge +onlyGivenNames x2
  refine ite_kept ?_ ?_
  · apply State.uncorrCmd_kept
    exact h
  · refine ite_kept ?_ ?_
    · unfold x2
      apply State.modCmd_kept
      exact h
    · refine ite_kept ?_ ?_
      · apply State.startWing_kept
        exact h
      · refine ite_kept ?_ ?_
        · extract_lets -underBinder -merge +onlyGivenNames x3
          clear_value x3
          extract_lets -underBinder -merge +onlyGivenNames x4
          have h5 : Kept q x4.1 := by
            unfold x4
            apply State.note_kept
            exact h
          clear_value x4
          split
          · apply State.refuseCmd_kept
            exact h5
          · apply State.unitStart_kept
            exact h5
        · refine ite_kept ?_ ?_
          · extract_lets -underBinder -merge +onlyGivenNames x6
            clear_value x6
            extract_lets -underBinder -merge +onlyGivenNames x7
            have h8 : Kept q x7.1 := by
              unfold x7
              apply State.note_kept
              exact h
            clear_value x7
            split
            · extract_lets -underBinder -merge +onlyGivenNames x9
              clear_value x9
              apply State.refuseCmd_kept
              apply State.setF_kept
              apply State.setF_kept
              exact h8
            · apply State.unitStart_kept
              exact h8
          · refine ite_kept ?_ ?_
            · extract_lets -underBinder -merge +onlyGivenNames x10
              clear_value x10
              extract_lets -underBinder -merge +onlyGivenNames x11
              have h12 : Kept q x11.1 := by
                unfold x11
                apply State.note_kept
                exact h
              clear_value x11
              split
              · apply State.refuseCmd_kept
                exact h12
              · apply State.unitStart_kept
                exact h12
            · refine ite_kept ?_ ?_
              · apply State.unitStart_kept
                apply State.colDispatch_kept
                exact h
              · refine ite_kept ?_ ?_
                · apply State.fenceDispatch_kept
                  exact h
                · refine ite_kept ?_ ?_
                  · extract_lets -underBinder -merge +onlyGivenNames x13
                    clear_value x13
                    extract_lets -underBinder -merge +onlyGivenNames x14
                    clear_value x14
                    refine ite_kept ?_ ?_
                    · apply State.refuseCmd_kept
                      exact h
                    · refine ite_kept ?_ ?_
                      · unfold x2
                        apply State.modCmd_kept
                        apply State.gateAdd_kept
                        exact h
                      · unfold x2
                        apply State.modCmd_kept
                        apply State.setF_kept
                        exact h
                  · refine ite_kept ?_ ?_
                    · apply State.unitStart_kept
                      apply State.commitDispatch_kept
                      exact h
                    · refine ite_kept ?_ ?_
                      · apply State.unitStart_kept
                        apply State.pushDispatch_kept
                        exact h
                      · refine ite_kept ?_ ?_
                        · apply State.abortRun_kept
                          exact h
                        · apply State.refuseCmd_kept
                          exact h

theorem State.dispatchHead_kept {q : List Instr} {s : State} (h : Kept q s) (a1) (a2) : Kept q (State.dispatchHead s a1 a2) := by
  unfold State.dispatchHead
  extract_lets -underBinder -merge +onlyGivenNames x0
  have h1 : Kept q x0 := by
    unfold x0
    apply State.passHead_kept
    exact h
  clear_value x0
  refine ite_kept ?_ ?_
  · exact h1
  · extract_lets -underBinder -merge +onlyGivenNames x2
    clear_value x2
    refine ite_kept ?_ ?_
    · exact h1
    · refine ite_kept ?_ ?_
      · apply State.setQState_kept
        exact h1
      · extract_lets -underBinder -merge +onlyGivenNames x3
        clear_value x3
        refine ite_kept ?_ ?_
        · apply State.raise_kept
          exact h1
        · refine ite_kept ?_ ?_
          · exact h1
          · extract_lets -underBinder -merge +onlyGivenNames x4
            have h5 : Kept q x4.1 := by
              unfold x4
              apply State.takeHead_kept
              apply State.checkRead_kept
              exact h1
            clear_value x4
            apply State.dispatchTo_kept
            exact h5

theorem State.doorbell_kept {q : List Instr} {s : State} (h : Kept q s) (a1) (a2) (a3) : Kept q (State.doorbell s a1 a2 a3) := by
  unfold State.doorbell
  refine ite_kept ?_ ?_
  · apply State.setF_kept
    exact h
  · apply State.cfgErr_kept
    apply State.setF_kept
    exact h

theorem State.rheadWrite_kept {q : List Instr} {s : State} (h : Kept q s) (a1) (a2) (a3) : Kept q (State.rheadWrite s a1 a2 a3) := by
  unfold State.rheadWrite
  refine ite_kept ?_ ?_
  · apply State.setF_kept
    exact h
  · apply State.cfgErr_kept
    apply State.setF_kept
    exact h

theorem State.queueEnable_kept {q : List Instr} {s : State} (h : Kept q s) (a1) : Kept q (State.queueEnable s a1) := by
  unfold State.queueEnable
  extract_lets -underBinder -merge +onlyGivenNames x0
  have h1 : Kept q x0 := by
    unfold x0
    apply State.setF_kept
    exact h
  clear_value x0
  refine ite_kept ?_ ?_
  · exact h1
  · extract_lets -underBinder -merge +onlyGivenNames x2
    clear_value x2
    extract_lets -underBinder -merge +onlyGivenNames x3
    have h4 : Kept q x3 := by
      unfold x3
      refine kept_mk ?_
      exact h1
    clear_value x3
    extract_lets -underBinder -merge +onlyGivenNames x5
    have h6 : Kept q x5 := by
      unfold x5
      apply State.setF_kept
      apply State.setF_kept
      apply State.setF_kept
      exact h4
    clear_value x5
    apply State.setQState_kept
    apply State.setQx_kept
    exact h6

theorem State.drainStart_kept {q : List Instr} {s : State} (h : Kept q s) (a1) (a2) (a3) : Kept q (State.drainStart s a1 a2 a3) := by
  unfold State.drainStart
  extract_lets -underBinder -merge +onlyGivenNames x0
  clear_value x0
  extract_lets -underBinder -merge +onlyGivenNames x1
  clear_value x1
  extract_lets -underBinder -merge +onlyGivenNames x2
  have h3 : Kept q x2 := by
    unfold x2
    refine foldS_kept _ ?_ ?_
    · exact h
    · intro x4
      intro x5 x6
      refine ite_kept ?_ ?_
      · exact x6
      · apply State.endPosted_kept
        exact x6
  clear_value x2
  extract_lets -underBinder -merge +onlyGivenNames x7
  have h8 : Kept q x7 := by
    unfold x7
    apply State.passHead_kept
    exact h3
  clear_value x7
  extract_lets -underBinder -merge +onlyGivenNames x9
  clear_value x9
  extract_lets -underBinder -merge +onlyGivenNames x10
  have h11 : Kept q x10 := by
    unfold x10
    apply State.setQState_kept
    apply State.setQx_kept
    exact h8
  clear_value x10
  refine ite_kept ?_ ?_
  · refine foldS_kept _ ?_ ?_
    · exact h11
    · intro x12
      intro x13 x14
      apply State.abortCmd_kept
      exact x14
  · exact h11

theorem State.queueDrain_kept {q : List Instr} {s : State} (h : Kept q s) (a1) (a2) : Kept q (State.queueDrain s a1 a2) := by
  unfold State.queueDrain
  refine ite_kept ?_ ?_
  · exact h
  · apply State.drainStart_kept
    exact h

theorem State.queueDisable_kept {q : List Instr} {s : State} (h : Kept q s) (a1) : Kept q (State.queueDisable s a1) := by
  unfold State.queueDisable
  extract_lets -underBinder -merge +onlyGivenNames x0
  have h1 : Kept q x0 := by
    unfold x0
    apply State.setF_kept
    exact h
  clear_value x0
  refine ite_kept ?_ ?_
  · exact h1
  · refine ite_kept ?_ ?_
    · apply State.setQx_kept
      exact h1
    · apply State.drainStart_kept
      exact h1

theorem State.drainEnd_kept {q : List Instr} {s : State} (h : Kept q s) (a1) : Kept q (State.drainEnd s a1) := by
  unfold State.drainEnd
  split
  · exact h
  · refine ite_kept ?_ ?_
    · exact h
    · extract_lets -underBinder -merge +onlyGivenNames x0
      clear_value x0
      apply State.setQState_kept
      apply State.setQx_kept
      exact h

theorem State.queueResume_kept {q : List Instr} {s : State} (h : Kept q s) (a1) : Kept q (State.queueResume s a1) := by
  unfold State.queueResume
  refine ite_kept ?_ ?_
  · apply State.setQState_kept
    exact h
  · exact h

theorem State.queueBase_kept {q : List Instr} {s : State} (h : Kept q s) (a1) (a2) (a3) (a4) : Kept q (State.queueBase s a1 a2 a3 a4) := by
  unfold State.queueBase
  extract_lets -underBinder -merge +onlyGivenNames x0
  clear_value x0
  extract_lets -underBinder -merge +onlyGivenNames x1
  clear_value x1
  extract_lets -underBinder -merge +onlyGivenNames x2
  refine ite_kept ?_ ?_
  · apply State.cfgErr_kept
    exact h
  · refine ite_kept ?_ ?_
    · apply State.setF_kept
      exact h
    · apply State.setF_kept
      apply State.setF_kept
      exact h

theorem State.queueCfg_kept {q : List Instr} {s : State} (h : Kept q s) (a1) (a2) (a3) : Kept q (State.queueCfg s a1 a2 a3) := by
  unfold State.queueCfg
  refine ite_kept ?_ ?_
  · apply State.cfgErr_kept
    exact h
  · extract_lets -underBinder -merge +onlyGivenNames x0
    have h1 : Kept q x0 := by
      unfold x0
      apply State.setF_kept
      exact h
    clear_value x0
    extract_lets -underBinder -merge +onlyGivenNames x2
    have h3 : Kept q x2 := by
      unfold x2
      apply State.setF_kept
      apply State.setF_kept
      exact h1
    clear_value x2
    extract_lets -underBinder -merge +onlyGivenNames x4
    have h5 : Kept q x4 := by
      unfold x4
      apply State.setF_kept
      exact h3
    clear_value x4
    refine ite_kept ?_ ?_
    · exact h5
    · refine ite_kept ?_ ?_
      · apply State.queueEnable_kept
        exact h5
      · apply State.queueDisable_kept
        exact h5

theorem State.waitLong_kept {q : List Instr} {s : State} (h : Kept q s) (a1) : Kept q (State.waitLong s a1) := by
  unfold State.waitLong
  extract_lets -underBinder -merge +onlyGivenNames x0
  clear_value x0
  refine ite_kept ?_ ?_
  · exact h
  · apply State.raise_kept
    apply State.setF_kept
    exact h

theorem State.claimOut_kept {q : List Instr} {z : State × Bool} (h : Kept q z.1) (o) : Kept q (State.claimOut z o).1 := by
  unfold State.claimOut
  exact fst_mk (State.claimIf_kept h _ _ _ _)

theorem State.claimOuts_kept {q : List Instr} {s : State} (h : Kept q s) (os) : Kept q (State.claimOuts s os).1 := by
  unfold State.claimOuts
  exact foldl1_kept _ h fun z x hz => State.claimOut_kept hz _

theorem State.commitCmd_kept {q : List Instr} {s : State} (h : Kept q s) (a1) (a2) : Kept q (State.commitCmd s a1 a2) := by
  unfold State.commitCmd
  split
  · apply State.unitStart_kept
    exact h
  · split
    · refine ite_kept ?_ ?_
      · refine ite_kept ?_ ?_
        · apply State.tileCommit_kept
          apply State.claimOuts_kept
          exact h
        · apply State.claimOuts_kept
          exact h
      · exact h
    · exact h

theorem State.replyTo_kept {q : List Instr} {s : State} (h : Kept q s) (n a) : Kept q (State.replyTo s n a) := by
  unfold State.replyTo
  have h1 : Kept q (s.claimIf (s.inWindow a) a 32 none).1 := State.claimIf_kept h _ _ _ _
  revert h1
  generalize s.claimIf (s.inWindow a) a 32 none = z
  intro h1
  exact ite_kept (State.replyCmd_kept h1 _) h1

theorem State.replyOut_kept {q : List Instr} {s : State} (h : Kept q s) (a1) : Kept q (State.replyOut s a1) := by
  unfold State.replyOut
  extract_lets -underBinder -merge +onlyGivenNames x0
  clear_value x0
  extract_lets -underBinder -merge +onlyGivenNames x1
  clear_value x1
  refine ite_kept ?_ ?_
  · exact h
  · apply State.replyTo_kept
    exact h

theorem State.takeOut_kept {q : List Instr} {s : State} (h : Kept q s) (a1) : Kept q (State.takeOut s a1) := by
  unfold State.takeOut
  extract_lets -underBinder -merge +onlyGivenNames x0
  clear_value x0
  refine ite_kept ?_ ?_
  · apply State.wingLeave_kept
    exact h
  · refine ite_kept ?_ ?_
    · apply State.setWing_kept
      exact h
    · exact h

theorem State.drainWings_kept {q : List Instr} {s : State} (h : Kept q s) : Kept q (State.drainWings s) := by
  unfold State.drainWings
  refine foldS_kept _ ?_ ?_
  · exact h
  · intro x0
    intro x1 x2
    refine ite_kept ?_ ?_
    · apply State.wingLeave_kept
      exact x2
    · exact x2

theorem State.wingDrainTimeout_kept {q : List Instr} {s : State} (h : Kept q s) (a1) : Kept q (State.wingDrainTimeout s a1) := by
  unfold State.wingDrainTimeout
  refine ite_kept ?_ ?_
  · apply State.wingLeave_kept
    exact h
  · exact h

theorem State.restoreWing_kept {q : List Instr} {s : State} (h : Kept q s) (a1) : Kept q (State.restoreWing s a1) := by
  unfold State.restoreWing
  refine ite_kept ?_ ?_
  · apply State.setF_kept
    apply State.setWingState_kept
    exact h
  · exact h

theorem State.stopAbort_kept {q : List Instr} {s : State} (h : Kept q s) : Kept q (State.stopAbort s) := by
  unfold State.stopAbort
  refine ite_kept ?_ ?_
  · exact h
  · extract_lets -underBinder -merge +onlyGivenNames x0
    have h1 : Kept q x0 := by
      unfold x0
      refine foldS_kept _ ?_ ?_
      · exact h
      · intro x2
        intro x3 x4
        apply State.abortCmd_kept
        exact x4
    clear_value x0
    refine foldS_kept _ ?_ ?_
    · exact h1
    · intro x5
      intro x6 x7
      apply State.portDisable_kept
      exact x7

theorem State.blockReact_kept {q : List Instr} {s : State} (h : Kept q s) (a1) : Kept q (State.blockReact s a1) := by
  unfold State.blockReact
  extract_lets -underBinder -merge +onlyGivenNames x0
  clear_value x0
  extract_lets -underBinder -merge +onlyGivenNames x1
  clear_value x1
  refine ite_kept ?_ ?_
  · apply State.fenceArray_kept
    exact h
  · refine ite_kept ?_ ?_
    · apply State.wingLeave_kept
      exact h
    · refine ite_kept ?_ ?_
      · apply State.edgeReset_kept
        exact h
      · refine ite_kept ?_ ?_
        · apply State.toTrain_kept
          exact h
        · refine ite_kept ?_ ?_
          · apply State.engineStart_kept
            exact h
          · exact h

theorem State.reactOne_kept {q : List Instr} {s : State} (h : Kept q s) : Kept q (State.reactOne s) := by
  unfold State.reactOne
  split
  · exact h
  · extract_lets -underBinder -merge +onlyGivenNames x0
    extract_lets -underBinder -merge +onlyGivenNames x1
    have h2 : Kept q x1 := by
      unfold x1
      refine kept_mk ?_
      exact h
    clear_value x1
    split
    · apply State.blockReact_kept
      exact h2
    · apply State.moduleReset_kept
      exact h2

theorem State.tellUsers_kept {q : List Instr} {s : State} (h : Kept q s) (a1) : Kept q (State.tellUsers s a1) := by
  unfold State.tellUsers
  split
  · extract_lets -underBinder -merge +onlyGivenNames x0
    have h1 : Kept q x0 := by
      unfold x0
      refine ite_kept ?_ ?_
      · apply State.depart_kept
        exact h
      · exact h
    clear_value x0
    extract_lets -underBinder -merge +onlyGivenNames x2
    have h3 : Kept q x2 := by
      unfold x2
      refine foldS_kept _ ?_ ?_
      · exact h1
      · intro x4
        intro x5 x6
        apply State.copyEnd_kept
        exact x6
    clear_value x2
    apply State.jobPeer_kept
    apply State.fencePeer_kept
    apply State.colPeer_kept
    exact h3
  · extract_lets -underBinder -merge +onlyGivenNames x7
    have h8 : Kept q x7 := by
      unfold x7
      refine ite_kept ?_ ?_
      · apply State.depart_kept
        exact h
      · exact h
    clear_value x7
    apply State.colPeer_kept
    exact h8
  · extract_lets -underBinder -merge +onlyGivenNames x9
    have h10 : Kept q x9 := by
      unfold x9
      refine ite_kept ?_ ?_
      · apply State.depart_kept
        exact h
      · exact h
    clear_value x9
    apply State.colPeer_kept
    exact h10

theorem State.eventOne_kept {q : List Instr} {s : State} (h : Kept q s) : Kept q (State.eventOne s) := by
  unfold State.eventOne
  split
  · exact h
  · apply State.tellUsers_kept
    refine kept_mk ?_
    exact h

theorem State.round_kept {q : List Instr} {s : State} (h : Kept q s) : Kept q (State.round s) := by
  unfold State.round
  apply State.drainWings_kept
  apply State.unitsStart_kept
  apply State.sweepGo_kept
  apply State.resSettle_kept
  apply State.collSettle_kept
  apply State.fenceSettle_kept
  apply State.traySettle_kept
  apply State.eventOne_kept
  apply State.reactOne_kept
  exact h

theorem settleN_kept {q : List Instr} {s : State} (h : Kept q s) (n) : Kept q (settleN n s) := by
  induction n generalizing s with
  | zero => exact h
  | succ n ih =>
    unfold settleN
    exact ite_kept h (ih (State.round_kept h))

theorem settle_kept {q : List Instr} {s : State} (h : Kept q s) : Kept q (settle s) := by
  unfold settle
  apply settleN_kept
  exact h

theorem State.refuseRecv_kept {q : List Instr} {s : State} (h : Kept q s) (a1) : Kept q (State.refuseRecv s a1) := by
  unfold State.refuseRecv
  extract_lets -underBinder -merge +onlyGivenNames x0
  have h1 : Kept q x0 := by
    unfold x0
    refine foldS_kept _ ?_ ?_
    · exact h
    · intro x2
      intro x3 x4
      extract_lets -underBinder -merge +onlyGivenNames x5
      have h6 : Kept q x5 := by
        unfold x5
        split
        · refine ite_kept ?_ ?_
          · exact x4
          · apply State.refuseCmd_kept
            exact x4
        · exact x4
      clear_value x5
      apply State.stopOnWing_kept
      exact h6
  clear_value x0
  apply State.dropInst_kept
  exact h1

theorem State.openOr_kept {q : List Instr} {s : State} (h : Kept q s) (a1) : Kept q (State.openOr s a1) := by
  unfold State.openOr
  extract_lets -underBinder -merge +onlyGivenNames x0
  clear_value x0
  refine ite_kept ?_ ?_
  · exact h
  · split
    · refine State.openInst_some ?_ (by assumption)
      exact h
    · apply State.refuseRecv_kept
      exact h

theorem State.openFor_kept {q : List Instr} {s : State} (h : Kept q s) (a1) (a2) : Kept q (State.openFor s a1 a2) := by
  unfold State.openFor
  split
  · exact h
  · extract_lets -underBinder -merge +onlyGivenNames x0
    have h1 : Kept q x0 := by
      unfold x0
      apply State.pruneDue_kept
      exact h
    clear_value x0
    split
    · refine ite_kept ?_ ?_
      · apply State.openOr_kept
        exact h1
      · exact h1
    · exact h1

theorem State.joinTimeout_kept {q : List Instr} {s : State} (h : Kept q s) (a1) : Kept q (State.joinTimeout s a1) := by
  unfold State.joinTimeout
  split
  · exact h
  · extract_lets -underBinder -merge +onlyGivenNames x0
    have h1 : Kept q x0 := by
      unfold x0
      apply State.pruneDue_kept
      exact h
    clear_value x0
    split
    · exact h1
    · refine ite_kept ?_ ?_
      · exact h1
      · extract_lets -underBinder -merge +onlyGivenNames x2
        clear_value x2
        extract_lets -underBinder -merge +onlyGivenNames x3
        clear_value x3
        extract_lets -underBinder -merge +onlyGivenNames x4
        have h5 : Kept q x4 := by
          unfold x4
          apply State.openOr_kept
          apply State.setInst_kept
          exact h1
        clear_value x4
        refine ite_kept ?_ ?_
        · apply State.setF_kept
          exact h5
        · exact h5

theorem State.onInst_kept {q : List Instr} {s : State} (h : Kept q s) (id : Nat) {k : Inst → State → State}
    (hk : ∀ x s, Kept q s → Kept q (k x s)) : Kept q (s.onInst id k) := by
  unfold State.onInst
  split
  · exact hk _ _ h
  · exact h

theorem State.instDone_kept {q : List Instr} {s : State} (h : Kept q s) (a1) : Kept q (State.instDone s a1) := by
  unfold State.instDone
  refine ite_kept ?_ ?_
  · apply State.closeInst_kept
    exact h
  · exact h

theorem State.portLine_kept {q : List Instr} {s : State} (h : Kept q s) (a1) (a2) : Kept q (State.portLine s a1 a2) := by
  unfold State.portLine
  extract_lets -underBinder -merge +onlyGivenNames x0
  clear_value x0
  split
  · apply State.injWrite_kept
    apply State.writeBytes_kept
    exact h
  · extract_lets -underBinder -merge +onlyGivenNames x1
    clear_value x1
    extract_lets -underBinder -merge +onlyGivenNames x2
    have h3 : Kept q x2 := by
      unfold x2
      apply State.lineRead_kept
      apply State.checkRead_kept
      exact h
    clear_value x2
    apply State.ladleReturn_kept
    exact h3

theorem State.tileStep_kept {q : List Instr} {s : State} (h : Kept q s) (a1) (a2) : Kept q (State.tileStep s a1 a2) := by
  unfold State.tileStep
  extract_lets -underBinder -merge +onlyGivenNames x0
  clear_value x0
  extract_lets -underBinder -merge +onlyGivenNames x1
  have h2 : Kept q x1 := by
    unfold x1
    refine foldS_kept _ ?_ ?_
    · exact h
    · intro x3
      intro x4 x5
      apply State.accessErr_kept
      exact x5
  clear_value x1
  extract_lets -underBinder -merge +onlyGivenNames x6
  clear_value x6
  extract_lets -underBinder -merge +onlyGivenNames x7
  clear_value x7
  refine ite_kept ?_ ?_
  · exact h2
  · extract_lets -underBinder -merge +onlyGivenNames x8
    clear_value x8
    extract_lets -underBinder -merge +onlyGivenNames x9
    clear_value x9
    extract_lets -underBinder -merge +onlyGivenNames x10
    have h11 : Kept q x10 := by
      unfold x10
      refine foldS_kept _ ?_ ?_
      · exact h2
      · intro x12
        intro x13 x14
        apply State.portLine_kept
        exact x14
    clear_value x10
    apply State.setWing_kept
    exact h11

theorem State.wingHang_kept {q : List Instr} {s : State} (h : Kept q s) (a1) : Kept q (State.wingHang s a1) := by
  unfold State.wingHang
  split
  · exact h
  · extract_lets -underBinder -merge +onlyGivenNames x0
    clear_value x0
    extract_lets -underBinder -merge +onlyGivenNames x1
    clear_value x1
    refine ite_kept ?_ ?_
    · apply State.raise_kept
      exact h
    · exact h

theorem State.stitchError_kept {q : List Instr} {s : State} (h : Kept q s) (a1) : Kept q (State.stitchError s a1) := by
  unfold State.stitchError
  apply State.raise_kept
  apply State.setF_kept
  exact h

theorem State.setPicWord_kept {q : List Instr} {s : State} (h : Kept q s) (a1) (a2) : Kept q (State.setPicWord s a1 a2) := by
  unfold State.setPicWord
  refine kept_mk ?_
  exact h

theorem State.plicRead_kept {q : List Instr} {s : State} (h : Kept q s) (a1) : Kept q (State.plicRead s a1).2 := by
  unfold State.plicRead
  extract_lets -underBinder -merge +onlyGivenNames x0
  clear_value x0
  refine ite_kept2 ?_ ?_
  · refine snd_mk ?_
    exact h
  · refine ite_kept2 ?_ ?_
    · refine snd_mk ?_
      exact h
    · refine ite_kept2 ?_ ?_
      · refine snd_mk ?_
        exact h
      · refine ite_kept2 ?_ ?_
        · refine ite_kept2 ?_ ?_
          · refine snd_mk ?_
            exact h
          · refine ite_kept2 ?_ ?_
            · extract_lets -underBinder -merge +onlyGivenNames x1
              clear_value x1
              refine ite_kept2 ?_ ?_
              · refine snd_mk ?_
                exact h
              · refine snd_mk ?_
                refine kept_mk ?_
                exact h
            · refine snd_mk ?_
              exact h
        · refine snd_mk ?_
          exact h

theorem State.plicWrite_kept {q : List Instr} {s : State} (h : Kept q s) (a1) (a2) : Kept q (State.plicWrite s a1 a2) := by
  unfold State.plicWrite
  extract_lets -underBinder -merge +onlyGivenNames x0
  clear_value x0
  refine ite_kept ?_ ?_
  · apply State.setPicWord_kept
    exact h
  · refine ite_kept ?_ ?_
    · apply State.setPicWord_kept
      exact h
    · refine ite_kept ?_ ?_
      · refine ite_kept ?_ ?_
        · apply State.setPicWord_kept
          exact h
        · refine ite_kept ?_ ?_
          · refine kept_mk ?_
            exact h
          · exact h
      · exact h

theorem State.aclintWrite_kept {q : List Instr} {s : State} (h : Kept q s) (a1) (a2) : Kept q (State.aclintWrite s a1 a2) := by
  unfold State.aclintWrite
  extract_lets -underBinder -merge +onlyGivenNames x0
  clear_value x0
  refine ite_kept ?_ ?_
  · extract_lets -underBinder -merge +onlyGivenNames x1
    have h2 : Kept q x1 := by
      unfold x1
      apply State.setPicWord_kept
      exact h
    clear_value x1
    extract_lets -underBinder -merge +onlyGivenNames x3
    clear_value x3
    refine ite_kept ?_ ?_
    · refine kept_mk ?_
      exact h2
    · exact h2
  · refine ite_kept ?_ ?_
    · apply State.setPicWord_kept
      exact h
    · exact h

theorem State.accWord_kept {q : List Instr} {s : State} (h : Kept q s) (a1) (a2) : Kept q (State.accWord s a1 a2).2 := by
  unfold State.accWord
  split
  · refine snd_mk ?_
    exact h
  · extract_lets -underBinder -merge +onlyGivenNames x0
    have h1 : Kept q x0.2 := by
      unfold x0
      apply State.draw_kept
      exact h
    clear_value x0
    refine snd_mk ?_
    exact h1

theorem State.trWord_kept {q : List Instr} {s : State} (h : Kept q s) (a1) (a2) : Kept q (State.trWord s a1 a2).2 := by
  unfold State.trWord
  split
  · refine snd_mk ?_
    exact h
  · extract_lets -underBinder -merge +onlyGivenNames x0
    have h1 : Kept q x0.2 := by
      unfold x0
      apply State.draw_kept
      exact h
    clear_value x0
    refine snd_mk ?_
    exact h1

theorem State.windowRead_kept {q : List Instr} {s : State} (h : Kept q s) {entry : State → Nat → Nat × State} (w x width addr : Nat) (m : Master)
    (he : ∀ s n, Kept q s → Kept q (entry s n).2) : Kept q (s.windowRead entry w x width addr m).2 := by
  unfold State.windowRead
  refine ite_kept2 ?_ (State.accessErr_kept h _ _ _)
  exact ite_kept2 (he _ _ h) (he _ _ (he _ _ h))

theorem State.accWindow_kept {q : List Instr} {s : State} (h : Kept q s) (a1) (a2) (a3) (a4) : Kept q (State.accWindow s a1 a2 a3 a4) := by
  unfold State.accWindow
  extract_lets -underBinder -merge +onlyGivenNames x0
  clear_value x0
  refine ite_kept ?_ ?_
  · extract_lets -underBinder -merge +onlyGivenNames x1
    have h2 : Kept q x1 := by
      unfold x1
      apply State.accessErr_kept
      exact h
    clear_value x1
    refine kept_mk ?_
    exact h2
  · extract_lets -underBinder -merge +onlyGivenNames x3
    have h4 : Kept q x3.2 := by
      unfold x3
      apply State.windowRead_kept
      · exact h
      · intro x5
        intro x6 x7
        apply State.accWord_kept
        exact x7
    clear_value x3
    extract_lets -underBinder -merge +onlyGivenNames x8
    have h9 : Kept q x8 := by
      unfold x8
      exact h4
    clear_value x8
    refine kept_mk ?_
    exact h9

theorem State.trWindow_kept {q : List Instr} {s : State} (h : Kept q s) (a1) (a2) (a3) (a4) : Kept q (State.trWindow s a1 a2 a3 a4) := by
  unfold State.trWindow
  extract_lets -underBinder -merge +onlyGivenNames x0
  clear_value x0
  refine ite_kept ?_ ?_
  · extract_lets -underBinder -merge +onlyGivenNames x1
    have h2 : Kept q x1 := by
      unfold x1
      apply State.accessErr_kept
      exact h
    clear_value x1
    refine kept_mk ?_
    exact h2
  · extract_lets -underBinder -merge +onlyGivenNames x3
    have h4 : Kept q x3.2 := by
      unfold x3
      apply State.windowRead_kept
      · exact h
      · intro x5
        intro x6 x7
        apply State.trWord_kept
        exact x7
    clear_value x3
    extract_lets -underBinder -merge +onlyGivenNames x8
    have h9 : Kept q x8 := by
      unfold x8
      exact h4
    clear_value x8
    refine kept_mk ?_
    exact h9

theorem State.stepsLatch_kept {q : List Instr} {s : State} (h : Kept q s) (a1) : Kept q (State.stepsLatch s a1) := by
  unfold State.stepsLatch
  apply State.wr_kept
  exact h

theorem State.plicRead8_kept {q : List Instr} {s : State} (h : Kept q s) (a1) : Kept q (State.plicRead8 s a1).2 := by
  unfold State.plicRead8
  refine snd_mk ?_
  apply State.plicRead_kept
  apply State.plicRead_kept
  exact h

theorem State.wingWindow_kept {q : List Instr} {s : State} (h : Kept q s) (b w o a width m) : Kept q (State.wingWindow s b w o a width m).2 := by
  unfold State.wingWindow
  split
  · exact snd_mk (State.windowRead_kept h _ _ _ _ _ fun _ _ hs => State.accWord_kept hs _ _)
  · split
    · exact snd_mk (State.windowRead_kept h _ _ _ _ _ fun _ _ hs => State.trWord_kept hs _ _)
    · exact snd_mk h

theorem State.ctlRead_kept {q : List Instr} {s : State} (h : Kept q s) (a width m) : Kept q (State.ctlRead s a width m).2 := by
  unfold State.ctlRead
  split
  · exact snd_mk (State.accessErr_kept h _ _ _)
  · extract_lets half
    clear_value half
    split
    · exact snd_mk (State.accessErr_kept h _ _ _)
    · exact snd_mk h
    · split
      · exact snd_mk (State.plicRead_kept h _)
      · exact State.plicRead8_kept h _
    · split
      · exact snd_mk (ite_kept (State.stepsLatch_kept h _) h)
      · exact State.wingWindow_kept h _ _ _ _ _ _

theorem State.streamWord_kept {q : List Instr} {s : State} (h : Kept q s) (a1) (a2) (a3) : Kept q (State.streamWord s a1 a2 a3) := by
  unfold State.streamWord
  refine ite_kept ?_ ?_
  · apply State.streamValidate_kept
    exact h
  · apply State.setF_kept
    exact h

theorem State.tapWord_kept {q : List Instr} {s : State} (h : Kept q s) (a1) (a2) : Kept q (State.tapWord s a1 a2) := by
  unfold State.tapWord
  extract_lets -underBinder -merge +onlyGivenNames x0
  have h1 : Kept q x0 := by
    unfold x0
    refine ite_kept ?_ ?_
    · apply State.planWrite_kept
      exact h
    · exact h
  clear_value x0
  extract_lets -underBinder -merge +onlyGivenNames x2
  have h3 : Kept q x2 := by
    unfold x2
    refine ite_kept ?_ ?_
    · apply State.sweepOffWrite_kept
      exact h1
    · exact h1
  clear_value x2
  refine ite_kept ?_ ?_
  · apply State.setF_kept
    exact h3
  · exact h3

theorem State.frame_kept {q : List Instr} {s : State} (h : Kept q s) : Kept q (State.frame s).2 := by
  unfold State.frame
  extract_lets -underBinder -merge +onlyGivenNames x0
  have h1 : Kept q x0.2 := by
    unfold x0
    apply State.draw_kept
    exact h
  clear_value x0
  refine snd_mk ?_
  exact h1

theorem State.leCtrlWord_kept {q : List Instr} {s : State} (h : Kept q s) (a1) (a2) : Kept q (State.leCtrlWord s a1 a2) := by
  unfold State.leCtrlWord
  refine ite_kept ?_ ?_
  · exact h
  · extract_lets -underBinder -merge +onlyGivenNames x0
    have h1 : Kept q x0 := by
      unfold x0
      apply State.leEnable_kept
      exact h
    clear_value x0
    extract_lets -underBinder -merge +onlyGivenNames x2
    have h3 : Kept q x2 := by
      unfold x2
      refine ite_kept ?_ ?_
      · apply State.standbyWarm_kept
        exact h1
      · exact h1
    clear_value x2
    refine ite_kept ?_ ?_
    · extract_lets -underBinder -merge +onlyGivenNames x4
      have h5 : Kept q x4.2 := by
        unfold x4
        apply State.frame_kept
        exact h3
      clear_value x4
      apply State.combSwap_kept
      exact h5
    · exact h3

theorem State.lePortWord_kept {q : List Instr} {s : State} (h : Kept q s) (a1) (a2) : Kept q (State.lePortWord s a1 a2) := by
  unfold State.lePortWord
  refine ite_kept ?_ ?_
  · exact h
  · extract_lets -underBinder -merge +onlyGivenNames x0
    have h1 : Kept q x0 := by
      unfold x0
      refine ite_kept ?_ ?_
      · exact h
      · refine ite_kept ?_ ?_
        · apply State.portDisable_kept
          exact h
        · apply State.portEnable_kept
          exact h
    clear_value x0
    refine ite_kept ?_ ?_
    · extract_lets -underBinder -merge +onlyGivenNames x2
      have h3 : Kept q x2.2 := by
        unfold x2
        apply State.frame_kept
        exact h1
      clear_value x2
      apply State.leLswap_kept
      exact h3
    · exact h1

theorem State.tryCtrlWord_kept {q : List Instr} {s : State} (h : Kept q s) (a1) : Kept q (State.tryCtrlWord s a1) := by
  unfold State.tryCtrlWord
  refine ite_kept ?_ ?_
  · exact h
  · refine ite_kept ?_ ?_
    · apply State.joinStart_kept
      exact h
    · apply State.leaveStart_kept
      exact h

theorem State.osqWord_kept {q : List Instr} {s : State} (h : Kept q s) : Kept q (State.osqWord s) := by
  unfold State.osqWord
  refine kept_mk ?_
  exact h

theorem State.gateAddWord_kept {q : List Instr} {s : State} (h : Kept q s) (a1) (a2) : Kept q (State.gateAddWord s a1 a2) := by
  unfold State.gateAddWord
  apply State.gateAdd_kept
  exact h

theorem State.overrideWord_kept {q : List Instr} {s : State} (h : Kept q s) (a1) (a2) : Kept q (State.overrideWord s a1 a2) := by
  unfold State.overrideWord
  refine ite_kept ?_ ?_
  · apply State.qualOverride_kept
    exact h
  · refine ite_kept ?_ ?_
    · exact h
    · refine ite_kept ?_ ?_
      · apply State.setF_kept
        exact h
      · apply State.lcViolation_kept
        exact h

theorem State.ctlEffect_kept {q : List Instr} {s : State} (h : Kept q s) (a1) (a2) : Kept q (State.ctlEffect s a1 a2) := by
  unfold State.ctlEffect
  extract_lets -underBinder -merge +onlyGivenNames x0
  clear_value x0
  split
  · apply State.mgnCtrlWrite_kept
    exact h
  · refine ite_kept ?_ ?_
    · apply State.temperStart_kept
      exact h
    · exact h
  · apply State.tapWord_kept
    exact h
  · refine ite_kept ?_ ?_
    · apply State.setF_kept
      exact h
    · exact h
  · extract_lets -underBinder -merge +onlyGivenNames x1
    have h2 : Kept q x1 := by
      unfold x1
      refine ite_kept ?_ ?_
      · apply State.takeOut_kept
        exact h
      · exact h
    clear_value x1
    refine ite_kept ?_ ?_
    · apply State.restoreWing_kept
      exact h2
    · exact h2
  · refine ite_kept ?_ ?_
    · apply State.bistStart_kept
      exact h
    · exact h
  · refine ite_kept ?_ ?_
    · apply State.fenceArray_kept
      exact h
    · exact h
  · apply State.streamWord_kept
    exact h
  · apply State.streamWord_kept
    exact h
  · apply State.streamWord_kept
    exact h
  · apply State.streamWord_kept
    exact h
  · apply State.queueBase_kept
    exact h
  · apply State.queueBase_kept
    exact h
  · refine ite_kept ?_ ?_
    · apply State.queueCfg_kept
      exact h
    · exact h
  · apply State.doorbell_kept
    exact h
  · apply State.rheadWrite_kept
    exact h
  · extract_lets -underBinder -merge +onlyGivenNames x3
    clear_value x3
    extract_lets -underBinder -merge +onlyGivenNames x4
    have h5 : Kept q x4 := by
      unfold x4
      refine ite_kept ?_ ?_
      · apply State.queueDrain_kept
        exact h
      · exact h
    clear_value x4
    refine ite_kept ?_ ?_
    · apply State.queueResume_kept
      exact h5
    · exact h5
  · refine ite_kept ?_ ?_
    · apply State.setF_kept
      exact h
    · exact h
  · apply State.gateAddWord_kept
    exact h
  · refine ite_kept ?_ ?_
    · apply State.setF_kept
      exact h
    · exact h
  · refine ite_kept ?_ ?_
    · apply State.overrideWord_kept
      exact h
    · exact h
  · refine ite_kept ?_ ?_
    · apply State.d2dSwitch_kept
      exact h
    · exact h
  · apply State.leCtrlWord_kept
    exact h
  · apply State.leThresh_kept
    exact h
  · apply State.lePortWord_kept
    exact h
  · apply State.fabAddr_kept
    exact h
  · refine ite_kept ?_ ?_
    · apply State.fabEnable_kept
      exact h
    · exact h
  · extract_lets -underBinder -merge +onlyGivenNames x6
    have h7 : Kept q x6 := by
      unfold x6
      refine ite_kept ?_ ?_
      · apply State.rtLoad_kept
        exact h
      · exact h
    clear_value x6
    extract_lets -underBinder -merge +onlyGivenNames x8
    have h9 : Kept q x8 := by
      unfold x8
      refine ite_kept ?_ ?_
      · apply State.rtArm_kept
        exact h7
      · exact h7
    clear_value x8
    refine ite_kept ?_ ?_
    · apply State.rtFlip_kept
      exact h9
    · exact h9
  · refine ite_kept ?_ ?_
    · apply State.peerClear_kept
      exact h
    · exact h
  · extract_lets -underBinder -merge +onlyGivenNames x10
    have h11 : Kept q x10 := by
      unfold x10
      refine ite_kept ?_ ?_
      · apply State.cableAccept_kept
        exact h
      · exact h
    clear_value x10
    refine ite_kept ?_ ?_
    · apply State.cableCheck_kept
      exact h11
    · exact h11
  · apply State.rtEntry_kept
    exact h
  · apply State.rtEntry_kept
    exact h
  · refine ite_kept ?_ ?_
    · apply State.tryCtrlWord_kept
      exact h
    · exact h
  · apply State.tryWin_kept
    exact h
  · apply State.groupCfg_kept
    exact h
  · apply State.groupCfg_kept
    exact h
  · extract_lets -underBinder -merge +onlyGivenNames x12
    have h13 : Kept q x12 := by
      unfold x12
      refine ite_kept ?_ ?_
      · apply State.groupEnable_kept
        exact h
      · exact h
    clear_value x12
    refine ite_kept ?_ ?_
    · apply State.groupDisable_kept
      exact h13
    · exact h13
  · refine ite_kept ?_ ?_
    · apply State.moduleReset_kept
      exact h
    · exact h
  · apply State.osqWord_kept
    exact h
  · refine ite_kept ?_ ?_
    · apply State.attStart_kept
      exact h
    · exact h
  · refine ite_kept ?_ ?_
    · exact h
    · apply State.wr_kept
      exact h
  · apply State.class5_kept
    · exact h
    · apply State.wr_kept
      exact h
  · apply State.class5_kept
    · exact h
    · apply State.wr_kept
      exact h
  · refine ite_kept ?_ ?_
    · apply State.pinHold_kept
      exact h
    · exact h
  · extract_lets -underBinder -merge +onlyGivenNames x14
    have h15 : Kept q x14 := by
      unfold x14
      refine ite_kept ?_ ?_
      · apply State.keelKick_kept
        exact h
      · exact h
    clear_value x14
    refine ite_kept ?_ ?_
    · apply State.osKickNow_kept
      exact h15
    · exact h15
  · refine ite_kept ?_ ?_
    · apply State.injArm_kept
      exact h
    · exact h
  · refine ite_kept ?_ ?_
    · apply State.srcCfg_kept
      exact h
    · exact h
  · refine ite_kept ?_ ?_
    · exact h
    · refine ite_kept ?_ ?_
      · apply State.latch_kept
        exact h
      · apply State.unlatch_kept
        exact h
  · apply State.resCtrl_kept
    exact h
  · apply State.lastWrite_kept
    exact h
  · refine ite_kept ?_ ?_
    · apply State.capWrite_kept
      exact h
    · exact h
  · refine ite_kept ?_ ?_
    · apply State.setF_kept
      exact h
    · exact h
  · refine ite_kept ?_ ?_
    · apply State.orderlyStop_kept
      exact h
    · exact h
  · apply State.capForce_kept
    exact h
  · refine ite_kept ?_ ?_
    · apply State.setF_kept
      exact h
    · exact h
  · exact h

theorem State.regStore_kept {q : List Instr} {s : State} (h : Kept q s) (a1) (a2) : Kept q (State.regStore s a1 a2) := by
  unfold State.regStore
  extract_lets -underBinder -merge +onlyGivenNames x0
  clear_value x0
  extract_lets -underBinder -merge +onlyGivenNames x1
  clear_value x1
  extract_lets -underBinder -merge +onlyGivenNames x2
  have h3 : Kept q x2 := by
    unfold x2
    refine ite_kept ?_ ?_
    · exact h
    · refine ite_kept ?_ ?_
      · exact h
      · apply State.wr_kept
        exact h
  clear_value x2
  extract_lets -underBinder -merge +onlyGivenNames x4
  have h5 : Kept q x4 := by
    unfold x4
    refine ite_kept ?_ ?_
    · apply State.lcViolation_kept
      exact h3
    · exact h3
  clear_value x4
  apply State.ctlEffect_kept
  exact h5

theorem State.ctlWrite_kept {q : List Instr} {s : State} (h : Kept q s) (a1) (a2) (a3) (a4) : Kept q (State.ctlWrite s a1 a2 a3 a4).2 := by
  unfold State.ctlWrite
  refine ite_kept2 ?_ ?_
  · refine snd_mk ?_
    apply State.accessErr_kept
    exact h
  · split
    · refine snd_mk ?_
      apply State.accessErr_kept
      exact h
    · refine snd_mk ?_
      refine ite_kept ?_ ?_
      · apply State.aclintWrite_kept
        exact h
      · apply State.aclintWrite_kept
        apply State.aclintWrite_kept
        exact h
    · refine snd_mk ?_
      refine ite_kept ?_ ?_
      · apply State.plicWrite_kept
        exact h
      · apply State.plicWrite_kept
        apply State.plicWrite_kept
        exact h
    · split
      · refine snd_mk ?_
        exact h
      · extract_lets -underBinder -merge +onlyGivenNames x0
        clear_value x0
        extract_lets -underBinder -merge +onlyGivenNames x1
        extract_lets -underBinder -merge +onlyGivenNames x2
        clear_value x2
        extract_lets -underBinder -merge +onlyGivenNames x3
        clear_value x3
        extract_lets -underBinder -merge +onlyGivenNames x4
        clear_value x4
        extract_lets -underBinder -merge +onlyGivenNames x5
        clear_value x5
        refine snd_mk ?_
        apply State.regStore_kept
        exact h

theorem State.setMgt_kept {q : List Instr} {s : State} (h : Kept q s) (a1) : Kept q (State.setMgt s a1) := by
  unfold State.setMgt
  refine kept_mk ?_
  exact h

theorem State.mgtSend_kept {q : List Instr} {s : State} (h : Kept q s) (a1) (a2) : Kept q (State.mgtSend s a1 a2) := by
  unfold State.mgtSend
  split
  · apply State.send_kept
    exact h
  · extract_lets -underBinder -merge +onlyGivenNames x0
    clear_value x0
    extract_lets -underBinder -merge +onlyGivenNames x1
    clear_value x1
    extract_lets -underBinder -merge +onlyGivenNames x2
    have h3 : Kept q x2 := by
      unfold x2
      apply State.setMgt_kept
      exact h
    clear_value x2
    apply State.issue_kept
    exact h3

theorem State.sessStat_kept {q : List Instr} {s : State} (h : Kept q s) : Kept q (State.sessStat s) := by
  unfold State.sessStat
  apply State.setF_kept
  exact h

theorem State.putSess_kept {q : List Instr} {s : State} (h : Kept q s) (a1) : Kept q (State.putSess s a1) := by
  unfold State.putSess
  apply State.sessStat_kept
  apply State.setMgt_kept
  exact h

theorem State.dropSess_kept {q : List Instr} {s : State} (h : Kept q s) (a1) : Kept q (State.dropSess s a1) := by
  unfold State.dropSess
  apply State.sessStat_kept
  apply State.setMgt_kept
  exact h

theorem State.tagFail_kept {q : List Instr} {s : State} (h : Kept q s) : Kept q (State.tagFail s) := by
  unfold State.tagFail
  extract_lets -underBinder -merge +onlyGivenNames x0
  have h1 : Kept q x0 := by
    unfold x0
    apply State.bump_kept
    exact h
  clear_value x0
  extract_lets -underBinder -merge +onlyGivenNames x2
  clear_value x2
  refine ite_kept ?_ ?_
  · apply State.setMgt_kept
    exact h1
  · refine ite_kept ?_ ?_
    · apply State.raise_kept
      apply State.setMgt_kept
      exact h1
    · apply State.setMgt_kept
      exact h1

theorem State.helloReply_kept {q : List Instr} {s : State} (h : Kept q s) (a1) (a2) (a3) (a4) : Kept q (State.helloReply s a1 a2 a3 a4) := by
  unfold State.helloReply
  extract_lets -underBinder -merge +onlyGivenNames x0
  have h1 : Kept q x0 := by
    unfold x0
    refine ite_kept ?_ ?_
    · apply State.bump_kept
      exact h
    · exact h
  clear_value x0
  apply State.mgtSend_kept
  exact h1

theorem State.hello_kept {q : List Instr} {s : State} (h : Kept q s) (a1) (a2) (a3) (a4) : Kept q (State.hello s a1 a2 a3 a4) := by
  unfold State.hello
  extract_lets -underBinder -merge +onlyGivenNames x0
  clear_value x0
  extract_lets -underBinder -merge +onlyGivenNames x1
  clear_value x1
  extract_lets -underBinder -merge +onlyGivenNames x2
  clear_value x2
  extract_lets -underBinder -merge +onlyGivenNames x3
  have h4 : Kept q x3 := by
    unfold x3
    apply State.setMgt_kept
    exact h
  clear_value x3
  refine ite_kept ?_ ?_
  · exact h4
  · refine ite_kept ?_ ?_
    · apply State.helloReply_kept
      exact h4
    · refine ite_kept ?_ ?_
      · apply State.helloReply_kept
        exact h4
      · extract_lets -underBinder -merge +onlyGivenNames x5
        clear_value x5
        extract_lets -underBinder -merge +onlyGivenNames x6
        have h7 : Kept q x6 := by
          unfold x6
          refine ite_kept ?_ ?_
          · exact h4
          · split
            · exact h4
            · extract_lets -underBinder -merge +onlyGivenNames x8
              clear_value x8
              apply State.dropSess_kept
              exact h4
        clear_value x6
        refine ite_kept ?_ ?_
        · apply State.helloReply_kept
          exact h7
        · split
          split
          split
          split
          split
          split
          extract_lets -underBinder -merge +onlyGivenNames x9
          clear_value x9
          extract_lets -underBinder -merge +onlyGivenNames x10
          clear_value x10
          extract_lets -underBinder -merge +onlyGivenNames x11
          clear_value x11
          extract_lets -underBinder -merge +onlyGivenNames x12
          clear_value x12
          extract_lets -underBinder -merge +onlyGivenNames x13
          clear_value x13
          extract_lets -underBinder -merge +onlyGivenNames x14
          clear_value x14
          extract_lets -underBinder -merge +onlyGivenNames x15
          clear_value x15
          extract_lets -underBinder -merge +onlyGivenNames x16
          clear_value x16
          extract_lets -underBinder -merge +onlyGivenNames x17
          have h18 : Kept q x17 := by
            unfold x17
            apply State.sessStat_kept
            apply State.setMgt_kept
            refine snd_kept (by assumption) ?_
            apply State.draw_kept
            refine snd_kept (by assumption) ?_
            apply State.draw_kept
            refine snd_kept (by assumption) ?_
            apply State.draw_kept
            refine snd_kept (by assumption) ?_
            apply State.draw_kept
            refine snd_kept (by assumption) ?_
            apply State.draw_kept
            refine snd_kept (by assumption) ?_
            apply State.draw_kept
            exact h7
          clear_value x17
          apply State.helloReply_kept
          exact h18

theorem State.finish_kept {q : List Instr} {s : State} (h : Kept q s) (a1) (a2) : Kept q (State.finish s a1 a2) := by
  unfold State.finish
  split
  · exact h
  · refine ite_kept ?_ ?_
    · exact h
    · refine ite_kept ?_ ?_
      · extract_lets -underBinder -merge +onlyGivenNames x0
        clear_value x0
        apply State.mgtSend_kept
        apply State.putSess_kept
        exact h
      · apply State.dropSess_kept
        exact h

theorem State.setRemain_kept {q : List Instr} {s : State} (h : Kept q s) (a1) : Kept q (State.setRemain s a1) := by
  unfold State.setRemain
  apply State.setF_kept
  apply State.setMgt_kept
  exact h

theorem State.adjust_kept {q : List Instr} {s : State} (h : Kept q s) (a1) : Kept q (State.adjust s a1) := by
  unfold State.adjust
  extract_lets -underBinder -merge +onlyGivenNames x0
  clear_value x0
  refine ite_kept ?_ ?_
  · extract_lets -underBinder -merge +onlyGivenNames x1
    have h2 : Kept q x1 := by
      unfold x1
      apply State.setF_kept
      exact h
    clear_value x1
    apply State.notice_kept
    apply State.setF_kept
    apply State.setRemain_kept
    exact h2
  · extract_lets -underBinder -merge +onlyGivenNames x3
    clear_value x3
    extract_lets -underBinder -merge +onlyGivenNames x4
    have h5 : Kept q x4 := by
      unfold x4
      refine kept_mk ?_
      exact h
    clear_value x4
    apply State.setF_kept
    apply State.setRemain_kept
    exact h5

theorem State.slewDone_kept {q : List Instr} {s : State} (h : Kept q s) : Kept q (State.slewDone s) := by
  unfold State.slewDone
  refine ite_kept ?_ ?_
  · apply State.setF_kept
    exact h
  · exact h

theorem State.tick_kept {q : List Instr} {s : State} (h : Kept q s) : Kept q (State.tick s) := by
  unfold State.tick
  extract_lets -underBinder -merge +onlyGivenNames x0
  clear_value x0
  refine ite_kept ?_ ?_
  · extract_lets -underBinder -merge +onlyGivenNames x1
    clear_value x1
    extract_lets -underBinder -merge +onlyGivenNames x2
    clear_value x2
    extract_lets -underBinder -merge +onlyGivenNames x3
    have h4 : Kept q x3 := by
      unfold x3
      refine kept_mk ?_
      exact h
    clear_value x3
    extract_lets -underBinder -merge +onlyGivenNames x5
    have h6 : Kept q x5 := by
      unfold x5
      apply State.setRemain_kept
      exact h4
    clear_value x5
    refine ite_kept ?_ ?_
    · apply State.setF_kept
      exact h6
    · exact h6
  · apply State.setF_kept
    refine kept_mk ?_
    exact h

theorem State.ans_kept {q : List Instr} {s : State} (h : Kept q s) (a1) (a2) : Kept q (State.ans s a1 a2).s := by
  unfold State.ans
  refine ans_mk ?_
  exact h

theorem State.imgAns_kept {q : List Instr} {s : State} (h : Kept q s) (a1) (a2) : Kept q (State.imgAns s a1 a2).s := by
  unfold State.imgAns
  apply State.ans_kept
  exact h

theorem State.dropXfer_kept {q : List Instr} {s : State} (h : Kept q s) : Kept q (State.dropXfer s) := by
  unfold State.dropXfer
  apply State.setSec_kept
  exact h

theorem State.imgAccept_kept {q : List Instr} {s : State} (h : Kept q s) (a1) (a2) : Kept q (State.imgAccept s a1 a2).s := by
  unfold State.imgAccept
  extract_lets -underBinder -merge +onlyGivenNames x0
  clear_value x0
  refine ite_keptA ?_ ?_
  · apply State.imgAns_kept
    apply State.installPending_kept
    exact h
  · refine ite_keptA ?_ ?_
    · extract_lets -underBinder -merge +onlyGivenNames x1
      clear_value x1
      refine ite_keptA ?_ ?_
      · extract_lets -underBinder -merge +onlyGivenNames x2
        have h3 : Kept q x2.s := by
          unfold x2
          apply State.imgAns_kept
          apply State.installRoots_kept
          apply State.tokenOk_kept
          exact h
        clear_value x2
        refine ans_mk ?_
        exact h3
      · extract_lets -underBinder -merge +onlyGivenNames x4
        have h5 : Kept q x4.s := by
          unfold x4
          apply State.imgAns_kept
          apply State.installRoots_kept
          exact h
        clear_value x4
        refine ans_mk ?_
        exact h5
    · extract_lets -underBinder -merge +onlyGivenNames x6
      have h7 : Kept q x6 := by
        unfold x6
        apply State.tokenOk_kept
        exact h
      clear_value x6
      extract_lets -underBinder -merge +onlyGivenNames x8
      clear_value x8
      refine ite_keptA ?_ ?_
      · extract_lets -underBinder -merge +onlyGivenNames x9
        clear_value x9
        apply State.imgAns_kept
        apply State.openScopes_kept
        exact h7
      · extract_lets -underBinder -merge +onlyGivenNames x10
        have h11 : Kept q x10.s := by
          unfold x10
          apply State.imgAns_kept
          exact h7
        clear_value x10
        refine ans_mk ?_
        exact h11

theorem State.imgEnd_kept {q : List Instr} {s : State} (h : Kept q s) (a1) (a2) : Kept q (State.imgEnd s a1 a2).s := by
  unfold State.imgEnd
  split
  · apply State.imgAns_kept
    exact h
  · refine ite_keptA ?_ ?_
    · apply State.imgAns_kept
      exact h
    · extract_lets -underBinder -merge +onlyGivenNames x0
      have h1 : Kept q x0 := by
        unfold x0
        apply State.dropXfer_kept
        exact h
      clear_value x0
      extract_lets -underBinder -merge +onlyGivenNames x2
      clear_value x2
      refine ite_keptA ?_ ?_
      · apply State.imgAccept_kept
        exact h1
      · apply State.imgAns_kept
        apply State.objectDenied_kept
        exact h1

theorem State.mgtReset_kept {q : List Instr} {s : State} (h : Kept q s) : Kept q (State.mgtReset s).s := by
  unfold State.mgtReset
  refine ite_keptA ?_ ?_
  · apply State.ans_kept
    exact h
  · refine ite_keptA ?_ ?_
    · refine ite_keptA ?_ ?_
      · extract_lets -underBinder -merge +onlyGivenNames x0
        have h1 : Kept q x0.s := by
          unfold x0
          apply State.ans_kept
          apply State.notice_kept
          exact h
        clear_value x0
        refine ans_mk ?_
        exact h1
      · apply State.ans_kept
        apply State.setF_kept
        exact h
    · extract_lets -underBinder -merge +onlyGivenNames x2
      have h3 : Kept q x2.s := by
        unfold x2
        apply State.ans_kept
        apply State.notice_kept
        exact h
      clear_value x2
      refine ans_mk ?_
      exact h3

theorem State.mgtDo_kept {q : List Instr} {s : State} (h : Kept q s) (a1) (a2) (a3) : Kept q (State.mgtDo s a1 a2 a3).s := by
  unfold State.mgtDo
  extract_lets -underBinder -merge +onlyGivenNames x0
  clear_value x0
  split
  · apply State.ans_kept
    exact h
  · refine ite_keptA ?_ ?_
    · apply State.ans_kept
      exact h
    · split
      · apply State.ans_kept
        refine snd_kept (by assumption) ?_
        apply State.ctlRead_kept
        exact h
      · apply State.ans_kept
        refine snd_kept (by assumption) ?_
        apply State.ctlRead_kept
        exact h
  · refine ite_keptA ?_ ?_
    · apply State.ans_kept
      exact h
    · split
      · apply State.ans_kept
        refine snd_kept (by assumption) ?_
        apply State.ctlWrite_kept
        exact h
      · apply State.ans_kept
        refine snd_kept (by assumption) ?_
        apply State.ctlWrite_kept
        exact h
  · apply State.ans_kept
    exact h
  · apply State.ans_kept
    exact h
  · apply State.ans_kept
    apply State.adjust_kept
    exact h
  · apply State.mgtReset_kept
    exact h
  · apply State.ans_kept
    apply State.notice_kept
    apply State.capWrite_kept
    exact h
  · refine ite_keptA ?_ ?_
    · apply State.imgAns_kept
      apply State.bump_kept
      exact h
    · apply State.imgAns_kept
      apply State.setSec_kept
      exact h
  · split
    · apply State.imgAns_kept
      exact h
    · extract_lets -underBinder -merge +onlyGivenNames x1
      clear_value x1
      extract_lets -underBinder -merge +onlyGivenNames x2
      have h3 : Kept q x2 := by
        unfold x2
        apply State.setSec_kept
        exact h
      clear_value x2
      refine ite_keptA ?_ ?_
      · apply State.imgAns_kept
        exact h3
      · apply State.imgAns_kept
        apply State.setSec_kept
        exact h3
  · apply State.imgEnd_kept
    exact h
  · split
    · refine ite_keptA ?_ ?_
      · apply State.imgAns_kept
        apply State.dropXfer_kept
        exact h
      · apply State.imgAns_kept
        exact h
    · apply State.imgAns_kept
      exact h
  · extract_lets -underBinder -merge +onlyGivenNames x4
    have h5 : Kept q x4.s := by
      unfold x4
      apply State.ans_kept
      exact h
    clear_value x4
    refine ans_mk ?_
    exact h5
  · apply State.ans_kept
    exact h

theorem State.mgtAfter_kept {q : List Instr} {s : State} (h : Kept q s) (a1) (a2) : Kept q (State.mgtAfter s a1 a2) := by
  unfold State.mgtAfter
  extract_lets -underBinder -merge +onlyGivenNames x0
  have h1 : Kept q x0 := by
    unfold x0
    refine ite_kept ?_ ?_
    · apply State.dropSess_kept
      exact h
    · exact h
  clear_value x0
  extract_lets -underBinder -merge +onlyGivenNames x2
  have h3 : Kept q x2 := by
    unfold x2
    refine ite_kept ?_ ?_
    · apply State.dropSess_kept
      exact h1
    · exact h1
  clear_value x2
  extract_lets -underBinder -merge +onlyGivenNames x4
  have h5 : Kept q x4 := by
    unfold x4
    split
    · apply State.lifeChange_kept
      exact h3
    · exact h3
  clear_value x4
  split
  · apply State.restart_kept
    exact h5
  · apply State.moduleReset_kept
    exact h5
  · exact h5

theorem State.loaded_kept {q : List Instr} {s : State} (h : Kept q s) : Kept q (State.loaded s).2 := by
  unfold State.loaded
  extract_lets -underBinder -merge +onlyGivenNames x0
  clear_value x0
  extract_lets -underBinder -merge +onlyGivenNames x1
  clear_value x1
  refine snd_mk ?_
  apply State.setMgt_kept
  exact h

theorem State.mgtArrive_kept {q : List Instr} {s : State} (h : Kept q s) (x : MgtHdr) {k busy : State → State}
    (hk : ∀ s, Kept q s → Kept q (k s)) (hb : ∀ s, Kept q s → Kept q (busy s)) : Kept q (s.mgtArrive x k busy) :=
  ite_kept h (ite_kept (State.bump_kept h _ _ _ _) (ite_kept (hb _ (State.bump_kept (State.loaded_kept h) _ _ _ _)) (hk _ (State.loaded_kept h))))

theorem State.mgtBare_kept {q : List Instr} {s : State} (h : Kept q s) (a1) (a2) : Kept q (State.mgtBare s a1 a2) := by
  unfold State.mgtBare
  extract_lets -underBinder -merge +onlyGivenNames x0
  refine ite_kept ?_ ?_
  · unfold x0
    apply State.mgtSend_kept
    exact h
  · extract_lets -underBinder -merge +onlyGivenNames x1
    have h2 : Kept q x1.s := by
      unfold x1
      apply State.mgtDo_kept
      exact h
    clear_value x1
    apply State.mgtAfter_kept
    unfold x0
    apply State.mgtSend_kept
    exact h2

theorem State.mgtSess_kept {q : List Instr} {s : State} (h : Kept q s) (a1) (a2) (a3) : Kept q (State.mgtSess s a1 a2 a3) := by
  unfold State.mgtSess
  split
  · apply State.mgtSend_kept
    exact h
  · refine ite_kept ?_ ?_
    · apply State.bump_kept
      exact h
    · extract_lets -underBinder -merge +onlyGivenNames x0
      clear_value x0
      extract_lets -underBinder -merge +onlyGivenNames x1
      have h2 : Kept q x1 := by
        unfold x1
        apply State.putSess_kept
        exact h
      clear_value x1
      extract_lets -underBinder -merge +onlyGivenNames x3
      clear_value x3
      extract_lets -underBinder -merge +onlyGivenNames x4
      have h5 : Kept q x4.s := by
        unfold x4
        refine ite_keptA ?_ ?_
        · apply State.ans_kept
          exact h2
        · refine ite_keptA ?_ ?_
          · apply State.ans_kept
            exact h2
          · refine ite_keptA ?_ ?_
            · apply State.ans_kept
              exact h2
            · apply State.mgtDo_kept
              exact h2
      clear_value x4
      extract_lets -underBinder -merge +onlyGivenNames x6
      clear_value x6
      extract_lets -underBinder -merge +onlyGivenNames x7
      have h8 : Kept q x7 := by
        unfold x7
        exact h5
      clear_value x7
      extract_lets -underBinder -merge +onlyGivenNames x9
      have h10 : Kept q x9 := by
        unfold x9
        split
        · apply State.putSess_kept
          exact h8
        · exact h8
      clear_value x9
      apply State.mgtAfter_kept
      apply State.mgtSend_kept
      exact h10

theorem State.mgtCmd_kept {q : List Instr} {s : State} (h : Kept q s) (a1) (a2) : Kept q (State.mgtCmd s a1 a2) := by
  unfold State.mgtCmd
  extract_lets -underBinder -merge +onlyGivenNames x0
  apply State.mgtArrive_kept
  · exact h
  · intro x1
    intro x2
    refine ite_kept ?_ ?_
    · apply State.mgtBare_kept
      exact x2
    · split
      · apply State.tagFail_kept
        exact x2
      · refine ite_kept ?_ ?_
        · apply State.tagFail_kept
          exact x2
        · apply State.mgtSess_kept
          apply State.setMgt_kept
          exact x2
  · intro x3
    intro x4
    unfold x0
    split
    · apply State.mgtSend_kept
      exact x4
    · apply State.mgtSend_kept
      exact x4

theorem State.ident_kept {q : List Instr} {s : State} (h : Kept q s) (a1) : Kept q (State.ident s a1) := by
  unfold State.ident
  apply State.mgtArrive_kept
  · exact h
  · intro x0
    intro x1
    apply State.mgtSend_kept
    exact x1
  · intro x2
    intro x3
    apply State.mgtSend_kept
    exact x3

theorem State.mgtHello_kept {q : List Instr} {s : State} (h : Kept q s) (a1) (a2) (a3) (a4) : Kept q (State.mgtHello s a1 a2 a3 a4) := by
  unfold State.mgtHello
  apply State.mgtArrive_kept
  · exact h
  · intro x0
    intro x1
    apply State.hello_kept
    exact x1
  · intro x2
    intro x3
    apply State.mgtSend_kept
    exact x3

theorem State.mgtFinish_kept {q : List Instr} {s : State} (h : Kept q s) (a1) (a2) : Kept q (State.mgtFinish s a1 a2) := by
  unfold State.mgtFinish
  apply State.mgtArrive_kept
  · exact h
  · intro x0
    intro x1
    apply State.finish_kept
    exact x1
  · intro x2
    intro x3
    apply State.mgtSend_kept
    exact x3

theorem State.xferTimeout_kept {q : List Instr} {s : State} (h : Kept q s) : Kept q (State.xferTimeout s) := by
  unfold State.xferTimeout
  apply State.dropXfer_kept
  exact h

theorem State.idleClose_kept {q : List Instr} {s : State} (h : Kept q s) (a1) : Kept q (State.idleClose s a1) := by
  unfold State.idleClose
  apply State.dropSess_kept
  exact h

theorem State.mgtMessage_kept {q : List Instr} {s : State} (h : Kept q s) (a1) (a2) : Kept q (State.mgtMessage s a1 a2) := by
  unfold State.mgtMessage
  extract_lets -underBinder -merge +onlyGivenNames x0
  clear_value x0
  refine ite_kept ?_ ?_
  · apply State.bump_kept
    exact h
  · extract_lets -underBinder -merge +onlyGivenNames x1
    clear_value x1
    extract_lets -underBinder -merge +onlyGivenNames x2
    clear_value x2
    extract_lets -underBinder -merge +onlyGivenNames x3
    clear_value x3
    extract_lets -underBinder -merge +onlyGivenNames x4
    clear_value x4
    extract_lets -underBinder -merge +onlyGivenNames x5
    clear_value x5
    extract_lets -underBinder -merge +onlyGivenNames x6
    clear_value x6
    refine ite_kept ?_ ?_
    · apply State.ident_kept
      exact h
    · refine ite_kept ?_ ?_
      · apply State.mgtHello_kept
        exact h
      · refine ite_kept ?_ ?_
        · apply State.mgtFinish_kept
          exact h
        · extract_lets -underBinder -merge +onlyGivenNames x7
          clear_value x7
          apply State.mgtCmd_kept
          exact h

theorem State.fragment_kept {q : List Instr} {s : State} (h : Kept q s) (a1) : Kept q (State.fragment s a1) := by
  unfold State.fragment
  split
  · exact h
  · extract_lets -underBinder -merge +onlyGivenNames x0
    have h1 : Kept q x0 := by
      unfold x0
      apply State.takeCells_kept
      exact h
    clear_value x0
    extract_lets -underBinder -merge +onlyGivenNames x2
    clear_value x2
    extract_lets -underBinder -merge +onlyGivenNames x3
    clear_value x3
    extract_lets -underBinder -merge +onlyGivenNames x4
    clear_value x4
    extract_lets -underBinder -merge +onlyGivenNames x5
    clear_value x5
    refine ite_kept ?_ ?_
    · exact h1
    · extract_lets -underBinder -merge +onlyGivenNames x6
      clear_value x6
      extract_lets -underBinder -merge +onlyGivenNames x7
      clear_value x7
      extract_lets -underBinder -merge +onlyGivenNames x8
      clear_value x8
      refine ite_kept ?_ ?_
      · apply State.setMgt_kept
        exact h1
      · apply State.mgtMessage_kept
        apply State.setMgt_kept
        exact h1

theorem State.fragTimeout_kept {q : List Instr} {s : State} (h : Kept q s) (a1) (a2) : Kept q (State.fragTimeout s a1 a2) := by
  unfold State.fragTimeout
  apply State.setMgt_kept
  exact h

theorem State.linkChange_kept {q : List Instr} {s : State} (h : Kept q s) (a1) : Kept q (State.linkChange s a1) := by
  unfold State.linkChange
  apply State.setF_kept
  exact h

theorem State.osReceive_kept {q : List Instr} {s : State} (h : Kept q s) (a1) (a2) (a3) : Kept q (State.osReceive s a1 a2 a3) := by
  unfold State.osReceive
  refine ite_kept ?_ ?_
  · exact h
  · refine ite_kept ?_ ?_
    · apply State.bump_kept
      exact h
    · refine ite_kept ?_ ?_
      · exact h
      · refine ite_kept ?_ ?_
        · apply State.bump_kept
          exact h
        · extract_lets -underBinder -merge +onlyGivenNames x0
          clear_value x0
          refine ite_kept ?_ ?_
          · apply State.accessErr_kept
            apply State.bump_kept
            exact h
          · extract_lets -underBinder -merge +onlyGivenNames x1
            have h2 : Kept q x1 := by
              unfold x1
              apply State.store_kept
              exact h
            clear_value x1
            apply State.irq_kept
            apply State.setMgt_kept
            exact h2

theorem State.osTransmit_kept {q : List Instr} {s : State} (h : Kept q s) (a1) : Kept q (State.osTransmit s a1) := by
  unfold State.osTransmit
  refine ite_kept ?_ ?_
  · exact h
  · extract_lets -underBinder -merge +onlyGivenNames x0
    clear_value x0
    refine ite_kept ?_ ?_
    · apply State.accessErr_kept
      exact h
    · refine ite_kept ?_ ?_
      · exact h
      · extract_lets -underBinder -merge +onlyGivenNames x1
        have h2 : Kept q x1 := by
          unfold x1
          apply State.checkRead_kept
          exact h
        clear_value x1
        apply State.setMgt_kept
        apply State.send_kept
        exact h2

theorem State.ipv6_kept {q : List Instr} {s : State} (h : Kept q s) (ext : Bool) {k : State → State}
    (hk : ∀ s, Kept q s → Kept q (k s)) : Kept q (s.ipv6 ext k) :=
  ite_kept h (ite_kept (State.bump_kept h _ _ _ _) (hk _ h))

theorem State.advert_kept {q : List Instr} {s : State} (h : Kept q s) (a1) (a2) : Kept q (State.advert s a1 a2) := by
  unfold State.advert
  apply State.ipv6_kept
  · exact h
  · intro x0
    intro x1
    extract_lets -underBinder -merge +onlyGivenNames x2
    clear_value x2
    refine ite_kept ?_ ?_
    · exact x1
    · apply State.setF_kept
      apply State.setMgt_kept
      exact x1

theorem State.neighbour_kept {q : List Instr} {s : State} (h : Kept q s) (a1) (a2) : Kept q (State.neighbour s a1 a2) := by
  unfold State.neighbour
  apply State.ipv6_kept
  · exact h
  · intro x0
    intro x1
    refine ite_kept ?_ ?_
    · apply State.send_kept
      exact x1
    · exact x1

theorem State.echo_kept {q : List Instr} {s : State} (h : Kept q s) (a1) (a2) (a3) : Kept q (State.echo s a1 a2 a3) := by
  unfold State.echo
  apply State.ipv6_kept
  · exact h
  · intro x0
    intro x1
    refine ite_kept ?_ ?_
    · apply State.send_kept
      exact x1
    · exact x1

theorem State.smb_kept {q : List Instr} {s : State} (h : Kept q s) (pec : Bool) {k : State → State}
    (hk : ∀ s, Kept q s → Kept q (k s)) : Kept q (s.smb pec k) :=
  ite_kept h (ite_kept (State.setF_kept h _ _ _ _) (hk _ (State.bump_kept h _ _ _ _)))

theorem State.smbIdentity_kept {q : List Instr} {s : State} (h : Kept q s) (a1) : Kept q (State.smbIdentity s a1) := by
  unfold State.smbIdentity
  apply State.smb_kept
  · exact h
  · intro x0
    intro x1
    apply State.send_kept
    exact x1

theorem State.smbStatus_kept {q : List Instr} {s : State} (h : Kept q s) (a1) : Kept q (State.smbStatus s a1) := by
  unfold State.smbStatus
  apply State.smb_kept
  · exact h
  · intro x0
    intro x1
    apply State.send_kept
    exact x1

theorem State.smbPower_kept {q : List Instr} {s : State} (h : Kept q s) (a1) : Kept q (State.smbPower s a1) := by
  unfold State.smbPower
  apply State.smb_kept
  · exact h
  · intro x0
    intro x1
    apply State.send_kept
    exact x1

theorem State.smbTj_kept {q : List Instr} {s : State} (h : Kept q s) (a1) : Kept q (State.smbTj s a1) := by
  unfold State.smbTj
  apply State.smb_kept
  · exact h
  · intro x0
    intro x1
    apply State.send_kept
    exact x1

theorem State.smbStop_kept {q : List Instr} {s : State} (h : Kept q s) (a1) (a2) : Kept q (State.smbStop s a1 a2) := by
  unfold State.smbStop
  apply State.smb_kept
  · exact h
  · intro x0
    intro x1
    refine ite_kept ?_ ?_
    · exact x1
    · refine ite_kept ?_ ?_
      · apply State.orderlyStop_kept
        exact x1
      · apply State.setF_kept
        exact x1

theorem State.temperRotation_kept {q : List Instr} {s : State} (h : Kept q s) : Kept q (State.temperRotation s) := by
  unfold State.temperRotation
  refine ite_kept ?_ ?_
  · exact h
  · apply State.temperBegin_kept
    exact h

theorem State.temperTrigger_kept {q : List Instr} {s : State} (h : Kept q s) (a1) : Kept q (State.temperTrigger s a1) := by
  unfold State.temperTrigger
  refine ite_kept ?_ ?_
  · apply State.temperBegin_kept
    exact h
  · exact h

theorem State.loadNext_kept {q : List Instr} {s : State} (h : Kept q s) (a1) : Kept q (State.loadNext s a1) := by
  unfold State.loadNext
  split
  · apply State.loadTile_kept
    exact h
  · exact h

theorem State.checkNow_kept {q : List Instr} {s : State} (h : Kept q s) (a1) (a2) (a3) : Kept q (State.checkNow s a1 a2 a3) := by
  unfold State.checkNow
  refine ite_kept ?_ ?_
  · exact h
  · extract_lets -underBinder -merge +onlyGivenNames x0
    have h1 : Kept q x0.1 := by
      unfold x0
      apply State.checkCol_kept
      exact h
    clear_value x0
    apply State.startRun_kept
    refine ite_kept ?_ ?_
    · apply State.failChain_kept
      exact h1
    · exact h1

theorem State.startEpilogue_kept {q : List Instr} {s : State} (h : Kept q s) (a1) : Kept q (State.startEpilogue s a1) := by
  unfold State.startEpilogue
  split
  · apply State.startRun_kept
    exact h
  · exact h

theorem State.patStep_kept {q : List Instr} {s : State} (h : Kept q s) (a1) (a2) : Kept q (State.patStep s a1 a2) := by
  unfold State.patStep
  apply State.runInsn_kept
  refine ite_kept ?_ ?_
  · apply State.startRun_kept
    exact h
  · exact h

theorem State.reduceNow_kept {q : List Instr} {s : State} (h : Kept q s) (a1) : Kept q (State.reduceNow s a1) := by
  unfold State.reduceNow
  split
  · refine ite_kept ?_ ?_
    · apply State.finishUnit_kept
      exact h
    · exact h
  · exact h

theorem State.descWrite_kept {q : List Instr} {s : State} (h : Kept q s) (a1) (a2) (a3) (a4) : Kept q (State.descWrite s a1 a2 a3 a4) := by
  unfold State.descWrite
  extract_lets -underBinder -merge +onlyGivenNames x0
  clear_value x0
  extract_lets -underBinder -merge +onlyGivenNames x1
  clear_value x1
  apply State.regStore_kept
  exact h

theorem State.readReq_kept {q : List Instr} {s : State} (h : Kept q s) (a1) (a2) (a3) (a4) : Kept q (State.readReq s a1 a2 a3 a4) := by
  unfold State.readReq
  refine ite_kept ?_ ?_
  · apply State.ladleRead_kept
    exact h
  · apply State.accessErr_kept
    exact h

theorem State.writeReq_kept {q : List Instr} {s : State} (h : Kept q s) (a bs hint m) : Kept q (State.writeReq s a bs hint m) := by
  unfold State.writeReq
  refine ite_kept (State.accessErr_kept h _ _ _) ?_
  have h1 : Kept q (s.claimIf (s.inWindow a) a bs.length none).1 := State.claimIf_kept h _ _ _ _
  revert h1
  generalize s.claimIf (s.inWindow a) a bs.length none = z
  intro h1
  exact ite_kept (State.ladleWrite_kept h1 _ _ _ _) h1

theorem State.refreshNow_kept {q : List Instr} {s : State} (h : Kept q s) (a1) : Kept q (State.refreshNow s a1) := by
  unfold State.refreshNow
  refine ite_kept ?_ ?_
  · refine kept_mk ?_
    exact h
  · exact h

theorem State.rfmNow_kept {q : List Instr} {s : State} (h : Kept q s) (a1) : Kept q (State.rfmNow s a1) := by
  unfold State.rfmNow
  refine ite_kept ?_ ?_
  · refine kept_mk ?_
    exact h
  · exact h

theorem State.scrubNow_kept {q : List Instr} {s : State} (h : Kept q s) (a1) (a2) : Kept q (State.scrubNow s a1 a2) := by
  unfold State.scrubNow
  refine ite_kept ?_ ?_
  · refine foldS_kept _ ?_ ?_
    · exact h
    · intro x0
      intro x1 x2
      apply State.scrubUnit_kept
      exact x2
  · exact h

theorem State.parityError_kept {q : List Instr} {s : State} (h : Kept q s) (a1) (a2) : Kept q (State.parityError s a1 a2) := by
  unfold State.parityError
  refine ite_kept ?_ ?_
  · exact h
  · extract_lets -underBinder -merge +onlyGivenNames x0
    have h1 : Kept q x0 := by
      unfold x0
      apply State.bump_kept
      exact h
    clear_value x0
    extract_lets -underBinder -merge +onlyGivenNames x2
    clear_value x2
    refine ite_kept ?_ ?_
    · refine kept_mk ?_
      exact h1
    · refine ite_kept ?_ ?_
      · apply State.stackRetrain_kept
        exact h1
      · refine kept_mk ?_
        exact h1

theorem State.phyLoss_kept {q : List Instr} {s : State} (h : Kept q s) (a1) : Kept q (State.phyLoss s a1) := by
  unfold State.phyLoss
  refine ite_kept ?_ ?_
  · apply State.stackRetrain_kept
    exact h
  · exact h

theorem State.retrainDone_kept {q : List Instr} {s : State} (h : Kept q s) (a1) (a2) : Kept q (State.retrainDone s a1 a2) := by
  unfold State.retrainDone
  refine ite_kept ?_ ?_
  · exact h
  · refine ite_kept ?_ ?_
    · refine ite_kept ?_ ?_
      · apply State.setF_kept
        exact h
      · apply State.backOwed_kept
        apply State.setF_kept
        exact h
    · apply State.raiseLevel_kept
      apply State.backOwed_kept
      apply State.setF_kept
      exact h

theorem State.idle_kept {q : List Instr} {s : State} (h : Kept q s) : Kept q (State.idle s) := by
  unfold State.idle
  refine foldS_kept _ ?_ ?_
  · apply State.tick_kept
    exact h
  · intro x0
    intro x1 x2
    apply State.phyTake_kept
    exact x2

theorem State.rxAll_kept {q : List Instr} {s : State} (h : Kept q s) (a1) (a2) (a3) : Kept q (State.rxAll s a1 a2 a3) := by
  unfold State.rxAll
  refine foldS_kept _ ?_ ?_
  · exact h
  · intro x0
    intro x1 x2
    refine ite_kept ?_ ?_
    · apply State.rxLine_kept
      exact x2
    · exact x2

theorem State.recvAbandon_kept {q : List Instr} {s : State} (h : Kept q s) (a1) (a2) (a3) (a4) (a5) : Kept q (State.recvAbandon s a1 a2 a3 a4 a5) := by
  unfold State.recvAbandon
  extract_lets -underBinder -merge +onlyGivenNames x0
  clear_value x0
  refine ite_kept ?_ ?_
  · apply State.abandon_kept
    exact h
  · refine ite_kept ?_ ?_
    · apply State.abandon_kept
      exact h
    · exact h

theorem State.lockTimeout_kept {q : List Instr} {s : State} (h : Kept q s) (a1) : Kept q (State.lockTimeout s a1) := by
  unfold State.lockTimeout
  split
  · refine ite_kept ?_ ?_
    · exact h
    · apply State.swapRefuse_kept
      exact h
  · exact h

theorem State.heater_kept {q : List Instr} {s : State} (h : Kept q s) (a1) (a2) (a3) (a4) (a5) : Kept q (State.heater s a1 a2 a3 a4 a5) := by
  unfold State.heater
  extract_lets -underBinder -merge +onlyGivenNames x0
  clear_value x0
  extract_lets -underBinder -merge +onlyGivenNames x1
  have h2 : Kept q x1 := by
    unfold x1
    apply State.setF_kept
    exact h
  clear_value x1
  extract_lets -underBinder -merge +onlyGivenNames x3
  have h4 : Kept q x3 := by
    unfold x3
    refine ite_kept ?_ ?_
    · apply State.setF_kept
      exact h2
    · exact h2
  clear_value x3
  refine ite_kept ?_ ?_
  · apply State.ringLoss_kept
    exact h4
  · exact h4

theorem State.resendOldest_kept {q : List Instr} {s : State} (h : Kept q s) (a1) : Kept q (State.resendOldest s a1) := by
  unfold State.resendOldest
  split
  · apply State.resend_kept
    exact h
  · exact h

theorem State.ackDelay_kept {q : List Instr} {s : State} (h : Kept q s) (a1) (a2) (a3) : Kept q (State.ackDelay s a1 a2 a3) := by
  unfold State.ackDelay
  split
  · refine ite_kept ?_ ?_
    · exact h
    · apply State.sendAck_kept
      exact h
  · exact h

theorem State.coreLoad_kept {q : List Instr} {s : State} (h : Kept q s) (a1) (a2) (a3) (a4) : Kept q (State.coreLoad s a1 a2 a3 a4) := by
  unfold State.coreLoad
  refine ite_kept ?_ ?_
  · extract_lets -underBinder -merge +onlyGivenNames x0
    have h1 : Kept q x0.2 := by
      unfold x0
      apply State.ctlRead_kept
      exact h
    clear_value x0
    apply State.send_kept
    exact h1
  · refine ite_kept ?_ ?_
    · apply State.ownLoad_kept
      exact h
    · refine ite_kept ?_ ?_
      · apply State.ownLoad_kept
        exact h
      · apply State.trayLoad_kept
        exact h

theorem State.coreStore_kept {q : List Instr} {s : State} (h : Kept q s) (a1) (a2) (a3) (a4) : Kept q (State.coreStore s a1 a2 a3 a4) := by
  unfold State.coreStore
  refine ite_kept ?_ ?_
  · extract_lets -underBinder -merge +onlyGivenNames x0
    have h1 : Kept q x0.2 := by
      unfold x0
      apply State.ctlWrite_kept
      exact h
    clear_value x0
    apply State.send_kept
    exact h1
  · refine ite_kept ?_ ?_
    · apply State.ownStore_kept
      exact h
    · refine ite_kept ?_ ?_
      · apply State.ownStore_kept
        exact h
      · apply State.trayStore_kept
        exact h

theorem State.arise_kept {q : List Instr} {s : State} (h : Kept q s) (a1) (a2) : Kept q (State.arise s a1 a2) := by
  unfold State.arise
  refine ite_kept ?_ ?_
  · apply State.raiseLevel_kept
    exact h
  · apply State.raise_kept
    exact h

end Sys2Proof.Machine
end

