-- ==== Sys2Proof/Laws/KeptExec.lean ====
section
/-! SUPPORT. Every command that answers a next state keeps `Kept`: one lemma per meaning, then `exec` and `step`. -/

namespace Sys2Proof.Machine

theorem done_kept {q : List Instr} {u t : State} (e : done u = .next t) (h : Kept q u) : Kept q t := by
  unfold done at e
  rw [← Host.Outcome.next.inj e]
  exact settleN_kept h _

theorem onUnit_kept {q : List Instr} {c : Bool} {u t : State} (e : onUnit c (done u) = .next t) (h : Kept q u) : Kept q t := by
  unfold onUnit at e
  split at e
  · exact done_kept e h
  · exact absurd e (by simp)

theorem execGroupEnable_kept {Q : List Instr} {s t : State} (hs : Kept Q s) (g : Nat) (m : Master)
    (e : execGroupEnable g m s = .next t) : Kept Q t := by
  refine onUnit_kept e ?_
  apply State.groupEnable_kept
  exact hs

theorem execGroupDisable_kept {Q : List Instr} {s t : State} (hs : Kept Q s) (g : Nat) (_m : Master)
    (e : execGroupDisable g _m s = .next t) : Kept Q t := by
  refine onUnit_kept e ?_
  apply State.groupDisable_kept
  exact hs

theorem execGroupDrainTimeout_kept {Q : List Instr} {s t : State} (hs : Kept Q s) (g : Nat)
    (e : execGroupDrainTimeout g s = .next t) : Kept Q t := by
  refine onUnit_kept e ?_
  apply State.groupTimeout_kept
  exact hs

theorem execColGrpCfgWrite_kept {Q : List Instr} {s t : State} (hs : Kept Q s) (g : Nat) (list : Bool) (value : Nat) (m : Master)
    (e : execColGrpCfgWrite g list value m s = .next t) : Kept Q t := by
  refine onUnit_kept e ?_
  apply State.groupCfg_kept
  exact hs

theorem execAllReduce_kept {Q : List Instr} {s t : State} (hs : Kept Q s) (q : Nat)
    (e : execAllReduce q s = .next t) : Kept Q t := by
  refine onUnit_kept e ?_
  apply State.dispatchHead_kept
  exact hs

theorem execReduceScatter_kept {Q : List Instr} {s t : State} (hs : Kept Q s) (q : Nat)
    (e : execReduceScatter q s = .next t) : Kept Q t := by
  refine onUnit_kept e ?_
  apply State.dispatchHead_kept
  exact hs

theorem execAllGather_kept {Q : List Instr} {s t : State} (hs : Kept Q s) (q : Nat)
    (e : execAllGather q s = .next t) : Kept Q t := by
  refine onUnit_kept e ?_
  apply State.dispatchHead_kept
  exact hs

theorem execReduce_kept {Q : List Instr} {s t : State} (hs : Kept Q s) (q : Nat)
    (e : execReduce q s = .next t) : Kept Q t := by
  refine onUnit_kept e ?_
  apply State.dispatchHead_kept
  exact hs

theorem execBroadcast_kept {Q : List Instr} {s t : State} (hs : Kept Q s) (q : Nat)
    (e : execBroadcast q s = .next t) : Kept Q t := by
  refine onUnit_kept e ?_
  apply State.dispatchHead_kept
  exact hs

theorem execBarrier_kept {Q : List Instr} {s t : State} (hs : Kept Q s) (q : Nat)
    (e : execBarrier q s = .next t) : Kept Q t := by
  refine onUnit_kept e ?_
  apply State.dispatchHead_kept
  exact hs

theorem execCollSig_kept {Q : List Instr} {s t : State} (hs : Kept Q s) (src gid : Nat)
    (e : execCollSig src gid s = .next t) : Kept Q t := by
  refine done_kept e ?_
  apply State.collStat_kept
  apply State.colSigRecv_kept
  exact hs

theorem execCollData_kept {Q : List Instr} {s t : State} (hs : Kept Q s) (src gid : Nat)
    (e : execCollData src gid s = .next t) : Kept Q t := by
  refine done_kept e ?_
  apply State.collStat_kept
  apply State.colDataRecv_kept
  exact hs

theorem execCollEnd_kept {Q : List Instr} {s t : State} (hs : Kept Q s) (src gid : Nat)
    (e : execCollEnd src gid s = .next t) : Kept Q t := by
  refine done_kept e ?_
  apply State.collStat_kept
  apply State.colEndRecv_kept
  exact hs

theorem execCollAbort_kept {Q : List Instr} {s t : State} (hs : Kept Q s) (src gid : Nat)
    (e : execCollAbort src gid s = .next t) : Kept Q t := by
  refine done_kept e ?_
  apply State.collStat_kept
  apply State.colAbortRecv_kept
  exact hs

theorem execCollTimeout_kept {Q : List Instr} {s t : State} (hs : Kept Q s) (q seq : Nat)
    (e : execCollTimeout q seq s = .next t) : Kept Q t := by
  refine onUnit_kept e ?_
  apply State.colTimeout_kept
  exact hs

theorem execCollStageExpire_kept {Q : List Instr} {s t : State} (hs : Kept Q s) (gid : Nat)
    (e : execCollStageExpire gid s = .next t) : Kept Q t := by
  refine done_kept e ?_
  apply State.collStat_kept
  apply State.stageExpire_kept
  exact hs

theorem execD2dFrameReceive_kept {Q : List Instr} {s t : State} (hs : Kept Q s) (l dir x tag : Nat) (payload : List Byte) (way : FrameWay)
    (e : execD2dFrameReceive l dir x tag payload way s = .next t) : Kept Q t := by
  refine onUnit_kept e ?_
  apply State.frameReceive_kept
  exact hs

theorem execD2dNak_kept {Q : List Instr} {s t : State} (hs : Kept Q s) (l dir cls seq : Nat)
    (e : execD2dNak l dir cls seq s = .next t) : Kept Q t := by
  refine onUnit_kept e ?_
  apply State.nakReceive_kept
  exact hs

theorem execD2dLinkControl_kept {Q : List Instr} {s t : State} (hs : Kept Q s) (l dir : Nat) (acks credits : List Nat)
    (e : execD2dLinkControl l dir acks credits s = .next t) : Kept Q t := by
  refine onUnit_kept e ?_
  apply State.linkControl_kept
  exact hs

theorem execSliceRetrainDone_kept {Q : List Instr} {s t : State} (hs : Kept Q s) (l n : Nat) (ok : Bool) (repairs : List Nat) (eye : Nat)
    (e : execSliceRetrainDone l n ok repairs eye s = .next t) : Kept Q t := by
  refine onUnit_kept e ?_
  apply State.sliceRetrained_kept
  exact hs

theorem execD2dSwitch_kept {Q : List Instr} {s t : State} (hs : Kept Q s) (f : Nat) (_m : Master)
    (e : execD2dSwitch f _m s = .next t) : Kept Q t := by
  refine onUnit_kept e ?_
  apply State.d2dSwitch_kept
  exact hs

theorem execD2dModeChangeDone_kept {Q : List Instr} {s t : State} (hs : Kept Q s) (f : Nat) (work : Option EdgeWork)
    (e : execD2dModeChangeDone f work s = .next t) : Kept Q t := by
  refine onUnit_kept e ?_
  apply State.modeDone_kept
  exact hs

theorem execD2dLockLoss_kept {Q : List Instr} {s t : State} (hs : Kept Q s) (f : Nat)
    (e : execD2dLockLoss f s = .next t) : Kept Q t := by
  refine onUnit_kept e ?_
  apply State.lockLoss_kept
  exact hs

theorem execEdgeRetrainDone_kept {Q : List Instr} {s t : State} (hs : Kept Q s) (f : Nat) (work : Option EdgeWork)
    (e : execEdgeRetrainDone f work s = .next t) : Kept Q t := by
  refine onUnit_kept e ?_
  apply State.edgeRetrained_kept
  exact hs

theorem execSourceOccurrence_kept {Q : List Instr} {s t : State} (hs : Kept Q s) (n addr : Nat) (master : Nat) (atype : Nat)
    (e : execSourceOccurrence n addr master atype s = .next t) : Kept Q t := by
  refine onUnit_kept e ?_
  apply State.arise_kept
  exact hs

theorem execQuietExpire_kept {Q : List Instr} {s t : State} (hs : Kept Q s) (n : Nat)
    (e : execQuietExpire n s = .next t) : Kept Q t := by
  refine onUnit_kept e ?_
  apply State.quietExpire_kept
  exact hs

theorem execCountWindowExpire_kept {Q : List Instr} {s t : State} (hs : Kept Q s) (n : Nat)
    (e : execCountWindowExpire n s = .next t) : Kept Q t := by
  refine onUnit_kept e ?_
  apply State.countEnd_kept
  exact hs

theorem execSourceUnlatch_kept {Q : List Instr} {s t : State} (hs : Kept Q s) (n : Nat) (_m : Master)
    (e : execSourceUnlatch n _m s = .next t) : Kept Q t := by
  refine onUnit_kept e ?_
  apply State.unlatch_kept
  exact hs

theorem execSourceLatch_kept {Q : List Instr} {s t : State} (hs : Kept Q s) (n : Nat) (_m : Master)
    (e : execSourceLatch n _m s = .next t) : Kept Q t := by
  refine onUnit_kept e ?_
  apply State.latch_kept
  exact hs

theorem execEyeSrcCfgWrite_kept {Q : List Instr} {s t : State} (hs : Kept Q s) (n value : Nat) (m : Master)
    (e : execEyeSrcCfgWrite n value m s = .next t) : Kept Q t := by
  refine onUnit_kept e ?_
  apply State.srcCfg_kept
  exact hs

theorem execLogRecordMove_kept {Q : List Instr} {s t : State} (hs : Kept Q s)
    (e : execLogRecordMove s = .next t) : Kept Q t := by
  refine done_kept e ?_
  apply State.logMove_kept
  exact hs

theorem execAlertPulseEnd_kept {Q : List Instr} {s t : State} (hs : Kept Q s) (sec : Bool)
    (e : execAlertPulseEnd sec s = .next t) : Kept Q t := by
  refine done_kept e ?_
  apply State.pulseEnd_kept
  exact hs

theorem execEyePinHoldWrite_kept {Q : List Instr} {s t : State} (hs : Kept Q s) (alert sec : Nat) (m : Master)
    (e : execEyePinHoldWrite alert sec m s = .next t) : Kept Q t := by
  refine done_kept e ?_
  apply State.pinHold_kept
  exact hs

theorem execKeelKick_kept {Q : List Instr} {s t : State} (hs : Kept Q s) (m : Master)
    (e : execKeelKick m s = .next t) : Kept Q t := by
  refine done_kept e ?_
  apply State.keelKick_kept
  exact hs

theorem execOsKick_kept {Q : List Instr} {s t : State} (hs : Kept Q s) (_m : Master)
    (e : execOsKick _m s = .next t) : Kept Q t := by
  refine done_kept e ?_
  apply State.osKickNow_kept
  exact hs

theorem execKeelWatchdogExpire_kept {Q : List Instr} {s t : State} (hs : Kept Q s)
    (e : execKeelWatchdogExpire s = .next t) : Kept Q t := by
  refine done_kept e ?_
  apply State.keelExpire_kept
  exact hs

theorem execOsWatchdogExpire_kept {Q : List Instr} {s t : State} (hs : Kept Q s)
    (e : execOsWatchdogExpire s = .next t) : Kept Q t := by
  refine done_kept e ?_
  apply State.osExpire_kept
  exact hs

theorem execInjectionArm_kept {Q : List Instr} {s t : State} (hs : Kept Q s) (m : Master)
    (e : execInjectionArm m s = .next t) : Kept Q t := by
  refine done_kept e ?_
  apply State.injArm_kept
  exact hs

theorem execSweepStressPoint_kept {Q : List Instr} {s t : State} (hs : Kept Q s) (w a : Nat)
    (e : execSweepStressPoint w a s = .next t) : Kept Q t := by
  refine onUnit_kept e ?_
  apply State.sweepReached_kept
  exact hs

theorem execSweepAbandon_kept {Q : List Instr} {s t : State} (hs : Kept Q s) (w a : Nat)
    (e : execSweepAbandon w a s = .next t) : Kept Q t := by
  refine onUnit_kept e ?_
  apply State.sweepAbandon_kept
  exact hs

theorem execSweepEnd_kept {Q : List Instr} {s t : State} (hs : Kept Q s) (w a : Nat)
    (e : execSweepEnd w a s = .next t) : Kept Q t := by
  refine onUnit_kept e ?_
  apply State.sweepEnd_kept
  exact hs

theorem execLinkUnitReceive_kept {Q : List Instr} {s t : State} (hs : Kept Q s) (p : Nat) (u : LinkUnit) (way : UnitWay)
    (e : execLinkUnitReceive p u way s = .next t) : Kept Q t := by
  refine onUnit_kept e ?_
  apply State.unitArrives_kept
  exact hs

theorem execLinkNak_kept {Q : List Instr} {s t : State} (hs : Kept Q s) (p lseq : Nat)
    (e : execLinkNak p lseq s = .next t) : Kept Q t := by
  refine onUnit_kept e ?_
  apply State.resend_kept
  exact hs

theorem execLinkResendTimeout_kept {Q : List Instr} {s t : State} (hs : Kept Q s) (p : Nat)
    (e : execLinkResendTimeout p s = .next t) : Kept Q t := by
  refine onUnit_kept e ?_
  apply State.resendOldest_kept
  exact hs

theorem execLinkControlUnit_kept {Q : List Instr} {s t : State} (hs : Kept Q s) (p : Nat)
    (e : execLinkControlUnit p s = .next t) : Kept Q t := by
  refine onUnit_kept e ?_
  apply State.controlUnit_kept
  exact hs

theorem execCellRoute_kept {Q : List Instr} {s t : State} (hs : Kept Q s) (p v : Nat)
    (e : execCellRoute p v s = .next t) : Kept Q t := by
  refine onUnit_kept e ?_
  apply State.cellRoute_kept
  exact hs

theorem execPortUsabilityChange_kept {Q : List Instr} {s t : State} (hs : Kept Q s) (p : Nat)
    (e : execPortUsabilityChange p s = .next t) : Kept Q t := by
  refine onUnit_kept e ?_
  apply State.setUsable_kept
  exact hs

theorem execE2eDataReceive_kept {Q : List Instr} {s t : State} (hs : Kept Q s) (c : Nat)
    (e : execE2eDataReceive c s = .next t) : Kept Q t := by
  refine onUnit_kept e ?_
  apply State.ejected_kept hs
  intros
  apply State.dataRecv_kept
  assumption

theorem execE2eCloseReceive_kept {Q : List Instr} {s t : State} (hs : Kept Q s) (c : Nat)
    (e : execE2eCloseReceive c s = .next t) : Kept Q t := by
  refine onUnit_kept e ?_
  apply State.ejected_kept hs
  intros
  apply State.dataRecv_kept
  assumption

theorem execE2eAckReceive_kept {Q : List Instr} {s t : State} (hs : Kept Q s) (c : Nat)
    (e : execE2eAckReceive c s = .next t) : Kept Q t := by
  refine onUnit_kept e ?_
  apply State.ejected_kept hs
  intros
  apply State.ackRecv_kept
  assumption

theorem execE2eResetReceive_kept {Q : List Instr} {s t : State} (hs : Kept Q s) (c : Nat)
    (e : execE2eResetReceive c s = .next t) : Kept Q t := by
  refine onUnit_kept e ?_
  apply State.ejected_kept hs
  intros
  apply State.resetRecv_kept
  assumption

theorem execE2eAckDelayExpire_kept {Q : List Instr} {s t : State} (hs : Kept Q s) (peer c group : Nat)
    (e : execE2eAckDelayExpire peer c group s = .next t) : Kept Q t := by
  refine onUnit_kept e ?_
  apply State.ackDelay_kept
  exact hs

theorem execE2eRetransmit_kept {Q : List Instr} {s t : State} (hs : Kept Q s) (peer c : Nat) (mc : Bool)
    (e : execE2eRetransmit peer c mc s = .next t) : Kept Q t := by
  refine onUnit_kept e ?_
  apply State.retransmit_kept
  exact hs

theorem execPeerEvict_kept {Q : List Instr} {s t : State} (hs : Kept Q s) (peer : Nat)
    (e : execPeerEvict peer s = .next t) : Kept Q t := by
  refine done_kept e ?_
  apply State.closePeer_kept
  exact hs

theorem execRtLoad_kept {Q : List Instr} {s t : State} (hs : Kept Q s) (_m : Master)
    (e : execRtLoad _m s = .next t) : Kept Q t := by
  refine done_kept e ?_
  apply State.rtLoad_kept
  exact hs

theorem execRtArm_kept {Q : List Instr} {s t : State} (hs : Kept Q s) (_m : Master)
    (e : execRtArm _m s = .next t) : Kept Q t := by
  refine done_kept e ?_
  apply State.rtArm_kept
  exact hs

theorem execRtFlip_kept {Q : List Instr} {s t : State} (hs : Kept Q s) (_m : Master)
    (e : execRtFlip _m s = .next t) : Kept Q t := by
  refine done_kept e ?_
  apply State.rtFlip_kept
  exact hs

theorem execRtBankDrained_kept {Q : List Instr} {s t : State} (hs : Kept Q s) (b : Nat)
    (e : execRtBankDrained b s = .next t) : Kept Q t := by
  refine onUnit_kept e ?_
  apply State.rtDrained_kept
  exact hs

theorem execRtEntryWrite_kept {Q : List Instr} {s t : State} (hs : Kept Q s) (b : Nat) (loc : Bool) (r value : Nat) (m : Master)
    (e : execRtEntryWrite b loc r value m s = .next t) : Kept Q t := by
  refine onUnit_kept e ?_
  apply State.rtEntry_kept
  exact hs

theorem execFabAddrWrite_kept {Q : List Instr} {s t : State} (hs : Kept Q s) (value : Nat) (m : Master)
    (e : execFabAddrWrite value m s = .next t) : Kept Q t := by
  refine done_kept e ?_
  apply State.fabAddr_kept
  exact hs

theorem execFabEnable_kept {Q : List Instr} {s t : State} (hs : Kept Q s) (value : Nat) (_m : Master)
    (e : execFabEnable value _m s = .next t) : Kept Q t := by
  refine done_kept e ?_
  apply State.fabEnable_kept
  exact hs

theorem execPeerClear_kept {Q : List Instr} {s t : State} (hs : Kept Q s) (peer : Nat) (_m : Master)
    (e : execPeerClear peer _m s = .next t) : Kept Q t := by
  refine done_kept e ?_
  apply State.peerClear_kept
  exact hs

theorem execCableAccept_kept {Q : List Instr} {s t : State} (hs : Kept Q s) (p : Nat) (_m : Master)
    (e : execCableAccept p _m s = .next t) : Kept Q t := by
  refine onUnit_kept e ?_
  apply State.cableAccept_kept
  exact hs

theorem execCableRecheck_kept {Q : List Instr} {s t : State} (hs : Kept Q s) (p : Nat) (_m : Master)
    (e : execCableRecheck p _m s = .next t) : Kept Q t := by
  refine onUnit_kept e ?_
  apply State.cableCheck_kept
  exact hs

theorem execFence_kept {Q : List Instr} {s t : State} (hs : Kept Q s) (q : Nat)
    (e : execFence q s = .next t) : Kept Q t := by
  refine onUnit_kept e ?_
  apply State.dispatchHead_kept
  exact hs

theorem execFenceTimeout_kept {Q : List Instr} {s t : State} (hs : Kept Q s) (q seq : Nat)
    (e : execFenceTimeout q seq s = .next t) : Kept Q t := by
  refine onUnit_kept e ?_
  apply State.fenceTimeout_kept
  exact hs

theorem execRingLockLoss_kept {Q : List Instr} {s t : State} (hs : Kept Q s) (p r frame : Nat) (loss : RingLoss)
    (e : execRingLockLoss p r frame loss s = .next t) : Kept Q t := by
  refine onUnit_kept e ?_
  apply State.ringError_kept
  exact hs

theorem execCombMonitor_kept {Q : List Instr} {s t : State} (hs : Kept Q s) (e c bias : Nat) (temp : Int) (powers : List Int) (lasing : Bool) (frame : Nat)
    (e : execCombMonitor e c bias temp powers lasing frame s = .next t) : Kept Q t := by
  refine onUnit_kept e ?_
  apply State.combMonitor_kept
  exact hs

theorem execLineSourceFail_kept {Q : List Instr} {s t : State} (hs : Kept Q s) (e n frame : Nat)
    (e : execLineSourceFail e n frame s = .next t) : Kept Q t := by
  refine onUnit_kept e ?_
  apply State.lineSourceFail_kept
  exact hs

theorem execRxMonitor_kept {Q : List Instr} {s t : State} (hs : Kept Q s) (p : Nat) (lines : List RxLine) (frame : Nat)
    (e : execRxMonitor p lines frame s = .next t) : Kept Q t := by
  refine onUnit_kept e ?_
  apply State.rxAll_kept
  exact hs

theorem execLossOfSignal_kept {Q : List Instr} {s t : State} (hs : Kept Q s) (p n frame : Nat)
    (e : execLossOfSignal p n frame s = .next t) : Kept Q t := by
  refine onUnit_kept e ?_
  apply State.signalLoss_kept
  exact hs

theorem execPeerId_kept {Q : List Instr} {s t : State} (hs : Kept Q s) (p num addr port : Nat)
    (e : execPeerId p num addr port s = .next t) : Kept Q t := by
  refine onUnit_kept e ?_
  apply State.laneMsg_kept hs
  intros
  apply State.peerId_kept
  assumption

theorem execLswapReq_kept {Q : List Instr} {s t : State} (hs : Kept Q s) (p num lane spare frame : Nat)
    (e : execLswapReq p num lane spare frame s = .next t) : Kept Q t := by
  refine onUnit_kept e ?_
  apply State.laneMsg_kept hs
  intros
  apply State.recvSwapReq_kept
  assumption

theorem execLswapDup_kept {Q : List Instr} {s t : State} (hs : Kept Q s) (p num lane spare f : Nat)
    (e : execLswapDup p num lane spare f s = .next t) : Kept Q t := by
  refine onUnit_kept e ?_
  apply State.laneMsg_kept hs
  intros
  apply State.recvSwapDup_kept
  assumption

theorem execLswapVerifyDone_kept {Q : List Instr} {s t : State} (hs : Kept Q s) (p frame : Nat) (ok : Bool)
    (e : execLswapVerifyDone p frame ok s = .next t) : Kept Q t := by
  refine onUnit_kept e ?_
  apply State.verifyDone_kept
  exact hs

theorem execLswapDone_kept {Q : List Instr} {s t : State} (hs : Kept Q s) (p num lane spare f : Nat)
    (e : execLswapDone p num lane spare f s = .next t) : Kept Q t := by
  refine onUnit_kept e ?_
  apply State.laneMsg_kept hs
  intros
  apply State.recvSwapDone_kept
  assumption

theorem execLswapCutover_kept {Q : List Instr} {s t : State} (hs : Kept Q s) (p frame : Nat) (sender : Bool)
    (e : execLswapCutover p frame sender s = .next t) : Kept Q t := by
  refine onUnit_kept e ?_
  apply State.swapCut_kept
  exact hs

theorem execLswapAbandon_kept {Q : List Instr} {s t : State} (hs : Kept Q s) (p num lane spare frame : Nat) (verify : Bool)
    (e : execLswapAbandon p num lane spare frame verify s = .next t) : Kept Q t := by
  refine onUnit_kept e ?_
  apply State.laneMsg_kept hs
  intros
  apply State.recvAbandon_kept
  assumption

theorem execLswapTimeout_kept {Q : List Instr} {s t : State} (hs : Kept Q s) (p frame : Nat) (sender : Bool)
    (e : execLswapTimeout p frame sender s = .next t) : Kept Q t := by
  refine onUnit_kept e ?_
  apply State.abandon_kept
  exact hs

theorem execLeLswap_kept {Q : List Instr} {s t : State} (hs : Kept Q s) (p lane frame : Nat) (_m : Master)
    (e : execLeLswap p lane frame _m s = .next t) : Kept Q t := by
  refine onUnit_kept e ?_
  apply State.leLswap_kept
  exact hs

theorem execNarrowAt_kept {Q : List Instr} {s t : State} (hs : Kept Q s) (p num : Nat) (lanes : List Nat) (f : Nat)
    (e : execNarrowAt p num lanes f s = .next t) : Kept Q t := by
  refine onUnit_kept e ?_
  apply State.laneMsg_kept hs
  intros
  apply State.stripeAt_kept
  assumption

theorem execWidenAt_kept {Q : List Instr} {s t : State} (hs : Kept Q s) (p num : Nat) (lanes : List Nat) (f : Nat)
    (e : execWidenAt p num lanes f s = .next t) : Kept Q t := by
  refine onUnit_kept e ?_
  apply State.laneMsg_kept hs
  intros
  apply State.stripeAt_kept
  assumption

theorem execStripeChange_kept {Q : List Instr} {s t : State} (hs : Kept Q s) (p : Nat)
    (e : execStripeChange p s = .next t) : Kept Q t := by
  refine onUnit_kept e ?_
  apply State.stripeChange_kept
  exact hs

theorem execCombSwap_kept {Q : List Instr} {s t : State} (hs : Kept Q s) (e frame : Nat) (requested : Bool)
    (e : execCombSwap e frame requested s = .next t) : Kept Q t := by
  refine onUnit_kept e ?_
  apply State.combSwap_kept
  exact hs

theorem execCombLocked_kept {Q : List Instr} {s t : State} (hs : Kept Q s) (e c frame : Nat)
    (e : execCombLocked e c frame s = .next t) : Kept Q t := by
  refine onUnit_kept e ?_
  apply State.combLocked_kept
  exact hs

theorem execCombLockTimeout_kept {Q : List Instr} {s t : State} (hs : Kept Q s) (e : Nat)
    (e : execCombLockTimeout e s = .next t) : Kept Q t := by
  refine onUnit_kept e ?_
  apply State.lockTimeout_kept
  exact hs

theorem execCswapAt_kept {Q : List Instr} {s t : State} (hs : Kept Q s) (p num f : Nat)
    (e : execCswapAt p num f s = .next t) : Kept Q t := by
  refine onUnit_kept e ?_
  apply State.laneMsg_kept hs
  intros
  apply State.setPort_kept
  assumption

theorem execCombCutover_kept {Q : List Instr} {s t : State} (hs : Kept Q s) (p frame : Nat)
    (e : execCombCutover p frame s = .next t) : Kept Q t := by
  refine onUnit_kept e ?_
  apply State.combCut_kept
  exact hs

theorem execLaneAck_kept {Q : List Instr} {s t : State} (hs : Kept Q s) (p num : Nat)
    (e : execLaneAck p num s = .next t) : Kept Q t := by
  refine onUnit_kept e ?_
  apply State.setPort_kept
  exact hs

theorem execPortOff_kept {Q : List Instr} {s t : State} (hs : Kept Q s) (p num : Nat)
    (e : execPortOff p num s = .next t) : Kept Q t := by
  refine onUnit_kept e ?_
  apply State.laneMsg_kept hs
  intros
  apply State.setPort_kept
  assumption

theorem execPortDisable_kept {Q : List Instr} {s t : State} (hs : Kept Q s) (p : Nat) (_m : Master)
    (e : execPortDisable p _m s = .next t) : Kept Q t := by
  refine onUnit_kept e ?_
  apply State.portDisable_kept
  exact hs

theorem execPortEnable_kept {Q : List Instr} {s t : State} (hs : Kept Q s) (p : Nat) (_m : Master)
    (e : execPortEnable p _m s = .next t) : Kept Q t := by
  refine onUnit_kept e ?_
  apply State.portEnable_kept
  exact hs

theorem execPortDrainDone_kept {Q : List Instr} {s t : State} (hs : Kept Q s) (p : Nat)
    (e : execPortDrainDone p s = .next t) : Kept Q t := by
  refine onUnit_kept e ?_
  apply State.drainDone_kept
  exact hs

theorem execLeEnableWrite_kept {Q : List Instr} {s t : State} (hs : Kept Q s) (e value : Nat) (m : Master)
    (e : execLeEnableWrite e value m s = .next t) : Kept Q t := by
  refine onUnit_kept e ?_
  apply State.leEnable_kept
  exact hs

theorem execLeThreshWrite_kept {Q : List Instr} {s t : State} (hs : Kept Q s) (e value : Nat) (m : Master)
    (e : execLeThreshWrite e value m s = .next t) : Kept Q t := by
  refine onUnit_kept e ?_
  apply State.leThresh_kept
  exact hs

theorem execCruResetModule_kept {Q : List Instr} {s t : State} (hs : Kept Q s) (_m : Master)
    (e : execCruResetModule _m s = .next t) : Kept Q t := by
  refine done_kept e ?_
  apply State.moduleReset_kept
  exact hs

theorem execBootStageAdvance_kept {Q : List Instr} {s t : State} (hs : Kept Q s) (work : BootWork)
    (e : execBootStageAdvance work s = .next t) : Kept Q t := by
  refine done_kept e ?_
  apply State.bootAdvance_kept
  exact hs

theorem execIdent_kept {Q : List Instr} {s t : State} (hs : Kept Q s) (h : MgtHdr)
    (e : execIdent h s = .next t) : Kept Q t := by
  refine done_kept e ?_
  apply State.ident_kept
  exact hs

theorem execHello_kept {Q : List Instr} {s t : State} (hs : Kept Q s) (h : MgtHdr) (key nonce cert : List Byte)
    (e : execHello h key nonce cert s = .next t) : Kept Q t := by
  refine done_kept e ?_
  apply State.mgtHello_kept
  exact hs

theorem execFinish_kept {Q : List Instr} {s t : State} (hs : Kept Q s) (h : MgtHdr) (sig : List Byte)
    (e : execFinish h sig s = .next t) : Kept Q t := by
  refine done_kept e ?_
  apply State.mgtFinish_kept
  exact hs

theorem execStatus_kept {Q : List Instr} {s t : State} (hs : Kept Q s) (h : MgtHdr)
    (e : execStatus h s = .next t) : Kept Q t := by
  refine done_kept e ?_
  apply State.mgtCmd_kept
  exact hs

theorem execReadReg_kept {Q : List Instr} {s t : State} (hs : Kept Q s) (h : MgtHdr) (addr : Nat)
    (e : execReadReg h addr s = .next t) : Kept Q t := by
  refine done_kept e ?_
  apply State.mgtCmd_kept
  exact hs

theorem execWriteReg_kept {Q : List Instr} {s t : State} (hs : Kept Q s) (h : MgtHdr) (addr value : Nat)
    (e : execWriteReg h addr value s = .next t) : Kept Q t := by
  refine done_kept e ?_
  apply State.mgtCmd_kept
  exact hs

theorem execReadLog_kept {Q : List Instr} {s t : State} (hs : Kept Q s) (h : MgtHdr) (eye : Bool) (first count : Nat)
    (e : execReadLog h eye first count s = .next t) : Kept Q t := by
  refine done_kept e ?_
  apply State.mgtCmd_kept
  exact hs

theorem execTimeSyncMeasure_kept {Q : List Instr} {s t : State} (hs : Kept Q s) (h : MgtHdr)
    (e : execTimeSyncMeasure h s = .next t) : Kept Q t := by
  refine done_kept e ?_
  apply State.mgtCmd_kept
  exact hs

theorem execTimeSyncAdjust_kept {Q : List Instr} {s t : State} (hs : Kept Q s) (h : MgtHdr) (offset : Int)
    (e : execTimeSyncAdjust h offset s = .next t) : Kept Q t := by
  refine done_kept e ?_
  apply State.mgtCmd_kept
  exact hs

theorem execSlewDone_kept {Q : List Instr} {s t : State} (hs : Kept Q s)
    (e : execSlewDone s = .next t) : Kept Q t := by
  refine done_kept e ?_
  apply State.slewDone_kept
  exact hs

theorem execMgtReset_kept {Q : List Instr} {s t : State} (hs : Kept Q s) (h : MgtHdr)
    (e : execMgtReset h s = .next t) : Kept Q t := by
  refine done_kept e ?_
  apply State.mgtCmd_kept
  exact hs

theorem execPowerCap_kept {Q : List Instr} {s t : State} (hs : Kept Q s) (h : MgtHdr) (watts : Nat)
    (e : execPowerCap h watts s = .next t) : Kept Q t := by
  refine done_kept e ?_
  apply State.mgtCmd_kept
  exact hs

theorem execImageBegin_kept {Q : List Instr} {s t : State} (hs : Kept Q s) (h : MgtHdr) (cls total : Nat)
    (e : execImageBegin h cls total s = .next t) : Kept Q t := by
  refine done_kept e ?_
  apply State.mgtCmd_kept
  exact hs

theorem execImageChunk_kept {Q : List Instr} {s t : State} (hs : Kept Q s) (h : MgtHdr) (cls offset : Nat) (data : List Byte)
    (e : execImageChunk h cls offset data s = .next t) : Kept Q t := by
  refine done_kept e ?_
  apply State.mgtCmd_kept
  exact hs

theorem execImageEnd_kept {Q : List Instr} {s t : State} (hs : Kept Q s) (h : MgtHdr) (cls : Nat)
    (e : execImageEnd h cls s = .next t) : Kept Q t := by
  refine done_kept e ?_
  apply State.mgtCmd_kept
  exact hs

theorem execImageCancel_kept {Q : List Instr} {s t : State} (hs : Kept Q s) (h : MgtHdr) (cls : Nat)
    (e : execImageCancel h cls s = .next t) : Kept Q t := by
  refine done_kept e ?_
  apply State.mgtCmd_kept
  exact hs

theorem execImageTransferTimeout_kept {Q : List Instr} {s t : State} (hs : Kept Q s)
    (e : execImageTransferTimeout s = .next t) : Kept Q t := by
  refine done_kept e ?_
  apply State.xferTimeout_kept
  exact hs

theorem execBye_kept {Q : List Instr} {s t : State} (hs : Kept Q s) (h : MgtHdr)
    (e : execBye h s = .next t) : Kept Q t := by
  refine done_kept e ?_
  apply State.mgtCmd_kept
  exact hs

theorem execSessionIdleClose_kept {Q : List Instr} {s t : State} (hs : Kept Q s) (session : Nat)
    (e : execSessionIdleClose session s = .next t) : Kept Q t := by
  refine done_kept e ?_
  apply State.idleClose_kept
  exact hs

theorem execAttestStart_kept {Q : List Instr} {s t : State} (hs : Kept Q s) (k : Nat) (_m : Master)
    (e : execAttestStart k _m s = .next t) : Kept Q t := by
  refine onUnit_kept e ?_
  apply State.attStart_kept
  exact hs

theorem execAttestDone_kept {Q : List Instr} {s t : State} (hs : Kept Q s) (k : Nat)
    (e : execAttestDone k s = .next t) : Kept Q t := by
  refine onUnit_kept e ?_
  apply State.attDone_kept
  exact hs

theorem execMgtFragmentReceive_kept {Q : List Instr} {s t : State} (hs : Kept Q s) (src : Nat)
    (e : execMgtFragmentReceive src s = .next t) : Kept Q t := by
  refine done_kept e ?_
  apply State.fragment_kept
  exact hs

theorem execMgtFragmentTimeout_kept {Q : List Instr} {s t : State} (hs : Kept Q s) (src num : Nat)
    (e : execMgtFragmentTimeout src num s = .next t) : Kept Q t := by
  refine done_kept e ?_
  apply State.fragTimeout_kept
  exact hs

theorem execOsFrameReceive_kept {Q : List Instr} {s t : State} (hs : Kept Q s) (frame : List Byte) (control full : Bool)
    (e : execOsFrameReceive frame control full s = .next t) : Kept Q t := by
  refine done_kept e ?_
  apply State.osReceive_kept
  exact hs

theorem execOsFrameTransmit_kept {Q : List Instr} {s t : State} (hs : Kept Q s) (n : Nat)
    (e : execOsFrameTransmit n s = .next t) : Kept Q t := by
  refine done_kept e ?_
  apply State.osTransmit_kept
  exact hs

theorem execRouterAdvertisement_kept {Q : List Instr} {s t : State} (hs : Kept Q s) (pre : List Byte) (ext : Bool)
    (e : execRouterAdvertisement pre ext s = .next t) : Kept Q t := by
  refine done_kept e ?_
  apply State.advert_kept
  exact hs

theorem execNeighbourDiscovery_kept {Q : List Instr} {s t : State} (hs : Kept Q s) (target : List Byte) (ext : Bool)
    (e : execNeighbourDiscovery target ext s = .next t) : Kept Q t := by
  refine done_kept e ?_
  apply State.neighbour_kept
  exact hs

theorem execIcmpv6Echo_kept {Q : List Instr} {s t : State} (hs : Kept Q s) (target data : List Byte) (ext : Bool)
    (e : execIcmpv6Echo target data ext s = .next t) : Kept Q t := by
  refine done_kept e ?_
  apply State.echo_kept
  exact hs

theorem execSmbReadIdentity_kept {Q : List Instr} {s t : State} (hs : Kept Q s) (pec : Bool)
    (e : execSmbReadIdentity pec s = .next t) : Kept Q t := by
  refine done_kept e ?_
  apply State.smbIdentity_kept
  exact hs

theorem execSmbReadStatus_kept {Q : List Instr} {s t : State} (hs : Kept Q s) (pec : Bool)
    (e : execSmbReadStatus pec s = .next t) : Kept Q t := by
  refine done_kept e ?_
  apply State.smbStatus_kept
  exact hs

theorem execSmbReadPower_kept {Q : List Instr} {s t : State} (hs : Kept Q s) (pec : Bool)
    (e : execSmbReadPower pec s = .next t) : Kept Q t := by
  refine done_kept e ?_
  apply State.smbPower_kept
  exact hs

theorem execSmbReadTj_kept {Q : List Instr} {s t : State} (hs : Kept Q s) (pec : Bool)
    (e : execSmbReadTj pec s = .next t) : Kept Q t := by
  refine done_kept e ?_
  apply State.smbTj_kept
  exact hs

theorem execSmbStopRequest_kept {Q : List Instr} {s t : State} (hs : Kept Q s) (value : Nat) (pec : Bool)
    (e : execSmbStopRequest value pec s = .next t) : Kept Q t := by
  refine done_kept e ?_
  apply State.smbStop_kept
  exact hs

theorem execRegWrite_kept {Q : List Instr} {s t : State} (hs : Kept Q s) (addr width value : Nat) (m : Master)
    (e : execRegWrite addr width value m s = .next t) : Kept Q t := by
  refine done_kept e ?_
  exact State.ctlWrite_kept hs _ _ _ _

theorem execSlackWindowEnd_kept {Q : List Instr} {s t : State} (hs : Kept Q s) (d : Nat) (slack : Int)
    (e : execSlackWindowEnd d slack s = .next t) : Kept Q t := by
  refine onUnit_kept e ?_
  apply State.windowEnd_kept
  exact hs

theorem execTapWiden_kept {Q : List Instr} {s t : State} (hs : Kept Q s) (d : Nat)
    (e : execTapWiden d s = .next t) : Kept Q t := by
  refine onUnit_kept e ?_
  apply State.tapWiden_kept
  exact hs

theorem execHoldWiden_kept {Q : List Instr} {s t : State} (hs : Kept Q s) (d : Nat) (slack : Int)
    (e : execHoldWiden d slack s = .next t) : Kept Q t := by
  refine onUnit_kept e ?_
  apply State.holdWiden_kept
  exact hs

theorem execTapRelax_kept {Q : List Instr} {s t : State} (hs : Kept Q s) (d : Nat)
    (e : execTapRelax d s = .next t) : Kept Q t := by
  refine onUnit_kept e ?_
  apply State.tapRelax_kept
  exact hs

theorem execRelaxReevaluate_kept {Q : List Instr} {s t : State} (hs : Kept Q s) (d : Nat)
    (e : execRelaxReevaluate d s = .next t) : Kept Q t := by
  refine onUnit_kept e ?_
  apply State.relaxAgain_kept
  exact hs

theorem execMarginExhausted_kept {Q : List Instr} {s t : State} (hs : Kept Q s) (d : Nat)
    (e : execMarginExhausted d s = .next t) : Kept Q t := by
  refine onUnit_kept e ?_
  exact ite_kept (State.exhaust_kept hs _) hs

theorem execShadowLatchFlag_kept {Q : List Instr} {s t : State} (hs : Kept Q s) (d : Nat)
    (e : execShadowLatchFlag d s = .next t) : Kept Q t := by
  refine onUnit_kept e ?_
  apply State.shadowFlag_kept
  exact hs

theorem execVfloorRecompute_kept {Q : List Instr} {s t : State} (hs : Kept Q s) (r : Nat)
    (e : execVfloorRecompute r s = .next t) : Kept Q t := by
  refine onUnit_kept e ?_
  apply State.recomputeFloor_kept
  exact hs

theorem execPlannedWrite_kept {Q : List Instr} {s t : State} (hs : Kept Q s) (d value : Nat) (_m : Master)
    (e : execPlannedWrite d value _m s = .next t) : Kept Q t := by
  refine onUnit_kept e ?_
  apply State.planWrite_kept
  exact hs

theorem execSweepOffWrite_kept {Q : List Instr} {s t : State} (hs : Kept Q s) (d value : Nat) (m : Master)
    (e : execSweepOffWrite d value m s = .next t) : Kept Q t := by
  refine onUnit_kept e ?_
  apply State.sweepOffWrite_kept
  exact hs

theorem execMgnPeakClr_kept {Q : List Instr} {s t : State} (hs : Kept Q s) (d : Nat) (_m : Master)
    (e : execMgnPeakClr d _m s = .next t) : Kept Q t := by
  refine onUnit_kept e ?_
  apply State.setF_kept
  exact hs

theorem execSlackMinClr_kept {Q : List Instr} {s t : State} (hs : Kept Q s) (d : Nat) (_m : Master)
    (e : execSlackMinClr d _m s = .next t) : Kept Q t := by
  refine onUnit_kept e ?_
  apply State.setF_kept
  exact hs

theorem execMgnCtrlWrite_kept {Q : List Instr} {s t : State} (hs : Kept Q s) (value : Nat) (m : Master)
    (e : execMgnCtrlWrite value m s = .next t) : Kept Q t := by
  refine done_kept e ?_
  apply State.mgnCtrlWrite_kept
  exact hs

theorem execTemperStart_kept {Q : List Instr} {s t : State} (hs : Kept Q s) (_m : Master)
    (e : execTemperStart _m s = .next t) : Kept Q t := by
  refine done_kept e ?_
  apply State.temperStart_kept
  exact hs

theorem execTemperRotationDue_kept {Q : List Instr} {s t : State} (hs : Kept Q s)
    (e : execTemperRotationDue s = .next t) : Kept Q t := by
  refine done_kept e ?_
  apply State.temperRotation_kept
  exact hs

theorem execTemperTriggered_kept {Q : List Instr} {s t : State} (hs : Kept Q s) (d : Nat)
    (e : execTemperTriggered d s = .next t) : Kept Q t := by
  refine onUnit_kept e ?_
  apply State.temperTrigger_kept
  exact hs

theorem execTemperWingSkip_kept {Q : List Instr} {s t : State} (hs : Kept Q s) (w : Nat)
    (e : execTemperWingSkip w s = .next t) : Kept Q t := by
  refine onUnit_kept e ?_
  apply State.temperSkip_kept
  exact hs

theorem execTemperDomainPass_kept {Q : List Instr} {s t : State} (hs : Kept Q s) (d : Nat) (slack : Int) (erosion : Nat)
    (e : execTemperDomainPass d slack erosion s = .next t) : Kept Q t := by
  refine onUnit_kept e ?_
  apply State.domainPass_kept
  exact hs

theorem execBaskTapRemove_kept {Q : List Instr} {s t : State} (hs : Kept Q s) (r : Nat)
    (e : execBaskTapRemove r s = .next t) : Kept Q t := by
  refine onUnit_kept e ?_
  apply State.baskRemove_kept
  exact hs

theorem execStepsRead_kept {Q : List Instr} {s t : State} (hs : Kept Q s) (w : Nat)
    (e : execStepsRead w s = .next t) : Kept Q t := by
  refine onUnit_kept e ?_
  exact kept_mk (State.stepsLatch_kept hs _)

theorem execMemQualOverride_kept {Q : List Instr} {s t : State} (hs : Kept Q s) (f : Nat) (m : Master)
    (e : execMemQualOverride f m s = .next t) : Kept Q t := by
  refine onUnit_kept e ?_
  apply State.qualOverride_kept
  exact hs

theorem execLadleRead_kept {Q : List Instr} {s t : State} (hs : Kept Q s) (a n hint : Nat) (m : Master)
    (e : execLadleRead a n hint m s = .next t) : Kept Q t := by
  refine onUnit_kept e ?_
  apply State.readReq_kept
  exact hs

theorem execLadleWrite_kept {Q : List Instr} {s t : State} (hs : Kept Q s) (a : Nat) (data : List Byte) (hint : Nat) (m : Master)
    (e : execLadleWrite a data hint m s = .next t) : Kept Q t := by
  refine onUnit_kept e ?_
  apply State.writeReq_kept
  exact hs

theorem execLadleMissFill_kept {Q : List Instr} {s t : State} (hs : Kept Q s) (k : Nat) (errs : List Nat) (ondie : Bool)
    (e : execLadleMissFill k errs ondie s = .next t) : Kept Q t := by
  refine onUnit_kept e ?_
  apply State.missFill_kept
  exact hs

theorem execLadleWriteback_kept {Q : List Instr} {s t : State} (hs : Kept Q s) (q : Nat)
    (e : execLadleWriteback q s = .next t) : Kept Q t := by
  refine onUnit_kept e ?_
  apply State.dispatchHead_kept
  exact hs

theorem execLadleEvict_kept {Q : List Instr} {s t : State} (hs : Kept Q s) (q : Nat)
    (e : execLadleEvict q s = .next t) : Kept Q t := by
  refine onUnit_kept e ?_
  apply State.dispatchHead_kept
  exact hs

theorem execLadleUnprotect_kept {Q : List Instr} {s t : State} (hs : Kept Q s) (q : Nat)
    (e : execLadleUnprotect q s = .next t) : Kept Q t := by
  refine onUnit_kept e ?_
  apply State.dispatchHead_kept
  exact hs

theorem execLadlePrefetch_kept {Q : List Instr} {s t : State} (hs : Kept Q s) (q : Nat)
    (e : execLadlePrefetch q s = .next t) : Kept Q t := by
  refine onUnit_kept e ?_
  apply State.dispatchHead_kept
  exact hs

theorem execLadleZero_kept {Q : List Instr} {s t : State} (hs : Kept Q s) (q : Nat)
    (e : execLadleZero q s = .next t) : Kept Q t := by
  refine onUnit_kept e ?_
  apply State.dispatchHead_kept
  exact hs

theorem execPerBankRefresh_kept {Q : List Instr} {s t : State} (hs : Kept Q s) (k : Nat)
    (e : execPerBankRefresh k s = .next t) : Kept Q t := by
  refine onUnit_kept e ?_
  apply State.refreshNow_kept
  exact hs

theorem execRefreshManagementRequest_kept {Q : List Instr} {s t : State} (hs : Kept Q s) (k : Nat)
    (e : execRefreshManagementRequest k s = .next t) : Kept Q t := by
  refine onUnit_kept e ?_
  apply State.rfmNow_kept
  exact hs

theorem execStackTempRead_kept {Q : List Instr} {s t : State} (hs : Kept Q s) (k : Nat) (temp : Int)
    (e : execStackTempRead k temp s = .next t) : Kept Q t := by
  refine onUnit_kept e ?_
  apply State.sensorUpdate_kept
  exact hs

theorem execScrubRead_kept {Q : List Instr} {s t : State} (hs : Kept Q s) (k : Nat) (errs : List Nat)
    (e : execScrubRead k errs s = .next t) : Kept Q t := by
  refine onUnit_kept e ?_
  apply State.scrubNow_kept
  exact hs

theorem execParityError_kept {Q : List Instr} {s t : State} (hs : Kept Q s) (k : Nat) (retryOk : Bool)
    (e : execParityError k retryOk s = .next t) : Kept Q t := by
  refine onUnit_kept e ?_
  apply State.parityError_kept
  exact hs

theorem execPhyLockLoss_kept {Q : List Instr} {s t : State} (hs : Kept Q s) (k : Nat)
    (e : execPhyLockLoss k s = .next t) : Kept Q t := by
  refine onUnit_kept e ?_
  apply State.phyLoss_kept
  exact hs

theorem execStackRetrainDone_kept {Q : List Instr} {s t : State} (hs : Kept Q s) (k : Nat) (ok : Bool)
    (e : execStackRetrainDone k ok s = .next t) : Kept Q t := by
  refine onUnit_kept e ?_
  apply State.retrainDone_kept
  exact hs

theorem execTurnWrite_kept {Q : List Instr} {s t : State} (hs : Kept Q s) (q : Nat)
    (e : execTurnWrite q s = .next t) : Kept Q t := by
  refine onUnit_kept e ?_
  apply State.dispatchHead_kept
  exact hs

theorem execTurnArm_kept {Q : List Instr} {s t : State} (hs : Kept Q s) (q : Nat)
    (e : execTurnArm q s = .next t) : Kept Q t := by
  refine onUnit_kept e ?_
  apply State.dispatchHead_kept
  exact hs

theorem execTurnDisarm_kept {Q : List Instr} {s t : State} (hs : Kept Q s) (q : Nat)
    (e : execTurnDisarm q s = .next t) : Kept Q t := by
  refine onUnit_kept e ?_
  apply State.dispatchHead_kept
  exact hs

theorem execRingAcquisitionDone_kept {Q : List Instr} {s t : State} (hs : Kept Q s) (p frame : Nat) (crossings : List (List (Nat × Nat)))
    (e : execRingAcquisitionDone p frame crossings s = .next t) : Kept Q t := by
  refine onUnit_kept e ?_
  apply State.ringsDone_kept
  exact hs

theorem execPeerAligned_kept {Q : List Instr} {s t : State} (hs : Kept Q s) (p : Nat) (lines : List (Nat × Nat))
    (e : execPeerAligned p lines s = .next t) : Kept Q t := by
  refine onUnit_kept e ?_
  apply State.aligned_kept
  exact hs

theorem execHeaterLimit_kept {Q : List Instr} {s t : State} (hs : Kept Q s) (p r : Nat) (heat : HeaterData)
    (e : execHeaterLimit p r heat s = .next t) : Kept Q t := by
  refine onUnit_kept e ?_
  apply State.heater_kept
  exact hs

theorem execMgtLinkChange_kept {Q : List Instr} {s t : State} (hs : Kept Q s) (up : Bool)
    (e : execMgtLinkChange up s = .next t) : Kept Q t := by
  refine done_kept e ?_
  apply State.linkChange_kept
  exact hs

theorem execRefclkReturn_kept {Q : List Instr} {s t : State} (hs : Kept Q s)
    (e : execRefclkReturn s = .next t) : Kept Q t := by
  refine done_kept e ?_
  apply State.refclkReturn_kept
  exact hs

theorem execFactoryTestProgram_kept {Q : List Instr} {s t : State} (hs : Kept Q s) (cert : Bool) (images : List (Nat × List Byte))
    (e : execFactoryTestProgram cert images s = .next t) : Kept Q t := by
  refine done_kept e ?_
  apply State.factory_kept
  exact hs

theorem execPatternNop_kept {Q : List Instr} {s t : State} (hs : Kept Q s) (w : Nat)
    (e : execPatternNop w s = .next t) : Kept Q t := by
  refine onUnit_kept e ?_
  apply State.patStep_kept
  exact hs

theorem execMov_kept {Q : List Instr} {s t : State} (hs : Kept Q s) (w : Nat)
    (e : execMov w s = .next t) : Kept Q t := by
  refine onUnit_kept e ?_
  apply State.patStep_kept
  exact hs

theorem execAdd_kept {Q : List Instr} {s t : State} (hs : Kept Q s) (w : Nat)
    (e : execAdd w s = .next t) : Kept Q t := by
  refine onUnit_kept e ?_
  apply State.patStep_kept
  exact hs

theorem execSub_kept {Q : List Instr} {s t : State} (hs : Kept Q s) (w : Nat)
    (e : execSub w s = .next t) : Kept Q t := by
  refine onUnit_kept e ?_
  apply State.patStep_kept
  exact hs

theorem execMul_kept {Q : List Instr} {s t : State} (hs : Kept Q s) (w : Nat)
    (e : execMul w s = .next t) : Kept Q t := by
  refine onUnit_kept e ?_
  apply State.patStep_kept
  exact hs

theorem execFma_kept {Q : List Instr} {s t : State} (hs : Kept Q s) (w : Nat)
    (e : execFma w s = .next t) : Kept Q t := by
  refine onUnit_kept e ?_
  apply State.patStep_kept
  exact hs

theorem execFms_kept {Q : List Instr} {s t : State} (hs : Kept Q s) (w : Nat)
    (e : execFms w s = .next t) : Kept Q t := by
  refine onUnit_kept e ?_
  apply State.patStep_kept
  exact hs

theorem execFnma_kept {Q : List Instr} {s t : State} (hs : Kept Q s) (w : Nat)
    (e : execFnma w s = .next t) : Kept Q t := by
  refine onUnit_kept e ?_
  apply State.patStep_kept
  exact hs

theorem execDiv_kept {Q : List Instr} {s t : State} (hs : Kept Q s) (w : Nat)
    (e : execDiv w s = .next t) : Kept Q t := by
  refine onUnit_kept e ?_
  apply State.patStep_kept
  exact hs

theorem execSqrt_kept {Q : List Instr} {s t : State} (hs : Kept Q s) (w : Nat)
    (e : execSqrt w s = .next t) : Kept Q t := by
  refine onUnit_kept e ?_
  apply State.patStep_kept
  exact hs

theorem execMin_kept {Q : List Instr} {s t : State} (hs : Kept Q s) (w : Nat)
    (e : execMin w s = .next t) : Kept Q t := by
  refine onUnit_kept e ?_
  apply State.patStep_kept
  exact hs

theorem execMax_kept {Q : List Instr} {s t : State} (hs : Kept Q s) (w : Nat)
    (e : execMax w s = .next t) : Kept Q t := by
  refine onUnit_kept e ?_
  apply State.patStep_kept
  exact hs

theorem execMinn_kept {Q : List Instr} {s t : State} (hs : Kept Q s) (w : Nat)
    (e : execMinn w s = .next t) : Kept Q t := by
  refine onUnit_kept e ?_
  apply State.patStep_kept
  exact hs

theorem execMaxn_kept {Q : List Instr} {s t : State} (hs : Kept Q s) (w : Nat)
    (e : execMaxn w s = .next t) : Kept Q t := by
  refine onUnit_kept e ?_
  apply State.patStep_kept
  exact hs

theorem execAbs_kept {Q : List Instr} {s t : State} (hs : Kept Q s) (w : Nat)
    (e : execAbs w s = .next t) : Kept Q t := by
  refine onUnit_kept e ?_
  apply State.patStep_kept
  exact hs

theorem execNeg_kept {Q : List Instr} {s t : State} (hs : Kept Q s) (w : Nat)
    (e : execNeg w s = .next t) : Kept Q t := by
  refine onUnit_kept e ?_
  apply State.patStep_kept
  exact hs

theorem execCmpeq_kept {Q : List Instr} {s t : State} (hs : Kept Q s) (w : Nat)
    (e : execCmpeq w s = .next t) : Kept Q t := by
  refine onUnit_kept e ?_
  apply State.patStep_kept
  exact hs

theorem execCmplt_kept {Q : List Instr} {s t : State} (hs : Kept Q s) (w : Nat)
    (e : execCmplt w s = .next t) : Kept Q t := by
  refine onUnit_kept e ?_
  apply State.patStep_kept
  exact hs

theorem execCmple_kept {Q : List Instr} {s t : State} (hs : Kept Q s) (w : Nat)
    (e : execCmple w s = .next t) : Kept Q t := by
  refine onUnit_kept e ?_
  apply State.patStep_kept
  exact hs

theorem execCmpun_kept {Q : List Instr} {s t : State} (hs : Kept Q s) (w : Nat)
    (e : execCmpun w s = .next t) : Kept Q t := by
  refine onUnit_kept e ?_
  apply State.patStep_kept
  exact hs

theorem execSel_kept {Q : List Instr} {s t : State} (hs : Kept Q s) (w : Nat)
    (e : execSel w s = .next t) : Kept Q t := by
  refine onUnit_kept e ?_
  apply State.patStep_kept
  exact hs

theorem execScale_kept {Q : List Instr} {s t : State} (hs : Kept Q s) (w : Nat)
    (e : execScale w s = .next t) : Kept Q t := by
  refine onUnit_kept e ?_
  apply State.patStep_kept
  exact hs

theorem execCvt_kept {Q : List Instr} {s t : State} (hs : Kept Q s) (w : Nat)
    (e : execCvt w s = .next t) : Kept Q t := by
  refine onUnit_kept e ?_
  apply State.patStep_kept
  exact hs

theorem execRint_kept {Q : List Instr} {s t : State} (hs : Kept Q s) (w : Nat)
    (e : execRint w s = .next t) : Kept Q t := by
  refine onUnit_kept e ?_
  apply State.patStep_kept
  exact hs

theorem execQnt_kept {Q : List Instr} {s t : State} (hs : Kept Q s) (w : Nat)
    (e : execQnt w s = .next t) : Kept Q t := by
  refine onUnit_kept e ?_
  apply State.patStep_kept
  exact hs

theorem execIadd_kept {Q : List Instr} {s t : State} (hs : Kept Q s) (w : Nat)
    (e : execIadd w s = .next t) : Kept Q t := by
  refine onUnit_kept e ?_
  apply State.patStep_kept
  exact hs

theorem execIsub_kept {Q : List Instr} {s t : State} (hs : Kept Q s) (w : Nat)
    (e : execIsub w s = .next t) : Kept Q t := by
  refine onUnit_kept e ?_
  apply State.patStep_kept
  exact hs

theorem execImul_kept {Q : List Instr} {s t : State} (hs : Kept Q s) (w : Nat)
    (e : execImul w s = .next t) : Kept Q t := by
  refine onUnit_kept e ?_
  apply State.patStep_kept
  exact hs

theorem execAnd_kept {Q : List Instr} {s t : State} (hs : Kept Q s) (w : Nat)
    (e : execAnd w s = .next t) : Kept Q t := by
  refine onUnit_kept e ?_
  apply State.patStep_kept
  exact hs

theorem execOr_kept {Q : List Instr} {s t : State} (hs : Kept Q s) (w : Nat)
    (e : execOr w s = .next t) : Kept Q t := by
  refine onUnit_kept e ?_
  apply State.patStep_kept
  exact hs

theorem execXor_kept {Q : List Instr} {s t : State} (hs : Kept Q s) (w : Nat)
    (e : execXor w s = .next t) : Kept Q t := by
  refine onUnit_kept e ?_
  apply State.patStep_kept
  exact hs

theorem execShl_kept {Q : List Instr} {s t : State} (hs : Kept Q s) (w : Nat)
    (e : execShl w s = .next t) : Kept Q t := by
  refine onUnit_kept e ?_
  apply State.patStep_kept
  exact hs

theorem execShr_kept {Q : List Instr} {s t : State} (hs : Kept Q s) (w : Nat)
    (e : execShr w s = .next t) : Kept Q t := by
  refine onUnit_kept e ?_
  apply State.patStep_kept
  exact hs

theorem execSra_kept {Q : List Instr} {s t : State} (hs : Kept Q s) (w : Nat)
    (e : execSra w s = .next t) : Kept Q t := by
  refine onUnit_kept e ?_
  apply State.patStep_kept
  exact hs

theorem execImin_kept {Q : List Instr} {s t : State} (hs : Kept Q s) (w : Nat)
    (e : execImin w s = .next t) : Kept Q t := by
  refine onUnit_kept e ?_
  apply State.patStep_kept
  exact hs

theorem execImax_kept {Q : List Instr} {s t : State} (hs : Kept Q s) (w : Nat)
    (e : execImax w s = .next t) : Kept Q t := by
  refine onUnit_kept e ?_
  apply State.patStep_kept
  exact hs

theorem execExp2_kept {Q : List Instr} {s t : State} (hs : Kept Q s) (w : Nat)
    (e : execExp2 w s = .next t) : Kept Q t := by
  refine onUnit_kept e ?_
  apply State.patStep_kept
  exact hs

theorem execExp_kept {Q : List Instr} {s t : State} (hs : Kept Q s) (w : Nat)
    (e : execExp w s = .next t) : Kept Q t := by
  refine onUnit_kept e ?_
  apply State.patStep_kept
  exact hs

theorem execLog2_kept {Q : List Instr} {s t : State} (hs : Kept Q s) (w : Nat)
    (e : execLog2 w s = .next t) : Kept Q t := by
  refine onUnit_kept e ?_
  apply State.patStep_kept
  exact hs

theorem execLog_kept {Q : List Instr} {s t : State} (hs : Kept Q s) (w : Nat)
    (e : execLog w s = .next t) : Kept Q t := by
  refine onUnit_kept e ?_
  apply State.patStep_kept
  exact hs

theorem execRcp_kept {Q : List Instr} {s t : State} (hs : Kept Q s) (w : Nat)
    (e : execRcp w s = .next t) : Kept Q t := by
  refine onUnit_kept e ?_
  apply State.patStep_kept
  exact hs

theorem execRsqrt_kept {Q : List Instr} {s t : State} (hs : Kept Q s) (w : Nat)
    (e : execRsqrt w s = .next t) : Kept Q t := by
  refine onUnit_kept e ?_
  apply State.patStep_kept
  exact hs

theorem execTanh_kept {Q : List Instr} {s t : State} (hs : Kept Q s) (w : Nat)
    (e : execTanh w s = .next t) : Kept Q t := by
  refine onUnit_kept e ?_
  apply State.patStep_kept
  exact hs

theorem execSigm_kept {Q : List Instr} {s t : State} (hs : Kept Q s) (w : Nat)
    (e : execSigm w s = .next t) : Kept Q t := by
  refine onUnit_kept e ?_
  apply State.patStep_kept
  exact hs

theorem execErf_kept {Q : List Instr} {s t : State} (hs : Kept Q s) (w : Nat)
    (e : execErf w s = .next t) : Kept Q t := by
  refine onUnit_kept e ?_
  apply State.patStep_kept
  exact hs

theorem execSin_kept {Q : List Instr} {s t : State} (hs : Kept Q s) (w : Nat)
    (e : execSin w s = .next t) : Kept Q t := by
  refine onUnit_kept e ?_
  apply State.patStep_kept
  exact hs

theorem execCos_kept {Q : List Instr} {s t : State} (hs : Kept Q s) (w : Nat)
    (e : execCos w s = .next t) : Kept Q t := by
  refine onUnit_kept e ?_
  apply State.patStep_kept
  exact hs

theorem execGath_kept {Q : List Instr} {s t : State} (hs : Kept Q s) (w : Nat)
    (e : execGath w s = .next t) : Kept Q t := by
  refine onUnit_kept e ?_
  apply State.patStep_kept
  exact hs

theorem execScat_kept {Q : List Instr} {s t : State} (hs : Kept Q s) (w : Nat)
    (e : execScat w s = .next t) : Kept Q t := by
  refine onUnit_kept e ?_
  apply State.patStep_kept
  exact hs

theorem execLxch_kept {Q : List Instr} {s t : State} (hs : Kept Q s) (w : Nat)
    (e : execLxch w s = .next t) : Kept Q t := by
  refine onUnit_kept e ?_
  apply State.patStep_kept
  exact hs

theorem execLsum_kept {Q : List Instr} {s t : State} (hs : Kept Q s) (w : Nat)
    (e : execLsum w s = .next t) : Kept Q t := by
  refine onUnit_kept e ?_
  apply State.patStep_kept
  exact hs

theorem execLshf_kept {Q : List Instr} {s t : State} (hs : Kept Q s) (w : Nat)
    (e : execLshf w s = .next t) : Kept Q t := by
  refine onUnit_kept e ?_
  apply State.patStep_kept
  exact hs

theorem execVecReduction_kept {Q : List Instr} {s t : State} (hs : Kept Q s) (w : Nat)
    (e : execVecReduction w s = .next t) : Kept Q t := by
  refine onUnit_kept e ?_
  apply State.reduceNow_kept
  exact hs

theorem execTrWindowRead_kept {Q : List Instr} {s t : State} (hs : Kept Q s) (w off width : Nat) (m : Master)
    (e : execTrWindowRead w off width m s = .next t) : Kept Q t := by
  refine onUnit_kept e ?_
  apply State.trWindow_kept
  exact hs

theorem execInputValid_kept {Q : List Instr} {s t : State} (hs : Kept Q s) (straps : Nat)
    (e : execInputValid straps s = .next t) : Kept Q t := by
  refine onUnit_kept e ?_
  apply State.inputValid_kept
  exact hs

theorem execRailPowerGood_kept {Q : List Instr} {s t : State} (hs : Kept Q s) (bad : Option Nat)
    (e : execRailPowerGood bad s = .next t) : Kept Q t := by
  refine onUnit_kept e ?_
  apply State.railGood_kept
  exact hs

theorem execRailFault_kept {Q : List Instr} {s t : State} (hs : Kept Q s) (r : Nat)
    (e : execRailFault r s = .next t) : Kept Q t := by
  refine onUnit_kept e ?_
  apply State.railFault_kept
  exact hs

theorem execInputSample_kept {Q : List Instr} {s t : State} (hs : Kept Q s) (mv avg : Nat) (rails : List (Nat × Nat × Nat))
    (e : execInputSample mv avg rails s = .next t) : Kept Q t := by
  refine done_kept e ?_
  apply State.inputSample_kept
  exact hs

theorem execInputOutOfRange_kept {Q : List Instr} {s t : State} (hs : Kept Q s)
    (e : execInputOutOfRange s = .next t) : Kept Q t := by
  refine done_kept e ?_
  apply State.inputRange_kept
  exact hs

theorem execThermalSensorUpdate_kept {Q : List Instr} {s t : State} (hs : Kept Q s) (n : Nat) (reading : Reading)
    (e : execThermalSensorUpdate n reading s = .next t) : Kept Q t := by
  refine onUnit_kept e ?_
  apply State.sensorUpdate_kept
  exact hs

theorem execSensorStale_kept {Q : List Instr} {s t : State} (hs : Kept Q s) (n : Nat)
    (e : execSensorStale n s = .next t) : Kept Q t := by
  refine onUnit_kept e ?_
  apply State.sensorStale_kept
  exact hs

theorem execSensorMaxClr_kept {Q : List Instr} {s t : State} (hs : Kept Q s) (n : Nat) (_m : Master)
    (e : execSensorMaxClr n _m s = .next t) : Kept Q t := by
  refine onUnit_kept e ?_
  apply State.setF_kept
  exact hs

theorem execSetpointSettle_kept {Q : List Instr} {s t : State} (hs : Kept Q s) (r : Nat)
    (e : execSetpointSettle r s = .next t) : Kept Q t := by
  refine onUnit_kept e ?_
  apply State.setpoint_kept
  exact hs

theorem execPowerControlTick_kept {Q : List Instr} {s t : State} (hs : Kept Q s) (watts fit : Nat) (tick : TickData)
    (e : execPowerControlTick watts fit tick s = .next t) : Kept Q t := by
  refine onUnit_kept e ?_
  apply State.powerTick_kept
  exact hs

theorem execPwrCapWrite_kept {Q : List Instr} {s t : State} (hs : Kept Q s) (value : Nat) (_m : Master)
    (e : execPwrCapWrite value _m s = .next t) : Kept Q t := by
  refine done_kept e ?_
  apply State.capWrite_kept
  exact hs

theorem execPwrPeakClr_kept {Q : List Instr} {s t : State} (hs : Kept Q s) (_m : Master)
    (e : execPwrPeakClr _m s = .next t) : Kept Q t := by
  refine done_kept e ?_
  apply State.setF_kept
  exact hs

theorem execThrottleStep_kept {Q : List Instr} {s t : State} (hs : Kept Q s) (r : Nat)
    (e : execThrottleStep r s = .next t) : Kept Q t := by
  refine onUnit_kept e ?_
  apply State.throttle_kept
  exact hs

theorem execThrottleRecoverStep_kept {Q : List Instr} {s t : State} (hs : Kept Q s) (r : Nat)
    (e : execThrottleRecoverStep r s = .next t) : Kept Q t := by
  refine onUnit_kept e ?_
  apply State.throttleBack_kept
  exact hs

theorem execTrip_kept {Q : List Instr} {s t : State} (hs : Kept Q s) (n : Nat)
    (e : execTrip n s = .next t) : Kept Q t := by
  refine onUnit_kept e ?_
  apply State.trip_kept
  exact hs

theorem execDtdtHoldExpire_kept {Q : List Instr} {s t : State} (hs : Kept Q s) (r : Nat)
    (e : execDtdtHoldExpire r s = .next t) : Kept Q t := by
  refine onUnit_kept e ?_
  apply State.rateHoldEnd_kept
  exact hs

theorem execColdHoldCheck_kept {Q : List Instr} {s t : State} (hs : Kept Q s)
    (e : execColdHoldCheck s = .next t) : Kept Q t := by
  refine done_kept e ?_
  apply State.coldCheck_kept
  exact hs

theorem execBaskTimeout_kept {Q : List Instr} {s t : State} (hs : Kept Q s)
    (e : execBaskTimeout s = .next t) : Kept Q t := by
  refine done_kept e ?_
  apply State.baskTimeout_kept
  exact hs

theorem execPwrStop_kept {Q : List Instr} {s t : State} (hs : Kept Q s) (_m : Master)
    (e : execPwrStop _m s = .next t) : Kept Q t := by
  refine done_kept e ?_
  apply State.orderlyStop_kept
  exact hs

theorem execStopAbortPoint_kept {Q : List Instr} {s t : State} (hs : Kept Q s)
    (e : execStopAbortPoint s = .next t) : Kept Q t := by
  refine done_kept e ?_
  apply State.stopAbort_kept
  exact hs

theorem execPowerDown_kept {Q : List Instr} {s t : State} (hs : Kept Q s)
    (e : execPowerDown s = .next t) : Kept Q t := by
  refine done_kept e ?_
  apply State.powerDown_kept
  exact hs

theorem execAutoRestart_kept {Q : List Instr} {s t : State} (hs : Kept Q s)
    (e : execAutoRestart s = .next t) : Kept Q t := by
  refine done_kept e ?_
  apply State.autoRestart_kept
  exact hs

theorem execResetNLow_kept {Q : List Instr} {s t : State} (hs : Kept Q s)
    (e : execResetNLow s = .next t) : Kept Q t := by
  refine done_kept e ?_
  apply State.resetNLow_kept
  exact hs

theorem execResetNHigh_kept {Q : List Instr} {s t : State} (hs : Kept Q s)
    (e : execResetNHigh s = .next t) : Kept Q t := by
  refine done_kept e ?_
  apply State.resetNHigh_kept
  exact hs

theorem execRefclkLoss_kept {Q : List Instr} {s t : State} (hs : Kept Q s)
    (e : execRefclkLoss s = .next t) : Kept Q t := by
  refine done_kept e ?_
  apply State.refclkLoss_kept
  exact hs

theorem execInputLoss_kept {Q : List Instr} {s t : State} (hs : Kept Q s)
    (e : execInputLoss s = .next t) : Kept Q t := by
  refine done_kept e ?_
  apply State.inputLoss_kept
  exact hs

theorem execQueueDoorbell_kept {Q : List Instr} {s t : State} (hs : Kept Q s) (q value : Nat) (m : Master)
    (e : execQueueDoorbell q value m s = .next t) : Kept Q t := by
  refine onUnit_kept e ?_
  apply State.doorbell_kept
  exact hs

theorem execRheadWrite_kept {Q : List Instr} {s t : State} (hs : Kept Q s) (q value : Nat) (m : Master)
    (e : execRheadWrite q value m s = .next t) : Kept Q t := by
  refine onUnit_kept e ?_
  apply State.rheadWrite_kept
  exact hs

theorem execCommandDispatch_kept {Q : List Instr} {s t : State} (hs : Kept Q s) (q : Nat)
    (e : execCommandDispatch q s = .next t) : Kept Q t := by
  refine onUnit_kept e ?_
  apply State.dispatchHead_kept
  exact hs

theorem execTileCommit_kept {Q : List Instr} {s t : State} (hs : Kept Q s) (q seq : Nat)
    (e : execTileCommit q seq s = .next t) : Kept Q t := by
  refine onUnit_kept e ?_
  apply State.commitCmd_kept
  exact hs

theorem execCommandRetire_kept {Q : List Instr} {s t : State} (hs : Kept Q s) (q seq : Nat)
    (e : execCommandRetire q seq s = .next t) : Kept Q t := by
  refine onUnit_kept e ?_
  apply State.retireCmd_kept
  exact hs

theorem execGateSignal_kept {Q : List Instr} {s t : State} (hs : Kept Q s) (q seq : Nat)
    (e : execGateSignal q seq s = .next t) : Kept Q t := by
  refine onUnit_kept e ?_
  apply State.signalCmd_kept
  exact hs

theorem execReplyWrite_kept {Q : List Instr} {s t : State} (hs : Kept Q s) (q : Nat)
    (e : execReplyWrite q s = .next t) : Kept Q t := by
  refine onUnit_kept e ?_
  apply State.replyOut_kept
  exact hs

theorem execQueueWaitLong_kept {Q : List Instr} {s t : State} (hs : Kept Q s) (q : Nat)
    (e : execQueueWaitLong q s = .next t) : Kept Q t := by
  refine onUnit_kept e ?_
  apply State.waitLong_kept
  exact hs

theorem execNop_kept {Q : List Instr} {s t : State} (hs : Kept Q s) (q : Nat)
    (e : execNop q s = .next t) : Kept Q t := by
  refine onUnit_kept e ?_
  apply State.dispatchHead_kept
  exact hs

theorem execGateAdd_kept {Q : List Instr} {s t : State} (hs : Kept Q s) (q : Nat)
    (e : execGateAdd q s = .next t) : Kept Q t := by
  refine onUnit_kept e ?_
  apply State.dispatchHead_kept
  exact hs

theorem execGateSet_kept {Q : List Instr} {s t : State} (hs : Kept Q s) (q : Nat)
    (e : execGateSet q s = .next t) : Kept Q t := by
  refine onUnit_kept e ?_
  apply State.dispatchHead_kept
  exact hs

theorem execAbort_kept {Q : List Instr} {s t : State} (hs : Kept Q s) (q : Nat)
    (e : execAbort q s = .next t) : Kept Q t := by
  refine onUnit_kept e ?_
  apply State.dispatchHead_kept
  exact hs

theorem execQeGateValWrite_kept {Q : List Instr} {s t : State} (hs : Kept Q s) (g value : Nat) (_m : Master)
    (e : execQeGateValWrite g value _m s = .next t) : Kept Q t := by
  refine onUnit_kept e ?_
  apply State.setF_kept
  exact hs

theorem execQeGateAddWrite_kept {Q : List Instr} {s t : State} (hs : Kept Q s) (g value : Nat) (_m : Master)
    (e : execQeGateAddWrite g value _m s = .next t) : Kept Q t := by
  refine onUnit_kept e ?_
  apply State.gateAddWord_kept
  exact hs

theorem execQueueEnable_kept {Q : List Instr} {s t : State} (hs : Kept Q s) (q : Nat) (_m : Master)
    (e : execQueueEnable q _m s = .next t) : Kept Q t := by
  refine onUnit_kept e ?_
  apply State.queueEnable_kept
  exact hs

theorem execQueueDisable_kept {Q : List Instr} {s t : State} (hs : Kept Q s) (q : Nat) (_m : Master)
    (e : execQueueDisable q _m s = .next t) : Kept Q t := by
  refine onUnit_kept e ?_
  apply State.queueDisable_kept
  exact hs

theorem execQueueDrainFinish_kept {Q : List Instr} {s t : State} (hs : Kept Q s) (q : Nat) (_m : Master)
    (e : execQueueDrainFinish q _m s = .next t) : Kept Q t := by
  refine onUnit_kept e ?_
  apply State.queueDrain_kept
  exact hs

theorem execQueueDrainAbort_kept {Q : List Instr} {s t : State} (hs : Kept Q s) (q : Nat) (_m : Master)
    (e : execQueueDrainAbort q _m s = .next t) : Kept Q t := by
  refine onUnit_kept e ?_
  apply State.queueDrain_kept
  exact hs

theorem execQueueDrainDone_kept {Q : List Instr} {s t : State} (hs : Kept Q s) (q : Nat)
    (e : execQueueDrainDone q s = .next t) : Kept Q t := by
  refine onUnit_kept e ?_
  apply State.drainEnd_kept
  exact hs

theorem execQueueResume_kept {Q : List Instr} {s t : State} (hs : Kept Q s) (q : Nat) (_m : Master)
    (e : execQueueResume q _m s = .next t) : Kept Q t := by
  refine onUnit_kept e ?_
  apply State.queueResume_kept
  exact hs

theorem execClampClr_kept {Q : List Instr} {s t : State} (hs : Kept Q s) (q : Nat) (_m : Master)
    (e : execClampClr q _m s = .next t) : Kept Q t := by
  refine onUnit_kept e ?_
  apply State.setF_kept
  exact hs

theorem execWingDrainTimeout_kept {Q : List Instr} {s t : State} (hs : Kept Q s) (w : Nat)
    (e : execWingDrainTimeout w s = .next t) : Kept Q t := by
  refine onUnit_kept e ?_
  apply State.wingDrainTimeout_kept
  exact hs

theorem execChainReplay_kept {Q : List Instr} {s t : State} (hs : Kept Q s) (w : Nat)
    (e : execChainReplay w s = .next t) : Kept Q t := by
  refine onUnit_kept e ?_
  apply State.chainReplay_kept
  exact hs

theorem execAdoptionCopyDone_kept {Q : List Instr} {s t : State} (hs : Kept Q s) (w : Nat)
    (e : execAdoptionCopyDone w s = .next t) : Kept Q t := by
  refine onUnit_kept e ?_
  apply State.adoptDone_kept
  exact hs

theorem execStepCommit_kept {Q : List Instr} {s t : State} (hs : Kept Q s) (q : Nat)
    (e : execStepCommit q s = .next t) : Kept Q t := by
  refine onUnit_kept e ?_
  apply State.dispatchHead_kept
  exact hs

theorem execPush_kept {Q : List Instr} {s t : State} (hs : Kept Q s) (q : Nat)
    (e : execPush q s = .next t) : Kept Q t := by
  refine onUnit_kept e ?_
  apply State.dispatchHead_kept
  exact hs

theorem execRestore_kept {Q : List Instr} {s t : State} (hs : Kept Q s) (q : Nat)
    (e : execRestore q s = .next t) : Kept Q t := by
  refine onUnit_kept e ?_
  apply State.dispatchHead_kept
  exact hs

theorem execBuddyTimeout_kept {Q : List Instr} {s t : State} (hs : Kept Q s) (q seq : Nat)
    (e : execBuddyTimeout q seq s = .next t) : Kept Q t := by
  refine onUnit_kept e ?_
  apply State.buddyTimeout_kept
  exact hs

theorem execTaintSet_kept {Q : List Instr} {s t : State} (hs : Kept Q s) (_m : Master)
    (e : execTaintSet _m s = .next t) : Kept Q t := by
  refine done_kept e ?_
  apply State.taint_kept
  exact hs

theorem execLastWrite_kept {Q : List Instr} {s t : State} (hs : Kept Q s) (value : Nat) (m : Master)
    (e : execLastWrite value m s = .next t) : Kept Q t := by
  refine done_kept e ?_
  apply State.lastWrite_kept
  exact hs

theorem execResCtrlWrite_kept {Q : List Instr} {s t : State} (hs : Kept Q s) (value : Nat) (m : Master)
    (e : execResCtrlWrite value m s = .next t) : Kept Q t := by
  refine done_kept e ?_
  apply State.resCtrl_kept
  exact hs

theorem execTrayLoad_kept {Q : List Instr} {s t : State} (hs : Kept Q s) (h a n : Nat) (cached : Bool)
    (e : execTrayLoad h a n cached s = .next t) : Kept Q t := by
  refine onUnit_kept e ?_
  apply State.coreLoad_kept
  exact hs

theorem execTrayStore_kept {Q : List Instr} {s t : State} (hs : Kept Q s) (h a : Nat) (data : List Byte) (cached : Bool)
    (e : execTrayStore h a data cached s = .next t) : Kept Q t := by
  refine onUnit_kept e ?_
  apply State.coreStore_kept
  exact hs

theorem execTrayAtomic_kept {Q : List Instr} {s t : State} (hs : Kept Q s) (h a n : Nat) (o : CoreAmo) (operand compare : Nat)
    (e : execTrayAtomic h a n o operand compare s = .next t) : Kept Q t := by
  refine onUnit_kept e ?_
  apply State.trayAtomic_kept
  exact hs

theorem execCoreFence_kept {Q : List Instr} {s t : State} (hs : Kept Q s) (h : Nat) (pred : Bool)
    (e : execCoreFence h pred s = .next t) : Kept Q t := by
  refine onUnit_kept e ?_
  apply State.coreFence_kept
  exact hs

theorem execCoreLocalAtomic_kept {Q : List Instr} {s t : State} (hs : Kept Q s) (h a n : Nat) (o : CoreAmo) (operand compare : Nat)
    (e : execCoreLocalAtomic h a n o operand compare s = .next t) : Kept Q t := by
  refine onUnit_kept e ?_
  apply State.localAtomic_kept
  exact hs

theorem execRead_kept {Q : List Instr} {s t : State} (hs : Kept Q s) (src : Nat)
    (e : execRead src s = .next t) : Kept Q t := by
  refine done_kept e ?_
  apply State.homeRead_kept
  exact hs

theorem execReadLine_kept {Q : List Instr} {s t : State} (hs : Kept Q s) (src : Nat)
    (e : execReadLine src s = .next t) : Kept Q t := by
  refine done_kept e ?_
  apply State.homeLine_kept
  exact hs

theorem execReadOwn_kept {Q : List Instr} {s t : State} (hs : Kept Q s) (src : Nat)
    (e : execReadOwn src s = .next t) : Kept Q t := by
  refine done_kept e ?_
  apply State.homeLine_kept
  exact hs

theorem execWrite_kept {Q : List Instr} {s t : State} (hs : Kept Q s) (src : Nat)
    (e : execWrite src s = .next t) : Kept Q t := by
  refine done_kept e ?_
  apply State.homeWrite_kept
  exact hs

theorem execWriteBurst_kept {Q : List Instr} {s t : State} (hs : Kept Q s) (src : Nat)
    (e : execWriteBurst src s = .next t) : Kept Q t := by
  refine done_kept e ?_
  apply State.homeWrite_kept
  exact hs

theorem execAtomic_kept {Q : List Instr} {s t : State} (hs : Kept Q s) (src : Nat)
    (e : execAtomic src s = .next t) : Kept Q t := by
  refine done_kept e ?_
  apply State.homeAtomic_kept
  exact hs

theorem execWriteback_kept {Q : List Instr} {s t : State} (hs : Kept Q s) (src : Nat)
    (e : execWriteback src s = .next t) : Kept Q t := by
  refine done_kept e ?_
  apply State.homeWriteback_kept
  exact hs

theorem execInval_kept {Q : List Instr} {s t : State} (hs : Kept Q s) (src : Nat)
    (e : execInval src s = .next t) : Kept Q t := by
  refine done_kept e ?_
  apply State.holderInval_kept
  exact hs

theorem execInvalAck_kept {Q : List Instr} {s t : State} (hs : Kept Q s) (src : Nat)
    (e : execInvalAck src s = .next t) : Kept Q t := by
  refine done_kept e ?_
  apply State.homeInvalAck_kept
  exact hs

theorem execTrayDataReply_kept {Q : List Instr} {s t : State} (hs : Kept Q s) (src : Nat)
    (e : execTrayDataReply src s = .next t) : Kept Q t := by
  refine done_kept e ?_
  apply State.replyData_kept
  exact hs

theorem execTrayRefused_kept {Q : List Instr} {s t : State} (hs : Kept Q s) (src : Nat)
    (e : execTrayRefused src s = .next t) : Kept Q t := by
  refine done_kept e ?_
  apply State.replyRefused_kept
  exact hs

theorem execArrive_kept {Q : List Instr} {s t : State} (hs : Kept Q s) (src : Nat)
    (e : execArrive src s = .next t) : Kept Q t := by
  refine done_kept e ?_
  apply State.homeArrive_kept
  exact hs

theorem execJoin_kept {Q : List Instr} {s t : State} (hs : Kept Q s) (src : Nat)
    (e : execJoin src s = .next t) : Kept Q t := by
  refine done_kept e ?_
  apply State.homeJoin_kept
  exact hs

theorem execLeave_kept {Q : List Instr} {s t : State} (hs : Kept Q s) (src : Nat)
    (e : execLeave src s = .next t) : Kept Q t := by
  refine done_kept e ?_
  apply State.homeLeave_kept
  exact hs

theorem execTrayJoinStart_kept {Q : List Instr} {s t : State} (hs : Kept Q s) (_m : Master)
    (e : execTrayJoinStart _m s = .next t) : Kept Q t := by
  refine done_kept e ?_
  apply State.joinStart_kept
  exact hs

theorem execTrayLeaveStart_kept {Q : List Instr} {s t : State} (hs : Kept Q s) (_m : Master)
    (e : execTrayLeaveStart _m s = .next t) : Kept Q t := by
  refine done_kept e ?_
  apply State.leaveStart_kept
  exact hs

theorem execTrayLeaveDone_kept {Q : List Instr} {s t : State} (hs : Kept Q s)
    (e : execTrayLeaveDone s = .next t) : Kept Q t := by
  refine done_kept e ?_
  apply State.leaveDone_kept
  exact hs

theorem execTryWinWrite_kept {Q : List Instr} {s t : State} (hs : Kept Q s) (value : Nat) (m : Master)
    (e : execTryWinWrite value m s = .next t) : Kept Q t := by
  refine done_kept e ?_
  apply State.tryWin_kept
  exact hs

theorem execCopyLinear_kept {Q : List Instr} {s t : State} (hs : Kept Q s) (q : Nat)
    (e : execCopyLinear q s = .next t) : Kept Q t := by
  refine onUnit_kept e ?_
  apply State.dispatchHead_kept
  exact hs

theorem execCopyStrided_kept {Q : List Instr} {s t : State} (hs : Kept Q s) (q : Nat)
    (e : execCopyStrided q s = .next t) : Kept Q t := by
  refine onUnit_kept e ?_
  apply State.dispatchHead_kept
  exact hs

theorem execCopyGather_kept {Q : List Instr} {s t : State} (hs : Kept Q s) (q : Nat)
    (e : execCopyGather q s = .next t) : Kept Q t := by
  refine onUnit_kept e ?_
  apply State.dispatchHead_kept
  exact hs

theorem execCopyScatter_kept {Q : List Instr} {s t : State} (hs : Kept Q s) (q : Nat)
    (e : execCopyScatter q s = .next t) : Kept Q t := by
  refine onUnit_kept e ?_
  apply State.dispatchHead_kept
  exact hs

theorem execCopyAtomic_kept {Q : List Instr} {s t : State} (hs : Kept Q s) (q : Nat)
    (e : execCopyAtomic q s = .next t) : Kept Q t := by
  refine onUnit_kept e ?_
  apply State.dispatchHead_kept
  exact hs

theorem execMatmul_kept {Q : List Instr} {s t : State} (hs : Kept Q s) (q : Nat)
    (e : execMatmul q s = .next t) : Kept Q t := by
  refine onUnit_kept e ?_
  apply State.dispatchHead_kept
  exact hs

theorem execActivationLoad_kept {Q : List Instr} {s t : State} (hs : Kept Q s) (w : Nat)
    (e : execActivationLoad w s = .next t) : Kept Q t := by
  refine onUnit_kept e ?_
  apply State.loadNext_kept
  exact hs

theorem execArrayStep_kept {Q : List Instr} {s t : State} (hs : Kept Q s) (w : Nat) (errs : List (Nat × Nat × Nat))
    (e : execArrayStep w errs s = .next t) : Kept Q t := by
  refine onUnit_kept e ?_
  apply State.arrayStep_kept
  exact hs

theorem execTestbarCheck_kept {Q : List Instr} {s t : State} (hs : Kept Q s) (w a c : Nat)
    (e : execTestbarCheck w a c s = .next t) : Kept Q t := by
  refine onUnit_kept e ?_
  apply State.checkNow_kept
  exact hs

theorem execEpilogueRun_kept {Q : List Instr} {s t : State} (hs : Kept Q s) (w : Nat)
    (e : execEpilogueRun w s = .next t) : Kept Q t := by
  refine onUnit_kept e ?_
  apply State.startEpilogue_kept
  exact hs

theorem execWingHang_kept {Q : List Instr} {s t : State} (hs : Kept Q s) (w : Nat)
    (e : execWingHang w s = .next t) : Kept Q t := by
  refine onUnit_kept e ?_
  apply State.wingHang_kept
  exact hs

theorem execWingTakeOut_kept {Q : List Instr} {s t : State} (hs : Kept Q s) (w : Nat) (_m : Master)
    (e : execWingTakeOut w _m s = .next t) : Kept Q t := by
  refine onUnit_kept e ?_
  apply State.takeOut_kept
  exact hs

theorem execWingRestore_kept {Q : List Instr} {s t : State} (hs : Kept Q s) (w : Nat) (_m : Master)
    (e : execWingRestore w _m s = .next t) : Kept Q t := by
  refine onUnit_kept e ?_
  apply State.restoreWing_kept
  exact hs

theorem execArrayFence_kept {Q : List Instr} {s t : State} (hs : Kept Q s) (w a : Nat) (_m : Master)
    (e : execArrayFence w a _m s = .next t) : Kept Q t := by
  refine onUnit_kept e ?_
  apply State.fenceArray_kept
  exact hs

theorem execBistStart_kept {Q : List Instr} {s t : State} (hs : Kept Q s) (w : Nat) (_m : Master)
    (e : execBistStart w _m s = .next t) : Kept Q t := by
  refine onUnit_kept e ?_
  apply State.bistStart_kept
  exact hs

theorem execBistDone_kept {Q : List Instr} {s t : State} (hs : Kept Q s) (w : Nat) (results : List BistResult)
    (e : execBistDone w results s = .next t) : Kept Q t := by
  refine onUnit_kept e ?_
  apply State.bistDone_kept
  exact hs

theorem execAccWindowRead_kept {Q : List Instr} {s t : State} (hs : Kept Q s) (w off width : Nat) (m : Master)
    (e : execAccWindowRead w off width m s = .next t) : Kept Q t := by
  refine onUnit_kept e ?_
  apply State.accWindow_kept
  exact hs

theorem execStitchCodeError_kept {Q : List Instr} {s t : State} (hs : Kept Q s) (x : Nat)
    (e : execStitchCodeError x s = .next t) : Kept Q t := by
  refine onUnit_kept e ?_
  apply State.stitchError_kept
  exact hs

theorem execStreamValidate_kept {Q : List Instr} {s t : State} (hs : Kept Q s) (i : Nat) (m : Master)
    (e : execStreamValidate i m s = .next t) : Kept Q t := by
  refine onUnit_kept e ?_
  apply State.streamValidate_kept
  exact hs

theorem execStreamDescWrite_kept {Q : List Instr} {s t : State} (hs : Kept Q s) (i word value : Nat) (m : Master)
    (e : execStreamDescWrite i word value m s = .next t) : Kept Q t := by
  refine onUnit_kept e ?_
  apply State.descWrite_kept
  exact hs

theorem execStreamInstanceOpen_kept {Q : List Instr} {s t : State} (hs : Kept Q s) (i w : Nat)
    (e : execStreamInstanceOpen i w s = .next t) : Kept Q t := by
  refine onUnit_kept e ?_
  apply State.openFor_kept
  exact hs

theorem execJoinTimeout_kept {Q : List Instr} {s t : State} (hs : Kept Q s) (i : Nat)
    (e : execJoinTimeout i s = .next t) : Kept Q t := by
  refine onUnit_kept e ?_
  apply State.joinTimeout_kept
  exact hs

theorem execRunnerSlabPass_kept {Q : List Instr} {s t : State} (hs : Kept Q s) (inst : Nat)
    (e : execRunnerSlabPass inst s = .next t) : Kept Q t := by
  refine done_kept e ?_
  apply State.onInst_kept hs
  intros
  apply State.passSlab_kept
  assumption

theorem execReceiverPrune_kept {Q : List Instr} {s t : State} (hs : Kept Q s) (inst w : Nat)
    (e : execReceiverPrune inst w s = .next t) : Kept Q t := by
  refine onUnit_kept e ?_
  apply State.onInst_kept hs
  intros
  apply State.pruneRecv_kept
  assumption

theorem execInstanceClose_kept {Q : List Instr} {s t : State} (hs : Kept Q s) (inst : Nat)
    (e : execInstanceClose inst s = .next t) : Kept Q t := by
  refine done_kept e ?_
  apply State.onInst_kept hs
  intros
  apply State.instDone_kept
  assumption

theorem execTileStoreAccess_kept {Q : List Instr} {s t : State} (hs : Kept Q s) (w : Nat) (reqs : List PortReq)
    (e : execTileStoreAccess w reqs s = .next t) : Kept Q t := by
  refine onUnit_kept e ?_
  apply State.tileStep_kept
  exact hs

theorem execVecRun_kept {Q : List Instr} {s t : State} (hs : Kept Q s) (q : Nat)
    (e : execVecRun q s = .next t) : Kept Q t := by
  refine onUnit_kept e ?_
  apply State.dispatchHead_kept
  exact hs

/-- A command that answers a next state keeps the machine well formed and leaves the queue alone. -/
theorem exec_kept {q : List Instr} {i : Instr} {s t : State} (hs : Kept q s) (he : exec i s = .next t) : Kept q t := by
  cases i with
  | regWrite addr width value m => exact execRegWrite_kept hs addr width value m he
  | slackWindowEnd d slack => exact execSlackWindowEnd_kept hs d slack he
  | tapWiden d => exact execTapWiden_kept hs d he
  | holdWiden d slack => exact execHoldWiden_kept hs d slack he
  | tapRelax d => exact execTapRelax_kept hs d he
  | relaxReevaluate d => exact execRelaxReevaluate_kept hs d he
  | marginExhausted d => exact execMarginExhausted_kept hs d he
  | shadowLatchFlag d => exact execShadowLatchFlag_kept hs d he
  | vfloorRecompute r => exact execVfloorRecompute_kept hs r he
  | plannedWrite d value m => exact execPlannedWrite_kept hs d value m he
  | sweepOffWrite d value m => exact execSweepOffWrite_kept hs d value m he
  | mgnPeakClr d m => exact execMgnPeakClr_kept hs d m he
  | slackMinClr d m => exact execSlackMinClr_kept hs d m he
  | mgnCtrlWrite value m => exact execMgnCtrlWrite_kept hs value m he
  | temperStart m => exact execTemperStart_kept hs m he
  | temperRotationDue => exact execTemperRotationDue_kept hs he
  | temperTriggered d => exact execTemperTriggered_kept hs d he
  | temperWingSkip w => exact execTemperWingSkip_kept hs w he
  | temperDomainPass d slack erosion => exact execTemperDomainPass_kept hs d slack erosion he
  | baskTapRemove r => exact execBaskTapRemove_kept hs r he
  | stepsRead w => exact execStepsRead_kept hs w he
  | matmul q => exact execMatmul_kept hs q he
  | activationLoad w => exact execActivationLoad_kept hs w he
  | arrayStep w errs => exact execArrayStep_kept hs w errs he
  | testbarCheck w a c => exact execTestbarCheck_kept hs w a c he
  | epilogueRun w => exact execEpilogueRun_kept hs w he
  | wingHang w => exact execWingHang_kept hs w he
  | wingTakeOut w m => exact execWingTakeOut_kept hs w m he
  | wingRestore w m => exact execWingRestore_kept hs w m he
  | arrayFence w a m => exact execArrayFence_kept hs w a m he
  | bistStart w m => exact execBistStart_kept hs w m he
  | bistDone w results => exact execBistDone_kept hs w results he
  | accWindowRead w off width m => exact execAccWindowRead_kept hs w off width m he
  | stitchCodeError x => exact execStitchCodeError_kept hs x he
  | streamValidate idx m => exact execStreamValidate_kept hs idx m he
  | streamDescWrite idx word value m => exact execStreamDescWrite_kept hs idx word value m he
  | streamInstanceOpen idx w => exact execStreamInstanceOpen_kept hs idx w he
  | joinTimeout idx => exact execJoinTimeout_kept hs idx he
  | runnerSlabPass inst => exact execRunnerSlabPass_kept hs inst he
  | receiverPrune inst w => exact execReceiverPrune_kept hs inst w he
  | instanceClose inst => exact execInstanceClose_kept hs inst he
  | tileStoreAccess w reqs => exact execTileStoreAccess_kept hs w reqs he
  | vecRun q => exact execVecRun_kept hs q he
  | patternNop w => exact execPatternNop_kept hs w he
  | mov w => exact execMov_kept hs w he
  | add w => exact execAdd_kept hs w he
  | sub w => exact execSub_kept hs w he
  | mul w => exact execMul_kept hs w he
  | fma w => exact execFma_kept hs w he
  | fms w => exact execFms_kept hs w he
  | fnma w => exact execFnma_kept hs w he
  | div w => exact execDiv_kept hs w he
  | sqrt w => exact execSqrt_kept hs w he
  | min w => exact execMin_kept hs w he
  | max w => exact execMax_kept hs w he
  | minn w => exact execMinn_kept hs w he
  | maxn w => exact execMaxn_kept hs w he
  | abs w => exact execAbs_kept hs w he
  | neg w => exact execNeg_kept hs w he
  | cmpeq w => exact execCmpeq_kept hs w he
  | cmplt w => exact execCmplt_kept hs w he
  | cmple w => exact execCmple_kept hs w he
  | cmpun w => exact execCmpun_kept hs w he
  | sel w => exact execSel_kept hs w he
  | scale w => exact execScale_kept hs w he
  | cvt w => exact execCvt_kept hs w he
  | rint w => exact execRint_kept hs w he
  | qnt w => exact execQnt_kept hs w he
  | iadd w => exact execIadd_kept hs w he
  | isub w => exact execIsub_kept hs w he
  | imul w => exact execImul_kept hs w he
  | and w => exact execAnd_kept hs w he
  | or w => exact execOr_kept hs w he
  | xor w => exact execXor_kept hs w he
  | shl w => exact execShl_kept hs w he
  | shr w => exact execShr_kept hs w he
  | sra w => exact execSra_kept hs w he
  | imin w => exact execImin_kept hs w he
  | imax w => exact execImax_kept hs w he
  | exp2 w => exact execExp2_kept hs w he
  | exp w => exact execExp_kept hs w he
  | log2 w => exact execLog2_kept hs w he
  | log w => exact execLog_kept hs w he
  | rcp w => exact execRcp_kept hs w he
  | rsqrt w => exact execRsqrt_kept hs w he
  | tanh w => exact execTanh_kept hs w he
  | sigm w => exact execSigm_kept hs w he
  | erf w => exact execErf_kept hs w he
  | sin w => exact execSin_kept hs w he
  | cos w => exact execCos_kept hs w he
  | gath w => exact execGath_kept hs w he
  | scat w => exact execScat_kept hs w he
  | lxch w => exact execLxch_kept hs w he
  | lsum w => exact execLsum_kept hs w he
  | lshf w => exact execLshf_kept hs w he
  | vecReduction w => exact execVecReduction_kept hs w he
  | trWindowRead w off width m => exact execTrWindowRead_kept hs w off width m he
  | queueDoorbell q value m => exact execQueueDoorbell_kept hs q value m he
  | rheadWrite q value m => exact execRheadWrite_kept hs q value m he
  | commandDispatch q => exact execCommandDispatch_kept hs q he
  | tileCommit q seq => exact execTileCommit_kept hs q seq he
  | commandRetire q seq => exact execCommandRetire_kept hs q seq he
  | gateSignal q seq => exact execGateSignal_kept hs q seq he
  | replyWrite q => exact execReplyWrite_kept hs q he
  | queueWaitLong q => exact execQueueWaitLong_kept hs q he
  | nop q => exact execNop_kept hs q he
  | gateAdd q => exact execGateAdd_kept hs q he
  | gateSet q => exact execGateSet_kept hs q he
  | abort q => exact execAbort_kept hs q he
  | qeGateValWrite g value m => exact execQeGateValWrite_kept hs g value m he
  | qeGateAddWrite g value m => exact execQeGateAddWrite_kept hs g value m he
  | queueEnable q m => exact execQueueEnable_kept hs q m he
  | queueDisable q m => exact execQueueDisable_kept hs q m he
  | queueDrainFinish q m => exact execQueueDrainFinish_kept hs q m he
  | queueDrainAbort q m => exact execQueueDrainAbort_kept hs q m he
  | queueDrainDone q => exact execQueueDrainDone_kept hs q he
  | queueResume q m => exact execQueueResume_kept hs q m he
  | clampClr q m => exact execClampClr_kept hs q m he
  | wingDrainTimeout w => exact execWingDrainTimeout_kept hs w he
  | chainReplay w => exact execChainReplay_kept hs w he
  | adoptionCopyDone w => exact execAdoptionCopyDone_kept hs w he
  | memQualOverride f m => exact execMemQualOverride_kept hs f m he
  | ladleRead a n hint m => exact execLadleRead_kept hs a n hint m he
  | ladleWrite a data hint m => exact execLadleWrite_kept hs a data hint m he
  | ladleMissFill k errs ondie => exact execLadleMissFill_kept hs k errs ondie he
  | ladleWriteback q => exact execLadleWriteback_kept hs q he
  | ladleEvict q => exact execLadleEvict_kept hs q he
  | ladleUnprotect q => exact execLadleUnprotect_kept hs q he
  | ladlePrefetch q => exact execLadlePrefetch_kept hs q he
  | ladleZero q => exact execLadleZero_kept hs q he
  | perBankRefresh k => exact execPerBankRefresh_kept hs k he
  | refreshManagementRequest k => exact execRefreshManagementRequest_kept hs k he
  | stackTempRead k temp => exact execStackTempRead_kept hs k temp he
  | scrubRead k errs => exact execScrubRead_kept hs k errs he
  | parityError k retryOk => exact execParityError_kept hs k retryOk he
  | phyLockLoss k => exact execPhyLockLoss_kept hs k he
  | stackRetrainDone k ok => exact execStackRetrainDone_kept hs k ok he
  | turnWrite q => exact execTurnWrite_kept hs q he
  | turnArm q => exact execTurnArm_kept hs q he
  | turnDisarm q => exact execTurnDisarm_kept hs q he
  | d2dFrameReceive l dir x tag payload way => exact execD2dFrameReceive_kept hs l dir x tag payload way he
  | d2dNak l dir cls seq => exact execD2dNak_kept hs l dir cls seq he
  | d2dLinkControl l dir acks credits => exact execD2dLinkControl_kept hs l dir acks credits he
  | sliceRetrainDone l n ok repairs eye => exact execSliceRetrainDone_kept hs l n ok repairs eye he
  | d2dSwitch f m => exact execD2dSwitch_kept hs f m he
  | d2dModeChangeDone f work => exact execD2dModeChangeDone_kept hs f work he
  | d2dLockLoss f => exact execD2dLockLoss_kept hs f he
  | edgeRetrainDone f work => exact execEdgeRetrainDone_kept hs f work he
  | ringLockLoss p r frame loss => exact execRingLockLoss_kept hs p r frame loss he
  | combMonitor e c bias temp powers lasing frame => exact execCombMonitor_kept hs e c bias temp powers lasing frame he
  | lineSourceFail e n frame => exact execLineSourceFail_kept hs e n frame he
  | rxMonitor p lines frame => exact execRxMonitor_kept hs p lines frame he
  | lossOfSignal p n frame => exact execLossOfSignal_kept hs p n frame he
  | peerId p num addr port => exact execPeerId_kept hs p num addr port he
  | lswapReq p num lane spare frame => exact execLswapReq_kept hs p num lane spare frame he
  | lswapDup p num lane spare f => exact execLswapDup_kept hs p num lane spare f he
  | lswapVerifyDone p frame ok => exact execLswapVerifyDone_kept hs p frame ok he
  | lswapDone p num lane spare f => exact execLswapDone_kept hs p num lane spare f he
  | lswapCutover p frame sender => exact execLswapCutover_kept hs p frame sender he
  | lswapAbandon p num lane spare frame verify => exact execLswapAbandon_kept hs p num lane spare frame verify he
  | lswapTimeout p frame sender => exact execLswapTimeout_kept hs p frame sender he
  | leLswap p lane frame m => exact execLeLswap_kept hs p lane frame m he
  | narrowAt p num lanes f => exact execNarrowAt_kept hs p num lanes f he
  | widenAt p num lanes f => exact execWidenAt_kept hs p num lanes f he
  | stripeChange p => exact execStripeChange_kept hs p he
  | combSwap e frame requested => exact execCombSwap_kept hs e frame requested he
  | combLocked e c frame => exact execCombLocked_kept hs e c frame he
  | combLockTimeout e => exact execCombLockTimeout_kept hs e he
  | cswapAt p num f => exact execCswapAt_kept hs p num f he
  | combCutover p frame => exact execCombCutover_kept hs p frame he
  | laneAck p num => exact execLaneAck_kept hs p num he
  | portOff p num => exact execPortOff_kept hs p num he
  | portDisable p m => exact execPortDisable_kept hs p m he
  | portEnable p m => exact execPortEnable_kept hs p m he
  | portDrainDone p => exact execPortDrainDone_kept hs p he
  | leEnableWrite e value m => exact execLeEnableWrite_kept hs e value m he
  | leThreshWrite e value m => exact execLeThreshWrite_kept hs e value m he
  | linkUnitReceive p u way => exact execLinkUnitReceive_kept hs p u way he
  | linkNak p lseq => exact execLinkNak_kept hs p lseq he
  | linkResendTimeout p => exact execLinkResendTimeout_kept hs p he
  | linkControlUnit p => exact execLinkControlUnit_kept hs p he
  | cellRoute p v => exact execCellRoute_kept hs p v he
  | portUsabilityChange p => exact execPortUsabilityChange_kept hs p he
  | e2eDataReceive c => exact execE2eDataReceive_kept hs c he
  | e2eCloseReceive c => exact execE2eCloseReceive_kept hs c he
  | e2eAckReceive c => exact execE2eAckReceive_kept hs c he
  | e2eResetReceive c => exact execE2eResetReceive_kept hs c he
  | e2eAckDelayExpire peer c group => exact execE2eAckDelayExpire_kept hs peer c group he
  | e2eRetransmit peer c mc => exact execE2eRetransmit_kept hs peer c mc he
  | peerEvict peer => exact execPeerEvict_kept hs peer he
  | rtLoad m => exact execRtLoad_kept hs m he
  | rtArm m => exact execRtArm_kept hs m he
  | rtFlip m => exact execRtFlip_kept hs m he
  | rtBankDrained b => exact execRtBankDrained_kept hs b he
  | rtEntryWrite b loc r value m => exact execRtEntryWrite_kept hs b loc r value m he
  | fabAddrWrite value m => exact execFabAddrWrite_kept hs value m he
  | fabEnable value m => exact execFabEnable_kept hs value m he
  | peerClear peer m => exact execPeerClear_kept hs peer m he
  | cableAccept p m => exact execCableAccept_kept hs p m he
  | cableRecheck p m => exact execCableRecheck_kept hs p m he
  | fence q => exact execFence_kept hs q he
  | fenceTimeout q seq => exact execFenceTimeout_kept hs q seq he
  | trayLoad h a n cached => exact execTrayLoad_kept hs h a n cached he
  | trayStore h a data cached => exact execTrayStore_kept hs h a data cached he
  | trayAtomic h a n o operand compare => exact execTrayAtomic_kept hs h a n o operand compare he
  | coreFence h pred => exact execCoreFence_kept hs h pred he
  | coreLocalAtomic h a n o operand compare => exact execCoreLocalAtomic_kept hs h a n o operand compare he
  | read src => exact execRead_kept hs src he
  | readLine src => exact execReadLine_kept hs src he
  | readOwn src => exact execReadOwn_kept hs src he
  | write src => exact execWrite_kept hs src he
  | writeBurst src => exact execWriteBurst_kept hs src he
  | atomic src => exact execAtomic_kept hs src he
  | writeback src => exact execWriteback_kept hs src he
  | inval src => exact execInval_kept hs src he
  | invalAck src => exact execInvalAck_kept hs src he
  | trayDataReply src => exact execTrayDataReply_kept hs src he
  | trayRefused src => exact execTrayRefused_kept hs src he
  | arrive src => exact execArrive_kept hs src he
  | join src => exact execJoin_kept hs src he
  | leave src => exact execLeave_kept hs src he
  | trayJoinStart m => exact execTrayJoinStart_kept hs m he
  | trayLeaveStart m => exact execTrayLeaveStart_kept hs m he
  | trayLeaveDone => exact execTrayLeaveDone_kept hs he
  | tryWinWrite value m => exact execTryWinWrite_kept hs value m he
  | copyLinear q => exact execCopyLinear_kept hs q he
  | copyStrided q => exact execCopyStrided_kept hs q he
  | copyGather q => exact execCopyGather_kept hs q he
  | copyScatter q => exact execCopyScatter_kept hs q he
  | copyAtomic q => exact execCopyAtomic_kept hs q he
  | groupEnable g m => exact execGroupEnable_kept hs g m he
  | groupDisable g m => exact execGroupDisable_kept hs g m he
  | groupDrainTimeout g => exact execGroupDrainTimeout_kept hs g he
  | colGrpCfgWrite g list value m => exact execColGrpCfgWrite_kept hs g list value m he
  | allReduce q => exact execAllReduce_kept hs q he
  | reduceScatter q => exact execReduceScatter_kept hs q he
  | allGather q => exact execAllGather_kept hs q he
  | reduce q => exact execReduce_kept hs q he
  | broadcast q => exact execBroadcast_kept hs q he
  | barrier q => exact execBarrier_kept hs q he
  | collSig src gid => exact execCollSig_kept hs src gid he
  | collData src gid => exact execCollData_kept hs src gid he
  | collEnd src gid => exact execCollEnd_kept hs src gid he
  | collAbort src gid => exact execCollAbort_kept hs src gid he
  | collTimeout q seq => exact execCollTimeout_kept hs q seq he
  | collStageExpire gid => exact execCollStageExpire_kept hs gid he
  | stepCommit q => exact execStepCommit_kept hs q he
  | push q => exact execPush_kept hs q he
  | restore q => exact execRestore_kept hs q he
  | buddyTimeout q seq => exact execBuddyTimeout_kept hs q seq he
  | taintSet m => exact execTaintSet_kept hs m he
  | lastWrite value m => exact execLastWrite_kept hs value m he
  | resCtrlWrite value m => exact execResCtrlWrite_kept hs value m he
  | cruResetModule m => exact execCruResetModule_kept hs m he
  | bootStageAdvance work => exact execBootStageAdvance_kept hs work he
  | ident h => exact execIdent_kept hs h he
  | hello h key nonce cert => exact execHello_kept hs h key nonce cert he
  | finish h sig => exact execFinish_kept hs h sig he
  | status h => exact execStatus_kept hs h he
  | readReg h addr => exact execReadReg_kept hs h addr he
  | writeReg h addr value => exact execWriteReg_kept hs h addr value he
  | readLog h eye first count => exact execReadLog_kept hs h eye first count he
  | timeSyncMeasure h => exact execTimeSyncMeasure_kept hs h he
  | timeSyncAdjust h offset => exact execTimeSyncAdjust_kept hs h offset he
  | slewDone => exact execSlewDone_kept hs he
  | mgtReset h => exact execMgtReset_kept hs h he
  | powerCap h watts => exact execPowerCap_kept hs h watts he
  | imageBegin h cls total => exact execImageBegin_kept hs h cls total he
  | imageChunk h cls offset data => exact execImageChunk_kept hs h cls offset data he
  | imageEnd h cls => exact execImageEnd_kept hs h cls he
  | imageCancel h cls => exact execImageCancel_kept hs h cls he
  | imageTransferTimeout => exact execImageTransferTimeout_kept hs he
  | bye h => exact execBye_kept hs h he
  | sessionIdleClose session => exact execSessionIdleClose_kept hs session he
  | attestStart k m => exact execAttestStart_kept hs k m he
  | attestDone k => exact execAttestDone_kept hs k he
  | mgtFragmentReceive src => exact execMgtFragmentReceive_kept hs src he
  | mgtFragmentTimeout src num => exact execMgtFragmentTimeout_kept hs src num he
  | osFrameReceive frame control full => exact execOsFrameReceive_kept hs frame control full he
  | osFrameTransmit n => exact execOsFrameTransmit_kept hs n he
  | routerAdvertisement pre ext => exact execRouterAdvertisement_kept hs pre ext he
  | neighbourDiscovery target ext => exact execNeighbourDiscovery_kept hs target ext he
  | icmpv6Echo target data ext => exact execIcmpv6Echo_kept hs target data ext he
  | smbReadIdentity pec => exact execSmbReadIdentity_kept hs pec he
  | smbReadStatus pec => exact execSmbReadStatus_kept hs pec he
  | smbReadPower pec => exact execSmbReadPower_kept hs pec he
  | smbReadTj pec => exact execSmbReadTj_kept hs pec he
  | smbStopRequest value pec => exact execSmbStopRequest_kept hs value pec he
  | sourceOccurrence n addr master atype => exact execSourceOccurrence_kept hs n addr master atype he
  | quietExpire n => exact execQuietExpire_kept hs n he
  | countWindowExpire n => exact execCountWindowExpire_kept hs n he
  | sourceUnlatch n m => exact execSourceUnlatch_kept hs n m he
  | sourceLatch n m => exact execSourceLatch_kept hs n m he
  | eyeSrcCfgWrite n value m => exact execEyeSrcCfgWrite_kept hs n value m he
  | logRecordMove => exact execLogRecordMove_kept hs he
  | alertPulseEnd sec => exact execAlertPulseEnd_kept hs sec he
  | eyePinHoldWrite alert sec m => exact execEyePinHoldWrite_kept hs alert sec m he
  | keelKick m => exact execKeelKick_kept hs m he
  | osKick m => exact execOsKick_kept hs m he
  | keelWatchdogExpire => exact execKeelWatchdogExpire_kept hs he
  | osWatchdogExpire => exact execOsWatchdogExpire_kept hs he
  | injectionArm m => exact execInjectionArm_kept hs m he
  | sweepStressPoint w a => exact execSweepStressPoint_kept hs w a he
  | sweepAbandon w a => exact execSweepAbandon_kept hs w a he
  | sweepEnd w a => exact execSweepEnd_kept hs w a he
  | inputValid straps => exact execInputValid_kept hs straps he
  | railPowerGood bad => exact execRailPowerGood_kept hs bad he
  | railFault r => exact execRailFault_kept hs r he
  | inputSample mv avg rails => exact execInputSample_kept hs mv avg rails he
  | inputOutOfRange => exact execInputOutOfRange_kept hs he
  | thermalSensorUpdate n reading => exact execThermalSensorUpdate_kept hs n reading he
  | sensorStale n => exact execSensorStale_kept hs n he
  | sensorMaxClr n m => exact execSensorMaxClr_kept hs n m he
  | setpointSettle r => exact execSetpointSettle_kept hs r he
  | powerControlTick watts fit tick => exact execPowerControlTick_kept hs watts fit tick he
  | pwrCapWrite value m => exact execPwrCapWrite_kept hs value m he
  | pwrPeakClr m => exact execPwrPeakClr_kept hs m he
  | throttleStep r => exact execThrottleStep_kept hs r he
  | throttleRecoverStep r => exact execThrottleRecoverStep_kept hs r he
  | trip n => exact execTrip_kept hs n he
  | dtdtHoldExpire r => exact execDtdtHoldExpire_kept hs r he
  | coldHoldCheck => exact execColdHoldCheck_kept hs he
  | baskTimeout => exact execBaskTimeout_kept hs he
  | pwrStop m => exact execPwrStop_kept hs m he
  | stopAbortPoint => exact execStopAbortPoint_kept hs he
  | powerDown => exact execPowerDown_kept hs he
  | autoRestart => exact execAutoRestart_kept hs he
  | resetNLow => exact execResetNLow_kept hs he
  | resetNHigh => exact execResetNHigh_kept hs he
  | refclkLoss => exact execRefclkLoss_kept hs he
  | inputLoss => exact execInputLoss_kept hs he
  | ringAcquisitionDone p frame crossings => exact execRingAcquisitionDone_kept hs p frame crossings he
  | peerAligned p lines => exact execPeerAligned_kept hs p lines he
  | heaterLimit p r heat => exact execHeaterLimit_kept hs p r heat he
  | mgtLinkChange up => exact execMgtLinkChange_kept hs up he
  | refclkReturn => exact execRefclkReturn_kept hs he
  | factoryTestProgram cert images => exact execFactoryTestProgram_kept hs cert images he

theorem idle_kept {q : List Instr} {s : State} (h : Kept q s) : Kept q s.idle := State.idle_kept h

end Sys2Proof.Machine
end

