-- ==== Sys2Proof/Laws/Raise.lean ====
section
/-! SUPPORT. What raising a source can change: the registers of fault collection, the taint bits and a wing's sweep, and of the
rest of the state only the parts that hold the sources' windows, the pins, the wings' sweeps and the pending NMIs (R443 to R458). -/

namespace Sys2Proof.Machine

/-- The registers that an occurrence, its reaction and a sweep it schedules may write. -/
def eyeReg : RegName → Bool
  | .EYE_STATUS | .EYE_PIN | .EYE_GRP_PEND | .EYE_GRP_CAP_ADDR | .EYE_GRP_CAP_INFO | .EYE_GRP_CAP_TIME | .EYE_SRC_STAT | .EYE_SWEEP
  | .CRU_RES_TAINT | .MGN_DOM_TAP | .WNG_BIST | .WNG_STATUS => true
  | _ => false

/-- The state after it differs from the state before it only where raising a source may write. -/
structure EyeFrame (s t : State) : Prop where
  rd : ∀ n i j, eyeReg n = false → t.rd n i j = s.rd n i j
  rest : { t with regs := s.regs, eye := s.eye, wings := s.wings, pins := s.pins, nmi := s.nmi } = s
  straps : t.pins.straps = s.pins.straps

theorem EyeFrame.refl (s : State) : EyeFrame s s := ⟨fun _ _ _ _ => rfl, rfl, rfl⟩

theorem EyeFrame.trans {s t u : State} (h : EyeFrame s t) (k : EyeFrame t u) : EyeFrame s u := by
  refine ⟨fun n i j hn => (k.rd n i j hn).trans (h.rd n i j hn), ?_, k.straps.trans h.straps⟩
  have e := h.rest
  rw [← k.rest] at e
  exact e

theorem EyeFrame.setF {s t : State} (h : EyeFrame s t) (x : Fld) (v i j : Nat) (hx : eyeReg x.reg = true) :
    EyeFrame s (t.setF x v i j) := by
  refine ⟨fun n a b hn => ?_, h.rest, h.straps⟩
  have hne : x.reg ≠ n := fun e => by rw [e, hn] at hx; cases hx
  have hb : x.reg ≠ .CRU_BOOT := fun e => by rw [e] at hx; cases hx
  unfold State.setF
  rw [State.rd_wr_reg _ _ _ _ _ _ hne hb]
  exact h.rd n a b hn

theorem EyeFrame.bump {s t : State} (h : EyeFrame s t) (x : Fld) (k i j : Nat) (hx : eyeReg x.reg = true) :
    EyeFrame s (t.bump x k i j) := h.setF x _ i j hx

/-- Changing the parts that fault collection holds outside its registers. -/
theorem EyeFrame.parts {s t : State} (h : EyeFrame s t) (e : EyeSt) (w : List (Nat × WingSt)) (p : Pins) (n : Nat)
    (hp : p.straps = t.pins.straps) : EyeFrame s { t with eye := e, wings := w, pins := p, nmi := n } := by
  refine ⟨fun m a b hm => ?_, h.rest, hp.trans h.straps⟩
  rw [← h.rd m a b hm]
  unfold State.rd State.fusesIn
  dsimp only
  rw [hp]

theorem EyeFrame.ite {s t u : State} {c : Prop} [Decidable c] (h : EyeFrame s t) (k : EyeFrame s u) : EyeFrame s (if c then t else u) := by
  split <;> assumption

theorem EyeFrame.foldS {α : Type} {s t : State} {f : α → State → State} (xs : List α) (h : EyeFrame s t)
    (hf : ∀ x t, EyeFrame s t → EyeFrame s (f x t)) : EyeFrame s (foldS xs f t) := by
  unfold Machine.foldS
  induction xs generalizing t with
  | nil => exact h
  | cons x r ih => exact ih (hf x t h)

variable {s t : State}

theorem EyeFrame.setEyeSrc (h : EyeFrame s t) (n : Nat) (x : EyeSrcSt) : EyeFrame s (t.setEyeSrc n x) := h.parts _ _ _ _ rfl

theorem EyeFrame.refreshPins (h : EyeFrame s t) : EyeFrame s t.refreshPins := h.setF _ _ _ _ rfl

theorem EyeFrame.releasePins (h : EyeFrame s t) : EyeFrame s t.releasePins := by
  unfold State.releasePins
  have h1 : EyeFrame s (if (!t.pins.alertPulse) = true ∧ t.f F.EYE_PIN_ALERT_HOLD = 0 then t.setF F.EYE_PIN_ALERT 0 else t) :=
    .ite (h.setF _ _ _ _ rfl) h
  revert h1
  generalize (if (!t.pins.alertPulse) = true ∧ t.f F.EYE_PIN_ALERT_HOLD = 0 then t.setF F.EYE_PIN_ALERT 0 else t) = u
  intro h1
  exact .ite (h1.setF _ _ _ _ rfl) h1

theorem EyeFrame.withPins {f : State → State} (hf : EyeFrame s (f t)) : EyeFrame s (t.withPins f) := by
  unfold State.withPins
  revert hf
  generalize f t = u
  intro hf
  dsimp only
  have h1 : EyeFrame s (if (t.pinCond [2, 4] && !u.pinCond [2, 4]) = true then u.setF F.EYE_PIN_ALERT_HOLD 0 else u) :=
    .ite (hf.setF _ _ _ _ rfl) hf
  revert h1
  generalize (if (t.pinCond [2, 4] && !u.pinCond [2, 4]) = true then u.setF F.EYE_PIN_ALERT_HOLD 0 else u) = v
  intro h1
  exact (EyeFrame.ite (h1.setF _ _ _ _ rfl) h1).releasePins.refreshPins

theorem EyeFrame.pinReact (h : EyeFrame s t) (n : Nat) : EyeFrame s (t.pinReact n) := by
  unfold State.pinReact
  have h1 : ∀ x, EyeFrame s (t.setEyeSrc n x) := fun x => h.setEyeSrc n x
  exact .ite (h1 _) (.ite ((((h1 _).setF _ _ _ _ rfl).setF _ _ _ _ rfl).parts _ _ _ _ rfl)
    (.ite ((((h1 _).setF _ _ _ _ rfl).setF _ _ _ _ rfl).parts _ _ _ _ rfl) (h1 _)))

theorem EyeFrame.capture (h : EyeFrame s t) (n : Nat) (c : Cap) : EyeFrame s (t.capture n c) := by
  unfold State.capture
  exact .ite ((((((h.setF _ _ _ _ rfl).setF _ _ _ _ rfl).setF _ _ _ _ rfl).setF _ _ _ _ rfl).setF _ _ _ _ rfl).setF _ _ _ _ rfl)
    (h.setF _ _ _ _ rfl)

theorem EyeFrame.record (h : EyeFrame s t) (n : Nat) (c : Cap) (x : List Int) : EyeFrame s (t.record n c x).1 := by
  unfold State.record
  dsimp only
  split
  · exact h.parts _ _ _ _ rfl
  · exact (h.parts _ t.wings t.pins t.nmi rfl).setF _ _ _ _ rfl

theorem EyeFrame.dropSweeps (h : EyeFrame s t) (p : Sweep → Bool) (l : Bool) : EyeFrame s (t.dropSweeps p l) := by
  unfold State.dropSweeps
  extract_lets gone
  split
  · exact h
  · refine .parts (.setF (.foldS _ h fun x u hu => ?_) _ _ _ _ rfl) _ _ _ _ rfl
    dsimp only
    have h4 : EyeFrame s (Machine.foldS (List.range 4) (fun a u => u.setF F.MGN_DOM_TAP_SWEEP_OFF 0 (6 * x.wing + a)) u) :=
      .foldS _ hu fun a u hu => hu.setF _ _ _ _ rfl
    revert h4
    generalize Machine.foldS (List.range 4) (fun a u => u.setF F.MGN_DOM_TAP_SWEEP_OFF 0 (6 * x.wing + a)) u = u4
    intro h4
    have hb : EyeFrame s (u4.setF F.WNG_BIST_BUSY 0 x.wing) := h4.setF _ _ _ _ rfl
    revert hb
    generalize u4.setF F.WNG_BIST_BUSY 0 x.wing = b
    intro hb
    have hc : EyeFrame s (if b.f F.WNG_STATUS_STATE x.wing = 1 then b.setF F.WNG_STATUS_STATE 2 x.wing else b) :=
      .ite (hb.setF _ _ _ _ rfl) hb
    revert hc
    generalize (if b.f F.WNG_STATUS_STATE x.wing = 1 then b.setF F.WNG_STATUS_STATE 2 x.wing else b) = c
    intro hc
    exact hc.parts _ _ _ _ rfl

theorem EyeFrame.react (h : EyeFrame s t) (n : Nat) : EyeFrame s (t.react n) := by
  unfold State.react
  have ha : EyeFrame s (if t.f F.EYE_SRC_CFG_NMI n = 1 then
      { t.setF F.EYE_STATUS_NMI_SEEN 1 with nmi := (t.nmi ||| t.f F.EYE_NMI_HARTS) } else t) :=
    .ite ((h.setF F.EYE_STATUS_NMI_SEEN 1 0 0 rfl).parts _ _ _ _ rfl) h
  revert ha
  generalize (if t.f F.EYE_SRC_CFG_NMI n = 1 then
      { t.setF F.EYE_STATUS_NMI_SEEN 1 with nmi := (t.nmi ||| t.f F.EYE_NMI_HARTS) } else t) = a
  intro ha
  dsimp only
  have he : EyeFrame s ((((((a.setF F.EYE_SRC_STAT_COUNT 0 n).setF F.EYE_SRC_STAT_QUIET 1 n).bump F.EYE_STATUS_QUIET_NOW).pinReact n).refreshPins)) :=
    ((((ha.setF _ _ _ _ rfl).setF _ _ _ _ rfl).bump _ _ _ _ rfl).pinReact n).refreshPins
  revert he
  generalize ((((((a.setF F.EYE_SRC_STAT_COUNT 0 n).setF F.EYE_SRC_STAT_QUIET 1 n).bump F.EYE_STATUS_QUIET_NOW).pinReact n).refreshPins)) = e
  intro he
  have hf : EyeFrame s (if n / 16 < 64 ∧ n % 16 ≤ 3 then e.dropSweeps (fun x => x.wing == n / 16) false else e) :=
    .ite (he.dropSweeps _ _) he
  revert hf
  generalize (if n / 16 < 64 ∧ n % 16 ≤ 3 then e.dropSweeps (fun x => x.wing == n / 16) false else e) = f
  intro hf
  exact .ite (hf.parts _ _ _ _ rfl) (.ite (hf.parts _ _ _ _ rfl) hf)

theorem EyeFrame.occur (h : EyeFrame s t) (n : Nat) (c : Cap) (x : List Int) (r : Bool) : EyeFrame s (t.occur n c x r).1 := by
  unfold State.occur
  split
  · exact h
  dsimp only
  have hb : EyeFrame s ((t.bump F.EYE_SRC_STAT_TOTAL 1 n).setEyeSrc n { (t.bump F.EYE_SRC_STAT_TOTAL 1 n).eyeSrc n with cap := c }) :=
    (h.bump _ _ _ _ rfl).setEyeSrc _ _
  revert hb
  generalize ((t.bump F.EYE_SRC_STAT_TOTAL 1 n).setEyeSrc n { (t.bump F.EYE_SRC_STAT_TOTAL 1 n).eyeSrc n with cap := c }) = b
  intro hb
  have hd : EyeFrame s (if taints n = true then b.taint 6 else b) := .ite (hb.setF _ _ _ _ rfl) hb
  revert hd
  generalize (if taints n = true then b.taint 6 else b) = d
  intro hd
  split
  · exact hd
  have he : EyeFrame s (if d.f F.EYE_SRC_STAT_COUNT n = 0 then d.setEyeSrc n { d.eyeSrc n with winStart := d.hours } else d) :=
    .ite (hd.setEyeSrc _ _) hd
  revert he
  generalize (if d.f F.EYE_SRC_STAT_COUNT n = 0 then d.setEyeSrc n { d.eyeSrc n with winStart := d.hours } else d) = e
  intro he
  have hg : EyeFrame s ((e.bump F.EYE_SRC_STAT_COUNT 1 n).setF F.EYE_STATUS_LAST_SRC n) := (he.bump _ _ _ _ rfl).setF _ _ _ _ rfl
  revert hg
  generalize ((e.bump F.EYE_SRC_STAT_COUNT 1 n).setF F.EYE_STATUS_LAST_SRC n) = g
  intro hg
  have hz : EyeFrame s (if r = true then g.record n c x else (g, false)).1 := by
    split
    · exact hg.record _ _ _
    · exact hg
  revert hz
  generalize (if r = true then g.record n c x else (g, false)) = z
  intro hz
  obtain ⟨u, lost⟩ := z
  dsimp only at hz ⊢
  have h1 := hz.capture n c
  revert h1
  generalize u.capture n c = u1
  intro h1
  have h2 : EyeFrame s (if u1.f F.EYE_SRC_CFG_IRQ n = 1 then
      u1.setF F.EYE_GRP_PEND_PENDING (u1.f F.EYE_GRP_PEND_PENDING (n / 16) ||| 2 ^ (n % 16)) (n / 16) else u1) :=
    .ite (h1.setF _ _ _ _ rfl) h1
  revert h2
  generalize (if u1.f F.EYE_SRC_CFG_IRQ n = 1 then
      u1.setF F.EYE_GRP_PEND_PENDING (u1.f F.EYE_GRP_PEND_PENDING (n / 16) ||| 2 ^ (n % 16)) (n / 16) else u1) = u2
  intro h2
  exact .ite (h2.react n) h2

theorem EyeFrame.sweepTrigger (h : EyeFrame s t) (n : Nat) : EyeFrame s (t.sweepTrigger n) := by
  unfold State.sweepTrigger
  exact .ite ((h.setF F.EYE_SWEEP_BUSY 1 0 0 rfl).parts _ _ _ _ rfl) h

/-- Raising a source. -/
theorem EyeFrame.raiseX (h : EyeFrame s t) (n : Nat) (c : Cap) (x : List Int) : EyeFrame s (t.raiseX n c x) := by
  unfold State.raiseX
  have h1 := (h.occur n c x true)
  generalize t.occur n c x true = z at h1
  obtain ⟨u, lost⟩ := z
  exact .ite ((h1.sweepTrigger n).occur _ _ _ _) (h1.sweepTrigger n)

theorem EyeFrame.raise (h : EyeFrame s t) (n : Nat) (c : Cap) : EyeFrame s (t.raise n c) := h.raiseX n c []

theorem EyeFrame.raiseLevel (h : EyeFrame s t) (n : Nat) (c : Cap) : EyeFrame s (t.raiseLevel n c) :=
  .ite h ((h.setF _ _ _ _ rfl).raise n c)

theorem EyeFrame.lowerLevel (h : EyeFrame s t) (n : Nat) : EyeFrame s (t.lowerLevel n) := by
  unfold State.lowerLevel
  refine .ite h (.withPins ?_)
  have h1 : EyeFrame s (t.setF F.EYE_SRC_STAT_ASSERTED 0 n) := h.setF _ _ _ _ rfl
  exact .ite h1 (h1.setEyeSrc _ _)

/-- A field outside fault collection reads the same after a raise. -/
theorem EyeFrame.f_eq (h : EyeFrame s t) (x : Fld) (i j : Nat) (hx : eyeReg x.reg = false) : t.f x i j = s.f x i j := by
  unfold State.f
  rw [h.rd _ i j hx]

theorem EyeFrame.pending_eq (h : EyeFrame s t) : t.pending = s.pending := by
  have e := congrArg State.pending h.rest
  exact e
theorem EyeFrame.mem_eq (h : EyeFrame s t) : t.mem = s.mem := by
  have e := congrArg State.mem h.rest
  exact e
theorem EyeFrame.poison_eq (h : EyeFrame s t) : t.poison = s.poison := by
  have e := congrArg State.poison h.rest
  exact e
theorem EyeFrame.latent_eq (h : EyeFrame s t) : t.latent = s.latent := by
  have e := congrArg State.latent h.rest
  exact e
theorem EyeFrame.free_eq (h : EyeFrame s t) : t.free = s.free := by
  have e := congrArg State.free h.rest
  exact e
theorem EyeFrame.busReply_eq (h : EyeFrame s t) : t.busReply = s.busReply := by
  have e := congrArg State.busReply h.rest
  exact e
theorem EyeFrame.out_eq (h : EyeFrame s t) : t.out = s.out := by
  have e := congrArg State.out h.rest
  exact e
theorem EyeFrame.poweredH_eq (h : EyeFrame s t) : t.poweredH = s.poweredH := by
  have e := congrArg State.poweredH h.rest
  exact e
theorem EyeFrame.fuses_eq (h : EyeFrame s t) : t.fuses = s.fuses := by
  have e := congrArg State.fuses h.rest
  exact e
theorem EyeFrame.margin_eq (h : EyeFrame s t) : t.margin = s.margin := by
  have e := congrArg State.margin h.rest
  exact e
theorem EyeFrame.insts_eq (h : EyeFrame s t) : t.insts = s.insts := by
  have e := congrArg State.insts h.rest
  exact e
theorem EyeFrame.nextInst_eq (h : EyeFrame s t) : t.nextInst = s.nextInst := by
  have e := congrArg State.nextInst h.rest
  exact e
theorem EyeFrame.engFused_eq (h : EyeFrame s t) : t.engFused = s.engFused := by
  have e := congrArg State.engFused h.rest
  exact e
theorem EyeFrame.qe_eq (h : EyeFrame s t) : t.qe = s.qe := by
  have e := congrArg State.qe h.rest
  exact e
theorem EyeFrame.ms_eq (h : EyeFrame s t) : t.ms = s.ms := by
  have e := congrArg State.ms h.rest
  exact e
theorem EyeFrame.plic_eq (h : EyeFrame s t) : t.plic = s.plic := by
  have e := congrArg State.plic h.rest
  exact e
theorem EyeFrame.injLeft_eq (h : EyeFrame s t) : t.injLeft = s.injLeft := by
  have e := congrArg State.injLeft h.rest
  exact e
theorem EyeFrame.d2d_eq (h : EyeFrame s t) : t.d2d = s.d2d := by
  have e := congrArg State.d2d h.rest
  exact e
theorem EyeFrame.le_eq (h : EyeFrame s t) : t.le = s.le := by
  have e := congrArg State.le h.rest
  exact e
theorem EyeFrame.fab_eq (h : EyeFrame s t) : t.fab = s.fab := by
  have e := congrArg State.fab h.rest
  exact e
theorem EyeFrame.tray_eq (h : EyeFrame s t) : t.tray = s.tray := by
  have e := congrArg State.tray h.rest
  exact e
theorem EyeFrame.res_eq (h : EyeFrame s t) : t.res = s.res := by
  have e := congrArg State.res h.rest
  exact e
theorem EyeFrame.coll_eq (h : EyeFrame s t) : t.coll = s.coll := by
  have e := congrArg State.coll h.rest
  exact e
theorem EyeFrame.resv_eq (h : EyeFrame s t) : t.resv = s.resv := by
  have e := congrArg State.resv h.rest
  exact e
theorem EyeFrame.pw_eq (h : EyeFrame s t) : t.pw = s.pw := by
  have e := congrArg State.pw h.rest
  exact e
theorem EyeFrame.boot_eq (h : EyeFrame s t) : t.boot = s.boot := by
  have e := congrArg State.boot h.rest
  exact e
theorem EyeFrame.sec_eq (h : EyeFrame s t) : t.sec = s.sec := by
  have e := congrArg State.sec h.rest
  exact e
theorem EyeFrame.mgt_eq (h : EyeFrame s t) : t.mgt = s.mgt := by
  have e := congrArg State.mgt h.rest
  exact e

/-! ### Fields and parts after raising, asserting and lowering a source -/

theorem State.f_raise (s : State) (n : Nat) (c : Cap) (x : Fld) (i j : Nat) (hx : eyeReg x.reg = false) :
    (s.raise n c).f x i j = s.f x i j := ((EyeFrame.refl s).raise n c).f_eq x i j hx

theorem State.f_raiseX (s : State) (n : Nat) (c : Cap) (l : List Int) (x : Fld) (i j : Nat) (hx : eyeReg x.reg = false) :
    (s.raiseX n c l).f x i j = s.f x i j := ((EyeFrame.refl s).raiseX n c l).f_eq x i j hx

theorem State.f_raiseLevel (s : State) (n : Nat) (c : Cap) (x : Fld) (i j : Nat) (hx : eyeReg x.reg = false) :
    (s.raiseLevel n c).f x i j = s.f x i j := ((EyeFrame.refl s).raiseLevel n c).f_eq x i j hx

theorem State.f_lowerLevel (s : State) (n : Nat) (x : Fld) (i j : Nat) (hx : eyeReg x.reg = false) :
    (s.lowerLevel n).f x i j = s.f x i j := ((EyeFrame.refl s).lowerLevel n).f_eq x i j hx

theorem State.f_refreshPins (s : State) (x : Fld) (i j : Nat) (hx : x.reg ≠ .EYE_PIN) : s.refreshPins.f x i j = s.f x i j :=
  State.f_setF_reg _ _ _ _ _ _ _ _ (Ne.symm hx) (by decide)

@[simp] theorem State.raiseX_pending (s : State) (n : Nat) (c : Cap) (l : List Int) : (s.raiseX n c l).pending = s.pending :=
  ((EyeFrame.refl s).raiseX n c l).pending_eq
@[simp] theorem State.raise_pending (s : State) (n : Nat) (c : Cap) : (s.raise n c).pending = s.pending :=
  ((EyeFrame.refl s).raise n c).pending_eq
@[simp] theorem State.raiseLevel_pending (s : State) (n : Nat) (c : Cap) : (s.raiseLevel n c).pending = s.pending :=
  ((EyeFrame.refl s).raiseLevel n c).pending_eq
@[simp] theorem State.lowerLevel_pending (s : State) (n : Nat) : (s.lowerLevel n).pending = s.pending :=
  ((EyeFrame.refl s).lowerLevel n).pending_eq
@[simp] theorem State.refreshPins_pending (s : State) : s.refreshPins.pending = s.pending := rfl

@[simp] theorem State.raiseX_mem (s : State) (n : Nat) (c : Cap) (l : List Int) : (s.raiseX n c l).mem = s.mem :=
  ((EyeFrame.refl s).raiseX n c l).mem_eq
@[simp] theorem State.raise_mem (s : State) (n : Nat) (c : Cap) : (s.raise n c).mem = s.mem :=
  ((EyeFrame.refl s).raise n c).mem_eq
@[simp] theorem State.raiseLevel_mem (s : State) (n : Nat) (c : Cap) : (s.raiseLevel n c).mem = s.mem :=
  ((EyeFrame.refl s).raiseLevel n c).mem_eq
@[simp] theorem State.lowerLevel_mem (s : State) (n : Nat) : (s.lowerLevel n).mem = s.mem :=
  ((EyeFrame.refl s).lowerLevel n).mem_eq
@[simp] theorem State.refreshPins_mem (s : State) : s.refreshPins.mem = s.mem := rfl

@[simp] theorem State.raiseX_poison (s : State) (n : Nat) (c : Cap) (l : List Int) : (s.raiseX n c l).poison = s.poison :=
  ((EyeFrame.refl s).raiseX n c l).poison_eq
@[simp] theorem State.raise_poison (s : State) (n : Nat) (c : Cap) : (s.raise n c).poison = s.poison :=
  ((EyeFrame.refl s).raise n c).poison_eq
@[simp] theorem State.raiseLevel_poison (s : State) (n : Nat) (c : Cap) : (s.raiseLevel n c).poison = s.poison :=
  ((EyeFrame.refl s).raiseLevel n c).poison_eq
@[simp] theorem State.lowerLevel_poison (s : State) (n : Nat) : (s.lowerLevel n).poison = s.poison :=
  ((EyeFrame.refl s).lowerLevel n).poison_eq
@[simp] theorem State.refreshPins_poison (s : State) : s.refreshPins.poison = s.poison := rfl

@[simp] theorem State.raiseX_latent (s : State) (n : Nat) (c : Cap) (l : List Int) : (s.raiseX n c l).latent = s.latent :=
  ((EyeFrame.refl s).raiseX n c l).latent_eq
@[simp] theorem State.raise_latent (s : State) (n : Nat) (c : Cap) : (s.raise n c).latent = s.latent :=
  ((EyeFrame.refl s).raise n c).latent_eq
@[simp] theorem State.raiseLevel_latent (s : State) (n : Nat) (c : Cap) : (s.raiseLevel n c).latent = s.latent :=
  ((EyeFrame.refl s).raiseLevel n c).latent_eq
@[simp] theorem State.lowerLevel_latent (s : State) (n : Nat) : (s.lowerLevel n).latent = s.latent :=
  ((EyeFrame.refl s).lowerLevel n).latent_eq
@[simp] theorem State.refreshPins_latent (s : State) : s.refreshPins.latent = s.latent := rfl

@[simp] theorem State.raiseX_free (s : State) (n : Nat) (c : Cap) (l : List Int) : (s.raiseX n c l).free = s.free :=
  ((EyeFrame.refl s).raiseX n c l).free_eq
@[simp] theorem State.raise_free (s : State) (n : Nat) (c : Cap) : (s.raise n c).free = s.free :=
  ((EyeFrame.refl s).raise n c).free_eq
@[simp] theorem State.raiseLevel_free (s : State) (n : Nat) (c : Cap) : (s.raiseLevel n c).free = s.free :=
  ((EyeFrame.refl s).raiseLevel n c).free_eq
@[simp] theorem State.lowerLevel_free (s : State) (n : Nat) : (s.lowerLevel n).free = s.free :=
  ((EyeFrame.refl s).lowerLevel n).free_eq
@[simp] theorem State.refreshPins_free (s : State) : s.refreshPins.free = s.free := rfl

@[simp] theorem State.raiseX_busReply (s : State) (n : Nat) (c : Cap) (l : List Int) : (s.raiseX n c l).busReply = s.busReply :=
  ((EyeFrame.refl s).raiseX n c l).busReply_eq
@[simp] theorem State.raise_busReply (s : State) (n : Nat) (c : Cap) : (s.raise n c).busReply = s.busReply :=
  ((EyeFrame.refl s).raise n c).busReply_eq
@[simp] theorem State.raiseLevel_busReply (s : State) (n : Nat) (c : Cap) : (s.raiseLevel n c).busReply = s.busReply :=
  ((EyeFrame.refl s).raiseLevel n c).busReply_eq
@[simp] theorem State.lowerLevel_busReply (s : State) (n : Nat) : (s.lowerLevel n).busReply = s.busReply :=
  ((EyeFrame.refl s).lowerLevel n).busReply_eq
@[simp] theorem State.refreshPins_busReply (s : State) : s.refreshPins.busReply = s.busReply := rfl

@[simp] theorem State.raiseX_out (s : State) (n : Nat) (c : Cap) (l : List Int) : (s.raiseX n c l).out = s.out :=
  ((EyeFrame.refl s).raiseX n c l).out_eq
@[simp] theorem State.raise_out (s : State) (n : Nat) (c : Cap) : (s.raise n c).out = s.out :=
  ((EyeFrame.refl s).raise n c).out_eq
@[simp] theorem State.raiseLevel_out (s : State) (n : Nat) (c : Cap) : (s.raiseLevel n c).out = s.out :=
  ((EyeFrame.refl s).raiseLevel n c).out_eq
@[simp] theorem State.lowerLevel_out (s : State) (n : Nat) : (s.lowerLevel n).out = s.out :=
  ((EyeFrame.refl s).lowerLevel n).out_eq
@[simp] theorem State.refreshPins_out (s : State) : s.refreshPins.out = s.out := rfl

@[simp] theorem State.raiseX_poweredH (s : State) (n : Nat) (c : Cap) (l : List Int) : (s.raiseX n c l).poweredH = s.poweredH :=
  ((EyeFrame.refl s).raiseX n c l).poweredH_eq
@[simp] theorem State.raise_poweredH (s : State) (n : Nat) (c : Cap) : (s.raise n c).poweredH = s.poweredH :=
  ((EyeFrame.refl s).raise n c).poweredH_eq
@[simp] theorem State.raiseLevel_poweredH (s : State) (n : Nat) (c : Cap) : (s.raiseLevel n c).poweredH = s.poweredH :=
  ((EyeFrame.refl s).raiseLevel n c).poweredH_eq
@[simp] theorem State.lowerLevel_poweredH (s : State) (n : Nat) : (s.lowerLevel n).poweredH = s.poweredH :=
  ((EyeFrame.refl s).lowerLevel n).poweredH_eq
@[simp] theorem State.refreshPins_poweredH (s : State) : s.refreshPins.poweredH = s.poweredH := rfl

@[simp] theorem State.raiseX_fuses (s : State) (n : Nat) (c : Cap) (l : List Int) : (s.raiseX n c l).fuses = s.fuses :=
  ((EyeFrame.refl s).raiseX n c l).fuses_eq
@[simp] theorem State.raise_fuses (s : State) (n : Nat) (c : Cap) : (s.raise n c).fuses = s.fuses :=
  ((EyeFrame.refl s).raise n c).fuses_eq
@[simp] theorem State.raiseLevel_fuses (s : State) (n : Nat) (c : Cap) : (s.raiseLevel n c).fuses = s.fuses :=
  ((EyeFrame.refl s).raiseLevel n c).fuses_eq
@[simp] theorem State.lowerLevel_fuses (s : State) (n : Nat) : (s.lowerLevel n).fuses = s.fuses :=
  ((EyeFrame.refl s).lowerLevel n).fuses_eq
@[simp] theorem State.refreshPins_fuses (s : State) : s.refreshPins.fuses = s.fuses := rfl

@[simp] theorem State.raiseX_margin (s : State) (n : Nat) (c : Cap) (l : List Int) : (s.raiseX n c l).margin = s.margin :=
  ((EyeFrame.refl s).raiseX n c l).margin_eq
@[simp] theorem State.raise_margin (s : State) (n : Nat) (c : Cap) : (s.raise n c).margin = s.margin :=
  ((EyeFrame.refl s).raise n c).margin_eq
@[simp] theorem State.raiseLevel_margin (s : State) (n : Nat) (c : Cap) : (s.raiseLevel n c).margin = s.margin :=
  ((EyeFrame.refl s).raiseLevel n c).margin_eq
@[simp] theorem State.lowerLevel_margin (s : State) (n : Nat) : (s.lowerLevel n).margin = s.margin :=
  ((EyeFrame.refl s).lowerLevel n).margin_eq
@[simp] theorem State.refreshPins_margin (s : State) : s.refreshPins.margin = s.margin := rfl

@[simp] theorem State.raiseX_insts (s : State) (n : Nat) (c : Cap) (l : List Int) : (s.raiseX n c l).insts = s.insts :=
  ((EyeFrame.refl s).raiseX n c l).insts_eq
@[simp] theorem State.raise_insts (s : State) (n : Nat) (c : Cap) : (s.raise n c).insts = s.insts :=
  ((EyeFrame.refl s).raise n c).insts_eq
@[simp] theorem State.raiseLevel_insts (s : State) (n : Nat) (c : Cap) : (s.raiseLevel n c).insts = s.insts :=
  ((EyeFrame.refl s).raiseLevel n c).insts_eq
@[simp] theorem State.lowerLevel_insts (s : State) (n : Nat) : (s.lowerLevel n).insts = s.insts :=
  ((EyeFrame.refl s).lowerLevel n).insts_eq
@[simp] theorem State.refreshPins_insts (s : State) : s.refreshPins.insts = s.insts := rfl

@[simp] theorem State.raiseX_nextInst (s : State) (n : Nat) (c : Cap) (l : List Int) : (s.raiseX n c l).nextInst = s.nextInst :=
  ((EyeFrame.refl s).raiseX n c l).nextInst_eq
@[simp] theorem State.raise_nextInst (s : State) (n : Nat) (c : Cap) : (s.raise n c).nextInst = s.nextInst :=
  ((EyeFrame.refl s).raise n c).nextInst_eq
@[simp] theorem State.raiseLevel_nextInst (s : State) (n : Nat) (c : Cap) : (s.raiseLevel n c).nextInst = s.nextInst :=
  ((EyeFrame.refl s).raiseLevel n c).nextInst_eq
@[simp] theorem State.lowerLevel_nextInst (s : State) (n : Nat) : (s.lowerLevel n).nextInst = s.nextInst :=
  ((EyeFrame.refl s).lowerLevel n).nextInst_eq
@[simp] theorem State.refreshPins_nextInst (s : State) : s.refreshPins.nextInst = s.nextInst := rfl

@[simp] theorem State.raiseX_engFused (s : State) (n : Nat) (c : Cap) (l : List Int) : (s.raiseX n c l).engFused = s.engFused :=
  ((EyeFrame.refl s).raiseX n c l).engFused_eq
@[simp] theorem State.raise_engFused (s : State) (n : Nat) (c : Cap) : (s.raise n c).engFused = s.engFused :=
  ((EyeFrame.refl s).raise n c).engFused_eq
@[simp] theorem State.raiseLevel_engFused (s : State) (n : Nat) (c : Cap) : (s.raiseLevel n c).engFused = s.engFused :=
  ((EyeFrame.refl s).raiseLevel n c).engFused_eq
@[simp] theorem State.lowerLevel_engFused (s : State) (n : Nat) : (s.lowerLevel n).engFused = s.engFused :=
  ((EyeFrame.refl s).lowerLevel n).engFused_eq
@[simp] theorem State.refreshPins_engFused (s : State) : s.refreshPins.engFused = s.engFused := rfl

@[simp] theorem State.raiseX_qe (s : State) (n : Nat) (c : Cap) (l : List Int) : (s.raiseX n c l).qe = s.qe :=
  ((EyeFrame.refl s).raiseX n c l).qe_eq
@[simp] theorem State.raise_qe (s : State) (n : Nat) (c : Cap) : (s.raise n c).qe = s.qe :=
  ((EyeFrame.refl s).raise n c).qe_eq
@[simp] theorem State.raiseLevel_qe (s : State) (n : Nat) (c : Cap) : (s.raiseLevel n c).qe = s.qe :=
  ((EyeFrame.refl s).raiseLevel n c).qe_eq
@[simp] theorem State.lowerLevel_qe (s : State) (n : Nat) : (s.lowerLevel n).qe = s.qe :=
  ((EyeFrame.refl s).lowerLevel n).qe_eq
@[simp] theorem State.refreshPins_qe (s : State) : s.refreshPins.qe = s.qe := rfl

@[simp] theorem State.raiseX_ms (s : State) (n : Nat) (c : Cap) (l : List Int) : (s.raiseX n c l).ms = s.ms :=
  ((EyeFrame.refl s).raiseX n c l).ms_eq
@[simp] theorem State.raise_ms (s : State) (n : Nat) (c : Cap) : (s.raise n c).ms = s.ms :=
  ((EyeFrame.refl s).raise n c).ms_eq
@[simp] theorem State.raiseLevel_ms (s : State) (n : Nat) (c : Cap) : (s.raiseLevel n c).ms = s.ms :=
  ((EyeFrame.refl s).raiseLevel n c).ms_eq
@[simp] theorem State.lowerLevel_ms (s : State) (n : Nat) : (s.lowerLevel n).ms = s.ms :=
  ((EyeFrame.refl s).lowerLevel n).ms_eq
@[simp] theorem State.refreshPins_ms (s : State) : s.refreshPins.ms = s.ms := rfl

@[simp] theorem State.raiseX_plic (s : State) (n : Nat) (c : Cap) (l : List Int) : (s.raiseX n c l).plic = s.plic :=
  ((EyeFrame.refl s).raiseX n c l).plic_eq
@[simp] theorem State.raise_plic (s : State) (n : Nat) (c : Cap) : (s.raise n c).plic = s.plic :=
  ((EyeFrame.refl s).raise n c).plic_eq
@[simp] theorem State.raiseLevel_plic (s : State) (n : Nat) (c : Cap) : (s.raiseLevel n c).plic = s.plic :=
  ((EyeFrame.refl s).raiseLevel n c).plic_eq
@[simp] theorem State.lowerLevel_plic (s : State) (n : Nat) : (s.lowerLevel n).plic = s.plic :=
  ((EyeFrame.refl s).lowerLevel n).plic_eq
@[simp] theorem State.refreshPins_plic (s : State) : s.refreshPins.plic = s.plic := rfl

@[simp] theorem State.raiseX_injLeft (s : State) (n : Nat) (c : Cap) (l : List Int) : (s.raiseX n c l).injLeft = s.injLeft :=
  ((EyeFrame.refl s).raiseX n c l).injLeft_eq
@[simp] theorem State.raise_injLeft (s : State) (n : Nat) (c : Cap) : (s.raise n c).injLeft = s.injLeft :=
  ((EyeFrame.refl s).raise n c).injLeft_eq
@[simp] theorem State.raiseLevel_injLeft (s : State) (n : Nat) (c : Cap) : (s.raiseLevel n c).injLeft = s.injLeft :=
  ((EyeFrame.refl s).raiseLevel n c).injLeft_eq
@[simp] theorem State.lowerLevel_injLeft (s : State) (n : Nat) : (s.lowerLevel n).injLeft = s.injLeft :=
  ((EyeFrame.refl s).lowerLevel n).injLeft_eq
@[simp] theorem State.refreshPins_injLeft (s : State) : s.refreshPins.injLeft = s.injLeft := rfl

@[simp] theorem State.raiseX_d2d (s : State) (n : Nat) (c : Cap) (l : List Int) : (s.raiseX n c l).d2d = s.d2d :=
  ((EyeFrame.refl s).raiseX n c l).d2d_eq
@[simp] theorem State.raise_d2d (s : State) (n : Nat) (c : Cap) : (s.raise n c).d2d = s.d2d :=
  ((EyeFrame.refl s).raise n c).d2d_eq
@[simp] theorem State.raiseLevel_d2d (s : State) (n : Nat) (c : Cap) : (s.raiseLevel n c).d2d = s.d2d :=
  ((EyeFrame.refl s).raiseLevel n c).d2d_eq
@[simp] theorem State.lowerLevel_d2d (s : State) (n : Nat) : (s.lowerLevel n).d2d = s.d2d :=
  ((EyeFrame.refl s).lowerLevel n).d2d_eq
@[simp] theorem State.refreshPins_d2d (s : State) : s.refreshPins.d2d = s.d2d := rfl

@[simp] theorem State.raiseX_le (s : State) (n : Nat) (c : Cap) (l : List Int) : (s.raiseX n c l).le = s.le :=
  ((EyeFrame.refl s).raiseX n c l).le_eq
@[simp] theorem State.raise_le (s : State) (n : Nat) (c : Cap) : (s.raise n c).le = s.le :=
  ((EyeFrame.refl s).raise n c).le_eq
@[simp] theorem State.raiseLevel_le (s : State) (n : Nat) (c : Cap) : (s.raiseLevel n c).le = s.le :=
  ((EyeFrame.refl s).raiseLevel n c).le_eq
@[simp] theorem State.lowerLevel_le (s : State) (n : Nat) : (s.lowerLevel n).le = s.le :=
  ((EyeFrame.refl s).lowerLevel n).le_eq
@[simp] theorem State.refreshPins_le (s : State) : s.refreshPins.le = s.le := rfl

@[simp] theorem State.raiseX_fab (s : State) (n : Nat) (c : Cap) (l : List Int) : (s.raiseX n c l).fab = s.fab :=
  ((EyeFrame.refl s).raiseX n c l).fab_eq
@[simp] theorem State.raise_fab (s : State) (n : Nat) (c : Cap) : (s.raise n c).fab = s.fab :=
  ((EyeFrame.refl s).raise n c).fab_eq
@[simp] theorem State.raiseLevel_fab (s : State) (n : Nat) (c : Cap) : (s.raiseLevel n c).fab = s.fab :=
  ((EyeFrame.refl s).raiseLevel n c).fab_eq
@[simp] theorem State.lowerLevel_fab (s : State) (n : Nat) : (s.lowerLevel n).fab = s.fab :=
  ((EyeFrame.refl s).lowerLevel n).fab_eq
@[simp] theorem State.refreshPins_fab (s : State) : s.refreshPins.fab = s.fab := rfl

@[simp] theorem State.raiseX_tray (s : State) (n : Nat) (c : Cap) (l : List Int) : (s.raiseX n c l).tray = s.tray :=
  ((EyeFrame.refl s).raiseX n c l).tray_eq
@[simp] theorem State.raise_tray (s : State) (n : Nat) (c : Cap) : (s.raise n c).tray = s.tray :=
  ((EyeFrame.refl s).raise n c).tray_eq
@[simp] theorem State.raiseLevel_tray (s : State) (n : Nat) (c : Cap) : (s.raiseLevel n c).tray = s.tray :=
  ((EyeFrame.refl s).raiseLevel n c).tray_eq
@[simp] theorem State.lowerLevel_tray (s : State) (n : Nat) : (s.lowerLevel n).tray = s.tray :=
  ((EyeFrame.refl s).lowerLevel n).tray_eq
@[simp] theorem State.refreshPins_tray (s : State) : s.refreshPins.tray = s.tray := rfl

@[simp] theorem State.raiseX_res (s : State) (n : Nat) (c : Cap) (l : List Int) : (s.raiseX n c l).res = s.res :=
  ((EyeFrame.refl s).raiseX n c l).res_eq
@[simp] theorem State.raise_res (s : State) (n : Nat) (c : Cap) : (s.raise n c).res = s.res :=
  ((EyeFrame.refl s).raise n c).res_eq
@[simp] theorem State.raiseLevel_res (s : State) (n : Nat) (c : Cap) : (s.raiseLevel n c).res = s.res :=
  ((EyeFrame.refl s).raiseLevel n c).res_eq
@[simp] theorem State.lowerLevel_res (s : State) (n : Nat) : (s.lowerLevel n).res = s.res :=
  ((EyeFrame.refl s).lowerLevel n).res_eq
@[simp] theorem State.refreshPins_res (s : State) : s.refreshPins.res = s.res := rfl

@[simp] theorem State.raiseX_coll (s : State) (n : Nat) (c : Cap) (l : List Int) : (s.raiseX n c l).coll = s.coll :=
  ((EyeFrame.refl s).raiseX n c l).coll_eq
@[simp] theorem State.raise_coll (s : State) (n : Nat) (c : Cap) : (s.raise n c).coll = s.coll :=
  ((EyeFrame.refl s).raise n c).coll_eq
@[simp] theorem State.raiseLevel_coll (s : State) (n : Nat) (c : Cap) : (s.raiseLevel n c).coll = s.coll :=
  ((EyeFrame.refl s).raiseLevel n c).coll_eq
@[simp] theorem State.lowerLevel_coll (s : State) (n : Nat) : (s.lowerLevel n).coll = s.coll :=
  ((EyeFrame.refl s).lowerLevel n).coll_eq
@[simp] theorem State.refreshPins_coll (s : State) : s.refreshPins.coll = s.coll := rfl

@[simp] theorem State.raiseX_resv (s : State) (n : Nat) (c : Cap) (l : List Int) : (s.raiseX n c l).resv = s.resv :=
  ((EyeFrame.refl s).raiseX n c l).resv_eq
@[simp] theorem State.raise_resv (s : State) (n : Nat) (c : Cap) : (s.raise n c).resv = s.resv :=
  ((EyeFrame.refl s).raise n c).resv_eq
@[simp] theorem State.raiseLevel_resv (s : State) (n : Nat) (c : Cap) : (s.raiseLevel n c).resv = s.resv :=
  ((EyeFrame.refl s).raiseLevel n c).resv_eq
@[simp] theorem State.lowerLevel_resv (s : State) (n : Nat) : (s.lowerLevel n).resv = s.resv :=
  ((EyeFrame.refl s).lowerLevel n).resv_eq
@[simp] theorem State.refreshPins_resv (s : State) : s.refreshPins.resv = s.resv := rfl

@[simp] theorem State.raiseX_pw (s : State) (n : Nat) (c : Cap) (l : List Int) : (s.raiseX n c l).pw = s.pw :=
  ((EyeFrame.refl s).raiseX n c l).pw_eq
@[simp] theorem State.raise_pw (s : State) (n : Nat) (c : Cap) : (s.raise n c).pw = s.pw :=
  ((EyeFrame.refl s).raise n c).pw_eq
@[simp] theorem State.raiseLevel_pw (s : State) (n : Nat) (c : Cap) : (s.raiseLevel n c).pw = s.pw :=
  ((EyeFrame.refl s).raiseLevel n c).pw_eq
@[simp] theorem State.lowerLevel_pw (s : State) (n : Nat) : (s.lowerLevel n).pw = s.pw :=
  ((EyeFrame.refl s).lowerLevel n).pw_eq
@[simp] theorem State.refreshPins_pw (s : State) : s.refreshPins.pw = s.pw := rfl

@[simp] theorem State.raiseX_boot (s : State) (n : Nat) (c : Cap) (l : List Int) : (s.raiseX n c l).boot = s.boot :=
  ((EyeFrame.refl s).raiseX n c l).boot_eq
@[simp] theorem State.raise_boot (s : State) (n : Nat) (c : Cap) : (s.raise n c).boot = s.boot :=
  ((EyeFrame.refl s).raise n c).boot_eq
@[simp] theorem State.raiseLevel_boot (s : State) (n : Nat) (c : Cap) : (s.raiseLevel n c).boot = s.boot :=
  ((EyeFrame.refl s).raiseLevel n c).boot_eq
@[simp] theorem State.lowerLevel_boot (s : State) (n : Nat) : (s.lowerLevel n).boot = s.boot :=
  ((EyeFrame.refl s).lowerLevel n).boot_eq
@[simp] theorem State.refreshPins_boot (s : State) : s.refreshPins.boot = s.boot := rfl

@[simp] theorem State.raiseX_sec (s : State) (n : Nat) (c : Cap) (l : List Int) : (s.raiseX n c l).sec = s.sec :=
  ((EyeFrame.refl s).raiseX n c l).sec_eq
@[simp] theorem State.raise_sec (s : State) (n : Nat) (c : Cap) : (s.raise n c).sec = s.sec :=
  ((EyeFrame.refl s).raise n c).sec_eq
@[simp] theorem State.raiseLevel_sec (s : State) (n : Nat) (c : Cap) : (s.raiseLevel n c).sec = s.sec :=
  ((EyeFrame.refl s).raiseLevel n c).sec_eq
@[simp] theorem State.lowerLevel_sec (s : State) (n : Nat) : (s.lowerLevel n).sec = s.sec :=
  ((EyeFrame.refl s).lowerLevel n).sec_eq
@[simp] theorem State.refreshPins_sec (s : State) : s.refreshPins.sec = s.sec := rfl

@[simp] theorem State.raiseX_mgt (s : State) (n : Nat) (c : Cap) (l : List Int) : (s.raiseX n c l).mgt = s.mgt :=
  ((EyeFrame.refl s).raiseX n c l).mgt_eq
@[simp] theorem State.raise_mgt (s : State) (n : Nat) (c : Cap) : (s.raise n c).mgt = s.mgt :=
  ((EyeFrame.refl s).raise n c).mgt_eq
@[simp] theorem State.raiseLevel_mgt (s : State) (n : Nat) (c : Cap) : (s.raiseLevel n c).mgt = s.mgt :=
  ((EyeFrame.refl s).raiseLevel n c).mgt_eq
@[simp] theorem State.lowerLevel_mgt (s : State) (n : Nat) : (s.lowerLevel n).mgt = s.mgt :=
  ((EyeFrame.refl s).lowerLevel n).mgt_eq
@[simp] theorem State.refreshPins_mgt (s : State) : s.refreshPins.mgt = s.mgt := rfl

end Sys2Proof.Machine
end

