-- ==== Sys2Proof/Laws/Reads.lean ====
section
/-! SUPPORT. What a read of memory can change (R147, R230 to R241): the lines and words of the ladle, the errors and poison found,
their counts and captures, and what raising a source changes; nothing else. A write changes memory and reservations besides. -/

namespace Sys2Proof.Machine

/-- The registers that a read, with what it finds, may write. -/
def readWrites (n : RegName) : Bool :=
  eyeReg n || match n with
  | .FLK_LDL_STAT | .FLK_LDL_CNT | .FLK_MEM_STACK_ECC | .WNG_TS_ECC | .WNG_TS_POISON | .EYE_INJ_CTRL => true
  | _ => false

/-- The state after it differs from the state before it only where a read may write. -/
structure ReadFrame (s t : State) : Prop where
  rd : ∀ n i j, readWrites n = false → t.rd n i j = s.rd n i j
  rest : { t with regs := s.regs, eye := s.eye, wings := s.wings, pins := s.pins, nmi := s.nmi, ms := s.ms, latent := s.latent,
                  poison := s.poison } = s
  straps : t.pins.straps = s.pins.straps

theorem ReadFrame.refl (s : State) : ReadFrame s s := ⟨fun _ _ _ _ => rfl, rfl, rfl⟩

theorem ReadFrame.trans {s t u : State} (h : ReadFrame s t) (k : ReadFrame t u) : ReadFrame s u := by
  refine ⟨fun n i j hn => (k.rd n i j hn).trans (h.rd n i j hn), ?_, k.straps.trans h.straps⟩
  have e := h.rest
  rw [← k.rest] at e
  exact e

theorem EyeFrame.read {s t : State} (h : EyeFrame s t) : ReadFrame s t := by
  refine ⟨fun n i j hn => h.rd n i j ?_, ?_, h.straps⟩
  · simp only [readWrites, Bool.or_eq_false_iff] at hn
    exact hn.1
  · have e := congrArg (fun u : State => { u with ms := s.ms, latent := s.latent, poison := s.poison }) h.rest
    exact e

theorem ReadFrame.setF {s t : State} (h : ReadFrame s t) (x : Fld) (v i j : Nat) (hx : readWrites x.reg = true) :
    ReadFrame s (t.setF x v i j) := by
  refine ⟨fun n a b hn => ?_, h.rest, h.straps⟩
  have hne : x.reg ≠ n := fun e => by rw [e, hn] at hx; cases hx
  have hb : x.reg ≠ .CRU_BOOT := fun e => by rw [e] at hx; cases hx
  unfold State.setF
  rw [State.rd_wr_reg _ _ _ _ _ _ hne hb]
  exact h.rd n a b hn

theorem ReadFrame.bump {s t : State} (h : ReadFrame s t) (x : Fld) (k i j : Nat) (hx : readWrites x.reg = true) :
    ReadFrame s (t.bump x k i j) := h.setF x _ i j hx

/-- Changing the parts that a read may change outside the registers. -/
theorem ReadFrame.parts {s t : State} (h : ReadFrame s t) (m : MemSt) (l : List (Nat × Nat)) (p : List Nat) :
    ReadFrame s { t with ms := m, latent := l, poison := p } :=
  ⟨fun n i j hn => h.rd n i j hn, h.rest, h.straps⟩

theorem ReadFrame.raise {s t : State} (h : ReadFrame s t) (n : Nat) (c : Cap) : ReadFrame s (t.raise n c) :=
  h.trans ((EyeFrame.refl t).raise n c).read

theorem ReadFrame.ite {s t u : State} {c : Prop} [Decidable c] (h : ReadFrame s t) (k : ReadFrame s u) :
    ReadFrame s (if c then t else u) := by split <;> assumption

theorem ReadFrame.foldS {α : Type} {s t : State} {f : α → State → State} (xs : List α) (h : ReadFrame s t)
    (hf : ∀ x t, ReadFrame s t → ReadFrame s (f x t)) : ReadFrame s (foldS xs f t) := by
  unfold Machine.foldS
  induction xs generalizing t with
  | nil => exact h
  | cons x r ih => exact ih (hf x t h)

variable {s t : State}

theorem ReadFrame.poisonAt (h : ReadFrame s t) (a : Nat) : ReadFrame s (t.poisonAt a) := .ite h (h.parts t.ms t.latent _)

theorem ReadFrame.tileUncorr (h : ReadFrame s t) (w a m at_ : Nat) : ReadFrame s (t.tileUncorr w a m at_) := by
  unfold State.tileUncorr
  refine .raise (.ite (.setF (.setF ?_ _ _ _ _ rfl) _ _ _ _ rfl) ?_) _ _ <;> exact (h.poisonAt a).bump _ _ _ _ rfl

theorem ReadFrame.stackUncorr (h : ReadFrame s t) (k a m at_ : Nat) : ReadFrame s (t.stackUncorr k a m at_) :=
  ((h.poisonAt a).bump _ _ _ _ rfl).raise _ _

theorem ReadFrame.unitRead (h : ReadFrame s t) (k a e m at_ : Nat) : ReadFrame s (t.unitRead k a e m at_) :=
  .ite h (.ite (h.bump _ _ _ _ rfl) (h.stackUncorr _ _ _ _))

theorem ReadFrame.lineRead (h : ReadFrame s t) (w a : Nat) (e : List Nat) (m at_ : Nat) : ReadFrame s (t.lineRead w a e m at_) := by
  unfold State.lineRead
  refine .ite (.tileUncorr (.ite h ?_) _ _ _ _) (.ite h ?_) <;> exact h.bump _ _ _ _ rfl

theorem ReadFrame.latentCheck (h : ReadFrame s t) (x m at_ : Nat) : ReadFrame s (t.latentCheck x m at_) := by
  unfold State.latentCheck
  dsimp only
  have k : ReadFrame s { t with latent := t.latent.filter fun p => p.1 != x } := h.parts t.ms _ t.poison
  split
  · exact k.lineRead _ _ _ _ _
  · exact k.unitRead _ _ _ _ _

theorem ReadFrame.setLadle (h : ReadFrame s t) (l : List LdlLine) : ReadFrame s (t.setLadle l) := h.parts _ t.latent t.poison

theorem ReadFrame.ladleStat (h : ReadFrame s t) (f : Nat) : ReadFrame s (t.ladleStat f) := (h.setF _ _ _ _ rfl).setF _ _ _ _ rfl

theorem ReadFrame.dropSector (h : ReadFrame s t) (x : Nat) : ReadFrame s (t.dropSector x) := (h.setLadle _).ladleStat _

theorem ReadFrame.wordCheck (h : ReadFrame s t) (a b m at_ : Nat) : ReadFrame s (t.wordCheck a b m at_) :=
  .ite h (.ite (h.stackUncorr _ _ _ _) ((h.bump _ _ _ _ rfl).dropSector _))

theorem ReadFrame.checkWords (h : ReadFrame s t) (a n m at_ : Nat) : ReadFrame s (t.checkWords a n m at_) :=
  .foldS _ (h.parts _ t.latent t.poison) fun _ _ k => k.wordCheck _ _ _ _

theorem ReadFrame.injFire (h : ReadFrame s t) : ReadFrame s t.injFire := ((h.setF _ _ _ _ rfl).setF _ _ _ _ rfl).raise _ _

theorem ReadFrame.injWrite (h : ReadFrame s t) (g a c : Nat) : ReadFrame s (t.injWrite g a c) := by
  unfold State.injWrite
  split
  · exact h
  · exact (h.parts t.ms _ t.poison).injFire

theorem ReadFrame.backSector (h : ReadFrame s t) (x : Nat) : ReadFrame s (t.backSector x) := by
  have k := h.checkWords x 64 Master.sp.code atBack
  exact .ite k ((k.parts _ _ _).injWrite _ _ _)

theorem ReadFrame.backLine (h : ReadFrame s t) (l : LdlLine) : ReadFrame s (t.backLine l) := by
  have k : ReadFrame s (if l.d0 then t.backSector (l.tag * 128) else t) := .ite (h.backSector _) h
  exact .ite (k.backSector _) k

theorem ReadFrame.ladleSet (h : ReadFrame s t) (l : List LdlLine) (f : Nat) : ReadFrame s (t.ladleSet l f) :=
  ((ReadFrame.foldS _ h fun _ _ k => k.backLine _).setLadle l).ladleStat f

theorem ReadFrame.ladlePut (h : ReadFrame s t) (l : LdlLine) (b : Bool) : ReadFrame s (t.ladlePut l b) := h.ladleSet _ _

theorem ReadFrame.ladleStay (h : ReadFrame s t) (l : LdlLine) : ReadFrame s (t.ladleStay l) := h.ladleSet _ _

theorem ReadFrame.ladleDrop (h : ReadFrame s t) (x : Nat) : ReadFrame s (t.ladleDrop x) := by
  unfold State.ladleDrop
  refine .ladleStat (.setLadle ?_ _) _
  split
  · exact h.backLine _
  · exact h

theorem ReadFrame.ladleClean (h : ReadFrame s t) (x : Nat) : ReadFrame s (t.ladleClean x) := by
  unfold State.ladleClean
  split
  · exact (h.backLine _).ladleStay _
  · exact h

theorem ReadFrame.ladleHit (h : ReadFrame s t) (l : LdlLine) (n : Nat) : ReadFrame s (t.ladleHit l n) := by
  unfold State.ladleHit
  split
  · exact h.ladlePut _ _
  · exact h.ladleSet _ _
  · exact h.ladlePut _ _
  · have k := h.ladlePut l false
    exact .ite (.ite (k.ladleClean _) (k.parts _ _ _)) (h.ladleDrop _)

theorem ReadFrame.ladleAlloc (h : ReadFrame s t) (x n : Nat) (w : Bool) : ReadFrame s (t.ladleAlloc x n w) := by
  unfold State.ladleAlloc
  dsimp only
  split
  · exact h.ladlePut _ _
  · exact h.ladlePut _ _
  · exact .ite (h.ladlePut _ _) h

theorem ReadFrame.fetchUnit (h : ReadFrame s t) (x e m at_ : Nat) : ReadFrame s (t.fetchUnit x e m at_) :=
  .ite (h.poisonAt x) ((h.latentCheck _ _ _).unitRead _ _ _ _ _)

theorem ReadFrame.readLine (h : ReadFrame s t) (n : Nat) (xs : List Nat) (hint : Nat) (e : Nat → Nat) (m at_ : Nat) :
    ReadFrame s (t.readLine n xs hint e m at_) := by
  unfold State.readLine
  extract_lets hit miss a b c
  have hb : ReadFrame s b := .foldS _ ((h.bump _ _ _ _ rfl).bump _ _ _ _ rfl) fun _ _ k => .ite (k.poisonAt _) k
  clear_value b
  have hc : ReadFrame s c := by
    unfold c
    split
    · exact hb
    · split
      · exact hb.ladleHit _ _
      · exact hb
  exact .foldS _ hc fun _ _ k => (k.fetchUnit _ _ _ _).ladleAlloc _ _ _

/-- A read, with all it finds. -/
theorem ReadFrame.readWith (h : ReadFrame s t) (a n hint : Nat) (e : List Nat) (m at_ : Nat) :
    ReadFrame s (t.readWith a n hint e m at_) := by
  unfold State.readWith
  split
  · exact .foldS _ h fun _ _ k => k.latentCheck _ _ _
  · exact .foldS _ (h.checkWords _ _ _ _) fun _ _ k => k.readLine _ _ _ _ _ _

theorem ReadFrame.checkRead (h : ReadFrame s t) (a n m at_ : Nat) : ReadFrame s (t.checkRead a n m at_) := h.readWith _ _ _ _ _ _

theorem ReadFrame.checkSpans (h : ReadFrame s t) (l : List (Nat × Nat)) (m at_ : Nat) : ReadFrame s (t.checkSpans l m at_) :=
  .foldS _ h fun _ _ k => k.checkRead _ _ _ _

/-- A register field outside what a read may write. -/
theorem ReadFrame.f_eq (h : ReadFrame s t) (x : Fld) (i j : Nat) (hx : readWrites x.reg = false) : t.f x i j = s.f x i j := by
  unfold State.f
  rw [h.rd _ i j hx]

theorem ReadFrame.pending_eq (h : ReadFrame s t) : t.pending = s.pending := by
  have e := congrArg State.pending h.rest
  exact e
theorem ReadFrame.mem_eq (h : ReadFrame s t) : t.mem = s.mem := by
  have e := congrArg State.mem h.rest
  exact e
theorem ReadFrame.free_eq (h : ReadFrame s t) : t.free = s.free := by
  have e := congrArg State.free h.rest
  exact e
theorem ReadFrame.out_eq (h : ReadFrame s t) : t.out = s.out := by
  have e := congrArg State.out h.rest
  exact e
theorem ReadFrame.qe_eq (h : ReadFrame s t) : t.qe = s.qe := by
  have e := congrArg State.qe h.rest
  exact e
theorem ReadFrame.insts_eq (h : ReadFrame s t) : t.insts = s.insts := by
  have e := congrArg State.insts h.rest
  exact e
theorem ReadFrame.tray_eq (h : ReadFrame s t) : t.tray = s.tray := by
  have e := congrArg State.tray h.rest
  exact e
theorem ReadFrame.fab_eq (h : ReadFrame s t) : t.fab = s.fab := by
  have e := congrArg State.fab h.rest
  exact e
theorem ReadFrame.res_eq (h : ReadFrame s t) : t.res = s.res := by
  have e := congrArg State.res h.rest
  exact e
theorem ReadFrame.coll_eq (h : ReadFrame s t) : t.coll = s.coll := by
  have e := congrArg State.coll h.rest
  exact e
theorem ReadFrame.resv_eq (h : ReadFrame s t) : t.resv = s.resv := by
  have e := congrArg State.resv h.rest
  exact e
theorem ReadFrame.margin_eq (h : ReadFrame s t) : t.margin = s.margin := by
  have e := congrArg State.margin h.rest
  exact e

theorem State.f_checkRead (s : State) (a n m at_ : Nat) (x : Fld) (i j : Nat) (hx : readWrites x.reg = false) :
    (s.checkRead a n m at_).f x i j = s.f x i j := ((ReadFrame.refl s).checkRead a n m at_).f_eq x i j hx

/-! ### Writes -/

/-- The state after it differs from the state before it only where a write of memory may write. -/
structure WriteFrame (s t : State) : Prop where
  rd : ∀ n i j, readWrites n = false → t.rd n i j = s.rd n i j
  rest : { t with regs := s.regs, eye := s.eye, wings := s.wings, pins := s.pins, nmi := s.nmi, ms := s.ms, latent := s.latent,
                  poison := s.poison, mem := s.mem, resv := s.resv } = s
  straps : t.pins.straps = s.pins.straps

theorem ReadFrame.write (h : ReadFrame s t) : WriteFrame s t :=
  ⟨h.rd, by
    have e := congrArg (fun u : State => { u with mem := s.mem, resv := s.resv }) h.rest
    exact e, h.straps⟩

theorem WriteFrame.refl (s : State) : WriteFrame s s := (ReadFrame.refl s).write

theorem WriteFrame.trans {s t u : State} (h : WriteFrame s t) (k : WriteFrame t u) : WriteFrame s u := by
  refine ⟨fun n i j hn => (k.rd n i j hn).trans (h.rd n i j hn), ?_, k.straps.trans h.straps⟩
  have e := h.rest
  rw [← k.rest] at e
  exact e

theorem WriteFrame.ite {s t u : State} {c : Prop} [Decidable c] (h : WriteFrame s t) (k : WriteFrame s u) :
    WriteFrame s (if c then t else u) := by split <;> assumption

theorem WriteFrame.foldS {α : Type} {s t : State} {f : α → State → State} (xs : List α) (h : WriteFrame s t)
    (hf : ∀ x t, WriteFrame s t → WriteFrame s (f x t)) : WriteFrame s (foldS xs f t) := by
  unfold Machine.foldS
  induction xs generalizing t with
  | nil => exact h
  | cons x r ih => exact ih (hf x t h)

theorem WriteFrame.read (h : WriteFrame s t) {u : State} (k : ReadFrame t u) : WriteFrame s u := h.trans k.write

theorem WriteFrame.writeBytes (h : WriteFrame s t) (a : Nat) (bs : List Byte) : WriteFrame s (t.writeBytes a bs) :=
  ⟨fun n i j hn => h.rd n i j hn, h.rest, h.straps⟩

theorem ReadFrame.injWord (h : ReadFrame s t) (a n : Nat) : ReadFrame s (t.injWord a n) := by
  unfold State.injWord
  dsimp only
  split
  · exact h
  · exact (h.parts _ t.latent t.poison).injFire

theorem WriteFrame.ladleBytes (h : WriteFrame s t) (a : Nat) (bs : List Byte) : WriteFrame s (t.ladleBytes a bs) :=
  (h.writeBytes a bs).read (((ReadFrame.refl _).parts _ _ _).injWord _ _)

theorem WriteFrame.storeSector (h : WriteFrame s t) (a : Nat) (bs : List Byte) (hint m : Nat) :
    WriteFrame s (t.storeSector a bs hint m) := by
  unfold State.storeSector
  dsimp only
  have k : WriteFrame s (t.writeBytes a bs) := h.writeBytes a bs
  have r := fun (x : Nat) (n : Nat) => (ReadFrame.refl t).checkWords x n m atWrite
  refine .ite (.ite (k.read ((ReadFrame.refl _).injWrite _ _ _)) k) (.ite h (.ladleBytes (.read ?_ ((ReadFrame.refl _).ladleAlloc _ _ _)) _ _))
  refine .ite h (.ite (h.read ?_) (h.read ((r _ _).fetchUnit _ _ _ _)))
  have e : ReadFrame t (if a % 8 = 0 then t else t.checkWords (a / 8 * 8) 8 m atWrite) := .ite (.refl t) (r _ _)
  exact .ite e (e.checkWords _ _ _ _)

/-- A write, sector by sector. -/
theorem WriteFrame.storeWith (h : WriteFrame s t) (a : Nat) (bs : List Byte) (hint m : Nat) : WriteFrame s (t.storeWith a bs hint m) :=
  .foldS _ h fun _ _ k => k.storeSector _ _ _ _

theorem WriteFrame.store (h : WriteFrame s t) (a : Nat) (bs : List Byte) : WriteFrame s (t.store a bs) := h.storeWith _ _ _ _

/-- A register field outside what a write may write. -/
theorem WriteFrame.f_eq (h : WriteFrame s t) (x : Fld) (i j : Nat) (hx : readWrites x.reg = false) : t.f x i j = s.f x i j := by
  unfold State.f
  rw [h.rd _ i j hx]

theorem WriteFrame.pending_eq (h : WriteFrame s t) : t.pending = s.pending := by
  have e := congrArg State.pending h.rest
  exact e
theorem WriteFrame.free_eq (h : WriteFrame s t) : t.free = s.free := by
  have e := congrArg State.free h.rest
  exact e
theorem WriteFrame.out_eq (h : WriteFrame s t) : t.out = s.out := by
  have e := congrArg State.out h.rest
  exact e
theorem WriteFrame.qe_eq (h : WriteFrame s t) : t.qe = s.qe := by
  have e := congrArg State.qe h.rest
  exact e
theorem WriteFrame.insts_eq (h : WriteFrame s t) : t.insts = s.insts := by
  have e := congrArg State.insts h.rest
  exact e
theorem WriteFrame.tray_eq (h : WriteFrame s t) : t.tray = s.tray := by
  have e := congrArg State.tray h.rest
  exact e
theorem WriteFrame.fab_eq (h : WriteFrame s t) : t.fab = s.fab := by
  have e := congrArg State.fab h.rest
  exact e
theorem WriteFrame.res_eq (h : WriteFrame s t) : t.res = s.res := by
  have e := congrArg State.res h.rest
  exact e
theorem WriteFrame.coll_eq (h : WriteFrame s t) : t.coll = s.coll := by
  have e := congrArg State.coll h.rest
  exact e
theorem WriteFrame.margin_eq (h : WriteFrame s t) : t.margin = s.margin := by
  have e := congrArg State.margin h.rest
  exact e
theorem WriteFrame.engFused_eq (h : WriteFrame s t) : t.engFused = s.engFused := by
  have e := congrArg State.engFused h.rest
  exact e

theorem State.f_store (s : State) (a : Nat) (bs : List Byte) (x : Fld) (i j : Nat) (hx : readWrites x.reg = false) :
    (s.store a bs).f x i j = s.f x i j := ((WriteFrame.refl s).store a bs).f_eq x i j hx

end Sys2Proof.Machine
end

