-- ==== Sys2Proof/Laws/Same.lean ====
section
/-! SUPPORT. A field that raising a source does not write reads the same afterwards, also inside the registers of fault collection
(R443 to R458). -/

namespace Sys2Proof.Machine

/-- Two fields share no bit of a register. -/
def Fld.apart (x y : Fld) : Bool := x.reg != y.reg || decide (x.lsb + x.w ≤ y.lsb) || decide (y.lsb + y.w ≤ x.lsb)

/-- The fields that raising a source writes, but for the source's own TOTAL. -/
def eyeWrites : List Fld :=
  [F.EYE_PIN_HB_RUN, F.EYE_PIN_ALERT, F.EYE_PIN_ALERT_HOLD, F.EYE_PIN_SECALERT, F.EYE_PIN_SECALERT_HOLD, F.EYE_GRP_CAP_ADDR_ADDR,
   F.EYE_GRP_CAP_TIME_TIME, F.EYE_GRP_CAP_INFO_MASTER, F.EYE_GRP_CAP_INFO_ATYPE, F.EYE_GRP_CAP_INFO_SRC, F.EYE_GRP_CAP_INFO_VALID,
   F.EYE_STATUS_LOG_WRAP, F.MGN_DOM_TAP_SWEEP_OFF, F.WNG_BIST_BUSY, F.WNG_STATUS_STATE, F.EYE_SWEEP_BUSY, F.EYE_STATUS_NMI_SEEN,
   F.EYE_SRC_STAT_COUNT, F.EYE_SRC_STAT_QUIET, F.EYE_STATUS_QUIET_NOW, F.CRU_RES_TAINT_NOW, F.EYE_STATUS_LAST_SRC,
   F.EYE_GRP_PEND_PENDING, F.EYE_SRC_STAT_ASSERTED]

/-- Each field that a raise writes is apart from the field in question. -/
def Untouched (y : Fld) : Bool := eyeWrites.all fun x => x.apart y && x.reg != .CRU_BOOT && decide (x.lsb + x.w ≤ 64)

/-- A field that no raise writes reads the same in both states. -/
structure Same (y : Fld) (p q : Nat) (s t : State) : Prop where
  eq : t.f y p q = s.f y p q
  un : Untouched y = true

theorem Same.refl {y : Fld} (h : Untouched y = true) (p q : Nat) (s : State) : Same y p q s s := ⟨rfl, h⟩

variable {y : Fld} {p q : Nat} {s t : State}

theorem Same.setF (h : Same y p q s t) (x : Fld) (v i j : Nat) (hx : x ∈ eyeWrites) : Same y p q s (t.setF x v i j) := by
  refine ⟨Eq.trans ?_ h.eq, h.un⟩
  have := List.all_eq_true.mp h.un x hx
  simp only [Bool.and_eq_true, bne_iff_ne, ne_eq, decide_eq_true_eq] at this
  obtain ⟨⟨h1, h2⟩, h3⟩ := this
  by_cases hr : x.reg = y.reg
  · refine State.f_setF_bits _ _ _ _ _ _ _ _ hr h2 h3 ?_
    simp [Fld.apart, hr] at h1; omega
  · exact State.f_setF_reg _ _ _ _ _ _ _ _ hr h2

/-- One more occurrence in TOTAL, of another source or where TOTAL is not the field. -/
theorem Same.total (h : Same y p q s t) (n : Nat) (hn : F.EYE_SRC_STAT_TOTAL.apart y = true ∨ n ≠ p) :
    Same y p q s (t.bump F.EYE_SRC_STAT_TOTAL 1 n) := by
  refine ⟨Eq.trans ?_ h.eq, h.un⟩
  by_cases hr : F.EYE_SRC_STAT_TOTAL.reg = y.reg
  · rcases hn with hn | hn
    · refine State.f_setF_bits _ _ _ _ _ _ _ _ hr (by decide) (by decide) ?_
      simp [Fld.apart, hr] at hn; omega
    · exact State.f_setF_idx _ _ _ _ (.inl hn) (by decide)
  · exact State.f_setF_reg _ _ _ _ _ _ _ _ hr (by decide)

/-- The same register of another instance. -/
theorem Same.setIdx (h : Same y p q s t) (x : Fld) (v i j : Nat) (hx : i ≠ p ∨ j ≠ q) (hb : x.reg ≠ .CRU_BOOT) :
    Same y p q s (t.setF x v i j) := ⟨(State.f_setF_idx _ _ _ _ hx hb).trans h.eq, h.un⟩

theorem Same.bump (h : Same y p q s t) (x : Fld) (k i j : Nat) (hx : x ∈ eyeWrites) : Same y p q s (t.bump x k i j) := h.setF x _ i j hx

/-- Changing the parts that fault collection holds outside its registers. -/
theorem Same.parts (h : Same y p q s t) (e : EyeSt) (w : List (Nat × WingSt)) (x : Pins) (n : Nat)
    (hp : x.straps = t.pins.straps) : Same y p q s { t with eye := e, wings := w, pins := x, nmi := n } := by
  refine ⟨Eq.trans ?_ h.eq, h.un⟩
  unfold State.f State.rd State.fusesIn
  dsimp only
  rw [hp]

theorem Same.ite {u : State} {c : Prop} [Decidable c] (h : Same y p q s t) (k : Same y p q s u) : Same y p q s (if c then t else u) := by
  split <;> assumption

theorem Same.foldS {α : Type} {f : α → State → State} (xs : List α) (h : Same y p q s t)
    (hf : ∀ x t, Same y p q s t → Same y p q s (f x t)) : Same y p q s (foldS xs f t) := by
  unfold Machine.foldS
  induction xs generalizing t with
  | nil => exact h
  | cons x r ih => exact ih (hf x t h)

theorem Same.setEyeSrc (h : Same y p q s t) (n : Nat) (x : EyeSrcSt) : Same y p q s (t.setEyeSrc n x) := h.parts _ _ _ _ rfl

theorem Same.refreshPins (h : Same y p q s t) : Same y p q s t.refreshPins := h.setF _ _ _ _ (by decide)

theorem Same.releasePins (h : Same y p q s t) : Same y p q s t.releasePins := by
  unfold State.releasePins
  have h1 : Same y p q s (if (!t.pins.alertPulse) = true ∧ t.f F.EYE_PIN_ALERT_HOLD = 0 then t.setF F.EYE_PIN_ALERT 0 else t) :=
    .ite (h.setF _ _ _ _ (by decide)) h
  revert h1
  generalize (if (!t.pins.alertPulse) = true ∧ t.f F.EYE_PIN_ALERT_HOLD = 0 then t.setF F.EYE_PIN_ALERT 0 else t) = u
  intro h1
  exact .ite (h1.setF _ _ _ _ (by decide)) h1

theorem Same.withPins {f : State → State} (hf : Same y p q s (f t)) : Same y p q s (t.withPins f) := by
  unfold State.withPins
  revert hf
  generalize f t = u
  intro hf
  dsimp only
  have h1 : Same y p q s (if (t.pinCond [2, 4] && !u.pinCond [2, 4]) = true then u.setF F.EYE_PIN_ALERT_HOLD 0 else u) :=
    .ite (hf.setF _ _ _ _ (by decide)) hf
  revert h1
  generalize (if (t.pinCond [2, 4] && !u.pinCond [2, 4]) = true then u.setF F.EYE_PIN_ALERT_HOLD 0 else u) = v
  intro h1
  exact (Same.ite (h1.setF _ _ _ _ (by decide)) h1).releasePins.refreshPins

theorem Same.pinReact (h : Same y p q s t) (n : Nat) : Same y p q s (t.pinReact n) := by
  unfold State.pinReact
  have h1 : ∀ x, Same y p q s (t.setEyeSrc n x) := fun x => h.setEyeSrc n x
  exact .ite (h1 _) (.ite ((((h1 _).setF _ _ _ _ (by decide)).setF _ _ _ _ (by decide)).parts _ _ _ _ rfl)
    (.ite ((((h1 _).setF _ _ _ _ (by decide)).setF _ _ _ _ (by decide)).parts _ _ _ _ rfl) (h1 _)))

theorem Same.capture (h : Same y p q s t) (n : Nat) (c : Cap) : Same y p q s (t.capture n c) := by
  unfold State.capture
  exact .ite ((((((h.setF _ _ _ _ (by decide)).setF _ _ _ _ (by decide)).setF _ _ _ _ (by decide)).setF _ _ _ _ (by decide)).setF _ _ _ _ (by decide)).setF _ _ _ _ (by decide))
    (h.setF _ _ _ _ (by decide))

theorem Same.record (h : Same y p q s t) (n : Nat) (c : Cap) (x : List Int) : Same y p q s (t.record n c x).1 := by
  unfold State.record
  dsimp only
  split
  · exact h.parts _ _ _ _ rfl
  · exact (h.parts _ t.wings t.pins t.nmi rfl).setF _ _ _ _ (by decide)

theorem Same.dropSweeps (h : Same y p q s t) (r : Sweep → Bool) (l : Bool) : Same y p q s (t.dropSweeps r l) := by
  unfold State.dropSweeps
  extract_lets gone
  split
  · exact h
  · refine .parts (.setF (.foldS _ h fun x u hu => ?_) _ _ _ _ (by decide)) _ _ _ _ rfl
    dsimp only
    have h4 : Same y p q s (Machine.foldS (List.range 4) (fun a u => u.setF F.MGN_DOM_TAP_SWEEP_OFF 0 (6 * x.wing + a)) u) :=
      .foldS _ hu fun a u hu => hu.setF _ _ _ _ (by decide)
    revert h4
    generalize Machine.foldS (List.range 4) (fun a u => u.setF F.MGN_DOM_TAP_SWEEP_OFF 0 (6 * x.wing + a)) u = u4
    intro h4
    have hb : Same y p q s (u4.setF F.WNG_BIST_BUSY 0 x.wing) := h4.setF _ _ _ _ (by decide)
    revert hb
    generalize u4.setF F.WNG_BIST_BUSY 0 x.wing = b
    intro hb
    have hc : Same y p q s (if b.f F.WNG_STATUS_STATE x.wing = 1 then b.setF F.WNG_STATUS_STATE 2 x.wing else b) :=
      .ite (hb.setF _ _ _ _ (by decide)) hb
    revert hc
    generalize (if b.f F.WNG_STATUS_STATE x.wing = 1 then b.setF F.WNG_STATUS_STATE 2 x.wing else b) = c
    intro hc
    exact hc.parts _ _ _ _ rfl

theorem Same.react (h : Same y p q s t) (n : Nat) : Same y p q s (t.react n) := by
  unfold State.react
  have ha : Same y p q s (if t.f F.EYE_SRC_CFG_NMI n = 1 then
      { t.setF F.EYE_STATUS_NMI_SEEN 1 with nmi := (t.nmi ||| t.f F.EYE_NMI_HARTS) } else t) :=
    .ite ((h.setF F.EYE_STATUS_NMI_SEEN 1 0 0 (by decide)).parts _ _ _ _ rfl) h
  revert ha
  generalize (if t.f F.EYE_SRC_CFG_NMI n = 1 then
      { t.setF F.EYE_STATUS_NMI_SEEN 1 with nmi := (t.nmi ||| t.f F.EYE_NMI_HARTS) } else t) = a
  intro ha
  dsimp only
  have he : Same y p q s ((((((a.setF F.EYE_SRC_STAT_COUNT 0 n).setF F.EYE_SRC_STAT_QUIET 1 n).bump F.EYE_STATUS_QUIET_NOW).pinReact n).refreshPins)) :=
    ((((ha.setF _ _ _ _ (by decide)).setF _ _ _ _ (by decide)).bump _ _ _ _ (by decide)).pinReact n).refreshPins
  revert he
  generalize ((((((a.setF F.EYE_SRC_STAT_COUNT 0 n).setF F.EYE_SRC_STAT_QUIET 1 n).bump F.EYE_STATUS_QUIET_NOW).pinReact n).refreshPins)) = e
  intro he
  have hf : Same y p q s (if n / 16 < 64 ∧ n % 16 ≤ 3 then e.dropSweeps (fun x => x.wing == n / 16) false else e) :=
    .ite (he.dropSweeps _ _) he
  revert hf
  generalize (if n / 16 < 64 ∧ n % 16 ≤ 3 then e.dropSweeps (fun x => x.wing == n / 16) false else e) = f
  intro hf
  exact .ite (hf.parts _ _ _ _ rfl) (.ite (hf.parts _ _ _ _ rfl) hf)

theorem Same.occurOn (n : Nat) (hs : (srcDef n).isSome = true) (h : Same y p q s (t.bump F.EYE_SRC_STAT_TOTAL 1 n)) (c : Cap) (x : List Int) (r : Bool) : Same y p q s (t.occur n c x r).1 := by
  unfold State.occur
  rw [if_neg (by cases e : srcDef n <;> simp_all)]
  dsimp only
  have hb : Same y p q s ((t.bump F.EYE_SRC_STAT_TOTAL 1 n).setEyeSrc n { (t.bump F.EYE_SRC_STAT_TOTAL 1 n).eyeSrc n with cap := c }) :=
    h.setEyeSrc _ _
  revert hb
  generalize ((t.bump F.EYE_SRC_STAT_TOTAL 1 n).setEyeSrc n { (t.bump F.EYE_SRC_STAT_TOTAL 1 n).eyeSrc n with cap := c }) = b
  intro hb
  have hd : Same y p q s (if taints n = true then b.taint 6 else b) := .ite (hb.setF _ _ _ _ (by decide)) hb
  revert hd
  generalize (if taints n = true then b.taint 6 else b) = d
  intro hd
  split
  · exact hd
  have he : Same y p q s (if d.f F.EYE_SRC_STAT_COUNT n = 0 then d.setEyeSrc n { d.eyeSrc n with winStart := d.hours } else d) :=
    .ite (hd.setEyeSrc _ _) hd
  revert he
  generalize (if d.f F.EYE_SRC_STAT_COUNT n = 0 then d.setEyeSrc n { d.eyeSrc n with winStart := d.hours } else d) = e
  intro he
  have hg : Same y p q s ((e.bump F.EYE_SRC_STAT_COUNT 1 n).setF F.EYE_STATUS_LAST_SRC n) := (he.bump _ _ _ _ (by decide)).setF _ _ _ _ (by decide)
  revert hg
  generalize ((e.bump F.EYE_SRC_STAT_COUNT 1 n).setF F.EYE_STATUS_LAST_SRC n) = g
  intro hg
  have hz : Same y p q s (if r = true then g.record n c x else (g, false)).1 := by
    split
    · exact hg.record _ _ _
    · exact hg
  revert hz
  generalize (if r = true then g.record n c x else (g, false)) = z
  intro hz
  obtain ⟨u, lost⟩ := z
  dsimp only at hz ⊢
  have h1 := hz.capture n c
  revert h1
  generalize u.capture n c = u1
  intro h1
  have h2 : Same y p q s (if u1.f F.EYE_SRC_CFG_IRQ n = 1 then
      u1.setF F.EYE_GRP_PEND_PENDING (u1.f F.EYE_GRP_PEND_PENDING (n / 16) ||| 2 ^ (n % 16)) (n / 16) else u1) :=
    .ite (h1.setF _ _ _ _ (by decide)) h1
  revert h2
  generalize (if u1.f F.EYE_SRC_CFG_IRQ n = 1 then
      u1.setF F.EYE_GRP_PEND_PENDING (u1.f F.EYE_GRP_PEND_PENDING (n / 16) ||| 2 ^ (n % 16)) (n / 16) else u1) = u2
  intro h2
  exact .ite (h2.react n) h2

theorem Same.occur (h : Same y p q s t) (n : Nat) (hn : F.EYE_SRC_STAT_TOTAL.apart y = true ∨ n ≠ p) (c : Cap) (x : List Int) (r : Bool) :
    Same y p q s (t.occur n c x r).1 := by
  by_cases hs : (srcDef n).isSome = true
  · exact .occurOn n hs (h.total n hn) c x r
  · unfold State.occur
    rw [if_pos (by simpa using hs)]
    exact h

theorem Same.sweepTrigger (h : Same y p q s t) (n : Nat) : Same y p q s (t.sweepTrigger n) := by
  unfold State.sweepTrigger
  exact .ite ((h.setF F.EYE_SWEEP_BUSY 1 0 0 (by decide)).parts _ _ _ _ rfl) h

/-- Raising a source. -/
theorem Same.raiseX (h : Same y p q s t) (n : Nat) (hn : F.EYE_SRC_STAT_TOTAL.apart y = true ∨ n ≠ p) (hl : F.EYE_SRC_STAT_TOTAL.apart y = true ∨ srcOf 83 12 ≠ p) (c : Cap) (x : List Int) : Same y p q s (t.raiseX n c x) := by
  unfold State.raiseX
  have h1 := (h.occur n hn c x true)
  generalize t.occur n c x true = z at h1
  obtain ⟨u, lost⟩ := z
  exact .ite ((h1.sweepTrigger n).occur _ hl _ _ _) (h1.sweepTrigger n)

theorem Same.raise (h : Same y p q s t) (n : Nat) (hn : F.EYE_SRC_STAT_TOTAL.apart y = true ∨ n ≠ p) (hl : F.EYE_SRC_STAT_TOTAL.apart y = true ∨ srcOf 83 12 ≠ p) (c : Cap) : Same y p q s (t.raise n c) := h.raiseX n hn hl c []

theorem Same.raiseLevel (h : Same y p q s t) (n : Nat) (hn : F.EYE_SRC_STAT_TOTAL.apart y = true ∨ n ≠ p) (hl : F.EYE_SRC_STAT_TOTAL.apart y = true ∨ srcOf 83 12 ≠ p) (c : Cap) : Same y p q s (t.raiseLevel n c) :=
  .ite h ((h.setF _ _ _ _ (by decide)).raise n hn hl c)

theorem Same.lowerLevel (h : Same y p q s t) (n : Nat) : Same y p q s (t.lowerLevel n) := by
  unfold State.lowerLevel
  refine .ite h (.withPins ?_)
  have h1 : Same y p q s (t.setF F.EYE_SRC_STAT_ASSERTED 0 n) := h.setF _ _ _ _ (by decide)
  exact .ite h1 (h1.setEyeSrc _ _)


/-- A raise counts its source in TOTAL by one, up to the counter's top (R443). -/
theorem State.total_raiseX (s : State) (n : Nat) (c : Cap) (x : List Int) (hs : (srcDef n).isSome = true) (hn : n ≠ srcOf 83 12) :
    (s.raiseX n c x).f F.EYE_SRC_STAT_TOTAL n = min (s.f F.EYE_SRC_STAT_TOTAL n + 1) (2 ^ F.EYE_SRC_STAT_TOTAL.w - 1) := by
  have h0 : Same F.EYE_SRC_STAT_TOTAL n 0 (s.bump F.EYE_SRC_STAT_TOTAL 1 n) (s.bump F.EYE_SRC_STAT_TOTAL 1 n) := .refl (by decide) _ _ _
  have h1 : Same F.EYE_SRC_STAT_TOTAL n 0 (s.bump F.EYE_SRC_STAT_TOTAL 1 n) (s.raiseX n c x) := by
    unfold State.raiseX
    have h1 := Same.occurOn n hs h0 c x true
    generalize s.occur n c x true = z at h1
    obtain ⟨u, lost⟩ := z
    exact .ite ((h1.sweepTrigger n).occur _ (.inr (Ne.symm hn)) _ _ _) (h1.sweepTrigger n)
  exact h1.eq.trans (State.f_bump_same _ _ _ _ _ (by decide))

theorem State.same_raise (s : State) (n : Nat) (c : Cap) (y : Fld) (p q : Nat) (hy : Untouched y = true)
    (ht : F.EYE_SRC_STAT_TOTAL.apart y = true) : (s.raise n c).f y p q = s.f y p q :=
  ((Same.refl hy p q s).raise n (.inl ht) (.inl ht) c).eq

theorem State.same_raiseLevel (s : State) (n : Nat) (c : Cap) (y : Fld) (p q : Nat) (hy : Untouched y = true)
    (ht : F.EYE_SRC_STAT_TOTAL.apart y = true) : (s.raiseLevel n c).f y p q = s.f y p q :=
  ((Same.refl hy p q s).raiseLevel n (.inl ht) (.inl ht) c).eq

theorem State.same_lowerLevel (s : State) (n : Nat) (y : Fld) (p q : Nat) (hy : Untouched y = true) :
    (s.lowerLevel n).f y p q = s.f y p q := ((Same.refl hy p q s).lowerLevel n).eq

end Sys2Proof.Machine
end

