-- ==== Sys2Proof/Machine/Fru.lean ====
section
/-! DEFINITION. The FRU EEPROM on the module carrier (R412, R528): 8 KiB in the layout of Table 19-10, its lower half written at
manufacture and write-protected, its upper half the tray's. No row of the table reaches it and the module itself never reads
it: it stands on the connector's bus, on V3P3_SB, whatever state the module is in (Table 19-11; log entry 155). -/

namespace Sys2Proof.Machine

/-- A byte string padded with zeros to a length. -/
def padTo (n : Nat) (bs : List Byte) : List Byte := (bs ++ List.replicate n 0).take n

/-- The 32 bits of a word in the opposite order. -/
def reflect32 (x : Nat) : Nat := (List.range 32).foldl (fun a k => a * 2 + bitsAt x k 1) 0

/-- The CRC-32 of Table 19-10: polynomial 0x04C1_1DB7, reflected, initial value and final XOR 0xFFFF_FFFF. -/
def crc32 (bs : List Byte) : Nat :=
  reflect32 (crcBits 32 0x04C11DB7 0xFFFFFFFF (bs.flatMap fun b => (List.range 8).map fun k => bitsAt b.toNat k 1 == 1)) ^^^ 0xFFFFFFFF

/-- The fields of Table 19-10 below the check: offset and bytes. A number stands little-endian (R13), the MAC address in the order
it is written. -/
def fruFields : List (Nat × List Byte) :=
  [(0x0000, magic [0x4B, 0x46, 0x52, 0x55]), (0x0004, leBytes 1 1),
   (0x0010, padTo 16 (magic [0x47, 0x4E, 0x42, 0x2D, 0x36, 0x34, 0x31, 0x36, 0x2D, 0x57])), (0x0020, magic [0x41, 0x31]),
   (0x0028, leBytes 8 serialNo), (0x0030, beBytes 6 (getBits (Config.fuseWord (RegKey.addr ⟨.CRU_MGT_MAC, 0, 0⟩)) 0 48)),
   (0x0040, leBytes 2 Config.fruYear ++ leBytes 1 Config.fruWeek ++ leBytes 1 0),
   (0x0080, leBytes 2 2600), (0x0082, leBytes 2 3000), (0x0084, leBytes 2 17000)]

/-- One byte of the part before the check; the table gives the others no content. -/
def fruPlain (a : Nat) : Byte :=
  match fruFields.find? fun f => decide (f.1 ≤ a) && decide (a < f.1 + f.2.length) with
  | some f => f.2.getD (a - f.1) 0
  | none => Config.fruRest a

/-- The write-protected half: 0x0000 to 0x0FFF. -/
def fruFixed (a : Nat) : Byte :=
  if a < 0x0FFC then fruPlain a else (leBytes 4 (crc32 ((List.range 0x0FFC).map fruPlain))).getD (a - 0x0FFC) 0

/-- What the EEPROM answers at an offset; the tray's bytes hold what was last written there. -/
def State.fruRead (s : State) (a : Nat) : Byte :=
  if a % 0x2000 < 0x1000 then fruFixed (a % 0x2000) else mgetD s.fru (a % 0x2000) (Config.fruRest (a % 0x2000))

/-- A byte the tray writes: the lower half is write-protected. -/
def State.fruWrite (s : State) (a : Nat) (b : Byte) : State :=
  if a % 0x2000 < 0x1000 then s else { s with fru := mset s.fru (a % 0x2000) b }

/-- The address at which it answers: 0x50 + slot, of the strap (R412, R513). -/
def State.fruAddress (s : State) : Nat := 0x50 + s.pins.straps % 8

end Sys2Proof.Machine
end

