-- ==== Sys2Proof/Tests/Slice0.lean ====
section
/-! SUPPORT. Tests: the check of well-formed commands refuses ill-formed ones, a few values worked out from the spec, and for every
obligation that has hypotheses a concrete state and operands that meet them (`witness_<Name>`). -/

open Sys2Proof Sys2Proof.Machine Sys2Proof.Claims
namespace Sys2Proof.Tests

/-- A state with fields set: field, value, index. -/
def fs (l : List (Fld × Nat × Nat)) (s : State) : State := l.foldl (fun s x => s.setF x.1 x.2.1 x.2.2) s
/-- A module that is ON, at boot stage 13. -/
def up : State := fs [(F.PWR_STATE_STATE, 2, 0), (F.CRU_BOOT_STAGE, 13, 0)] State.reset
/-- `up` with these fields. -/
def w (l : List (Fld × Nat × Nat)) : State := fs l up
/-- A queue 0 whose ring at 0x10000000 holds one command: its packet's eight words. -/
def queued (l : List (Fld × Nat × Nat)) (p : List Nat) : State :=
  (w ([(F.QE_CTRL_DISPATCH_EN, 1, 0), (F.QE_Q_STATE_STATE, 1, 0), (F.QE_Q_CMD_BASE_BASE, 0x10000000, 0), (F.QE_Q_CMD_BASE_LOG2_SIZE, 4, 0), (F.QE_Q_TAIL_TAIL, 1, 0),
    (F.FLK_MEM_STACK_STAT_STATE, 2, 0)] ++ l)).writeBytes 0x10000000 (p.flatMap fun x => leBytes 8 x)

/-! ## Ill-formed commands and worked values -/

/-! Ill-formed commands: for each check of WellFormed.lean an index one past the last unit, or a value the row's operand cannot hold. -/

theorem test_ill_formed_refused_a : ([.slackWindowEnd 408 0,
    .tapWiden 408,
    .holdWiden 408 0,
    .tapRelax 408,
    .relaxReevaluate 408,
    .marginExhausted 408,
    .shadowLatchFlag 408,
    .vfloorRecompute 8,
    .plannedWrite 408 0 .sp,
    .sweepOffWrite 408 0 .sp,
    .mgnPeakClr 408 .sp,
    .slackMinClr 408 .sp,
    .temperTriggered 408,
    .temperWingSkip 64,
    .temperDomainPass 408 0 0,
    .baskTapRemove 8,
    .stepsRead 64,
    .matmul 256,
    .activationLoad 64,
    .arrayStep 64 [],
    .testbarCheck 64 0 0,
    .testbarCheck 0 4 0,
    .testbarCheck 0 0 64,
    .epilogueRun 64,
    .wingHang 64,
    .wingTakeOut 64 .sp,
    .wingRestore 64 .sp,
    .arrayFence 64 0 .sp,
    .arrayFence 0 4 .sp,
    .bistStart 64 .sp,
    .bistDone 64 [],
    .accWindowRead 64 0 0 .sp,
    .accWindowRead 0 0x20000 0 .sp,
    .stitchCodeError 4,
    .streamValidate 4096 .sp,
    .streamDescWrite 4096 0 0 .sp,
    .streamDescWrite 0 4 0 .sp,
    .streamInstanceOpen 4096 0,
    .streamInstanceOpen 0 64,
    .joinTimeout 4096] : List Instr).all (fun i => !i.wf) = true := by decide
theorem test_ill_formed_refused_b : ([.receiverPrune 0 64,
    .tileStoreAccess 64 [],
    .vecRun 256,
    .patternNop 64,
    .mov 64,
    .add 64,
    .sub 64,
    .mul 64,
    .fma 64,
    .fms 64,
    .fnma 64,
    .div 64,
    .sqrt 64,
    .min 64,
    .max 64,
    .minn 64,
    .maxn 64,
    .abs 64,
    .neg 64,
    .cmpeq 64,
    .cmplt 64,
    .cmple 64,
    .cmpun 64,
    .sel 64,
    .scale 64,
    .cvt 64,
    .rint 64,
    .qnt 64,
    .iadd 64,
    .isub 64,
    .imul 64,
    .and 64,
    .or 64,
    .xor 64,
    .shl 64,
    .shr 64,
    .sra 64,
    .imin 64,
    .imax 64,
    .exp2 64] : List Instr).all (fun i => !i.wf) = true := by decide
theorem test_ill_formed_refused_c : ([.exp 64,
    .log2 64,
    .log 64,
    .rcp 64,
    .rsqrt 64,
    .tanh 64,
    .sigm 64,
    .erf 64,
    .sin 64,
    .cos 64,
    .gath 64,
    .scat 64,
    .lxch 64,
    .lsum 64,
    .lshf 64,
    .vecReduction 64,
    .trWindowRead 64 0 0 .sp,
    .trWindowRead 0 0x8000 0 .sp,
    .queueDoorbell 256 0 .sp,
    .rheadWrite 256 0 .sp,
    .commandDispatch 256,
    .tileCommit 256 0,
    .commandRetire 256 0,
    .gateSignal 256 0,
    .replyWrite 256,
    .queueWaitLong 256,
    .nop 256,
    .gateAdd 256,
    .gateSet 256,
    .abort 256,
    .qeGateValWrite 4096 0 .sp,
    .qeGateAddWrite 4096 0 .sp,
    .queueEnable 256 .sp,
    .queueDisable 256 .sp,
    .queueDrainFinish 256 .sp,
    .queueDrainAbort 256 .sp,
    .queueDrainDone 256,
    .queueResume 256 .sp,
    .clampClr 256 .sp,
    .wingDrainTimeout 64] : List Instr).all (fun i => !i.wf) = true := by decide
theorem test_ill_formed_refused_d : ([.chainReplay 64,
    .adoptionCopyDone 64,
    .memQualOverride 4 .sp,
    .ladleMissFill 16 [] false,
    .ladleWriteback 256,
    .ladleEvict 256,
    .ladleUnprotect 256,
    .ladlePrefetch 256,
    .ladleZero 256,
    .perBankRefresh 16,
    .refreshManagementRequest 16,
    .stackTempRead 16 0,
    .scrubRead 16 [],
    .parityError 16 false,
    .phyLockLoss 16,
    .stackRetrainDone 16 false,
    .turnWrite 256,
    .turnArm 256,
    .turnDisarm 256,
    .d2dFrameReceive 9 0 0 0 [] ⟨0, []⟩,
    .d2dFrameReceive 0 2 0 0 [] ⟨0, []⟩,
    .d2dFrameReceive 0 0 64 0 [] ⟨0, []⟩,
    .d2dNak 9 0 0 0,
    .d2dNak 0 2 0 0,
    .d2dNak 0 0 6 0,
    .d2dLinkControl 9 0 [] [],
    .d2dLinkControl 0 2 [] [],
    .sliceRetrainDone 9 0 false [] 0,
    .sliceRetrainDone 0 128 false [] 0,
    .d2dSwitch 4 .sp,
    .d2dModeChangeDone 4 none,
    .d2dLockLoss 4,
    .edgeRetrainDone 4 none,
    .ringLockLoss 16 0 0 ⟨0, true⟩,
    .ringLockLoss 0 36 0 ⟨0, true⟩,
    .combMonitor 8 0 0 0 [] false 0,
    .combMonitor 0 2 0 0 [] false 0,
    .lineSourceFail 8 0 0,
    .lineSourceFail 0 18 0,
    .rxMonitor 16 [] 0] : List Instr).all (fun i => !i.wf) = true := by decide
theorem test_ill_formed_refused_e : ([.lossOfSignal 16 0 0,
    .lossOfSignal 0 18 0,
    .peerId 16 0 0 0,
    .lswapReq 16 0 0 0 0,
    .lswapReq 0 0 16 0 0,
    .lswapDup 16 0 0 0 0,
    .lswapDup 0 0 16 0 0,
    .lswapVerifyDone 16 0 false,
    .lswapDone 16 0 0 0 0,
    .lswapDone 0 0 16 0 0,
    .lswapCutover 16 0 false,
    .lswapAbandon 16 0 0 0 0 false,
    .lswapAbandon 0 0 16 0 0 false,
    .lswapTimeout 16 0 false,
    .leLswap 16 0 0 .sp,
    .leLswap 0 16 0 .sp,
    .narrowAt 16 0 [] 0,
    .widenAt 16 0 [] 0,
    .stripeChange 16,
    .combSwap 8 0 false,
    .combLocked 8 0 0,
    .combLocked 0 2 0,
    .combLockTimeout 8,
    .cswapAt 16 0 0,
    .combCutover 16 0,
    .laneAck 16 0,
    .portOff 16 0,
    .portDisable 16 .sp,
    .portEnable 16 .sp,
    .portDrainDone 16,
    .leEnableWrite 8 0 .sp,
    .leThreshWrite 8 0 .sp,
    .linkUnitReceive 16 ⟨none, 0, 0, 0, 0, 0, 0, none⟩ ⟨0, 0, []⟩,
    .linkNak 16 0,
    .linkResendTimeout 16,
    .linkControlUnit 16,
    .cellRoute 0 8,
    .portUsabilityChange 16,
    .e2eDataReceive 4,
    .e2eCloseReceive 4] : List Instr).all (fun i => !i.wf) = true := by decide
theorem test_ill_formed_refused_f : ([.e2eAckReceive 4,
    .e2eResetReceive 4,
    .e2eAckDelayExpire 0 4 0,
    .e2eRetransmit 0 4 false,
    .rtBankDrained 2,
    .rtEntryWrite 2 false 0 0 .sp,
    .cableAccept 16 .sp,
    .cableRecheck 16 .sp,
    .fence 256,
    .fenceTimeout 256 0,
    .trayLoad 16 0 4 false,
    .trayStore 16 0 [] false,
    .trayAtomic 16 0 0 .add 0 0,
    .coreFence 16 false,
    .coreLocalAtomic 16 0 0 .add 0 0,
    .copyLinear 256,
    .copyStrided 256,
    .copyGather 256,
    .copyScatter 256,
    .copyAtomic 256,
    .groupEnable 256 .sp,
    .groupDisable 256 .sp,
    .groupDrainTimeout 256,
    .colGrpCfgWrite 256 false 0 .sp,
    .allReduce 256,
    .reduceScatter 256,
    .allGather 256,
    .reduce 256,
    .broadcast 256,
    .barrier 256,
    .collTimeout 256 0,
    .stepCommit 256,
    .push 256,
    .restore 256,
    .buddyTimeout 256 0,
    .attestStart 4 .sp,
    .attestDone 4,
    .sourceOccurrence 2048 0 0 0,
    .quietExpire 2048,
    .countWindowExpire 2048] : List Instr).all (fun i => !i.wf) = true := by decide
theorem test_ill_formed_refused_g : ([.sourceUnlatch 2048 .sp,
    .sourceLatch 2048 .sp,
    .eyeSrcCfgWrite 2048 0 .sp,
    .sweepStressPoint 64 0,
    .sweepStressPoint 0 4,
    .sweepAbandon 64 0,
    .sweepAbandon 0 4,
    .sweepEnd 64 0,
    .sweepEnd 0 4,
    .inputValid 65536,
    .railFault 16,
    .thermalSensorUpdate 104 ⟨0, 0⟩,
    .sensorStale 104,
    .sensorMaxClr 104 .sp,
    .setpointSettle 16,
    .throttleStep 8,
    .throttleRecoverStep 8,
    .trip 74,
    .dtdtHoldExpire 8,
    .ringAcquisitionDone 16 0 [],
    .peerAligned 16 [],
    .heaterLimit 16 0 ⟨0, 0, true⟩,
    .heaterLimit 0 36 ⟨0, 0, true⟩,
    .tileStoreAccess 0 [⟨4, 0, none, []⟩],
    .ladleRead 1 128 0 .sp,
    .ladleWrite 127 [0, 0] 0 .sp,
    .rtEntryWrite 0 true 64 0 .sp,
    .rtEntryWrite 0 false 256 0 .sp,
    .trayLoad 0 0 3 false,
    .trayStore 0 0 [] false,
    .sourceUnlatch 2047 .sp,
    .sourceLatch 2047 .sp,
    .eyeSrcCfgWrite 2047 0 .sp,
    .railPowerGood (some 16),
    .thermalSensorUpdate 0 ⟨4, 0⟩,
    .powerControlTick 0 0 ⟨0, [.wingRate 64 0]⟩,
    .sourceOccurrence 2047 0 0 0] : List Instr).all (fun i => !i.wf) = true := by decide

theorem witness_UnknownUnitsFault : (Instr.tapWiden 408).wf = false ∧ (Instr.tapWiden 407).wf = true := by decide
theorem witness_MemoryReadAfterWrite : cellsWf [(4, 1), (9, 2)] = true ∧ (8 : Nat) ≠ 9 := by decide
theorem witness_EqualMemoriesAreEqualData : cellsWf [(4, 1), (9, 2)] = true ∧ (cellSet [(4, 1)] 9 2) = [(4, 1), (9, 2)] := by decide
theorem witness_IdleStepIsOneTick : up.pending = [] ∧ (up.link 15).fifo = [] ∧ (up.link 0).fifo = [] := by decide
theorem witness_StepRunsFrontCommand : ({ up with pending := [.tapWiden 407] } : State).pending = [.tapWiden 407] := by decide
theorem witness_GateCountersWrap : up.pwrState = 2 ∧ 2 ≤ up.stage := by decide
theorem witness_QuietStateIsSettled : State.reset.quiet = true := by decide
/-- An empty queue's step from reset meets the premise of EveryStepKeepsInvariant, and answers a next state. -/
theorem witness_EveryStepKeepsInvariant :
    cellsWf State.reset.mem = true ∧ State.reset.eye.ring = [] ∧ State.reset.eye.log = [] ∧ State.reset.poison = [] ∧ State.reset.pending = [] := by decide
theorem witness_PatternLaneResult : plainOp .abs = true ∧ plainOp .fma = true ∧ plainOp .isub = true ∧ Ty.f32 ≠ Ty.f64 ∧ Ty.f16 ≠ Ty.f64 := by decide
/-- Each clause of GnoisCodesRead at the ends of its range. -/
theorem witness_GnoisCodesRead :
    (0x8001 : Nat) = 32768 + 0 * 128 + 1 ∧ (0x0080 : Nat) = 0 + 1 * 128 + 0 ∧ (0x7F7F : Nat) = 0 + 254 * 128 + 127 ∧ (0xFFFF : Nat) = 32768 + 255 * 128 + 127 ∧
    15 * 8 + 6 ≤ 126 ∧ 126 < 15 * 8 + 7 := by decide
/-- A value just inside and just outside each integer format's range. -/
theorem witness_IntegerFormatsAreTwosComplement :
    (-128 : Int) ≤ -128 ∧ (127 : Int) ≤ 127 ∧ (-32768 : Int) ≤ -32768 ∧ (-2 ^ 31 : Int) ≤ -2 ^ 31 ∧ (2 ^ 31 - 1 : Int) < 2 ^ 31 := by decide

/-! Values worked out from the spec's text and tables. -/

-- the table under R228
theorem test_hbm_placement : hbmPlace 0x10000 = (0, 1, 1, 0, 0) ∧ hbmPlace 0x900010400 = (1, 0, 1, 0, 0) ∧ hbmPlace 0x1234567880 = (2, 8, 3, 837, 128) := by decide
-- the published check values of the two polynomials over the bytes "123456789" (R257, Table 19-10)
set_option maxRecDepth 20000 in
theorem test_crc16_check : crcBits 16 0x1021 0xFFFF ([0x31, 0x32, 0x33, 0x34, 0x35, 0x36, 0x37, 0x38, 0x39].flatMap fun b => (List.range 8).map fun k => bitsAt b (7 - k) 1 == 1) = 0x29B1 := by decide
set_option maxRecDepth 20000 in
theorem test_crc32_check : crc32 [0x31, 0x32, 0x33, 0x34, 0x35, 0x36, 0x37, 0x38, 0x39] = 0xCBF43926 := by decide
-- binary32: 1 + 1 = 2, 1 / 0 raises DZ with infinity, 2^24 + 1 rounds to even with NX (R79, R80)
theorem test_add_exact : aluOp .add .f32 .ne 0x3F800000 0x3F800000 0 = (0x40000000, 0) := by decide
theorem test_add_inexact : aluOp .add .f32 .ne 0x4B800000 0x3F800000 0 = (0x4B800000, flagNX) := by decide
theorem test_div_by_zero : aluOp .div .f32 .ne 0x3F800000 0 0 = (0x7F800000, flagDZ) := by decide
theorem test_isub_wraps : aluOp .isub .i32 .ne 0 1 0 = (0xFFFFFFFF, 0) := by decide
theorem test_sra_keeps_sign : aluOp .sra .i32 .ne 0x80000000 31 0 = (0xFFFFFFFF, 0) := by decide
theorem test_imin_signed : aluOp .imin .i32 .ne 0xFFFFFFFF 1 0 = (0xFFFFFFFF, 0) ∧ aluOp .imin .u32 .ne 0xFFFFFFFF 1 0 = (1, 0) := by decide
-- bytes stand little-endian (R13)
theorem test_bytes_little_endian : (State.reset.writeBytes 0x10000000 (leBytes 4 0x12345678)).mem.map Prod.snd = [0x78, 0x56, 0x34, 0x12] := by decide
-- writing the byte an unlisted address reads as removes the entry
theorem test_zero_byte_unlisted : cellSet [(4, 1), (9, 2)] 4 0 = [(9, 2)] := by decide
-- a command for a domain that does not exist (R33: 408 domains) is a fault, the last one is not
theorem test_unknown_domain : exec (.tapWiden 408) State.reset = .fault .noSuchUnit := by rfl

/-! ## Witnesses of the statements about commands -/

theorem witness_MarginStepsComplete :
    (∃ s : State, s.monitored 407 = true ∧ ((0 : Int) ≤ 4 * (s.f F.MGN_CTRL_FLOOR : Int)) ∧ s.f F.MGN_DOM_TAP_CURRENT 407 < 63 ∧ (s.dom 407).held = false) ∧
    (let s := { up with margin := { up.margin with dom := [(0, { held := true })] } };
      s.monitored 0 = true ∧ 4 * (s.f F.MGN_CTRL_WIDEN : Int) ≤ 127 ∧ (s.dom 0).held = true ∧ s.f F.MGN_DOM_TAP_CURRENT 0 < 62) ∧
    (let s := { up with margin := { up.margin with dom := [(0, { widening := true })] } };
      (s.dom 0).widening = true ∧ (s.dom 0).held = false ∧ s.f F.MGN_CTRL_AUTO_WIDEN = 1 ∧ s.examined 0 = false ∧ s.fS F.MGN_DOM_SLACK_NOW 0 < 4 * (s.f F.MGN_CTRL_TARGET : Int)) ∧
    (let s := w [(F.MGN_CTRL_AUTO_RELAX, 1, 0), (F.MGN_DOM_TAP_CURRENT, 63, 0), (F.MGN_DOM_TAP_PLANNED, 1, 0), (F.MGN_DOM_SLACK_NOW, 127, 0), (F.PWR_RAIL_SET_MV, 850, 0)];
      s.mayRelax 0 = true ∧ s.relaxRaises 0 = false) := by
  refine ⟨⟨up, ?_⟩, ?_⟩ <;> decide

theorem witness_MarginRegistersComplete :
    (let s := w [(F.WNG_STATUS_STATE, 1, 0)];
      let t := { s with eye := { s.eye with sweeps := [{ wing := 0, arr := 0, running := true }] } };
      t.wingState 0 = 1 ∧ (t.dom 0).held = false ∧ (∃ x ∈ t.eye.sweeps, x.running = true ∧ x.wing = 0)) ∧
    up.wingState 0 ≠ 1 ∧ up.quiet = true ∧
    bitsAt 0 16 8 ≤ bitsAt 0 24 8 ∧
    (let v := 6 * 2 ^ 8 + 3 * 2 ^ 16 + 2 * 2 ^ 24 + 7 * 2 ^ 32; 1 ≤ bitsAt v 24 8 ∧ bitsAt v 24 8 < bitsAt v 16 8 ∧ bitsAt v 16 8 < bitsAt v 8 8 ∧ 6 ≤ bitsAt v 8 8 ∧
      bitsAt v 8 8 < bitsAt v 32 8) := by decide

theorem witness_MarginPassesComplete :
    (let s := { up with margin := { up.margin with dom := [(407, { held := true })] } }; (s.dom 407).held = true ∧ s.f F.MGN_DOM_TAP_EXHAUSTED 407 = 0) ∧
    (let s := w [(F.MGN_TEMPER_DOMAIN, 407, 0)]; s.margin.temper = none ∧ s.f F.MGN_TEMPER_MODE = 0 ∧ s.f F.MGN_TEMPER_DOMAIN ≤ 407) ∧
    (let s := w [(F.MGN_TEMPER_PERIOD_H, 1, 0)]; s.margin.temper = none ∧ s.f F.MGN_TEMPER_PERIOD_H ≠ 0 ∧ s.stage = 13) ∧
    (let s := w [(F.MGN_DOM_TAP_CURRENT, 63, 5), (F.MGN_DOM_TAP_PLANNED, 55, 5)]; s.f F.MGN_DOM_TAP_PLANNED 5 + 8 ≤ s.f F.MGN_DOM_TAP_CURRENT 5) ∧
    (let s := { up with margin := { up.margin with temper := some ⟨2, [6, 7, 0], []⟩ }, wings := [(1, { jobs := [.vec { q := 0, seq := 0, blk := {}, pat := [] }] })] };
      (∃ t, s.margin.temper = some t ∧ t.head.bind domWing = some 1 ∧ ∃ d ∈ t.todo, domWing d = some 1) ∧ (s.wing 1).jobs ≠ []) ∧
    (let s := { w [(F.WNG_STATUS_STATE, 1, 1)] with margin := { up.margin with temper := some ⟨2, [6], []⟩ } };
      s.examined 6 = true ∧ max (s.planCode 6 100) (max (s.f F.MGN_DOM_TAP_FACTORY 6 : Int) ((s.f F.MGN_DOM_TAP_PLANNED 6 : Int) - s.f F.MGN_CTRL_NARROW_LIMIT)) ≤ 63) := by
  refine ⟨?_, ?_, ?_, ?_, ⟨⟨_, rfl, ?_⟩, ?_⟩, ?_⟩ <;> decide
theorem witness_EyeSourcesComplete :
    (srcDef (srcOf 0 5)).isSome = true ∧ srcOf 0 5 ≠ srcOf 83 12 ∧ up.f F.EYE_SRC_STAT_ASSERTED (srcOf 0 5) = 0 ∧ up.f F.EYE_SRC_STAT_LATCHED 5 = 0 ∧
    (w [(F.EYE_SRC_STAT_QUIET, 1, 5)]).f F.EYE_SRC_STAT_QUIET 5 = 1 ∧ pinAllowed 5 0 = true := by decide
theorem witness_EyeRestComplete :
    up.eye.log.length < 32768 ∧ 2 ≤ up.stage ∧ up.boot.trial.contains 0 = false ∧ up.f F.EYE_SRC_STAT_ASSERTED (srcOf 83 8) = 0 ∧
    (w [(F.EYE_KICK_OS_MS, 1, 0)]).f F.EYE_KICK_OS_MS ≠ 0 ∧ ({ up with fuses := { lcs := 4 } } : State).lcs = 4 ∧
    (let s := { w [(F.THM_SENS_TEMP, 500, 3), (F.PWR_RAIL_SET_MV, 700, 0)] with eye := { up.eye with stress := [((3, 2), ⟨530, 710⟩)] } }; s.atStress 3 2 = true) := by decide
theorem witness_PowerStatesComplete :
    (let s := fs [(F.PWR_STATE_STATE, 1, 0)] { State.reset with pw := { step := 1 } };
      s.pwrState = 1 ∧ s.pw.step = 1 ∧ (powerSteps.getD 0 []) ≠ [] ∧ mainRails ≠ []) ∧
    up.pwrState = 2 ∧ 11 ≤ up.stage ∧ up.stage ≤ 13 ∧ up.pins.vstby = true ∧ (w [(F.PWR_STATE_STATE, 3, 0)]).pwrState = 3 ∧
    (let s := fs [(F.PWR_CTRL_AUTO_RESTART, 1, 0), (F.PWR_STATE_STATE, 4, 0), (F.PWR_IN_VIN_MV, 48000, 0)] State.reset; s.f F.PWR_CTRL_AUTO_RESTART = 1 ∧ s.pwrState = 4 ∧ s.restartOk = true) := by decide

theorem witness_PatternStepsComplete :
    (let i : Insn := ⟨.add, 1, 2, 3, 0, 0, 0⟩; let r : VecRun := { q := 0, seq := 0, blk := { redOp := 1 }, pat := [i, i] };
      let s := { up with wings := [(63, { run := some r })] };
      (s.wing 63).run = some r ∧ r.patDone = false ∧ r.pat[r.pc]? = some i ∧ s.runHeld 63 r i = false ∧ r.pc + 1 < r.pat.length ∧
      ({ r with pc := 1 } : VecRun).pat.length ≤ 2 ∧ r.chunks ≤ r.chunk + 1 ∧ r.blk.redOp ≠ 0) ∧
    ({ q := 0, seq := 0, blk := { ncol := 128, rows := 128 }, pat := [] } : VecRun).chunks > 1 := by decide
theorem witness_QueueControlComplete :
    up.f F.QE_Q_TAIL_TAIL 255 ≤ 1 ∧ 1 ≤ up.f F.QE_Q_RHEAD_RHEAD 255 + up.qSize 255 ∧ up.quiet = true ∧ up.qState 255 = qDisabled ∧
    (w [(F.QE_Q_STATE_STATE, 3, 255)]).qState 255 = qDraining ∧ (w [(F.QE_Q_STATE_STATE, 1, 255)]).qState 255 = qRunning ∧
    (w [(F.QE_Q_STATE_STATE, 4, 255)]).qState 255 = qStopped ∧ up.f F.QE_Q_HEAD_HEAD 255 = up.f F.QE_Q_TAIL_TAIL 255 ∧
    (let s := { w [(F.QE_Q_STATE_STATE, 3, 255)] with qe := { up.qe with q := [(255, { drain := some (2, 0) })] } }; (s.qx 255).drain = some (2, 0)) ∧
    (let s := queued [(F.QE_Q_CFG_WAIT_MS, 1, 0)] [1, 0, 0, 0, 0, 0, 0, 0];
      s.f F.QE_Q_CFG_WAIT_MS 0 ≠ 0 ∧ s.canDispatch 0 = true ∧ s.headHeld 0 (s.readPkt 0 (s.f F.QE_Q_HEAD_HEAD 0)) = true) := by decide
theorem headReady (s : State) (q op : Nat) (h : (decide (s.cmd q (s.f F.QE_Q_HEAD_HEAD q) = none) && s.canDispatch q && decide (hdr (s.readPkt q (s.f F.QE_Q_HEAD_HEAD q)) 0 8 = op) &&
    !s.headHeld q (s.readPkt q (s.f F.QE_Q_HEAD_HEAD q)) && s.inHbm (s.slotAddr q (s.f F.QE_Q_HEAD_HEAD q)) 64 && s.readNow (s.slotAddr q (s.f F.QE_Q_HEAD_HEAD q)) 64 0 &&
    !s.ctrlHeld q (s.readPkt q (s.f F.QE_Q_HEAD_HEAD q)) && !(s.checkRead (s.slotAddr q (s.f F.QE_Q_HEAD_HEAD q)) 64 0x80 atCmd).poisoned (s.slotAddr q (s.f F.QE_Q_HEAD_HEAD q)) 64) = true) :
    HeadReady s q op := by
  simp only [Bool.and_eq_true, decide_eq_true_eq, Bool.not_eq_true'] at h
  exact ⟨h.1.1.1.1.1.1.1, h.1.1.1.1.1.1.2, h.1.1.1.1.1.2, h.1.1.1.1.2, h.1.1.1.2, h.1.1.2, h.1.2, h.2⟩
/-- The decoding of a MATMUL or VEC_RUN accepts its fields. -/
def accepted {α : Type} (z : State × Decoded α) : Bool := !z.2.uncorr && match z.2.res with | .ok _ => true | .error _ => false
/-- Wing 0 READY, with the edge of its Flask up. -/
def ready : List (Fld × Nat × Nat) := [(F.WNG_STATUS_STATE, 2, 0), (F.FLK_D2D_STATUS_MODE, 1, 0), (F.FLK_D2D_STATUS_ACTIVE_I2F, 64, 0), (F.FLK_D2D_STATUS_ACTIVE_F2I, 64, 0)]
theorem witness_DispatchComplete :
    HeadReady (queued [] [0, 0, 0, 0, 0, 0, 0, 0]) 0 0 ∧ HeadReady (queued ready [1, 0, 0x4033, 0, 0, 0, 0, 0]) 0 1 ∧
    HeadReady (queued ready [2, 0, 0x10001000, 0, 0, 0, 0, 0]) 0 2 ∧
    (queued ready [1, 0, 0x4033, 0, 0, 0, 0, 0]).f F.QE_Q_STATE_INFLIGHT 0 < 16 ∧
    (let s := queued ready [1, 0, 0x4033, 0, 0, 0, 0, 0]; let z := (Taken s 0).1.decodeMat 0 0 0 (s.readPkt 0 0); accepted z = true ∧ z.1.wingState 0 = 2) ∧
    (let s := queued ready [2, 0, 0x10001000, 0, 0, 0, 0, 0]; let z := (Taken s 0).1.decodeVec 0 0 0 (s.readPkt 0 0); accepted z = true ∧ z.1.wingState 0 = 2) := by
  refine ⟨headReady _ _ _ ?_, headReady _ _ _ ?_, headReady _ _ _ ?_, ?_, ?_, ?_⟩ <;> decide
theorem witness_UnitCommandsComplete :
    (let p := [0x08, 0, 0x10001000, 0x10004000, 64, 0, 0, 0]; let s := queued [] p; let t := Taken s 0;
      let z := t.1.note (atUnit t.2 (0x40 + t.1.copyFlask (copyArgs p).1.src)) (copyArgs p).2;
      HeadReady s 0 0x08 ∧ z.1.copyRefuse (copyArgs p).1 = none ∧ z.1.commitReady 0 0 = true) ∧
    (let p := [0x10, 0, 0x0003000010001000, 1, 0x10004000, 0, 0, 0]; let s := queued [] p; let t := Taken s 0; let z := t.1.note t.2 (turnClamp p).2;
      HeadReady s 0 0x10 ∧ z.1.turnRefuse p (turnClamp p).1 = none ∧ z.1.commitReady 0 0 = true) ∧
    (let p := [0x11, 0, 4, 0x10001000, 128, 0, 0, 0]; let s := queued [] p; let x := ladleArgs p; let t := Taken s 0; let z := t.1.note t.2 x.2;
      HeadReady s 0 0x11 ∧ z.1.ladleRefuse x.1.1 x.1.2.2.1 x.1.2.2.2 = none ∧ z.1.commitReady 0 0 = true) := by
  refine ⟨⟨headReady _ _ _ ?_, ?_⟩, ⟨headReady _ _ _ ?_, ?_⟩, headReady _ _ _ ?_, ?_⟩ <;> decide
theorem witness_FabricCommandsComplete :
    HeadReady (queued [] [0x18, 0, 0, 0, 0, 0, 0, 0]) 0 0x18 ∧ HeadReady (queued [] [0x28, 0, 0, 0, 0, 0, 0, 0]) 0 0x28 ∧
    HeadReady (queued [] [0x29, 0, 1, 0, 0, 0, 0, 0]) 0 0x29 ∧ HeadReady (queued [] [0x19, 0, 0, 0, 0, 0, 0, 0]) 0 0x19 := by
  refine ⟨headReady _ _ _ ?_, headReady _ _ _ ?_, headReady _ _ _ ?_, headReady _ _ _ ?_⟩ <;> decide
/-- A command record. -/
def cmd0 : Cmd := { q := 255, seq := 0, pkt := [0x1100, 0, 0, 0, 0, 0, 0, 0] }
theorem witness_QueueStagesComplete :
    (let b : Blk := {}; let r : VecRun := { q := 255, seq := 0, blk := b, pat := [], patDone := true, unitDone := true };
      let x : VecJob := { q := 255, seq := 0, blk := b, pat := [] };
      let s := { up with qe := { up.qe with cmds := [{ cmd0 with wing := some 3 }] }, wings := [(3, { jobs := [.vec x], run := some r })] };
      s.cmd 255 0 = some { cmd0 with wing := some 3 } ∧ (s.wing 3).run = some r ∧ s.commitReady 255 0 = true ∧ s.outsHeld 3 r = false ∧ s.claimOuts r.outs = (s, true) ∧
      (s.wing 3).jobs.find? (fun j => j.key = (255, 0)) = some (.vec x)) ∧
    (let c := { cmd0 with execDone := true, noOutputs := true }; let s := { up with qe := { up.qe with cmds := [c] } };
      s.cmd 255 0 = some c ∧ c.dispatched = true ∧ c.retired = false ∧ c.op ≠ 0x28 ∧ s.turnJob 255 0 = none) ∧
    (let c := { cmd0 with wing := some 3 };
      let s := { up with qe := { up.qe with cmds := [c] }, wings := [(3, { jobs := [.vec { q := 255, seq := 0, blk := {}, pat := [], done := true, flags := 2 }] })] };
      s.wingDone 3 255 0 = some (2, false)) ∧
    (let c := { cmd0 with retired := true }; let s := { fs [(F.QE_Q_RPL_BASE_BASE, 0x10000000, 255), (F.FLK_MEM_STACK_STAT_STATE, 2, 0)] up with qe := { up.qe with cmds := [c] } };
      c.signals = true ∧ s.orderedBefore 255 0 = false ∧ (s.qx 255).written = 0 ∧ s.inWindow 0x10000000 = false ∧ s.inHbm 0x10000000 32 = true ∧ s.writeNow 0x10000000 32 = true) := by
  decide
theorem witness_WingServiceComplete :
    (w [(F.WNG_STATUS_STATE, 1, 63)]).wingState 63 = 1 ∧ (w [(F.WNG_STATUS_STATE, 3, 63)]).wingState 63 = 3 ∧
    (let s := { up with qe := { up.qe with replay := [(63, [])], adopt := [⟨63, 0, [], []⟩] } };
      s.qe.replay.find? (fun p => p.1 == 63) = some (63, []) ∧ s.qe.adopt.find? (fun a => a.failed == 63) = some ⟨63, 0, [], []⟩) ∧
    (w [(F.WNG_STATUS_STATE, 2, 0)]).wingState 0 = 2 := by decide

/-- An INT8 MATMUL of one row, one column of array 3 and depth 64. -/
def mat0 : MatJob := { q := 0, seq := 0, mode := ⟨.int8, .int8, 64, 64, 64, true, 0, 0, 2048⟩, mask := 8, acc := 0, aload := true, abuf := 0, wide := false, rows := 1, depth := 64,
                       colBase := 63, ncol := 1, streams := [0, 0, 0, 0], atile := 0, astride := 1, groups := 1, outStride := 0 }
/-- A wing 63 at work. -/
def wing63 (v : WingSt) : State := { w [(F.WNG_STATUS_STATE, 3, 63)] with wings := [(63, v)] }
theorem witness_WingStepsComplete :
    (let s := wing63 { jobs := [.mat mat0] }; s.loadReady 63 mat0 = true) ∧
    (let m := { mat0 with loaded := true }; let t : Tile := ⟨.int8, 1, 64, [], 1, []⟩;
      let s := wing63 { jobs := [.mat m], half0 := some t, fifo := [[], [], [], List.replicate 64 0] };
      (s.wing 63).stepJob = some m ∧ s.stepReady 63 m = true ∧ (s.wing 63).tileFor m = some t) ∧
    (let m := { mat0 with epi := some ({}, []) }; let s := wing63 { jobs := [.mat m] }; (s.wing 63).run = none ∧ s.held 382 = false ∧ s.held 383 = false ∧
      (match (s.wing 63).vecTurn with | some (.epi _ _ _) => true | _ => false) = true) ∧
    (let r : VecRun := { q := 0, seq := 0, blk := {}, pat := [], patDone := true }; let s := wing63 { run := some r }; (s.wing 63).run = some r ∧ r.unitDone = false) := by decide
theorem witness_WingEventsComplete :
    (let s := wing63 { jobs := [.mat mat0], fifo := [[], [], [], List.replicate 64 0] };
      (s.wing 63).stepJob = some mat0 ∧ s.wingState 63 = 3 ∧ (∀ k ∈ mat0.arrs, mat0.mode.wBytes ≤ ((s.wing 63).fifo.getD k []).length) ∧ (∀ k, k < 4 → s.held (6 * 63 + k) = false)) ∧
    (let s := w [(F.WNG_STATUS_STATE, 5, 63), (F.WNG_STATUS_OUT_CAUSE, 1, 63)]; s.wingState 63 = 5 ∧ s.f F.WNG_STATUS_OUT_CAUSE 63 = 1 ∧ s.f F.WNG_ARR_STAT_FENCED 63 3 = 0) ∧
    (let s := { w [(F.WNG_STATUS_STATE, 4, 63), (F.WNG_BIST_BUSY, 1, 63)] with wings := [(63, { bistRet := 5 })] }; s.f F.WNG_BIST_BUSY 63 = 1 ∧ (s.wing 63).bistRet < 8) ∧
    (let s := { up with wings := [(63, { tr := [((127, 63), 9)] })] }; s.wingState 63 = 0 ∧ mget (s.wing 63).tr (0x7FFC % 512 / 4, 0x7FFC / 512) = some 9) := by decide
theorem witness_RunnerComplete :
    (up.streamOk 4095 = false) ∧
    (let r : Recv := ⟨63, [0], 64, 0, 0, 0⟩; let x : Inst := { id := 5, desc := 4095, unicast := false, set := [63], recv := [r] };
      let s := { w [(F.RUN_STREAM_SRC_VALID, 1, 4095)] with insts := [x] };
      s.forming 4095 (fun x => x.recv.any fun r => r.w == 63) = some x ∧ s.inst 5 = some x ∧ s.instReady x = true ∧ s.f F.RUN_STREAM_SRC_SRC_KIND 4095 = 0 ∧
      ({ s with insts := [{ x with set := [62, 63] }] } : State).instReady { x with set := [62, 63] } = false) ∧
    (let r : Recv := ⟨0, [0], 64, 0, 0, 0⟩; let x : Inst := { id := 5, desc := 1, unicast := true, isOpen := true, src := 0x10000000, len := 64, rowBytes := 64, rowPitch := 64, recv := [r] };
      let s := { w [(F.FLK_D2D_STATUS_MODE, 1, 0), (F.FLK_D2D_STATUS_ACTIVE_I2F, 64, 0), (F.FLK_D2D_STATUS_ACTIVE_F2I, 64, 0), (F.FLK_MEM_STACK_STAT_STATE, 2, 0)] with insts := [x] };
      s.slabNext x = some (0, [r]) ∧ s.slabRoom x 0 64 [r] = true ∧ s.slabSource x (streamAddr x.src x.len x.rowBytes x.rowPitch 0) 64 = true) ∧
    up.tileUp 63 = true ∧ up.held 383 = false ∧ up.f F.EYE_INJ_CTRL_ARMED = 0 := by decide
theorem witness_MemoryComplete :
    (let s := { w [(F.CRU_BOOT_STAGE, 6, 0), (F.EYE_SRC_STAT_ASSERTED, 1, srcOf 69 8), (F.FLK_MEM_QUAL_FAIL_ID, 1, 3)] with fuses := { lcs := 1 } };
      s.lcs = 1 ∧ s.stage = 6 ∧ s.f F.EYE_SRC_STAT_ASSERTED (srcOf 69 8) = 1 ∧ s.f F.FLK_MEM_QUAL_FAIL_ID 3 = 1 ∧ s.f F.FLK_MEM_QUAL_PASS 3 ∉ [14, 15]) ∧
    (let s := { up with ms := { up.ms with ladle := [⟨0x200000, true, true, false, false, false⟩] } };
      oneLine 0x10000000 128 = true ∧ s.lineBacked 0x10000000 128 .sp = true ∧ s.ladlePace 0x10000000 128 = true ∧ (∀ x ∈ sectorsOf 0x10000000 128, s.ladleGood x = true)) ∧
    (∃ x ∈ sectorsOf 0x10000000 128, up.ladleGood x = false) ∧
    (let s := w [(F.FLK_MEM_STACK_STAT_STATE, 2, 0)]; s.inWindow 0x10000000 = false ∧ s.writeNow 0x10000000 1 = true ∧ s.lostAt 0x10000000 = false ∧
      up.writeNow 0x10000000 1 = false ∧
      (let r : Fetch := ⟨0x10000000, 64, 0, 0, none⟩; ({ s with ms := { s.ms with fetch := [] } } : State).readNow r.addr r.len r.hint = true)) := by decide
theorem witness_StackServiceComplete :
    (w [(F.FLK_MEM_STACK_STAT_STATE, 2, 15)]).stackOn 15 = true ∧ up.stage ≠ 4 ∧ (let s := w [(F.FLK_MEM_STACK_STAT_STATE, 2, 15), (F.FLK_MEM_CTRL_SCRUB_EN, 1, 3)]; s.f F.FLK_MEM_CTRL_SCRUB_EN (15 / 4) = 1) ∧
    (let s := w [(F.FLK_MEM_STACK_STAT_STATE, 1, 15), (F.THM_SENS_TEMP, 950, 89)]; s.f F.FLK_MEM_STACK_STAT_STATE 15 = 1 ∧ 950 ≤ s.fS F.THM_SENS_TEMP (74 + 15)) := by decide
set_option maxRecDepth 20000 in
theorem witness_DieLinksComplete :
    (let s := w [(F.FLK_D2D_STATUS_MODE, 1, 3), (F.FLK_D2D_SLICE_ACTIVE, 1, 3)];
      let s := (s.setF F.FLK_D2D_SLICE_ACTIVE 1 3 63).setF F.FLK_D2D_SLICE_ACTIVE 1 3 127; let z := s.drainRx 3 0;
      s.sliceOn 3 0 63 = true ∧ s.linkPasses 3 = true ∧ 4 ∈ linkClasses 3 ∧ s.rxHeld 3 0 = false ∧ (z.d2dCls 3 0 4).known 0 = false ∧ (z.maySend 3 0 4 0 []).isSome = true ∧
      (z.d2dCls 3 0 4).expect = 0 ∧ s.f F.EYE_INJ_CTRL_TARGET ≠ 3) ∧
    frameArrives 12 (List.replicate 64 0) 0 false = (12, List.replicate 64 0, true) ∧
    (let s := { w [(F.FLK_D2D_STATUS_MODE, 3, 3)] with d2d := { up.d2d with edge := [(3, { fromMode := 2, slices := [127] })] } };
      s.f F.FLK_D2D_STATUS_MODE 3 = 3 ∧ (s.edge 3).retraining = false ∧ s.edgeDrained 3 = true ∧ (s.edge 3).fromMode = 2 ∧ (s.edge 3).slices.head? = some 127) := by decide

/-- Port 15 with this state. -/
def port15 (l : List (Fld × Nat × Nat)) (x : PortSt) : State := { w l with le := { up.le with port := [(15, x)] } }
theorem witness_LightRingsComplete :
    (w [(F.LE_COMB_HEALTH_I0, 100, 7)]).f F.LE_COMB_HEALTH_I0 7 0 ≠ 0 ∧ (let s := w [(F.LE_COMB_HEALTH_STATE, 3, 7), (F.LE_LINEPWR_FAILED, 0, 7), (F.LE_THRESH_LINE_MIN, 5, 7), (F.LE_CTRL_AUTO_LINE, 0, 7), (F.LE_CTRL_AUTO_COMB, 0, 7)];
      s.combState 7 0 ∈ [1, 2, 3] ∧ s.combState 7 (s.activeComb 7) = cActive ∧ s.fS (linePwr (s.activeComb 7)) 7 17 < s.fS F.LE_THRESH_LINE_MIN 7 ∧ s.f F.LE_LINEPWR_FAILED 7 17 = 0 ∧
      s.f F.LE_CTRL_AUTO_LINE 7 = 0 ∧ s.f F.LE_CTRL_AUTO_COMB 7 = 0) ∧
    (w [(F.LE_PORT_RING_LOCKED, 1, 15)]).f F.LE_PORT_RING_LOCKED 15 0 = 1 ∧ up.laneOf 15 17 = none ∧ (w [(F.LE_PORT_STATUS_STATE, 3, 15)]).laneOf 15 0 = some 0 ∧
    (let s := w [(F.LE_PORT_STATUS_STATE, 1, 15), (F.LE_COMB_HEALTH_STATE, 1, 7)]; s.portState 15 = pAcquire ∧ s.combState 7 (s.activeComb 7) = cWarming ∧ s.f F.LE_PORT_CTRL_DISABLE 15 = 0) ∧
    (let s := w [(F.LE_PORT_STATUS_STATE, 2, 15)]; s.portState 15 = pTrain ∧ (∀ k, k < 16 → s.laneLine 15 k < 18) ∧ s.f F.LE_PORT_CTRL_MIN_LANES 15 ≤ 16) := by decide
theorem witness_LineSwapsComplete :
    (let s := port15 [(F.LE_PORT_STATUS_STATE, 3, 15)] {}; (s.port 15).seen ≠ some 1 ∧ (s.port 15).tx = none ∧ s.laneLine 15 15 ≠ 0x1F ∧ 17 ∈ s.spares 15 ∧ s.portState 15 = pUp) ∧
    (let w2 : LSwap := { lane := 15, line := 15, spare := 17, stage := 2 }; let s := port15 [] { rx := some w2 }; (s.port 15).rx = some w2 ∧ w2.lane < 16 ∧ w2.spare < 18 ∧ (s.port 15).queue = []) ∧
    (let w2 : LSwap := { lane := 15, line := 15, spare := 17, stage := 1, own := false }; let s := port15 [] { tx := some w2, rx := some w2 }; (s.port 15).tx = some w2 ∧ w2.own = false ∧ (s.port 15).cutAfter = false) ∧
    (port15 [] { stripe := some ([0], 9) }).port 15 = { stripe := some ([0], 9) } ∧ (w [(F.LE_PORT_STATUS_PEER_VALID, 1, 15)]).f F.LE_PORT_STATUS_PEER_VALID 15 = 1 := by decide
theorem witness_LightPortsComplete :
    (let s := w [(F.LE_CTRL_ENABLE, 1, 7)]; mget s.le.swap 7 = none ∧ s.f F.LE_CTRL_ENABLE 7 = 1 ∧ s.combState 7 (1 - s.activeComb 7) = cOff ∧ s.activeComb 7 < 2 ∧ 0 ≤ s.fS F.LE_STATUS_TEMP_C 7) ∧
    (let s := (w []).setF F.LE_COMB_HEALTH_STATE 1 7 1; s.combState 7 1 = cWarming ∧ 1 ≠ s.activeComb 7) ∧
    (let s := { up with le := { up.le with swap := [(7, { comb := 1, requested := true })] } }; mget s.le.swap 7 = some { comb := 1, requested := true }) ∧
    (let s := port15 [(F.LE_PORT_STATUS_STATE, 3, 15)] { cswap := some 3 }; (s.port 15).cswap.isSome = true ∧ mget s.le.swap 7 = none ∧ s.portState 15 = pUp ∧ s.swapsDone 15 = true) ∧
    (w [(F.LE_PORT_STATUS_STATE, 6, 15), (F.LE_PORT_STATUS_STATE, 6, 14)]).portState 15 = pDisabled ∧ (w [(F.LE_PORT_STATUS_STATE, 5, 15)]).portState 15 = pDraining ∧
    (w [(F.CRU_BOOT_STAGE, 3, 0)]).stage < 4 ∧ (w [(F.LE_CTRL_ENABLE, 0, 7)]).f F.LE_CTRL_ENABLE 7 = 0 ∧ up.f F.LE_CTRL_ENABLE 7 = 1 := by decide
theorem witness_FabricLinksComplete :
    (let s := w [(F.LE_PORT_STATUS_STATE, 3, 15)]; s.carries 15 = true ∧ s.phyRoom 15 = true ∧ (s.link 15).expect = 0 ∧ (s.link 15).resends + 1 < 16) ∧
    (let c : Cell := { kind := 1, dst := 0 }; let s := { w [(F.FAB_CTRL_ENABLE, 1, 0), (F.FAB_RT_CTRL_STATE0, 3, 0)] with fab := { up.fab with link := [(15, { rx := [⟨7, 1, c⟩] })] } };
      (s.link 15).rx.find? (fun u => u.vc == 7) = some ⟨7, 1, c⟩ ∧ c.mc = false ∧ addrRack c.dst = s.rackNo ∧ addrLocal c.dst = s.localIdx ∧ addrFunc c.dst < 2 ∧ s.bankState c.epoch ∈ [2, 3, 4]) ∧
    (w [(F.FAB_PORT_STAT_CHECK, 4, 15)]).f F.FAB_PORT_STAT_CHECK 15 ∈ [2, 3, 4] ∧
    (let s := w [(F.LE_PORT_STATUS_PEER_VALID, 1, 15), (F.FAB_PORT_EXPECT_PLANNED, 1, 15), (F.LE_PORT_STATUS_PEER, 4, 15), (F.FAB_PORT_EXPECT_PEER, 4, 15)];
      s.f F.LE_PORT_STATUS_PEER 15 = s.f F.FAB_PORT_EXPECT_PEER 15 ∧ s.f F.LE_PORT_STATUS_PEER_PORT 15 = s.f F.FAB_PORT_EXPECT_PEER_PORT 15 ∧ s.f F.LE_PORT_STATUS_PEER 15 / 4 ≠ s.self / 4) := by decide
theorem witness_FabricTablesComplete :
    (w [(F.FAB_RT_CTRL_STATE1, 0, 0)]).bankState 1 = 0 ∧ (w [(F.FAB_RT_CTRL_STATE1, 1, 0)]).bankState 1 = 1 ∧ (w [(F.FAB_RT_CTRL_STATE1, 2, 0)]).bankState 1 = 2 ∧
    (w [(F.FAB_RT_CTRL_STATE1, 4, 0)]).bankState 1 = 4 ∧ up.f F.FAB_RT_CTRL_CUR < 2 ∧ up.f F.FAB_RT_OCC_OCC1 = 0 ∧ up.f F.FAB_CTRL_ENABLE = 0 ∧
    (w [(F.FAB_ADDR_RACK_VALID, 1, 0)]).f F.FAB_ADDR_RACK_VALID = 1 ∧
    (let c : Cmd := { q := 255, seq := 0, pkt := [0x19, 0, 0x110004, 5, 0, 0, 0, 0] }; let t := (4, 0, 9); let j : FenceJob := ⟨255, 0, [t]⟩;
      let s := { up with qe := { up.qe with cmds := [c] }, fab := { up.fab with fences := [j], tx := [(4, { inc := 0, cls := [(0, { next := 20, unacked := [⟨{ seq := 8 }, .none⟩] })] })] } };
      s.fab.fences.find? (fun j => j.q == 255 && j.seq == 0) = some j ∧ s.cmd 255 0 = some c ∧ (fenceArgs c.pkt).1.limit ≠ 0 ∧ j.targets.find? (fun t => !s.fencePast t) = some t) := by decide
theorem witness_EndToEndComplete :
    (let x : Cell := { cls := 3, kind := 1, src := 4, inc := 2, seq := 7 }; let s := { up with fab := { up.fab with eject := [x], rx := [((4, 3, 0), ⟨2, 7, 1⟩)] } };
      s.fab.eject.find? (fun x => x.cls == 3) = some x ∧ mget s.fab.rx (4, 3, 0) = some ⟨2, 7, 1⟩ ∧ 256 ≤ (0 + 4095 - 3839) % 4096) ∧
    (let z : TxCell := ⟨{ seq := 5 }, .none⟩; let y : TxCls := { next := 6, unacked := [z] }; let e : TxEnt := { inc := 2, cls := [(0, y)] };
      let s := { up with fab := { up.fab with tx := [(4, e)], eject := [{ cls := 3, kind := 2, src := 4, inc := 2, seq := 6, payload := [0, 0, 0] }] } };
      mget s.fab.tx 4 = some e ∧ mget e.cls 0 = some y ∧ (y.unacked.filter fun z => !ackedBy 6 z.cell).length ≠ y.unacked.length) := by decide

/-- A module of slot 0 in state 2 of its tray, module 7 joined, stack 0 READY. -/
def inTray : List (Fld × Nat × Nat) := [(F.TRY_STATUS_STATE, 2, 0), (F.TRY_STATUS_PEERS, 128, 0), (F.FLK_MEM_STACK_STAT_STATE, 2, 0)]
/-- The tray address of byte 0x10000000 of module `m`. -/
def trayAt (m : Nat) : Nat := trayBase + m * traySpan + 0x10000000
theorem witness_TrayAccessesComplete :
    (let s := w inTray; s.inHbm 0x10000000 8 = true ∧ s.readNow 0x10000000 8 0 = true ∧ s.writeNow 0x10000000 8 = true ∧ (s.checkRead 0x10000000 8 (Master.mk 0 15).code atRead).poisoned 0x10000000 8 = false ∧
      (∀ g ∈ gransOf 0x10000000 8, s.dirEnt g = none ∧ s.tray.recalls.find? (fun r => r.gran == g) = none) ∧
      trayOf (trayAt 7) = some (7, 0x10000000) ∧ 7 ≠ s.slotNo ∧ s.trayOpen 7 0x10000000 8 = true ∧ trayOf (trayAt 0) = some (s.slotNo, 0x10000000) ∧ (amoCode .cas).isSome = true ∧
      s.hartQuiet 15 = true ∧ s.inWindow 0x10000000 = false) ∧
    (let s := { up with tray := { up.tray with reqs := [{ slot := 7, tag := 0, hart := 15, kind := 2, addr := 0, n := 8 }] } }; s.hartQuiet 15 = false) ∧
    (let s := { w (inTray ++ [(F.TRY_WIN_BASE_G, 0, 0), (F.TRY_WIN_SIZE_G, 1, 0)]) with resv := [(15, granOf 0x10000000)] }; s.inWindow 0x10000000 = true ∧ s.readNow 0x10000000 8 0 = true ∧
      s.resv.contains (15, granOf 0x10000000) = true ∧
      ((s.dirPut ⟨granOf 0x10000000, [], some s.slotNo, 0⟩).checkRead 0x10000000 8 (Master.mk 0 15).code atAtomic).poisoned 0x10000000 8 = false) := by decide
theorem witness_TrayMembershipComplete :
    (let s := w [(F.FAB_CTRL_ENABLE, 1, 0)]; s.f F.FAB_CTRL_ENABLE = 1 ∧ s.trayState = 0) ∧ (w [(F.TRY_STATUS_STATE, 2, 0)]).trayState = 2 ∧
    (let s := w [(F.TRY_STATUS_STATE, 3, 0)]; s.trayState = 3 ∧ s.fab.inbox = [] ∧ s.fab.tx = [] ∧ s.tray.reqs = [] ∧ s.tray.dir = []) ∧
    (bitsAt (2 ^ 16 + 1) 16 5 = 1 ∧ 0x10000000 ≤ bitsAt (2 ^ 16 + 1) 0 10 * 0x40000000 ∧ (bitsAt (2 ^ 16 + 1) 0 10 + 1) * 0x40000000 ≤ up.hbmTop) := by decide
/-- A request cell: OP, number of data cells, SIZE, AOP, then the address. -/
def req (src cls op n aop : Nat) (a : Nat) : Cell := { cls := cls, src := src, payload := [BitVec.ofNat 8 op, 0, 0, 0, BitVec.ofNat 8 n, BitVec.ofNat 8 aop, 0, 0] ++ leBytes 8 a ++ List.replicate 48 0 }
/-- This request waits in the inbox. -/
def asks (l : List (Fld × Nat × Nat)) (c : Cell) (t : TraySt) : State := { w (inTray ++ l) with fab := { up.fab with inbox := [c] }, tray := t }
/-- A request waits with no data cells. -/
def waits (s : State) (c : Cell) (op : Nat) : Bool := decide (s.request c.src c.cls = some (c, [])) && dOp c.payload == op
theorem witness_TrayHomeComplete :
    (let c := req 28 0 1 8 0 0x10000000; let s := asks [] c {}; waits s c 1 = true ∧ s.inTray 28 = true ∧ s.homeCause 28 0x10000000 8 = 0 ∧ s.readNow (s.xlat 0x10000000) 8 0 = true) ∧
    (let c := req 28 0 2 0 0 0x10000000; let s := asks [(F.TRY_WIN_SIZE_G, 1, 0)] c {}; waits s c 2 = true ∧ s.inWindow 0x10000000 = true ∧ s.homeCause 28 0x10000000 128 = 0 ∧ s.readNow 0x10000000 128 0 = true ∧
      s.dirEnt (granOf 0x10000000) = none ∧ s.tray.recalls = [] ∧ s.tray.dir.length < 16) ∧
    (let c := req 28 0 4 8 0 0x10000000; let s := asks [] c {}; waits s c 4 = true ∧ s.homeCause 28 0x10000000 (writeData c []).1.length = 0 ∧ s.writeNow (s.xlat 0x10000000) (writeData c []).1.length = true) ∧
    (let c := req 28 0 6 8 8 0x10000000; let s := asks [] c {}; waits s c 6 = true ∧ dAop c.payload / 8 % 2 = 1 ∧ dAop c.payload % 8 < 6 ∧ s.trayState = 2) ∧
    (let c := req 28 0 7 0 0 0x10000000; let s := asks [] c { dir := [⟨granOf 0x10000000, [], some 7, 0⟩] }; waits s c 7 = true ∧ (s.dirEnt (granOf 0x10000000)).map (·.owner) = some (some (epSlot 28))) ∧
    (let c := req 28 0 9 0 0 0; let s := { w [(F.TRY_STATUS_STATE, 2, 0)] with fab := { up.fab with inbox := [c] } }; waits s c 9 = true ∧ s.joined (epSlot 28) = false ∧ s.tray.recv.contains (epSlot 28) = false) ∧
    (let c := req 28 1 0x82 0 0 0; waits (asks [] c {}) c 0x82 = true) ∧ (let c := req 28 0 11 0 0 0; waits (asks [] c {}) c 11 = true) := by decide
theorem witness_TrayRepliesComplete :
    (let c := req 28 1 0x81 8 0 0; let r : TrayReq := { slot := 7, tag := 0, hart := 15, kind := 3, addr := trayAt 7, n := 8 }; let s := asks [] c { reqs := [r] };
      waits s c 0x81 = true ∧ s.tray.reqs.find? (fun r => r.tag == dTag c.payload && s.slotEp r.slot == 28) = some r ∧ c.poison = false) := by decide
set_option maxRecDepth 20000 in
theorem witness_GroupsComplete :
    (let s := (w [(F.COL_GRP_CFG_N, 1, 255), (F.COL_GRP_LIST_LIST_ADDR, 0x10000000, 255), (F.FAB_ADDR_RACKS, 1, 0)]); s.grpState 255 = 0 ∧ s.grpValid 255 = true) ∧ up.grpValid 255 = false ∧
    (w [(F.COL_GRP_STAT_STATE, 1, 255)]).grpState 255 = 1 ∧ (w [(F.COL_GRP_STAT_STATE, 2, 255)]).grpState 255 = 2 := by decide
/-- A cell of the collective class of kind `k`, GID 0, instance 0. -/
def col (k : Nat) : Cell := { cls := 2, src := 4, payload := [0, 0, 0, 0, BitVec.ofNat 8 k] ++ List.replicate 59 0 }
/-- A begun instance of group 255 with an edge from endpoint 4. -/
def inst0 : ColInst := { q := 255, seq := 0, g := 255, inst := 0, op := 0, sig := 0, begun := true, ins := [⟨4, 0, 0, 0, false, [], false, 0, 0, 0, 0⟩] }
/-- The instance with its command, and this cell staged. -/
def colSt (x : ColInst) (k : Nat) : State :=
  { w [(F.COL_GRP_STAT_STATE, 1, 255)] with coll := { insts := [x] }, fab := { up.fab with inbox := [col k] }, qe := { up.qe with cmds := [{ q := 255, seq := 0, pkt := [0x18, 0, 0, 0, 0, 0, 1, 0] }] } }
theorem witness_CollectiveCellsComplete :
    (∀ k ∈ [0, 1, 2], let s := colSt inst0 k; s.colHead 4 0 (fun _ => true) = some (col k, 255) ∧ cellKind (col k) = k ∧ s.instOf 255 = some inst0 ∧ inst0.begun = true ∧ inst0.inst % 65536 = cellInst (col k) ∧
      inst0.ins.find? (fun e => e.ep == 4 && e.tree == cellTree (col k) && e.dir == cellDir (col k)) ≠ none) ∧
    leNat (((col 0).payload.drop 8).take 8) = inst0.sig ∧ leNat (((col 0).payload.drop 8).take 8) ≠ ({ inst0 with sig := 1 } : ColInst).sig ∧
    (let s := colSt inst0 3; s.colHead 4 0 (fun c => cellKind c == 3) = some (col 3, 255) ∧ cellByte (col 3) 8 ≠ 1 ∧ inst0.op ≠ 15 ∧ (s.cmd 255 0).map (fun c => (c.retired, bitsAt (c.pkt.getD 6 0) 0 32)) = some (false, 1)) ∧
    (let s := { colSt inst0 3 with coll := {} }; s.coll.insts.find? (fun y => y.g == 255 && y.inst % 65536 == cellInst (col 3)) = none ∧ s.instAhead 255 (cellInst (col 3)) = true ∧ (s.grp 255).recs = []) := by decide
theorem witness_ResilienceComplete :
    (let j : ResJob := { q := 255, seq := 0, restore := false, tag := 0, ep := 4, step := 0 };
      let s := { up with res := { up.res with jobs := [j] }, qe := { up.qe with cmds := [{ q := 255, seq := 0, pkt := [0x29, 0, 0, 0, 0, 0, 0, 1] }] } };
      s.res.jobs.find? (fun j => j.q == 255 && j.seq == 0) = some j ∧ (s.cmd 255 0).map (fun c => (c.retired, bitsAt (c.pkt.getD 7 0) 0 32)) = some (false, 1)) ∧
    up.f F.CRU_RES_CTRL_ENABLE = 0 ∧ (let s := w [(F.CRU_RES_CTRL_ENABLE, 1, 0)]; s.f F.CRU_RES_CTRL_ENABLE = 1 ∧ s.f F.CRU_RES_COMMIT_UNRESOLVED = 0) ∧
    (let s := w [(F.FAB_ADDR_RACKS, 129, 0)]; addrFunc 32 = 0 ∧ addrRack 32 < s.racks ∧ 32 / 32 ≠ s.self / 32) := by decide
theorem witness_PowerControlComplete :
    up.pwrState = 2 ∧ up.margin.temper = none ∧ up.f F.PWR_BASK_STATE ≠ 2 ∧
    (let s := w [(F.THM_SENS_TEMP, 1000, 0), (F.PWR_RAIL_THM_REQ_MV, 850, 0)]; 1000 ≤ s.railTj 0 ∧ mget s.pw.dtdt 0 = none ∧ 600 < s.f F.PWR_RAIL_THM_REQ_MV 0) ∧
    (let s := { w [(F.THM_SENS_TEMP, 1000, 0), (F.PWR_RAIL_THM_REQ_MV, 600, 0)] with pw := { up.pw with hold := [(0, 64)] } }; s.f F.PWR_RAIL_THM_REQ_MV 0 ≤ 600 ∧ 0 < mgetD s.pw.hold 0 0) ∧
    (up.railTj 7 < 970 ∧ up.stackHotRail 7 = false ∧ mgetD up.pw.thr 7 850 < 2 ^ 16) ∧
    (let s := w [(F.CRU_BOOT_STAGE, 4, 0), (F.PWR_BASK_STATE, 2, 0)]; s.stage = 4 ∧ s.f F.PWR_BASK_STATE = 2 ∧ s.boot.trial = []) ∧
    (let s := w [(F.PWR_STATE_STATE, 3, 0)]; s.pwrState = 3 ∧ (s.qe.cmds.filter fun c => c.dispatched && !c.retired) = []) := by decide
/-- An open session of an OPERATOR with the READ and WRITE roles. -/
def sess0 : Sess := { id := 7, idx := 0, opened := true, roles := 3, cert := [], transcript := [], keyIn := [], keyOut := [] }
theorem witness_SessionCommandsComplete :
    (let h : MgtHdr := { session := 7, counter := 1 }; let s := { up with fuses := { lcs := 3 }, mgt := { up.mgt with sess := [sess0] } };
      s.keelUp = true ∧ h.version = 1 ∧ s.loaded.1 = false ∧ h.via = none ∧ s.sess h.session = some sess0 ∧ sess0.opened = true ∧ h.tagOk = true ∧ h.lenOk = true ∧
      sess0.cache.find? (fun e => e.1 == h.counter) = none ∧ sess0.last < h.counter ∧ s.lcs ≠ 5 ∧ hasRole sess0.roles 1 = true ∧ s.pwrState = 2 ∧ 2 ≤ s.stage) ∧
    up.sec.xfer = none ∧ ({ cls := 3, total := 4, data := [1, 2, 3, 4] } : Xfer).data.length = 4 := by decide
theorem witness_SessionsComplete :
    (let h : MgtHdr := {}; let s := { w [(F.CRU_TIME_NOW, 1000000000, 0)] with fuses := { lcs := 3 } }; s.keelUp = true ∧ s.loaded.1 = false ∧ h.via = none ∧ h.lenOk = true ∧
      s.mgt.hellos.1 ≠ s.now / 1000000000 ∧ s.clientRoles [] = 0 ∧ s.mgt.sess.length < 64) ∧
    (let x := { sess0 with opened := false }; ({ up with mgt := { up.mgt with sess := [x] } } : State).sess 7 = some x) ∧
    (w [(F.CRU_TIME_STAT_STATE, 1, 0)]).f F.CRU_TIME_STAT_STATE = 1 ∧ up.f F.SEC_ATT_CTRL_BUSY 3 = 0 ∧ up.f F.SEC_LCS_ZEROISING = 0 ∧ (w [(F.SEC_ATT_CTRL_BUSY, 1, 3)]).f F.SEC_ATT_CTRL_BUSY 3 = 1 := by decide
theorem witness_LaneComplete :
    (let c : Cell := { cls := 3, src := 4, payload := [0, 2, 0, 9] ++ List.replicate 60 0 }; let s := { up with fab := { up.fab with inbox := [c] } };
      s.fab.inbox.find? (fun c => c.src == 4 && c.cls == 3) = some c ∧ cellByte c 0 < cellByte c 1 ∧ 1 < cellByte c 1 ∧ s.mgt.frags = []) ∧
    (let s := { w [(F.CRU_MGT_OSQ_ENABLE, 1, 0), (F.CRU_MGT_OSQ_BASE, 0x10000000, 0), (F.FLK_MEM_STACK_STAT_STATE, 2, 0)] with fuses := { lcs := 3 } }; s.keelUp = true ∧ s.osOn = true ∧ s.inHbm 0x10000000 2048 = true ∧
      s.readNow (0x10000000 + s.osSlots * 2048) 64 0 = true) ∧
    up.mgt.addrs.length < 4 ∧ ({ up with fuses := { lcs := 3 } } : State).lcs ≠ 0 ∧ 1 ≤ up.stage ∧ (w [(F.PWR_STATE_STATE, 3, 0)]).pwrState ≠ 2 := by decide
theorem witness_BootComplete :
    (let s := { w [(F.CRU_BOOT_STAGE, 1, 0)] with fuses := { lcs := 3 } }; s.pwrState = 2 ∧ s.stage = 1 ∧ s.lcs ≠ 0 ∧ s.boot.trial = [] ∧ s.pins.resetN = true) ∧
    (w [(F.CRU_BOOT_STAGE, 12, 0)]).stage = 12 ∧ State.reset.pwrState ≠ 2 ∧ State.reset.lcs = 0 := by decide

end Sys2Proof.Tests
end

section
/-! PROOF. The boot's stages and the factory test program (R397 to R399, R432): what the operations of a stage's end leave in the
boot stage, the wings, the poison list and the life cycle, and `BootComplete` from it. -/

namespace Sys2Proof.Machine

/-! ### A stage's end -/

/-- What a fold's body keeps, the fold keeps. -/
theorem foldS_keeps {α σ β : Type} (g : σ → β) {f : α → σ → σ} (hf : ∀ x s, g (f x s) = g s) (xs : List α) (s : σ) :
    g (foldS xs f s) = g s := by
  unfold foldS
  induction xs generalizing s with
  | nil => rfl
  | cons x xs ih => exact (ih _).trans (hf x s)

theorem State.stage_setStage (s : State) {n : Nat} (hn : n < 16) : (s.setStage n).stage = n := by
  have hset : (s.setF F.CRU_BOOT_STAGE n).f F.CRU_BOOT_STAGE = n % 16 := State.f_setF_same _ _ _ _ _ (by decide)
  calc (s.setStage n).stage
    _ = (s.setF F.CRU_BOOT_STAGE n).f F.CRU_BOOT_STAGE := State.f_refreshPins _ _ _ _ (by decide)
    _ = n := by rw [hset, Nat.mod_eq_of_lt hn]

/-- The boot stage stands in CRU_BOOT, the heartbeats in EYE_PIN: other registers read the same in every stage. -/
theorem State.f_setStage (s : State) (n : Nat) (x : Fld) (i j : Nat) (hpin : x.reg ≠ .EYE_PIN) (hboot : .CRU_BOOT ≠ x.reg) :
    (s.setStage n).f x i j = s.f x i j :=
  (State.f_refreshPins _ _ _ _ hpin).trans (State.f_setF_boot _ _ _ _ _ _ rfl (by decide) (by decide) hboot)

theorem State.cause_setStage (s : State) (n : Nat) : (s.setStage n).f F.CRU_BOOT_CAUSE = s.f F.CRU_BOOT_CAUSE :=
  (State.f_refreshPins _ _ _ _ (by decide)).trans (State.f_setF_boot_bits _ _ _ _ rfl rfl (by decide) (by decide))

/-! ### Work acts in its own stage and in power state ON (R399) -/

theorem State.bootAdvance_not_on {s : State} (hp : s.pwrState ≠ 2) (work : BootWork) : s.bootAdvance work = s := if_pos hp

section
variable {s : State} (hp : s.pwrState = 2)
include hp

theorem State.bootAdvance_rom (hs : s.stage = 1) (ok : Bool) : s.bootAdvance (.rom ok) = s.bootRom ok := by
  simp [State.bootAdvance, hp, hs]

theorem State.bootAdvance_fuse (hs : s.stage = 2) : s.bootAdvance .fuse = s.bootFuse := by
  simp [State.bootAdvance, hp, hs]

theorem State.bootAdvance_wings (hs : s.stage = 7) (ws : List WingWork) : s.bootAdvance (.wings ws) = s.bootWings ws := by
  simp [State.bootAdvance, hp, hs]

theorem State.bootAdvance_temper (hs : s.stage = 8) (ds : List DomWork) : s.bootAdvance (.temper ds) = s.bootTemper ds := by
  simp [State.bootAdvance, hp, hs]

theorem State.bootAdvance_zero (hs : s.stage = 9) : s.bootAdvance .zero = s.bootZero := by
  simp [State.bootAdvance, hp, hs]

theorem State.bootAdvance_dispatch (hs : s.stage = 11) : s.bootAdvance .dispatch = s.bootDispatch := by
  simp [State.bootAdvance, hp, hs]

theorem State.bootAdvance_release (hs : s.stage = 12) : s.bootAdvance .release = s.bootRelease := by
  simp [State.bootAdvance, hp, hs]
end

/-! ### Stages 1, 2, 7, 8 and 9 -/

/-- With no image on trial a failure stops the boot with its cause (R399). -/
theorem State.bootFail_no_trial {s : State} (ht : s.boot.trial = []) {cause : Nat} (hc : cause < 256) :
    (s.bootFail cause).stage = 15 ∧ (s.bootFail cause).f F.CRU_BOOT_CAUSE = cause := by
  have hkeel : s.boot.trial.contains 0 = false := by simp [ht]
  have hcause : (s.trialFails.setF F.CRU_BOOT_CAUSE cause).f F.CRU_BOOT_CAUSE = cause % 256 :=
    State.f_setF_same _ _ _ _ _ (by decide)
  simp only [State.bootFail, hkeel, Bool.false_eq_true, if_false]
  exact ⟨State.stage_setStage _ (by decide), by rw [State.cause_setStage, hcause, Nat.mod_eq_of_lt hc]⟩

/-- Fuses that fail their check fail stage 1 with cause 2 (R425). -/
theorem State.bootRom_bad_fuses {s : State} (hl : s.lcs ≠ 0) (ht : s.boot.trial = []) :
    (s.bootRom false).stage = 15 ∧ (s.bootRom false).f F.CRU_BOOT_CAUSE = 2 := by
  have hfail : s.bootRom false = s.bootFail 2 := by simp [State.bootRom, hl]
  rw [hfail]
  exact State.bootFail_no_trial ht (by decide)

theorem State.stage_bootFuse {s : State} (hr : s.pins.resetN = true) (hl : s.lcs ≠ 5) : s.bootFuse.stage = 3 := by
  have hgo : ¬ ((!s.pins.resetN) = true ∨ s.lcs = 5) := by simp [hr, hl]
  rw [State.bootFuse, if_neg hgo]
  exact State.stage_setStage _ (by decide)

theorem State.stage_bootWings (s : State) (ws : List WingWork) : (s.bootWings ws).stage = 8 := State.stage_setStage _ (by decide)

/-- The full pass ends stage 8 once it has the results of all 408 domains (R51). -/
theorem State.stage_bootTemper (s : State) {ds : List DomWork} (hd : 408 ≤ ds.length) : (s.bootTemper ds).stage = 9 := by
  rw [State.bootTemper, if_neg (Nat.not_lt.mpr hd)]
  exact State.stage_setStage _ (by decide)

theorem State.stage_bootZero (s : State) : s.bootZero.stage = 10 := State.stage_setStage _ (by decide)

theorem State.bootZero_unpoisoned (s : State) : ∀ x ∈ s.bootZero.poison, ¬ (tileBase ≤ x ∧ x < tileBase + 64 * tileStride) := by
  intro x hx hin
  obtain ⟨-, hkept⟩ := List.mem_filter.mp hx
  simp [hin] at hkept

/-! ### Stage 11: the wings become READY (R114) -/

/-- What stage 11 does to one wing. -/
def State.readyWing (s : State) (w : Nat) : State := if s.wingState w = 0 then s.setWingState w 2 else s

/-- What stage 11 does before the stage moves on. -/
def State.readyWings (s : State) : State := foldS (List.range 64) (fun w t => t.readyWing w) (s.setF F.QE_CTRL_DISPATCH_EN 1)

theorem State.bootDispatch_eq (s : State) : s.bootDispatch = s.readyWings.setStage 12 := rfl

theorem State.f_readyWing (s : State) (w : Nat) (x : Fld) (i j : Nat) (hx : .WNG_STATUS ≠ x.reg) :
    (s.readyWing w).f x i j = s.f x i j := by
  unfold State.readyWing
  split
  · exact State.f_setF_reg _ _ _ _ _ _ _ _ hx (by decide)
  · rfl

theorem State.wingState_readyWing (s : State) (w v : Nat) :
    (s.readyWing w).wingState v = if v = w ∧ s.wingState v = 0 then 2 else s.wingState v := by
  unfold State.readyWing
  by_cases hvw : v = w
  · subst hvw
    have hset : (s.setWingState v 2).wingState v = 2 := State.f_setF_same _ _ _ _ _ (by decide)
    split <;> simp [*]
  · have hne : (s.setWingState w 2).wingState v = s.wingState v :=
      State.f_setF_idx _ _ _ _ (.inl (Ne.symm hvw)) (by decide)
    split <;> simp [hvw, hne]

theorem State.wingState_foldS_readyWing (l : List Nat) (s : State) (v : Nat) :
    (foldS l (fun w t => t.readyWing w) s).wingState v = if v ∈ l ∧ s.wingState v = 0 then 2 else s.wingState v := by
  unfold foldS
  induction l generalizing s with
  | nil => simp
  | cons w l ih =>
    rw [List.foldl_cons, ih, State.wingState_readyWing]
    by_cases hvw : v = w
    · subst hvw
      by_cases h0 : s.wingState v = 0 <;> simp [h0]
    · simp [hvw]

theorem State.stage_bootDispatch (s : State) : s.bootDispatch.stage = 12 := State.stage_setStage _ (by decide)

theorem State.dispatchEn_bootDispatch (s : State) : s.bootDispatch.f F.QE_CTRL_DISPATCH_EN = 1 := by
  rw [State.bootDispatch_eq, State.f_setStage _ _ _ _ _ (by decide) (by decide)]
  calc s.readyWings.f F.QE_CTRL_DISPATCH_EN
    _ = (s.setF F.QE_CTRL_DISPATCH_EN 1).f F.QE_CTRL_DISPATCH_EN :=
        foldS_keeps (fun t : State => t.f F.QE_CTRL_DISPATCH_EN) (fun w t => State.f_readyWing t w _ _ _ (by decide)) _ _
    _ = 1 := State.f_setF_same _ _ _ _ _ (by decide)

theorem State.wingState_bootDispatch (s : State) {w : Nat} (hw : w < 64) :
    s.bootDispatch.wingState w = if s.wingState w = 0 then 2 else s.wingState w := by
  have hq : (s.setF F.QE_CTRL_DISPATCH_EN 1).wingState w = s.wingState w := State.f_setF_reg _ _ _ _ _ _ _ _ (by decide) (by decide)
  calc s.bootDispatch.wingState w
    _ = s.readyWings.wingState w := State.f_setStage _ _ _ _ _ (by decide) (by decide)
    _ = if s.wingState w = 0 then 2 else s.wingState w := by
        rw [State.readyWings, State.wingState_foldS_readyWing, hq]
        simp [hw]

/-! ### Stage 12: hart 0 is released, and images on trial become active (R422, R424) -/

theorem State.f_imgStat (s : State) (c : Nat) (x : Fld) (i j : Nat) (hx : .SEC_IMG_STAT ≠ x.reg) : (s.imgStat c).f x i j = s.f x i j := by
  simp only [State.imgStat]
  iterate 4 rw [State.f_setF_reg _ _ _ _ _ _ _ _ hx (by decide)]

theorem State.f_fuseStat (s : State) (x : Fld) (i j : Nat) (hl : .SEC_LCS ≠ x.reg) (hr : .SEC_ROLLBACK ≠ x.reg) :
    s.fuseStat.f x i j = s.f x i j := by
  simp only [State.fuseStat]
  iterate 4 rw [State.f_setF_reg _ _ _ _ _ _ _ _ hr (by decide)]
  iterate 2 rw [State.f_setF_reg _ _ _ _ _ _ _ _ hl (by decide)]

theorem State.stage_bootReached (s : State) : s.bootReached.stage = s.stage := by
  unfold State.bootReached
  refine (State.f_fuseStat _ _ _ _ (by decide) (by decide)).trans (foldS_keeps State.stage (fun c t => ?_) _ _)
  split
  · rfl
  · exact State.f_imgStat _ _ _ _ _ (by decide)

theorem State.boot_bootReached (s : State) : s.bootReached.boot = { s.boot with trial := [] } := by
  unfold State.bootReached
  refine congrArg (fun b : BootSt => { b with trial := [] }) (foldS_keeps State.boot (fun c t => ?_) _ _)
  split <;> rfl

theorem State.stage_bootRelease (s : State) : s.bootRelease.stage = 13 :=
  (State.stage_bootReached _).trans (State.stage_setStage _ (by decide))

theorem State.boot_bootRelease (s : State) : s.bootRelease.boot = { s.boot with harts := [0], trial := [] } := State.boot_bootReached _

/-! ### The life cycle (R432, R435) -/

theorem State.finishMarker_of_none {s : State} (h : s.sec.marker = none) : s.finishMarker = s := by
  simp [State.finishMarker, h]

/-- A power-on with the marker cleared keeps the fuses, and of the security store all but a transfer (R397). -/
theorem State.resetPowerOn_of_no_marker {s : State} (h : s.sec.marker = none) (straps : Nat) :
    (s.resetPowerOn straps).fuses = s.fuses ∧ (s.resetPowerOn straps).sec = { s.sec with xfer := none } := by
  rw [State.resetPowerOn, State.finishMarker_of_none]
  · exact ⟨rfl, rfl⟩
  · exact h

theorem State.zeroise_deviceCert (s : State) (target : Nat) : (s.zeroise target).sec.deviceCert = s.sec.deviceCert := by
  unfold State.zeroise
  split <;> rfl

/-- A state change before its marker is cleared: event, marker, zeroisation, fuses. -/
def State.burnt (s : State) (target : Nat) : State :=
  let t := (s.setF F.SEC_LCS_ZEROISING 1).raise (srcOf 82 4) ⟨0, Master.sp.code, 0⟩
  ((t.setSec { t.sec with marker := some target }).zeroise target).burn target

/-- The same with the marker cleared. -/
def State.unmarked (s : State) (target : Nat) : State := (s.burnt target).setSec { (s.burnt target).sec with marker := none }

theorem State.lifeChange_eq (s : State) (target : Nat) :
    s.lifeChange target = (s.unmarked target).resetPowerOn (s.unmarked target).pins.straps := rfl

theorem State.unmarked_deviceCert (s : State) (target : Nat) : (s.unmarked target).sec.deviceCert = s.sec.deviceCert :=
  (State.zeroise_deviceCert _ _).trans (by simp [State.setSec])

/-- A state change ends in its target state, with no marker and with the device certificate it had (R435). -/
theorem State.lifeChange_ends (s : State) (target : Nat) :
    (s.lifeChange target).lcs = target ∧ (s.lifeChange target).sec.deviceCert = s.sec.deviceCert ∧
    (s.lifeChange target).sec.marker = none := by
  obtain ⟨hfuses, hsec⟩ := State.resetPowerOn_of_no_marker (s := s.unmarked target) rfl (s.unmarked target).pins.straps
  rw [State.lifeChange_eq, State.lcs, hfuses, hsec]
  exact ⟨rfl, State.unmarked_deviceCert s target, rfl⟩

theorem State.factory_blank {s : State} (hl : s.lcs = 0) (cert : Bool) (images : List (Nat × List Byte)) :
    (s.factory cert images).lcs = 1 ∧ (s.factory cert images).sec.deviceCert = (s.sec.deviceCert || cert) ∧
    (s.factory cert images).sec.marker = none := by
  rw [State.factory, if_neg (not_not_intro hl)]
  exact State.lifeChange_ends _ _

theorem State.factory_not_blank {s : State} (hl : s.lcs ≠ 0) (cert : Bool) (images : List (Nat × List Byte)) :
    s.factory cert images = s := if_pos hl

end Sys2Proof.Machine

namespace Sys2Proof.Claims
open Sys2Proof Sys2Proof.Machine

/-! ### The obligation -/

theorem completes_bootStageAdvance {work : BootWork} {s u : State} {P : State → Prop} (hu : s.bootAdvance work = u) (h : P u) :
    Completes (.bootStageAdvance work) s P := ⟨_, rfl, hu ▸ h⟩

theorem completes_factoryTestProgram {cert : Bool} {images : List (Nat × List Byte)} {s : State} {P : State → Prop}
    (h : P (s.factory cert images)) : Completes (.factoryTestProgram cert images) s P := ⟨_, rfl, h⟩

/-- Settles O51: each clause is the fact about its stage's end, or about the state change of the factory test. -/
theorem bootComplete : Obligations.BootComplete := by
  intro s
  refine ⟨fun hp => ⟨?rom, ?fuse, ?wings, ?temper, ?zero, ?dispatch, ?release⟩, ?notOn, ?blank, ?notBlank⟩
  case rom => exact fun hs hl ht => completes_bootStageAdvance (State.bootAdvance_rom hp hs _) (State.bootRom_bad_fuses hl ht)
  case fuse => exact fun hs hr hl => completes_bootStageAdvance (State.bootAdvance_fuse hp hs) (State.stage_bootFuse hr hl)
  case wings => exact fun hs ws => completes_bootStageAdvance (State.bootAdvance_wings hp hs ws) (State.stage_bootWings s ws)
  case temper => exact fun hs ds hd => completes_bootStageAdvance (State.bootAdvance_temper hp hs ds) (State.stage_bootTemper s hd)
  case zero =>
    exact fun hs => completes_bootStageAdvance (State.bootAdvance_zero hp hs)
      ⟨State.stage_bootZero s, State.bootZero_unpoisoned s⟩
  case dispatch =>
    exact fun hs => completes_bootStageAdvance (State.bootAdvance_dispatch hp hs)
      ⟨State.stage_bootDispatch s, State.dispatchEn_bootDispatch s, fun w hw => State.wingState_bootDispatch s hw⟩
  case release =>
    exact fun hs => completes_bootStageAdvance (State.bootAdvance_release hp hs)
      ⟨State.stage_bootRelease s, congrArg BootSt.harts (State.boot_bootRelease s), congrArg BootSt.trial (State.boot_bootRelease s)⟩
  case notOn => exact fun work hp => completes_bootStageAdvance (State.bootAdvance_not_on hp work) rfl
  case blank => exact fun cert images hl => completes_factoryTestProgram (State.factory_blank hl cert images)
  case notBlank => exact fun cert images hl => completes_factoryTestProgram (State.factory_not_blank hl cert images)

end Sys2Proof.Claims
end

section
/-! PROOF. Sensors, rails, the power and thermal controllers, bask and the stop's abort point (R24, R491 to R504): what each of
their operations leaves in the registers that show it, and `PowerControlComplete` from it. -/

namespace Sys2Proof.Machine

/-! ### What a threshold's reaction and bask can change -/

/-- The registers that a threshold's reaction, an orderly stop, a rate event, bask taps and a bask evaluation may write. -/
def thermalReg (n : RegName) : Bool :=
  eyeReg n || match n with
  | .THM_STATUS | .PWR_STATE | .PWR_RAIL | .PWR_BASK | .PWR_CAP | .QE_CTRL | .CRU_NOTICE | .CRU_BOOT => true
  | _ => false

/-- Every field outside these registers reads the same in both states. -/
def ThermalFrame (s t : State) : Prop := ∀ y i j, thermalReg y.reg = false → t.f y i j = s.f y i j

theorem ThermalFrame.refl (s : State) : ThermalFrame s s := fun _ _ _ _ => rfl

section
variable {s t : State}

theorem ThermalFrame.setF (h : ThermalFrame s t) (x : Fld) (v i j : Nat) (hx : thermalReg x.reg = true) (hb : x.reg ≠ .CRU_BOOT) :
    ThermalFrame s (t.setF x v i j) := by
  intro y a b hy
  have hne : x.reg ≠ y.reg := fun e => by rw [e, hy] at hx; cases hx
  exact (State.f_setF_reg _ _ _ _ _ _ _ _ hne hb).trans (h y a b hy)

theorem ThermalFrame.eye (h : ThermalFrame s t) {u : State} (k : EyeFrame t u) : ThermalFrame s u := fun y i j hy =>
  (k.f_eq y i j (Bool.or_eq_false_iff.mp hy).1).trans (h y i j hy)

theorem ThermalFrame.raise (h : ThermalFrame s t) (n : Nat) (c : Cap) : ThermalFrame s (t.raise n c) := h.eye (.raise (.refl t) n c)

theorem ThermalFrame.raiseLevel (h : ThermalFrame s t) (n : Nat) (c : Cap) : ThermalFrame s (t.raiseLevel n c) :=
  h.eye (.raiseLevel (.refl t) n c)

theorem ThermalFrame.lowerLevel (h : ThermalFrame s t) (n : Nat) : ThermalFrame s (t.lowerLevel n) := h.eye (.lowerLevel (.refl t) n)

theorem ThermalFrame.setPw (h : ThermalFrame s t) (x : PwrSt) : ThermalFrame s (t.setPw x) := h

theorem ThermalFrame.setDom (h : ThermalFrame s t) (d : Nat) (x : DomSt) : ThermalFrame s (t.setDom d x) := h

theorem ThermalFrame.ite {u : State} {c : Prop} [Decidable c] (h : ThermalFrame s t) (k : ThermalFrame s u) :
    ThermalFrame s (if c then t else u) := by split <;> assumption

theorem ThermalFrame.foldS {α : Type} {f : α → State → State} (xs : List α) (h : ThermalFrame s t)
    (hf : ∀ x t, ThermalFrame s t → ThermalFrame s (f x t)) : ThermalFrame s (foldS xs f t) := by
  unfold Machine.foldS
  induction xs generalizing t with
  | nil => exact h
  | cons x xs ih => exact ih (hf x t h)

theorem ThermalFrame.setStage (h : ThermalFrame s t) (n : Nat) : ThermalFrame s (t.setStage n) := by
  intro y i j hy
  have hpin : y.reg ≠ .EYE_PIN := fun e => by rw [e] at hy; cases hy
  have hboot : .CRU_BOOT ≠ y.reg := fun e => by rw [← e] at hy; cases hy
  exact (State.f_setStage t n y i j hpin hboot).trans (h y i j hy)

theorem ThermalFrame.irq (h : ThermalFrame s t) (n : Nat) : ThermalFrame s (t.irq n) := by
  unfold State.irq
  exact .ite h h

theorem ThermalFrame.notice (h : ThermalFrame s t) (code : Nat) : ThermalFrame s (t.notice code) :=
  .irq (.setF (.setF (.ite (h.setF _ _ _ _ rfl (by decide)) h) _ _ _ _ rfl (by decide)) _ _ _ _ rfl (by decide)) _

theorem ThermalFrame.setPwrReq (h : ThermalFrame s t) (v : Nat) : ThermalFrame s (t.setPwrReq v) :=
  .foldS _ h fun _ _ k => k.setF _ _ _ _ rfl (by decide)

theorem ThermalFrame.orderlyStop (h : ThermalFrame s t) (trigger : Nat) : ThermalFrame s (t.orderlyStop trigger) := by
  unfold State.orderlyStop
  refine .ite h (.setPwrReq (.raise (.notice (.setF ?_ _ _ _ _ rfl (by decide)) _) _ _) _)
  exact (h.setF _ _ _ _ rfl (by decide)).setF _ _ _ _ rfl (by decide)

/-- A status bit of the thermal controller with its level source. -/
theorem ThermalFrame.condition (h : ThermalFrame s t) (x : Fld) (src : Nat) (on : Bool) (hx : x.reg = .THM_STATUS) :
    ThermalFrame s (t.condition x src on) := by
  have hset : ThermalFrame s (t.setF x (if on then 1 else 0)) := h.setF _ _ _ _ (by rw [hx]; rfl) (by rw [hx]; decide)
  exact .ite (hset.raiseLevel _ _) (hset.lowerLevel _)

theorem ThermalFrame.thmReq (h : ThermalFrame s t) (r : Nat) : ThermalFrame s (t.thmReq r) := h.setF _ _ _ _ rfl (by decide)

theorem ThermalFrame.capForce (h : ThermalFrame s t) : ThermalFrame s t.capForce := h.setF _ _ _ _ rfl (by decide)

theorem ThermalFrame.heatClock (h : ThermalFrame s t) (on : Bool) : ThermalFrame s (t.heatClock on) :=
  ThermalFrame.setF (t := t.setPw _) h _ _ _ _ rfl (by decide)

theorem ThermalFrame.baskEval (h : ThermalFrame s t) : ThermalFrame s t.baskEval := by
  have hcap : ∀ on v, ThermalFrame s (((t.heatClock on).setF F.PWR_BASK_STATE v).capForce) := fun on v =>
    ((h.heatClock on).setF _ v _ _ rfl (by decide)).capForce
  unfold State.baskEval
  exact .ite h (.ite (((hcap _ _).lowerLevel _).setStage _) (.ite ((hcap _ _).raiseLevel _ _) (((hcap _ _).lowerLevel _).setPwrReq _)))

theorem ThermalFrame.setTap (h : ThermalFrame s t) (d c : Nat) : ThermalFrame s (t.setTap d c) :=
  .ite (.setF (h.setF _ _ _ _ rfl (by decide)) _ _ _ _ rfl (by decide)) (h.setF _ _ _ _ rfl (by decide))

theorem ThermalFrame.baskAdd (h : ThermalFrame s t) (r : Nat) : ThermalFrame s (t.baskAdd r) :=
  .ite h (.foldS _ h fun _ _ k => .ite k ((k.setTap _ _).setDom _ _))

theorem ThermalFrame.rateEvent (h : ThermalFrame s t) (n : Nat) : ThermalFrame s (t.rateEvent n) := by
  unfold State.rateEvent
  extract_lets s1 r low
  have h1 : ThermalFrame s s1 := (h.setF _ _ _ _ rfl (by decide)).raise _ _
  clear_value s1
  split
  · exact h1
  · split
    · exact (h1.setPw _).thmReq r
    · exact .ite h1 ((h1.setPw _).thmReq r)

/-- The thresholds of Table 18-4 write the thermal status and may start an orderly stop. -/
theorem ThermalFrame.dieThresholds (h : ThermalFrame s t) (n : Nat) (old : Option Int) : ThermalFrame s (t.dieThresholds n old) := by
  unfold State.dieThresholds
  extract_lets live temp top low s1 s2 s3 hot pw s4 up down s5 s6
  have h2 : ThermalFrame s s2 :=
    ((h.setF _ _ _ _ rfl (by decide)).setF _ _ _ _ rfl (by decide)).setF _ _ _ _ rfl (by decide)
  clear_value s2
  have h3 : ThermalFrame s s3 := .ite (h2.condition _ _ _ rfl) (.ite (h2.condition _ _ _ rfl) h2)
  clear_value s3
  have h4 : ThermalFrame s s4 := (h3.setPw _).condition _ _ _ rfl
  clear_value s4
  have h5 : ThermalFrame s s5 := .ite ((h4.raise _ _).orderlyStop _) h4
  clear_value s5
  have h6 : ThermalFrame s s6 := .ite (h5.condition _ _ _ rfl) (.ite (h5.condition _ _ _ rfl) h5)
  clear_value s6
  exact .ite ((h6.raise _ _).orderlyStop _) h6

end

/-! ### Sensors (R491, R492, R496) -/

theorem ofSigned_lt (w : Nat) (x : Int) : ofSigned w x < 2 ^ w := by
  have hpos : (0 : Int) < (2 ^ w : Nat) := Int.natCast_pos.mpr (Nat.two_pow_pos w)
  have hlt := Int.emod_lt_of_pos x hpos
  have hnn := Int.emod_nonneg x hpos.ne'
  unfold ofSigned
  omega

theorem State.f_setF_signed (s : State) (x : Fld) (v : Int) (i j : Nat) (h : x.lsb + x.w ≤ 64) :
    (s.setF x (ofSigned x.w v) i j).f x i j = ofSigned x.w v := by
  rw [State.f_setF_same _ _ _ _ _ h, Nat.mod_eq_of_lt (ofSigned_lt _ _)]

theorem State.temp_sensorStore (s : State) (n : Nat) (t : Int) :
    (s.sensorStore n t).f F.THM_SENS_TEMP n = ofSigned 16 (satSigned 16 t) := by
  have hset : (s.setF F.THM_SENS_TEMP (ofSigned 16 (satSigned 16 t)) n).f F.THM_SENS_TEMP n = ofSigned 16 (satSigned 16 t) :=
    State.f_setF_signed _ _ _ _ _ (by decide)
  unfold State.sensorStore
  dsimp only
  split
  · exact (State.f_setF_bits _ F.THM_SENS_MAX F.THM_SENS_TEMP _ _ _ _ _ rfl (by decide) (by decide) (by decide)).trans hset
  · exact hset

theorem State.temp_sensorFail (s : State) (n a : Nat) : (s.sensorFail n).f F.THM_SENS_TEMP a = s.f F.THM_SENS_TEMP a := by
  unfold State.sensorFail
  split
  · rfl
  · rw [State.f_raise _ _ _ _ _ _ rfl]
    exact State.f_setF_bits _ F.THM_SENS_FAILED F.THM_SENS_TEMP _ _ _ _ _ rfl (by decide) (by decide) (by decide)

theorem State.failed_sensorFail (s : State) (n : Nat) : (s.sensorFail n).f F.THM_SENS_FAILED n = 1 := by
  unfold State.sensorFail
  split
  · assumption
  · rw [State.f_raise _ _ _ _ _ _ rfl, State.f_setF_same _ _ _ _ _ (by decide)]
    rfl

theorem State.temp_dieUpdate (s : State) (n : Nat) (t : Int) :
    (s.dieUpdate n t).f F.THM_SENS_TEMP n = ofSigned 16 (satSigned 16 t) := by
  unfold State.dieUpdate
  extract_lets old h rate was h' pw s1 s2 s3 s4 lim s5 s6
  have h1 : s1.f F.THM_SENS_TEMP n = ofSigned 16 (satSigned 16 t) := State.temp_sensorStore s n t
  clear_value s1
  have h2 : s2.f F.THM_SENS_TEMP n = s1.f F.THM_SENS_TEMP n :=
    State.f_setF_bits _ F.THM_SENS_RATE F.THM_SENS_TEMP _ _ _ _ _ rfl (by decide) (by decide) (by decide)
  clear_value s2
  have h3 : s3.f F.THM_SENS_TEMP n = s2.f F.THM_SENS_TEMP n := by
    unfold s3
    split
    · exact State.temp_sensorFail s2 n n
    · rfl
  clear_value s3
  have h4 : ThermalFrame s3 s4 := .dieThresholds (.refl s3) _ _
  clear_value s4
  have h5 : ThermalFrame s3 s5 := .ite (h4.rateEvent _) h4
  clear_value s5
  have h6 : ThermalFrame s3 s6 := .ite (h5.baskAdd _) (.ite (h5.baskAdd _) h5)
  calc s6.baskEval.f F.THM_SENS_TEMP n
    _ = s3.f F.THM_SENS_TEMP n := h6.baskEval _ _ _ rfl
    _ = ofSigned 16 (satSigned 16 t) := h3.trans (h2.trans h1)

/-- A reading of a die sensor, of the coolant or of a power stage stands in its register. -/
theorem State.temp_sensorUpdate (s : State) {n : Nat} (hn : n < 74 ∨ 98 ≤ n) (part : Nat) (t : Int) :
    (s.sensorUpdate n part t).f F.THM_SENS_TEMP n = ofSigned 16 (satSigned 16 t) := by
  unfold State.sensorUpdate
  rcases hn with hn | hn
  · rw [if_pos hn]
    exact State.temp_dieUpdate s n t
  · rw [if_neg (by omega), if_neg (by omega), if_neg (by omega)]
    split
    · exact ((ThermalFrame.refl _).condition _ _ _ rfl _ _ _ rfl).trans (State.temp_sensorStore s n t)
    · exact State.temp_sensorStore s n t

theorem State.case_backOwed (s : State) (k a : Nat) :
    (s.backOwed k).f F.FLK_MEM_STACK_STAT_CASE_C a = s.f F.FLK_MEM_STACK_STAT_CASE_C a :=
  (ReadFrame.foldS _ (.parts (.refl s) _ s.latent s.poison) fun _ _ h => h.ladleClean _).f_eq _ _ _ rfl

/-- Refresh rate, HOT and STACK_HOT stand beside a stack's case temperature; below 100.0 degrees nothing stops. -/
theorem State.case_stackTemp (s : State) (k : Nat) {t : Int} (ht : t < 1000) :
    (s.stackTemp k t).f F.FLK_MEM_STACK_STAT_CASE_C k = ofSigned 8 (satSigned 8 (t / 10)) := by
  unfold State.stackTemp
  extract_lets old first s1 s2 st s3 s4
  have hbits : ∀ (u : State) (x : Fld) (v : Nat), x.reg = .FLK_MEM_STACK_STAT → x.lsb + x.w ≤ 64 → x.lsb + x.w ≤ 8 ∨ 16 ≤ x.lsb →
      (u.setF x v k).f F.FLK_MEM_STACK_STAT_CASE_C k = u.f F.FLK_MEM_STACK_STAT_CASE_C k := fun u x v hr hw hx =>
    State.f_setF_bits _ _ _ _ _ _ _ _ hr (by rw [hr]; decide) hw hx
  have h1 : s1.f F.FLK_MEM_STACK_STAT_CASE_C k = ofSigned 8 (satSigned 8 (t / 10)) := State.f_setF_signed _ _ _ _ _ (by decide)
  clear_value s1
  have h2 : s2.f F.FLK_MEM_STACK_STAT_CASE_C k = s1.f F.FLK_MEM_STACK_STAT_CASE_C k := by
    unfold s2
    split
    · exact hbits _ _ _ rfl (by decide) (by decide)
    · split
      · exact hbits _ _ _ rfl (by decide) (by decide)
      · rfl
  clear_value s2
  have h3 : s3.f F.FLK_MEM_STACK_STAT_CASE_C k = s2.f F.FLK_MEM_STACK_STAT_CASE_C k := by
    unfold s3
    split
    · exact hbits _ _ _ rfl (by decide) (by decide)
    · split
      · exact (State.case_backOwed _ _ _).trans (hbits _ _ _ rfl (by decide) (by decide))
      · rfl
  clear_value s3
  have h4 : s4.f F.FLK_MEM_STACK_STAT_CASE_C k = s3.f F.FLK_MEM_STACK_STAT_CASE_C k :=
    (ThermalFrame.refl s3).condition _ _ _ rfl _ _ _ rfl
  rw [if_neg (by omega)]
  exact h4.trans (h3.trans (h2.trans h1))

theorem State.case_sensorUpdate (s : State) {k : Nat} (hk : k < 16) (part : Nat) {t : Int} (ht : t < 1000) :
    (s.sensorUpdate (74 + k) part t).f F.FLK_MEM_STACK_STAT_CASE_C k = ofSigned 8 (satSigned 8 (t / 10)) := by
  have hstack : s.sensorUpdate (74 + k) part t = (s.stackTemp k t).baskEval := by
    rw [State.sensorUpdate, if_neg (by omega), if_pos (by omega), Nat.add_sub_cancel_left]
  rw [hstack]
  exact ((ThermalFrame.refl _).baskEval _ _ _ rfl).trans (State.case_stackTemp s k ht)

theorem State.failed_sensorStale (s : State) {n : Nat} (hn : n < 74) : (s.sensorStale n).f F.THM_SENS_FAILED n = 1 := by
  rw [State.sensorStale, if_pos hn]
  exact ((ThermalFrame.refl _).dieThresholds _ _ _ _ _ rfl).trans (State.failed_sensorFail s n)

/-- MAX_CLR: MAX takes the present value (R508). -/
theorem State.max_clr (s : State) (n : Nat) :
    (s.setF F.THM_SENS_MAX (s.f F.THM_SENS_TEMP n) n).f F.THM_SENS_MAX n = s.f F.THM_SENS_TEMP n := by
  rw [State.f_setF_same _ _ _ _ _ (by decide)]
  exact Nat.mod_eq_of_lt (State.f_lt s F.THM_SENS_TEMP n 0)

/-! ### Set points, the cap and the power controller (R24, R494, R495) -/

theorem State.temperRestart_of_no_pass {s : State} (h : s.margin.temper = none) (r : Nat) : s.temperRestart r = s := by
  rw [State.temperRestart, h]

theorem State.railTarget_lt (s : State) (r : Nat) : s.railTarget r < 2 ^ 16 :=
  Nat.lt_of_le_of_lt (Nat.min_le_left _ _) (by decide)

theorem State.setpoint_settled {s : State} {r : Nat} (hr : r < 8) (hp : s.pwrState = 2 ∨ s.pwrState = 3) (ht : s.margin.temper = none) :
    (s.setpoint r).f F.PWR_RAIL_SET_MV r = s.railTarget r ∧ { s.setpoint r with regs := s.regs } = s := by
  rw [State.setpoint, if_neg (by omega), if_pos hr]
  dsimp only
  split
  · exact ⟨Eq.symm ‹_›, rfl⟩
  · rw [State.temperRestart_of_no_pass (s := s.setF _ _ _) ht, State.f_setF_same _ _ _ _ _ (by decide)]
    exact ⟨Nat.mod_eq_of_lt (State.railTarget_lt s r), rfl⟩

theorem clampNat_mem {lo hi : Nat} (h : lo ≤ hi) (x : Nat) : lo ≤ clampNat lo hi x ∧ clampNat lo hi x ≤ hi := by
  unfold clampNat
  split
  · omega
  · split <;> omega

theorem State.f_capForce (s : State) (x : Fld) (i j : Nat) (hx : .PWR_CAP ≠ x.reg) : s.capForce.f x i j = s.f x i j :=
  State.f_setF_reg _ _ _ _ _ _ _ _ hx (by decide)

theorem State.cap_capWrite (s : State) (v : Nat) : (s.capWrite v).f F.PWR_CAP_CAP_W = clampNat 1200 2600 v := by
  have hin := (clampNat_mem (lo := 1200) (hi := 2600) (by decide) v).2
  calc (s.capWrite v).f F.PWR_CAP_CAP_W
    _ = (s.setF F.PWR_CAP_CAP_W (clampNat 1200 2600 v)).f F.PWR_CAP_CAP_W :=
        State.f_setF_bits _ _ _ _ _ _ _ _ rfl (by decide) (by decide) (by decide)
    _ = clampNat 1200 2600 v % 2 ^ 12 := State.f_setF_same _ _ _ _ _ (by decide)
    _ = clampNat 1200 2600 v := Nat.mod_eq_of_lt (by omega)

/-- One value written to a field of several instances of its register. -/
theorem State.f_foldS_setF (x : Fld) (v : Nat) (h : x.lsb + x.w ≤ 64) (hb : x.reg ≠ .CRU_BOOT) (l : List Nat) (s : State) (r : Nat) :
    (foldS l (fun i t => t.setF x v i) s).f x r = if r ∈ l then v % 2 ^ x.w else s.f x r := by
  unfold foldS
  induction l generalizing s with
  | nil => simp
  | cons i l ih =>
    rw [List.foldl_cons, ih]
    by_cases hri : r = i
    · subst hri
      simp [State.f_setF_same _ _ _ _ _ h]
    · simp [hri, State.f_setF_idx s x x v (a := r) (b := 0) (.inl (Ne.symm hri)) hb]

theorem State.pwrReq_setPwrReq (s : State) {v : Nat} (hv : v < 2 ^ 16) {r : Nat} (hr : r < 8) :
    (s.setPwrReq v).f F.PWR_RAIL_PWR_REQ_MV r = v := by
  rw [State.setPwrReq, State.f_foldS_setF _ _ (by decide) (by decide), if_pos (List.mem_range.mpr hr)]
  exact Nat.mod_eq_of_lt hv

theorem State.f_setPwrReq (s : State) (v : Nat) (x : Fld) (i j : Nat) (hx : .PWR_RAIL ≠ x.reg) : (s.setPwrReq v).f x i j = s.f x i j :=
  foldS_keeps (fun t : State => t.f x i j) (fun _ _ => State.f_setF_reg _ _ _ _ _ _ _ _ hx (by decide)) _ _

/-- The held fractions stand in MGN_RATE_ACT and PWR_HOLD, with their source in Eyespot: what these keep, showing them keeps. -/
theorem State.showHolds_keeps {β : Type} (g : State → β) (hset : ∀ t x v i, x.reg = .MGN_RATE_ACT ∨ x.reg = .PWR_HOLD → g (State.setF t x v i) = g t)
    (heye : ∀ t u, EyeFrame t u → g u = g t) (s : State) : g s.showHolds = g s := by
  unfold State.showHolds
  extract_lets pm s1 sum s2
  have h1 : g s1 = g s := foldS_keeps g (fun _ _ => hset _ _ _ _ (.inl rfl)) _ _
  clear_value s1
  have h2 : g s2 = g s := (hset _ _ _ _ (.inr rfl)).trans h1
  clear_value s2 sum
  split
  · exact (heye _ _ (.lowerLevel (.refl s2) _)).trans h2
  · exact (heye _ _ (.raiseLevel (.refl s2) _ _)).trans h2

theorem State.f_showHolds (s : State) (x : Fld) (i j : Nat) (he : eyeReg x.reg = false) (ha : .MGN_RATE_ACT ≠ x.reg)
    (hh : .PWR_HOLD ≠ x.reg) : s.showHolds.f x i j = s.f x i j := by
  refine State.showHolds_keeps (fun t => t.f x i j) (fun t y v k hy => ?_) (fun t u h => h.f_eq x i j he) s
  rcases hy with hy | hy
  · exact State.f_setF_reg _ _ _ _ _ _ _ _ (hy ▸ ha) (by rw [hy]; decide)
  · exact State.f_setF_reg _ _ _ _ _ _ _ _ (hy ▸ hh) (by rw [hy]; decide)

theorem State.pw_showHolds (s : State) : s.showHolds.pw = s.pw :=
  State.showHolds_keeps State.pw (fun _ _ _ _ _ => rfl) (fun _ _ h => h.pw_eq) s

/-- A tick's request: the fitted one, rounded down to 10 mV, at most one step up (R495). -/
def tickReq (old fit : Nat) : Nat :=
  if clampNat 600 850 fit / 10 * 10 ≤ old then clampNat 600 850 fit / 10 * 10 else min (clampNat 600 850 fit / 10 * 10) (old + 10)

theorem tickReq_lt (old fit : Nat) : tickReq old fit < 2 ^ 16 := by
  have hin := (clampNat_mem (lo := 600) (hi := 850) (by decide) fit).2
  unfold tickReq
  split <;> omega

/-- A tick in ON outside HEATING: the watts, and the request of each rail (R495). -/
theorem State.powerTick_on {s : State} (hp : s.pwrState = 2) (hb : s.f F.PWR_BASK_STATE ≠ 2) (watts fit hold : Nat) :
    (s.powerTick watts fit hold []).f F.PWR_IN_POWER_W = watts % 2 ^ 16 ∧ (s.powerTick watts fit hold []).pwrState = 2 ∧
    ∀ r < 8, (s.powerTick watts fit hold []).f F.PWR_RAIL_PWR_REQ_MV r = tickReq (s.f F.PWR_RAIL_PWR_REQ_MV 0) fit := by
  unfold State.powerTick
  extract_lets s0 s1 s2 heat old fit' req s3 low ph lim n pw s4 s5
  have h0 : s0 = s := rfl  -- no activity figures
  clear_value s0
  subst h0
  have h2 : ∀ x i j, eyeReg x.reg = false → .PWR_CAP ≠ x.reg → s2.f x i j = (s0.setF F.PWR_IN_POWER_W watts).f x i j := by
    intro x i j he hc
    have h1 : s1.f x i j = (s0.setF F.PWR_IN_POWER_W watts).f x i j := State.f_capForce _ _ _ _ hc
    unfold s2
    split
    · exact (State.f_raise _ _ _ _ _ _ he).trans h1
    · exact h1
  clear_value s2
  have h2' : ∀ x i j, eyeReg x.reg = false → .PWR_CAP ≠ x.reg → .PWR_IN ≠ x.reg → s2.f x i j = s0.f x i j := fun x i j he hc hi =>
    (h2 x i j he hc).trans (State.f_setF_reg _ _ _ _ _ _ _ _ hi (by decide))
  have hstate : s2.pwrState = 2 := (h2' _ _ _ rfl (by decide) (by decide)).trans hp
  have hheat : ¬ heat := fun h => hb ((h2' _ _ _ rfl (by decide) (by decide)).symm.trans h)
  have hold' : old = s0.f F.PWR_RAIL_PWR_REQ_MV 0 := h2' _ _ _ rfl (by decide) (by decide)
  have hreq : req = tickReq (s0.f F.PWR_RAIL_PWR_REQ_MV 0) fit := by
    unfold req
    rw [if_neg (by omega), if_neg hheat, hold']
    rfl
  clear_value req
  have h5 : ∀ x i j, eyeReg x.reg = false → .PWR_CAP ≠ x.reg → .MGN_RATE_ACT ≠ x.reg → .PWR_HOLD ≠ x.reg →
      s5.showHolds.f x i j = s3.f x i j := by
    intro x i j he hc ha hh
    have h4 : s4.f x i j = s3.f x i j := State.f_setF_reg (s3.setPw _) _ _ _ _ _ _ _ hc (by decide)
    clear_value s4
    rw [State.f_showHolds _ _ _ _ he ha hh]
    unfold s5
    split
    · exact (State.f_raiseLevel _ _ _ _ _ _ he).trans h4
    · exact (State.f_lowerLevel _ _ _ _ _ he).trans h4
  rw [if_neg (by omega)]
  refine ⟨?watts, ?state, fun r hr => ?req⟩
  case watts =>
    calc s5.showHolds.f F.PWR_IN_POWER_W
      _ = s2.f F.PWR_IN_POWER_W := (h5 _ _ _ rfl (by decide) (by decide) (by decide)).trans (State.f_setPwrReq _ _ _ _ _ (by decide))
      _ = (s0.setF F.PWR_IN_POWER_W watts).f F.PWR_IN_POWER_W := h2 _ _ _ rfl (by decide)
      _ = watts % 2 ^ 16 := State.f_setF_same _ _ _ _ _ (by decide)
  case state =>
    exact ((h5 _ _ _ rfl (by decide) (by decide) (by decide)).trans (State.f_setPwrReq _ _ _ _ _ (by decide))).trans hstate
  case req =>
    rw [h5 _ _ _ rfl (by decide) (by decide) (by decide), ← hreq]
    exact State.pwrReq_setPwrReq _ (hreq ▸ tickReq_lt _ _) hr

/-! ### The thermal controller (R497, R499) -/

theorem mget_mdel_same {κ ν : Type} [DecidableEq κ] (m : List (κ × ν)) (k : κ) : mget (mdel m k) k = none := by
  induction m with
  | nil => rfl
  | cons p m ih =>
    obtain ⟨x, v⟩ := p
    by_cases hx : x = k
    · rw [mdel, List.filter_cons_of_neg (by simpa using hx)]
      exact ih
    · rw [mdel, List.filter_cons_of_pos (by simpa using hx), mget, if_neg hx]
      exact ih

/-- With no rate-of-rise event on a rail its thermal request is the throttle's (R494). -/
theorem State.thmReq_setPw {p : PwrSt} {r v : Nat} (hd : mget p.dtdt r = none) (ht : mgetD p.thr r 850 = v) (hv : v < 2 ^ 16) (s : State) :
    ((s.setPw p).thmReq r).f F.PWR_RAIL_THM_REQ_MV r = v := by
  have hshown : (s.setPw p).thmReq r = (s.setPw p).setF F.PWR_RAIL_THM_REQ_MV v r := by
    rw [State.thmReq, State.setPw, hd, ht]
  rw [hshown, State.f_setF_same _ _ _ _ _ (by decide)]
  exact Nat.mod_eq_of_lt hv

theorem State.stepDown_lt (s : State) (r : Nat) {v : Nat} (hv : v < 2 ^ 16) : s.stepDown r v < 2 ^ 16 := by
  unfold State.stepDown
  omega

theorem State.throttle_lowers {s : State} {r : Nat} (hr : r < 8) (hot : 1000 ≤ s.railTj r ∨ s.stackHotRail r = true)
    (hd : mget s.pw.dtdt r = none) (hq : 600 < s.f F.PWR_RAIL_THM_REQ_MV r) :
    (s.throttle r).f F.PWR_RAIL_THM_REQ_MV r = s.stepDown r (s.f F.PWR_RAIL_THM_REQ_MV r) := by
  rw [State.throttle, if_pos ⟨hr, hot⟩, if_neg (Nat.not_le.mpr hq)]
  refine State.thmReq_setPw ?event ?thr ?bound s
  case event => exact hd
  case thr => exact mgetD_mset_same _ _ _ _
  case bound => exact State.stepDown_lt s r (State.f_lt s F.PWR_RAIL_THM_REQ_MV r 0)

theorem State.throttle_holds {s : State} {r : Nat} (hr : r < 8) (hot : 1000 ≤ s.railTj r ∨ s.stackHotRail r = true)
    (hq : s.f F.PWR_RAIL_THM_REQ_MV r ≤ 600) : mgetD (s.throttle r).pw.hold r 0 = min 64 (mgetD s.pw.hold r 0 + 1) := by
  rw [State.throttle, if_pos ⟨hr, hot⟩, if_pos hq, State.pw_showHolds]
  exact mgetD_mset_same _ _ _ _

section
variable {s : State} {r : Nat} (hr : r < 8) (hcool : s.railTj r < 970) (hstack : s.stackHotRail r = false)
include hr hcool hstack

theorem State.throttleBack_ends_hold (hh : 0 < mgetD s.pw.hold r 0) : mgetD (s.throttleBack r).pw.hold r 0 = 0 := by
  rw [State.throttleBack, if_pos ⟨hr, hcool, by simp [hstack]⟩, if_pos hh, State.pw_showHolds]
  exact congrArg (fun o : Option Nat => o.getD 0) (mget_mdel_same s.pw.hold r)

theorem State.throttleBack_raises (hh : mgetD s.pw.hold r 0 = 0) (hd : mget s.pw.dtdt r = none) :
    (s.throttleBack r).f F.PWR_RAIL_THM_REQ_MV r = min 850 (mgetD s.pw.thr r 850 + 10) := by
  rw [State.throttleBack, if_pos ⟨hr, hcool, by simp [hstack]⟩, if_neg (by omega)]
  refine State.thmReq_setPw ?event ?thr ?bound s
  case event => exact hd
  case thr => exact mgetD_mset_same _ _ _ _
  case bound => omega
end

/-- The end of a rate-of-rise hold leaves the throttle's request (R499). -/
theorem State.rateHoldEnd_restores {s : State} {r : Nat} (ht : mgetD s.pw.thr r 850 < 2 ^ 16) :
    mget (s.rateHoldEnd r).pw.dtdt r = none ∧ (s.rateHoldEnd r).f F.PWR_RAIL_THM_REQ_MV r = mgetD s.pw.thr r 850 := by
  have hd : mget (mdel s.pw.dtdt r) r = none := mget_mdel_same _ _
  refine ⟨hd, State.thmReq_setPw ?event ?thr ht s⟩
  case event => exact hd
  case thr => rfl

/-! ### Bask (R500 to R502) -/

theorem State.bask_setF (s : State) {v : Nat} (hv : v < 4) : (s.setF F.PWR_BASK_STATE v).f F.PWR_BASK_STATE = v :=
  (State.f_setF_same _ _ _ _ _ (by decide)).trans (Nat.mod_eq_of_lt hv)

theorem State.f_heatClock (s : State) (on : Bool) (x : Fld) (i j : Nat) (hx : .PWR_BASK ≠ x.reg) : (s.heatClock on).f x i j = s.f x i j :=
  State.f_setF_reg (s.setPw _) _ _ _ _ _ _ _ hx (by decide)

/-- Every sensor is warm enough for bask to be DONE (R500). -/
def State.baskDone (s : State) : Prop :=
  (∀ n < 74, s.hasReading n = true ∧ 100 ≤ s.reading n) ∧ ∀ n, 74 ≤ n → n < 98 → s.hasReading n = true ∧ 0 ≤ s.reading n

theorem mem_natRange {a n x : Nat} : x ∈ natRange a n ↔ a ≤ x ∧ x < a + n := by
  simp only [natRange, List.mem_map, List.mem_range]
  exact ⟨by rintro ⟨k, hk, rfl⟩; omega, fun h => ⟨x - a, by omega⟩⟩

theorem State.baskDone_iff (s : State) :
    (((List.range 74).all fun n => s.hasReading n && decide (100 ≤ s.reading n)) &&
      (natRange 74 24).all fun n => s.hasReading n && decide (0 ≤ s.reading n)) = true ↔ s.baskDone := by
  simp only [State.baskDone, Bool.and_eq_true, List.all_eq_true, List.mem_range, mem_natRange, decide_eq_true_eq, and_imp]

theorem State.baskEval_done {s : State} (hs : s.stage = 4) (hw : s.baskDone) :
    s.baskEval.f F.PWR_BASK_STATE = 3 ∧ s.baskEval.stage = 5 := by
  have heval : s.baskEval = (((((s.heatClock false).setF F.PWR_BASK_STATE 3).capForce).lowerLevel (srcOf 84 6)).setStage 5) := by
    rw [State.baskEval, if_neg (not_not_intro hs)]
    exact if_pos ((State.baskDone_iff s).mpr hw)
  rw [heval]
  refine ⟨?_, State.stage_setStage _ (by decide)⟩
  rw [State.f_setStage _ _ _ _ _ (by decide) (by decide), State.f_lowerLevel _ _ _ _ _ rfl, State.f_capForce _ _ _ _ (by decide)]
  exact State.bask_setF _ (by decide)

/-- A colder sensor keeps the boot in cold hold (R500). -/
theorem State.baskEval_cold {s : State} (hs : s.stage = 4) (hc : ∃ n < 74, s.hasReading n = true ∧ s.reading n < -100) :
    s.baskEval.f F.PWR_BASK_STATE = 1 ∧ s.baskEval.stage = 4 := by
  have hdone : ¬ s.baskDone := by
    obtain ⟨n, hn, -, hcold⟩ := hc
    intro hw
    have hwarm := (hw.1 n hn).2
    omega
  have hany : ((List.range 74).any fun n => s.hasReading n && decide (s.reading n < -100)) = true := by
    simpa only [List.any_eq_true, List.mem_range, Bool.and_eq_true, decide_eq_true_eq] using hc
  have heval : s.baskEval = (((s.heatClock false).setF F.PWR_BASK_STATE 1).capForce).raiseLevel (srcOf 84 6) ⟨0, Master.sp.code, 0⟩ := by
    rw [State.baskEval, if_neg (not_not_intro hs)]
    exact (if_neg (mt (State.baskDone_iff s).mp hdone)).trans (if_pos hany)
  rw [heval]
  refine ⟨?_, Eq.trans ?_ hs⟩
  · rw [State.f_raiseLevel _ _ _ _ _ _ rfl, State.f_capForce _ _ _ _ (by decide)]
    exact State.bask_setF _ (by decide)
  · rw [State.stage, State.f_raiseLevel _ _ _ _ _ _ rfl, State.f_capForce _ _ _ _ (by decide),
      State.f_setF_reg _ _ _ _ _ _ _ _ (by decide) (by decide), State.f_heatClock _ _ _ _ _ (by decide)]
    rfl

theorem State.coldCheck_in_hold {s : State} (hb : s.f F.PWR_BASK_STATE = 1) : s.coldCheck = s.baskEval := if_pos hb

theorem State.baskTimeout_fails {s : State} (hs : s.stage = 4) (hb : s.f F.PWR_BASK_STATE = 2) (ht : s.boot.trial = []) :
    s.baskTimeout.stage = 15 ∧ s.baskTimeout.f F.CRU_BOOT_CAUSE = 1 := by
  rw [State.baskTimeout, if_pos ⟨hs, hb⟩]
  refine State.bootFail_no_trial ?_ (by decide)
  rw [(EyeFrame.raise (.refl _) _ _).boot_eq]
  exact ht

/-! ### The abort point of a stop (R504) -/

theorem State.stopAbort_idle {s : State} (hp : s.pwrState = 3) (hc : (s.qe.cmds.filter fun c => c.dispatched && !c.retired) = []) :
    s.stopAbort = foldS (List.range 16) (fun p s => s.portDisable p) s := by
  have hstop : ¬ s.f F.PWR_STATE_STATE ≠ 3 := not_not_intro hp
  rw [State.stopAbort, if_neg hstop, hc]
  rfl

end Sys2Proof.Machine

namespace Sys2Proof.Claims
open Sys2Proof Sys2Proof.Machine

/-! ### The obligation -/

theorem completes_of_done {i : Instr} {s u : State} {P : State → Prop} (he : exec i s = done u) (h : P u) : Completes i s P := ⟨u, he, h⟩

/-- A command that names a unit the module has. -/
theorem completes_of_onUnit {i : Instr} {s u : State} {ok : Bool} {P : State → Prop} (he : exec i s = onUnit ok (done u))
    (hok : ok = true) (h : P u) : Completes i s P := ⟨u, by rw [he, hok]; rfl, h⟩

/-- Settles O47: each clause is the fact about its operation. -/
theorem powerControlComplete : Obligations.PowerControlComplete := by
  intro s m
  refine ⟨?update, ?stack, ?stale, ?maxClr, ?settle, ?tick, ?cap, ?peak, ?lower, ?hold, ?endHold, ?raise, ?expire, ?warm, ?cold,
    ?timeout, ?abort⟩
  case update =>
    exact fun n part t hn hpart => completes_of_onUnit rfl (by simp [hpart]; omega) (State.temp_sensorUpdate s (by omega) part t)
  case stack =>
    exact fun k part t hk hpart ht => completes_of_onUnit rfl (by simp [hpart]; omega) (State.case_sensorUpdate s hk part ht)
  case stale => exact fun n hn => completes_of_onUnit rfl (by simp; omega) (State.failed_sensorStale s hn)
  case maxClr => exact fun n hn => completes_of_onUnit rfl (by simp; omega) ⟨State.max_clr s n, rfl⟩
  case settle => exact fun r hr hp ht => completes_of_onUnit rfl (by simp; omega) (State.setpoint_settled hr hp ht)
  case tick => exact fun watts fit hold hp hb => completes_of_onUnit rfl rfl (State.powerTick_on hp hb watts fit hold)
  case cap => exact fun v => completes_of_done rfl ⟨State.cap_capWrite s _, rfl⟩
  case peak => exact completes_of_done rfl ⟨State.f_setF_same _ _ _ _ _ (by decide), rfl⟩
  case lower => exact fun r hr hot hd hq => completes_of_onUnit rfl (decide_eq_true hr) (State.throttle_lowers hr hot hd hq)
  case hold => exact fun r hr hot hq => completes_of_onUnit rfl (decide_eq_true hr) (State.throttle_holds hr hot hq)
  case endHold => exact fun r hr hc hs hh => completes_of_onUnit rfl (decide_eq_true hr) (State.throttleBack_ends_hold hr hc hs hh)
  case raise => exact fun r hr hc hs hh hd => completes_of_onUnit rfl (decide_eq_true hr) (State.throttleBack_raises hr hc hs hh hd)
  case expire => exact fun r hr ht => completes_of_onUnit rfl (decide_eq_true hr) (State.rateHoldEnd_restores ht)
  case warm =>
    exact fun hs hb hdie hrest => completes_of_done rfl (State.coldCheck_in_hold hb ▸ State.baskEval_done hs ⟨hdie, hrest⟩)
  case cold => exact fun hs hb hc => completes_of_done rfl (State.coldCheck_in_hold hb ▸ State.baskEval_cold hs hc)
  case timeout => exact fun hs hb ht => completes_of_done rfl (State.baskTimeout_fails hs hb ht)
  case abort => exact fun hp hc => completes_of_done rfl (State.stopAbort_idle hp hc)

end Sys2Proof.Claims
end

section
/-! PROOF. The operations of margin control that its commands share (R37 to R48): what a measurement, a new tap code, a hold shown in
WNG_STATUS and a wear record leave in the registers and in the domains, and the fields and domains they leave alone. -/

namespace Sys2Proof.Machine

/-! ### Fields that a write spares -/

/-- Writing field `x`, whatever its indices, leaves field `y` alone: they share no bit, and the loaded fuse maps stay. -/
def Fld.spares (x y : Fld) : Bool := x.apart y && x.reg != .CRU_BOOT && decide (x.lsb + x.w ≤ 64)

@[simp] theorem State.f_setF_spared {s : State} {x y : Fld} {v i j a b : Nat} (h : x.spares y = true) :
    (s.setF x v i j).f y a b = s.f y a b := by
  simp only [Fld.spares, Fld.apart, Bool.and_eq_true, Bool.or_eq_true, bne_iff_ne, decide_eq_true_eq] at h
  obtain ⟨⟨hapart, hboot⟩, hw⟩ := h
  by_cases hr : x.reg = y.reg
  · exact State.f_setF_bits _ _ _ _ _ _ _ _ hr hboot hw (by tauto)
  · exact State.f_setF_reg _ _ _ _ _ _ _ _ hr hboot

@[simp] theorem State.f_bump_spared {s : State} {x y : Fld} {k i j a b : Nat} (h : x.spares y = true) :
    (s.bump x k i j).f y a b = s.f y a b := State.f_setF_spared h

/-- A value that fits a field is read back. -/
theorem State.f_setF_of_lt {s : State} {x : Fld} {v i j : Nat} (hw : x.lsb + x.w ≤ 64) (hv : v < 2 ^ x.w) :
    (s.setF x v i j).f x i j = v := (State.f_setF_same _ _ _ _ _ hw).trans (Nat.mod_eq_of_lt hv)

/-! ### Domains -/

@[simp] theorem State.dom_setF (s : State) (x : Fld) (v i j d : Nat) : (s.setF x v i j).dom d = s.dom d := rfl

@[simp] theorem State.dom_bump (s : State) (x : Fld) (k i j d : Nat) : (s.bump x k i j).dom d = s.dom d := rfl

@[simp] theorem State.dom_setDom_same (s : State) (d : Nat) (x : DomSt) : (s.setDom d x).dom d = x := mgetD_mset_same _ _ _ _

theorem State.dom_setDom_ne (s : State) {d a : Nat} (x : DomSt) (h : d ≠ a) : (s.setDom d x).dom a = s.dom a := mgetD_mset_ne _ _ _ h

@[simp] theorem State.f_setDom (s : State) (d : Nat) (x : DomSt) (y : Fld) (i j : Nat) : (s.setDom d x).f y i j = s.f y i j := rfl

/-! ### A measurement (Table 2-13) -/

theorem satSigned_byte_of_mem {q : Int} (hl : -128 ≤ q) (hu : q ≤ 127) : satSigned 8 q = q := by
  unfold satSigned
  rw [if_neg (by norm_num; omega), if_neg (by norm_num; omega)]

theorem toSigned_ofSigned_byte {q : Int} (hl : -128 ≤ q) (hu : q ≤ 127) : toSigned 8 (ofSigned 8 q) = q := by
  unfold toSigned ofSigned
  norm_num
  split <;> omega

@[simp] theorem State.dom_setSlack (s : State) (d : Nat) (q : Int) (a : Nat) : (s.setSlack d q).dom a = s.dom a := by
  unfold State.setSlack
  dsimp only
  split <;> rfl

@[simp] theorem State.f_setSlack {s : State} {d : Nat} {q : Int} {y : Fld} {a b : Nat} (hnow : F.MGN_DOM_SLACK_NOW.spares y = true)
    (hmin : F.MGN_DOM_SLACK_MIN.spares y = true) : (s.setSlack d q).f y a b = s.f y a b := by
  unfold State.setSlack
  dsimp only
  split
  · rw [State.f_setF_spared hmin, State.f_setF_spared hnow]
  · exact State.f_setF_spared hnow

theorem State.now_setSlack (s : State) (d : Nat) {q : Int} (hl : -128 ≤ q) (hu : q ≤ 127) :
    (s.setSlack d q).fS F.MGN_DOM_SLACK_NOW d = q := by
  have hset : (s.setF F.MGN_DOM_SLACK_NOW (ofSigned 8 q) d).f F.MGN_DOM_SLACK_NOW d = ofSigned 8 q :=
    State.f_setF_signed _ _ _ _ _ (by decide)
  have hnow : (s.setSlack d q).f F.MGN_DOM_SLACK_NOW d = ofSigned 8 q := by
    unfold State.setSlack
    rw [satSigned_byte_of_mem hl hu]
    dsimp only
    split
    · exact (State.f_setF_spared (by decide)).trans hset
    · exact hset
  exact (congrArg (toSigned 8) hnow).trans (toSigned_ofSigned_byte hl hu)

/-! ### A new tap code -/

@[simp] theorem State.margin_setTap (s : State) (d c : Nat) : (s.setTap d c).margin = s.margin := by
  unfold State.setTap
  dsimp only
  split <;> rfl

@[simp] theorem State.dom_setTap (s : State) (d c a : Nat) : (s.setTap d c).dom a = s.dom a := by
  rw [State.dom, State.margin_setTap, State.dom]

@[simp] theorem State.f_setTap {s : State} {d c : Nat} {y : Fld} {a b : Nat} (hcur : F.MGN_DOM_TAP_CURRENT.spares y = true)
    (hpeak : F.MGN_DOM_TAP_PEAK.spares y = true) : (s.setTap d c).f y a b = s.f y a b := by
  unfold State.setTap
  dsimp only
  split
  · rw [State.f_setF_spared hpeak, State.f_setF_spared hcur]
  · exact State.f_setF_spared hcur

theorem State.current_setTap (s : State) (d : Nat) {c : Nat} (hc : c < 64) : (s.setTap d c).f F.MGN_DOM_TAP_CURRENT d = c := by
  have hset : (s.setF F.MGN_DOM_TAP_CURRENT c d).f F.MGN_DOM_TAP_CURRENT d = c := State.f_setF_of_lt (by decide) hc
  unfold State.setTap
  dsimp only
  split
  · exact (State.f_setF_spared (by decide)).trans hset
  · exact hset

theorem State.tap_lt (s : State) (d : Nat) : s.f F.MGN_DOM_TAP_CURRENT d < 64 := State.f_lt _ _ _ _

/-! ### HELD of WNG_STATUS -/

@[simp] theorem State.dom_showHeld (s : State) (d a : Nat) : (s.showHeld d).dom a = s.dom a := by
  unfold State.showHeld
  split <;> rfl

@[simp] theorem State.f_showHeld {s : State} {d : Nat} {y : Fld} {a b : Nat} (h : F.WNG_STATUS_HELD.spares y = true) :
    (s.showHeld d).f y a b = s.f y a b := by
  unfold State.showHeld
  split
  · exact State.f_setF_spared h
  · rfl

end Sys2Proof.Machine
end

section
/-! PROOF. The margin controller's steps (R37 to R44): windows, holds, widening, relaxing and shadow captures, each with the state
it leads to, and `MarginStepsComplete` from them. -/

namespace Sys2Proof.Machine

/-! ### Holds (R39, R42) -/

/-- A hold begins: it is shown, counted and named in MGN_STATUS (R42). -/
def State.holdStarts (s : State) (d : Nat) : State :=
  ((((s.setDom d { s.dom d with held := true, deferred := false }).showHeld d).bump F.MGN_DOM_CNT_HOLDS 1 d).setF
    F.MGN_STATUS_HOLD_SEEN 1).setF F.MGN_STATUS_LAST_DOMAIN d

/-- A hold ends at slack `q`; the domain may go on widening (R39). -/
def State.holdEnds (s : State) (d : Nat) (q : Int) : State :=
  (s.setDom d { s.dom d with held := false, widening := s.goesOn q }).showHeld d

theorem State.holdStarts_spec (s : State) {d : Nat} (hd : d < 408) :
    ((s.holdStarts d).dom d).held = true ∧ (s.holdStarts d).f F.MGN_STATUS_HOLD_SEEN = 1 ∧
    (s.holdStarts d).f F.MGN_STATUS_LAST_DOMAIN = d ∧
    (s.holdStarts d).f F.MGN_DOM_CNT_HOLDS d = min (s.f F.MGN_DOM_CNT_HOLDS d + 1) (2 ^ F.MGN_DOM_CNT_HOLDS.w - 1) := by
  have hlast : d < 2 ^ F.MGN_STATUS_LAST_DOMAIN.w := show d < 512 by omega
  unfold State.holdStarts
  refine ⟨?held, ?seen, ?last, ?count⟩
  case held => simp
  case seen =>
    rw [State.f_setF_spared (by decide)]
    exact State.f_setF_same _ _ _ _ _ (by decide)
  case last => exact State.f_setF_of_lt (by decide) hlast
  case count => simp (disch := decide) [State.f_bump_same]

theorem State.f_holdStarts {s : State} {d : Nat} {y : Fld} {a b : Nat} (hheld : F.WNG_STATUS_HELD.spares y = true)
    (hcount : F.MGN_DOM_CNT_HOLDS.spares y = true) (hseen : F.MGN_STATUS_HOLD_SEEN.spares y = true)
    (hlast : F.MGN_STATUS_LAST_DOMAIN.spares y = true) : (s.holdStarts d).f y a b = s.f y a b := by
  simp [State.holdStarts, hheld, hcount, hseen, hlast]

theorem State.held_holdEnds (s : State) (d : Nat) (q : Int) : ((s.holdEnds d q).dom d).held = false := by simp [State.holdEnds]

theorem State.f_holdEnds {s : State} {d : Nat} {q : Int} {y : Fld} {a b : Nat} (h : F.WNG_STATUS_HELD.spares y = true) :
    (s.holdEnds d q).f y a b = s.f y a b := by simp [State.holdEnds, h]

theorem State.monitored_setSlack (s : State) (d : Nat) (q : Int) : (s.setSlack d q).monitored d = s.monitored d := by
  simp (disch := decide) [State.monitored]

section
variable {s : State} {d : Nat} {q : Int} (hm : s.monitored d = true)
include hm

theorem State.windowEnd_starts_hold (hq : q ≤ 4 * (s.f F.MGN_CTRL_FLOOR : Int)) (ht : s.f F.MGN_DOM_TAP_CURRENT d < 63)
    (hh : (s.dom d).held = false) : s.windowEnd d q = (s.setSlack d q).holdStarts d := by
  have ht' : (s.setSlack d q).f F.MGN_DOM_TAP_CURRENT d ≠ 63 := by rw [State.f_setSlack (by decide) (by decide)]; omega
  have hq' : q ≤ 4 * ((s.setSlack d q).f F.MGN_CTRL_FLOOR : Int) := by rwa [State.f_setSlack (by decide) (by decide)]
  unfold State.windowEnd
  simp only [State.monitored_setSlack, hm, State.dom_setSlack, hh, ht', hq', Bool.not_true, Bool.false_eq_true, and_false, ↓reduceIte]
  rw [State.holdStarts, State.dom_setSlack]

theorem State.windowEnd_ends_hold (hq : 4 * (s.f F.MGN_CTRL_WIDEN : Int) ≤ q) (hh : (s.dom d).held = true) :
    s.windowEnd d q = (s.setSlack d q).holdEnds d q := by
  have hq' : 4 * ((s.setSlack d q).f F.MGN_CTRL_WIDEN : Int) ≤ q := by rwa [State.f_setSlack (by decide) (by decide)]
  unfold State.windowEnd
  simp only [State.monitored_setSlack, hm, State.dom_setSlack, hh, hq', not_lt.mpr hq', Bool.not_true, Bool.false_eq_true,
    false_and, ↓reduceIte]
  rw [State.holdEnds, State.dom_setSlack]
end

/-! ### One code wider (R39, R42) -/

/-- A widening step: one code more, counted and seen. -/
def State.widened (s : State) (d : Nat) : State :=
  ((s.setTap d (s.f F.MGN_DOM_TAP_CURRENT d + 1)).bump F.MGN_DOM_CNT_WIDENS 1 d).setF F.MGN_STATUS_WIDEN_SEEN 1

theorem State.widened_spec {s : State} {d : Nat} (ht : s.f F.MGN_DOM_TAP_CURRENT d < 63) :
    (s.widened d).f F.MGN_DOM_TAP_CURRENT d = s.f F.MGN_DOM_TAP_CURRENT d + 1 ∧ (s.widened d).f F.MGN_STATUS_WIDEN_SEEN = 1 ∧
    (s.widened d).f F.MGN_DOM_CNT_WIDENS d = min (s.f F.MGN_DOM_CNT_WIDENS d + 1) (2 ^ F.MGN_DOM_CNT_WIDENS.w - 1) := by
  unfold State.widened
  refine ⟨?tap, ?seen, ?count⟩
  case tap =>
    rw [State.f_setF_spared (by decide), State.f_bump_spared (by decide)]
    exact State.current_setTap _ _ (by omega)
  case seen => exact State.f_setF_same _ _ _ _ _ (by decide)
  case count => simp (disch := decide) [State.f_bump_same]

theorem State.f_widened {s : State} {d : Nat} {y : Fld} {a b : Nat} (hcur : F.MGN_DOM_TAP_CURRENT.spares y = true)
    (hpeak : F.MGN_DOM_TAP_PEAK.spares y = true) (hcount : F.MGN_DOM_CNT_WIDENS.spares y = true)
    (hseen : F.MGN_STATUS_WIDEN_SEEN.spares y = true) : (s.widened d).f y a b = s.f y a b := by
  simp [State.widened, hcur, hpeak, hcount, hseen]

theorem State.dom_widened (s : State) (d a : Nat) : (s.widened d).dom a = s.dom a := by simp [State.widened]

theorem State.tapWiden_widens {s : State} {d : Nat} (hm : s.monitored d = true) (hw : (s.dom d).widening = true) (hh : (s.dom d).held = false)
    (ha : s.f F.MGN_CTRL_AUTO_WIDEN = 1) (ht : s.f F.MGN_DOM_TAP_CURRENT d < 63) (he : s.examined d = false)
    (hs : s.fS F.MGN_DOM_SLACK_NOW d < 4 * (s.f F.MGN_CTRL_TARGET : Int)) : s.tapWiden d = s.widened d := by
  unfold State.tapWiden
  exact if_pos ⟨hw, by simp [hh], ha, ht, hm, by simp [he], hs⟩

/-- A hold's step below code 62: a code wider, the measurement, and the release where it reaches WIDEN (R42). -/
theorem State.holdWiden_eq {s : State} {d : Nat} (hm : s.monitored d = true) (q : Int) (hh : (s.dom d).held = true)
    (ht : s.f F.MGN_DOM_TAP_CURRENT d < 62) :
    s.holdWiden d q = if q < 4 * (s.f F.MGN_CTRL_WIDEN : Int) then (s.widened d).setSlack d q
      else ((s.widened d).setSlack d q).holdEnds d q := by
  have hwiden : ((s.widened d).setSlack d q).f F.MGN_CTRL_WIDEN = s.f F.MGN_CTRL_WIDEN := by
    rw [State.f_setSlack (by decide) (by decide), State.f_widened (by decide) (by decide) (by decide) (by decide)]
  have htap : ((s.widened d).setSlack d q).f F.MGN_DOM_TAP_CURRENT d ≠ 63 := by
    rw [State.f_setSlack (by decide) (by decide), (State.widened_spec (by omega)).1]
    omega
  have hc : s.f F.MGN_DOM_TAP_CURRENT d < 63 := by omega
  unfold State.holdWiden
  simp only [hh, hm, hc, Bool.not_true, Bool.false_eq_true, or_self, ↓reduceIte]
  rw [← State.widened, hwiden, if_neg htap, ← State.holdEnds]
  by_cases hq : q < 4 * (s.f F.MGN_CTRL_WIDEN : Int)
  · rw [if_pos hq, if_neg (by omega)]
  · rw [if_neg hq, if_pos (by omega)]

theorem State.holdWiden_spec {s : State} {d : Nat} (hm : s.monitored d = true) (q : Int) (hh : (s.dom d).held = true)
    (ht : s.f F.MGN_DOM_TAP_CURRENT d < 62) :
    (s.holdWiden d q).f F.MGN_DOM_TAP_CURRENT d = s.f F.MGN_DOM_TAP_CURRENT d + 1 ∧
    ((s.holdWiden d q).dom d).held = decide (q < 4 * (s.f F.MGN_CTRL_WIDEN : Int)) := by
  have htap : ((s.widened d).setSlack d q).f F.MGN_DOM_TAP_CURRENT d = s.f F.MGN_DOM_TAP_CURRENT d + 1 :=
    (State.f_setSlack (by decide) (by decide)).trans (State.widened_spec (by omega)).1
  rw [State.holdWiden_eq hm q hh ht]
  split
  next hq => exact ⟨htap, by simp [State.dom_widened, hh, hq]⟩
  next hq =>
    exact ⟨(State.f_holdEnds (by decide)).trans htap, by simp [State.held_holdEnds, hq]⟩

/-! ### One code narrower (R41) -/

theorem State.planned_lt_of_mayRelax {s : State} {d : Nat} (h : s.mayRelax d = true) :
    s.f F.MGN_DOM_TAP_PLANNED d + (s.dom d).bask < s.f F.MGN_DOM_TAP_CURRENT d := by
  simp only [State.mayRelax, Bool.and_eq_true, decide_eq_true_eq] at h
  exact h.1.2

theorem State.narrow_spec {s : State} {d : Nat} (ht : 0 < s.f F.MGN_DOM_TAP_CURRENT d) :
    (s.narrow d).f F.MGN_DOM_TAP_CURRENT d + 1 = s.f F.MGN_DOM_TAP_CURRENT d ∧ ((s.narrow d).dom d).deferred = false ∧
    (s.narrow d).f F.MGN_DOM_CNT_RELAXES d = min (s.f F.MGN_DOM_CNT_RELAXES d + 1) (2 ^ F.MGN_DOM_CNT_RELAXES.w - 1) := by
  have hlt := s.tap_lt d
  unfold State.narrow
  refine ⟨?tap, ?deferred, ?count⟩
  case tap =>
    rw [State.f_setDom, State.f_bump_spared (by decide), State.current_setTap _ _ (by omega)]
    omega
  case deferred => simp
  case count => simp (disch := decide) [State.f_bump_same]

theorem State.tapRelax_narrows {s : State} {d : Nat} (h : s.mayRelax d = true) (hr : s.relaxRaises d = false) :
    s.tapRelax d = s.narrow d := by simp [State.tapRelax, h, hr]

theorem State.tapRelax_defers {s : State} {d : Nat} (h : s.mayRelax d = true) (hr : s.relaxRaises d = true) :
    s.tapRelax d = s.setDom d { s.dom d with deferred := true } := by simp [State.tapRelax, h, hr]

theorem State.relaxAgain_narrows {s : State} {d : Nat} (h : s.mayRelax d = true) (hr : s.relaxRaises d = false)
    (hd : (s.dom d).deferred = true) : s.relaxAgain d = s.narrow d := by simp [State.relaxAgain, h, hr, hd]

/-! ### Shadow captures (R44) -/

theorem State.shadowFlag_spec (s : State) (d : Nat) :
    (s.shadowFlag d).f F.MGN_DOM_TAP_CURRENT d = min 63 (s.f F.MGN_DOM_TAP_CURRENT d + 1) ∧
    (s.shadowFlag d).f F.MGN_STATUS_SHADOW_SEEN = 1 ∧
    (s.shadowFlag d).f F.MGN_DOM_CNT_SHADOW d = min (s.f F.MGN_DOM_CNT_SHADOW d + 1) (2 ^ F.MGN_DOM_CNT_SHADOW.w - 1) := by
  have hlt := s.tap_lt d
  unfold State.shadowFlag
  dsimp only
  refine ⟨?tap, State.f_setF_same _ _ _ _ _ (by decide), ?count⟩
  case tap =>
    rw [State.f_setF_spared (by decide), State.f_bump_spared (by decide)]
    split
    · rw [State.f_setF_spared (by decide), State.current_setTap _ _ (by omega)]
      omega
    · omega
  case count =>
    rw [State.f_setF_spared (by decide), State.f_bump_same _ _ _ _ _ (by decide)]
    split
    · simp (disch := decide)
    · rfl

end Sys2Proof.Machine

namespace Sys2Proof.Claims
open Sys2Proof Sys2Proof.Machine

/-! ### The obligation -/

/-- Settles O13: each clause is the fact about its step. -/
theorem marginStepsComplete : Obligations.MarginStepsComplete := by
  intro s d hd hm
  have hunit : decide (d < 408) = true := decide_eq_true hd
  refine ⟨?hold, ?release, ?widen, ?holdWiden, ?relax, ?defer, ?again, ?shadow⟩
  case hold =>
    intro q hl hq hu ht hh
    refine completes_of_onUnit rfl hunit ?_
    rw [State.windowEnd_starts_hold hm hq ht hh]
    obtain ⟨hheld, hseen, hlast, hcount⟩ := State.holdStarts_spec (s.setSlack d q) hd
    refine ⟨hheld, ?now, hseen, hlast, ?count, ?tap⟩
    case now =>
      exact (congrArg (toSigned 8) (State.f_holdStarts (by decide) (by decide) (by decide) (by decide))).trans
        (State.now_setSlack s d hl hu)
    case count => rw [hcount, State.f_setSlack (by decide) (by decide)]
    case tap =>
      exact (State.f_holdStarts (by decide) (by decide) (by decide) (by decide)).trans (State.f_setSlack (by decide) (by decide))
  case release =>
    intro q hq hu hl hh
    refine completes_of_onUnit rfl hunit ?_
    rw [State.windowEnd_ends_hold hm hq hh]
    exact ⟨State.held_holdEnds _ _ _,
      (congrArg (toSigned 8) (State.f_holdEnds (by decide))).trans (State.now_setSlack s d hl hu)⟩
  case widen =>
    intro hw hh ha ht he hs
    exact completes_of_onUnit rfl hunit (State.tapWiden_widens hm hw hh ha ht he hs ▸ State.widened_spec ht)
  case holdWiden => exact fun q hh ht => completes_of_onUnit rfl hunit (State.holdWiden_spec hm q hh ht)
  case relax =>
    intro h hr
    obtain ⟨htap, -, hcount⟩ := State.narrow_spec (Nat.zero_lt_of_lt (State.planned_lt_of_mayRelax h))
    exact completes_of_onUnit rfl hunit (State.tapRelax_narrows h hr ▸ ⟨htap, hcount⟩)
  case defer =>
    intro h hr
    refine completes_of_onUnit rfl hunit ?_
    rw [State.tapRelax_defers h hr]
    exact ⟨by simp, rfl⟩
  case again =>
    intro h hr hdef
    obtain ⟨htap, hdone, -⟩ := State.narrow_spec (Nat.zero_lt_of_lt (State.planned_lt_of_mayRelax h))
    exact completes_of_onUnit rfl hunit (State.relaxAgain_narrows h hr hdef ▸ ⟨htap, hdone⟩)
  case shadow => exact completes_of_onUnit rfl hunit (State.shadowFlag_spec s d)

end Sys2Proof.Claims
end

section
/-! PROOF. The margin registers (R38, R47, R48, R58, R60) and a register write of PWR_CTRL (R6, R8): what each write stores, and
`MarginRegistersComplete` from it. -/

namespace Sys2Proof.Machine

/-! ### PLANNED and SWEEP_OFF (R47, R48) -/

theorem State.f_reserveUsed {s : State} {d : Nat} {y : Fld} {a b : Nat} (h : F.MGN_STATUS_RESERVE_USED.spares y = true) :
    (s.reserveUsed d).f y a b = s.f y a b := by
  unfold State.reserveUsed
  split
  · exact State.f_setF_spared h
  · rfl

/-- A write of PLANNED stores no less than FACTORY, and CURRENT follows it up (R47). -/
theorem State.planWrite_spec (s : State) (d : Nat) {v : Nat} (hv : v < 64) :
    (s.planWrite d v).f F.MGN_DOM_TAP_PLANNED d = max v (s.f F.MGN_DOM_TAP_FACTORY d) ∧
    (s.planWrite d v).f F.MGN_DOM_TAP_CURRENT d = max (max v (s.f F.MGN_DOM_TAP_FACTORY d)) (s.f F.MGN_DOM_TAP_CURRENT d) := by
  have hfactory : s.f F.MGN_DOM_TAP_FACTORY d < 64 := State.f_lt _ _ _ _
  have hmax : max v (s.f F.MGN_DOM_TAP_FACTORY d) < 64 := by omega
  unfold State.planWrite
  rw [Nat.mod_eq_of_lt hv]
  generalize max v (s.f F.MGN_DOM_TAP_FACTORY d) = p at hmax ⊢
  have hplanned : (s.setF F.MGN_DOM_TAP_PLANNED p d).f F.MGN_DOM_TAP_PLANNED d = p := State.f_setF_of_lt (by decide) hmax
  have hcurrent : (s.setF F.MGN_DOM_TAP_PLANNED p d).f F.MGN_DOM_TAP_CURRENT d = s.f F.MGN_DOM_TAP_CURRENT d := State.f_setF_spared (by decide)
  dsimp only
  rw [State.f_reserveUsed (by decide), State.f_reserveUsed (by decide), hcurrent]
  split
  · rw [State.f_setTap (by decide) (by decide), State.current_setTap _ _ hmax]
    omega
  · omega

/-- The condition on which a write of SWEEP_OFF is taken (R48). -/
def State.sweepOffTaken (s : State) (d : Nat) (m : Master) : Bool :=
  decide (d < 384) && decide (d % 6 < 4) && s.wingState (d / 6) == 1 && m == Master.sp && !(s.dom d).held &&
    s.eye.sweeps.any fun x => x.running && x.wing == d / 6

theorem State.sweepOff_sweepOffWrite (s : State) (d v : Nat) (m : Master) :
    (s.sweepOffWrite d v m).f F.MGN_DOM_TAP_SWEEP_OFF d = if s.sweepOffTaken d m then v % 8 else 0 := by
  refine State.f_setF_of_lt (by decide) ?_
  show _ < 8
  split <;> omega

/-! ### MGN_CTRL (R38, R60) -/

theorem testBit_bitsAt (v l w n : Nat) : (bitsAt v l w).testBit n = (decide (n < w) && v.testBit (l + n)) := by
  rw [bitsAt, Nat.testBit_mod_two_pow, Nat.testBit_shiftRight]

/-- The reserved bits 2 to 7 and those above the last field are zero in the word that MGN_CTRL stores; its other bits are as written. -/
theorem bitsAt_mgnCtrlWord (v : Nat) {l w : Nat} (hl : 8 ≤ l) (hw : l + w ≤ 56) :
    bitsAt (v % 2 ^ 56 - bitsAt v 2 6 * 4) l w = bitsAt v l w := by
  have hlow : bitsAt v 2 6 = v / 4 % 64 := by simp [bitsAt, Nat.shiftRight_eq_div_pow]
  have hhigh : (v % 2 ^ 56 - bitsAt v 2 6 * 4) >>> 8 = (v % 2 ^ 56) >>> 8 := by
    rw [hlow, Nat.shiftRight_eq_div_pow, Nat.shiftRight_eq_div_pow]
    omega
  obtain ⟨k, rfl⟩ : ∃ k, l = 8 + k := ⟨l - 8, by omega⟩
  calc bitsAt (v % 2 ^ 56 - bitsAt v 2 6 * 4) (8 + k) w
    _ = (v % 2 ^ 56 - bitsAt v 2 6 * 4) >>> 8 >>> k % 2 ^ w := by rw [← Nat.shiftRight_add]; rfl
    _ = bitsAt (v % 2 ^ 56) (8 + k) w := by rw [hhigh, ← Nat.shiftRight_add]; rfl
    _ = bitsAt v (8 + k) w := Nat.eq_of_testBit_eq fun n => by
        rw [testBit_bitsAt, testBit_bitsAt, Nat.testBit_mod_two_pow]
        by_cases hn : n < w
        · simp [show 8 + k + n < 56 by omega]
        · simp [hn]

theorem getBits_ofNat {n : Nat} (hn : n < 2 ^ 64) (l w : Nat) : getBits (BitVec.ofNat 64 n) l w = bitsAt n l w := by
  rw [getBits, BitVec.toNat_ofNat, Nat.mod_eq_of_lt hn, bitsAt]

/-- The thresholds in their order (R38). -/
def thresholdsOrdered (v : Nat) : Prop :=
  1 ≤ bitsAt v 24 8 ∧ bitsAt v 24 8 < bitsAt v 16 8 ∧ bitsAt v 16 8 < bitsAt v 8 8 ∧ 6 ≤ bitsAt v 8 8 ∧ bitsAt v 8 8 < bitsAt v 32 8

theorem State.mgnCtrlWrite_taken {v : Nat} (h : thresholdsOrdered v) (s : State) (m : Master) :
    s.mgnCtrlWrite v m = s.wr .MGN_CTRL (BitVec.ofNat 64 (v % 2 ^ 56 - bitsAt v 2 6 * 4)) := if_pos h

theorem State.mgnCtrlWrite_refused {v : Nat} (h : ¬ thresholdsOrdered v) (s : State) (m : Master) :
    s.mgnCtrlWrite v m = s.cfgErr (RegKey.addr ⟨.MGN_CTRL, 0, 0⟩) m := if_neg h

/-- A field of MGN_CTRL above the flags reads as written. -/
theorem State.f_mgnCtrlWrite {v : Nat} (h : thresholdsOrdered v) (s : State) (m : Master) (l w : Nat) (hl : 8 ≤ l) (hw : l + w ≤ 56) :
    (s.mgnCtrlWrite v m).f ⟨.MGN_CTRL, l, w⟩ = bitsAt v l w := by
  rw [State.mgnCtrlWrite_taken h, State.f, State.rd_wr_same, getBits_ofNat (by omega), bitsAt_mgnCtrlWord v hl hw]

theorem State.rd_cfgErr (s : State) (a : Nat) (m : Master) (n : RegName) (i j : Nat) (hn : eyeReg n = false) :
    (s.cfgErr a m).rd n i j = s.rd n i j := ((EyeFrame.refl s).raise _ _).rd n i j hn

/-! ### A register write of PWR_CTRL (R6, R8) -/

/-- A 64-bit write of `v` over all bits of a register. -/
def fullWrite (s : State) (k : RegKey) (v : Nat) (m : Master) : CtlWrite := ⟨0, 64, s.readReg k, v, v, m⟩

theorem State.ctlWrite_pwrCtrl (s : State) {v : Nat} (hv : v < 2 ^ 64) (m : Master) :
    (s.ctlWrite (RegKey.addr ⟨.PWR_CTRL, 0, 0⟩) 8 v m).2 = s.regStore ⟨.PWR_CTRL, 0, 0⟩ (fullWrite s ⟨.PWR_CTRL, 0, 0⟩ v m) := by
  have hshape : ctlShape (RegKey.addr ⟨.PWR_CTRL, 0, 0⟩) 8 = true := by decide
  have hblock : ctlBlock (RegKey.addr ⟨.PWR_CTRL, 0, 0⟩) = some (.regs regsPwr) := by decide
  have hreg : findReg regsPwr (RegKey.addr ⟨.PWR_CTRL, 0, 0⟩) = some ⟨.PWR_CTRL, 0, 0⟩ := by decide
  have hword : v % 18446744073709551616 = v := Nat.mod_eq_of_lt hv
  simp [State.ctlWrite, hshape, hblock, hreg, hword, fullWrite]

/-- Both fields of PWR_CTRL take the bits of the word. -/
theorem storeAll_pwrCtrl (s : State) (v : Nat) (m : Master) (lcs : Nat) (x : Word) :
    RegKey.storeAll ⟨.PWR_CTRL, 0, 0⟩ lcs (fullWrite s ⟨.PWR_CTRL, 0, 0⟩ v m) x =
      setBits (setBits x 0 1 (clampNat 0 1 (bitsAt v 0 1))) 1 1 (clampNat 0 1 (bitsAt v 1 1)) := rfl

/-- PWR_CTRL has no locked field and no effect beyond its store. -/
theorem State.regStore_pwrCtrl (s : State) (c : CtlWrite) :
    s.regStore ⟨.PWR_CTRL, 0, 0⟩ c =
      if RegKey.storeAll ⟨.PWR_CTRL, 0, 0⟩ s.lcs c (s.rd .PWR_CTRL) = s.rd .PWR_CTRL then s
      else s.wr .PWR_CTRL (RegKey.storeAll ⟨.PWR_CTRL, 0, 0⟩ s.lcs c (s.rd .PWR_CTRL)) := rfl

/-- A 64-bit write of 0 or 1 to PWR_CTRL: AUTO_RESTART takes it, LOW_HEAT_EN is cleared, and only registers change. -/
theorem State.regStore_pwrCtrl_spec (s : State) {v : Nat} (hv : v < 2) (m : Master) {t : State}
    (ht : t = s.regStore ⟨.PWR_CTRL, 0, 0⟩ (fullWrite s ⟨.PWR_CTRL, 0, 0⟩ v m)) :
    t.f F.PWR_CTRL_AUTO_RESTART = v ∧ t.f F.PWR_CTRL_LOW_HEAT_EN = 0 ∧ { t with regs := s.regs } = s := by
  have hstored : t.rd .PWR_CTRL = setBits (setBits (s.rd .PWR_CTRL) 0 1 (clampNat 0 1 (bitsAt v 0 1))) 1 1 (clampNat 0 1 (bitsAt v 1 1)) ∧
      { t with regs := s.regs } = s := by
    rw [ht, ← storeAll_pwrCtrl s v m s.lcs, State.regStore_pwrCtrl]
    split
    next h => exact ⟨h.symm, rfl⟩
    next h => exact ⟨State.rd_wr_same _ _ _ _ _, rfl⟩
  obtain ⟨hrd, hrest⟩ := hstored
  refine ⟨(?restart : getBits (t.rd .PWR_CTRL) 0 1 = v), (?heat : getBits (t.rd .PWR_CTRL) 1 1 = 0), hrest⟩
  case restart =>
    rw [hrd, getBits_setBits_ne _ _ _ _ _ _ (by decide) (by decide), getBits_setBits_same _ _ _ _ (by decide)]
    interval_cases v <;> rfl
  case heat =>
    rw [hrd, getBits_setBits_same _ _ _ _ (by decide)]
    interval_cases v <;> rfl

theorem quiet_of_regs {s t : State} (h : { t with regs := s.regs } = s) (hq : s.quiet = true) : t.quiet = true := by
  rw [← h] at hq
  exact hq

end Sys2Proof.Machine

namespace Sys2Proof.Claims
open Sys2Proof Sys2Proof.Machine

/-! ### The obligation -/

/-- A command on a unit whose own effect leaves the block quiet ends in that effect. -/
theorem next_of_onUnit {i : Instr} {s t : State} {ok : Bool} {P : State → Prop} (he : exec i s = onUnit ok (done t)) (hok : ok = true)
    (hq : t.quiet = true) (h : P t) : ∃ t, exec i s = .next t ∧ P t := ⟨t, by rw [he, hok, onUnit_true, done_of_quiet hq], h⟩

/-- Settles O14: each clause is the fact about its write; a write that changes registers alone leaves a quiet block quiet. -/
theorem marginRegistersComplete : Obligations.MarginRegistersComplete := by
  intro s d m hd
  have hunit : decide (d < 408) = true := decide_eq_true hd
  have hfactory : s.f F.MGN_DOM_TAP_FACTORY d < 64 := State.f_lt _ _ _ _
  refine ⟨?planned, ?factory, ?sweep, ?noSweep, ?peak, ?min, ?steps, ?taken, ?refused, ?pwrCtrl⟩
  case planned =>
    intro v hv hf
    obtain ⟨hplanned, hcurrent⟩ := State.planWrite_spec s d hv
    exact completes_of_onUnit rfl hunit ⟨by omega, by omega, by omega⟩
  case factory =>
    intro v hf
    obtain ⟨hplanned, -⟩ := State.planWrite_spec s d (by omega : v < 64)
    exact completes_of_onUnit rfl hunit (by omega)
  case sweep =>
    intro v hv hwing harray hstate hheld ⟨x, hx, hrunning, hw⟩
    have htaken : s.sweepOffTaken d .sp = true := by
      have hany : (s.eye.sweeps.any fun x => x.running && x.wing == d / 6) = true := List.any_eq_true.mpr ⟨x, hx, by simp [hrunning, hw]⟩
      simp [State.sweepOffTaken, hwing, harray, hstate, hheld, hany]
    refine completes_of_onUnit rfl hunit ?_
    rw [State.sweepOff_sweepOffWrite, if_pos htaken, Nat.mod_eq_of_lt hv]
  case noSweep =>
    intro v hstate
    have htaken : ¬ s.sweepOffTaken d m = true := by simp [State.sweepOffTaken, hstate]
    refine completes_of_onUnit rfl hunit ?_
    rw [State.sweepOff_sweepOffWrite, if_neg htaken]
  case peak =>
    intro hq
    exact next_of_onUnit rfl hunit hq
      ⟨State.f_setF_of_lt (by decide) (s.tap_lt d), State.f_setF_spared (by decide), rfl⟩
  case min =>
    intro hq
    exact next_of_onUnit rfl hunit hq
      ⟨State.f_setF_of_lt (by decide) (State.f_lt s F.MGN_DOM_SLACK_NOW d 0), State.f_setF_spared (by decide), rfl⟩
  case steps =>
    intro w hw hq
    exact next_of_onUnit rfl (decide_eq_true hw) hq ⟨rfl, State.rd_wr_same s .MGN_RATE_TIME (s.rd .CRU_TIME) w 0⟩
  case taken =>
    intro v t wd fl ra hfl hwd ht ht6 hra hq
    have hord : thresholdsOrdered v := ⟨hfl, hwd, ht, ht6, hra⟩
    have hrest : { s.mgnCtrlWrite v m with regs := s.regs } = s := by rw [State.mgnCtrlWrite_taken hord]; rfl
    have hfield := State.f_mgnCtrlWrite hord s m
    exact ⟨s.mgnCtrlWrite v m, done_of_quiet (quiet_of_regs hrest hq), hfield 8 8 (by decide) (by decide),
      hfield 16 8 (by decide) (by decide), hfield 24 8 (by decide) (by decide), hfield 32 8 (by decide) (by decide), hrest⟩
  case refused =>
    intro v hv
    have hord : ¬ thresholdsOrdered v := fun ⟨_, hwd, _⟩ => absurd hwd (Nat.not_lt.mpr hv)
    refine completes_of_done rfl ?_
    rw [State.mgnCtrlWrite_refused hord]
    exact State.rd_cfgErr _ _ _ _ _ _ rfl
  case pwrCtrl =>
    intro v hv hq
    obtain ⟨hrestart, hheat, hrest⟩ := State.regStore_pwrCtrl_spec s hv m rfl
    exact ⟨_, (congrArg done (State.ctlWrite_pwrCtrl s (by omega) m)).trans (done_of_quiet (quiet_of_regs hrest hq)), hrestart, hheat, hrest⟩

end Sys2Proof.Claims
end

section
/-! PROOF. The voltage floor, margin exhaustion, temper passes and bask taps (R43, R46, R51 to R57): what each leaves in the registers
of margin control and in the pass, and `MarginPassesComplete` from it. -/

namespace Sys2Proof.Machine

/-! ### The voltage floor (R46) -/

theorem State.needMv_le (s : State) (d : Nat) (q : Int) : s.needMv d q ≤ 850 := by
  unfold State.needMv
  dsimp only
  split <;> split
  next => rfl
  next => decide
  next => decide
  next => split <;> omega

/-- The voltage and the domain that `floorOf` keeps of those it has seen: the first of the highest. -/
def keepHigher (need : Nat → Nat) (acc : Nat × Nat) (d : Nat) : Nat × Nat := if need d > acc.1 then (need d, d) else acc

theorem State.floorOf_eq (s : State) (r : Nat) :
    s.floorOf r = (railDoms r).foldl (keepHigher fun d => s.needMv d (s.fS F.MGN_DOM_SLACK_NOW d)) (600, (railDoms r).headD 0) := rfl

theorem keepHigher_fst (need : Nat → Nat) (acc : Nat × Nat) (d : Nat) : (keepHigher need acc d).1 = max acc.1 (need d) := by
  unfold keepHigher
  split
  · simp only [max_def]
    split <;> omega
  · exact (Nat.max_eq_left (by omega)).symm

theorem foldl_keepHigher_le_iff (need : Nat → Nat) (l : List Nat) (acc : Nat × Nat) (b : Nat) :
    (l.foldl (keepHigher need) acc).1 ≤ b ↔ acc.1 ≤ b ∧ ∀ d ∈ l, need d ≤ b := by
  induction l generalizing acc with
  | nil => simp
  | cons d l ih => simp [ih, keepHigher_fst, and_assoc]

/-- The floor of a rail is the highest of 600 mV and what its domains need. -/
theorem State.floorOf_le_iff (s : State) (r b : Nat) :
    (s.floorOf r).1 ≤ b ↔ 600 ≤ b ∧ ∀ d ∈ railDoms r, s.needMv d (s.fS F.MGN_DOM_SLACK_NOW d) ≤ b := by
  rw [State.floorOf_eq, foldl_keepHigher_le_iff]

theorem State.floor_recomputeFloor (s : State) (r : Nat) : (s.recomputeFloor r).f F.MGN_VFLOOR_FLOOR_MV r = (s.floorOf r).1 := by
  have hle : (s.floorOf r).1 ≤ 850 := (s.floorOf_le_iff r 850).mpr ⟨by decide, fun d _ => s.needMv_le d _⟩
  have hlt : (s.floorOf r).1 < 2 ^ F.MGN_VFLOOR_FLOOR_MV.w := Nat.lt_of_le_of_lt hle (by decide)
  exact (State.f_setF_spared (by decide)).trans (State.f_setF_of_lt (by decide) hlt)

theorem State.f_recomputeFloor {s : State} {r : Nat} {y : Fld} {a b : Nat} (hfloor : F.MGN_VFLOOR_FLOOR_MV.spares y = true)
    (hlimit : F.MGN_VFLOOR_LIMIT_DOMAIN.spares y = true) : (s.recomputeFloor r).f y a b = s.f y a b :=
  (State.f_setF_spared hlimit).trans (State.f_setF_spared hfloor)

/-! ### Exhaustion (R43) -/

theorem State.f_wearLog (s : State) (d kind before after : Nat) (slack : Int) (erosion : Nat) (y : Fld) (a b : Nat) :
    (s.wearLog d kind before after slack erosion).f y a b = s.f y a b := rfl

theorem State.held_wearLog (s : State) (d kind before after : Nat) (slack : Int) (erosion : Nat) :
    ((s.wearLog d kind before after slack erosion).dom d).held = (s.dom d).held := by
  have hdom : (s.wearLog d kind before after slack erosion).dom d =
      { s.dom d with recHolds := s.f F.MGN_DOM_CNT_HOLDS d, recShadow := s.f F.MGN_DOM_CNT_SHADOW d } := State.dom_setDom_same _ _ _
  rw [hdom]

/-- The exhaustion of a domain as the registers and the domain show it, before its wear record and its source. -/
def State.shownExhausted (s : State) (d : Nat) : State :=
  ((((s.setF F.MGN_DOM_TAP_EXHAUSTED 1 d).setDom d { s.dom d with held := true, widening := false, deferred := false }).showHeld d).setF
    F.MGN_STATUS_EXHAUSTED 1).setF F.MGN_STATUS_LAST_DOMAIN d

/-- A runner, ladle or turn domain belongs to no wing: its exhaustion takes none out of service. -/
theorem State.exhaust_outside_wings {s : State} {d : Nat} (hd : 384 ≤ d) (he : s.f F.MGN_DOM_TAP_EXHAUSTED d = 0) :
    let t := s.shownExhausted d
    let p := t.f F.MGN_DOM_TAP_PLANNED d
    s.exhaust d = (t.wearLog d 4 p p (t.fS F.MGN_DOM_SLACK_NOW d) (t.f F.MGN_DOM_SLACK_EROSION d)).raise (domSource d)
      ⟨d, (domMaster d).code, 0⟩ := by
  have hwing : domWing d = none := if_neg (by omega)
  have hnot : ¬ s.f F.MGN_DOM_TAP_EXHAUSTED d = 1 := by omega
  intro t p
  rw [State.exhaust, if_neg hnot, hwing]
  rfl

theorem State.exhaust_spec {s : State} {d : Nat} (hl : 384 ≤ d) (hu : d < 408) (he : s.f F.MGN_DOM_TAP_EXHAUSTED d = 0) :
    (s.exhaust d).f F.MGN_STATUS_EXHAUSTED = 1 ∧ (s.exhaust d).f F.MGN_STATUS_LAST_DOMAIN = d ∧ ((s.exhaust d).dom d).held = true := by
  have hlast : d < 2 ^ F.MGN_STATUS_LAST_DOMAIN.w := show d < 512 by omega
  rw [State.exhaust_outside_wings hl he]
  refine ⟨?exhausted, ?last, ?held⟩
  case exhausted =>
    rw [State.f_raise _ _ _ _ _ _ rfl, State.f_wearLog, State.shownExhausted, State.f_setF_spared (by decide)]
    exact State.f_setF_same _ _ _ _ _ (by decide)
  case last =>
    rw [State.f_raise _ _ _ _ _ _ rfl, State.f_wearLog]
    exact State.f_setF_of_lt (by decide) hlast
  case held =>
    rw [State.dom, State.raise_margin, ← State.dom, State.held_wearLog]
    simp [State.shownExhausted]

/-! ### Temper passes (R51, R52) -/

/-- The wing of the domain that comes next may enter TEMPER; nothing else happens (R52). -/
theorem State.temperTake_eq_or (s : State) : s.temperTake = s ∨ ∃ w, s.temperTake = s.setWingState w 1 := by
  unfold State.temperTake
  split
  next => exact .inl rfl
  next =>
    split
    next =>
      split
      next w _ =>
        split
        next => exact .inr ⟨w, rfl⟩
        next => exact .inl rfl
      next => exact .inl rfl
    next => exact .inl rfl

theorem State.margin_temperTake (s : State) : s.temperTake.margin = s.margin := by
  obtain h | ⟨w, h⟩ := s.temperTake_eq_or <;> rw [h]
  rfl

theorem State.f_temperTake {s : State} {y : Fld} {a b : Nat} (h : F.WNG_STATUS_STATE.spares y = true) :
    s.temperTake.f y a b = s.f y a b := by
  obtain ht | ⟨w, ht⟩ := s.temperTake_eq_or <;> rw [ht]
  exact State.f_setF_spared h

/-- Where no pass runs, a pass that is started runs (R51). -/
theorem State.temperBegin_spec {s : State} (h : s.margin.temper = none) (kind : Nat) (ds : List Nat) :
    (s.temperBegin kind ds).f F.MGN_STATUS_TEMPER_BUSY = 1 ∧ (s.temperBegin kind ds).margin.temper = some ⟨kind, ds, []⟩ := by
  have hidle : ¬ s.margin.temper.isSome = true := by simp [h]
  rw [State.temperBegin, if_neg hidle]
  refine ⟨(State.f_temperTake (by decide)).trans (State.f_setF_same _ _ _ _ _ (by decide)), ?_⟩
  rw [State.margin_temperTake, State.setF_margin]

theorem State.temperStart_one {s : State} (h : s.margin.temper = none) (hm : s.f F.MGN_TEMPER_MODE = 0)
    (hd : s.f F.MGN_TEMPER_DOMAIN ≤ 407) : s.temperStart = s.temperBegin 3 [s.f F.MGN_TEMPER_DOMAIN] := by
  have htaken : ¬ (s.margin.temper.isSome ∨ (s.f F.MGN_TEMPER_MODE = 0 ∧ s.f F.MGN_TEMPER_DOMAIN > 407)) := by
    rintro (hsome | ⟨-, hbeyond⟩)
    · simp [h] at hsome
    · omega
  unfold State.temperStart
  dsimp only
  rw [if_neg htaken, if_pos hm]

theorem State.temperStart_busy {s : State} (h : s.margin.temper.isSome = true) : s.temperStart = s.setF F.MGN_TEMPER_REFUSED 1 :=
  if_pos (.inl h)

theorem State.temperRotation_due {s : State} (hp : s.f F.MGN_TEMPER_PERIOD_H ≠ 0) (hs : s.stage = 13) :
    s.temperRotation = s.temperBegin 1 (List.range 408) := if_neg (by rintro (h | h) <;> contradiction)

theorem State.temperTrigger_taken {s : State} {d : Nat} (hc : s.f F.MGN_DOM_TAP_PLANNED d + 8 ≤ s.f F.MGN_DOM_TAP_CURRENT d)
    (hs : s.stage = 13) : s.temperTrigger d = s.temperBegin 2 [d] := if_pos ⟨hc, hs⟩

/-- The pass with a wing's domains put off behind the others (R52). -/
def TemperRun.putOff (t : TemperRun) (w : Nat) : TemperRun :=
  { t with todo := t.todo.filter fun d => domWing d != some w, retry := t.retry ++ t.todo.filter fun d => domWing d == some w }

theorem State.temperSkip_putOff {s : State} {w : Nat} {t : TemperRun} (ht : s.margin.temper = some t)
    (hhead : t.head.bind domWing = some w) (hjobs : (s.wing w).jobs ≠ []) (hmine : ∃ d ∈ t.todo, domWing d = some w) :
    (s.temperSkip w).margin.temper = some (t.putOff w) := by
  have hbusy : (!(s.wing w).jobs.isEmpty) = true := by simpa using hjobs
  have hsome : (!(t.todo.filter fun d => domWing d == some w).isEmpty) = true := by simpa using hmine
  rw [State.temperSkip, ht]
  dsimp only
  rw [if_pos ⟨hhead, hbusy, hsome⟩, State.margin_temperTake]
  rfl

/-! ### The pass of one domain (R53 to R55) -/

/-- Going on with a pass writes the states of wings and what MGN_STATUS says of the pass. -/
theorem State.f_temperNext {s : State} {d : Nat} {t : TemperRun} {y : Fld} {a b : Nat} (hwing : F.WNG_STATUS_STATE.spares y = true)
    (hbusy : F.MGN_STATUS_TEMPER_BUSY.spares y = true) (hdone : F.MGN_STATUS_TEMPER_DONE.spares y = true) :
    (s.temperNext d t).f y a b = s.f y a b := by
  unfold State.temperNext
  extract_lets s1
  have h1 : s1.f y a b = s.f y a b := by
    unfold s1
    split
    · split
      · exact State.f_setF_spared hwing
      · rfl
    · rfl
  clear_value s1
  split
  · refine (State.f_temperTake hwing).trans (Eq.trans ?_ h1)
    split
    · exact (State.f_setF_spared hdone).trans (State.f_setF_spared hbusy)
    · exact State.f_setF_spared hbusy
  · exact (State.f_temperTake hwing).trans h1

/-- A domain after its measurement in a pass, before its plan. -/
def State.passMeasured (s : State) (d : Nat) (q : Int) (erosion : Nat) : State :=
  ((s.setDom d { s.dom d with restarts := 0, bask := 0 }).setSlack d q).setF F.MGN_DOM_SLACK_EROSION (min erosion 255) d

/-- The code that a pass gives a domain (R53, R54). -/
def State.passCode (s : State) (d : Nat) (q : Int) : Int :=
  max (s.planCode d q) (max (s.f F.MGN_DOM_TAP_FACTORY d : Int) ((s.f F.MGN_DOM_TAP_PLANNED d : Int) - s.f F.MGN_CTRL_NARROW_LIMIT))

theorem State.f_passMeasured {s : State} {d : Nat} {q : Int} {erosion : Nat} {y : Fld} {a b : Nat}
    (hnow : F.MGN_DOM_SLACK_NOW.spares y = true) (hmin : F.MGN_DOM_SLACK_MIN.spares y = true)
    (herosion : F.MGN_DOM_SLACK_EROSION.spares y = true) : (s.passMeasured d q erosion).f y a b = s.f y a b :=
  (State.f_setF_spared herosion).trans (State.f_setSlack hnow hmin)

/-- The measurement itself does not change the plan that is made from it. -/
theorem State.passCode_passMeasured (s : State) (d : Nat) (q : Int) (erosion : Nat) :
    (s.passMeasured d q erosion).passCode d q = s.passCode d q := by
  simp (disch := decide) only [State.passCode, State.planCode, State.vApp, State.fS, State.f_passMeasured]

theorem State.passCode_nonneg (s : State) (d : Nat) (q : Int) : 0 ≤ s.passCode d q := by
  unfold State.passCode
  omega

/-- A pass whose plan is a code: PLANNED and CURRENT take it, and the pass goes on (R54). -/
theorem State.domainPass_planned {s : State} {d : Nat} {t : TemperRun} (ht : s.margin.temper = some t) (he : s.examined d = true) (q : Int)
    (erosion : Nat) (hc : s.passCode d q ≤ 63) :
    let u := s.passMeasured d q erosion
    let c := (s.passCode d q).toNat
    s.domainPass d q erosion =
      (((((u.setF F.MGN_DOM_TAP_PLANNED c d).setTap d c).reserveUsed d).wearLog d t.kind (u.f F.MGN_DOM_TAP_PLANNED d) c q erosion).recomputeFloor
        (domRail d)).temperNext d t.pop := by
  intro u c
  have hcode : u.passCode d q = s.passCode d q := State.passCode_passMeasured s d q erosion
  have hfits : ¬ u.passCode d q > 63 := by omega
  have hexamined : ¬ (!s.examined d) = true := by simp [he]
  rw [State.domainPass, ht]
  dsimp only
  rw [if_neg hexamined]
  refine (if_neg hfits).trans ?_
  unfold c
  rw [← hcode]
  rfl

theorem State.domainPass_spec {s : State} {d : Nat} {t : TemperRun} (ht : s.margin.temper = some t) (he : s.examined d = true) (q : Int)
    (erosion : Nat) (hc : s.passCode d q ≤ 63) :
    (s.domainPass d q erosion).f F.MGN_DOM_TAP_PLANNED d = (s.passCode d q).toNat ∧
    (s.domainPass d q erosion).f F.MGN_DOM_TAP_CURRENT d = (s.passCode d q).toNat := by
  have hlt : (s.passCode d q).toNat < 64 := by omega
  rw [State.domainPass_planned ht he q erosion hc]
  constructor
  · rw [State.f_temperNext (by decide) (by decide) (by decide), State.f_recomputeFloor (by decide) (by decide), State.f_wearLog,
      State.f_reserveUsed (by decide), State.f_setTap (by decide) (by decide)]
    exact State.f_setF_of_lt (by decide) hlt
  · rw [State.f_temperNext (by decide) (by decide) (by decide), State.f_recomputeFloor (by decide) (by decide), State.f_wearLog,
      State.f_reserveUsed (by decide)]
    exact State.current_setTap _ _ hlt

/-! ### Bask taps (R57) -/

/-- A fold over different indices acts once on what only one of them changes. -/
theorem foldS_acts_once {α σ β : Type} {g : σ → β} {k : β → β} {f : α → σ → σ} {x : α} (hsame : ∀ s, g (f x s) = k (g s))
    (hne : ∀ y s, y ≠ x → g (f y s) = g s) {l : List α} (hl : l.Nodup) (hx : x ∈ l) (s : σ) : g (foldS l f s) = k (g s) := by
  obtain ⟨l₁, l₂, rfl⟩ := List.append_of_mem hx
  have hkeep : ∀ (m : List α) (s : σ), x ∉ m → g (foldS m f s) = g s := by
    intro m
    induction m with
    | nil => exact fun s _ => rfl
    | cons y m ih =>
      intro s hm
      obtain ⟨hy, hm⟩ := not_or.mp (mt List.mem_cons.mpr hm)
      exact (ih _ hm).trans (hne y s (Ne.symm hy))
  have hl₁ : x ∉ l₁ := fun h => by simpa using List.disjoint_of_nodup_append hl h
  have hl₂ : x ∉ l₂ := (List.nodup_cons.mp (List.nodup_append.mp hl).2.1).1
  calc g (foldS (l₁ ++ x :: l₂) f s)
    _ = g (foldS l₂ f (f x (foldS l₁ f s))) := by simp [foldS]
    _ = g (f x (foldS l₁ f s)) := hkeep l₂ _ hl₂
    _ = k (g s) := by rw [hsame, hkeep l₁ _ hl₁]

theorem nodup_natRange (a n : Nat) : (natRange a n).Nodup := List.nodup_range.map (fun _ _ h => by simpa using h)

theorem nodup_railDoms {r : Nat} (hr : r < 8) : (railDoms r).Nodup := by
  unfold railDoms
  split
  · refine (nodup_natRange _ _).append (nodup_natRange _ _) fun d hwing hrunner => ?_
    rw [mem_natRange] at hwing hrunner
    omega
  · simp

/-- One bask code of a domain removed (R57). -/
def State.baskDrop (d : Nat) (s : State) : State :=
  if (s.dom d).bask = 0 then s
  else (s.setTap d (s.f F.MGN_DOM_TAP_CURRENT d - 1)).setDom d { s.dom d with bask := (s.dom d).bask - 1 }

theorem State.baskRemove_warm {s : State} {r : Nat} (h : s.railCold r = false) : s.baskRemove r = foldS (railDoms r) State.baskDrop s :=
  if_neg (by simp [h])

theorem State.bask_baskDrop_same (s : State) (d : Nat) : ((s.baskDrop d).dom d).bask = (s.dom d).bask - 1 := by
  unfold State.baskDrop
  split
  · omega
  · rw [State.dom_setDom_same]

theorem State.bask_baskDrop_ne (s : State) {d a : Nat} (h : d ≠ a) : ((s.baskDrop d).dom a).bask = (s.dom a).bask := by
  unfold State.baskDrop
  split
  · rfl
  · rw [State.dom_setDom_ne _ _ h, State.dom_setTap]

theorem State.baskRemove_drops {s : State} {r : Nat} (hr : r < 8) (h : s.railCold r = false) {d : Nat} (hd : d ∈ railDoms r) :
    ((s.baskRemove r).dom d).bask = (s.dom d).bask - 1 := by
  rw [State.baskRemove_warm h]
  exact foldS_acts_once (g := fun t : State => (t.dom d).bask) (k := (· - 1)) (fun t => t.bask_baskDrop_same d)
    (fun _ t hne => t.bask_baskDrop_ne hne) (nodup_railDoms hr) hd s

end Sys2Proof.Machine

namespace Sys2Proof.Claims
open Sys2Proof Sys2Proof.Machine

/-! ### The obligation -/

/-- Settles O15: each clause is the fact about its operation. -/
theorem marginPassesComplete : Obligations.MarginPassesComplete := by
  intro s m
  refine ⟨?floor, ?exhausted, ?start, ?refused, ?rotation, ?triggered, ?skip, ?pass, ?bask⟩
  case floor =>
    intro r hr
    refine completes_of_onUnit rfl (decide_eq_true hr) ?_
    rw [State.floor_recomputeFloor]
    exact (s.floorOf_le_iff r _).mp le_rfl
  case exhausted =>
    intro d hl hu hh he
    refine completes_of_onUnit rfl (decide_eq_true hu) ?_
    rw [if_pos hh]
    exact State.exhaust_spec hl hu he
  case start =>
    intro ht hm hd
    exact completes_of_done rfl (State.temperStart_one ht hm hd ▸ State.temperBegin_spec ht _ _)
  case refused =>
    intro ht
    refine completes_of_done rfl ?_
    rw [State.temperStart_busy ht]
    exact ⟨State.f_setF_same _ _ _ _ _ (by decide), rfl⟩
  case rotation =>
    intro ht hp hs
    exact completes_of_done rfl (State.temperRotation_due hp hs ▸ State.temperBegin_spec ht _ _)
  case triggered =>
    intro d hd ht hc hs
    exact completes_of_onUnit rfl (decide_eq_true hd) (State.temperTrigger_taken hc hs ▸ State.temperBegin_spec ht _ _)
  case skip =>
    exact fun w t hw ht hhead hjobs hmine =>
      completes_of_onUnit rfl (decide_eq_true hw) (State.temperSkip_putOff ht hhead hjobs hmine)
  case pass =>
    intro d t q e hd ht _ he c hc
    exact completes_of_onUnit rfl (decide_eq_true hd) (State.domainPass_spec ht he q e hc)
  case bask =>
    exact fun r hr hcold => completes_of_onUnit rfl (decide_eq_true hr) fun d hd => State.baskRemove_drops hr hcold hd

end Sys2Proof.Claims
end

section
/-! PROOF. Number formats (R64 to R67, R69): the integer formats against `BitVec.toInt` and `BitVec.ofInt`, the fields of a
sign-exponent-fraction code, how each format reads its codes, and `IntegerFormatsAreTwosComplement` and `GnoisCodesRead` from them. -/

namespace Sys2Proof.Machine

/-! ### Two's complement (R66) -/

theorem toSigned_eq_toInt (w x : Nat) : toSigned w x = (BitVec.ofNat w x).toInt := by
  rw [BitVec.toInt_eq_toNat_cond, BitVec.toNat_ofNat, toSigned]
  cases w with
  | zero => simp [Nat.mod_one]
  | succ w =>
    have hhalf : x % 2 ^ (w + 1) < 2 ^ w ↔ 2 * (x % 2 ^ (w + 1)) < 2 ^ (w + 1) := by omega
    simp only [Nat.add_sub_cancel, hhalf]

theorem ofNat_ofSigned (w : Nat) (n : Int) : BitVec.ofNat w (ofSigned w n) = BitVec.ofInt w n :=
  BitVec.eq_of_toNat_eq (by rw [BitVec.toNat_ofNat, Nat.mod_eq_of_lt (ofSigned_lt w n), BitVec.toNat_ofInt, ofSigned])

theorem toSigned_ofSigned {w : Nat} {n : Int} (hw : 0 < w) (hl : -2 ^ (w - 1) ≤ n) (hu : n < 2 ^ (w - 1)) :
    toSigned w (ofSigned w n) = n := by
  rw [toSigned_eq_toInt, ofNat_ofSigned, BitVec.toInt_ofInt_eq_self hw hl hu]

/-! ### The fields of a sign-exponent-fraction code (R64, R67) -/

theorem bitsAt_mul_add_low {a b l : Nat} (h : b < 2 ^ l) : bitsAt (a * 2 ^ l + b) 0 l = b := by
  rw [bitsAt, Nat.shiftRight_zero, Nat.mul_add_mod', Nat.mod_eq_of_lt h]

theorem bitsAt_mul_add_high {a b l : Nat} (h : b < 2 ^ l) (k w : Nat) : bitsAt (a * 2 ^ l + b) (l + k) w = bitsAt a k w := by
  have hshift : (a * 2 ^ l + b) >>> l = a := by
    rw [Nat.shiftRight_eq_div_pow, Nat.mul_comm, Nat.mul_add_div (Nat.two_pow_pos l), Nat.div_eq_of_lt h, Nat.add_zero]
  rw [bitsAt, Nat.shiftRight_add, hshift, bitsAt]

/-- The code with sign s, exponent field e of eb bits and fraction f of fb bits, in that order from the top (R64). -/
def floatCode (eb fb : Nat) (s : Bool) (e f : Nat) : Nat := (if s then 2 ^ (eb + fb) else 0) + e * 2 ^ fb + f

section
variable {eb fb e f : Nat} (s : Bool)

theorem floatCode_eq_sign_magnitude : floatCode eb fb s e f = s.toNat * 2 ^ (eb + fb) + (e * 2 ^ fb + f) := by
  cases s <;> simp [floatCode, Nat.add_assoc]

theorem floatCode_false : floatCode eb fb false e f = e * 2 ^ fb + f := by
  rw [floatCode_eq_sign_magnitude, Bool.toNat_false, Nat.zero_mul, Nat.zero_add]

theorem floatCode_eq_top_fraction : floatCode eb fb s e f = (s.toNat * 2 ^ eb + e) * 2 ^ fb + f := by
  rw [floatCode_eq_sign_magnitude, Nat.pow_add]
  ring

theorem magnitude_lt (he : e < 2 ^ eb) (hf : f < 2 ^ fb) : e * 2 ^ fb + f < 2 ^ (eb + fb) := by
  calc e * 2 ^ fb + f
    _ < (e + 1) * 2 ^ fb := by rw [Nat.succ_mul]; omega
    _ ≤ 2 ^ eb * 2 ^ fb := Nat.mul_le_mul_right _ he
    _ = 2 ^ (eb + fb) := (Nat.pow_add 2 eb fb).symm

theorem fraction_floatCode (hf : f < 2 ^ fb) : bitsAt (floatCode eb fb s e f) 0 fb = f := by
  rw [floatCode_eq_top_fraction, bitsAt_mul_add_low hf]

theorem exponent_floatCode (he : e < 2 ^ eb) (hf : f < 2 ^ fb) : bitsAt (floatCode eb fb s e f) fb eb = e := by
  rw [floatCode_eq_top_fraction]
  exact (bitsAt_mul_add_high hf 0 eb).trans (bitsAt_mul_add_low he)

theorem magnitude_floatCode (he : e < 2 ^ eb) (hf : f < 2 ^ fb) :
    bitsAt (floatCode eb fb s e f) 0 (eb + fb) = floatCode eb fb false e f := by
  rw [floatCode_eq_sign_magnitude, bitsAt_mul_add_low (magnitude_lt he hf), floatCode_false]

theorem sign_floatCode (he : e < 2 ^ eb) (hf : f < 2 ^ fb) : (bitsAt (floatCode eb fb s e f) (eb + fb) 1 == 1) = s := by
  have hsign : bitsAt (floatCode eb fb s e f) (eb + fb) 1 = bitsAt s.toNat 0 1 := by
    rw [floatCode_eq_sign_magnitude]
    exact bitsAt_mul_add_high (magnitude_lt he hf) 0 1
  rw [hsign]
  cases s <;> rfl

end

/-! ### Reading a code (R64, R65, R67, R69) -/

/-- R64: an exponent field of zero is subnormal, any other normal; a code up to the largest finite one raises no flag. -/
theorem SmallFmt.read_floatCode (F : SmallFmt) {e f : Nat} (s : Bool) (he : e < 2 ^ F.eb) (hf : f < 2 ^ F.fb)
    (hmax : e * 2 ^ F.fb + f ≤ F.maxMag) :
    F.read (floatCode F.eb F.fb s e f) =
      (if e = 0 then .fin s f (1 - (F.bias + F.fb)) else .fin s (2 ^ F.fb + f) (e - (F.bias + F.fb)), 0) := by
  have hlegal : ¬ floatCode F.eb F.fb false e f > F.maxMag := floatCode_false.trans_le hmax |>.not_gt
  unfold SmallFmt.read
  simp only [magnitude_floatCode s he hf, if_neg hlegal, sign_floatCode s he hf, exponent_floatCode false he hf,
    fraction_floatCode false hf, Int.sub_sub]
  split <;> rfl

/-- R67 and R69: the three ranges of the exponent field of B16. -/
theorem readB16_floatCode {e f : Nat} (s : Bool) (he : e < 256) (hf : f < 128) :
    readB16 (floatCode 8 7 s e f) =
      if e = 0 then (.fin s 0 0, if f = 0 then 0 else flagFLUSH)
      else if e = 255 then (.fin s 255 120, flagCLAMP)
      else (.fin s (128 + f) ((e : Int) - 134), 0) := by
  unfold readB16
  rw [sign_floatCode s he hf, exponent_floatCode s he hf, fraction_floatCode s hf]

/-- R65 and R69: a K4 element reads as its sign and magnitude under the block exponent, except the reserved minus zero and 0xFF. -/
theorem readK4_sign_magnitude {m : Nat} (s : Bool) (hm : m < 8) (k : Nat) :
    readK4 ((if s then 8 else 0) + m) k =
      (.fin (s && m != 0) m ((if k = 255 then 254 else k : Int) - 127),
        (if s && m == 0 then flagCLAMP else 0) ||| (if k = 255 then flagCLAMP else 0)) := by
  have hlow : ((if s then 8 else 0) + m) % 8 = m := by split <;> omega
  have hcode : ((if s then 8 else 0) + m) % 16 = (if s then 8 else 0) + m := by split <;> omega
  have hsign : decide ((if s then 8 else 0) + m > 8) = (s && m != 0) := by
    rw [Bool.eq_iff_iff]
    cases s with
    | false => simp; omega
    | true => simp [Nat.pos_iff_ne_zero]
  have hreserved : ((if s then 8 else 0) + m = 8) ↔ (s && m == 0) = true := by
    cases s with
    | false => simp; omega
    | true => simp
  unfold readK4
  simp only [hlow, hcode, hsign, hreserved, Nat.cast_ite, Nat.cast_ofNat]

end Sys2Proof.Machine

namespace Sys2Proof.Claims
open Sys2Proof Sys2Proof.Machine

/-! ### The obligations -/

/-- An integer of a w-bit range as a code of w bits, and that code's reading by a reader of two's complement. -/
theorem code_and_reading_ofSigned {w : Nat} {n : Int} (hw : 0 < w) (hl : -2 ^ (w - 1) ≤ n) (hu : n < 2 ^ (w - 1)) :
    ofSigned w n < 2 ^ w ∧ (FVal.ofInt (toSigned w (ofSigned w n)), 0) = (FVal.ofInt n, 0) :=
  ⟨ofSigned_lt w n, by rw [toSigned_ofSigned hw hl hu]⟩

/-- Settles O11: the reading is `BitVec.toInt` of the code, and `BitVec.ofInt` gives each integer of the range its code. -/
theorem integerFormatsAreTwosComplement : Obligations.IntegerFormatsAreTwosComplement := by
  refine ⟨?read8, ?read16, ?read32, ?code8, ?code16, ?code32⟩
  case read8 => exact fun x => congrArg (FVal.ofInt ·, 0) (toSigned_eq_toInt 8 x)
  case read16 => exact fun x => congrArg (FVal.ofInt ·, 0) (toSigned_eq_toInt 16 x)
  case read32 => exact fun x => congrArg (FVal.ofInt ·, 0) (toSigned_eq_toInt 32 x)
  case code8 => exact fun n hl hu => code_and_reading_ofSigned (by decide) hl (Int.lt_add_one_of_le hu)
  case code16 => exact fun n hl hu => code_and_reading_ofSigned (by decide) hl (Int.lt_add_one_of_le hu)
  case code32 => exact fun n hl hu => code_and_reading_ofSigned (by decide) hl hu

/-- Settles O12: each clause is its format's reading of a code made of the fields. -/
theorem gnoisCodesRead : Obligations.GnoisCodesRead := by
  refine ⟨?b16, ?k4, ?k8e, ?k8m, ?k6⟩
  case b16 =>
    rintro _ e f s he hf rfl
    have hread := readB16_floatCode s he hf
    refine ⟨fun hzero => hread.trans (if_pos hzero), fun hlow hhigh => hread.trans ?_, fun hmax => hread.trans ?_⟩
    · rw [if_neg (by omega), if_neg (by omega)]
    · rw [if_neg (by omega), if_pos hmax]
  case k4 => exact fun k m s _ hm => readK4_sign_magnitude s hm k
  case k8e => exact fun e f s he hf hmax => smallK8e.read_floatCode s he hf hmax
  case k8m => exact fun e f s he hf => smallK8m.read_floatCode s (show e < 32 by omega) hf (show e * 4 + f ≤ 123 by omega)
  case k6 => exact fun e f s he hf => smallK6.read_floatCode s he hf (show e * 4 + f ≤ 31 by omega)

end Sys2Proof.Claims
end

section
/-! PROOF. A wing's record (R90 to R119): what its operations leave in the wing, in the registers, and how a vector run starts
and ends (R107, R154, R173). -/

namespace Sys2Proof.Machine

/-! ### Reading a wing after an update -/

@[simp] theorem State.wing_setWing_same (s : State) (w : Nat) (x : WingSt) : (s.setWing w x).wing w = x := mgetD_mset_same _ _ _ _

@[simp] theorem State.f_setWing (s : State) (w : Nat) (x : WingSt) (y : Fld) (i j : Nat) : (s.setWing w x).f y i j = s.f y i j := rfl

@[simp] theorem State.wing_setF (s : State) (x : Fld) (v i j w : Nat) : (s.setF x v i j).wing w = s.wing w := rfl

@[simp] theorem State.wing_setTiles (s : State) (w : Nat) (x : WingSt) : (s.setTiles w x).wing w = x := State.wing_setWing_same s w x

theorem State.f_setTiles {s : State} {w : Nat} {x : WingSt} {y : Fld} {i j : Nat} (h0 : F.WNG_STATUS_HALF0_VALID.spares y = true)
    (h1 : F.WNG_STATUS_HALF1_VALID.spares y = true) (hw : F.WNG_STATUS_WHOLE_VALID.spares y = true) :
    (s.setTiles w x).f y i j = s.f y i j :=
  ((State.f_setF_spared hw).trans (State.f_setF_spared h1)).trans (State.f_setF_spared h0)

@[simp] theorem State.wing_setJob (s : State) (w : Nat) (j : Job) :
    (s.setJob w j).wing w = { s.wing w with jobs := (s.wing w).jobs.map fun x => if x.key = j.key then j else x } :=
  State.wing_setWing_same _ _ _

@[simp] theorem State.col_setCol_same (s : State) (w a c : Nat) (x : ColSt) : (s.setCol w a c x).col w a c = x := by
  rw [State.col, State.setCol, State.wing_setWing_same, mgetD_mset_same]

@[simp] theorem State.f_setCol (s : State) (w a c : Nat) (x : ColSt) (y : Fld) (i j : Nat) : (s.setCol w a c x).f y i j = s.f y i j := rfl

theorem State.wing_setCol (s : State) (w a c : Nat) (x : ColSt) :
    (s.setCol w a c x).wing w = { s.wing w with cols := mset (s.wing w).cols (a, c) x } := State.wing_setWing_same _ _ _

theorem State.wingState_setWingState (s : State) (w : Nat) {v : Nat} (hv : v < 8) : (s.setWingState w v).wingState w = v :=
  State.f_setF_of_lt (by decide) hv

/-! ### The start of a vector run (R107, R154) -/

/-- A vector run has begun: it is the wing's run, and VEC_STATUS shows it. -/
def State.runBegun (s : State) (w : Nat) (r : VecRun) (profile : Nat) : State :=
  ((s.setWing w { s.wing w with run := some r }).setF F.WNG_VEC_STATUS_BUSY 1 w).setF F.WNG_VEC_STATUS_PROFILE profile w

theorem State.run_runBegun (s : State) (w : Nat) (r : VecRun) (profile : Nat) : ((s.runBegun w r profile).wing w).run = some r := by
  simp [State.runBegun]

theorem State.busy_runBegun (s : State) (w : Nat) (r : VecRun) (profile : Nat) :
    (s.runBegun w r profile).f F.WNG_VEC_STATUS_BUSY w = 1 :=
  (State.f_setF_spared (by decide)).trans (State.f_setF_of_lt (by decide) (by decide))

/-- Starting a run changes nothing, or begins one. -/
theorem State.startRun_cases (s : State) (w : Nat) : s.startRun w = s ∨ ∃ r profile, s.startRun w = s.runBegun w r profile := by
  unfold State.startRun
  dsimp only
  split
  · exact .inl rfl
  · split
    · exact .inl rfl
    · split
      · exact .inl rfl
      · exact .inr ⟨_, _, rfl⟩
    · split
      · exact .inr ⟨_, _, rfl⟩
      · exact .inl rfl

theorem State.f_startRun {s : State} {w : Nat} {y : Fld} {i j : Nat} (hbusy : F.WNG_VEC_STATUS_BUSY.spares y = true)
    (hprofile : F.WNG_VEC_STATUS_PROFILE.spares y = true) : (s.startRun w).f y i j = s.f y i j := by
  obtain h | ⟨r, p, h⟩ := s.startRun_cases w
  · rw [h]
  · rw [h, State.runBegun, State.f_setF_spared hprofile, State.f_setF_spared hbusy, State.f_setWing]

theorem State.col_startRun (s : State) (w a c : Nat) : (s.startRun w).col w a c = s.col w a c := by
  obtain h | ⟨r, p, h⟩ := s.startRun_cases w
  · rw [h]
  · simp [h, State.runBegun, State.col]

/-- The run of an epilogue whose group's columns have all passed (R107, R110). -/
theorem State.startRun_epilogue {s : State} {w : Nat} {m : MatJob} {b : Blk} {p : List Insn} (ht : (s.wing w).vecTurn = some (.epi m b p))
    (hr : (s.wing w).run = none) (hs : s.wingState w = 3) (hv : s.held (6 * w + 4) = false) (hl : s.held (6 * w + 5) = false)
    (hg : m.epiDone < m.g) (hp : ∀ a ∈ m.arrs, ∀ c ∈ natRange (m.colOf m.epiDone 0) m.ncol, s.colPassed w a c = true) :
    s.startRun w = s.runBegun w
      { q := m.q, seq := m.seq, epi := true, grp := m.epiDone, pat := p, snap := s.mem, snapPoison := s.poison
        blk := { b with colBase := m.colOf m.epiDone 0 }.placed s.xlat m.epiDone m.outStride } b.profile := by
  have hfree : ¬ ((s.wing w).run.isSome = true ∨ s.wingState w ≠ 3 ∨ s.held (6 * w + 4) = true ∨ s.held (6 * w + 5) = true) := by
    simp [hr, hs, hv, hl]
  have hpassed : (m.arrs.all fun a => (natRange (m.colOf m.epiDone 0) m.ncol).all fun c => s.colPassed w a c) = true := by
    simpa only [List.all_eq_true] using hp
  unfold State.startRun
  dsimp only
  rw [if_neg hfree, ht]
  exact if_pos ⟨hg, hpassed⟩

/-! ### The end of a commit unit (R173) -/

theorem State.run_foldS_setCol (w : Nat) (l : List Nat) (cols : List Nat) (f : State → Nat → Nat → ColSt) (s : State) :
    ((foldS l (fun a s => foldS cols (fun c s => s.setCol w a c (f s a c)) s) s).wing w).run = (s.wing w).run :=
  foldS_keeps (fun t : State => (t.wing w).run)
    (fun a t => foldS_keeps (fun t : State => (t.wing w).run) (fun c t => by rw [State.wing_setCol]) cols t) l s

theorem State.finishUnit_run (s : State) (w : Nat) (r : VecRun) :
    ∃ r', ((s.finishUnit w r).wing w).run = some r' ∧ r'.unitDone = true := by
  refine ⟨{ (r.reduce s w).2.finishK4 with unitDone := true, patDone := true }, ?_, rfl⟩
  unfold State.finishUnit
  dsimp only
  split
  · rw [State.run_foldS_setCol w, State.wing_setWing_same]
  · rw [State.wing_setWing_same]

theorem State.reduceNow_finishes {s : State} {w : Nat} {r : VecRun} (hr : (s.wing w).run = some r) (hp : r.patDone = true)
    (hu : r.unitDone = false) (hh : s.held (6 * w + 4) = false) : s.reduceNow w = s.finishUnit w r := by
  rw [State.reduceNow, hr]
  exact if_pos ⟨hp, by simp [hu], by simp [hh]⟩

end Sys2Proof.Machine
end

section
/-! PROOF. A wing at work (R93 to R113): the activation load, the array step and the test-bar check, each with the tile, the FIFOs,
the column and the counts it leaves, and `WingStepsComplete` from them. -/

namespace Sys2Proof.Machine

/-! ### The activation load (R105, R106) -/

theorem WingSt.tileFor_putTile (v : WingSt) (m : MatJob) (t : Option Tile) : (v.putTile m t).tileFor m = t := by
  unfold WingSt.putTile WingSt.tileFor
  split
  · rfl
  · split <;> rfl

/-- Which tile a job steps on does not depend on the wing's jobs. -/
theorem WingSt.tileFor_with_jobs (v : WingSt) (js : List Job) (m : MatJob) : ({ v with jobs := js } : WingSt).tileFor m = v.tileFor m := rfl

theorem State.loadTile_tile (s : State) (w : Nat) (m : MatJob) :
    ∃ t, ((s.loadTile w m).wing w).tileFor m = some t ∧ t.rows = m.rows ∧ t.depth = m.depth ∧
      t.sums = tileSums m.mode t.data m.depth m.rows := by
  unfold State.loadTile
  extract_lets bits n rowAt read bad data tile kept
  refine ⟨tile, ?_, rfl, rfl, rfl⟩
  rw [State.wing_setJob, WingSt.tileFor_with_jobs, State.wing_setTiles, WingSt.tileFor_putTile]

theorem State.loadNext_first {s : State} {w : Nat} {m : MatJob} {js : List Job} (hj : (s.wing w).jobs = .mat m :: js)
    (hr : s.loadReady w m = true) : s.loadNext w = s.loadTile w m := by
  simp [State.loadNext, hj, hr]

/-! ### The array step (R93, R99) -/

/-- Between two states only columns and jobs of wing `w`, and the free values drawn, differ. -/
structure StepFrame (w : Nat) (s t : State) : Prop where
  f : ∀ y i j, t.f y i j = s.f y i j
  fifo : (t.wing w).fifo = (s.wing w).fifo

variable {w : Nat} {s t : State}

theorem StepFrame.refl (w : Nat) (s : State) : StepFrame w s s := ⟨fun _ _ _ => rfl, rfl⟩

theorem StepFrame.drawN (h : StepFrame w s t) (n : Nat) (acc : List Nat) : StepFrame w s (State.drawN n t acc).2 := by
  induction n generalizing t acc with
  | zero => exact h
  | succ n ih => exact ih (t := t.draw.2) ⟨h.f, h.fifo⟩ _

theorem StepFrame.setCol (h : StepFrame w s t) (a c : Nat) (x : ColSt) : StepFrame w s (t.setCol w a c x) :=
  ⟨h.f, by rw [State.wing_setCol]; exact h.fifo⟩

theorem StepFrame.setJob (h : StepFrame w s t) (j : Job) : StepFrame w s (t.setJob w j) :=
  ⟨h.f, by rw [State.wing_setJob]; exact h.fifo⟩

theorem StepFrame.openCol (h : StepFrame w s t) (a c : Nat) (m : MatJob) : StepFrame w s (t.openCol w a c m) := by
  unfold State.openCol
  split
  · dsimp only
    split
    · exact h.setCol _ _ _
    · exact (h.drawN _ _).setCol _ _ _
  · exact h.setCol _ _ _

/-- The step of one array takes its slab from its FIFO; the rest is columns, jobs and free values. -/
theorem State.stepArray_frame (s : State) (w a : Nat) (m : MatJob) (t : Tile) (errs : List (Nat × Nat × Nat)) :
    StepFrame w (s.setWing w { s.wing w with
      fifo := listSet (s.wing w).fifo a (((s.wing w).fifo.getD a []).drop m.mode.wBytes) }) (s.stepArray w a m t errs) := by
  unfold State.stepArray
  extract_lets v q slab taken c opened x k n wt es drawn filled res fl sums cv last chk stepped
  have hopened : StepFrame w taken opened := by
    unfold opened
    split
    · exact (StepFrame.refl w taken).openCol _ _ _
    · exact .refl w taken
  have hfilled : StepFrame w taken filled := by
    unfold filled drawn
    split
    · exact hopened.drawN _ _
    · exact hopened
  have hstepped : StepFrame w taken stepped := hfilled.setCol _ _ _
  split
  · exact hstepped.setJob _
  · exact hstepped

theorem State.f_stepArray (s : State) (w a : Nat) (m : MatJob) (t : Tile) (errs : List (Nat × Nat × Nat)) (y : Fld) (i j : Nat) :
    (s.stepArray w a m t errs).f y i j = s.f y i j := (s.stepArray_frame w a m t errs).f y i j

theorem getD_listSet_ne {α : Type} (l : List α) {a k : Nat} (v d : α) (h : a ≠ k) : (listSet l a v).getD k d = l.getD k d := by
  induction l generalizing a k with
  | nil => rfl
  | cons x l ih =>
    cases a with
    | zero =>
      cases k with
      | zero => exact absurd rfl h
      | succ k => rfl
    | succ a =>
      cases k with
      | zero => rfl
      | succ k => exact ih (mt (congrArg Nat.succ) h)

/-- Past the list's end nothing is set, and there is nothing to drop. -/
theorem getD_listSet_drop {α : Type} (l : List (List α)) (a n : Nat) :
    (listSet l a ((l.getD a []).drop n)).getD a [] = (l.getD a []).drop n := by
  induction l generalizing a with
  | nil => exact List.drop_nil.symm
  | cons x l ih =>
    cases a with
    | zero => rfl
    | succ a => exact ih a

theorem State.fifo_stepArray_same (s : State) (w a : Nat) (m : MatJob) (t : Tile) (errs : List (Nat × Nat × Nat)) :
    ((s.stepArray w a m t errs).wing w).fifo.getD a [] = ((s.wing w).fifo.getD a []).drop m.mode.wBytes := by
  rw [(s.stepArray_frame w a m t errs).fifo, State.wing_setWing_same]
  exact getD_listSet_drop _ _ _

theorem State.fifo_stepArray_ne (s : State) (w : Nat) {a k : Nat} (m : MatJob) (t : Tile) (errs : List (Nat × Nat × Nat)) (h : a ≠ k) :
    ((s.stepArray w a m t errs).wing w).fifo.getD k [] = (s.wing w).fifo.getD k [] := by
  rw [(s.stepArray_frame w a m t errs).fifo, State.wing_setWing_same]
  exact getD_listSet_ne _ _ _ h

theorem nodup_maskArrays (mask : Nat) : (maskArrays mask).Nodup := List.nodup_range.filter _

/-- The wing with a tile put back where a job steps on it. -/
def WingSt.keepTile (v : WingSt) (m : MatJob) (t : Tile) : WingSt :=
  if m.wide then { v with whole := some t } else if m.abuf = 0 then { v with half0 := some t } else { v with half1 := some t }

theorem WingSt.fifo_keepTile (v : WingSt) (m : MatJob) (t : Tile) : (v.keepTile m t).fifo = v.fifo := by
  unfold WingSt.keepTile
  split
  · rfl
  · split <;> rfl

/-- The tile of a step, its row sums over the step's rows (R105). -/
def Tile.summed (t : Tile) (m : MatJob) : Tile :=
  if t.sumRows = m.rows then t else { t with sumRows := m.rows, sums := tileSums m.mode t.data t.depth m.rows }

/-- All arrays of a step have stepped. -/
def State.arraysStepped (s : State) (w : Nat) (m : MatJob) (t : Tile) (errs : List (Nat × Nat × Nat)) : State :=
  foldS m.arrs (fun a s => s.stepArray w a m (t.summed m) errs) (s.setTiles w ((s.wing w).keepTile m (t.summed m)))

/-- The step is counted (R60). -/
def State.stepCounted (s : State) (w : Nat) : State := s.setF F.MGN_RATE_STEPS_STEPS (s.f F.MGN_RATE_STEPS_STEPS w + 1) w

/-- The job goes on to its next position (R92). -/
def State.jobAdvanced (s : State) (w : Nat) (m : MatJob) : State :=
  match (s.wing w).jobs.find? fun j => j.key = (m.q, m.seq) with
  | some (.mat y) => s.setJob w (.mat y.advance)
  | _ => s

theorem State.jobAdvanced_frame (s : State) (w : Nat) (m : MatJob) : StepFrame w s (s.jobAdvanced w m) := by
  unfold State.jobAdvanced
  split
  · exact (StepFrame.refl w s).setJob _
  · exact .refl w s

theorem State.arrayStep_steps {m : MatJob} {t : Tile} (errs : List (Nat × Nat × Nat)) (hj : (s.wing w).stepJob = some m)
    (hr : s.stepReady w m = true) (ht : (s.wing w).tileFor m = some t) :
    s.arrayStep w errs = ((s.arraysStepped w m t errs).stepCounted w).jobAdvanced w m := by
  unfold State.arrayStep
  rw [hj]
  dsimp only
  rw [if_neg (by simp [hr]), ht]
  rfl

theorem State.steps_arraysStepped (s : State) (w : Nat) (m : MatJob) (t : Tile) (errs : List (Nat × Nat × Nat)) :
    (s.arraysStepped w m t errs).f F.MGN_RATE_STEPS_STEPS w = s.f F.MGN_RATE_STEPS_STEPS w :=
  (foldS_keeps (fun u : State => u.f F.MGN_RATE_STEPS_STEPS w) (fun _ u => u.f_stepArray w _ m _ errs _ w 0) _ _).trans
    (State.f_setTiles (by decide) (by decide) (by decide))

theorem State.fifo_arraysStepped (s : State) (w : Nat) (m : MatJob) (t : Tile) (errs : List (Nat × Nat × Nat)) {k : Nat} (hk : k ∈ m.arrs) :
    ((s.arraysStepped w m t errs).wing w).fifo.getD k [] = ((s.wing w).fifo.getD k []).drop m.mode.wBytes := by
  refine (foldS_acts_once (g := fun u : State => (u.wing w).fifo.getD k []) (k := (·.drop m.mode.wBytes))
    (fun u => u.fifo_stepArray_same w k m _ errs) (fun _ u hne => u.fifo_stepArray_ne w m _ errs hne) (nodup_maskArrays _) hk _).trans ?_
  rw [State.wing_setTiles, WingSt.fifo_keepTile]

theorem State.arrayStep_spec {m : MatJob} {t : Tile} (errs : List (Nat × Nat × Nat)) (hj : (s.wing w).stepJob = some m)
    (hr : s.stepReady w m = true) (ht : (s.wing w).tileFor m = some t) :
    (s.arrayStep w errs).f F.MGN_RATE_STEPS_STEPS w = (s.f F.MGN_RATE_STEPS_STEPS w + 1) % 2 ^ 64 ∧
    ∀ k ∈ m.arrs, ((s.arrayStep w errs).wing w).fifo.getD k [] = ((s.wing w).fifo.getD k []).drop m.mode.wBytes := by
  have hadvanced := ((s.arraysStepped w m t errs).stepCounted w).jobAdvanced_frame w m
  rw [State.arrayStep_steps errs hj hr ht]
  refine ⟨?_, fun k hk => ?_⟩
  · rw [hadvanced.f, State.stepCounted, State.f_setF_same _ _ _ _ _ (by decide), State.steps_arraysStepped]
    rfl
  · rw [hadvanced.fifo]
    exact s.fifo_arraysStepped w m t errs hk

/-! ### The test-bar check (R109 to R113) -/

/-- The result of a column's check with no injection (R109). -/
def State.checkOut (s : State) (w a c : Nat) : CheckOut :=
  let x := s.col w a c
  checkColumn x.int (s.f F.WNG_TB_CTRL_SIGMA w) x.n x.cv ((x.ent.getD (List.replicate 128 0)).take x.rows) x.exempt

/-- A check that did not fail is counted in `y`, and the column is passed. -/
def State.checkPassed (s : State) (w a c : Nat) (y : Fld) : State := (s.bump y 1 w a).setCol w a c { s.col w a c with chk := .passed }

theorem State.injected_none {target : Nat} (h : s.f F.EYE_INJ_CTRL_ARMED = 0 ∨ s.f F.EYE_INJ_CTRL_TARGET ≠ target) (hit : Bool) :
    s.injected target hit = none := by
  refine if_neg fun ⟨harmed, htarget, _⟩ => ?_
  rw [harmed] at h
  simp [htarget] at h

section
variable {a c : Nat} (hi : s.f F.EYE_INJ_CTRL_ARMED = 0 ∨ s.f F.EYE_INJ_CTRL_TARGET ≠ 5)
include hi

theorem State.checkCol_skips (hres : (s.checkOut w a c).res = none) :
    s.checkCol w a c = (s.checkPassed w a c F.WNG_ARR_TBCNT_SKIPPED, false) := by
  unfold State.checkOut at hres
  unfold State.checkCol
  dsimp only at hres ⊢
  rw [State.injected_none hi]
  dsimp only
  rw [hres]
  rfl

theorem State.checkCol_passes (hres : (s.checkOut w a c).res = some true) :
    s.checkCol w a c = (s.checkPassed w a c F.WNG_ARR_TBCNT_CHECKS, false) := by
  unfold State.checkOut at hres
  unfold State.checkCol
  dsimp only at hres ⊢
  rw [State.injected_none hi]
  dsimp only
  rw [hres]
  rfl
end

/-- A due check whose column has passed, and what it leaves (R109, R110). -/
theorem State.checkNow_spec {a c : Nat} {y : Fld} (hd : s.checkDue w a c = true) (hc : s.checkCol w a c = (s.checkPassed w a c y, false))
    (hy : y.lsb + y.w ≤ 64) (hbusy : F.WNG_VEC_STATUS_BUSY.spares y = true) (hprofile : F.WNG_VEC_STATUS_PROFILE.spares y = true) :
    (s.checkNow w a c).f y w a = min (s.f y w a + 1) (2 ^ y.w - 1) ∧ ((s.checkNow w a c).col w a c).chk = .passed := by
  have hnow : s.checkNow w a c = (s.checkPassed w a c y).startRun w := by
    rw [State.checkNow, if_neg (by simp [hd]), hc]
    rfl
  rw [hnow, State.f_startRun hbusy hprofile, State.col_startRun, State.checkPassed, State.f_setCol, State.col_setCol_same]
  exact ⟨State.f_bump_same _ _ _ _ _ hy, rfl⟩

/-! ### The start of an epilogue (R107) -/

theorem State.startEpilogue_starts {m : MatJob} {b : Blk} {p : List Insn} (ht : (s.wing w).vecTurn = some (.epi m b p)) :
    s.startEpilogue w = s.startRun w := by
  rw [State.startEpilogue, ht]

end Sys2Proof.Machine

namespace Sys2Proof.Claims
open Sys2Proof Sys2Proof.Machine

/-! ### The obligation -/

/-- Settles O28: each clause is the fact about its operation. -/
theorem wingStepsComplete : Obligations.WingStepsComplete := by
  intro s w a c hw ha hc
  have hwing : decide (w < 64) = true := decide_eq_true hw
  have hcolumn : (decide (w < 64) && decide (a < 4) && decide (c < 64)) = true := by simp [hw, ha, hc]
  refine ⟨?load, ?step, ?check, ?epilogue, ?reduction⟩
  case load =>
    intro m js hj hr
    exact completes_of_onUnit rfl hwing (State.loadNext_first hj hr ▸ s.loadTile_tile w m)
  case step => exact fun m t errs hj hr ht => completes_of_onUnit rfl hwing (State.arrayStep_spec errs hj hr ht)
  case check =>
    intro hd hi x o
    refine ⟨fun hres => ?_, fun hres => ?_⟩
    · exact completes_of_onUnit rfl hcolumn (State.checkNow_spec hd (State.checkCol_skips hi hres) (by decide) (by decide) (by decide))
    · exact completes_of_onUnit rfl hcolumn (State.checkNow_spec hd (State.checkCol_passes hi hres) (by decide) (by decide) (by decide))
  case epilogue =>
    intro m b p ht hr hs hv hl hg hp
    refine completes_of_onUnit rfl hwing ?_
    rw [State.startEpilogue_starts ht, State.startRun_epilogue ht hr hs hv hl hg hp]
    exact ⟨State.busy_runBegun _ _ _ _, _, State.run_runBegun _ _ _ _, rfl, rfl, rfl, rfl, rfl⟩
  case reduction =>
    intro r hr hp hu hh
    refine completes_of_onUnit rfl hwing ?_
    rw [State.reduceNow_finishes hr hp hu hh]
    exact ⟨rfl, s.finishUnit_run w r⟩

end Sys2Proof.Claims
end

section
/-! PROOF. A wing leaves service (R43, R48, R115): the state, the cause and the fences it shows once it is OUT, whatever its
departure raises and hands over. -/

namespace Sys2Proof.Machine

/-! ### What a departure leaves as it is -/

/-- What WNG_STATUS and WNG_ARR_STAT show of a wing out of service beside its state. -/
def outFields : List Fld := [F.WNG_STATUS_OUT_CAUSE, F.WNG_ARR_STAT_FENCED]

/-- Every wing keeps its cause and its fences, and its state unless it was in TEMPER. -/
structure OutKept (s t : State) : Prop where
  state : ∀ w, s.wingState w ≠ 1 → t.wingState w = s.wingState w
  f : ∀ y ∈ outFields, ∀ i j, t.f y i j = s.f y i j

variable {s t : State}

theorem OutKept.refl (s : State) : OutKept s s := ⟨fun _ _ => rfl, fun _ _ _ _ => rfl⟩

theorem OutKept.trans {u : State} (h : OutKept s t) (k : OutKept t u) : OutKept s u :=
  ⟨fun w hw => (k.state w (by rwa [h.state w hw])).trans (h.state w hw), fun y hy i j => (k.f y hy i j).trans (h.f y hy i j)⟩

theorem OutKept.setF (h : OutKept s t) (x : Fld) (v i j : Nat) (hx : (F.WNG_STATUS_STATE :: outFields).all x.spares = true) :
    OutKept s (t.setF x v i j) := by
  rw [List.all_eq_true] at hx
  exact h.trans ⟨fun w _ => State.f_setF_spared (hx _ List.mem_cons_self),
    fun y hy a b => State.f_setF_spared (hx y (List.mem_cons_of_mem _ hy))⟩

theorem OutKept.bump (h : OutKept s t) (x : Fld) (k i j : Nat) (hx : (F.WNG_STATUS_STATE :: outFields).all x.spares = true) :
    OutKept s (t.bump x k i j) := h.setF x _ i j hx

/-- Changing the state outside the registers, the straps and the loaded fuse maps. -/
theorem OutKept.parts (h : OutKept s t) {u : State} (hr : u.regs = t.regs) (hp : u.pins.straps = t.pins.straps)
    (he : u.engFused = t.engFused) : OutKept s u := by
  have hf : ∀ y i j, u.f y i j = t.f y i j := fun y i j => by simp only [State.f, State.rd, State.fusesIn, hr, hp, he]
  exact h.trans ⟨fun w _ => hf _ _ _, fun y _ i j => hf y i j⟩

theorem OutKept.ite {u : State} {c : Prop} [Decidable c] (h : OutKept s t) (k : OutKept s u) : OutKept s (if c then t else u) := by
  split <;> assumption

theorem OutKept.foldS {α : Type} {f : α → State → State} (xs : List α) (h : OutKept s t)
    (hf : ∀ x t, OutKept s t → OutKept s (f x t)) : OutKept s (foldS xs f t) := by
  unfold Machine.foldS
  induction xs generalizing t with
  | nil => exact h
  | cons x xs ih => exact ih (hf x t h)

/-! ### Raising a source -/

/-- An abandoned sweep gives a wing in TEMPER back to READY (R458). -/
theorem OutKept.endTemper (h : OutKept s t) (w : Nat) :
    OutKept s (if t.f F.WNG_STATUS_STATE w = 1 then t.setF F.WNG_STATUS_STATE 2 w else t) := by
  refine h.trans ?_
  split
  · rename_i htemper
    refine ⟨fun v hv => ?_, fun y hy i j => State.f_setF_spared ?_⟩
    · have hne : w ≠ v := fun e => hv (e ▸ htemper)
      exact State.f_setF_idx _ _ _ _ (.inl hne) (by decide)
    · have hall : outFields.all F.WNG_STATUS_STATE.spares = true := by decide
      exact List.all_eq_true.mp hall y hy
  · exact .refl t

theorem OutKept.dropSweeps (h : OutKept s t) (p : Sweep → Bool) (l : Bool) : OutKept s (t.dropSweeps p l) := by
  unfold State.dropSweeps
  extract_lets gone
  split
  · exact h
  refine .parts (.setF (.foldS _ h fun x u hu => ?_) F.EYE_SWEEP_BUSY _ _ _ (by decide)) rfl rfl rfl
  have hoff := OutKept.foldS (f := fun a u => u.setF F.MGN_DOM_TAP_SWEEP_OFF 0 (6 * x.wing + a)) (List.range 4) hu
    fun a u hu => hu.setF _ _ _ _ (by decide)
  exact .parts ((hoff.setF F.WNG_BIST_BUSY 0 x.wing 0 (by decide)).endTemper x.wing) rfl rfl rfl

theorem OutKept.pinReact (h : OutKept s t) (n : Nat) : OutKept s (t.pinReact n) := by
  unfold State.pinReact
  extract_lets -merge +onlyGivenNames code src held
  have hheld : OutKept s held := h.parts rfl rfl rfl
  refine .ite hheld (.ite ?alert (.ite ?security hheld))
  case alert => exact .parts ((hheld.setF F.EYE_PIN_ALERT 1 0 0 (by decide)).setF F.EYE_PIN_ALERT_HOLD 1 0 0 (by decide)) rfl rfl rfl
  case security =>
    exact .parts ((hheld.setF F.EYE_PIN_SECALERT 1 0 0 (by decide)).setF F.EYE_PIN_SECALERT_HOLD 1 0 0 (by decide)) rfl rfl rfl

theorem OutKept.capture (h : OutKept s t) (n : Nat) (c : Cap) : OutKept s (t.capture n c) := by
  unfold State.capture
  extract_lets g addr time master atype src
  have hsrc : OutKept s src := ((((h.setF _ _ _ _ (by decide)).setF _ _ _ _ (by decide)).setF _ _ _ _ (by decide)).setF _ _ _ _
    (by decide)).setF _ _ _ _ (by decide)
  exact .ite (hsrc.setF _ _ _ _ (by decide)) (h.setF _ _ _ _ (by decide))

theorem OutKept.record (h : OutKept s t) (n : Nat) (c : Cap) (x : List Int) : OutKept s (t.record n c x).1 := by
  unfold State.record
  dsimp only
  split
  · exact h.parts rfl rfl rfl
  · exact .parts (h.setF F.EYE_STATUS_LOG_WRAP 1 0 0 (by decide)) rfl rfl rfl

theorem OutKept.react (h : OutKept s t) (n : Nat) : OutKept s (t.react n) := by
  unfold State.react
  extract_lets -merge +onlyGivenNames seen nmi count quiet total pins swept
  have hnmi : OutKept s nmi := .ite (.parts (h.setF F.EYE_STATUS_NMI_SEEN 1 0 0 (by decide)) rfl rfl rfl) h
  have htotal : OutKept s total :=
    ((hnmi.setF _ _ _ _ (by decide)).setF _ _ _ _ (by decide)).bump _ _ _ _ (by decide)
  have hpins : OutKept s pins := (htotal.pinReact n).setF _ _ _ _ (by decide)
  have hswept : OutKept s swept := .ite (hpins.dropSweeps _ _) hpins
  exact .ite (hswept.parts rfl rfl rfl) (.ite (hswept.parts rfl rfl rfl) hswept)

theorem OutKept.occur (h : OutKept s t) (n : Nat) (c : Cap) (x : List Int) (r : Bool) : OutKept s (t.occur n c x r).1 := by
  unfold State.occur
  split
  · exact h
  extract_lets counted src held tainted src' windowed windowCount last
  have hheld : OutKept s held := .parts (h.bump F.EYE_SRC_STAT_TOTAL 1 n 0 (by decide)) rfl rfl rfl
  have htainted : OutKept s tainted := .ite (hheld.setF _ _ _ _ (by decide)) hheld
  split
  · exact htainted
  have hwindowed : OutKept s windowed := .ite (htainted.parts rfl rfl rfl) htainted
  have hlast : OutKept s last := (hwindowed.bump _ _ _ _ (by decide)).setF _ _ _ _ (by decide)
  have hrecorded : OutKept s (if r = true then last.record n c x else (last, false)).1 := by
    split
    · exact hlast.record n c x
    · exact hlast
  generalize (if r = true then last.record n c x else (last, false)) = z at hrecorded
  obtain ⟨u, lost⟩ := z
  have hcaptured := hrecorded.capture n c
  have hpending := OutKept.ite (c := (u.capture n c).f F.EYE_SRC_CFG_IRQ n = 1)
    (hcaptured.setF F.EYE_GRP_PEND_PENDING ((u.capture n c).f F.EYE_GRP_PEND_PENDING (n / 16) ||| 2 ^ (n % 16)) (n / 16) 0 (by decide)) hcaptured
  exact .ite (hpending.react n) hpending

theorem OutKept.sweepTrigger (h : OutKept s t) (n : Nat) : OutKept s (t.sweepTrigger n) :=
  .ite (.parts (h.setF F.EYE_SWEEP_BUSY 1 0 0 (by decide)) rfl rfl rfl) h

theorem OutKept.raise (h : OutKept s t) (n : Nat) (c : Cap) : OutKept s (t.raise n c) := by
  unfold State.raise State.raiseX
  have hoccurred := h.occur n c [] true
  generalize t.occur n c [] true = z at hoccurred
  obtain ⟨u, lost⟩ := z
  exact .ite ((hoccurred.sweepTrigger n).occur _ _ _ _) (hoccurred.sweepTrigger n)

/-! ### Handing the work over (R220) -/

theorem OutKept.putCmd (h : OutKept s t) (c : Cmd) : OutKept s (t.putCmd c) := h.parts rfl rfl rfl

theorem OutKept.finishCmd (h : OutKept s t) (c : Cmd) (status flags : Nat) : OutKept s (t.finishCmd c status flags) := by
  have htaint : OutKept s (t.taintCmd c.q status) := by
    unfold State.taintCmd
    split
    · exact .ite (h.setF _ _ _ _ (by decide)) h
    · exact h
  exact (htaint.putCmd _).setF _ _ _ _ (by decide)

theorem OutKept.enterError (h : OutKept s t) (q : Nat) : OutKept s (t.enterError q) := by
  have hstate : OutKept s (t.setQState q qError) := h.setF _ _ _ _ (by decide)
  refine .ite ?_ hstate
  unfold State.irq
  exact .ite (hstate.parts rfl rfl rfl) (hstate.parts rfl rfl rfl)

theorem OutKept.noAdopter (h : OutKept s t) (w : Nat) (js : List Job) : OutKept s (t.noAdopter w js) := by
  unfold State.noAdopter
  refine .raise (.setF (.setF (.foldS _ (.foldS _ h fun j u hu => ?_) fun q u hu => hu.enterError q) F.QE_STATUS_NO_ADOPTER _ _ _
    (by decide)) F.QE_STATUS_LAST_FAILED _ _ _ (by decide)) _ _
  split
  · exact .ite hu (hu.finishCmd _ _ _)
  · exact hu

theorem OutKept.chooseAdopter (h : OutKept s t) (w : Nat) (js : List Job) : OutKept s (t.chooseAdopter w js) := by
  unfold State.chooseAdopter
  split
  · exact h.noAdopter w js
  · exact h.parts rfl rfl rfl

/-! ### The departure (R115) -/

/-- The work of a wing that leaves service: its replay set and its commands, as they stood before their first steps. -/
def State.workOf (s : State) (w : Nat) : List Job :=
  (((s.qe.replay.filter fun p => p.1 == w).flatMap fun p => p.2) ++ sortJobs ((s.wing w).past.map Job.mat ++ (s.wing w).jobs)).map Job.fresh

/-- The wing stopped, its work waiting for replay, its chains closed and its buffers empty. -/
def State.stopped (s : State) (w : Nat) : State :=
  let s' := s.markReplay (s.workOf w)
  let s' : State := { s' with qe := { s'.qe with replay := s'.qe.replay.filter fun p => p.1 != w } }
  let v := s.wing w
  ((s'.markPrune w none).setTiles w { v with jobs := [], past := [], run := none, half0 := none, half1 := none, whole := none
                                             cols := v.cols.map fun p => (p.1, p.2.close false), fifo := [[], [], [], []], tr := []
                                             draining := false, sweep := false }).setF F.WNG_VEC_STATUS_BUSY 0 w

/-- Sweeps end, the departure is raised, and adopters are chosen for the copies towards the wing and for its own work. -/
def State.handOver (s : State) (w : Nat) (js : List Job) : State :=
  let s := foldS (List.range 4) (fun a s => s.setF F.MGN_DOM_TAP_SWEEP_OFF 0 (6 * w + a)) s
  let s := s.dropSweeps (fun x => x.wing == w) false
  let s := s.raise (srcOf w 7) ⟨0, (Master.mk 1 w).code, 0⟩
  let redo := s.qe.adopt.filter fun a => a.adopter == w
  let s := { s with qe := { s.qe with adopt := s.qe.adopt.filter fun a => a.adopter != w } }
  (foldS redo (fun a s => s.chooseAdopter a.failed a.jobs) s).chooseAdopter w js

theorem State.wingLeave_eq {w : Nat} (h : s.wingState w ≠ 5) (cause : Nat) :
    s.wingLeave w cause = (((s.stopped w).setWingState w 5).setF F.WNG_STATUS_OUT_CAUSE cause w).handOver w (s.workOf w) := if_neg h

theorem OutKept.modCmd (h : OutKept s t) (q n : Nat) (f : Cmd → Cmd) : OutKept s (t.modCmd q n f) := by
  unfold State.modCmd
  split
  · exact h.putCmd _
  · exact h

theorem OutKept.setTiles (h : OutKept s t) (w : Nat) (x : WingSt) : OutKept s (t.setTiles w x) := by
  have hwing : OutKept s (t.setWing w x) := h.parts rfl rfl rfl
  exact ((hwing.setF _ _ _ _ (by decide)).setF _ _ _ _ (by decide)).setF _ _ _ _ (by decide)

theorem OutKept.stopped (s : State) (w : Nat) : OutKept s (s.stopped w) := by
  unfold State.stopped
  extract_lets marked queue unqueued v
  have hmarked : OutKept s marked := .foldS _ (.refl s) fun _ _ k => k.modCmd _ _ _
  have hpruned : OutKept s (unqueued.markPrune w none) := hmarked.parts rfl rfl rfl
  exact (hpruned.setTiles w _).setF _ _ _ _ (by decide)

theorem OutKept.handOver (s : State) (w : Nat) (js : List Job) : OutKept s (s.handOver w js) := by
  unfold State.handOver
  extract_lets off dropped raised redo queue left
  have hoff : OutKept s off := .foldS _ (.refl s) fun _ _ k => k.setF _ _ _ _ (by decide)
  have hleft : OutKept s left := .parts ((hoff.dropSweeps _ _).raise _ _) rfl rfl rfl
  exact (OutKept.foldS redo hleft fun _ _ k => k.chooseAdopter _ _).chooseAdopter w js

/-- A wing that leaves service is OUT with its cause; no array's fence changes. -/
theorem State.wingLeave_spec {w cause : Nat} (h : s.wingState w ≠ 5) (hc : cause < 8) :
    (s.wingLeave w cause).wingState w = 5 ∧ (s.wingLeave w cause).f F.WNG_STATUS_OUT_CAUSE w = cause ∧
    ∀ a, (s.wingLeave w cause).f F.WNG_ARR_STAT_FENCED w a = s.f F.WNG_ARR_STAT_FENCED w a := by
  rw [State.wingLeave_eq h]
  have hover := OutKept.handOver (((s.stopped w).setWingState w 5).setF F.WNG_STATUS_OUT_CAUSE cause w) w (s.workOf w)
  have hout : (((s.stopped w).setWingState w 5).setF F.WNG_STATUS_OUT_CAUSE cause w).wingState w = 5 :=
    (State.f_setF_spared (by decide)).trans (State.wingState_setWingState _ _ (by decide))
  refine ⟨(hover.state w (by simp [hout])).trans hout, ?_, fun a => ?_⟩
  · rw [hover.f _ (by decide)]
    exact State.f_setF_of_lt (by decide) hc
  · rw [hover.f _ (by decide), State.f_setF_spared (by decide), State.setWingState, State.f_setF_spared (by decide)]
    exact (OutKept.stopped s w).f _ (by decide) _ _

end Sys2Proof.Machine
end

section
/-! PROOF. Wings out of service (R115, R215 to R223): take-outs, drains, the replay of a chain and the end of an adoption copy, and
`WingServiceComplete` from them. -/

namespace Sys2Proof.Machine

variable {s : State} {w : Nat}

/-! ### Take-outs and drains (R115) -/

theorem State.takeOut_leaves (h : s.wingState w = 1 ∨ s.wingState w = 2) : s.takeOut w = s.wingLeave w 1 := if_pos h

theorem State.takeOut_drains (h : s.wingState w = 3) : s.takeOut w = s.setWing w { s.wing w with draining := true } := by
  unfold State.takeOut
  dsimp only
  rw [if_neg (by omega), if_pos h]

theorem State.wingDrainTimeout_leaves (h : (s.wing w).draining = true) : s.wingDrainTimeout w = s.wingLeave w 1 := if_pos h

/-! ### The end of an adoption copy (R221) -/

/-- The copy has been made, and QE_ALIAS of the wings that the failed one had adopted names its adopter. -/
def State.copied (s : State) (w v : Nat) : State :=
  let s := (s.checkRead (tileAddr w 0) tileSize (Master.mk 1 w).code atCmd).tileCopy w v
  let s := { s with qe := { s.qe with adopt := s.qe.adopt.filter fun a => a.failed != w } }
  foldS ((List.range 64).filter fun u => u != w && s.f F.QE_ALIAS_VALID u == 1 && s.f F.QE_ALIAS_TARGET u == w)
    (fun u s => s.setF F.QE_ALIAS_TARGET v u) s

/-- QE_ALIAS and the queues of a failed wing name its adopter. -/
def State.rebound (s : State) (w v : Nat) : State :=
  let s := (s.setF F.QE_ALIAS_TARGET v w).setF F.QE_ALIAS_VALID 1 w
  foldS ((List.range 256).filter fun q => s.f F.QE_Q_CFG_WING q == w) (fun q s => s.setF F.QE_Q_CFG_WING v q) s

/-- QE_STATUS names the failed wing and its adopter, and the adoption is raised. -/
def State.adopted (s : State) (w v : Nat) : State :=
  (((s.setF F.QE_STATUS_ADOPTED 1).setF F.QE_STATUS_LAST_FAILED w).setF F.QE_STATUS_LAST_ADOPTER v).raise (srcOf 65 5)
    ⟨0, (Master.mk 1 w).code, 0⟩

theorem State.adoptDone_eq {a : Adoption} (ha : s.qe.adopt.find? (fun a => a.failed == w) = some a)
    (hs : s.wingState a.adopter = 2 ∨ s.wingState a.adopter = 3) :
    s.adoptDone w = foldS a.jobs (fun j s => s.redispatch a.adopter j) (((s.copied w a.adopter).rebound w a.adopter).adopted w a.adopter) := by
  unfold State.adoptDone
  rw [ha]
  exact if_neg (by omega)

theorem State.mem_foldS_setF (x : Fld) (v : Nat) (l : List Nat) (s : State) : (foldS l (fun u s => s.setF x v u) s).mem = s.mem :=
  foldS_keeps State.mem (f := fun u s => s.setF x v u) (fun _ _ => rfl) l s

theorem State.f_foldS_spared {x y : Fld} (h : x.spares y = true) (v : Nat) (l : List Nat) (s : State) (i j : Nat) :
    (foldS l (fun u s => s.setF x v u) s).f y i j = s.f y i j :=
  foldS_keeps (fun t : State => t.f y i j) (f := fun u s => s.setF x v u) (fun _ _ => State.f_setF_spared h) l s

theorem State.mem_copied (s : State) (w v : Nat) : (s.copied w v).mem = cellsCopy s.mem (tileAddr w 0) (tileAddr v 0) tileSize := by
  unfold State.copied
  dsimp only
  rw [State.mem_foldS_setF]
  exact congrArg (cellsCopy · _ _ _) ((ReadFrame.refl s).checkRead _ _ _ _).mem_eq

theorem State.mem_rebound (s : State) (w v : Nat) : (s.rebound w v).mem = s.mem := State.mem_foldS_setF _ _ _ _

theorem State.target_rebound (s : State) (w : Nat) {v : Nat} (hv : v < 64) :
    (s.rebound w v).f F.QE_ALIAS_VALID w = 1 ∧ (s.rebound w v).f F.QE_ALIAS_TARGET w = v := by
  unfold State.rebound
  dsimp only
  constructor
  · rw [State.f_foldS_spared (by decide)]
    exact State.f_setF_of_lt (by decide) (by decide)
  · rw [State.f_foldS_spared (by decide), State.f_setF_spared (by decide)]
    exact State.f_setF_of_lt (by decide) hv

theorem State.status_adopted (s : State) {w v : Nat} (hw : w < 64) (hv : v < 64) :
    (s.adopted w v).f F.QE_STATUS_ADOPTED = 1 ∧ (s.adopted w v).f F.QE_STATUS_LAST_FAILED = w ∧
    (s.adopted w v).f F.QE_STATUS_LAST_ADOPTER = v := by
  unfold State.adopted
  refine ⟨?_, ?_, ?_⟩
  · rw [State.f_raise _ _ _ _ _ _ rfl, State.f_setF_spared (by decide), State.f_setF_spared (by decide)]
    exact State.f_setF_of_lt (by decide) (by decide)
  · rw [State.f_raise _ _ _ _ _ _ rfl, State.f_setF_spared (by decide)]
    exact State.f_setF_of_lt (by decide) hw
  · rw [State.f_raise _ _ _ _ _ _ rfl]
    exact State.f_setF_of_lt (by decide) hv

theorem State.f_adopted (s : State) (w v : Nat) {y : Fld} {i j : Nat} (he : eyeReg y.reg = false) (hy : .QE_STATUS ≠ y.reg) :
    (s.adopted w v).f y i j = s.f y i j := by
  unfold State.adopted
  rw [State.f_raise _ _ _ _ _ _ he, State.f_setF_reg _ _ _ _ _ _ _ _ hy (by decide), State.f_setF_reg _ _ _ _ _ _ _ _ hy (by decide),
    State.f_setF_reg _ _ _ _ _ _ _ _ hy (by decide)]

theorem State.mem_adopted (s : State) (w v : Nat) : (s.adopted w v).mem = s.mem := State.raise_mem _ _ _

/-- The state in which the adopter takes the failed wing's commands (R221). -/
theorem State.adoptDone_spec {a : Adoption} (hw : w < 64) (ha : s.qe.adopt.find? (fun a => a.failed == w) = some a) (hv : a.adopter < 64)
    (hs : s.wingState a.adopter = 2 ∨ s.wingState a.adopter = 3) :
    ∃ t : State, s.adoptDone w = foldS a.jobs (fun j s => s.redispatch a.adopter j) t ∧
      t.mem = cellsCopy s.mem (tileAddr w 0) (tileAddr a.adopter 0) tileSize ∧
      t.f F.QE_ALIAS_VALID w = 1 ∧ t.f F.QE_ALIAS_TARGET w = a.adopter ∧
      t.f F.QE_STATUS_ADOPTED = 1 ∧ t.f F.QE_STATUS_LAST_FAILED = w ∧ t.f F.QE_STATUS_LAST_ADOPTER = a.adopter := by
  obtain ⟨hvalid, htarget⟩ := (s.copied w a.adopter).target_rebound w hv
  refine ⟨_, State.adoptDone_eq ha hs, ?_, ?_, ?_, State.status_adopted _ hw hv⟩
  · rw [State.mem_adopted, State.mem_rebound, State.mem_copied]
  · rwa [State.f_adopted _ _ _ rfl (by decide)]
  · rwa [State.f_adopted _ _ _ rfl (by decide)]

end Sys2Proof.Machine

namespace Sys2Proof.Claims
open Sys2Proof Sys2Proof.Machine

/-! ### The obligation -/

/-- Settles O27: each clause is the fact about its operation. -/
theorem wingServiceComplete : Obligations.WingServiceComplete := by
  intro s w m hw
  have hwing : decide (w < 64) = true := decide_eq_true hw
  refine ⟨?leaves, ?drains, ?timeout, ?replay, ?adoption⟩
  case leaves =>
    intro hs
    obtain ⟨hstate, hcause, -⟩ := State.wingLeave_spec (s := s) (w := w) (cause := 1) (by omega) (by decide)
    exact completes_of_onUnit rfl hwing (State.takeOut_leaves hs ▸ ⟨hstate, hcause⟩)
  case drains =>
    intro hs
    refine completes_of_onUnit rfl hwing ?_
    rw [State.takeOut_drains hs, State.wing_setWing_same]
    exact ⟨rfl, hs⟩
  case timeout =>
    intro hs hd
    obtain ⟨hstate, hcause, -⟩ := State.wingLeave_spec (cause := 1) hs (by decide)
    exact completes_of_onUnit rfl hwing (State.wingDrainTimeout_leaves hd ▸ ⟨hstate, hcause⟩)
  case replay =>
    intro p hp
    refine completes_of_onUnit rfl hwing ?_
    unfold State.chainReplay
    split
    case h_1 hnone => exact absurd (hp.symm.trans hnone) (Option.some_ne_none p)
    case h_2 failed jobs hsome =>
      cases hp.symm.trans hsome
      rfl
  case adoption => exact fun a ha hv hs => completes_of_onUnit rfl hwing (State.adoptDone_spec hw ha hv hs)

end Sys2Proof.Claims
end

section
/-! PROOF. Wing events and service (R114 to R123, R184): hangs, restores, fences, self-tests and the windows of a wing's
accumulators and tile register, and `WingEventsComplete` from them. -/

namespace Sys2Proof.Machine

variable {s : State} {w : Nat}

/-! ### Hangs (R116) -/

theorem State.wingHang_raises {j : MatJob} (hj : (s.wing w).stepJob = some j) (hs : s.wingState w = 3)
    (hf : ∀ k ∈ j.arrs, j.mode.wBytes ≤ ((s.wing w).fifo.getD k []).length) (hh : ∀ k, k < 4 → s.held (6 * w + k) = false) :
    s.wingHang w = s.raise (srcOf w 5) ⟨0, (Master.mk 1 w).code, 0⟩ := by
  have hfull : (j.arrs.all fun a => decide (((s.wing w).fifo.getD a []).length ≥ j.mode.wBytes)) = true := by
    simpa only [List.all_eq_true, decide_eq_true_eq] using hf
  have hfree : (!(List.range 4).any fun a => s.held (6 * w + a)) = true := by
    simpa only [Bool.not_eq_true', List.any_eq_false, List.mem_range, Bool.not_eq_true] using hh
  rw [State.wingHang, hj]
  exact if_pos ⟨hs, hfull, hfree⟩

/-- A wing's hang is a source of its group (Table 16-2). -/
theorem srcDef_hang (hw : w < 64) : (srcDef (srcOf w 5)).isSome = true := by
  have hgroup : srcOf w 5 / 16 = w := by unfold srcOf; omega
  have hindex : srcOf w 5 % 16 = 5 := by unfold srcOf; omega
  simp [srcDef, hgroup, hindex, show w ≤ 63 by omega]

theorem State.wingHang_spec {j : MatJob} (hw : w < 64) (hj : (s.wing w).stepJob = some j) (hs : s.wingState w = 3)
    (hf : ∀ k ∈ j.arrs, j.mode.wBytes ≤ ((s.wing w).fifo.getD k []).length) (hh : ∀ k, k < 4 → s.held (6 * w + k) = false) :
    (s.wingHang w).f F.EYE_SRC_STAT_TOTAL (srcOf w 5) =
      min (s.f F.EYE_SRC_STAT_TOTAL (srcOf w 5) + 1) (2 ^ F.EYE_SRC_STAT_TOTAL.w - 1) := by
  have hother : srcOf w 5 ≠ srcOf 83 12 := by unfold srcOf; omega
  rw [State.wingHang_raises hj hs hf hh]
  exact State.total_raiseX s _ _ _ (srcDef_hang hw) hother

/-! ### Restores and fences (R114, R117) -/

theorem State.restoreWing_spec (hs : s.wingState w = 5) (hc : s.f F.WNG_STATUS_OUT_CAUSE w = 1) :
    (s.restoreWing w).wingState w = 2 ∧ (s.restoreWing w).f F.WNG_STATUS_OUT_CAUSE w = 0 := by
  rw [State.restoreWing, if_pos ⟨hs, hc⟩]
  exact ⟨(State.f_setF_spared (by decide)).trans (State.wingState_setWingState _ _ (by decide)),
    State.f_setF_of_lt (by decide) (by decide)⟩

/-- An array is shown fenced, and counted. -/
def State.fenceShown (s : State) (w a : Nat) : State := (s.setF F.WNG_ARR_STAT_FENCED 1 w a).bump F.WNG_ID_FENCES 1 w

theorem State.fenceArray_leaves {a : Nat} (hf : s.f F.WNG_ARR_STAT_FENCED w a = 0) :
    s.fenceArray w a = (s.fenceShown w a).wingLeave w 3 := if_neg (by omega)

theorem State.fenceArray_spec {a : Nat} (hf : s.f F.WNG_ARR_STAT_FENCED w a = 0) (hs : s.wingState w ≠ 5) :
    (s.fenceArray w a).f F.WNG_ARR_STAT_FENCED w a = 1 ∧ (s.fenceArray w a).wingState w = 5 ∧
    (s.fenceArray w a).f F.WNG_STATUS_OUT_CAUSE w = 3 := by
  have hstate : (s.fenceShown w a).wingState w = s.wingState w :=
    (State.f_bump_spared (by decide)).trans (State.f_setF_spared (by decide))
  have hfenced : (s.fenceShown w a).f F.WNG_ARR_STAT_FENCED w a = 1 :=
    (State.f_bump_spared (by decide)).trans (State.f_setF_of_lt (by decide) (by decide))
  obtain ⟨hout, hcause, hkept⟩ := State.wingLeave_spec (cause := 3) (hstate ▸ hs) (by decide)
  rw [State.fenceArray_leaves hf]
  exact ⟨(hkept a).trans hfenced, hout, hcause⟩

/-! ### Self-tests (R119) -/

theorem State.bistStart_spec (hs : s.wingState w = 0 ∨ s.wingState w = 5) :
    (s.bistStart w).wingState w = 4 ∧ (s.bistStart w).f F.WNG_BIST_BUSY w = 1 := by
  have hstart : s.bistStart w =
      ((s.setWing w { s.wing w with bistRet := s.wingState w }).setWingState w 4).setF F.WNG_BIST_BUSY 1 w := if_pos hs
  rw [hstart]
  exact ⟨(State.f_setF_spared (by decide)).trans (State.wingState_setWingState _ _ (by decide)),
    State.f_setF_of_lt (by decide) (by decide)⟩

theorem State.bistStart_busy_wing (hs : s.wingState w = 3) : s.bistStart w = s.setF F.WNG_BIST_REFUSED 1 w := by
  unfold State.bistStart
  dsimp only
  rw [if_neg (by omega), if_neg (by omega)]

theorem State.f_bistReport (s : State) (w a : Nat) (r : BistResult) (y : Fld) (i j : Nat) (hy : .WNG_ARR_BIST ≠ y.reg) :
    (s.bistReport w a r).f y i j = s.f y i j := by
  unfold State.f State.bistReport
  rw [State.rd_wr_reg _ _ _ _ _ _ hy (by decide)]

/-- The four arrays' results have been reported. -/
def State.bistReported (s : State) (w : Nat) (rs : List BistResult) : State :=
  foldS (List.range 4) (fun a s => s.bistReport w a (rs.getD a ⟨[], false⟩)) s

theorem State.f_bistReported (s : State) (w : Nat) (rs : List BistResult) (y : Fld) (i j : Nat) (hy : .WNG_ARR_BIST ≠ y.reg) :
    (s.bistReported w rs).f y i j = s.f y i j :=
  foldS_keeps (fun t : State => t.f y i j) (f := fun a s => s.bistReport w a (rs.getD a ⟨[], false⟩))
    (fun _ t => t.f_bistReport w _ _ y i j hy) _ s

theorem State.wing_bistReported (s : State) (w : Nat) (rs : List BistResult) (v : Nat) : (s.bistReported w rs).wing v = s.wing v :=
  foldS_keeps (fun t : State => t.wing v) (f := fun a s => s.bistReport w a (rs.getD a ⟨[], false⟩)) (fun _ _ => rfl) _ s

/-- A self-test outside a sweep ends: every array is reported, and the wing returns to the state before. -/
theorem State.bistDone_eq (hb : s.f F.WNG_BIST_BUSY w = 1) (hs : s.wingState w = 4) (rs : List BistResult) :
    s.bistDone w rs = (((s.setF F.WNG_BIST_BUSY 0 w).setF F.WNG_BIST_DONE 1 w).bistReported w rs).setWingState w (s.wing w).bistRet := by
  have hstate : ((s.setF F.WNG_BIST_BUSY 0 w).setF F.WNG_BIST_DONE 1 w).wingState w = 4 :=
    ((State.f_setF_spared (by decide)).trans (State.f_setF_spared (by decide))).trans hs
  rw [State.bistDone, if_neg (by omega)]
  refine (if_pos hstate).trans ?_
  exact congrArg (fun v : WingSt => State.setWingState _ w v.bistRet) (State.wing_bistReported _ w rs w)

theorem State.bistDone_spec (hb : s.f F.WNG_BIST_BUSY w = 1) (hs : s.wingState w = 4) (hr : (s.wing w).bistRet < 8)
    (rs : List BistResult) :
    (s.bistDone w rs).f F.WNG_BIST_BUSY w = 0 ∧ (s.bistDone w rs).f F.WNG_BIST_DONE w = 1 ∧
    (s.bistDone w rs).wingState w = (s.wing w).bistRet := by
  rw [State.bistDone_eq hb hs]
  refine ⟨?busy, ?done, State.wingState_setWingState _ _ hr⟩
  case busy =>
    rw [State.setWingState, State.f_setF_spared (by decide), State.f_bistReported _ _ _ _ _ _ (by decide), State.f_setF_spared (by decide)]
    exact State.f_setF_of_lt (by decide) (by decide)
  case done =>
    rw [State.setWingState, State.f_setF_spared (by decide), State.f_bistReported _ _ _ _ _ _ (by decide)]
    exact State.f_setF_of_lt (by decide) (by decide)

/-! ### The windows of a wing (R121, R184) -/

theorem State.windowRead_word {entry : State → Nat → Nat × State} {x v : Nat} (hs : s.wingState w = 0 ∨ s.wingState w = 5)
    (he : entry s x = (v, s)) (addr : Nat) (m : Master) : s.windowRead entry w x 4 addr m = (v, s) := by
  rw [State.windowRead, if_pos hs, he]
  rfl

theorem ctlShape_word {a : Nat} (h : a % 4 = 0) : ctlShape a 4 = true := by simp [ctlShape, h]

theorem State.accWindow_word {off : Nat} {l : List Nat} (ho : off % 4 = 0) (hs : s.wingState w = 0 ∨ s.wingState w = 5)
    (hl : (s.col w (off / 0x8000) (off % 0x8000 / 0x200)).ent = some l) (m : Master) :
    s.accWindow w off 4 m = { s with busReply := some (l.getD (off % 0x200 / 4) 0) } := by
  have hword : s.accWord w off = (l.getD (off % 0x200 / 4) 0, s) := by rw [State.accWord, hl]
  unfold State.accWindow
  dsimp only
  rw [ctlShape_word (by omega), State.windowRead_word hs hword]
  rfl

theorem State.trWindow_word {off v : Nat} (ho : off % 4 = 0) (hs : s.wingState w = 0 ∨ s.wingState w = 5)
    (hv : mget (s.wing w).tr (off % 512 / 4, off / 512) = some v) (m : Master) :
    s.trWindow w off 4 m = { s with busReply := some v } := by
  have hword : s.trWord w off = (v, s) := by rw [State.trWord, hv]
  unfold State.trWindow
  dsimp only
  rw [ctlShape_word (by omega), State.windowRead_word hs hword]
  rfl

end Sys2Proof.Machine

namespace Sys2Proof.Claims
open Sys2Proof Sys2Proof.Machine

/-! ### The obligation -/

/-- Settles O29: each clause is the fact about its operation. -/
theorem wingEventsComplete : Obligations.WingEventsComplete := by
  intro s w a m hw ha
  have hwing : decide (w < 64) = true := decide_eq_true hw
  refine ⟨?hang, ?restore, ?fence, ?start, ?refused, ?done, ?accWindow, ?trWindow⟩
  case hang => exact fun j hj hs hf hh => completes_of_onUnit rfl hwing (State.wingHang_spec hw hj hs hf hh)
  case restore => exact fun hs hc => completes_of_onUnit rfl hwing (State.restoreWing_spec hs hc)
  case fence => exact fun hf hs => completes_of_onUnit rfl (by simp [hw, ha]) (State.fenceArray_spec hf hs)
  case start => exact fun hs => completes_of_onUnit rfl hwing (State.bistStart_spec hs)
  case refused =>
    intro hs
    refine completes_of_onUnit rfl hwing ?_
    rw [State.bistStart_busy_wing hs]
    exact ⟨State.f_setF_of_lt (by decide) (by decide), (State.f_setF_spared (by decide)).trans hs⟩
  case done => exact fun rs hb hs hr => completes_of_onUnit rfl hwing (State.bistDone_spec hb hs hr rs)
  case accWindow =>
    intro off l hoff ho hs hl
    refine completes_of_onUnit rfl (by simp [hw, hoff]) ?_
    rw [State.accWindow_word ho hs hl]
    exact ⟨rfl, rfl⟩
  case trWindow =>
    intro off v hoff ho hs hv
    refine completes_of_onUnit rfl (by simp [hw, hoff]) ?_
    rw [State.trWindow_word ho hs hv]
    exact ⟨rfl, rfl⟩

end Sys2Proof.Claims
end

section
/-! PROOF. Stream descriptors (R128 to R131): what a validation and the write of a descriptor's word leave in the descriptor. -/

namespace Sys2Proof.Machine

variable {s : State} {i : Nat}

/-! ### Validation (R130) -/

theorem State.streamValidate_taken (h : s.streamOk i = true) (m : Master) :
    s.streamValidate i m = (s.setF F.RUN_STREAM_SRC_VALID 1 i).setF F.RUN_STREAM_SRC_ERR 0 i := if_pos h

/-- A descriptor that does not meet R130, as it and RUN_STATUS show it. -/
def State.descRefused (s : State) (i : Nat) : State :=
  (((s.setF F.RUN_STREAM_SRC_VALID 0 i).setF F.RUN_STREAM_SRC_ERR 1 i).setF F.RUN_STATUS_DESC_INVALID 1).setF F.RUN_STATUS_LAST_DESC i

theorem State.streamValidate_refused (h : s.streamOk i = false) (m : Master) :
    s.streamValidate i m = (s.descRefused i).cfgErr (RegKey.addr ⟨.RUN_STREAM_SRC, i, 0⟩) m := if_neg (by simp [h])

theorem State.streamValidate_taken_spec (h : s.streamOk i = true) (m : Master) :
    (s.streamValidate i m).f F.RUN_STREAM_SRC_VALID i = 1 ∧ (s.streamValidate i m).f F.RUN_STREAM_SRC_ERR i = 0 ∧
    { s.streamValidate i m with regs := s.regs } = s := by
  rw [State.streamValidate_taken h]
  exact ⟨(State.f_setF_spared (by decide)).trans (State.f_setF_of_lt (by decide) (by decide)),
    State.f_setF_of_lt (by decide) (by decide), rfl⟩

theorem State.descRefused_spec (s : State) (hi : i < 4096) :
    (s.descRefused i).f F.RUN_STREAM_SRC_VALID i = 0 ∧ (s.descRefused i).f F.RUN_STREAM_SRC_ERR i = 1 ∧
    (s.descRefused i).f F.RUN_STATUS_DESC_INVALID = 1 ∧ (s.descRefused i).f F.RUN_STATUS_LAST_DESC = i := by
  unfold State.descRefused
  refine ⟨?valid, ?err, ?invalid, State.f_setF_of_lt (by decide) hi⟩
  case valid =>
    iterate 3 rw [State.f_setF_spared (by decide)]
    exact State.f_setF_of_lt (by decide) (by decide)
  case err =>
    iterate 2 rw [State.f_setF_spared (by decide)]
    exact State.f_setF_of_lt (by decide) (by decide)
  case invalid =>
    rw [State.f_setF_spared (by decide)]
    exact State.f_setF_of_lt (by decide) (by decide)

theorem State.f_cfgErr (s : State) (a : Nat) (m : Master) (x : Fld) (j k : Nat) (hx : eyeReg x.reg = false) :
    (s.cfgErr a m).f x j k = s.f x j k := State.f_raise _ _ _ _ _ _ hx

theorem State.streamValidate_refused_spec (h : s.streamOk i = false) (hi : i < 4096) (m : Master) :
    (s.streamValidate i m).f F.RUN_STREAM_SRC_VALID i = 0 ∧ (s.streamValidate i m).f F.RUN_STREAM_SRC_ERR i = 1 ∧
    (s.streamValidate i m).f F.RUN_STATUS_DESC_INVALID = 1 ∧ (s.streamValidate i m).f F.RUN_STATUS_LAST_DESC = i := by
  obtain ⟨hvalid, herr, hinvalid, hlast⟩ := s.descRefused_spec hi
  rw [State.streamValidate_refused h]
  exact ⟨(State.f_cfgErr _ _ _ _ _ _ rfl).trans hvalid, (State.f_cfgErr _ _ _ _ _ _ rfl).trans herr,
    (State.f_cfgErr _ _ _ _ _ _ rfl).trans hinvalid, (State.f_cfgErr _ _ _ _ _ _ rfl).trans hlast⟩

/-! ### Writing a word (R128, R131) -/

/-- A descriptor's word as the plain store leaves it. -/
def State.descStored (s : State) (i word value : Nat) (m : Master) : State :=
  let k : RegKey := ⟨streamWords word, i, 0⟩
  let y := k.storeAll s.lcs (fullWrite s k (value % 2 ^ 64) m) (s.rd k.name i)
  if y = s.rd k.name i then s else s.wr k.name y i

/-- No field of a descriptor is locked; after the store VALID falls, or a 1 written to it validates. -/
theorem State.descWrite_eq (s : State) (i : Nat) {word : Nat} (hw : word < 4) (v : Nat) (m : Master) :
    s.descWrite i word v m =
      (s.descStored i word v m).streamWord i (word == 0 && (fullWrite s ⟨streamWords word, i, 0⟩ (v % 2 ^ 64) m).one 63) m := by
  interval_cases word <;> rfl

theorem State.streamWord_false (s : State) (i : Nat) (m : Master) : s.streamWord i false m = s.setF F.RUN_STREAM_SRC_VALID 0 i := rfl

theorem bitsAt_mod_word (v : Nat) {l w : Nat} (h : l + w ≤ 64) : bitsAt (v % 2 ^ 64) l w = bitsAt v l w := by
  refine Nat.eq_of_testBit_eq fun n => ?_
  rw [testBit_bitsAt, testBit_bitsAt, Nat.testBit_mod_two_pow]
  by_cases hn : n < w
  · simp [show l + n < 64 by omega]
  · simp [hn]

/-- Written without a 1 to VALID, a word of a descriptor leaves it invalid. -/
theorem State.descWrite_invalidates (s : State) (i : Nat) {word v : Nat} (hw : word < 4) (hv : bitsAt v 63 1 = 0) (m : Master) :
    s.descWrite i word v m = (s.descStored i word v m).setF F.RUN_STREAM_SRC_VALID 0 i := by
  have hone : (fullWrite s ⟨streamWords word, i, 0⟩ (v % 2 ^ 64) m).one 63 = false := by
    rw [CtlWrite.one, fullWrite, bitsAt_mod_word v (by decide), hv]
    rfl
  rw [State.descWrite_eq s i hw, hone, Bool.and_false, State.streamWord_false]

theorem storeAll_streamLen (s : State) (i v : Nat) (m : Master) (lcs : Nat) (x : Word) :
    RegKey.storeAll ⟨.RUN_STREAM_LEN, i, 0⟩ lcs (fullWrite s ⟨.RUN_STREAM_LEN, i, 0⟩ v m) x =
      setBits x 0 40 (clampNat 0 1099511627775 (bitsAt v 0 40)) := rfl

theorem State.rd_descStored (s : State) (i word v : Nat) (m : Master) :
    (s.descStored i word v m).rd (streamWords word) i =
      RegKey.storeAll ⟨streamWords word, i, 0⟩ s.lcs (fullWrite s ⟨streamWords word, i, 0⟩ (v % 2 ^ 64) m) (s.rd (streamWords word) i) := by
  unfold State.descStored
  dsimp only
  split
  next h => exact h.symm
  next => exact State.rd_wr_same _ _ _ _ _

theorem bitsAt_of_lt {v w : Nat} (h : v < 2 ^ w) : bitsAt v 0 w = v := Nat.mod_eq_of_lt h

theorem State.length_descStored (s : State) (i : Nat) {v : Nat} (hv : v % 2 ^ 64 < 2 ^ F.RUN_STREAM_LEN_LENGTH.w) (m : Master) :
    (s.descStored i 1 v m).f F.RUN_STREAM_LEN_LENGTH i = v % 2 ^ 64 := by
  have hfits : v % 2 ^ 64 < 2 ^ 40 := hv
  have hclamp : clampNat 0 1099511627775 (v % 2 ^ 64) = v % 2 ^ 64 := by
    rw [clampNat, if_neg (Nat.not_lt_zero _), if_neg (by omega)]
  have hrd : (s.descStored i 1 v m).rd .RUN_STREAM_LEN i = setBits (s.rd .RUN_STREAM_LEN i) 0 40 (v % 2 ^ 64) := by
    refine (s.rd_descStored i 1 v m).trans ((storeAll_streamLen s i _ m _ _).trans ?_)
    rw [bitsAt_of_lt hfits, hclamp, streamWords]
  rw [State.f, show F.RUN_STREAM_LEN_LENGTH = ⟨.RUN_STREAM_LEN, 0, 40⟩ from rfl, hrd, getBits_setBits_same _ _ _ _ (by decide),
    Nat.mod_eq_of_lt hfits]

theorem State.length_descWrite (s : State) (i : Nat) {v : Nat} (hv : v % 2 ^ 64 < 2 ^ F.RUN_STREAM_LEN_LENGTH.w) (m : Master) :
    (s.descWrite i 1 v m).f F.RUN_STREAM_LEN_LENGTH i = v % 2 ^ 64 := by
  have heq : s.descWrite i 1 v m = (s.descStored i 1 v m).setF F.RUN_STREAM_SRC_VALID 0 i := s.descWrite_eq i (by decide) v m
  rw [heq, State.f_setF_spared (by decide)]
  exact s.length_descStored i hv m

end Sys2Proof.Machine
end

section
/-! PROOF. The runner's instances (R131 to R138): which record stands under a number after an opening, a slab and a pruning, and that
none does after a closing. -/

namespace Sys2Proof.Machine

variable {s : State} {x : Inst}

/-! ### Instances by number -/

theorem State.inst_of_insts {s t : State} (h : t.insts = s.insts) (id : Nat) : t.inst id = s.inst id := by rw [State.inst, h, State.inst]

theorem State.mem_of_inst {id : Nat} (h : s.inst id = some x) : x ∈ s.insts := List.mem_of_find?_eq_some h

/-- Where a record stands under a number, the one that is set replaces it. -/
theorem State.inst_setInst {y : Inst} (h : s.inst y.id = some x) : (s.setInst y).inst y.id = some y := by
  have hid : x.id = y.id := by simpa using List.find?_some h
  have htest : ((fun z : Inst => z.id == y.id) ∘ fun z => if z.id = y.id then y else z) = fun z => z.id == y.id := by
    funext z
    by_cases hz : z.id = y.id <;> simp [hz]
  calc (s.setInst y).inst y.id
    _ = (s.inst y.id).map fun z => if z.id = y.id then y else z := by rw [State.inst, State.setInst, List.find?_map, htest, State.inst]
    _ = some y := by rw [h, Option.map_some, if_pos hid]

theorem State.onInst_of_inst {id : Nat} (h : s.inst id = some x) (k : Inst → State → State) : s.onInst id k = k x s := by
  rw [State.onInst, h]

theorem State.pruneDue_of_nil (h : x.pruneDue = []) : s.pruneDue x = s := by
  rw [State.pruneDue, h]
  rfl

/-! ### Opening (R131 to R133) -/

theorem State.desc_of_forming {i : Nat} {p : Inst → Bool} (h : s.forming i p = some x) : x.desc = i := by
  have htest := List.find?_some h
  simp only [Bool.and_eq_true, beq_iff_eq] at htest
  obtain ⟨⟨hdesc, -⟩, -⟩ := htest
  exact hdesc

theorem State.busy_streamBusy {y : Inst} (hy : y ∈ s.insts) (ho : y.isOpen = true) :
    (s.streamBusy y.desc).f F.RUN_STREAM_SRC_BUSY y.desc = 1 := by
  have hany : (s.insts.any fun z => z.desc == y.desc && z.isOpen) = true := List.any_eq_true.mpr ⟨y, hy, by simp [ho]⟩
  rw [State.streamBusy, if_pos hany]
  exact State.f_setF_of_lt (by decide) (by decide)

/-- The record as it opens with a copy of its descriptor (R131). -/
def State.opened (s : State) (x : Inst) : Inst :=
  { x with
    isOpen := true
    src := s.f F.RUN_STREAM_SRC_SRC_ADDR x.desc
    kind := s.f F.RUN_STREAM_SRC_SRC_KIND x.desc
    hint := s.f F.RUN_STREAM_SRC_HINT x.desc
    len := s.f F.RUN_STREAM_LEN_LENGTH x.desc
    rowBytes := s.f F.RUN_STREAM_SHAPE_ROW_BYTES x.desc
    rowPitch := s.f F.RUN_STREAM_SHAPE_ROW_PITCH x.desc }

section
variable (hk : s.f F.RUN_STREAM_SRC_SRC_KIND x.desc = 0) (hv : s.f F.RUN_STREAM_SRC_VALID x.desc = 1)
include hk hv

theorem State.openInst_of_memory : s.openInst x = some ((s.setInst (s.opened x)).streamBusy x.desc) := by
  have hvalid : ¬ s.f F.RUN_STREAM_SRC_VALID x.desc = 0 := by omega
  have hmemory : ¬ s.f F.RUN_STREAM_SRC_SRC_KIND x.desc = 1 := by omega
  unfold State.openInst
  dsimp only
  rw [if_neg hvalid, if_neg hmemory]
  rfl

theorem State.openOr_of_memory : s.openOr x = (s.setInst (s.opened x)).streamBusy x.desc := by
  have hnow : ¬ (s.f F.RUN_STREAM_SRC_VALID x.desc = 1 ∧ s.f F.RUN_STREAM_SRC_SRC_KIND x.desc = 1 ∧ (!s.turnOpen x.desc) = true) := by
    omega
  unfold State.openOr
  dsimp only
  rw [if_neg hnow, State.openInst_of_memory hk hv]

theorem State.openOr_spec {z : Inst} (hz : s.inst x.id = some z) :
    (s.openOr x).f F.RUN_STREAM_SRC_BUSY x.desc = 1 ∧ (s.openOr x).inst x.id = some (s.opened x) := by
  have hset : (s.setInst (s.opened x)).inst x.id = some (s.opened x) := State.inst_setInst (y := s.opened x) hz
  rw [State.openOr_of_memory hk hv]
  exact ⟨State.busy_streamBusy (y := s.opened x) (State.mem_of_inst hset) rfl, hset⟩
end

theorem State.openFor_ready {i w : Nat} (hf : s.forming i (fun x => x.recv.any fun r => r.w == w) = some x) (hp : x.pruneDue = [])
    (hx : s.inst x.id = some x) (hr : s.instReady x = true) : s.openFor i w = s.openOr x := by
  simp only [State.openFor, hf, State.pruneDue_of_nil hp, hx, hr, if_true]

/-- The record with the wings that have joined as its set (R133). -/
def Inst.joined (x : Inst) : Inst := { x with set := x.recv.map (·.w) }

section
variable {i : Nat} (hf : s.forming i (fun x => !x.unicast) = some x) (hp : x.pruneDue = []) (hx : s.inst x.id = some x)
  (hr : s.instReady x = false) (hfirst : ∀ z ∈ s.insts, ¬ (z.desc = i ∧ z.isOpen = true ∧ z.unicast = false))
include hf hp hx hr hfirst

theorem State.joinTimeout_opens (ho : (((s.setInst x.joined).openOr x.joined).inst x.id).any (·.isOpen) = true) :
    s.joinTimeout i = ((s.setInst x.joined).openOr x.joined).setF F.RUN_STATUS_JOIN_PARTIAL 1 := by
  have hnone : ¬ (s.insts.any fun z => z.desc == i && z.isOpen && !z.unicast) = true := by
    simpa only [List.any_eq_true, Bool.and_eq_true, beq_iff_eq, Bool.not_eq_true', and_assoc, not_exists, not_and] using hfirst
  simp only [State.joinTimeout, hf, State.pruneDue_of_nil hp, hx, hr]
  rw [if_neg hnone]
  exact if_pos ⟨rfl, ho⟩

theorem State.joinTimeout_spec (hk : s.f F.RUN_STREAM_SRC_SRC_KIND x.desc = 0) (hv : s.f F.RUN_STREAM_SRC_VALID x.desc = 1) :
    (s.joinTimeout i).f F.RUN_STATUS_JOIN_PARTIAL = 1 ∧
    (s.joinTimeout i).inst x.id = some ((s.setInst x.joined).opened x.joined) := by
  have hset : (s.setInst x.joined).inst x.id = some x.joined := State.inst_setInst (y := x.joined) hx
  have hopen : ((s.setInst x.joined).openOr x.joined).inst x.id = some ((s.setInst x.joined).opened x.joined) :=
    (State.openOr_spec (s := s.setInst x.joined) (x := x.joined) hk hv hset).2
  rw [State.joinTimeout_opens hf hp hx hr hfirst (by rw [hopen]; rfl)]
  exact ⟨State.f_setF_of_lt (by decide) (by decide), hopen⟩
end

/-! ### A slab (R136) -/

/-- The record with `n` bytes more accepted by its receivers `rs`. -/
def Inst.advanced (x : Inst) (rs : List Recv) (n : Nat) : Inst :=
  { x with recv := x.recv.map fun y => if rs.contains y then { y with pos := y.pos + n } else y }

theorem State.insts_slabTo (s : State) (bs : List Byte) (bad : Bool) (r : Recv) : (s.slabTo bs bad r).insts = s.insts := by
  unfold State.slabTo
  dsimp only
  split
  · split <;> rfl
  · rfl

theorem State.insts_freeBytes (n : Nat) (s : State) (acc : List Byte) : (State.freeBytes n s acc).2.insts = s.insts := by
  induction n generalizing s acc with
  | zero => rfl
  | succ n ih => exact ih s.draw.2 _

/-- The state after a slab of `n` bytes at `pos` was read for the receivers `r :: rs` and put into their FIFOs. -/
def State.slabSent (s : State) (x : Inst) (pos n : Nat) (r : Recv) (rs : List Recv) : State :=
  let fresh := x.recv.all fun r => decide (r.pos ≤ pos)
  let a0 := streamAddr x.src x.len x.rowBytes x.rowPitch pos
  let s := if x.kind = 0 ∧ fresh then s.readWith a0 n x.hint [] (Master.mk 1 r.w).code atCmd else s
  let b := s.slabBytes x pos n
  let z := if b.2.2 then State.freeBytes n s [] else (b.1, s)
  foldS (r :: rs) (fun r s => s.slabTo z.1 b.2.1 r) z.2

theorem State.insts_slabSent (s : State) (x : Inst) (pos n : Nat) (r : Recv) (rs : List Recv) :
    (s.slabSent x pos n r rs).insts = s.insts := by
  unfold State.slabSent
  extract_lets fresh a0 read b z
  have hread : read.insts = s.insts := by
    unfold read
    split
    · exact ((ReadFrame.refl s).readWith _ _ _ _ _ _).insts_eq
    · rfl
  have hz : z.2.insts = read.insts := by
    unfold z
    split
    · exact State.insts_freeBytes _ _ _
    · rfl
  calc (foldS (r :: rs) (fun r s => s.slabTo z.1 b.2.1 r) z.2).insts
    _ = z.2.insts := foldS_keeps State.insts (fun r t => t.insts_slabTo _ _ r) _ _
    _ = s.insts := hz.trans hread

section
variable {pos : Nat} {r : Recv} {rs : List Recv} (hs : s.slabNext x = some (pos, r :: rs)) (ho : x.isOpen = true)
  (hn : 0 < min r.slab (x.len - pos)) (hroom : s.slabRoom x pos (min r.slab (x.len - pos)) (r :: rs) = true)
  (hsource : s.slabSource x (streamAddr x.src x.len x.rowBytes x.rowPitch pos) (min r.slab (x.len - pos)) = true)
include hs ho hn hroom hsource

/-- Where the room and the source let a slab pass, the receivers at its place advance by it. -/
theorem State.slabNow_passes :
    s.slabNow x = (s.slabSent x pos (min r.slab (x.len - pos)) r rs).setInst (x.advanced (r :: rs) (min r.slab (x.len - pos))) := by
  have hgo : ¬ ((!x.isOpen) = true ∨ min r.slab (x.len - pos) = 0 ∨ (!s.slabRoom x pos (min r.slab (x.len - pos)) (r :: rs)) = true ∨
      (!s.slabSource x (streamAddr x.src x.len x.rowBytes x.rowPitch pos) (min r.slab (x.len - pos))) = true) := by
    rw [ho, hroom, hsource]
    simpa using hn.ne'
  unfold State.slabNow
  rw [hs]
  exact if_neg hgo

theorem State.inst_passSlab (hx : s.inst x.id = some x) (hp : x.pruneDue = []) :
    (s.passSlab x).inst x.id = some (x.advanced (r :: rs) (min r.slab (x.len - pos))) := by
  have hsent : (s.slabSent x pos (min r.slab (x.len - pos)) r rs).inst x.id = some x :=
    (State.inst_of_insts (s.insts_slabSent _ _ _ _ _) _).trans hx
  simp only [State.passSlab, State.pruneDue_of_nil hp, hx, State.slabNow_passes hs ho hn hroom hsource]
  exact State.inst_setInst (y := x.advanced _ _) hsent
end

/-! ### Pruning and closing (R137, R138) -/

/-- The record without the receivers of a wing. -/
def Inst.pruned (x : Inst) (w : Nat) : Inst :=
  { x with
    recv := x.recv.filter fun r => r.w != w
    set := x.set.filter (· != w)
    pruneDue := x.pruneDue.filter (· != w) }

theorem State.pruneRecv_keeps_others {w : Nat} (hp : x.pruneDue.contains w = true) (ho : x.isOpen = true)
    (hr : (x.recv.filter fun r => r.w != w) ≠ []) :
    s.pruneRecv x w = (s.setF F.RUN_STATUS_PRUNED 1).setInst (x.pruned w) := by
  have hdue : ¬ (!x.pruneDue.contains w) = true := by rw [hp]; decide
  have hsome : ¬ (x.recv.filter fun r => r.w != w).isEmpty = true := by simpa only [List.isEmpty_iff] using hr
  rw [State.pruneRecv, if_neg hdue]
  dsimp only
  rw [if_neg hsome, if_pos ho]
  rfl

theorem State.pruneRecv_spec {w : Nat} (hx : s.inst x.id = some x) (hp : x.pruneDue.contains w = true) (ho : x.isOpen = true)
    (hr : (x.recv.filter fun r => r.w != w) ≠ []) :
    (s.pruneRecv x w).f F.RUN_STATUS_PRUNED = 1 ∧ (s.pruneRecv x w).inst x.id = some (x.pruned w) := by
  rw [State.pruneRecv_keeps_others hp ho hr]
  exact ⟨State.f_setF_of_lt (by decide) (by decide), State.inst_setInst (s := s.setF F.RUN_STATUS_PRUNED 1) (y := x.pruned w) hx⟩

theorem State.insts_slotBusy (s : State) (x : Inst) : (s.slotBusy x).insts = s.insts := by
  unfold State.slotBusy
  split <;> rfl

/-- What a closing leaves of the instances: the closed one is gone, and the others keep their numbers. -/
theorem State.ids_closeInst (s : State) (x : Inst) :
    (s.closeInst x).insts.map Inst.id = (s.insts.filter fun y => y.id ≠ x.id).map Inst.id := by
  unfold State.closeInst
  extract_lets dropped set formed
  have hdropped : dropped.insts = s.insts.filter fun y => y.id ≠ x.id := State.insts_slotBusy _ _
  have hformed : formed.insts.map Inst.id = dropped.insts.map Inst.id := by
    unfold formed
    split
    · rfl
    · refine List.map_map.trans (List.map_congr_left fun y _ => ?_)
      dsimp only [Function.comp]
      split <;> rfl
  rw [← hdropped, ← hformed]
  split <;> rfl

theorem State.inst_closeInst (s : State) (x : Inst) : (s.closeInst x).inst x.id = none := by
  refine List.find?_eq_none.mpr fun y hy heq => ?_
  have hmem : y.id ∈ (s.insts.filter fun y => y.id ≠ x.id).map Inst.id := s.ids_closeInst x ▸ List.mem_map_of_mem hy
  obtain ⟨z, hz, hid⟩ := List.mem_map.mp hmem
  have hne : z.id ≠ x.id := of_decide_eq_true (List.mem_filter.mp hz).2
  exact hne (hid.trans (beq_iff_eq.mp heq))

theorem State.instDone_closes (ho : x.isOpen = true) (hr : ∀ r ∈ x.recv, x.len ≤ r.pos) : s.instDone x = s.closeInst x := by
  have hall : (x.isOpen && x.recv.all fun r => decide (r.pos ≥ x.len)) = true := by
    simpa only [ho, Bool.true_and, List.all_eq_true, decide_eq_true_eq] using hr
  exact if_pos hall

end Sys2Proof.Machine
end

section
/-! PROOF. Stitch crossings (R126) and the ports of a tile store (R144 to R146), and `RunnerComplete` from them and from the facts
about descriptors and instances. -/

namespace Sys2Proof.Machine

variable {s : State}

/-! ### Stitch crossings (R126) -/

/-- Each of the four crossings is a source of group 65 (Table 16-2). -/
theorem srcDef_stitch {x : Nat} (hx : x < 4) : (srcDef (srcOf 65 x)).isSome = true := by
  interval_cases x <;> rfl

theorem State.stitchError_spec (s : State) {x : Nat} (hx : x < 4) :
    (s.stitchError x).f F.RUN_STATUS_STITCH_ERR = 1 ∧
    (s.stitchError x).f F.EYE_SRC_STAT_TOTAL (srcOf 65 x) =
      min (s.f F.EYE_SRC_STAT_TOTAL (srcOf 65 x) + 1) (2 ^ F.EYE_SRC_STAT_TOTAL.w - 1) := by
  have hother : srcOf 65 x ≠ srcOf 83 12 := by unfold srcOf; omega
  unfold State.stitchError
  constructor
  · rw [State.f_raise _ _ _ _ _ _ rfl]
    exact State.f_setF_of_lt (by decide) (by decide)
  · refine (State.total_raiseX _ _ _ _ (srcDef_stitch hx) hother).trans ?_
    rw [State.f_setF_spared (by decide)]

/-! ### The ports of a tile store (R144 to R146) -/

/-- However long the ports have waited, the order names each of them once. -/
theorem portOrder_perm (waits : List Nat) : (portOrder waits).Perm (List.range 4) := by
  have hrest : ((List.range 4).filter fun p => !((List.range 4).filter fun p => decide (waits.getD p 0 ≥ 8)).contains p) =
      (List.range 4).filter fun p => !decide (waits.getD p 0 ≥ 8) := by
    refine List.filter_congr fun p hp => ?_
    rw [Bool.eq_iff_iff]
    simp only [Bool.not_eq_true', List.contains_eq_mem, List.mem_filter, hp, true_and, decide_eq_false_iff_not, decide_eq_true_eq]
  unfold portOrder
  dsimp only
  rw [hrest]
  exact List.filter_append_perm _ _

/-- A lone line to write at the FILL port. -/
def fillReq (off : Nat) (bs : List Byte) : PortReq := ⟨2, off, some bs, []⟩

theorem portsServed_fill (waits : List Nat) (off : Nat) (bs : List Byte) : portsServed waits [fillReq off bs] = [fillReq off bs] := by
  have hfour : ((List.range 4).flatMap fun p => portNow [fillReq off bs] p) = [fillReq off bs] := rfl
  have hserved : ((portOrder waits).flatMap fun p => portNow [fillReq off bs] p) = [fillReq off bs] :=
    List.perm_singleton.mp (hfour ▸ (portOrder_perm waits).flatMap_right _)
  rw [portsServed, hserved]
  rfl

/-- With no injection armed, a written line is in memory. -/
theorem State.mem_portLine_fill (hi : s.f F.EYE_INJ_CTRL_ARMED = 0) (w off : Nat) (bs : List Byte) :
    (s.portLine w (fillReq off bs)).mem = cellsWrite s.mem (tileAddr w (off / 64 * 64)) (bs.take 64) := by
  have hinj : ∀ hit, (s.writeBytes (tileAddr w (off / 64 * 64)) (bs.take 64)).injected 0 hit = none := State.injected_none (.inl hi)
  simp only [State.portLine, fillReq, State.injWrite, hinj]
  rfl

theorem State.mem_tileStep_fill {w off : Nat} (ho : off < tileSize) (ht : s.tileUp w = true) (hh : s.held (6 * w + 5) = false)
    (hi : s.f F.EYE_INJ_CTRL_ARMED = 0) (bs : List Byte) :
    (s.tileStep w [fillReq off bs]).mem = cellsWrite s.mem (tileAddr w (off / 64 * 64)) (bs.take 64) := by
  have hfree : ¬ (s.held (6 * w + 5) = true ∧ s.tileUp w = true) := by simp [hh]
  unfold State.tileStep
  extract_lets bad s0 good waits now wait s1
  have hbad : bad (fillReq off bs) = false := by simpa [bad, fillReq, ht] using ho
  have hs0 : s0 = s := by
    unfold s0
    rw [List.filter_cons_of_neg (by simp [hbad])]
    rfl
  have hnow : now = [fillReq off bs] := by
    unfold now good
    rw [List.filter_cons_of_pos (by simp [hbad])]
    exact portsServed_fill _ _ _
  have hs1 : s1 = s.portLine w (fillReq off bs) := by
    unfold s1
    rw [hnow, hs0]
    rfl
  rw [if_neg hfree]
  calc s1.mem
    _ = (s.portLine w (fillReq off bs)).mem := by rw [hs1]
    _ = cellsWrite s.mem (tileAddr w (off / 64 * 64)) (bs.take 64) := State.mem_portLine_fill hi w off bs

end Sys2Proof.Machine

namespace Sys2Proof.Claims
open Sys2Proof Sys2Proof.Machine

/-! ### The obligation -/

/-- Settles O30: each clause is the fact about its operation. -/
theorem runnerComplete : Obligations.RunnerComplete := by
  intro s i w m hi hw
  have hdesc : decide (i < 4096) = true := decide_eq_true hi
  refine ⟨?valid, ?invalid, ?word, ?length, ?opens, ?timeout, ?slab, ?prune, ?closes, ?stitch, ?port⟩
  case valid => exact fun h => completes_of_onUnit rfl hdesc (State.streamValidate_taken_spec h m)
  case invalid => exact fun h => completes_of_onUnit rfl hdesc (State.streamValidate_refused_spec h hi m)
  case word =>
    intro word v hword hv
    refine completes_of_onUnit rfl (by simp [hi, hword]) ?_
    rw [State.descWrite_invalidates s i hword hv]
    exact State.f_setF_of_lt (by decide) (by decide)
  case length => exact fun v hv => completes_of_onUnit rfl (by simp [hi]) (s.length_descWrite i hv m)
  case opens =>
    intro x hf hp hx hr hk hv
    obtain rfl := State.desc_of_forming hf
    obtain ⟨hbusy, hopen⟩ := State.openOr_spec hk hv hx
    exact completes_of_onUnit rfl (by simp [hi, hw]) (State.openFor_ready hf hp hx hr ▸ ⟨hbusy, _, hopen, rfl, rfl, rfl, rfl⟩)
  case timeout =>
    intro x hf hp hx hr hfirst hk hv
    obtain rfl := State.desc_of_forming hf
    obtain ⟨hpartial, hopen⟩ := State.joinTimeout_spec hf hp hx hr hfirst hk hv
    exact completes_of_onUnit rfl hdesc ⟨hpartial, _, hopen, rfl, rfl⟩
  case slab =>
    intro x pos r rs hx hp hs ho hn hroom hsource
    refine completes_of_done rfl ?_
    rw [State.onInst_of_inst hx]
    exact State.inst_passSlab hs ho hn hroom hsource hx hp
  case prune =>
    intro x hx hp ho hr
    refine completes_of_onUnit rfl (decide_eq_true hw) ?_
    rw [State.onInst_of_inst hx]
    obtain ⟨hpruned, hinst⟩ := State.pruneRecv_spec hx hp ho hr
    exact ⟨hpruned, _, hinst, rfl⟩
  case closes =>
    intro x hx ho hr
    refine completes_of_done rfl ?_
    rw [State.onInst_of_inst hx, State.instDone_closes ho hr]
    exact s.inst_closeInst x
  case stitch => exact fun x hx => completes_of_onUnit rfl (decide_eq_true hx) (s.stitchError_spec hx)
  case port =>
    exact fun off bs ho ht hh hinj => completes_of_onUnit rfl (by simp [hw, portMay]) (State.mem_tileStep_fill ho ht hh hinj bs)

end Sys2Proof.Claims
end

section
/-! PROOF. The integer and bit operations (R167) against the operations of 32-bit words, and `IntegerResults` from them. -/

namespace Sys2Proof.Machine

/-! ### Words as signed numbers -/

theorem toSigned_toNat {w : Nat} (a : BitVec w) : toSigned w a.toNat = a.toInt := by
  rw [toSigned_eq_toInt, BitVec.ofNat_toNat, BitVec.setWidth_eq]

theorem ofSigned_toInt {w : Nat} (a : BitVec w) : ofSigned w a.toInt = a.toNat := by
  rw [ofSigned, ← BitVec.toNat_ofInt, BitVec.ofInt_toInt]

/-- Dividing the signed number by a power of two, rounding down, shifts in copies of the sign. -/
theorem ofSigned_toInt_div {w : Nat} (a : BitVec w) (k : Nat) : ofSigned w (a.toInt / (2 ^ k : Nat)) = (a.sshiftRight k).toNat := by
  rw [← Int.shiftRight_eq_div_pow, ← BitVec.toInt_sshiftRight, ofSigned_toInt]

/-! ### The operations (Table 6-8) -/

section
variable (t : Ty) (rm : RM) (a b : BitVec 32) (c : Nat)

theorem aluOp_iadd : aluOp .iadd t rm a.toNat b.toNat c = ((a + b).toNat, 0) := by
  rw [aluOp, BitVec.toNat_add]

theorem aluOp_isub : aluOp .isub t rm a.toNat b.toNat c = ((a - b).toNat, 0) := by
  have hb : b.toNat % 2 ^ 32 = b.toNat := Nat.mod_eq_of_lt b.isLt
  have hcomm : a.toNat + 2 ^ 32 - b.toNat = 2 ^ 32 - b.toNat + a.toNat := by have := b.isLt; omega
  rw [aluOp, BitVec.toNat_sub, hb, hcomm]

theorem aluOp_imul : aluOp .imul t rm a.toNat b.toNat c = ((a * b).toNat, 0) := by
  rw [aluOp, BitVec.toNat_mul]

theorem aluOp_and : aluOp .and t rm a.toNat b.toNat c = ((a &&& b).toNat, 0) := by
  rw [aluOp, BitVec.toNat_and]

theorem aluOp_or : aluOp .or t rm a.toNat b.toNat c = ((a ||| b).toNat, 0) := by
  rw [aluOp, BitVec.toNat_or]

theorem aluOp_xor : aluOp .xor t rm a.toNat b.toNat c = ((a ^^^ b).toNat, 0) := by
  rw [aluOp, BitVec.toNat_xor]

theorem aluOp_shl : aluOp .shl t rm a.toNat b.toNat c = ((a <<< (b.toNat % 32)).toNat, 0) := by
  rw [aluOp, BitVec.toNat_shiftLeft]

theorem aluOp_shr : aluOp .shr t rm a.toNat b.toNat c = ((a >>> (b.toNat % 32)).toNat, 0) := by
  rw [aluOp, BitVec.toNat_ushiftRight]

theorem aluOp_sra : aluOp .sra t rm a.toNat b.toNat c = ((a.sshiftRight (b.toNat % 32)).toNat, 0) := by
  rw [aluOp, toSigned_toNat, ofSigned_toInt_div]

theorem aluOp_imin_signed : aluOp .imin .i32 rm a.toNat b.toNat c = ((if a.toInt ≤ b.toInt then a else b).toNat, 0) := by
  rw [aluOp, if_pos rfl, toSigned_toNat, toSigned_toNat, apply_ite BitVec.toNat]

theorem aluOp_imax_signed : aluOp .imax .i32 rm a.toNat b.toNat c = ((if a.toInt ≤ b.toInt then b else a).toNat, 0) := by
  rw [aluOp, if_pos rfl, toSigned_toNat, toSigned_toNat, apply_ite BitVec.toNat]

end

end Sys2Proof.Machine

namespace Sys2Proof.Claims
open Sys2Proof Sys2Proof.Machine

/-- Settles O21: each clause is the fact about its operation; the unsigned minimum and maximum are the model's own. -/
theorem integerResults : Obligations.IntegerResults := fun a b _ rm =>
  ⟨fun t => aluOp_iadd t rm a b _, fun t => aluOp_isub t rm a b _, fun t => aluOp_imul t rm a b _,
    fun t => aluOp_and t rm a b _, fun t => aluOp_or t rm a b _, fun t => aluOp_xor t rm a b _,
    fun t => aluOp_shl t rm a b _, fun t => aluOp_shr t rm a b _, fun t => aluOp_sra t rm a b _,
    aluOp_imin_signed rm a b _, aluOp_imax_signed rm a b _, rfl, rfl⟩

end Sys2Proof.Claims
end

section
/-! PROOF. One lane of a pattern instruction (R151, R162 to R164): what a plain operation on pattern registers writes, the place in
the run that no instruction changes, and `PatternLaneResult` from them. -/

namespace Sys2Proof.Machine

/-! ### Pattern registers as operands (R162, R163) -/

section
variable {t : Ty} (ht : t ≠ .f64) (r : VecRun)
include ht

theorem VecRun.source_reg {k : Nat} (hk : k ≤ 15) (s : State) (w lane : Nat) (e : Elem) (l : List Nat) :
    r.source s w t k lane e l = (Src.of t (laneReg l k % 2 ^ t.bits), s) := by
  unfold VecRun.source
  dsimp only
  rw [if_pos hk, if_neg ht]

theorem VecRun.put_reg {d : Nat} (hd : d ≤ 15) (rm : RM) (e : Elem) (l : List Nat) (code : Nat) :
    r.put t rm d e l code = (r, listSet l d (code % 2 ^ t.bits)) := by
  unfold VecRun.put
  dsimp only
  rw [if_pos hd, if_neg ht]

end

/-- A code of the instruction's own type is read as it stands. -/
theorem Src.as_of (t : Ty) (x : Nat) (bad : Bool) (rm : RM) : (Src.of t x bad).as t rm = (x, 0) := by simp [Src.of, Src.as]

theorem Src.bad_of (t : Ty) (x : Nat) (bad : Bool) : (Src.of t x bad).bad = bad := rfl

/-! ### A plain operation (R164) -/

theorem PatOp.tr_of_plainOp {op : PatOp} (h : Claims.plainOp op = true) : op.tr = none := by
  cases op with
  | exp2 | exp | log2 | log | rcp | rsqrt | tanh | sigm | erf | sin | cos => simp [Claims.plainOp] at h
  | _ => rfl

/-- Operand b of a plain operation on pattern registers, 0 where it takes none. -/
def plainB (t : Ty) (i : Insn) (l : List Nat) : Nat :=
  if i.op != .sqrt && i.op != .abs && i.op != .neg && i.op != .rint then laneReg l i.b % 2 ^ t.bits else 0

theorem plainB_eq (t : Ty) (i : Insn) (l : List Nat) :
    plainB t i l = if i.op = .sqrt ∨ i.op = .abs ∨ i.op = .neg ∨ i.op = .rint then 0 else laneReg l i.b % 2 ^ t.bits := by
  rw [plainB, ← ite_not]
  simp only [Bool.and_eq_true, bne_iff_ne, ne_eq, ← not_or, not_not, or_assoc]

/-- Operand c of a plain operation on pattern registers, 0 where it takes none. -/
def plainC (t : Ty) (i : Insn) (l : List Nat) : Nat :=
  if i.op == .fma || i.op == .fms || i.op == .fnma || i.op == .sel then laneReg l i.c % 2 ^ t.bits else 0

theorem plainC_eq (t : Ty) (i : Insn) (l : List Nat) :
    plainC t i l = if i.op = .fma ∨ i.op = .fms ∨ i.op = .fnma ∨ i.op = .sel then laneReg l i.c % 2 ^ t.bits else 0 := by
  simp only [plainC, Bool.or_eq_true, beq_iff_eq, or_assoc]

/-- A plain operation on pattern registers reads no source that could raise a flag, hold poison or change the state: its result
and its flags are those of `aluOp`. -/
theorem Pass.lane_plain {i : Insn} {t : Ty} (hop : Claims.plainOp i.op = true) (ht : t ≠ .f64) (ha : i.a ≤ 15) (hb : i.b ≤ 15)
    (hc : i.c ≤ 15) (hd : i.d ≤ 15) (p : Pass) (w : Nat) (as : List Nat) (lane : Nat) (e : Elem) (l : List Nat) :
    let z := aluOp i.op t (p.r.blk.mode i) (laneReg l i.a % 2 ^ t.bits) (plainB t i l) (plainC t i l)
    p.lane w i t as lane e l =
      ⟨p.s, { p.r with flags := p.r.flags ||| z.2 }, p.done ++ [listSet l i.d (z.1 % 2 ^ t.bits)]⟩ := by
  unfold Pass.lane
  dsimp only
  split
  -- every operation without a case of its own in `Pass.lane`
  case h_11 =>
    rw [PatOp.tr_of_plainOp hop]
    simp only [VecRun.source_reg ht _ ha, VecRun.source_reg ht _ hb, VecRun.source_reg ht _ hc, VecRun.put_reg ht _ hd, Src.as_of,
      Src.bad_of, plainB, plainC, apply_ite Prod.fst, apply_ite Prod.snd, ite_self, Nat.or_zero, Bool.and_false, Bool.or_false]
  all_goals rename_i h; simp [h, Claims.plainOp] at hop

/-! ### The place of a run -/

/-- Where a run stands and what it runs: block and pattern, repetition, chunk, instruction, and whether the pattern is done. -/
def VecRun.place (r : VecRun) : Blk × List Insn × Nat × Nat × Nat × Bool := (r.blk, r.pat, r.rep, r.chunk, r.pc, r.patDone)

theorem VecRun.fields_of_place {r z : VecRun} (h : z.place = r.place) :
    z.blk = r.blk ∧ z.pat = r.pat ∧ z.rep = r.rep ∧ z.chunk = r.chunk ∧ z.pc = r.pc ∧ z.patDone = r.patDone := by
  simpa only [VecRun.place, Prod.mk.injEq] using h

theorem VecRun.put_place (r : VecRun) (t : Ty) (rm : RM) (d : Nat) (e : Elem) (l : List Nat) (code : Nat) :
    (r.put t rm d e l code).1.place = r.place := by
  unfold VecRun.put
  dsimp only
  split
  · split <;> rfl
  · split
    · rfl
    · split
      · rfl
      · split <;> rfl

theorem VecRun.putCode_place (r : VecRun) (d : Nat) (e : Elem) (code : Nat) : (r.putCode d e code).place = r.place := by
  unfold VecRun.putCode
  dsimp only
  split <;> rfl

theorem Pass.lane_place (p : Pass) (w : Nat) (i : Insn) (t : Ty) (as : List Nat) (lane : Nat) (e : Elem) (l : List Nat) :
    (p.lane w i t as lane e l).r.place = p.r.place := by
  unfold Pass.lane
  dsimp only
  split
  -- NOP
  case h_1 => rfl
  -- MOV, SCALE, LXCH, LSHF, LSUM
  case h_2 | h_3 | h_8 | h_9 | h_10 => exact VecRun.put_place ..
  -- CVT
  case h_4 =>
    split
    · rfl
    · exact VecRun.put_place ..
  -- QNT
  case h_5 =>
    split
    · rfl
    · exact VecRun.putCode_place ..
  -- GATH
  case h_6 =>
    split
    · exact VecRun.put_place ..
    · split
      · rfl
      · exact VecRun.put_place ..
  -- SCAT
  case h_7 =>
    split
    · rfl
    · split <;> rfl
  -- the transcendental operations and the plain ones
  case h_11 => split <;> exact VecRun.put_place ..

theorem Pass.gatherA_place (w : Nat) (i : Insn) (t : Ty) (items : List (Nat × Elem × List Nat)) (p : Pass) (acc : List Nat) :
    (p.gatherA w i t items acc).1.r.place = p.r.place := by
  induction items generalizing p acc with
  | nil => rfl
  | cons it rest ih => exact ih _ _

theorem Pass.foldl_lane_place (w : Nat) (i : Insn) (t : Ty) (as : List Nat) (items : List (Nat × Elem × List Nat)) (p : Pass) :
    (items.foldl (fun (p : Pass) it => p.lane w i t as it.1 it.2.1 it.2.2) p).r.place = p.r.place := by
  induction items generalizing p with
  | nil => rfl
  | cons it rest ih => exact (ih _).trans (p.lane_place w i t as it.1 it.2.1 it.2.2)

theorem VecRun.place_lanes (r : VecRun) (ls : List (List Nat)) : ({ r with lanes := ls } : VecRun).place = r.place := rfl

/-- An instruction over the lanes of its chunk leaves the run where it stands. -/
theorem VecRun.insn_place (r : VecRun) (s : State) (w : Nat) (i : Insn) : (r.insn s w i).2.place = r.place := by
  unfold VecRun.insn
  cases Ty.ofCode i.ty with
  | none => rfl
  | some t =>
    dsimp only
    rw [VecRun.place_lanes, Pass.foldl_lane_place]
    cases i.op == .lxch || i.op == .lshf || i.op == .lsum with
    | false => rfl
    | true => exact Pass.gatherA_place ..

end Sys2Proof.Machine

namespace Sys2Proof.Claims
open Sys2Proof Sys2Proof.Machine

/-- Settles O20: the lane's result is that of its plain operation. -/
theorem patternLaneResult : Obligations.PatternLaneResult := by
  intro p w i t as lane e l hop ht ha hb hc hd v z q
  have hq : q = _ := Pass.lane_plain hop ht ha hb hc hd p w as lane e l
  rw [plainB_eq, plainC_eq] at hq
  rw [hq]
  exact ⟨rfl, rfl, rfl⟩

end Sys2Proof.Claims
end

section
/-! PROOF. The pattern instructions of a vector run (R151, R166, R176): what a run is after an instruction that is not held, and
`PatternStepsComplete` from it. -/

namespace Sys2Proof.Machine

/-! ### Moving on (R151) -/

section
variable {r z : VecRun} (hp : z.place = r.place)
include hp

theorem VecRun.chunks_of_place : z.chunks = r.chunks := by
  obtain ⟨hblk, -, hrep, -⟩ := VecRun.fields_of_place hp
  rw [VecRun.chunks, VecRun.chunks, VecRun.first, VecRun.first, hblk, hrep]

theorem VecRun.advance_next (hl : r.pc + 1 < r.pat.length) : z.advance = { z with pc := r.pc + 1 } := by
  obtain ⟨-, hpat, -, -, hpc, -⟩ := VecRun.fields_of_place hp
  rw [VecRun.advance, hpat, hpc, if_pos hl]

theorem VecRun.advance_chunk (hl : r.pat.length ≤ r.pc + 1) :
    ∃ m, z.advance = { z with pc := 0, chunk := r.chunk + 1, lanes := [], patDone := decide (r.chunks ≤ r.chunk + 1), meter := m } := by
  obtain ⟨-, hpat, -, hchunk, hpc, -⟩ := VecRun.fields_of_place hp
  rw [VecRun.advance, hpat, hpc, hchunk, VecRun.chunks_of_place hp, if_neg (Nat.not_lt.mpr hl)]
  exact ⟨_, rfl⟩

end

/-! ### One instruction of a run -/

/-- State and run after the lanes of an instruction, its lines checked. -/
def State.insnDone (s : State) (w : Nat) (r : VecRun) (i : Insn) : State × VecRun := (s.runCheck w r i).2.insn (s.runCheck w r i).1 w i

theorem State.insnDone_place (s : State) (w : Nat) (r : VecRun) (i : Insn) : (s.insnDone w r i).2.place = r.place :=
  VecRun.insn_place ..

/-- The run after an instruction, with the figures of R178. -/
def State.insnRun (s : State) (w : Nat) (r : VecRun) (i : Insn) : VecRun :=
  r.metered (s.insnDone w r i).2 s w i (if r.shared then 0 else r.insnCost s w i)

/-- What an instruction leaves: its run moved on, its steps counted. -/
def State.insnMoved (s : State) (w : Nat) (r : VecRun) (i : Insn) : State :=
  let z := (s.insnDone w r i).1
  let t := z.setF F.WNG_VEC_STEPS_STEPS (z.f F.WNG_VEC_STEPS_STEPS w + (s.insnRun w r i).stepsOf (if r.shared then 0 else r.insnCost s w i)) w
  t.setWing w { t.wing w with run := some (s.insnRun w r i).advance }

theorem State.run_insnMoved (s : State) (w : Nat) (r : VecRun) (i : Insn) :
    ((s.insnMoved w r i).wing w).run = some (s.insnRun w r i).advance := by
  rw [State.insnMoved, State.wing_setWing_same]

section
variable {s : State} {w : Nat} {r : VecRun} {i : Insn} (hr : (s.wing w).run = some r) (hd : r.patDone = false)
  (hi : r.pat[r.pc]? = some i) (hh : s.runHeld w r i = false)
include hr hd hi hh

/-- Unless the pattern is done and no reduction follows, the run has moved on and nothing else happens. -/
theorem State.patStep_moves (hm : (s.insnRun w r i).advance.patDone = false ∨ (s.insnRun w r i).advance.blk.redOp ≠ 0) :
    s.patStep w i.op = s.insnMoved w r i := by
  have hnone : (s.wing w).run.isNone ≠ true := by simp [hr]
  have hgo : ¬ (i.op ≠ i.op ∨ s.runHeld w r i = true) := by simp [hh]
  have hend : ¬ ((s.insnRun w r i).advance.patDone = true ∧ (s.insnRun w r i).advance.blk.redOp = 0) := by
    rintro ⟨hdone, hred⟩
    simp [hdone, hred] at hm
  rw [State.patStep, if_neg hnone, State.runInsn, hr]
  dsimp only
  rw [hd, hi]
  dsimp only
  rw [if_neg Bool.false_ne_true, if_neg hgo]
  exact if_neg hend

end

end Sys2Proof.Machine

namespace Sys2Proof.Claims
open Sys2Proof Sys2Proof.Machine

/-! ### The obligation -/

/-- The row of each operation steps the wing's run by an instruction of that operation. -/
theorem exec_patRow (op : PatOp) (w : Nat) (s : State) : exec (patRow op w) s = onUnit (decide (w < 64)) (done (s.patStep w op)) := by
  cases op <;> rfl

theorem completes_patRow {op : PatOp} {s u : State} {w : Nat} {P : State → Prop} (hw : w < 64) (hu : s.patStep w op = u) (h : P u) :
    Completes (patRow op w) s P :=
  completes_of_onUnit (exec_patRow op w s) (decide_eq_true hw) (hu ▸ h)

/-- Settles O19: an instruction leaves the run's place alone, and the run then moves on from there. -/
theorem patternStepsComplete : Obligations.PatternStepsComplete := by
  intro s op w r i hw hr hd hi hop hh z
  subst hop
  have hp : (s.insnRun w r i).place = r.place := s.insnDone_place w r i
  obtain ⟨hblk, -, -, -, -, hdone⟩ := VecRun.fields_of_place hp
  refine ⟨fun hnext => ?next, fun hlast hmore => ?chunk, fun hlast hend hred => ?done⟩
  case next =>
    have hadv := VecRun.advance_next hp hnext
    refine completes_patRow hw (State.patStep_moves hr hd hi hh (.inl ?_)) ?_
    · rw [hadv]
      exact hdone.trans hd
    · rw [State.run_insnMoved, hadv]
      exact ⟨_, rfl⟩
  case chunk =>
    obtain ⟨m, hadv⟩ := VecRun.advance_chunk hp hlast
    rw [decide_eq_false (Nat.not_le.mpr hmore)] at hadv
    refine completes_patRow hw (State.patStep_moves hr hd hi hh (.inl ?_)) ?_
    · rw [hadv]
    · rw [State.run_insnMoved, hadv]
      exact ⟨m, rfl⟩
  case done =>
    obtain ⟨m, hadv⟩ := VecRun.advance_chunk hp hlast
    rw [decide_eq_true hend] at hadv
    refine completes_patRow hw (State.patStep_moves hr hd hi hh (.inr ?_)) ?_
    · rw [hadv]
      exact hblk ▸ hred
    · rw [State.run_insnMoved, hadv]
      exact ⟨m, rfl⟩

end Sys2Proof.Claims
end

section
/-! PROOF. Command records and their stages after the dispatch (R195 to R205): which record stands under a number after an update,
and what leaves every record alone; what the commit of a unit, the retire stage, the signal and the reply of a command leave in
its record, in INFLIGHT, in its gate and in memory, and `QueueStagesComplete` from them. -/

namespace Sys2Proof.Machine

/-! ### Records by number -/

theorem State.key_of_cmd {s : State} {q n : Nat} {c : Cmd} (h : s.cmd q n = some c) : c.q = q ∧ c.seq = n := by
  simpa using List.find?_some h

theorem State.cmd_of_qe {s t : State} (h : t.qe = s.qe) (q n : Nat) : t.cmd q n = s.cmd q n := by rw [State.cmd, State.cmd, h]

theorem State.qx_of_qe {s t : State} (h : t.qe = s.qe) (q : Nat) : t.qx q = s.qx q := by rw [State.qx, State.qx, h]

@[simp] theorem State.f_putCmd (s : State) (c : Cmd) (x : Fld) (i j : Nat) : (s.putCmd c).f x i j = s.f x i j := rfl

@[simp] theorem State.qx_putCmd (s : State) (c : Cmd) (q : Nat) : (s.putCmd c).qx q = s.qx q := rfl

@[simp] theorem State.qx_setQx_same (s : State) (q : Nat) (x : QxSt) : (s.setQx q x).qx q = x := mgetD_mset_same _ _ _ _

@[simp] theorem State.cmd_putCmd_same (s : State) (c : Cmd) : (s.putCmd c).cmd c.q c.seq = some c := by
  unfold State.cmd State.putCmd
  dsimp only
  cases hany : s.qe.cmds.any fun x => x.q == c.q && x.seq == c.seq with
  | false =>
    have hnone : s.qe.cmds.find? (fun x => x.q == c.q && x.seq == c.seq) = none := by
      simpa only [List.find?_eq_none, List.any_eq_false] using hany
    rw [if_neg Bool.false_ne_true, List.find?_append, hnone]
    simp
  | true =>
    have hcomp : ((fun x : Cmd => x.q == c.q && x.seq == c.seq) ∘ fun x => if x.q = c.q ∧ x.seq = c.seq then c else x) =
        fun x => x.q == c.q && x.seq == c.seq := by
      funext x
      by_cases hx : x.q = c.q ∧ x.seq = c.seq <;> simp [hx]
    obtain ⟨x, hx⟩ := Option.isSome_iff_exists.mp ((List.find?_isSome).mpr (List.any_eq_true.mp hany))
    have hmine : x.q = c.q ∧ x.seq = c.seq := by simpa using List.find?_some (p := fun x : Cmd => x.q == c.q && x.seq == c.seq) hx
    rw [if_pos rfl, List.find?_map, hcomp, hx, Option.map_some, if_pos hmine]

/-! ### What leaves the queue engine's records alone -/

@[simp] theorem State.irq_qe (s : State) (src : Nat) : (s.irq src).qe = s.qe := by
  unfold State.irq
  dsimp only
  split <;> rfl

@[simp] theorem State.irq_mem (s : State) (src : Nat) : (s.irq src).mem = s.mem := by
  unfold State.irq
  dsimp only
  split <;> rfl

@[simp] theorem State.setWing_qe (s : State) (w : Nat) (x : WingSt) : (s.setWing w x).qe = s.qe := rfl

@[simp] theorem State.startRun_qe (s : State) (w : Nat) : (s.startRun w).qe = s.qe := by
  obtain h | ⟨r, p, h⟩ := s.startRun_cases w
  · rw [h]
  · rw [h]
    rfl

@[simp] theorem State.wingBusy_qe (s : State) (w : Nat) : (s.wingBusy w).qe = s.qe := by
  unfold State.wingBusy
  split <;> rfl

@[simp] theorem State.leaveWing_qe (s : State) (w q n : Nat) : (s.leaveWing w q n).qe = s.qe := by
  unfold State.leaveWing
  dsimp only
  split
  · rfl
  next j _ =>
    rw [State.startRun_qe, State.wingBusy_qe, State.setWing_qe]
    cases j with
    | vec x => rfl
    | mat m =>
      have hflags : ∀ t : State, (foldS m.arrs (fun a t => t.setF F.WNG_ARR_STAT_FLAGS m.flags w a) t).qe = t.qe :=
        foldS_keeps State.qe (f := fun a t => t.setF F.WNG_ARR_STAT_FLAGS m.flags w a) (fun _ _ => rfl) m.arrs
      dsimp only
      by_cases hepi : m.epi.isSome = true ∧ m.mask ≠ 0
      · rw [if_pos hepi, if_pos hepi, State.bump_qe, State.setF_qe, hflags, State.setWing_qe]
      · rw [if_neg hepi, if_neg hepi, hflags, State.setWing_qe]

/-! ### The completion record (R195, R198) -/

theorem State.taintCmd_cases (s : State) (q st : Nat) : s.taintCmd q st = s ∨ ∃ b, s.taintCmd q st = s.taint b := by
  unfold State.taintCmd
  split
  next b _ =>
    split
    · exact .inr ⟨b, rfl⟩
    · exact .inl rfl
  · exact .inl rfl

theorem State.f_taintCmd {s : State} {q st : Nat} {y : Fld} {i j : Nat} (h : F.CRU_RES_TAINT_NOW.spares y = true) :
    (s.taintCmd q st).f y i j = s.f y i j := by
  obtain e | ⟨b, e⟩ := s.taintCmd_cases q st
  · rw [e]
  · rw [e, State.taint, State.f_setF_spared h]

/-- A record that ends with this status, these flags and at this time. -/
def Cmd.ended (c : Cmd) (status flags time : Nat) : Cmd :=
  { c with status := status, flags := flags, time := time, retired := true, execDone := true, awaitReplay := false }

theorem State.cmd_finishCmd (s : State) (c : Cmd) (status flags : Nat) :
    ∃ time, (s.finishCmd c status flags).cmd c.q c.seq = some (c.ended status flags time) :=
  ⟨(s.taintCmd c.q status).now, State.cmd_putCmd_same _ (c.ended status flags (s.taintCmd c.q status).now)⟩

theorem State.inflight_finishCmd (s : State) (c : Cmd) (status flags : Nat) :
    (s.finishCmd c status flags).f F.QE_Q_STATE_INFLIGHT c.q = s.f F.QE_Q_STATE_INFLIGHT c.q - 1 := by
  unfold State.finishCmd
  dsimp only
  rw [State.f_putCmd, State.f_taintCmd (by decide)]
  exact State.f_setF_of_lt (by decide) (Nat.lt_of_le_of_lt (Nat.sub_le _ _) (s.f_lt F.QE_Q_STATE_INFLIGHT _ _))

/-! ### The retire stage (R195, R198) -/

section
variable {s : State} {q n : Nat} {c : Cmd} (hc : s.cmd q n = some c) (hd : c.dispatched = true) (ha : c.awaitReplay = false)
  (hr : c.retired = false)
include hc hd ha hr

theorem State.retire_unit (hw : c.wing = none) (he : c.execDone = true) (ho : c.noOutputs = true ∨ c.committed = true) :
    s.retire q n = s.finishCmd c (if c.status = 0 then if c.replays > 0 then 1 else 0 else c.status) c.flags := by
  have hgo : ¬ ((!c.dispatched) = true ∨ c.awaitReplay = true) := by simp [hd, ha]
  rw [State.retire, hc]
  dsimp only
  rw [if_neg hgo, hr, if_neg Bool.false_ne_true, hw]
  exact if_pos ⟨he, ho⟩

theorem State.retire_wing {w fl : Nat} {bad : Bool} (hw : c.wing = some w) (he : c.execDone = false)
    (hdone : s.wingDone w q n = some (fl, bad)) :
    s.retire q n = (s.finishCmd c (if bad then 0x20 else if c.replays > 0 then 1 else 0) fl).leaveWing w q n := by
  have hgo : ¬ ((!c.dispatched) = true ∨ c.awaitReplay = true) := by simp [hd, ha]
  rw [State.retire, hc]
  dsimp only
  rw [if_neg hgo, hr, if_neg Bool.false_ne_true, hw]
  dsimp only
  rw [he, if_neg Bool.false_ne_true, hdone]

end

/-- Where no turn job ends and the command is no STEP_COMMIT, COMMAND_RETIRE is the retire stage. -/
theorem State.retireCmd_eq {s : State} {q n : Nat} {d : Cmd} (hj : s.turnJob q n = none) (hc : (s.retire q n).cmd q n = some d)
    (ho : d.op ≠ 0x28) : s.retireCmd q n = s.retire q n := by
  have hturn : s.turnFinish q n = s := by rw [State.turnFinish, hj]
  rw [State.retireCmd, hturn, hc]
  exact if_neg fun h => ho h.2.2

/-! ### The commit of a unit (R176, R196) -/

/-- A vector job with one more unit committed, that of run `r`. -/
def VecJob.counted (x : VecJob) (r : VecRun) : VecJob :=
  { x with committed := x.committed + 1, flags := x.flags ||| r.flags, uncorr := x.uncorr || r.uncorr, meter := r.meter
           done := decide (x.committed + 1 ≥ x.blk.reps) }

/-- A unit's outputs written and its job counted. -/
def State.unitCommitted (s : State) (w : Nat) (r : VecRun) (x : VecJob) : State :=
  (s.commitRun w r (x.uncorr || r.uncorr) (decide (r.rep < x.skipTo))).setJob w (.vec (x.counted r))

theorem State.unitCommitted_mem (s : State) (w : Nat) (r : VecRun) (x : VecJob) :
    (s.unitCommitted w r x).mem = if (x.uncorr || r.uncorr || decide (r.rep < x.skipTo)) = true then s.mem else (s.putOuts r.outs).mem := by
  show (if _ then s else s.putOuts r.outs).mem = _
  exact apply_ite State.mem _ _ _

theorem State.commitCmd_vec {s : State} {q n w : Nat} {c : Cmd} {r : VecRun} {x : VecJob} (hc : s.cmd q n = some c)
    (hw : c.wing = some w) (hr : (s.wing w).run = some r) (hq : r.q = q) (hn : r.seq = n) (hu : r.unitDone = true)
    (hready : s.commitReady q n = true) (hheld : s.outsHeld w r = false) (hclaim : s.claimOuts r.outs = (s, true))
    (hj : (s.wing w).jobs.find? (fun j => j.key = (q, n)) = some (.vec x)) :
    s.commitCmd q n = (if (x.counted r).done then (s.unitCommitted w r x).modCmd q n fun c => { c with committed := true }
      else s.unitCommitted w r x).startRun w := by
  have hgo : ¬ (r.q ≠ q ∨ r.seq ≠ n ∨ (!r.unitDone) = true ∨ (!s.commitReady q n) = true ∨ s.outsHeld w r = true) := by
    simp [hq, hn, hu, hready, hheld]
  rw [State.commitCmd, hc, Option.bind_some, hw]
  dsimp only
  rw [hr]
  dsimp only
  rw [if_pos ⟨hq, hn, hu, hready⟩, hclaim, if_pos rfl, State.tileCommit, hc]
  dsimp only
  rw [hw]
  dsimp only
  rw [hr]
  dsimp only
  rw [if_neg hgo, hj]
  rfl

/-! ### The signal (R201) -/

theorem State.signalCmd_eq {s : State} {q n : Nat} {c : Cmd} (hc : s.cmd q n = some c) (hr : c.retired = true) (hs : c.signalled = false)
    (hsig : c.signals = true) (ho : s.orderedBefore q n = false) :
    s.signalCmd q n = (s.gateAdd c.sigGate c.sigInc).putCmd { c with signalled := true } := by
  rw [State.signalCmd, hc]
  exact if_neg (by simp [hr, hs, hsig, ho])

theorem State.gate_gateAdd (s : State) (g v : Nat) : (s.gateAdd g v).gate g = (s.gate g + v) % 2 ^ 48 :=
  State.f_setF_of_lt (by decide) (Nat.mod_lt _ (by decide))

/-! ### The reply (R204, R205) -/

/-- The interrupt that a command's reply asks for. -/
def State.replyIrq (s : State) (q : Nat) (c : Cmd) : State :=
  if c.irqBit ∧ s.f F.QE_Q_CFG_IRQ_EN q = 1 then s.irq (q + 1) else s

/-- What follows a reply: the interrupt that the command asks for, and ERROR where its refusal stops the queue. -/
def State.afterReply (s : State) (q : Nat) (c : Cmd) : State :=
  let s := s.replyIrq q c
  if (decide (0x10 ≤ c.status) && decide (c.status ≤ 0x15) || c.status == 0x22) && s.f F.QE_Q_CFG_STOP_ON_ERR q == 1 &&
      (s.qState q == qRunning || s.qState q == qWaiting) then s.enterError q else s

section
variable {β : Type} (g : State → β) (hset : ∀ t x v i, g (State.setF t x v i) = g t) (hirq : ∀ t src, g (State.irq t src) = g t)
include hset hirq

theorem State.enterError_keeps (s : State) (q : Nat) : g (s.enterError q) = g s := by
  unfold State.enterError
  dsimp only
  split
  · exact (hirq _ _).trans (hset _ _ _ _)
  · exact hset _ _ _ _

theorem State.afterReply_keeps (s : State) (q : Nat) (c : Cmd) : g (s.afterReply q c) = g s := by
  have hfirst : g (s.replyIrq q c) = g s := by
    unfold State.replyIrq
    split
    · exact hirq _ _
    · rfl
  unfold State.afterReply
  dsimp only
  split
  · exact (State.enterError_keeps g hset hirq _ _).trans hfirst
  · exact hfirst

end

/-- The slot of the reply of command `n` (R204). -/
def State.replySlot (s : State) (q n : Nat) : Nat := s.f F.QE_Q_RPL_BASE_BASE q + n % s.qSize q * 32

/-- A reply stands at its slot, counted and noted in its record. -/
def State.replyStored (s : State) (q : Nat) (c : Cmd) : State :=
  ((s.store (s.replySlot q c.seq) (replyBytes c (s.qSize q))).setQx q { s.qx q with written := (s.qx q).written + 1 }).putCmd
    { c with replied := true }

theorem State.replyOut_stored {s : State} {q n : Nat} {c : Cmd} (hc : s.cmd q n = some c) (hx : (s.qx q).written = n)
    (hr : c.retired = true) (hs : c.signals = true → c.signalled = true) (hwin : s.inWindow (s.replySlot q n) = false)
    (hin : s.inHbm (s.replySlot q n) 32 = true) (hnow : s.writeNow (s.replySlot q n) 32 = true) :
    s.replyOut q = (s.replyStored q c).afterReply q c := by
  subst hx
  obtain ⟨-, hseq⟩ := State.key_of_cmd hc
  rw [← hseq] at hwin hin hnow
  have hready : ¬ ((!c.retired) = true ∨ c.signals = true ∧ (!c.signalled) = true) := by
    rintro (h | ⟨hsig, h⟩)
    · simp [hr] at h
    · simp [hs hsig] at h
  have hwait : (s.cmd q (s.qx q).written).any (fun c => c.retired && (!c.signals || c.signalled)) = true := by
    rw [hc, Option.any_some, hr, Bool.true_and]
    cases hsig : c.signals with
    | false => rfl
    | true => exact hs hsig
  have hslot : s.f F.QE_Q_RPL_BASE_BASE q + c.seq % s.qSize q * 32 = s.replySlot q c.seq := rfl
  have hreply : s.replyCmd q = (s.replyStored q c).afterReply q c := by
    rw [State.replyCmd, hc]
    dsimp only
    rw [if_neg hready, hslot, if_neg (by simp [hnow]), if_pos hin]
    rfl
  rw [State.replyOut, hwait, ← hseq, hslot, State.replyTo, hwin]
  exact hreply

theorem State.replyStored_spec {s : State} {q n : Nat} {c : Cmd} (hc : s.cmd q n = some c) (hx : (s.qx q).written = n) :
    ((s.replyStored q c).qx q).written = n + 1 ∧ (s.replyStored q c).cmd q n = some { c with replied := true } ∧
      (s.replyStored q c).mem = (s.store (s.replySlot q n) (replyBytes c (s.qSize q))).mem := by
  obtain ⟨rfl, hseq⟩ := State.key_of_cmd hc
  refine ⟨?_, ?_, ?_⟩
  · rw [State.replyStored, State.qx_putCmd, State.qx_setQx_same, hx]
  · exact hseq ▸ State.cmd_putCmd_same _ { c with replied := true }
  · rw [← hseq]
    rfl

end Sys2Proof.Machine

namespace Sys2Proof.Claims
open Sys2Proof Sys2Proof.Machine

/-! ### The obligation -/

/-- Settles O26: each clause is the fact about its stage. -/
theorem queueStagesComplete : Obligations.QueueStagesComplete := by
  intro s q n c hq hc
  have hqueue : decide (q < 256) = true := decide_eq_true hq
  obtain ⟨hkq, hkn⟩ := State.key_of_cmd hc
  refine ⟨?tile, ?unit, ?wing, ?signal, ?reply⟩
  case tile =>
    intro w r x hw hr hrq hrn hu hready hheld hclaim hj bad again d y
    have hmem : y.mem = _ := s.unitCommitted_mem w r x
    refine completes_of_onUnit rfl hqueue ⟨State.commitCmd_vec hc hw hr hrq hrn hu hready hheld hclaim hj, fun h => ?_, fun h => ?_⟩
    · exact hmem.trans (if_neg (ne_true_of_eq_false h))
    · exact hmem.trans (if_pos h)
  case unit =>
    intro hd ha hr hw he ho hop hj
    subst hkq hkn
    have hret := State.retire_unit hc hd ha hr hw he ho
    obtain ⟨time, hcmd⟩ := s.cmd_finishCmd c (if c.status = 0 then if c.replays > 0 then 1 else 0 else c.status) c.flags
    rw [← hret] at hcmd
    refine completes_of_onUnit rfl hqueue ?_
    rw [State.retireCmd_eq hj hcmd hop]
    exact ⟨hret ▸ s.inflight_finishCmd c _ _, _, hcmd, rfl, rfl⟩
  case wing =>
    intro w fl bad hd ha hr hw he hdone hop hj
    subst hkq hkn
    have hret := State.retire_wing hc hd ha hr hw he hdone
    obtain ⟨time, hcmd⟩ := s.cmd_finishCmd c (if bad then 0x20 else if c.replays > 0 then 1 else 0) fl
    rw [← State.cmd_of_qe (State.leaveWing_qe _ w c.q c.seq), ← hret] at hcmd
    refine completes_of_onUnit rfl hqueue ?_
    rw [State.retireCmd_eq hj hcmd hop]
    exact ⟨_, hcmd, rfl, rfl, rfl⟩
  case signal =>
    intro hr hs hsig ho
    refine completes_of_onUnit rfl hqueue ?_
    rw [State.signalCmd_eq hc hr hs hsig ho]
    subst hkq hkn
    exact ⟨s.gate_gateAdd _ _, State.cmd_putCmd_same _ _⟩
  case reply =>
    intro hx hr hs a hwin hin hnow
    refine completes_of_onUnit rfl hqueue ?_
    rw [State.replyOut_stored hc hx hr hs hwin hin hnow]
    obtain ⟨hwritten, hcmd, hmem⟩ := State.replyStored_spec hc hx
    have hqe := State.afterReply_keeps State.qe (fun _ _ _ _ => rfl) State.irq_qe (s.replyStored q c) q c
    have hkept := State.afterReply_keeps State.mem (fun _ _ _ _ => rfl) State.irq_mem (s.replyStored q c) q c
    exact ⟨State.qx_of_qe hqe q ▸ hwritten, (State.cmd_of_qe hqe q n).trans hcmd, hkept.trans hmem⟩

end Sys2Proof.Claims
end

section
/-! PROOF. The gate counters (R199): a counter after a register write, after a reset of registers and after an addition, what a module
reset leaves in it (R397), and `GateCountersWrap` from them. -/

namespace Sys2Proof.Machine

/-! ### A counter and the register file -/

theorem resetWord_gate (g straps : Nat) (fuses : Bool) : resetWord ⟨.QE_GATE_VAL, g, 0⟩ straps fuses = 0 := by
  rw [resetWord, if_neg (show RegName.QE_GATE_VAL ≠ .EYE_SRC_CFG by decide)]
  simp only [RegName.info, infoQE_GATE_VAL, List.foldl]
  decide

/-- A counter depends on its own register alone: its Reset column is zero whatever fuse maps are loaded. -/
theorem State.gate_eq (s : State) (g : Nat) : s.gate g = getBits (mgetD s.regs ⟨.QE_GATE_VAL, g, 0⟩ 0) 0 48 := by
  show getBits (mgetD s.regs ⟨.QE_GATE_VAL, g, 0⟩ (resetWord ⟨.QE_GATE_VAL, g, 0⟩ _ _)) 0 48 = _
  rw [resetWord_gate]

theorem State.gate_of_regs {s t : State} (h : t.regs = s.regs) (g : Nat) : t.gate g = s.gate g := by
  rw [State.gate_eq, State.gate_eq, h]

theorem State.gate_wr (s : State) {n : RegName} (v : Word) (i j g : Nat) (hn : n ≠ .QE_GATE_VAL) : (s.wr n v i j).gate g = s.gate g := by
  rw [State.gate_eq, State.gate_eq, State.wr, mgetD_mset_ne _ _ _ fun e => hn (RegKey.mk.inj e).1]

theorem State.gate_setF (s : State) {x : Fld} (v i j g : Nat) (hx : x.reg ≠ .QE_GATE_VAL) : (s.setF x v i j).gate g = s.gate g :=
  s.gate_wr _ _ _ _ hx

theorem State.gate_lt (s : State) (g : Nat) : s.gate g < 2 ^ 48 := s.f_lt F.QE_GATE_VAL_VALUE g 0

theorem State.gate_gateAdd_ne (s : State) {g h : Nat} (v : Nat) (hne : h ≠ g) : (s.gateAdd g v).gate h = s.gate h :=
  State.f_setF_idx _ _ _ _ (.inl hne.symm) (by decide)

theorem State.gate_reset (g : Nat) : State.reset.gate g = 0 := by
  rw [State.gate_eq]
  rfl

/-! ### Resets of registers (R8, R12) -/

theorem mget_map_ite {κ ν : Type} [DecidableEq κ] (p : κ → Bool) (f : κ → ν → ν) (m : List (κ × ν)) (k : κ) :
    mget (m.map fun e => if p e.1 then (e.1, f e.1 e.2) else e) k = if p k then (mget m k).map (f k) else mget m k := by
  induction m with
  | nil => simp [mget]
  | cons e m ih =>
    obtain ⟨x, v⟩ := e
    by_cases hx : x = k
    · subst hx
      cases hp : p x <;> simp [mget, hp]
    · cases hp : p x <;> simp [mget, hp, hx, ih]

theorem resetReg_gate (g : Nat) (old : Word) (straps : Nat) : resetReg ⟨.QE_GATE_VAL, g, 0⟩ old straps = 0 := by
  simp [resetReg, resetWord_gate, RegName.info, infoQE_GATE_VAL, liveFields, liveAsserted]

theorem State.gate_resetRegs (s : State) {p : RegName → Bool} (hp : p .QE_GATE_VAL = true) (g : Nat) : (s.resetRegs p).gate g = 0 := by
  rw [State.gate_eq, State.resetRegs, mgetD,
    mget_map_ite (fun k => p k.name) (fun k old => resetReg k old s.pins.straps), if_pos hp]
  cases mget s.regs ⟨.QE_GATE_VAL, g, 0⟩ with
  | none => rfl
  | some old =>
    rw [Option.map_some, resetReg_gate]
    rfl

theorem State.gate_resetRegs_of_not (s : State) {p : RegName → Bool} (hp : p .QE_GATE_VAL = false) (g : Nat) :
    (s.resetRegs p).gate g = s.gate g := by
  rw [State.gate_eq, State.gate_eq, State.resetRegs, mgetD,
    mget_map_ite (fun k => p k.name) (fun k old => resetReg k old s.pins.straps), if_neg (ne_true_of_eq_false hp), mgetD]

/-! ### A module reset (R397) -/

theorem State.gate_imgStat (s : State) (c g : Nat) : (s.imgStat c).gate g = s.gate g := State.f_imgStat _ _ _ _ _ (by decide)

theorem State.gate_releasePins (s : State) (g : Nat) : s.releasePins.gate g = s.gate g := by
  unfold State.releasePins
  dsimp only
  split <;> split <;> simp only [State.gate_setF _ _ _ _ g (x := F.EYE_PIN_ALERT) (by decide),
    State.gate_setF _ _ _ _ g (x := F.EYE_PIN_SECALERT) (by decide)]

theorem State.gate_newChallenge (s : State) (g : Nat) : s.newChallenge.gate g = s.gate g :=
  foldS_keeps (fun t : State => t.gate g) (fun _ t => (State.gate_wr _ _ _ _ _ (by decide)).trans (State.gate_of_regs t.draw_regs g)) _ _

theorem State.gate_setStage (s : State) (n g : Nat) : (s.setStage n).gate g = s.gate g :=
  State.f_setStage _ _ _ _ _ (by decide) (by decide)

/-- The counters stand in the blocks of the main rails, which `resetMain` resets; nothing after it writes them. -/
theorem State.gate_resetModule (s : State) (g : Nat) : s.resetModule.gate g = 0 := by
  have hmain : s.resetEye.resetMain.gate g = 0 := State.gate_resetRegs _ (p := fun n => !onStandby n) (by decide) g
  unfold State.resetModule
  dsimp only
  rw [State.gate_newChallenge, State.gate_releasePins,
    foldS_keeps (fun t : State => t.gate g) (fun c t => t.gate_imgStat c g), State.gate_setF _ _ _ _ _ (by decide),
    State.gate_setF _ _ _ _ _ (by decide), State.gate_setF _ _ _ _ _ (by decide), State.gate_resetRegs_of_not _ (by decide), hmain]

theorem State.gate_moduleReset {s : State} (hp : s.pwrState = 2) (hs : 2 ≤ s.stage) (cause g : Nat) : (s.moduleReset cause).gate g = 0 := by
  unfold State.moduleReset
  rw [if_neg (by omega)]
  dsimp only
  rw [State.gate_setStage, State.gate_setF _ _ _ _ _ (by decide), State.gate_setF _ _ _ _ _ (by decide), State.gate_resetModule]

end Sys2Proof.Machine

namespace Sys2Proof.Claims
open Sys2Proof Sys2Proof.Machine

/-! ### The obligation -/

/-- Settles O10: each part is the fact about its operation. -/
theorem gateCountersWrap : Obligations.GateCountersWrap := fun s _ =>
  ⟨s.gate_lt, State.gate_reset, fun hp hs => completes_of_done rfl (State.gate_moduleReset hp hs 4),
    fun g v => ⟨s.gate_gateAdd g v, fun _ hne => s.gate_gateAdd_ne v hne⟩⟩

end Sys2Proof.Claims
end

section
/-! PROOF. The queue registers (R188, R199, R202, R203, R211, R215, R216, R224): what a doorbell, an enable, a drain's start and end, a
RESUME and the stall report leave in a queue's registers and beside them, and `QueueControlComplete` from it. A drain and a write
of ENABLE 0 are accepted in every state of an enabled queue (log entry 79). -/

namespace Sys2Proof.Machine

/-! ### A queue's state (Table 7-21) -/

@[simp] theorem State.f_setQx (s : State) (q : Nat) (x : QxSt) (y : Fld) (i j : Nat) : (s.setQx q x).f y i j = s.f y i j := rfl

@[simp] theorem State.qx_setQState (s : State) (q x a : Nat) : (s.setQState q x).qx a = s.qx a := rfl

theorem State.qState_setQState (s : State) (q : Nat) {x : Nat} (hx : x < 8) : (s.setQState q x).qState q = x :=
  State.f_setF_of_lt (by decide) hx

theorem State.f_setQState {s : State} {q x : Nat} {y : Fld} {i j : Nat} (h : F.QE_Q_STATE_STATE.spares y = true) :
    (s.setQState q x).f y i j = s.f y i j := State.f_setF_spared h

theorem State.qState_setF {s : State} {x : Fld} {v i j q : Nat} (h : x.spares F.QE_Q_STATE_STATE = true) :
    (s.setF x v i j).qState q = s.qState q := State.f_setF_spared h

section
variable {s : State} {q : Nat}

/-! ### Doorbells (R188) and gates (R202) -/

theorem State.doorbell_taken {v : Nat} (hl : s.f F.QE_Q_TAIL_TAIL q ≤ v) (hu : v ≤ s.f F.QE_Q_RHEAD_RHEAD q + s.qSize q) (m : Master) :
    s.doorbell q v m = s.setF F.QE_Q_TAIL_TAIL v q := if_pos ⟨hl, hu⟩

theorem State.rheadWrite_taken {v : Nat} (hl : s.f F.QE_Q_RHEAD_RHEAD q ≤ v) (hu : v ≤ (s.qx q).written) (m : Master) :
    s.rheadWrite q v m = s.setF F.QE_Q_RHEAD_RHEAD v q := if_pos ⟨hl, hu⟩

theorem State.gate_gateWrite (s : State) (g : Nat) {v : Nat} (hv : v < 2 ^ 48) : (s.setF F.QE_GATE_VAL_VALUE v g).gate g = v :=
  State.f_setF_of_lt (by decide) hv

/-! ### ENABLE (Table 7-17) -/

/-- A queue with no records, its counts at zero and nothing noted beside its registers. -/
def State.emptied (s : State) (q : Nat) : State :=
  let s := { s with qe := { s.qe with cmds := s.qe.cmds.filter fun c => c.q != q } }
  (((s.setF F.QE_Q_TAIL_TAIL 0 q).setF F.QE_Q_HEAD_HEAD 0 q).setF F.QE_Q_RHEAD_RHEAD 0 q).setQx q {}

theorem State.emptied_spec (s : State) (q : Nat) : (s.emptied q).f F.QE_Q_TAIL_TAIL q = 0 ∧ (s.emptied q).f F.QE_Q_HEAD_HEAD q = 0 ∧
    (s.emptied q).f F.QE_Q_RHEAD_RHEAD q = 0 := by
  refine ⟨?_, ?_, State.f_setF_of_lt (by decide) (by decide)⟩
  · exact (State.f_setF_spared (by decide)).trans ((State.f_setF_spared (by decide)).trans (State.f_setF_of_lt (by decide) (by decide)))
  · exact (State.f_setF_spared (by decide)).trans (State.f_setF_of_lt (by decide) (by decide))

theorem State.f_emptied {y : Fld} {i j : Nat} (ht : F.QE_Q_TAIL_TAIL.spares y = true) (hh : F.QE_Q_HEAD_HEAD.spares y = true)
    (hr : F.QE_Q_RHEAD_RHEAD.spares y = true) : (s.emptied q).f y i j = s.f y i j :=
  (State.f_setF_spared hr).trans ((State.f_setF_spared hh).trans (State.f_setF_spared ht))

theorem State.queueEnable_starts (h : s.qState q = qDisabled) :
    s.queueEnable q = ((s.setF F.QE_Q_CFG_ENABLE 1 q).emptied q).setQState q qRunning :=
  if_neg (not_not.mpr ((State.qState_setF (by decide)).trans h))

theorem State.queueEnable_spec (h : s.qState q = qDisabled) :
    (s.queueEnable q).qState q = qRunning ∧ (s.queueEnable q).f F.QE_Q_CFG_ENABLE q = 1 ∧ (s.queueEnable q).f F.QE_Q_TAIL_TAIL q = 0 ∧
      (s.queueEnable q).f F.QE_Q_HEAD_HEAD q = 0 ∧ (s.queueEnable q).f F.QE_Q_RHEAD_RHEAD q = 0 := by
  obtain ⟨htail, hhead, hrhead⟩ := (s.setF F.QE_Q_CFG_ENABLE 1 q).emptied_spec q
  rw [State.queueEnable_starts h]
  refine ⟨State.qState_setQState _ _ (by decide), ?_, (State.f_setQState (by decide)).trans htail,
    (State.f_setQState (by decide)).trans hhead, (State.f_setQState (by decide)).trans hrhead⟩
  rw [State.f_setQState (by decide), State.f_emptied (by decide) (by decide) (by decide)]
  exact State.f_setF_of_lt (by decide) (by decide)

/-! ### The start of a drain (R215, R216) -/

/-- A drain noted: its mode, the TAIL it covers, and whether DISABLED follows. -/
def State.drainNoted (s : State) (q mode : Nat) (off : Bool) : State :=
  (s.setQx q { s.qx q with drain := some (mode, s.f F.QE_Q_TAIL_TAIL q), thenDisable := (s.qx q).thenDisable || off }).setQState q qDraining

theorem State.drainNoted_spec (s : State) (q mode : Nat) (off : Bool) : (s.drainNoted q mode off).qState q = qDraining ∧
    ((s.drainNoted q mode off).qx q).drain = some (mode, s.f F.QE_Q_TAIL_TAIL q) :=
  ⟨State.qState_setQState _ _ (by decide), by rw [State.drainNoted, State.qx_setQState, State.qx_setQx_same]⟩

/-- With nothing left to dispatch and, for an abort, nothing to stop, the start of a drain only notes it. -/
theorem State.drainStart_idle {mode : Nat} (hempty : s.f F.QE_Q_HEAD_HEAD q = s.f F.QE_Q_TAIL_TAIL q)
    (hretired : mode = 2 → ∀ c ∈ s.qe.cmds, c.q = q → c.retired = true) (off : Bool) : s.drainStart q mode off = s.drainNoted q mode off := by
  unfold State.drainStart
  dsimp only
  rw [hempty, Nat.sub_self]
  show (if mode = 2 then foldS (s.qe.cmds.filter fun c => c.q == q && c.dispatched && !c.retired) _ (s.drainNoted q mode off)
    else s.drainNoted q mode off) = _
  split
  next hm =>
    have hnone : (s.qe.cmds.filter fun c => c.q == q && c.dispatched && !c.retired) = [] :=
      List.filter_eq_nil_iff.mpr fun c hc => by
        have hended := hretired hm c hc
        simp only [Bool.and_eq_true, beq_iff_eq, Bool.not_eq_true']
        rintro ⟨⟨hq, -⟩, hr⟩
        simp [hended hq] at hr
    rw [hnone]
    rfl
  · rfl

theorem State.queueDrain_starts (h : s.qState q ≠ qDisabled) (mode : Nat) : s.queueDrain q mode = s.drainStart q mode false := if_neg h

theorem State.queueDrain_spec {mode : Nat} (hempty : s.f F.QE_Q_HEAD_HEAD q = s.f F.QE_Q_TAIL_TAIL q) (h : s.qState q ≠ qDisabled)
    (hretired : mode = 2 → ∀ c ∈ s.qe.cmds, c.q = q → c.retired = true) : (s.queueDrain q mode).qState q = qDraining ∧
      ((s.queueDrain q mode).qx q).drain = some (mode, s.f F.QE_Q_TAIL_TAIL q) := by
  rw [State.queueDrain_starts h, State.drainStart_idle hempty hretired]
  exact s.drainNoted_spec q mode false

/-! ### ENABLE 0 (Table 7-9) -/

theorem State.enable_written (s : State) (q : Nat) : (s.setF F.QE_Q_CFG_ENABLE 0 q).f F.QE_Q_CFG_ENABLE q = 0 :=
  State.f_setF_of_lt (by decide) (by decide)

theorem State.queueDisable_draining (h : s.qState q = qDraining) :
    s.queueDisable q = (s.setF F.QE_Q_CFG_ENABLE 0 q).setQx q { s.qx q with thenDisable := true } := by
  have hstate : (s.setF F.QE_Q_CFG_ENABLE 0 q).qState q = qDraining := (State.qState_setF (by decide)).trans h
  unfold State.queueDisable
  dsimp only
  rw [hstate, if_neg (by decide), if_pos rfl]
  rfl

theorem State.queueDisable_running (h : s.qState q = qRunning) :
    s.queueDisable q = (s.setF F.QE_Q_CFG_ENABLE 0 q).drainStart q 1 true := by
  have hstate : (s.setF F.QE_Q_CFG_ENABLE 0 q).qState q = qRunning := (State.qState_setF (by decide)).trans h
  unfold State.queueDisable
  dsimp only
  rw [hstate, if_neg (by decide), if_neg (by decide)]

theorem State.queueDisable_running_spec (hempty : s.f F.QE_Q_HEAD_HEAD q = s.f F.QE_Q_TAIL_TAIL q) (h : s.qState q = qRunning) :
    (s.queueDisable q).qState q = qDraining ∧ (s.queueDisable q).f F.QE_Q_CFG_ENABLE q = 0 ∧
      ((s.queueDisable q).qx q).drain = some (1, s.f F.QE_Q_TAIL_TAIL q) := by
  have htail : (s.setF F.QE_Q_CFG_ENABLE 0 q).f F.QE_Q_TAIL_TAIL q = s.f F.QE_Q_TAIL_TAIL q := State.f_setF_spared (by decide)
  have hhead : (s.setF F.QE_Q_CFG_ENABLE 0 q).f F.QE_Q_HEAD_HEAD q = s.f F.QE_Q_HEAD_HEAD q := State.f_setF_spared (by decide)
  rw [State.queueDisable_running h, State.drainStart_idle (hhead.trans (hempty.trans htail.symm)) (fun h => absurd h (by decide))]
  obtain ⟨hstate, hdrain⟩ := (s.setF F.QE_Q_CFG_ENABLE 0 q).drainNoted_spec q 1 true
  exact ⟨hstate, (State.f_setQState (by decide)).trans (s.enable_written q), htail ▸ hdrain⟩

/-! ### The end of a drain (R216), RESUME (R211), the stall report (R203) -/

theorem State.drainEnd_ends {d t : Nat} (hd : (s.qx q).drain = some (d, t)) (hs : s.qState q = qDraining)
    (hr : ∀ c ∈ s.qe.cmds, c.q = q → c.seq < t → c.retired = true) :
    s.drainEnd q = (s.setQx q { s.qx q with drain := none, thenDisable := false }).setQState q
      (if (s.qx q).thenDisable then qDisabled else qStopped) := by
  have hended : (s.qe.cmds.any fun c => c.q == q && decide (c.seq < t) && !c.retired) = false := by
    simp only [List.any_eq_false, Bool.and_eq_true, beq_iff_eq, decide_eq_true_eq, Bool.not_eq_true']
    rintro c hc ⟨⟨hq, ht⟩, hno⟩
    simp [hr c hc hq ht] at hno
  rw [State.drainEnd, hd]
  exact if_neg (by simp [hs, hended])

theorem State.drainEnd_spec {d t : Nat} (hd : (s.qx q).drain = some (d, t)) (hs : s.qState q = qDraining)
    (hr : ∀ c ∈ s.qe.cmds, c.q = q → c.seq < t → c.retired = true) :
    (s.drainEnd q).qState q = (if (s.qx q).thenDisable then qDisabled else qStopped) ∧ ((s.drainEnd q).qx q).drain = none := by
  rw [State.drainEnd_ends hd hs hr]
  refine ⟨State.qState_setQState _ _ ?_, by rw [State.qx_setQState, State.qx_setQx_same]⟩
  split <;> decide

theorem State.queueResume_runs (h : s.qState q = qStopped ∨ s.qState q = qError) : s.queueResume q = s.setQState q qRunning := if_pos h

theorem State.waitLong_reports (hms : s.f F.QE_Q_CFG_WAIT_MS q ≠ 0) (hd : s.canDispatch q = true)
    (hh : s.headHeld q (s.readPkt q (s.f F.QE_Q_HEAD_HEAD q)) = true) :
    s.waitLong q = (s.setF F.QE_Q_STATE_WAIT_LONG 1 q).raise (srcOf 65 4) ⟨0, 0x80, 0⟩ := if_neg (by simp [hms, hd, hh])

end

end Sys2Proof.Machine

namespace Sys2Proof.Claims
open Sys2Proof Sys2Proof.Machine

/-! ### The obligation -/

/-- Settles O22: each clause is the fact about its operation. -/
theorem queueControlComplete : Obligations.QueueControlComplete := by
  intro s m q hq
  have hqueue : decide (q < 256) = true := decide_eq_true hq
  refine ⟨?doorbell, ?rhead, ?gateVal, ?gateAdd, ?enable, ?disableDraining, ?disableRunning, ?drainFinish, ?drainAbort, ?drainDone,
    ?resume, ?clampClr, ?waitLong⟩
  case doorbell =>
    intro v hv hl hu
    exact completes_of_onUnit rfl hqueue (State.doorbell_taken hl hu m ▸ ⟨State.f_setF_of_lt (by decide) hv, State.f_setF_spared (by decide)⟩)
  case rhead =>
    intro v hv hl hu
    exact completes_of_onUnit rfl hqueue (State.rheadWrite_taken hl hu m ▸ State.f_setF_of_lt (by decide) hv)
  case gateVal =>
    intro g v hg hv hquiet
    refine next_of_onUnit rfl (decide_eq_true hg) hquiet ⟨?_, rfl⟩
    rw [Nat.mod_eq_of_lt hv, s.gate_gateWrite g hv]
  case gateAdd =>
    intro g v hg hv hquiet
    refine next_of_onUnit rfl (decide_eq_true hg) hquiet ⟨?_, rfl⟩
    rw [State.gateAddWord, Nat.mod_eq_of_lt hv, s.gate_gateAdd g v]
  case enable => exact fun h => completes_of_onUnit rfl hqueue (State.queueEnable_spec h)
  case disableDraining =>
    intro h
    refine completes_of_onUnit rfl hqueue ?_
    rw [State.queueDisable_draining h, State.f_setQx, State.qx_setQx_same]
    exact ⟨s.enable_written q, rfl⟩
  case disableRunning => exact fun hempty h => completes_of_onUnit rfl hqueue (State.queueDisable_running_spec hempty h)
  case drainFinish =>
    exact fun hempty h => completes_of_onUnit rfl hqueue (State.queueDrain_spec hempty h fun hmode => absurd hmode (by decide))
  case drainAbort => exact fun hempty h hr => completes_of_onUnit rfl hqueue (State.queueDrain_spec hempty h fun _ => hr)
  case drainDone => exact fun d t hd hs hr => completes_of_onUnit rfl hqueue (State.drainEnd_spec hd hs hr)
  case resume => exact fun h => completes_of_onUnit rfl hqueue (State.queueResume_runs h ▸ State.qState_setQState _ _ (by decide))
  case clampClr => exact completes_of_onUnit rfl hqueue ⟨State.f_setF_of_lt (by decide) (by decide), rfl⟩
  case waitLong =>
    intro hms hd hh
    refine completes_of_onUnit rfl hqueue ?_
    rw [State.waitLong_reports hms hd hh, State.f_raise _ _ _ _ _ _ rfl]
    exact State.f_setF_of_lt (by decide) (by decide)

end Sys2Proof.Claims
end

section
/-! PROOF. The dispatch of a queue's head (R190, R195): a head that is ready goes to its unit as `Taken` says, and what NOP, GATE_ADD,
GATE_SET (which act at their dispatch, log entry 124), an ABORT of a retired command (R213), a MATMUL and a VEC_RUN leave in the
record, in the gate and on the wing; `DispatchComplete` from it. -/

namespace Sys2Proof.Machine

/-! ### Records by number -/

theorem State.cmd_putCmd_ne (s : State) {c : Cmd} {q n : Nat} (h : ¬ (c.q = q ∧ c.seq = n)) : (s.putCmd c).cmd q n = s.cmd q n := by
  have hother : (c.q == q && c.seq == n) = false := by simpa using h
  unfold State.cmd State.putCmd
  dsimp only
  split
  · have hcomp : ((fun x : Cmd => x.q == q && x.seq == n) ∘ fun x => if x.q = c.q ∧ x.seq = c.seq then c else x) =
        fun x => x.q == q && x.seq == n := by
      funext x
      by_cases hx : x.q = c.q ∧ x.seq = c.seq
      · rw [Function.comp_apply, if_pos hx, hx.1, hx.2]
      · simp only [Function.comp_apply, if_neg hx]
    rw [List.find?_map, hcomp]
    cases hfound : s.qe.cmds.find? fun x => x.q == q && x.seq == n with
    | none => rfl
    | some x =>
      have hkey : x.q = q ∧ x.seq = n := by simpa using List.find?_some hfound
      have hkeep : ¬ (x.q = c.q ∧ x.seq = c.seq) := fun ⟨h1, h2⟩ => h ⟨h1.symm.trans hkey.1, h2.symm.trans hkey.2⟩
      rw [Option.map_some, if_neg hkeep]
  · rw [List.find?_append]
    simp [hother]

theorem State.modCmd_of_cmd {s : State} {q n : Nat} {c : Cmd} (h : s.cmd q n = some c) (f : Cmd → Cmd) :
    s.modCmd q n f = s.putCmd (f c) := by rw [State.modCmd, h]

@[simp] theorem State.f_modCmd (s : State) (q n : Nat) (f : Cmd → Cmd) (x : Fld) (i j : Nat) : (s.modCmd q n f).f x i j = s.f x i j := by
  unfold State.modCmd
  split <;> rfl

/-! ### Counting clamps (R209, R210) -/

/-- The count of clamped fields writes the registers QE_Q_CLAMP and nothing else. -/
theorem State.countClamps_keeps {β : Type} (g : State → β) (hset : ∀ t x v i, x.reg = .QE_Q_CLAMP → g (State.setF t x v i) = g t)
    (s : State) (q op : Nat) (offs : List Nat) : g (s.countClamps q op offs) = g s := by
  unfold State.countClamps
  split
  · rfl
  · exact (hset _ _ _ _ rfl).trans ((hset _ _ _ _ rfl).trans (hset _ F.QE_Q_CLAMP_COUNT _ _ rfl))

theorem State.f_countClamps (s : State) (q op : Nat) (offs : List Nat) {y : Fld} (i j : Nat) (hy : .QE_Q_CLAMP ≠ y.reg) :
    (s.countClamps q op offs).f y i j = s.f y i j :=
  State.countClamps_keeps (fun t => t.f y i j) (fun _ _ _ _ hx => State.f_setF_reg _ _ _ _ _ _ _ _ (hx ▸ hy) (hx ▸ by decide)) _ _ _ _

@[simp] theorem State.countClamps_qe (s : State) (q op : Nat) (offs : List Nat) : (s.countClamps q op offs).qe = s.qe :=
  State.countClamps_keeps State.qe (fun _ _ _ _ _ => rfl) _ _ _ _

/-! ### The head command taken from its queue (R195) -/

/-- HEAD and INFLIGHT count a command that dispatches, and the queue runs. -/
def State.headCounted (s : State) (q : Nat) : State :=
  ((s.setF F.QE_Q_HEAD_HEAD (s.f F.QE_Q_HEAD_HEAD q + 1) q).setF F.QE_Q_STATE_INFLIGHT (s.f F.QE_Q_STATE_INFLIGHT q + 1) q).setQState q qRunning

/-- The registers that taking a head command writes. -/
def headReg (n : RegName) : Bool := n == .QE_Q_HEAD || n == .QE_Q_STATE || n == .QE_Q_CLAMP

section
variable (s : State) (q : Nat) (p : List Nat) (unit : Nat)

theorem State.takeHead_snd : (s.takeHead q p unit).2 =
    { q := q, seq := s.f F.QE_Q_HEAD_HEAD q, pkt := p, unit := unit, clamped := hdr p 52 8 == 0 } := rfl

/-- Anything that neither a record nor a count of clamps changes is that of `headCounted`. -/
theorem State.takeHead_keeps {β : Type} (g : State → β) (hput : ∀ t c, g (State.putCmd t c) = g t)
    (hset : ∀ t x v i, x.reg = .QE_Q_CLAMP → g (State.setF t x v i) = g t) : g (s.takeHead q p unit).1 = g (s.headCounted q) := by
  unfold State.takeHead
  dsimp only
  rw [hput]
  split
  · exact (State.countClamps_keeps g hset _ _ _ _).trans rfl
  · rfl

theorem State.f_takeHead_counted {y : Fld} (i j : Nat) (hy : .QE_Q_CLAMP ≠ y.reg) :
    (s.takeHead q p unit).1.f y i j = (s.headCounted q).f y i j :=
  s.takeHead_keeps q p unit (fun t => t.f y i j) (fun _ _ => rfl)
    fun _ _ _ _ hx => State.f_setF_reg _ _ _ _ _ _ _ _ (hx ▸ hy) (hx ▸ by decide)

theorem State.f_takeHead {y : Fld} (i j : Nat) (hy : headReg y.reg = false) : (s.takeHead q p unit).1.f y i j = s.f y i j := by
  simp only [headReg, Bool.or_eq_false_iff, beq_eq_false_iff_ne] at hy
  obtain ⟨⟨hhead, hstate⟩, hclamp⟩ := hy
  rw [State.f_takeHead_counted _ _ _ _ _ _ hclamp.symm, State.headCounted, State.setQState,
    State.f_setF_reg _ _ _ _ _ _ _ _ hstate.symm (by decide), State.f_setF_reg _ _ _ _ _ _ _ _ hstate.symm (by decide),
    State.f_setF_reg _ _ _ _ _ _ _ _ hhead.symm (by decide)]

theorem State.head_takeHead (h : s.f F.QE_Q_HEAD_HEAD q + 1 < 2 ^ F.QE_Q_HEAD_HEAD.w) :
    (s.takeHead q p unit).1.f F.QE_Q_HEAD_HEAD q = s.f F.QE_Q_HEAD_HEAD q + 1 := by
  rw [State.f_takeHead_counted _ _ _ _ _ _ (by decide), State.headCounted, State.f_setQState (by decide), State.f_setF_spared (by decide)]
  exact State.f_setF_of_lt (by decide) h

theorem State.inflight_takeHead (h : s.f F.QE_Q_STATE_INFLIGHT q < 16) :
    (s.takeHead q p unit).1.f F.QE_Q_STATE_INFLIGHT q = s.f F.QE_Q_STATE_INFLIGHT q + 1 := by
  rw [State.f_takeHead_counted _ _ _ _ _ _ (by decide), State.headCounted, State.f_setQState (by decide)]
  exact State.f_setF_of_lt (by decide) (Nat.lt_of_lt_of_le (Nat.succ_lt_succ h) (by decide))

theorem State.poison_takeHead : (s.takeHead q p unit).1.poison = s.poison :=
  s.takeHead_keeps q p unit State.poison (fun _ _ => rfl) fun _ _ _ _ _ => rfl

theorem State.cmd_takeHead : (s.takeHead q p unit).1.cmd q (s.f F.QE_Q_HEAD_HEAD q) = some (s.takeHead q p unit).2 :=
  State.cmd_putCmd_same _ (s.takeHead q p unit).2

theorem State.cmd_takeHead_ne {a n : Nat} (h : ¬ (q = a ∧ s.f F.QE_Q_HEAD_HEAD q = n)) : (s.takeHead q p unit).1.cmd a n = s.cmd a n := by
  refine (State.cmd_putCmd_ne _ h).trans (State.cmd_of_qe ?_ a n)
  split
  · exact State.countClamps_qe _ _ _ _
  · rfl

end

theorem State.passHead_none {s : State} {q : Nat} (h : s.cmd q (s.f F.QE_Q_HEAD_HEAD q) = none) (k : Nat) : s.passHead q k = s := by
  cases k with
  | zero => rfl
  | succ k => rw [State.passHead, h]

/-! ### A unit's dispatch -/

/-- A command that is done at its dispatch (R196). -/
def State.dispatchDone (s : State) (c : Cmd) : State := s.modCmd c.q c.seq fun c => { c with execDone := true, noOutputs := true }

theorem State.f_dispatchDone (s : State) (c : Cmd) (x : Fld) (i j : Nat) : (s.dispatchDone c).f x i j = s.f x i j :=
  State.f_modCmd _ _ _ _ _ _ _

section
variable {s : State} {c : Cmd} (hp : s.poisoned (s.slotAddr c.q c.seq) 64 = false)
include hp

theorem State.dispatchTo_nop (ho : c.op = 0) : s.dispatchTo c = s.dispatchDone c := by
  unfold State.dispatchTo
  rw [hp, ho]
  rfl

theorem State.dispatchTo_wing (ho : c.op = 1 ∨ c.op = 2) : s.dispatchTo c = s.startWing c (s.f F.QE_Q_CFG_WING c.q) := by
  unfold State.dispatchTo
  rw [hp]
  obtain h | h := ho <;> rw [h] <;> rfl

theorem State.dispatchTo_gateAdd (ho : c.op = 0x20) {g : Nat} (hg : bitsAt (c.pkt.getD 2 0) 0 16 = g) (hlt : g < 4096) :
    s.dispatchTo c = (s.gateAdd g (bitsAt (c.pkt.getD 3 0) 0 48)).dispatchDone c := by
  subst hg
  unfold State.dispatchTo
  rw [hp, ho]
  exact if_neg (Nat.not_le.mpr hlt)

theorem State.dispatchTo_gateSet (ho : c.op = 0x21) {g : Nat} (hg : bitsAt (c.pkt.getD 2 0) 0 16 = g) (hlt : g < 4096) :
    s.dispatchTo c = (s.setF F.QE_GATE_VAL_VALUE (bitsAt (c.pkt.getD 3 0) 0 48) g).dispatchDone c := by
  subst hg
  unfold State.dispatchTo
  rw [hp, ho]
  exact if_neg (Nat.not_le.mpr hlt)

theorem State.dispatchTo_abort (ho : c.op = 0x30) : s.dispatchTo c = s.abortRun c := by
  unfold State.dispatchTo
  rw [hp, ho]
  rfl

end

/-- The ABORT of a command that has retired names its status (Table 7-8). -/
theorem State.abortRun_retired {s : State} {c t : Cmd} {a n : Nat} (ha : bitsAt (c.pkt.getD 2 0) 0 16 = a) (hn : c.pkt.getD 3 0 = n)
    (hq : a < 256) (hposted : n < s.f F.QE_Q_TAIL_TAIL a) (hother : ¬ (a = c.q ∧ n = c.seq)) (ht : s.cmd a n = some t)
    (hr : t.retired = true) : s.abortRun c = s.putCmd { c with status := 3, detail := t.status, execDone := true, noOutputs := true } := by
  subst ha hn
  unfold State.abortRun
  dsimp only
  rw [if_neg (Nat.not_le.mpr hq), if_neg (not_or.mpr ⟨Nat.not_le.mpr hposted, hother⟩), ht]
  exact if_pos hr

/-! ### A job on its wing (R104, R157) -/

/-- A wing that is READY or BUSY has a new job last among its own, and is BUSY. -/
theorem State.addJob_spec {s : State} {w : Nat} (hw : s.wingState w = 2 ∨ s.wingState w = 3) (j : Job) :
    ((s.addJob w j).wing w).jobs = (s.wing w).jobs ++ [j.at_ (s.wing w).ord] ∧ (s.addJob w j).wingState w = 3 := by
  unfold State.addJob
  dsimp only
  generalize hadded : ({ s.wing w with jobs := (s.wing w).jobs ++ [j.at_ (s.wing w).ord], ord := (s.wing w).ord + 1 } : WingSt) = v
  have hjobs : v.jobs = (s.wing w).jobs ++ [j.at_ (s.wing w).ord] := by rw [← hadded]
  have hready : (s.setWing w v).wingState w = 2 ∨ (s.setWing w v).wingState w = 3 := hw
  have hbusy : ((s.setWing w v).wing w).jobs.isEmpty = false := by simp [hjobs]
  have hset : (s.setWing w v).wingBusy w = (s.setWing w v).setWingState w 3 := by
    rw [State.wingBusy, if_pos hready, hbusy]
    rfl
  rw [hset]
  exact ⟨by rw [State.setWingState, State.wing_setF, State.wing_setWing_same, hjobs], State.wingState_setWingState _ _ (by decide)⟩

theorem State.addJob_qe (s : State) (w : Nat) (j : Job) : (s.addJob w j).qe = s.qe := State.wingBusy_qe _ _

/-- The last of a wing's jobs is `j` with its place in the wing's order, the wing is BUSY, and the record under this number names
packet and wing. -/
def JobStands (v : State) (w q n : Nat) (p : List Nat) (j : Job) : Prop :=
  ∃ (l : List Job) (k : Nat) (c : Cmd),
    (v.wing w).jobs = l ++ [j.at_ k] ∧ v.wingState w = 3 ∧ v.cmd q n = some c ∧ c.pkt = p ∧ c.wing = some w

/-- The record of a command that its wing has decoded, with the offsets clamped. -/
def Cmd.onWing (c : Cmd) (w : Nat) (clamps : List Nat) : Cmd :=
  { c with wing := some w, unit := w, clamped := c.clamped || !clamps.isEmpty }

/-- The clamps of a wing command counted, its record put, and its job on the wing. -/
def State.jobTaken (s : State) (c : Cmd) (w : Nat) (clamps : List Nat) (j : Job) : State :=
  ((s.countClamps c.q c.op clamps).putCmd c).addJob w j

theorem State.jobTaken_stands {s : State} {c : Cmd} {w : Nat} (hc : c.wing = some w) (hw : s.wingState w = 2 ∨ s.wingState w = 3)
    (clamps : List Nat) (j : Job) : JobStands (s.jobTaken c w clamps j) w c.q c.seq c.pkt j := by
  have hstate : ((s.countClamps c.q c.op clamps).putCmd c).wingState w = s.wingState w :=
    (State.f_putCmd _ _ _ _ _).trans (s.f_countClamps _ _ _ _ _ (by decide))
  obtain ⟨hjobs, hbusy⟩ := State.addJob_spec (hstate ▸ hw) j
  exact ⟨_, _, c, hjobs, hbusy, (State.cmd_of_qe (State.addJob_qe _ _ _) _ _).trans (State.cmd_putCmd_same _ c), rfl, hc⟩

section
variable {s : State} {c : Cmd} {w q n : Nat} {p : List Nat} (hq : c.q = q) (hn : c.seq = n) (hp : c.pkt = p) (hs : s.wingState w ≠ 5)
include hq hn hp hs

theorem State.startWing_mat {j : MatJob} (ho : c.op = 1)
    (hw : (s.decodeMat w q n p).1.wingState w = 2 ∨ (s.decodeMat w q n p).1.wingState w = 3)
    (hj : (s.decodeMat w q n p).2.res = .ok j) (hu : (s.decodeMat w q n p).2.uncorr = false) :
    ∃ v, s.startWing c w = v.joinStreams w j false ∧ JobStands v w q n p (.mat j) := by
  subst hq hn hp
  let z := s.decodeMat w c.q c.seq c.pkt
  refine ⟨z.1.jobTaken { c.onWing w z.2.clamps with noOutputs := j.epi.isNone } w z.2.clamps (.mat j), ?_,
    State.jobTaken_stands rfl hw _ _⟩
  have ho' : ({ c with wing := some w, unit := w } : Cmd).op = 1 := ho
  unfold State.startWing
  rw [if_neg hs]
  dsimp only
  rw [if_pos ho', hu, hj]
  rfl

theorem State.startWing_vec {j : VecJob} (ho : c.op = 2)
    (hw : (s.decodeVec w q n p).1.wingState w = 2 ∨ (s.decodeVec w q n p).1.wingState w = 3)
    (hj : (s.decodeVec w q n p).2.res = .ok j) (hu : (s.decodeVec w q n p).2.uncorr = false) :
    ∃ v, s.startWing c w = v.startRun w ∧ JobStands v w q n p (.vec j) := by
  subst hq hn hp
  let z := s.decodeVec w c.q c.seq c.pkt
  refine ⟨z.1.jobTaken (c.onWing w z.2.clamps) w z.2.clamps (.vec j), ?_, State.jobTaken_stands rfl hw _ _⟩
  have ho' : ({ c with wing := some w, unit := w } : Cmd).op ≠ 1 := ne_of_eq_of_ne ho (by decide)
  unfold State.startWing
  rw [if_neg hs]
  dsimp only
  rw [if_neg ho', hu, hj]
  rfl

end

end Sys2Proof.Machine

namespace Sys2Proof.Claims
open Sys2Proof Sys2Proof.Machine

/-! ### The head as it goes to its unit -/

section
variable (s : State) (q : Nat)

theorem taken_record : (Taken s q).2 =
    { q := q, seq := s.f F.QE_Q_HEAD_HEAD q, pkt := s.readPkt q (s.f F.QE_Q_HEAD_HEAD q)
      unit := unitCode (hdr (s.readPkt q (s.f F.QE_Q_HEAD_HEAD q)) 0 8) (s.readPkt q (s.f F.QE_Q_HEAD_HEAD q))
      clamped := hdr (s.readPkt q (s.f F.QE_Q_HEAD_HEAD q)) 52 8 == 0 } := by
  rw [Taken, State.takeHead_snd, State.f_checkRead _ _ _ _ _ _ _ _ rfl]

theorem key_taken : (Taken s q).2.q = q ∧ (Taken s q).2.seq = s.f F.QE_Q_HEAD_HEAD q := by
  rw [taken_record]
  exact ⟨rfl, rfl⟩

theorem pkt_taken : (Taken s q).2.pkt = s.readPkt q (s.f F.QE_Q_HEAD_HEAD q) := by rw [taken_record]

theorem f_taken {y : Fld} (i j : Nat) (hread : readWrites y.reg = false) (hhead : headReg y.reg = false) :
    (Taken s q).1.f y i j = s.f y i j :=
  (State.f_takeHead _ _ _ _ _ _ hhead).trans (State.f_checkRead _ _ _ _ _ _ _ _ hread)

theorem head_taken (h : s.f F.QE_Q_HEAD_HEAD q + 1 < 2 ^ F.QE_Q_HEAD_HEAD.w) :
    (Taken s q).1.f F.QE_Q_HEAD_HEAD q = s.f F.QE_Q_HEAD_HEAD q + 1 := by
  have hsame := s.f_checkRead (s.slotAddr q (s.f F.QE_Q_HEAD_HEAD q)) 64 0x80 atCmd F.QE_Q_HEAD_HEAD q 0 rfl
  rw [Taken, State.head_takeHead _ _ _ _ (by rwa [hsame]), hsame]

theorem inflight_taken (h : s.f F.QE_Q_STATE_INFLIGHT q < 16) :
    (Taken s q).1.f F.QE_Q_STATE_INFLIGHT q = s.f F.QE_Q_STATE_INFLIGHT q + 1 := by
  have hsame := s.f_checkRead (s.slotAddr q (s.f F.QE_Q_HEAD_HEAD q)) 64 0x80 atCmd F.QE_Q_STATE_INFLIGHT q 0 rfl
  rw [Taken, State.inflight_takeHead _ _ _ _ (by rwa [hsame]), hsame]

theorem cmd_taken : (Taken s q).1.cmd q (s.f F.QE_Q_HEAD_HEAD q) = some (Taken s q).2 := by
  have h := (s.checkRead (s.slotAddr q (s.f F.QE_Q_HEAD_HEAD q)) 64 0x80 atCmd).cmd_takeHead q (s.readPkt q (s.f F.QE_Q_HEAD_HEAD q))
    (unitCode (hdr (s.readPkt q (s.f F.QE_Q_HEAD_HEAD q)) 0 8) (s.readPkt q (s.f F.QE_Q_HEAD_HEAD q)))
  rwa [State.f_checkRead _ _ _ _ _ _ _ _ rfl] at h

theorem cmd_taken_ne {a n : Nat} (h : ¬ (a = q ∧ n = s.f F.QE_Q_HEAD_HEAD q)) : (Taken s q).1.cmd a n = s.cmd a n := by
  refine (State.cmd_takeHead_ne _ _ _ _ fun ⟨hq, hn⟩ => h ⟨hq.symm, ?_⟩).trans
    (State.cmd_of_qe ((ReadFrame.refl s).checkRead _ _ _ _).qe_eq a n)
  rw [← hn, State.f_checkRead _ _ _ _ _ _ _ _ rfl]

theorem slotAddr_taken (n : Nat) : (Taken s q).1.slotAddr q n = s.slotAddr q n := by
  rw [State.slotAddr, State.qSize, f_taken s q _ _ rfl rfl, f_taken s q _ _ rfl rfl, State.slotAddr, State.qSize]

variable {s q} {op : Nat} (hr : HeadReady s q op)
include hr

theorem op_taken : (Taken s q).2.op = op := by
  obtain ⟨-, -, hop, -⟩ := hr
  rw [taken_record]
  exact hop

theorem slot_taken_clean : (Taken s q).1.poisoned ((Taken s q).1.slotAddr (Taken s q).2.q (Taken s q).2.seq) 64 = false := by
  obtain ⟨-, -, -, -, -, -, -, hclean⟩ := hr
  rw [taken_record, slotAddr_taken, State.poisoned, Taken, State.poison_takeHead]
  exact hclean

theorem dispatchHead_ready {want : List Nat → Bool} (hw : want (s.readPkt q (s.f F.QE_Q_HEAD_HEAD q)) = true) :
    s.dispatchHead q want = (Taken s q).1.dispatchTo (Taken s q).2 := by
  obtain ⟨hnone, hgo, -, hfree, hin, hnow, hpath, -⟩ := hr
  unfold State.dispatchHead
  dsimp only
  rw [State.passHead_none hnone]
  simp only [hgo, hw, hfree, hin, hnow, hpath, Bool.not_true, Bool.false_eq_true, or_self, if_false]
  rfl

/-- A row that dispatches the head's own opcode. -/
theorem completes_of_head {i : Instr} {P : State → Prop} (hq : q < 256)
    (he : exec i s = onUnit (decide (q < 256)) (done (s.dispatchHead q fun p => opIs op p)))
    (h : P ((Taken s q).1.dispatchTo (Taken s q).2)) : Completes i s P := by
  have hown : opIs op (s.readPkt q (s.f F.QE_Q_HEAD_HEAD q)) = true := by
    obtain ⟨-, -, hop, -⟩ := hr
    exact beq_iff_eq.mpr hop
  exact completes_of_onUnit he (decide_eq_true hq) (dispatchHead_ready hr hown ▸ h)

end

/-- The record of a head that is done at its dispatch. -/
theorem dispatchDone_taken (s : State) (q : Nat) : ∃ c,
    ((Taken s q).1.dispatchDone (Taken s q).2).cmd q (s.f F.QE_Q_HEAD_HEAD q) = some c ∧
    c.pkt = s.readPkt q (s.f F.QE_Q_HEAD_HEAD q) ∧ c.execDone = true ∧ c.noOutputs = true ∧ c.status = 0 := by
  obtain ⟨hkq, hkn⟩ := key_taken s q
  have hstatus : (Taken s q).2.status = 0 := by rw [taken_record]
  have hput := (Taken s q).1.cmd_putCmd_same { (Taken s q).2 with execDone := true, noOutputs := true }
  rw [State.dispatchDone, hkq, hkn, State.modCmd_of_cmd (cmd_taken s q)]
  rw [hkq, hkn] at hput
  exact ⟨_, hput, pkt_taken s q, rfl, rfl, hstatus⟩

/-! ### What each opcode leaves -/

section
variable {s : State} {q : Nat}

theorem dispatchTo_nop_taken (hr : HeadReady s q 0) : (Taken s q).1.dispatchTo (Taken s q).2 = (Taken s q).1.dispatchDone (Taken s q).2 :=
  State.dispatchTo_nop (slot_taken_clean hr) (op_taken hr)

theorem gateAdd_spec {g : Nat} (hr : HeadReady s q 0x20) (hh : s.f F.QE_Q_HEAD_HEAD q + 1 < 2 ^ F.QE_Q_HEAD_HEAD.w)
    (hg : bitsAt ((s.readPkt q (s.f F.QE_Q_HEAD_HEAD q)).getD 2 0) 0 16 = g) (hlt : g < 4096) :
    ((Taken s q).1.dispatchTo (Taken s q).2).f F.QE_Q_HEAD_HEAD q = s.f F.QE_Q_HEAD_HEAD q + 1 ∧
      ((Taken s q).1.dispatchTo (Taken s q).2).gate g =
        (s.gate g + bitsAt ((s.readPkt q (s.f F.QE_Q_HEAD_HEAD q)).getD 3 0) 0 48) % 2 ^ 48 := by
  rw [State.dispatchTo_gateAdd (slot_taken_clean hr) (op_taken hr) (by rw [pkt_taken, hg]) hlt, pkt_taken]
  refine ⟨(State.f_dispatchDone _ _ _ _ _).trans ((State.f_setF_spared (by decide)).trans (head_taken s q hh)), ?_⟩
  refine (State.f_dispatchDone _ _ _ _ _).trans ((State.gate_gateAdd _ _ _).trans ?_)
  rw [State.gate, f_taken s q _ _ rfl rfl, State.gate]

theorem gateSet_spec {g : Nat} (hr : HeadReady s q 0x21) (hh : s.f F.QE_Q_HEAD_HEAD q + 1 < 2 ^ F.QE_Q_HEAD_HEAD.w)
    (hg : bitsAt ((s.readPkt q (s.f F.QE_Q_HEAD_HEAD q)).getD 2 0) 0 16 = g) (hlt : g < 4096) :
    ((Taken s q).1.dispatchTo (Taken s q).2).f F.QE_Q_HEAD_HEAD q = s.f F.QE_Q_HEAD_HEAD q + 1 ∧
      ((Taken s q).1.dispatchTo (Taken s q).2).gate g = bitsAt ((s.readPkt q (s.f F.QE_Q_HEAD_HEAD q)).getD 3 0) 0 48 := by
  rw [State.dispatchTo_gateSet (slot_taken_clean hr) (op_taken hr) (by rw [pkt_taken, hg]) hlt, pkt_taken]
  exact ⟨(State.f_dispatchDone _ _ _ _ _).trans ((State.f_setF_spared (by decide)).trans (head_taken s q hh)),
    (State.f_dispatchDone _ _ _ _ _).trans (State.gate_gateWrite _ _ (Nat.mod_lt _ (by decide)))⟩

theorem abort_spec {a n : Nat} {t : Cmd} (hr : HeadReady s q 0x30) (hh : s.f F.QE_Q_HEAD_HEAD q + 1 < 2 ^ F.QE_Q_HEAD_HEAD.w)
    (ha : bitsAt ((s.readPkt q (s.f F.QE_Q_HEAD_HEAD q)).getD 2 0) 0 16 = a) (hn : (s.readPkt q (s.f F.QE_Q_HEAD_HEAD q)).getD 3 0 = n)
    (hq : a < 256) (hposted : n < s.f F.QE_Q_TAIL_TAIL a) (hother : ¬ (a = q ∧ n = s.f F.QE_Q_HEAD_HEAD q)) (ht : s.cmd a n = some t)
    (hret : t.retired = true) : ((Taken s q).1.dispatchTo (Taken s q).2).f F.QE_Q_HEAD_HEAD q = s.f F.QE_Q_HEAD_HEAD q + 1 ∧
      ∃ c, ((Taken s q).1.dispatchTo (Taken s q).2).cmd q (s.f F.QE_Q_HEAD_HEAD q) = some c ∧ c.status = 3 ∧ c.detail = t.status := by
  have htail : n < (Taken s q).1.f F.QE_Q_TAIL_TAIL a := by rwa [f_taken s q _ _ rfl rfl]
  obtain ⟨hkq, hkn⟩ := key_taken s q
  rw [State.dispatchTo_abort (slot_taken_clean hr) (op_taken hr),
    State.abortRun_retired (by rw [pkt_taken, ha]) (by rw [pkt_taken, hn]) hq htail (by rwa [hkq, hkn])
      ((cmd_taken_ne s q hother).trans ht) hret]
  refine ⟨head_taken s q hh, { (Taken s q).2 with status := 3, detail := t.status, execDone := true, noOutputs := true }, ?_, rfl, rfl⟩
  have hput := (Taken s q).1.cmd_putCmd_same { (Taken s q).2 with status := 3, detail := t.status, execDone := true, noOutputs := true }
  rwa [hkq, hkn] at hput

end

/-! ### The obligation -/

/-- Settles O23: each clause is the fact about its opcode, for the head as `Taken` gives it. -/
theorem dispatchComplete : Obligations.DispatchComplete := by
  intro s q hq h p hh hin
  obtain ⟨hkq, (hkn : (Taken s q).2.seq = h)⟩ := key_taken s q
  have hkp : (Taken s q).2.pkt = p := pkt_taken s q
  obtain ⟨c, hc, hpkt, hexec, hout, hstatus⟩ := dispatchDone_taken s q
  have hhead : ((Taken s q).1.dispatchDone (Taken s q).2).f F.QE_Q_HEAD_HEAD q = h + 1 :=
    (State.f_dispatchDone _ _ _ _ _).trans (head_taken s q hh)
  refine ⟨?nop, ?anyRow, ?gateAdd, ?gateSet, ?abort, ?matmul, ?vecRun⟩
  case nop =>
    intro hr
    refine completes_of_head hr hq rfl ?_
    rw [dispatchTo_nop_taken hr]
    exact ⟨hhead, (State.f_dispatchDone _ _ _ _ _).trans (inflight_taken s q hin), c, hc, hpkt, hexec, hout, hstatus⟩
  case anyRow =>
    intro hr
    refine completes_of_onUnit rfl (decide_eq_true hq) ?_
    rw [dispatchHead_ready hr rfl, dispatchTo_nop_taken hr]
    exact ⟨hhead, c, hc, hpkt, hexec⟩
  case gateAdd => exact fun hr hg => completes_of_head hr hq rfl (gateAdd_spec hr hh rfl hg)
  case gateSet => exact fun hr hg => completes_of_head hr hq rfl (gateSet_spec hr hh rfl hg)
  case abort =>
    exact fun t hr ha hposted hother ht hret => completes_of_head hr hq rfl (abort_spec hr hh rfl rfl ha hposted hother ht hret)
  case matmul =>
    intro w j hr hw
    dsimp only
    intro hs hwing hj hu
    obtain ⟨v, hv, l, k, c, hjob⟩ := State.startWing_mat hkq hkn hkp hs (op_taken hr) hwing hj hu
    refine completes_of_head hr hq rfl ?_
    rw [State.dispatchTo_wing (slot_taken_clean hr) (.inl (op_taken hr)), hkq, hw]
    exact ⟨v, l, k, c, hv, hjob⟩
  case vecRun =>
    intro w j hr hw
    dsimp only
    intro hs hwing hj hu
    obtain ⟨v, hv, l, k, c, hjob⟩ := State.startWing_vec hkq hkn hkp hs (op_taken hr) hwing hj hu
    refine completes_of_head hr hq rfl ?_
    rw [State.dispatchTo_wing (slot_taken_clean hr) (.inr (op_taken hr)), hkq, hw]
    exact ⟨v, l, k, c, hv, hjob⟩

end Sys2Proof.Claims
end

section
/-! PROOF. The memory system's commands (R227, R230 to R232, R241): the qualification override, and what a read, a write and a miss
fill at the ladle leave in memory, in the requests that wait and in the answers, and `MemoryComplete` from them. -/

namespace Sys2Proof.Machine

/-! ### The qualification override (R227) -/

/-- An admitted stack is READY, has its PASS bit, and OVERRIDE stays. -/
theorem State.admitStack_spec (s : State) (k : Nat) : (s.admitStack k).f F.FLK_MEM_STACK_STAT_STATE k = 2 ∧
    (s.admitStack k).f F.FLK_MEM_QUAL_PASS (k / 4) = s.f F.FLK_MEM_QUAL_PASS (k / 4) ||| 2 ^ (k % 4) ∧
    ∀ i, (s.admitStack k).f F.FLK_MEM_QUAL_OVERRIDE i = s.f F.FLK_MEM_QUAL_OVERRIDE i := by
  have hbit : 2 ^ (k % 4) < 2 ^ 4 := Nat.pow_lt_pow_right (by decide) (Nat.mod_lt k (by decide))
  refine ⟨State.f_setF_of_lt (by decide) (by decide), ?_, fun i => ?_⟩
  · exact (State.f_setF_spared (by decide)).trans
      (State.f_setF_of_lt (by decide) (Nat.or_lt_two_pow (s.f_lt F.FLK_MEM_QUAL_PASS (k / 4) 0) hbit))
  · exact (State.f_setF_spared (by decide)).trans (State.f_setF_spared (by decide))

/-- The first stack of a Flask completes it only where the other three have passed. -/
theorem or_one_ne_fifteen : ∀ p < 16, p ∉ [14, 15] → p ||| 1 ≠ 15 := by decide

/-- OVERRIDE stored. -/
def State.overridden (s : State) (f : Nat) : State := s.setF F.FLK_MEM_QUAL_OVERRIDE 1 f

theorem State.f_overridden {s : State} {f i j : Nat} {y : Fld} (h : F.FLK_MEM_QUAL_OVERRIDE.spares y = true) :
    (s.overridden f).f y i j = s.f y i j := State.f_setF_spared h

theorem State.override_overridden (s : State) (f : Nat) : (s.overridden f).f F.FLK_MEM_QUAL_OVERRIDE f = 1 :=
  State.f_setF_of_lt (by decide) (by decide)

theorem State.stage_overridden (s : State) (f : Nat) : (s.overridden f).stage = s.stage := State.f_overridden (by decide)

theorem State.pass_overridden_admitStack (s : State) (f : Nat) :
    ((s.overridden f).admitStack (4 * f)).f F.FLK_MEM_QUAL_PASS f = s.f F.FLK_MEM_QUAL_PASS f ||| 1 := by
  obtain ⟨-, hpass, -⟩ := (s.overridden f).admitStack_spec (4 * f)
  rwa [Nat.mul_div_cancel_left f (by decide), Nat.mul_mod_right, State.f_overridden (by decide)] at hpass

section
variable {s : State} {f : Nat} (hl : s.lcs = 1 ∨ s.lcs = 4)
include hl

theorem State.qualOverride_outside_stage6 (hs : s.stage ≠ 6) (m : Master) : s.qualOverride f m = s.overridden f := by
  rw [State.qualOverride, if_neg (by omega)]
  exact if_pos (.inl ((s.stage_overridden f).symm ▸ hs))

theorem State.qualOverride_stores (hs : s.stage ≠ 6) (m : Master) : (s.qualOverride f m).f F.FLK_MEM_QUAL_OVERRIDE f = 1 := by
  rw [State.qualOverride_outside_stage6 hl hs]
  exact s.override_overridden f

variable (hs : s.stage = 6) (ha : s.f F.EYE_SRC_STAT_ASSERTED (srcOf (66 + f) 8) = 1) (hid : s.f F.FLK_MEM_QUAL_FAIL_ID f = 1)
  (ht : s.f F.FLK_MEM_QUAL_FAIL_TRAIN f = 0) (hp : s.f F.FLK_MEM_QUAL_PASS f ∉ [14, 15])
include hs ha hid ht hp

/-- FAIL_ID names stack 4f alone, and it has trained; the Flask stays incomplete, so that the stage goes on. -/
theorem State.qualOverride_admits (m : Master) : s.qualOverride f m = (s.overridden f).admitStack (4 * f) := by
  have htrain : (s.overridden f).f F.FLK_MEM_QUAL_FAIL_TRAIN f = 0 := (State.f_overridden (by decide)).trans ht
  have hids : (s.overridden f).f F.FLK_MEM_QUAL_FAIL_ID f = 1 := (State.f_overridden (by decide)).trans hid
  have hraised : (s.overridden f).f F.EYE_SRC_STAT_ASSERTED (srcOf (66 + f) 8) = 1 := (State.f_overridden (by decide)).trans ha
  have hopen : ((s.overridden f).admitStack (4 * f)).f F.FLK_MEM_QUAL_PASS f ≠ 15 :=
    s.pass_overridden_admitStack f ▸ or_one_ne_fifteen _ (s.f_lt F.FLK_MEM_QUAL_PASS f 0) hp
  rw [State.qualOverride, if_neg (by omega), ← State.overridden]
  dsimp only
  rw [if_neg (by simp [s.stage_overridden f, hs, hraised]), hids]
  simp [foldS, List.range_succ, htrain, hopen]

theorem State.qualOverride_admits_spec (m : Master) : (s.qualOverride f m).f F.FLK_MEM_QUAL_OVERRIDE f = 1 ∧
    (s.qualOverride f m).f F.FLK_MEM_STACK_STAT_STATE (4 * f) = 2 ∧
    (s.qualOverride f m).f F.FLK_MEM_QUAL_PASS f = s.f F.FLK_MEM_QUAL_PASS f ||| 1 := by
  obtain ⟨hready, -, hover⟩ := (s.overridden f).admitStack_spec (4 * f)
  rw [State.qualOverride_admits hl hs ha hid ht hp]
  exact ⟨(hover f).trans (s.override_overridden f), hready, s.pass_overridden_admitStack f⟩
end

/-! ### Reads (R230 to R232, R241) -/

section
variable {s : State} {a n hint : Nat} {m : Master}

/-- The bytes of a range after a read of memory, in the answer. -/
theorem ReadFrame.ladleReturn_spec {t : State} (h : ReadFrame s t) (a n : Nat) : (t.ladleReturn a n).mem = s.mem ∧
    ∃ bad, (t.ladleReturn a n).out = s.out ++ [.data a (s.readBytes a n) bad] :=
  ⟨h.mem_eq, t.poisoned a n, by rw [State.ladleReturn, State.send_out, h.out_eq, State.readBytes, h.mem_eq, State.readBytes]⟩

theorem State.ladleWait_spec (s : State) (r : Fetch) : (s.ladleWait r).mem = s.mem ∧ (s.ladleWait r).ms.fetch = s.ms.fetch ++ [r] :=
  ⟨rfl, rfl⟩

theorem State.readReq_backed (hb : s.lineBacked a n m = true) : s.readReq a n hint m = s.ladleRead a n hint m.code := if_pos hb

theorem State.ladleRead_hit (hp : s.ladlePace a n = true) (hg : ∀ x ∈ sectorsOf a n, s.ladleGood x = true) (code : Nat) :
    s.ladleRead a n hint code = (s.readWith a n hint [] code atRead).ladleReturn a n :=
  if_pos (by rw [hp, Bool.true_and]; exact List.all_eq_true.mpr hg)

theorem State.ladleRead_miss (hg : ∃ x ∈ sectorsOf a n, s.ladleGood x = false) (code : Nat) :
    s.ladleRead a n hint code = s.ladleWait ⟨a, n, hint, code, none⟩ := by
  have hmiss : (sectorsOf a n).all s.ladleGood = false := List.all_eq_false.mpr (by simpa using hg)
  exact if_neg (by rw [hmiss]; simp)

/-- The state in which a waiting request is served. -/
def State.fetchTaken (s : State) (r : Fetch) : State := { s with ms := { s.ms with fetch := s.ms.fetch.erase r } }

theorem State.missFill_reads {k : Nat} {r : Fetch} (hf : s.ms.fetch.find? (fun r => stackOf r.addr == k) = some r) (hd : r.data = none)
    (hn : (s.fetchTaken r).readNow r.addr r.len r.hint = true) (errs : List Nat) (ondie : Bool) :
    ∃ t, ReadFrame s t ∧ s.missFill k errs ondie = t.ladleReturn r.addr r.len := by
  have hnow : ¬ (!(s.fetchTaken r).readNow r.addr r.len r.hint) = true := by simp [hn]
  have htaken : ReadFrame s (s.fetchTaken r) := (ReadFrame.refl s).parts _ s.latent s.poison
  rw [State.missFill, hf]
  dsimp only
  rw [hd]
  exact ⟨_, (ReadFrame.ite (htaken.bump _ _ _ _ rfl) htaken).readWith _ _ _ _ _ _, if_neg hnow⟩

end

/-! ### Writes (R231, R232) -/

section
variable {s : State} {a : Nat}

theorem State.mem_ladleBytes (s : State) (a : Nat) (bs : List Byte) : (s.ladleBytes a bs).mem = cellsWrite s.mem a bs :=
  (((ReadFrame.refl (s.writeBytes a bs)).parts _ _ _).injWord _ _).mem_eq

/-- The sector of a write that can take its bytes: a part of it is fetched where the ladle does not hold it. -/
def State.sectorReady (s : State) (a : Nat) (bs : List Byte) (m : Nat) : State :=
  let x := a / 64 * 64
  if bs.length = 64 then s
  else if s.ladleGood x then
    let s := if a % 8 = 0 then s else s.checkWords (a / 8 * 8) 8 m atWrite
    if (a + bs.length) % 8 = 0 then s else s.checkWords ((a + bs.length) / 8 * 8) 8 m atWrite
  else (s.checkWords x 64 m atWrite).fetchUnit x 0 m atWrite

theorem State.sectorReady_frame (s : State) (a : Nat) (bs : List Byte) (m : Nat) : ReadFrame s (s.sectorReady a bs m) := by
  have hfirst : ReadFrame s (if a % 8 = 0 then s else s.checkWords (a / 8 * 8) 8 m atWrite) :=
    .ite (.refl s) ((ReadFrame.refl s).checkWords _ _ _ _)
  exact .ite (.refl s) (.ite (.ite hfirst (hfirst.checkWords _ _ _ _)) (((ReadFrame.refl s).checkWords _ _ _ _).fetchUnit _ _ _ _))

theorem State.mem_storeSector (ha : a < tileBase) (hl : s.lostAt (a / 64 * 64) = false) (bs : List Byte) (hint m : Nat) :
    (s.storeSector a bs hint m).mem = cellsWrite s.mem a bs := by
  have hstored : s.storeSector a bs hint m = ((s.sectorReady a bs m).ladleAlloc (a / 64 * 64) hint true).ladleBytes a bs :=
    (if_neg (Nat.not_le.mpr ha)).trans (if_neg (by simp [hl]))
  rw [hstored, State.mem_ladleBytes, ((s.sectorReady_frame a bs m).ladleAlloc _ _ _).mem_eq]

theorem sectorsOf_one (a : Nat) : sectorsOf a 1 = [a / 64 * 64] := by simp [sectorsOf, natRange]

theorem State.storeWith_byte (s : State) (a : Nat) (b : Byte) (hint m : Nat) : s.storeWith a [b] hint m = s.storeSector a [b] hint m := by
  have hlo : max a (a / 64 * 64) = a := by omega
  have hhi : min a (a / 64 * 64 + 63) = a := by omega
  simp [State.storeWith, sectorsOf_one, foldS, hlo, hhi]

theorem State.writeReq_backed {bs : List Byte} {m : Master} (hb : s.lineBacked a bs.length m = true) (hw : s.inWindow a = false)
    (hint : Nat) : s.writeReq a bs hint m = s.ladleWrite a bs hint m.code := by
  simp [State.writeReq, hb, State.claimIf, hw]

theorem State.mem_ladleWrite_byte {b : Byte} (hn : s.writeNow a 1 = true) (ha : a < tileBase) (hl : s.lostAt (a / 64 * 64) = false)
    (hint m : Nat) : (s.ladleWrite a [b] hint m).mem = cellSet s.mem a b := by
  have hnow : s.ladleWrite a [b] hint m = s.storeWith a [b] (s.hintOf a hint) m := if_pos hn
  rw [hnow, State.storeWith_byte, State.mem_storeSector ha hl]
  rfl

theorem State.ladleWrite_waits {bs : List Byte} (hn : s.writeNow a bs.length = false) (hint m : Nat) :
    s.ladleWrite a bs hint m = s.ladleWait ⟨a, bs.length, hint, m, some bs⟩ := if_neg (by simp [hn])

end

end Sys2Proof.Machine

namespace Sys2Proof.Claims
open Sys2Proof Sys2Proof.Machine

/-! ### The obligation -/

/-- Settles O31: each clause is the fact about its operation. -/
theorem memoryComplete : Obligations.MemoryComplete := by
  intro s a n hint k bs m hk
  refine ⟨?override, ?admits, ?hit, ?miss, ?byte, ?waits, ?fill⟩
  case override => exact fun f hf hl => completes_of_onUnit rfl (decide_eq_true hf) fun hs => State.qualOverride_stores hl hs m
  case admits =>
    exact fun f hf hl hs ha hid ht hp =>
      completes_of_onUnit rfl (decide_eq_true hf) (State.qualOverride_admits_spec hl hs ha hid ht hp m)
  case hit =>
    intro hline hb hp hg
    refine completes_of_onUnit rfl hline ?_
    rw [State.readReq_backed hb, State.ladleRead_hit hp hg]
    exact ((ReadFrame.refl s).readWith _ _ _ _ _ _).ladleReturn_spec a n
  case miss =>
    intro hline hb hg
    refine completes_of_onUnit rfl hline ?_
    rw [State.readReq_backed hb, State.ladleRead_miss hg]
    exact s.ladleWait_spec _
  case byte =>
    intro b hb hw hn ha hl
    refine completes_of_onUnit rfl (by simp [oneLine]) ?_
    rw [State.writeReq_backed hb hw]
    exact State.mem_ladleWrite_byte hn ha hl hint m.code
  case waits =>
    intro hline hb hw hn
    refine completes_of_onUnit rfl hline ?_
    rw [State.writeReq_backed hb hw, State.ladleWrite_waits hn]
    exact s.ladleWait_spec _
  case fill =>
    intro r errs ondie hf hd hn
    obtain ⟨t, ht, hserved⟩ := State.missFill_reads hf hd hn errs ondie
    refine completes_of_onUnit rfl (decide_eq_true hk) ?_
    rw [hserved]
    exact ht.ladleReturn_spec r.addr r.len

end Sys2Proof.Claims
end

section
/-! PROOF. The service of a stack (R225, R238, R242, R243): its counts, its case temperature, scrub reads, parity retries and
retrainings, and `StackServiceComplete` from them. A stack that retrains successfully at 95.0 degrees or more returns to HOT
(log entry 107). -/

namespace Sys2Proof.Machine

/-! ### Refresh (R225) -/

theorem State.refreshNow_counts {s : State} {k : Nat} (h : s.stackOn k = true) :
    mgetD (s.refreshNow k).ms.refresh k 0 = mgetD s.ms.refresh k 0 + 1 := by
  rw [State.refreshNow, if_pos h]
  exact mgetD_mset_same _ _ _ _

theorem State.rfmNow_counts {s : State} {k : Nat} (h : s.stackOn k = true) :
    mgetD (s.rfmNow k).ms.rfm k 0 = mgetD s.ms.rfm k 0 + 1 := by
  rw [State.rfmNow, if_pos h]
  exact mgetD_mset_same _ _ _ _

/-! ### The case temperature (R238) -/

theorem toSigned_ofSigned_satSigned {w : Nat} {n : Int} (hw : 0 < w) (hl : -2 ^ (w - 1) ≤ n) (hu : n < 2 ^ (w - 1)) :
    toSigned w (ofSigned w (satSigned w n)) = n := by
  have hsat : satSigned w n = n := by
    unfold satSigned
    push_cast
    rw [if_neg (not_lt.mpr hl), if_neg (not_le.mpr hu)]
  rw [hsat, toSigned_ofSigned hw hl hu]

theorem State.f_sensorStore {s : State} {n : Nat} {t : Int} {y : Fld} {i j : Nat} (htemp : F.THM_SENS_TEMP.spares y = true)
    (hmax : F.THM_SENS_MAX.spares y = true) : (s.sensorStore n t).f y i j = s.f y i j := by
  unfold State.sensorStore
  dsimp only
  split
  · rw [State.f_setF_spared hmax, State.f_setF_spared htemp]
  · exact State.f_setF_spared htemp

/-- The refresh rate a case temperature asks for. -/
def State.rateShown (s : State) (k : Nat) (t : Int) : State :=
  if t > 850 then s.setF F.FLK_MEM_STACK_STAT_REFRESH_2X 1 k
  else if t ≤ 820 then s.setF F.FLK_MEM_STACK_STAT_REFRESH_2X 0 k else s

/-- A case temperature in its sensor, in CASE_C and in the refresh rate. -/
def State.caseShown (s : State) (k : Nat) (t : Int) : State :=
  ((s.sensorStore (74 + k) t).setF F.FLK_MEM_STACK_STAT_CASE_C (ofSigned 8 (satSigned 8 (t / 10))) k).rateShown k t

/-- HOT and its end by a case temperature. -/
def State.hotJudged (s : State) (k : Nat) (t : Int) : State :=
  if s.f F.FLK_MEM_STACK_STAT_STATE k = 2 ∧ 950 ≤ t then s.setF F.FLK_MEM_STACK_STAT_STATE 3 k
  else if s.f F.FLK_MEM_STACK_STAT_STATE k = 3 ∧ t ≤ 900 then (s.setF F.FLK_MEM_STACK_STAT_STATE 2 k).backOwed k else s

/-- STACK_HOT of THM_STATUS by the states of the stacks. -/
def State.hotShown (s : State) : State :=
  s.condition F.THM_STATUS_STACK_HOT (srcOf 84 9) ((List.range 16).any fun j => s.f F.FLK_MEM_STACK_STAT_STATE j == 3)

theorem State.stackTemp_below_stop (s : State) (k : Nat) {t : Int} (ht : t < 1000) :
    s.stackTemp k t = ((s.caseShown k t).hotJudged k t).hotShown := if_neg (by omega)

section
variable {s : State} {k i j : Nat} {t : Int} {y : Fld}

theorem ReadFrame.backOwed {s t : State} (h : ReadFrame s t) (k : Nat) : ReadFrame s (t.backOwed k) :=
  .foldS _ (h.parts _ t.latent t.poison) fun _ _ h => h.ladleClean _

theorem State.f_rateShown (h : F.FLK_MEM_STACK_STAT_REFRESH_2X.spares y = true) : (s.rateShown k t).f y i j = s.f y i j := by
  unfold State.rateShown
  split
  · exact State.f_setF_spared h
  · split
    · exact State.f_setF_spared h
    · rfl

theorem State.refresh_rateShown (s : State) (k : Nat) (t : Int) : (s.rateShown k t).f F.FLK_MEM_STACK_STAT_REFRESH_2X k =
    if t > 850 then 1 else if t ≤ 820 then 0 else s.f F.FLK_MEM_STACK_STAT_REFRESH_2X k := by
  unfold State.rateShown
  split
  · exact State.f_setF_of_lt (by decide) (by decide)
  · split
    · exact State.f_setF_of_lt (by decide) (by decide)
    · rfl

theorem State.refresh_caseShown (s : State) (k : Nat) (t : Int) : (s.caseShown k t).f F.FLK_MEM_STACK_STAT_REFRESH_2X k =
    if t > 850 then 1 else if t ≤ 820 then 0 else s.f F.FLK_MEM_STACK_STAT_REFRESH_2X k := by
  rw [State.caseShown, State.refresh_rateShown, State.f_setF_spared (by decide), State.f_sensorStore (by decide) (by decide)]

theorem State.temp_caseShown (s : State) (k : Nat) (t : Int) :
    (s.caseShown k t).f F.THM_SENS_TEMP (74 + k) = ofSigned 16 (satSigned 16 t) := by
  rw [State.caseShown, State.f_rateShown (by decide), State.f_setF_spared (by decide), State.temp_sensorStore]

theorem State.state_caseShown (s : State) (k : Nat) (t : Int) :
    (s.caseShown k t).f F.FLK_MEM_STACK_STAT_STATE k = s.f F.FLK_MEM_STACK_STAT_STATE k := by
  rw [State.caseShown, State.f_rateShown (by decide), State.f_setF_spared (by decide), State.f_sensorStore (by decide) (by decide)]

theorem State.f_hotJudged (hs : F.FLK_MEM_STACK_STAT_STATE.spares y = true) (hr : readWrites y.reg = false) :
    (s.hotJudged k t).f y i j = s.f y i j := by
  unfold State.hotJudged
  split
  · exact State.f_setF_spared hs
  · split
    · exact (((ReadFrame.refl _).backOwed k).f_eq _ _ _ hr).trans (State.f_setF_spared hs)
    · rfl

theorem State.hotJudged_hot (h : s.f F.FLK_MEM_STACK_STAT_STATE k = 2) (ht : 950 ≤ t) :
    (s.hotJudged k t).f F.FLK_MEM_STACK_STAT_STATE k = 3 := by
  rw [State.hotJudged, if_pos ⟨h, ht⟩]
  exact State.f_setF_of_lt (by decide) (by decide)

/-- Below 100.0 degrees what follows a stack's reading touches the thermal and power registers alone. -/
theorem State.f_stackReading (hk : k < 16) (ht : t < 1000) (hy : thermalReg y.reg = false) (part : Nat) :
    (s.sensorUpdate (74 + k) part t).f y i j = ((s.caseShown k t).hotJudged k t).f y i j := by
  rw [State.sensorUpdate, if_neg (by omega), if_pos (by omega), Nat.add_sub_cancel_left, State.stackTemp_below_stop s k ht]
  exact ((ThermalFrame.refl _).condition _ _ _ rfl).baskEval _ _ _ hy

theorem State.stackReading_spec (hk : k < 16) (hl : -1280 ≤ t) (ht : t < 1000) :
    (s.sensorUpdate (74 + k) 0 t).fS F.THM_SENS_TEMP (74 + k) = t ∧
      (s.sensorUpdate (74 + k) 0 t).fS F.FLK_MEM_STACK_STAT_CASE_C k = t / 10 ∧
      (s.sensorUpdate (74 + k) 0 t).f F.FLK_MEM_STACK_STAT_REFRESH_2X k =
        (if t > 850 then 1 else if t ≤ 820 then 0 else s.f F.FLK_MEM_STACK_STAT_REFRESH_2X k) := by
  refine ⟨?_, ?_, ?_⟩
  · rw [State.fS, State.f_stackReading hk ht rfl, State.f_hotJudged (by decide) rfl, State.temp_caseShown]
    exact toSigned_ofSigned_satSigned (w := 16) (by decide) (by norm_num; omega) (by norm_num; omega)
  · rw [State.fS, State.case_sensorUpdate s hk 0 ht]
    exact toSigned_ofSigned_satSigned (w := 8) (by decide) (by norm_num; omega) (by norm_num; omega)
  · rw [State.f_stackReading hk ht rfl, State.f_hotJudged (by decide) rfl, State.refresh_caseShown]

theorem State.stackReading_hot (hk : k < 16) (hl : 950 ≤ t) (ht : t < 1000) (h : s.f F.FLK_MEM_STACK_STAT_STATE k = 2) :
    (s.sensorUpdate (74 + k) 0 t).f F.FLK_MEM_STACK_STAT_STATE k = 3 := by
  rw [State.f_stackReading hk ht rfl]
  exact State.hotJudged_hot ((s.state_caseShown k t).trans h) hl

/-! ### Scrub reads (R242) -/

/-- The unit a scrub step reads, where the ladle does not hold it dirty. -/
def State.scrubbed (s : State) (k errs : Nat) : State :=
  let x := k * stackSize + mgetD s.ms.scrub k 0 % stackSize
  if s.ladleDirty x then s else (s.latentCheck x Master.sp.code atBack).unitRead k x errs Master.sp.code atBack

theorem State.scrubbed_mem (s : State) (k errs : Nat) : (s.scrubbed k errs).mem = s.mem :=
  (ReadFrame.ite (.refl s) (((ReadFrame.refl s).latentCheck _ _ _).unitRead _ _ _ _ _)).mem_eq

theorem State.scrubUnit_spec (s : State) (k errs : Nat) :
    mgetD (s.scrubUnit k errs).ms.scrub k 0 = mgetD s.ms.scrub k 0 + 64 ∧ (s.scrubUnit k errs).mem = s.mem :=
  ⟨mgetD_mset_same (s.scrubbed k errs).ms.scrub k _ _, s.scrubbed_mem k errs⟩

theorem State.scrubNow_one (he : s.f F.FLK_MEM_CTRL_SCRUB_EN (k / 4) = 1) (hs : s.f F.FLK_MEM_STACK_STAT_STATE k = 2) (errs : Nat) :
    s.scrubNow k [errs] = s.scrubUnit k errs := if_pos ⟨he, hs⟩

/-! ### Retrainings (R243) -/

theorem State.stackRetrain_spec (s : State) (k : Nat) : (s.stackRetrain k).f F.FLK_MEM_STACK_STAT_STATE k = 1 ∧
    (s.stackRetrain k).f F.FLK_MEM_STACK_STAT_RETRAINS k =
      min (s.f F.FLK_MEM_STACK_STAT_RETRAINS k + 1) (2 ^ F.FLK_MEM_STACK_STAT_RETRAINS.w - 1) := by
  constructor
  · exact (State.f_bump_spared (by decide)).trans (State.f_setF_of_lt (by decide) (by decide))
  · rw [State.stackRetrain, State.f_bump_same _ _ _ _ _ (by decide), State.f_setF_spared (by decide)]
    rfl

theorem State.phyLoss_retrains (h : s.stackOn k = true) : s.phyLoss k = s.stackRetrain k := if_pos h

/-- The attempts made at a parity error. -/
def State.setParity (s : State) (k n : Nat) : State := { s with ms := { s.ms with parity := mset s.ms.parity k n } }

theorem State.parity_setParity (s : State) (k n : Nat) : mgetD (s.setParity k n).ms.parity k 0 = n := mgetD_mset_same _ _ _ _

/-- A retry counted. -/
def State.retried (s : State) (k : Nat) : State := s.bump F.FLK_MEM_STACK_ECC_PARITY_RETRY 1 k

theorem State.parityError_ok (h : s.stackOn k = true) : s.parityError k true = (s.retried k).setParity k 0 := by
  rw [State.parityError, if_neg (by simp [h])]
  rfl

theorem State.parityError_again (h : s.stackOn k = true) (hn : mgetD s.ms.parity k 0 < 2) :
    s.parityError k false = (s.retried k).setParity k (mgetD s.ms.parity k 0 + 1) := by
  rw [State.parityError, if_neg (by simp [h])]
  exact if_neg (c := 3 ≤ mgetD s.ms.parity k 0 + 1) (by omega)

theorem State.parityError_third (h : s.stackOn k = true) (hn : 2 ≤ mgetD s.ms.parity k 0) :
    s.parityError k false = (s.retried k).stackRetrain k := by
  rw [State.parityError, if_neg (by simp [h])]
  exact if_pos (c := 3 ≤ mgetD s.ms.parity k 0 + 1) (by omega)

theorem State.parityError_ok_spec (h : s.stackOn k = true) : mgetD (s.parityError k true).ms.parity k 0 = 0 ∧
    (s.parityError k true).f F.FLK_MEM_STACK_ECC_PARITY_RETRY k =
      min (s.f F.FLK_MEM_STACK_ECC_PARITY_RETRY k + 1) (2 ^ F.FLK_MEM_STACK_ECC_PARITY_RETRY.w - 1) := by
  rw [State.parityError_ok h]
  exact ⟨State.parity_setParity _ _ _, State.f_bump_same s _ _ _ _ (by decide)⟩

section
variable (h : s.f F.FLK_MEM_STACK_STAT_STATE k = 1)
include h

theorem State.retrainDone_hot (ht : 950 ≤ s.fS F.THM_SENS_TEMP (74 + k)) :
    (s.retrainDone k true).f F.FLK_MEM_STACK_STAT_STATE k = 3 := by
  rw [State.retrainDone, if_neg (not_not_intro h), if_pos rfl, if_pos ht]
  exact State.f_setF_of_lt (by decide) (by decide)

theorem State.retrainDone_ready (ht : s.fS F.THM_SENS_TEMP (74 + k) < 950) :
    (s.retrainDone k true).f F.FLK_MEM_STACK_STAT_STATE k = 2 := by
  rw [State.retrainDone, if_neg (not_not_intro h), if_pos rfl, if_neg (not_le.mpr ht)]
  exact (((ReadFrame.refl _).backOwed k).f_eq _ _ _ rfl).trans (State.f_setF_of_lt (by decide) (by decide))

theorem State.retrainDone_lost : (s.retrainDone k false).f F.FLK_MEM_STACK_STAT_STATE k = 4 := by
  rw [State.retrainDone, if_neg (not_not_intro h), if_neg Bool.false_ne_true, State.f_raiseLevel _ _ _ _ _ _ rfl]
  exact (((ReadFrame.refl _).backOwed k).f_eq _ _ _ rfl).trans (State.f_setF_of_lt (by decide) (by decide))
end

end

end Sys2Proof.Machine

namespace Sys2Proof.Claims
open Sys2Proof Sys2Proof.Machine

/-! ### The obligation -/

/-- Settles O32: each clause is the fact about its operation. -/
theorem stackServiceComplete : Obligations.StackServiceComplete := by
  intro s k hk
  have hstack : decide (k < 16) = true := decide_eq_true hk
  refine ⟨?refresh, ?rfm, ?temp, ?hot, ?scrub, ?retryOk, ?retryFails, ?thirdFails, ?lockLoss, ?staysHot, ?ready, ?lost⟩
  case refresh => exact fun h => completes_of_onUnit rfl hstack (State.refreshNow_counts h)
  case rfm => exact fun h => completes_of_onUnit rfl hstack (State.rfmNow_counts h)
  case temp => exact fun t hl ht _ _ _ => completes_of_onUnit rfl hstack (State.stackReading_spec hk hl ht)
  case hot => exact fun t hl ht _ h => completes_of_onUnit rfl hstack (State.stackReading_hot hk hl ht h)
  case scrub =>
    intro he hs
    refine completes_of_onUnit rfl hstack ?_
    rw [State.scrubNow_one he hs]
    exact s.scrubUnit_spec k 0
  case retryOk => exact fun h => completes_of_onUnit rfl hstack (State.parityError_ok_spec h)
  case retryFails =>
    intro h hn
    refine completes_of_onUnit rfl hstack ?_
    rw [State.parityError_again h hn]
    exact State.parity_setParity _ _ _
  case thirdFails =>
    intro h hn
    refine completes_of_onUnit rfl hstack ?_
    rw [State.parityError_third h hn]
    exact (State.stackRetrain_spec _ k).1
  case lockLoss =>
    intro h
    refine completes_of_onUnit rfl hstack ?_
    rw [State.phyLoss_retrains h]
    exact s.stackRetrain_spec k
  case staysHot => exact fun h ht => completes_of_onUnit rfl hstack (State.retrainDone_hot h ht)
  case ready => exact fun h ht => completes_of_onUnit rfl hstack (State.retrainDone_ready h ht)
  case lost => exact fun h => completes_of_onUnit rfl hstack (State.retrainDone_lost h)

end Sys2Proof.Claims
end

section
/-! PROOF. The die-to-die links (R257 to R271): frames received, NAKs and link control, slices, mode changes and the retraining of an
edge, and `DieLinksComplete` from them. -/

namespace Sys2Proof.Machine

section
variable {s t : State} {l dir x c seq f n i j : Nat} {y : Fld} {data : List Byte}

/-! ### Classes, directions and edges -/

@[simp] theorem State.d2dCls_setD2dCls_same (s : State) (l dir c : Nat) (k : D2dCls) : (s.setD2dCls l dir c k).d2dCls l dir c = k :=
  mgetD_mset_same _ _ _ _

@[simp] theorem State.edge_setEdge_same (s : State) (f : Nat) (e : EdgeSt) : (s.setEdge f e).edge f = e := mgetD_mset_same _ _ _ _

theorem State.edge_of_d2d (h : t.d2d = s.d2d) (f : Nat) : t.edge f = s.edge f := by rw [State.edge, h, State.edge]

/-! ### The tag of a data frame (Table 9-3) -/

/-- The tag of a data frame of a class. -/
def dataTag (c seq : Nat) : Nat := c + 8 + 16 * seq

theorem class_dataTag (hc : c < 8) (seq : Nat) : bitsAt (dataTag c seq) 0 3 = c := by
  rw [show dataTag c seq = (1 + 2 * seq) * 2 ^ 3 + c by unfold dataTag; omega]
  exact bitsAt_mul_add_low hc

theorem data_dataTag (hc : c < 8) (seq : Nat) : bitsAt (dataTag c seq) 3 1 = 1 := by
  rw [show dataTag c seq = (1 + 2 * seq) * 2 ^ 3 + c by unfold dataTag; omega]
  refine (bitsAt_mul_add_high hc 0 1).trans ?_
  rw [show 1 + 2 * seq = seq * 2 ^ 1 + 1 by omega]
  exact bitsAt_mul_add_low (by decide)

theorem seq_dataTag (hc : c < 8) (hseq : seq < 4096) : bitsAt (dataTag c seq) 4 12 = seq := by
  rw [show dataTag c seq = seq * 2 ^ 4 + (8 + c) by unfold dataTag; omega]
  exact (bitsAt_mul_add_high (l := 4) (by omega) 0 12).trans (bitsAt_of_lt hseq)

theorem lt_six_of_mem_linkClasses (h : c ∈ linkClasses l) : c < 6 := by
  have hall : ∀ k ∈ linkClasses l, k < 6 := by unfold linkClasses; split <;> decide
  exact hall c h

/-! ### Delivery in order (R258) -/

theorem State.deliver_nothing (h : (s.d2dCls l dir c).early = []) (n : Nat) : s.deliver l dir c n = s := by
  cases n with
  | zero => rfl
  | succ n => simp [State.deliver, h]

/-- The one frame held is delivered when its turn has come. -/
theorem State.deliver_one {r : D2dFrame} (he : (s.d2dCls l dir c).early = [r]) (hx : (s.d2dCls l dir c).expect = r.seq) (n : Nat) :
    s.deliver l dir c (n + 1) =
      (s.setD2dCls l dir c { s.d2dCls l dir c with expect := (r.seq + 1) % 4096, early := [] }).send (.d2dData l dir c r.seq r.data) := by
  simp only [State.deliver, he, hx, List.find?_cons, List.filter_cons, List.filter_nil, beq_self_eq_true, bne_self_eq_false]
  exact State.deliver_nothing (congrArg D2dCls.early (State.d2dCls_setD2dCls_same s l dir c _)) n

/-- A frame of the expected SEQ is delivered at once. -/
theorem State.frameIn_expected (hx : (s.d2dCls l dir c).expect = seq) (he : (s.d2dCls l dir c).early = [])
    (x : Nat) (data : List Byte) : (s.frameIn l dir c x seq data).out = s.out ++ [.d2dData l dir c seq data] ∧
      ((s.frameIn l dir c x seq data).d2dCls l dir c).expect = (seq + 1) % 4096 := by
  have hnew : (seq + 4096 - (s.d2dCls l dir c).expect) % 4096 < 2048 ∧
      (!((s.d2dCls l dir c).early.any fun r => r.seq == seq)) = true := by
    rw [hx, he, Nat.add_sub_cancel_left]
    exact ⟨by decide, rfl⟩
  rw [State.frameIn, if_pos hnew, he, List.nil_append,
    State.deliver_one (r := ⟨seq, data, x⟩) (by rw [State.d2dCls_setD2dCls_same]) (by rw [State.d2dCls_setD2dCls_same, hx])]
  exact ⟨rfl, congrArg D2dCls.expect (State.d2dCls_setD2dCls_same _ l dir c _)⟩

theorem State.sendControl_out (s : State) (l dir : Nat) : ∃ msg, (s.sendControl l dir).out = s.out ++ [msg] := ⟨_, rfl⟩

theorem State.d2dCls_sendControl (s : State) (l dir l' dir' c : Nat) : (s.sendControl l dir).d2dCls l' dir' c = s.d2dCls l' dir' c := rfl

theorem State.frameAccept_expected (hh : s.rxHeld l dir = false) (hx : (s.d2dCls l dir c).expect = seq)
    (he : (s.d2dCls l dir c).early = []) (x : Nat) (data : List Byte) :
    (∃ msg, (s.frameAccept l dir c x seq data).out = s.out ++ [.d2dData l dir c seq data, msg]) ∧
      ((s.frameAccept l dir c x seq data).d2dCls l dir c).expect = (seq + 1) % 4096 := by
  obtain ⟨hout, hexpect⟩ := State.frameIn_expected hx he x data
  obtain ⟨msg, hmsg⟩ := (s.frameIn l dir c x seq data).sendControl_out l dir
  rw [State.frameAccept, hh, if_neg Bool.false_ne_true, State.d2dCls_sendControl, hmsg, hout, List.append_assoc]
  exact ⟨⟨msg, rfl⟩, hexpect⟩

/-! ### A new data frame on its way (R258, R266) -/

/-- A data frame is sent new: its class's turn is counted, and it stands in the retry buffer. -/
def State.sentNew (s : State) (l dir x c seq : Nat) (data : List Byte) (d : D2dDir) : State :=
  (s.setD2dDir l dir d).setD2dCls l dir c ((s.d2dCls l dir c).sent seq x data)

section
variable (s : State) (l dir x c seq : Nat) (data : List Byte) (d : D2dDir)

@[simp] theorem State.f_sentNew (y : Fld) (i j : Nat) : (s.sentNew l dir x c seq data d).f y i j = s.f y i j := rfl

@[simp] theorem State.margin_sentNew : (s.sentNew l dir x c seq data d).margin = s.margin := rfl

@[simp] theorem State.wing_sentNew (w : Nat) : (s.sentNew l dir x c seq data d).wing w = s.wing w := rfl

@[simp] theorem State.held_sentNew (n : Nat) : (s.sentNew l dir x c seq data d).held n = s.held n := by
  simp only [State.held, State.examined, State.wingState, State.f_sentNew, State.margin_sentNew, State.wing_sentNew]

theorem State.d2dCls_sentNew : (s.sentNew l dir x c seq data d).d2dCls l dir c = (s.d2dCls l dir c).sent seq x data :=
  State.d2dCls_setD2dCls_same _ _ _ _ _

theorem State.rxHeld_sentNew : (s.sentNew l dir x c seq data d).rxHeld l dir = s.rxHeld l dir := by
  simp only [State.rxHeld, State.held_sentNew]
end

/-- What the receiver makes of a frame as it arrives. -/
def State.arrives (s : State) (l dir x tag : Nat) (a : Nat × List Byte × Bool) : State :=
  if !a.2.2 || bitsAt a.1 3 1 == 0 || !(linkClasses l).contains (bitsAt a.1 0 3) then s.frameFails l dir x tag
  else s.frameAccept l dir (bitsAt a.1 0 3) x (bitsAt a.1 4 12) a.2.1

theorem State.arrives_good (hc : c ∈ linkClasses l) (hseq : seq < 4096) (x : Nat) (data : List Byte) :
    s.arrives l dir x (dataTag c seq) (dataTag c seq, data, true) = s.frameAccept l dir c x seq data := by
  have hc8 : c < 8 := (lt_six_of_mem_linkClasses hc).trans (by decide)
  simp [State.arrives, class_dataTag hc8, data_dataTag hc8, seq_dataTag hc8 hseq, hc]

theorem State.injFrame_other_target (h : s.f F.EYE_INJ_CTRL_TARGET ≠ 3) (l dir : Nat) : s.injFrame l dir = (false, s) :=
  if_pos (.inr (.inr (.inl h)))

theorem State.rxRoom_of_free (h : s.rxHeld l dir = false) (x : Nat) : s.rxRoom l dir x = true := by simp [State.rxRoom, h]

section
variable {offered : List Nat} {d : D2dDir} (hc : c ∈ linkClasses l) (hseq : seq < 4096) (hh : s.rxHeld l dir = false)
  (hnew : (s.d2dCls l dir c).known seq = false) (hmay : s.maySend l dir c seq offered = some d)
include hc hseq hh hnew hmay

/-- A frame not sent before that its sender may send and its receiver has room for goes over the wires. -/
theorem State.dataFrame_sends (x : Nat) (data : List Byte) (flips : Nat) :
    s.dataFrame l dir x (dataTag c seq) data flips offered =
      ((s.sentNew l dir x c seq data d).injFrame l dir).2.arrives l dir x (dataTag c seq)
        (frameArrives (dataTag c seq) data flips ((s.sentNew l dir x c seq data d).injFrame l dir).1) := by
  have hc8 : c < 8 := (lt_six_of_mem_linkClasses hc).trans (by decide)
  have hheld : (!(linkClasses l).contains c || !s.rxRoom l dir x) = false := by simp [hc, State.rxRoom_of_free hh]
  unfold State.dataFrame
  rw [class_dataTag hc8, seq_dataTag hc8 hseq]
  dsimp only
  rw [hheld, hnew, hmay, if_neg Bool.false_ne_true, if_neg Bool.false_ne_true]
  rfl

/-- A frame of the expected SEQ that is not damaged on the way is delivered. -/
theorem State.dataFrame_expected (hx : (s.d2dCls l dir c).expect = seq) (he : (s.d2dCls l dir c).early = [])
    (ht : s.f F.EYE_INJ_CTRL_TARGET ≠ 3) (ha : frameArrives (dataTag c seq) data 0 false = (dataTag c seq, data, true)) (x : Nat) :
    (∃ msg, (s.dataFrame l dir x (dataTag c seq) data 0 offered).out = s.out ++ [.d2dData l dir c seq data, msg]) ∧
      ((s.dataFrame l dir x (dataTag c seq) data 0 offered).d2dCls l dir c).expect = (seq + 1) % 4096 := by
  have hinj : (s.sentNew l dir x c seq data d).injFrame l dir = (false, s.sentNew l dir x c seq data d) :=
    State.injFrame_other_target (by rwa [State.f_sentNew]) l dir
  rw [State.dataFrame_sends hc hseq hh hnew hmay, hinj, ha, State.arrives_good hc hseq]
  refine State.frameAccept_expected ?_ ?_ ?_ x data
  · rw [State.rxHeld_sentNew, hh]
  · rw [State.d2dCls_sentNew, D2dCls.sent, hx]
  · rw [State.d2dCls_sentNew, D2dCls.sent, he]
end

theorem State.frameReceive_data (hon : s.sliceOn l dir x = true) (hp : s.linkPasses l = true) (hc : c < 6) (seq : Nat)
    (data : List Byte) (flips : Nat) (offered : List Nat) : s.frameReceive l dir x (dataTag c seq) data flips offered =
      (s.drainRx l dir).dataFrame l dir x (dataTag c seq) data flips offered := by
  have hc8 : c < 8 := hc.trans (by decide)
  rw [State.frameReceive, if_neg (by simp [hon, hp])]
  simp only [class_dataTag hc8, data_dataTag hc8]
  rw [if_pos trivial, if_neg (by omega)]

/-! ### NAK and link control (R257, R266) -/

theorem State.nakReceive_resends {r : D2dFrame} {y : Nat} {ys : List Nat} (hr : (s.d2dCls l dir c).retry.find? (fun r => r.seq == seq) = some r)
    (hp : s.linkPasses l = true) (hs : s.slicesAfter l dir r.slice = y :: ys) :
    s.nakReceive l dir c seq =
      (s.setD2dCls l dir c ((s.d2dCls l dir c).sent seq y r.data)).send (.d2dFrame l dir y c seq r.data) := by
  simp only [State.nakReceive, hr, State.d2dResend, hs, hp]
  simp [foldS, hr]

theorem State.linkControl_first {a : Nat} (ha : (s.d2dCls l dir 0).ahead a ≤ (s.d2dCls l dir 0).ahead (s.d2dCls l dir 0).next) (cr : Nat) :
    ((s.linkControl l dir [a] [cr]).d2dCls l dir 0).acked = a % 4096 ∧ ((s.linkControl l dir [a] [cr]).d2dCls l dir 0).credits = cr := by
  unfold State.linkControl linkClasses
  split <;> simp [foldS, ha]

/-! ### Frames that waited are sent again (R262, R268) -/

section
variable {β : Type} (g : State → β) (hcls : ∀ s l dir c k, g (State.setD2dCls s l dir c k) = g s)
  (hdir : ∀ s l dir d, g (State.setD2dDir s l dir d) = g s) (hsend : ∀ s m, g (State.send s m) = g s)
include hcls hdir hsend

/-- Resending touches classes and directions, and sends. -/
theorem State.d2dResend_keeps (s : State) (l dir x : Nat) (fs : List (Nat × Nat)) : g (s.d2dResend l dir x fs) = g s := by
  unfold State.d2dResend
  dsimp only
  split
  · exact hdir _ _ _ _
  · refine foldS_keeps g (fun p t => ?_) _ _
    split
    · rfl
    · rw [hsend, hcls]

theorem State.flushDue_keeps (s : State) (l : Nat) : g (s.flushDue l) = g s := by
  unfold State.flushDue
  split
  · rfl
  · refine foldS_keeps g (fun dir t => ?_) _ _
    refine (foldS_keeps g (fun p u => ?_) _ _).trans (hdir _ _ _ _)
    dsimp only
    split
    · rfl
    · split
      · exact hdir _ _ _ _
      · exact State.d2dResend_keeps g hcls hdir hsend _ _ _ _ _
end

@[simp] theorem State.f_flushDue (s : State) (l : Nat) (y : Fld) (i j : Nat) : (s.flushDue l).f y i j = s.f y i j :=
  State.flushDue_keeps (fun t => t.f y i j) (fun _ _ _ _ _ => rfl) (fun _ _ _ _ => rfl) (fun _ _ => rfl) s l

@[simp] theorem State.edge_flushDue (s : State) (l f : Nat) : (s.flushDue l).edge f = s.edge f :=
  State.flushDue_keeps (fun t => t.edge f) (fun _ _ _ _ _ => rfl) (fun _ _ _ _ => rfl) (fun _ _ => rfl) s l

/-! ### Slices (R264, R267) -/

theorem EyeFrame.edgeCheck (h : EyeFrame s t) (f : Nat) : EyeFrame s (t.edgeCheck f) :=
  (h.raiseLevel _ _).ite (h.ite (h.lowerLevel _))

theorem State.f_edgeCheck (hy : eyeReg y.reg = false) (f : Nat) : (s.edgeCheck f).f y i j = s.f y i j :=
  ((EyeFrame.refl s).edgeCheck f).f_eq _ _ _ hy

theorem State.edge_edgeCheck (s : State) (f : Nat) : (s.edgeCheck f).edge f = s.edge f :=
  State.edge_of_d2d ((EyeFrame.refl s).edgeCheck f).d2d_eq f

theorem State.active_setSlice (hf : f < 4) (on : Bool) :
    (s.setSlice f n on).f F.FLK_D2D_SLICE_ACTIVE f n = if on then 1 else 0 := by
  rw [State.setSlice, if_pos hf, State.f_edgeCheck rfl, State.countEdge, State.f_setF_spared (by decide),
    State.f_setF_spared (by decide)]
  exact State.f_setF_of_lt (by decide) (by cases on <;> decide)

theorem State.edge_setSlice (hf : f < 4) (on : Bool) : (s.setSlice f n on).edge f = s.edge f := by
  rw [State.setSlice, if_pos hf, State.edge_edgeCheck]
  rfl

theorem State.edge_sliceTrained (s : State) (f n : Nat) (repairs : List Nat) (eye : Option Nat) :
    (s.sliceTrained f n repairs eye).edge f = s.edge f := by cases eye <;> rfl

section
variable (hf : f < 4) (hhead : (s.edge f).slices.head? = some n) (hm : s.f F.FLK_D2D_STATUS_MODE f ≠ 3)
include hf hhead hm

/-- A slice whose retraining succeeds rejoins with its repairs. -/
theorem State.sliceRetrained_ok {repairs : List Nat} (hr : repairs.length ≤ 4) (eye : Nat) : ∃ eyes,
    s.sliceRetrained f n true repairs eye =
      (((s.setEdge f { s.edge f with slices := (s.edge f).slices.drop 1 }).sliceTrained f n repairs eyes).setSlice f n true).flushDue f := by
  rw [State.sliceRetrained, if_neg (by simp [hhead, hm])]
  dsimp only
  rw [if_neg (by simp; omega), if_pos hf]
  exact ⟨_, rfl⟩

theorem State.sliceRetrained_ok_spec {repairs : List Nat} (hr : repairs.length ≤ 4) (eye : Nat) :
    (s.sliceRetrained f n true repairs eye).f F.FLK_D2D_SLICE_ACTIVE f n = 1 ∧
      ((s.sliceRetrained f n true repairs eye).edge f).slices = (s.edge f).slices.drop 1 := by
  obtain ⟨eyes, he⟩ := State.sliceRetrained_ok hf hhead hm hr eye
  rw [he, State.f_flushDue, State.edge_flushDue, State.active_setSlice hf, State.edge_setSlice hf, State.edge_sliceTrained,
    State.edge_setEdge_same]
  exact ⟨rfl, rfl⟩

/-- A slice whose retraining fails stays as it was. -/
theorem State.sliceRetrained_failed (repairs : List Nat) (eye : Nat) : s.sliceRetrained f n false repairs eye =
    (s.setEdge f { s.edge f with slices := (s.edge f).slices.drop 1 }).setF F.FLK_D2D_STATUS_TRAIN_FAIL 1 f := by
  rw [State.sliceRetrained, if_neg (by simp [hhead, hm])]
  dsimp only
  rw [if_pos (.inl rfl), if_pos hf]

theorem State.sliceRetrained_failed_spec (repairs : List Nat) (eye : Nat) :
    (s.sliceRetrained f n false repairs eye).f F.FLK_D2D_STATUS_TRAIN_FAIL f = 1 ∧
      (s.sliceRetrained f n false repairs eye).f F.FLK_D2D_SLICE_ACTIVE f n = s.f F.FLK_D2D_SLICE_ACTIVE f n := by
  rw [State.sliceRetrained_failed hf hhead hm]
  exact ⟨State.f_setF_of_lt (by decide) (by decide), State.f_setF_spared (by decide)⟩
end

/-! ### Mode changes (R262) -/

/-- The edge leaves its mode, for a change or, with `retraining`, for a retraining. -/
def State.leaveMode (s : State) (f : Nat) (retraining : Bool) : State :=
  (s.setEdge f { s.edge f with fromMode := s.f F.FLK_D2D_STATUS_MODE f, retraining := retraining }).setF F.FLK_D2D_STATUS_MODE 3 f

theorem State.mode_leaveMode (s : State) (f : Nat) (retraining : Bool) : (s.leaveMode f retraining).f F.FLK_D2D_STATUS_MODE f = 3 :=
  State.f_setF_of_lt (by decide) (by decide)

theorem State.edge_leaveMode (s : State) (f : Nat) (retraining : Bool) : (s.leaveMode f retraining).edge f =
    { s.edge f with fromMode := s.f F.FLK_D2D_STATUS_MODE f, retraining := retraining } := State.edge_setEdge_same _ _ _

theorem State.d2dSwitch_starts (hm : s.f F.FLK_D2D_STATUS_MODE f = 1) (hq : s.f F.FLK_D2D_CTRL_MODE_REQ f = 0) :
    s.d2dSwitch f = s.leaveMode f false := by
  simp [State.d2dSwitch, State.leaveMode, hm, hq]

theorem State.d2dSwitch_refused (hm : s.f F.FLK_D2D_STATUS_MODE f = 3) :
    s.d2dSwitch f = s.setF F.FLK_D2D_STATUS_SWITCH_REFUSED 1 f := if_pos hm

theorem State.d2dSwitch_refused_spec (hm : s.f F.FLK_D2D_STATUS_MODE f = 3) :
    (s.d2dSwitch f).f F.FLK_D2D_STATUS_SWITCH_REFUSED f = 1 ∧ (s.d2dSwitch f).f F.FLK_D2D_STATUS_MODE f = 3 := by
  rw [State.d2dSwitch_refused hm]
  exact ⟨State.f_setF_of_lt (by decide) (by decide), (State.f_setF_spared (by decide)).trans hm⟩

/-- Where the stored training results apply, the edge is in forwarded-clock mode. -/
theorem State.mode_trainEnds_stored (s : State) (f : Nat) : (s.trainEnds f none).f F.FLK_D2D_STATUS_MODE f = 2 := by
  rw [State.trainEnds, State.f_flushDue, State.f_edgeCheck rfl]
  exact State.f_setF_of_lt (by decide) (by decide)

theorem State.edge_trainEnds_stored (s : State) (f : Nat) : (s.trainEnds f none).edge f = s.edge f := by
  rw [State.trainEnds, State.edge_flushDue, State.edge_edgeCheck]
  rfl

section
variable (hm : s.f F.FLK_D2D_STATUS_MODE f = 3) (hr : (s.edge f).retraining = false) (hd : s.edgeDrained f = true)
include hm hr hd

theorem State.modeDone_from_forwarded (hfrom : (s.edge f).fromMode = 2) (work : Option EdgeWork) :
    (s.modeDone f work).f F.FLK_D2D_STATUS_MODE f = 1 := by
  have he : s.modeDone f work = (s.setF F.FLK_D2D_STATUS_MODE 1 f).flushDue f := by simp [State.modeDone, hm, hr, hd, hfrom]
  rw [he, State.f_flushDue]
  exact State.f_setF_of_lt (by decide) (by decide)

theorem State.modeDone_from_wire (hfrom : (s.edge f).fromMode = 1) : (s.modeDone f none).f F.FLK_D2D_STATUS_MODE f = 2 := by
  have he : s.modeDone f none = s.trainEnds f none := by simp [State.modeDone, hm, hr, hd, hfrom]
  rw [he, State.mode_trainEnds_stored]
end

/-! ### Loss of lock (R268) -/

theorem State.lockLoss_forwarded (hm : s.f F.FLK_D2D_STATUS_MODE f = 2) :
    s.lockLoss f = (s.leaveMode f true).bump F.FLK_D2D_CNT_RETRAINS 1 f := by
  rw [State.lockLoss, if_neg (not_not_intro hm), State.leaveMode, hm]

theorem State.lockLoss_spec (hm : s.f F.FLK_D2D_STATUS_MODE f = 2) : (s.lockLoss f).f F.FLK_D2D_STATUS_MODE f = 3 ∧
    ((s.lockLoss f).edge f).retraining = true ∧ (s.lockLoss f).f F.FLK_D2D_CNT_RETRAINS f =
      min (s.f F.FLK_D2D_CNT_RETRAINS f + 1) (2 ^ F.FLK_D2D_CNT_RETRAINS.w - 1) := by
  rw [State.lockLoss_forwarded hm]
  refine ⟨?mode, ?retraining, ?count⟩
  case mode => exact (State.f_bump_spared (by decide)).trans (s.mode_leaveMode f true)
  case retraining => exact congrArg EdgeSt.retraining (s.edge_leaveMode f true)
  case count =>
    rw [State.f_bump_same _ _ _ _ _ (by decide), State.leaveMode, State.f_setF_spared (by decide)]
    rfl

theorem State.edgeRetrained_stored (hm : s.f F.FLK_D2D_STATUS_MODE f = 3) (hr : (s.edge f).retraining = true) :
    (s.edgeRetrained f none).f F.FLK_D2D_STATUS_MODE f = 2 ∧ ((s.edgeRetrained f none).edge f).retraining = false := by
  rw [State.edgeRetrained, if_neg (by simp [hm, hr]), State.mode_trainEnds_stored, State.edge_trainEnds_stored,
    State.edge_setEdge_same]
  exact ⟨rfl, rfl⟩

end

end Sys2Proof.Machine

namespace Sys2Proof.Claims
open Sys2Proof Sys2Proof.Machine

/-! ### The obligation -/

/-- Settles O33: each clause is the fact about its operation. -/
theorem dieLinksComplete : Obligations.DieLinksComplete := by
  intro s l dir x f m hl hdir hx hf
  have hlink : (decide (l < 9) && decide (dir < 2)) = true := by simp [hl, hdir]
  have hframe : (decide (l < 9) && decide (dir < 2) && decide (x < 64)) = true := by simp [hl, hdir, hx]
  have hedge : decide (f < 4) = true := decide_eq_true hf
  have hslice : ∀ n, n < 128 → (decide (f < 9) && decide (n < 128)) = true := fun n hn => by simp [hn]; omega
  refine ⟨?frame, ?nak, ?control, ?rejoins, ?staysOut, ?starts, ?refused, ?toWire, ?toForwarded, ?lockLoss, ?retrained⟩
  case frame =>
    intro c seq payload offered d hon hp hc hseq z k tag _ hh hnew hmay hx he _ ht ha
    refine completes_of_onUnit rfl hframe ?_
    rw [show tag = dataTag c seq from rfl, State.frameReceive_data hon hp (lt_six_of_mem_linkClasses hc)]
    exact State.dataFrame_expected hc hseq hh hnew hmay hx he ht ha x
  case nak =>
    intro c seq r y ys hc hr hp hs
    refine completes_of_onUnit rfl (by simp [hl, hdir, hc]) ?_
    rw [State.nakReceive_resends hr hp hs]
    exact ⟨rfl, rfl⟩
  case control => exact fun a cr ha => completes_of_onUnit rfl hlink (State.linkControl_first ha cr)
  case rejoins =>
    exact fun n repairs eye hn hh hm hr => completes_of_onUnit rfl (hslice n hn) (State.sliceRetrained_ok_spec hf hh hm hr eye)
  case staysOut =>
    exact fun n repairs eye hn hh hm => completes_of_onUnit rfl (hslice n hn) (State.sliceRetrained_failed_spec hf hh hm repairs eye)
  case starts =>
    intro hm hq
    refine completes_of_onUnit rfl hedge ?_
    rw [State.d2dSwitch_starts hm hq]
    exact ⟨s.mode_leaveMode f false, (congrArg EdgeSt.fromMode (s.edge_leaveMode f false)).trans hm⟩
  case refused => exact fun hm => completes_of_onUnit rfl hedge (State.d2dSwitch_refused_spec hm)
  case toWire => exact fun hm hr hd h => completes_of_onUnit rfl hedge (State.modeDone_from_forwarded hm hr hd h none)
  case toForwarded => exact fun hm hr hd h => completes_of_onUnit rfl hedge (State.modeDone_from_wire hm hr hd h)
  case lockLoss => exact fun hm => completes_of_onUnit rfl hedge (State.lockLoss_spec hm)
  case retrained => exact fun hm hr => completes_of_onUnit rfl hedge (State.edgeRetrained_stored hm hr)

end Sys2Proof.Claims
end

section
/-! PROOF. The ports of the light engines (R279, R291, R295, R297): reading a port's record, its state and its lane map after an
update, and what the operations that the rows of a port share leave as they are. -/

namespace Sys2Proof.Machine

section
variable {s t : State} {p e c k n i j v now num : Nat} {x y : Fld} {snd : Bool}

/-! ### A port's record -/

@[simp] theorem State.port_setPort_same (s : State) (p : Nat) (z : PortSt) : (s.setPort p z).port p = z := mgetD_mset_same _ _ _ _

@[simp] theorem State.port_setF (s : State) (x : Fld) (v i j p : Nat) : (s.setF x v i j).port p = s.port p := rfl

@[simp] theorem State.port_bump (s : State) (x : Fld) (k i j p : Nat) : (s.bump x k i j).port p = s.port p := rfl

@[simp] theorem State.port_portCounts (s : State) (q p : Nat) : (s.portCounts q).port p = s.port p := rfl

theorem State.port_of_le (h : t.le = s.le) (p : Nat) : t.port p = s.port p := by rw [State.port, h, State.port]

@[simp] theorem State.port_raiseLevel (s : State) (n : Nat) (c : Cap) (p : Nat) : (s.raiseLevel n c).port p = s.port p :=
  State.port_of_le (s.raiseLevel_le n c) p

/-- A message sent takes the port's next number and waits for its ACK (R291). -/
@[simp] theorem State.port_sendLane (s : State) (p : Nat) (m : LaneMsg) : (s.sendLane p m).port p =
    { s.port p with msgNo := ((s.port p).msgNo + 1) % 256, sent := (s.port p).sent ++ [((s.port p).msgNo, m)] } :=
  State.port_setPort_same _ _ _

@[simp] theorem State.f_setPort (s : State) (p : Nat) (z : PortSt) (y : Fld) (i j : Nat) : (s.setPort p z).f y i j = s.f y i j := rfl

@[simp] theorem State.f_sendLane (s : State) (p : Nat) (m : LaneMsg) (y : Fld) (i j : Nat) : (s.sendLane p m).f y i j = s.f y i j := rfl

/-! ### The counts of LE[e]_PORT[j]_STATUS -/

/-- LANES, SPARES_FREE and SWAP_BUSY leave the field alone. -/
def Fld.besideCounts (y : Fld) : Bool :=
  F.LE_PORT_STATUS_SPARES_FREE.spares y && F.LE_PORT_STATUS_SWAP_BUSY.spares y && F.LE_PORT_STATUS_LANES.spares y

@[simp] theorem State.f_portCounts (h : y.besideCounts = true) : (s.portCounts p).f y i j = s.f y i j := by
  simp only [Fld.besideCounts, Bool.and_eq_true] at h
  obtain ⟨⟨hspares, hbusy⟩, hlanes⟩ := h
  rw [State.portCounts, State.f_setF_spared hlanes, State.f_setF_spared hbusy, State.f_setF_spared hspares]

@[simp] theorem State.portState_portCounts (s : State) (q p : Nat) : (s.portCounts q).portState p = s.portState p :=
  State.f_portCounts (by decide)

theorem State.portState_setPortState (s : State) (p : Nat) (hv : v < 8) : (s.setPortState p v).portState p = v :=
  State.f_setF_of_lt (by decide) hv

/-! ### The lane map (R279) -/

theorem laneFld_reg (k : Nat) : (laneFld k).reg = .LE_PORT_LANEMAP0 ∨ (laneFld k).reg = .LE_PORT_LANEMAP1 := by
  unfold laneFld
  dsimp only
  split
  · exact .inl rfl
  · exact .inr rfl

theorem laneFld_fits (k : Nat) : (laneFld k).lsb + (laneFld k).w ≤ 64 := by
  unfold laneFld
  dsimp only
  omega

/-- The fields of two lanes share no bit. -/
theorem laneFld_spares_laneFld : ∀ k < 16, ∀ m < 16, k ≠ m → (laneFld k).spares (laneFld m) = true := by decide

/-- Beside the lane map and the loaded fuse maps. -/
def Fld.besideLanes (x : Fld) : Bool := x.reg != .LE_PORT_LANEMAP0 && x.reg != .LE_PORT_LANEMAP1 && x.reg != .CRU_BOOT

theorem State.laneLine_setF (h : x.besideLanes = true) : (s.setF x v i j).laneLine p k = s.laneLine p k := by
  simp only [Fld.besideLanes, Bool.and_eq_true, bne_iff_ne] at h
  obtain ⟨⟨hmap0, hmap1⟩, hboot⟩ := h
  refine State.f_setF_reg _ _ _ _ _ _ _ _ ?_ hboot
  rcases laneFld_reg k with hk | hk
  · rwa [hk]
  · rwa [hk]

theorem State.laneLine_portCounts (s : State) (q p k : Nat) : (s.portCounts q).laneLine p k = s.laneLine p k := by
  rw [State.portCounts, State.laneLine_setF (by decide), State.laneLine_setF (by decide), State.laneLine_setF (by decide)]

theorem State.laneLine_raiseLevel (s : State) (n : Nat) (c : Cap) (p k : Nat) : (s.raiseLevel n c).laneLine p k = s.laneLine p k := by
  refine State.f_raiseLevel _ _ _ _ _ _ ?_
  rcases laneFld_reg k with hk | hk
  · rw [hk]; rfl
  · rw [hk]; rfl

theorem State.laneOf_congr (h : ∀ k, t.laneLine p k = s.laneLine p k) (n : Nat) : t.laneOf p n = s.laneOf p n := by
  simp only [State.laneOf, h]

theorem State.lanesOn_congr (h : ∀ k, t.laneLine p k = s.laneLine p k) : t.lanesOn p = s.lanesOn p := by
  simp only [State.lanesOn, h]

/-- The free spares are those that the lane map, the port's failed lines and the lines failed at their source leave (R279, R288). -/
theorem State.spares_congr (hlane : ∀ k, t.laneLine p k = s.laneLine p k) (hfailed : (t.port p).failed = (s.port p).failed)
    (hsource : ∀ n, t.f F.LE_LINEPWR_FAILED (p / 2) n = s.f F.LE_LINEPWR_FAILED (p / 2) n) : t.spares p = s.spares p := by
  simp only [State.spares, State.laneOf_congr hlane, hfailed, hsource]

/-! ### Received messages (R291) -/

/-- The state in which the first intact copy of a message acts: acknowledged and noted. -/
def State.heard (s : State) (p num : Nat) : State := (s.send (.laneAck p num)).setPort p { s.port p with seen := some num }

theorem State.laneMsg_new (h : (s.port p).seen ≠ some num) (act : State → State) : s.laneMsg p num act = act (s.heard p num) :=
  if_neg (by simpa using h)

@[simp] theorem State.port_heard (s : State) (p num : Nat) : (s.heard p num).port p = { s.port p with seen := some num } :=
  State.port_setPort_same _ _ _

@[simp] theorem State.spares_heard (s : State) (p num : Nat) : (s.heard p num).spares p = s.spares p :=
  State.spares_congr (fun _ => rfl) (by rw [State.port_heard]) fun _ => rfl

/-! ### What a swap's start and a failed line leave as they are (R285, R292) -/

theorem State.f_ite {c : Prop} [Decidable c] {a : Nat} (ht : s.f y i j = a) (hu : t.f y i j = a) : (if c then s else t).f y i j = a := by
  split <;> assumption

theorem State.f_startSwap (h : y.besideCounts = true) : (s.startSwap p k now snd).f y i j = s.f y i j := by
  unfold State.startSwap
  extract_lets z st
  refine State.f_ite rfl (State.f_ite (State.f_ite rfl rfl) ?_)
  split
  · exact State.f_ite rfl rfl
  · exact (State.f_portCounts h).trans (State.f_ite rfl rfl)

theorem State.f_lineFails (h : y.besideCounts = true) : (s.lineFails p n now snd).f y i j = s.f y i j := by
  unfold State.lineFails
  extract_lets z noted
  have hnoted : noted.f y i j = s.f y i j := State.f_ite rfl rfl
  split
  · exact (State.f_startSwap h).trans hnoted
  · exact (State.f_portCounts h).trans hnoted

/-! ### Fields that an operation keeps -/

/-- The fields of the list read the same in both states. -/
def FieldsKept (l : List Fld) (s t : State) : Prop := ∀ y ∈ l, ∀ i j, t.f y i j = s.f y i j

section
variable {l : List Fld} {u : State}

theorem FieldsKept.refl (l : List Fld) (s : State) : FieldsKept l s s := fun _ _ _ _ => rfl

theorem FieldsKept.setF (h : FieldsKept l s t) (x : Fld) (v i j : Nat) (hx : l.all x.spares = true) : FieldsKept l s (t.setF x v i j) :=
  fun y hy a b => (State.f_setF_spared (List.all_eq_true.mp hx y hy)).trans (h y hy a b)

theorem FieldsKept.raise (h : FieldsKept l s t) (n : Nat) (a : Cap) (hl : l.all (fun y => !eyeReg y.reg) = true) :
    FieldsKept l s (t.raise n a) :=
  fun y hy i j => (State.f_raise _ _ _ _ _ _ (by simpa using List.all_eq_true.mp hl y hy)).trans (h y hy i j)

theorem FieldsKept.ite {c : Prop} [Decidable c] (h : FieldsKept l s t) (k : FieldsKept l s u) : FieldsKept l s (if c then t else u) := by
  split <;> assumption

theorem FieldsKept.foldS {α : Type} {f : α → State → State} (xs : List α) (h : FieldsKept l s t)
    (hf : ∀ x t, FieldsKept l s t → FieldsKept l s (f x t)) : FieldsKept l s (foldS xs f t) := by
  unfold Machine.foldS
  induction xs generalizing t with
  | nil => exact h
  | cons x xs ih => exact ih (hf x t h)

theorem FieldsKept.linePowers (h : FieldsKept l s t) (xs : List Nat) (e c : Nat) (power : Nat → Nat)
    (hl : l.all (fun y => y.reg != .LE_LINEPWR) = true) : FieldsKept l s (Machine.foldS xs (fun n u => u.setF (linePwr c) (power n) e n) t) := by
  refine h.foldS xs fun n u hu y hy i j => ?_
  have hy' : y.reg ≠ .LE_LINEPWR := by simpa using List.all_eq_true.mp hl y hy
  have hreg : (linePwr c).reg = .LE_LINEPWR := by unfold linePwr; split <;> rfl
  exact (State.f_setF_reg _ _ _ _ _ _ _ _ (hreg ▸ hy'.symm) (hreg ▸ by decide)).trans (hu y hy i j)

end

/-! ### TRAIN (R297, R298) -/

@[simp] theorem State.f_occ (h : y.reg ≠ .FAB_RT_OCC) : s.occ.f y i j = s.f y i j := by
  unfold State.occ
  dsimp only
  rw [State.f_setF_reg _ _ _ _ _ _ _ _ (Ne.symm h) (by decide), State.f_setF_reg _ _ _ _ _ _ _ _ (Ne.symm h) (by decide)]

@[simp] theorem State.f_setLink (s : State) (p : Nat) (z : LinkSt) (y : Fld) (i j : Nat) : (s.setLink p z).f y i j = s.f y i j := rfl

/-- TRAIN as the registers of the port show it: no identity, the cabling check PENDING, neither ACCEPTED nor LINK_FAIL. -/
def State.trainShown (s : State) (p : Nat) : State :=
  ((((s.setPortState p pTrain).setF F.LE_PORT_STATUS_PEER_VALID 0 p).setF F.FAB_PORT_STAT_CHECK 0 p).setF F.FAB_PORT_STAT_ACCEPTED 0 p).setF
    F.FAB_PORT_STAT_LINK_FAIL 0 p

theorem State.f_toTrain (hcable : y.reg ≠ .FAB_CABLE) (hocc : y.reg ≠ .FAB_RT_OCC) (h : y.besideCounts = true) :
    (s.toTrain p).f y i j = (s.trainShown p).f y i j := by
  unfold State.toTrain
  dsimp only
  rw [State.f_portCounts h, State.f_sendLane, State.f_occ hocc, State.f_setLink, State.f_setPort]
  rw [State.f_setF_reg _ _ _ _ _ _ _ _ (Ne.symm hcable) (by decide), State.f_setF_reg _ _ _ _ _ _ _ _ (Ne.symm hcable) (by decide),
    State.f_setF_reg _ _ _ _ _ _ _ _ (Ne.symm hcable) (by decide), State.f_setF_reg _ _ _ _ _ _ _ _ (Ne.symm hcable) (by decide)]
  rfl

theorem State.portState_toTrain (s : State) (p : Nat) : (s.toTrain p).portState p = pTrain := by
  refine (State.f_toTrain (by decide) (by decide) (by decide)).trans ?_
  rw [State.trainShown, State.f_setF_spared (by decide), State.f_setF_spared (by decide), State.f_setF_spared (by decide),
    State.f_setF_spared (by decide)]
  exact s.portState_setPortState p (by decide)

theorem State.check_toTrain (s : State) (p : Nat) : (s.toTrain p).f F.FAB_PORT_STAT_CHECK p = 0 := by
  rw [State.f_toTrain (by decide) (by decide) (by decide), State.trainShown, State.f_setF_spared (by decide),
    State.f_setF_spared (by decide)]
  exact State.f_setF_of_lt (by decide) (by decide)

theorem State.disable_toTrain (s : State) (p : Nat) : (s.toTrain p).f F.LE_PORT_CTRL_DISABLE p = s.f F.LE_PORT_CTRL_DISABLE p := by
  rw [State.f_toTrain (by decide) (by decide) (by decide), State.trainShown, State.f_setF_spared (by decide),
    State.f_setF_spared (by decide), State.f_setF_spared (by decide), State.f_setF_spared (by decide)]
  exact State.f_setF_spared (by decide)

end

end Sys2Proof.Machine
end

section
/-! PROOF. Rings, heaters, combs, lines and receivers, acquisition and alignment (R284 to R297): what each row of a ring, a comb or a
received line leaves in the registers and in the port, and `LightRingsComplete` from it. -/

namespace Sys2Proof.Machine

section
variable {s t : State} {p r e c k n i j v now : Nat} {x y : Fld} {err : Int} {again : Bool}

/-! ### Ring errors and lock losses (R285) -/

/-- A signed value in its field's range is read back. -/
theorem State.fS_setF_ofSigned {v : Int} (hx : x.lsb + x.w ≤ 64) (hw : 0 < x.w) (hl : -2 ^ (x.w - 1) ≤ v) (hu : v < 2 ^ (x.w - 1)) :
    (s.setF x (ofSigned x.w v) i j).fS x i j = v := by
  rw [State.fS, State.f_setF_signed _ _ _ _ _ hx, toSigned_ofSigned hw hl hu]

/-- The lock error in its register. -/
def State.errShown (s : State) (p r : Nat) (err : Int) : State := s.setF F.LE_PORT_RING_ERR (ofSigned 8 (satSigned 8 err)) p r

theorem State.fS_errShown (s : State) (p r : Nat) (h : err.natAbs ≤ 80) : (s.errShown p r err).fS F.LE_PORT_RING_ERR p r = err := by
  have hl : -128 ≤ err := by omega
  have hu : err < 128 := by omega
  have hset : (s.errShown p r err).f F.LE_PORT_RING_ERR p r = ofSigned 8 (satSigned 8 err) :=
    State.f_setF_signed s F.LE_PORT_RING_ERR (satSigned 8 err) p r (by decide)
  rw [State.fS, hset]
  exact toSigned_ofSigned_satSigned (by decide) hl hu

theorem State.f_errShown (h : F.LE_PORT_RING_ERR.spares y = true) : (s.errShown p r err).f y i j = s.f y i j := State.f_setF_spared h

theorem State.ringError_small (h : err.natAbs ≤ 80) : s.ringError p r err now again = s.errShown p r err := if_pos h

theorem State.ringError_large (h : 80 < err.natAbs) : s.ringError p r err now again = (s.errShown p r err).ringLoss p r now again :=
  if_neg (by omega)

/-- A lock loss as it is counted. -/
def State.lossCounted (s : State) (p r : Nat) : State :=
  (((s.setF F.LE_PORT_RING_LOCKED 0 p r).bump F.LE_PORT_RING_LOSSES 1 p r).setF F.LE_STATUS_LOCK_LOSS 1 (p / 2)).bump
    F.LE_PORT_CNT_LOCKLOSS 1 p

theorem State.ringLoss_reacquired (h : s.f F.LE_PORT_RING_LOCKED p r = 1) :
    s.ringLoss p r now true = (s.lossCounted p r).setF F.LE_PORT_RING_LOCKED 1 p r := if_neg (by omega)

theorem State.ringLoss_fails (h : s.f F.LE_PORT_RING_LOCKED p r = 1) :
    s.ringLoss p r now false = (s.lossCounted p r).ringFail p r now := if_neg (by omega)

theorem State.lockLoss_lossCounted (s : State) (p r : Nat) : (s.lossCounted p r).f F.LE_STATUS_LOCK_LOSS (p / 2) = 1 :=
  (State.f_bump_spared (by decide)).trans (State.f_setF_of_lt (by decide) (by decide))

theorem State.losses_lossCounted (s : State) (p r : Nat) : (s.lossCounted p r).f F.LE_PORT_RING_LOSSES p r =
    min (s.f F.LE_PORT_RING_LOSSES p r + 1) (2 ^ F.LE_PORT_RING_LOSSES.w - 1) := by
  rw [State.lossCounted, State.f_bump_spared (by decide), State.f_setF_spared (by decide), State.f_bump_same _ _ _ _ _ (by decide),
    State.f_setF_spared (by decide)]

theorem State.ringError_reacquired (he : 80 < err.natAbs) (h : s.f F.LE_PORT_RING_LOCKED p r = 1) (now : Nat) :
    (s.ringError p r err now true).f F.LE_PORT_RING_LOCKED p r = 1 ∧ (s.ringError p r err now true).f F.LE_STATUS_LOCK_LOSS (p / 2) = 1 ∧
      (s.ringError p r err now true).f F.LE_PORT_RING_LOSSES p r =
        min (s.f F.LE_PORT_RING_LOSSES p r + 1) (2 ^ F.LE_PORT_RING_LOSSES.w - 1) := by
  rw [State.ringError_large he, State.ringLoss_reacquired ((State.f_errShown (by decide)).trans h)]
  refine ⟨State.f_setF_of_lt (by decide) (by decide), ?_, ?_⟩
  · rw [State.f_setF_spared (by decide), State.lockLoss_lossCounted]
  · rw [State.f_setF_spared (by decide), State.losses_lossCounted, State.f_errShown (by decide)]

/-- A failed ring's line fails on its port, which writes nothing but the port's record and counts. -/
theorem State.f_ringFail (heye : eyeReg y.reg = false) (h : y.besideCounts = true) : (s.ringFail p r now).f y i j =
    ((s.setF F.LE_PORT_RING_LOCKED 0 p r).setF F.LE_PORT_RING_FAILED 1 p r).f y i j :=
  (State.f_lineFails h).trans (State.f_raise _ _ _ _ _ _ heye)

theorem State.ringFail_spec (s : State) (p r now : Nat) :
    (s.ringFail p r now).f F.LE_PORT_RING_LOCKED p r = 0 ∧ (s.ringFail p r now).f F.LE_PORT_RING_FAILED p r = 1 := by
  rw [State.f_ringFail rfl (by decide), State.f_ringFail rfl (by decide), State.f_setF_spared (by decide)]
  exact ⟨State.f_setF_of_lt (by decide) (by decide), State.f_setF_of_lt (by decide) (by decide)⟩

theorem State.ringError_fails (he : 80 < err.natAbs) (h : s.f F.LE_PORT_RING_LOCKED p r = 1) (now : Nat) :
    (s.ringError p r err now false).f F.LE_PORT_RING_LOCKED p r = 0 ∧ (s.ringError p r err now false).f F.LE_PORT_RING_FAILED p r = 1 := by
  rw [State.ringError_large he, State.ringLoss_fails ((State.f_errShown (by decide)).trans h)]
  exact State.ringFail_spec _ p r now

/-! ### Heaters (R285) -/

/-- A heater below full code: its register, and HEATER_LIMIT above 95 % of it. -/
theorem State.heater_below_full {code : Nat} (h : code < 65535) : s.heater p r code now again =
    if 19 * 65535 < 20 * code then (s.setF F.LE_PORT_RING_HEATER code p r).setF F.LE_STATUS_HEATER_LIMIT 1 (p / 2)
    else s.setF F.LE_PORT_RING_HEATER code p r := by
  rw [State.heater, Nat.min_eq_left (by omega)]
  exact if_neg (by omega)

theorem State.heater_spec {code : Nat} (h : code < 65535) (now : Nat) (again : Bool) :
    (s.heater p r code now again).f F.LE_PORT_RING_HEATER p r = code ∧
      (19 * 65535 < 20 * code → (s.heater p r code now again).f F.LE_STATUS_HEATER_LIMIT (p / 2) = 1) := by
  have hcode : (s.setF F.LE_PORT_RING_HEATER code p r).f F.LE_PORT_RING_HEATER p r = code :=
    State.f_setF_of_lt (by decide) (show code < 65536 by omega)
  rw [State.heater_below_full h]
  refine ⟨State.f_ite ((State.f_setF_spared (by decide)).trans hcode) hcode, fun hlimit => ?_⟩
  rw [if_pos hlimit]
  exact State.f_setF_of_lt (by decide) (by decide)

/-! ### The millisecond of a comb (R287, R288) -/

theorem State.f_combAge (h : y.reg ≠ .LE_COMB_AGE) (s : State) (e c : Nat) : (s.combAge e c).f y i j = s.f y i j := by
  unfold State.combAge
  extract_lets age drawn choice base stored aged
  have haged : aged.f y i j = s.f y i j := by
    show choice.2.f y i j = s.f y i j
    unfold choice
    split <;> rfl
  rw [State.showAge, State.f_setF_reg _ _ _ _ _ _ _ _ (Ne.symm h) (by decide), State.f_setF_reg _ _ _ _ _ _ _ _ (Ne.symm h) (by decide),
    haged]

/-- The bias of a comb, its percentage of I0, and whether the engine swaps combs by itself. -/
def biasFields : List Fld := [F.LE_COMB_HEALTH_BIAS, F.LE_COMB_HEALTH_BIAS_PC, F.LE_CTRL_AUTO_COMB]

/-- A measured bias and its percentage of I0 in LE[e]_COMB[c]_HEALTH. -/
def State.biasShown (s : State) (e c bias pc : Nat) : State :=
  (s.setF F.LE_COMB_HEALTH_BIAS bias e c).setF F.LE_COMB_HEALTH_BIAS_PC (min pc 255) e c

theorem State.biasShown_spec (s : State) (e c pc : Nat) {bias : Nat} (h : bias < 2 ^ F.LE_COMB_HEALTH_BIAS.w) :
    (s.biasShown e c bias pc).f F.LE_COMB_HEALTH_BIAS e c = bias ∧ (s.biasShown e c bias pc).f F.LE_COMB_HEALTH_BIAS_PC e c = min pc 255 :=
  ⟨(State.f_setF_spared (by decide)).trans (State.f_setF_of_lt (by decide) h),
    State.f_setF_of_lt (by decide) (show min pc 255 < 256 by omega)⟩

/-- A lit comb that lases, without an automatic swap: the rest of the millisecond keeps the bias that it shows. -/
theorem State.combMonitor_keeps_bias {bias : Nat} {temp : Int} {powers : List Int} (hlit : s.combState e c ∈ [1, 2, 3])
    (hi0 : s.f F.LE_COMB_HEALTH_I0 e c ≠ 0) (hauto : s.f F.LE_CTRL_AUTO_COMB e = 0) (now : Nat) :
    FieldsKept biasFields ((s.combAge e c).biasShown e c bias (bias * 100 / s.f F.LE_COMB_HEALTH_I0 e c))
      (s.combMonitor e c bias temp powers true now) := by
  have hst : ¬(s.combState e c = cOff ∨ s.combState e c = cRetired ∨ s.combState e c = cFailed) := by
    simp only [List.mem_cons, List.not_mem_nil, or_false] at hlit
    unfold cOff cRetired cFailed
    omega
  unfold State.combMonitor
  extract_lets st aged i0 was warn weak
  have hi : i0 = s.f F.LE_COMB_HEALTH_I0 e c := State.f_combAge (by decide) s e c
  rw [if_neg hst, if_neg (hi ▸ hi0), ← hi]
  dsimp -zeta only
  extract_lets shown heated powered weakest warned auto other
  have hheated : FieldsKept biasFields shown heated := .setF (.refl _ shown) _ _ _ _ (by decide)
  have hpowered : FieldsKept biasFields shown powered := hheated.linePowers _ e c (fun n => ofSigned 16 (powers.getD n 0)) (by decide)
  have hweakest : FieldsKept biasFields shown weakest := hpowered.setF _ _ _ _ (by decide)
  have hwarned : FieldsKept biasFields shown warned := .ite (.raise (hweakest.setF _ _ _ _ (by decide)) _ _ (by decide)) hweakest
  have hoff : ¬auto := by
    have hkept : warned.f F.LE_CTRL_AUTO_COMB e = 0 := by
      rw [hwarned _ (by decide), State.f_setF_spared (by decide), State.f_setF_spared (by decide), State.f_combAge (by decide), hauto]
    exact fun h => absurd (hkept.symm.trans h) (by decide)
  rw [if_neg (by decide), if_neg fun h => hoff h.2.2.1, if_neg fun h => hoff h.2.2]
  exact hwarned

theorem State.combMonitor_spec {bias : Nat} {temp : Int} {powers : List Int} (hlit : s.combState e c ∈ [1, 2, 3])
    (hi0 : s.f F.LE_COMB_HEALTH_I0 e c ≠ 0) (hauto : s.f F.LE_CTRL_AUTO_COMB e = 0) (hbias : bias < 2 ^ F.LE_COMB_HEALTH_BIAS.w) (now : Nat) :
    (s.combMonitor e c bias temp powers true now).f F.LE_COMB_HEALTH_BIAS e c = bias ∧
      (s.combMonitor e c bias temp powers true now).f F.LE_COMB_HEALTH_BIAS_PC e c = min (bias * 100 / s.f F.LE_COMB_HEALTH_I0 e c) 255 := by
  have hkept := State.combMonitor_keeps_bias (bias := bias) (temp := temp) (powers := powers) hlit hi0 hauto now
  obtain ⟨hshown, hpercent⟩ := (s.combAge e c).biasShown_spec e c (bias * 100 / s.f F.LE_COMB_HEALTH_I0 e c) hbias
  exact ⟨(hkept _ (by decide) e c).trans hshown, (hkept _ (by decide) e c).trans hpercent⟩

/-! ### A line failed at its source (R288) -/

theorem State.lineSourceFail_alone (hc : s.combState e (s.activeComb e) = cActive)
    (hlow : s.fS (linePwr (s.activeComb e)) e n < s.fS F.LE_THRESH_LINE_MIN e) (hnew : s.f F.LE_LINEPWR_FAILED e n = 0)
    (hline : s.f F.LE_CTRL_AUTO_LINE e = 0) (hcomb : s.f F.LE_CTRL_AUTO_COMB e = 0) (now : Nat) :
    s.lineSourceFail e n now = s.setF F.LE_LINEPWR_FAILED 1 e n := by
  have hline' : (s.setF F.LE_LINEPWR_FAILED 1 e n).f F.LE_CTRL_AUTO_LINE e = 0 := (State.f_setF_spared (by decide)).trans hline
  have hcomb' : (s.setF F.LE_LINEPWR_FAILED 1 e n).f F.LE_CTRL_AUTO_COMB e = 0 := (State.f_setF_spared (by decide)).trans hcomb
  simp [State.lineSourceFail, hc, hlow, hnew, hline', hcomb']

/-! ### Received lines (R290) -/

/-- The swap that a bad line may start leaves what the receiver measured. -/
theorem State.f_rxLine (h : y.besideCounts = true) (s : State) (p n : Nat) (z : RxLine) (now : Nat) : (s.rxLine p n z now).f y i j =
    (((s.setF F.LE_PORT_RX_OMA (ofSigned 16 z.oma) p n).setF F.LE_PORT_RX_CORR (min (z.corr + (lineCounts z.words).1) (2 ^ 24 - 1)) p n).bump
      F.LE_PORT_RX_UNCORR (lineCounts z.words).2 p n).f y i j := by
  unfold State.rxLine
  extract_lets e' oma counts corr uncorr bad
  split
  · exact State.f_ite (State.f_startSwap h) rfl
  · rfl

theorem State.rxLine_spec {z : RxLine} (hl : -32768 ≤ z.oma) (hu : z.oma < 32768) (s : State) (p n now : Nat) :
    (s.rxLine p n z now).fS F.LE_PORT_RX_OMA p n = z.oma ∧
      (s.rxLine p n z now).f F.LE_PORT_RX_CORR p n = min (z.corr + (lineCounts z.words).1) (2 ^ 24 - 1) := by
  constructor
  · rw [State.fS, State.f_rxLine (by decide), State.f_bump_spared (by decide), State.f_setF_spared (by decide)]
    exact State.fS_setF_ofSigned (x := F.LE_PORT_RX_OMA) (by decide) (by decide) hl hu
  · rw [State.f_rxLine (by decide), State.f_bump_spared (by decide)]
    exact State.f_setF_of_lt (by decide) (Nat.lt_of_le_of_lt (Nat.min_le_right _ _) (by decide))

theorem State.rxAll_one (s : State) (p : Nat) (z : RxLine) (now : Nat) : s.rxAll p [z] now = s.rxLine p 0 z now := rfl

/-! ### Loss of signal (R290, R295) -/

theorem State.los_setF (s : State) (p n : Nat) : (s.setF F.LE_PORT_RX_LOS 1 p n).f F.LE_PORT_RX_LOS p n = 1 :=
  State.f_setF_of_lt (by decide) (by decide)

theorem State.laneOf_los (s : State) (p n m : Nat) : (s.setF F.LE_PORT_RX_LOS 1 p n).laneOf p m = s.laneOf p m :=
  State.laneOf_congr (fun _ => State.laneLine_setF (by decide)) m

theorem State.signalLoss_no_lane (h : s.laneOf p n = none) (now : Nat) : s.signalLoss p n now = s.setF F.LE_PORT_RX_LOS 1 p n := by
  simp only [State.signalLoss, State.laneOf_los, h]

theorem State.signalLoss_up (h : s.laneOf p n = some k) (hup : s.portState p = pUp) (now : Nat) :
    s.signalLoss p n now = (s.setF F.LE_PORT_RX_LOS 1 p n).laneNarrow p k now := by
  have hup' : (s.setF F.LE_PORT_RX_LOS 1 p n).portState p = pUp := (State.f_setF_spared (by decide)).trans hup
  simp only [State.signalLoss, State.laneOf_los, h, hup', true_or, if_true]

/-- Narrowing without a change under way is over the lanes in use but the one named. -/
theorem State.stripe_laneNarrow (h : (s.port p).stripe = none) (k now : Nat) :
    ((s.laneNarrow p k now).port p).stripe = some ((s.lanesOn p).filter (fun j => j != k), frameAfter now) := by
  simp only [State.laneNarrow, State.port_sendLane, State.port_setPort_same, h]

theorem State.signalLoss_up_spec (h : s.laneOf p n = some k) (hup : s.portState p = pUp) (hs : (s.port p).stripe = none) (now : Nat) :
    (s.signalLoss p n now).f F.LE_PORT_RX_LOS p n = 1 ∧
      ((s.signalLoss p n now).port p).stripe = some ((s.lanesOn p).filter (fun j => j != k), frameAfter now) := by
  have hs' : ((s.setF F.LE_PORT_RX_LOS 1 p n).port p).stripe = none := hs
  rw [State.signalLoss_up h hup, State.stripe_laneNarrow hs', State.lanesOn_congr fun _ => State.laneLine_setF (by decide)]
  exact ⟨s.los_setF p n, rfl⟩

/-! ### Acquisition (R284, R297) -/

theorem State.f_ringAcquire (heye : eyeReg y.reg = false) (h : y.besideCounts = true) (hring : y.reg ≠ .LE_PORT_RING)
    (s : State) (p r now : Nat) (xs : List (Nat × Nat)) : (s.ringAcquire p r now xs).f y i j = s.f y i j := by
  unfold State.ringAcquire
  split
  · rw [State.f_setF_reg _ _ _ _ _ _ _ _ hring.symm (by decide), State.f_setF_reg _ _ _ _ _ _ _ _ hring.symm (by decide)]
  · rw [State.f_ringFail heye h, State.f_setF_reg _ _ _ _ _ _ _ _ hring.symm (by decide), State.f_setF_reg _ _ _ _ _ _ _ _ hring.symm (by decide)]

theorem State.f_setCombState (h : F.LE_COMB_HEALTH_STATE.spares y = true) : (s.setCombState e c v).f y i j = s.f y i j :=
  State.f_ite (State.f_setF_spared h) (State.f_setF_spared h)

theorem State.combState_setCombState (s : State) (e c : Nat) (hv : v < 8) : (s.setCombState e c v).combState e c = v := by
  have hset : (s.setF F.LE_COMB_HEALTH_STATE v e c).combState e c = v := State.f_setF_of_lt (by decide) hv
  exact State.f_ite hset hset

theorem State.f_lightComb (h : F.LE_COMB_HEALTH_STATE.spares y = true) : (s.lightComb e c).f y i j = s.f y i j :=
  State.f_ite (State.f_setCombState h) rfl

/-- A port in ACQUIRE whose comb warms trains, unless it is disabled. -/
theorem State.ringsDone_trains (hp : s.portState p = pAcquire) (hc : s.combState (p / 2) (s.activeComb (p / 2)) = cWarming)
    (hd : s.f F.LE_PORT_CTRL_DISABLE p = 0) (now : Nat) (xs : List (List (Nat × Nat))) : ∃ t : State, s.ringsDone p now xs = t.toTrain p := by
  unfold State.ringsDone
  extract_lets e' c' active rings lit
  rw [if_neg (by simp [hp, show s.combState e' c' = cWarming from hc])]
  have hactive : active.f F.LE_PORT_CTRL_DISABLE p = 0 := (State.f_setCombState (by decide)).trans hd
  have hrings : rings.f F.LE_PORT_CTRL_DISABLE p = 0 := by
    refine (foldS_keeps (fun t : State => t.f F.LE_PORT_CTRL_DISABLE p) (fun r u => ?_) _ _).trans hactive
    exact State.f_ite rfl (State.f_ringAcquire rfl (by decide) (by decide) _ _ _ _ _)
  have hlit : lit.f F.LE_PORT_CTRL_DISABLE p = 0 := State.f_ite ((State.f_lightComb (by decide)).trans hrings) hrings
  exact ⟨lit, if_neg (by omega)⟩

/-! ### Alignment (R297) -/

/-- A fold whose body changes nothing changes nothing. -/
theorem foldS_fixed {α σ : Type} {f : α → σ → σ} {s : σ} : ∀ {l : List α}, (∀ x ∈ l, f x s = s) → foldS l f s = s
  | [], _ => rfl
  | x :: l, h => by
    have hrest : foldS l f s = s := foldS_fixed fun y hy => h y (List.mem_cons_of_mem _ hy)
    rw [foldS, List.foldl_cons, h x List.mem_cons_self]
    exact hrest

theorem State.lanesOn_full (h : ∀ k, k < 16 → s.laneLine p k < 18) : s.lanesOn p = List.range 16 := by
  refine List.filter_eq_self.mpr fun k hk => ?_
  have := h k (List.mem_range.mp hk)
  simp only [bne_iff_ne]
  omega

/-- The received lines as an alignment shows them: those in the list have frames. -/
def State.losAligned (s : State) (p : Nat) (lines : List Nat) : State :=
  foldS (List.range 18) (fun n s => s.setF F.LE_PORT_RX_LOS (if lines.contains n then 0 else 1) p n) s

theorem State.f_losAligned (h : F.LE_PORT_RX_LOS.spares y = true) (lines : List Nat) : (s.losAligned p lines).f y i j = s.f y i j :=
  foldS_keeps (fun t : State => t.f y i j) (fun _ _ => State.f_setF_spared h) _ s

theorem State.laneLine_losAligned (s : State) (p k : Nat) (lines : List Nat) : (s.losAligned p lines).laneLine p k = s.laneLine p k :=
  foldS_keeps (fun t : State => t.laneLine p k) (fun _ _ => State.laneLine_setF (by decide)) _ s

theorem State.port_losAligned (s : State) (p : Nat) (lines : List Nat) : (s.losAligned p lines).port p = s.port p :=
  foldS_keeps (fun t : State => t.port p) (fun _ _ => State.port_setF _ _ _ _ _ _) _ s

theorem State.los_losAligned {lines : List Nat} (hn : n < 18) (h : n ∈ lines) (s : State) (p : Nat) :
    (s.losAligned p lines).f F.LE_PORT_RX_LOS p n = 0 := by
  have hshown : ∀ t : State, (t.setF F.LE_PORT_RX_LOS (if lines.contains n then 0 else 1) p n).f F.LE_PORT_RX_LOS p n = 0 := by
    intro t
    rw [if_pos (by simpa using h)]
    exact State.f_setF_of_lt (by decide) (by decide)
  exact foldS_acts_once (g := fun t : State => t.f F.LE_PORT_RX_LOS p n) (k := fun _ => 0)
    (f := fun m t => t.setF F.LE_PORT_RX_LOS (if lines.contains m then 0 else 1) p m) hshown
    (fun m t hm => State.f_setF_idx _ _ _ _ (.inr hm) (by decide)) List.nodup_range (List.mem_range.mpr hn) s

/-- With frames on all lines and no line failed, the lane map stays and the port is UP. -/
theorem State.aligned_full {lines : List (Nat × Nat)} (hp : s.portState p = pTrain) (hall : ∀ n, n < 18 → (n, 0) ∈ lines)
    (hfailed : (s.port p).failed = []) (hmap : ∀ k, k < 16 → s.laneLine p k < 18) (hmin : s.f F.LE_PORT_CTRL_MIN_LANES p ≤ 16) :
    ∃ l : List Nat, (∀ n, n < 18 → n ∈ l) ∧ s.aligned p lines = ((s.losAligned p l).setPortState p pUp).portCounts p := by
  unfold State.aligned
  extract_lets l good shown mapped count
  have hl : ∀ n, n < 18 → n ∈ l := fun n hn =>
    List.mem_map.mpr ⟨(n, 0), List.mem_filter.mpr ⟨hall n hn, rfl⟩, rfl⟩
  have hshown : shown = s.losAligned p l := rfl
  have hlane : ∀ k, shown.laneLine p k = s.laneLine p k := fun k => hshown ▸ s.laneLine_losAligned p k l
  have hmapped : mapped = shown := by
    refine foldS_fixed fun k hk => if_pos (.inr ?_)
    have hk' := hmap k (List.mem_range.mp hk)
    have hport : shown.port p = s.port p := hshown ▸ s.port_losAligned p l
    show (l.contains (shown.laneLine p k) && !(shown.port p).failed.contains (shown.laneLine p k)) = true
    rw [hlane, hport, hfailed]
    simpa using hl _ hk'
  have hcount : count = 16 := by
    show (mapped.lanesOn p).length = 16
    rw [hmapped, State.lanesOn_congr hlane, State.lanesOn_full hmap, List.length_range]
  have hmin' : mapped.f F.LE_PORT_CTRL_MIN_LANES p ≤ 16 := by
    rw [hmapped, hshown, State.f_losAligned (by decide)]
    exact hmin
  refine ⟨l, hl, ?_⟩
  rw [if_neg (not_not_intro hp), hcount, if_neg (by omega), if_pos rfl, hmapped, hshown]

theorem State.aligned_spec {lines : List (Nat × Nat)} (hp : s.portState p = pTrain) (hall : ∀ n, n < 18 → (n, 0) ∈ lines)
    (hfailed : (s.port p).failed = []) (hmap : ∀ k, k < 16 → s.laneLine p k < 18) (hmin : s.f F.LE_PORT_CTRL_MIN_LANES p ≤ 16) :
    (s.aligned p lines).portState p = pUp ∧ ∀ n, n < 18 → (s.aligned p lines).f F.LE_PORT_RX_LOS p n = 0 := by
  obtain ⟨l, hl, ha⟩ := State.aligned_full hp hall hfailed hmap hmin
  rw [ha]
  refine ⟨?_, fun n hn => ?_⟩
  · rw [State.portState_portCounts]
    exact State.portState_setPortState _ p (by decide)
  · rw [State.f_portCounts (by decide), State.setPortState, State.f_setF_spared (by decide)]
    exact State.los_losAligned hn (hl n hn) s p

end

end Sys2Proof.Machine

namespace Sys2Proof.Claims
open Sys2Proof Sys2Proof.Machine

/-! ### The obligation -/

/-- Settles O34: each clause is the fact about its operation. -/
theorem lightRingsComplete : Obligations.LightRingsComplete := by
  intro s p r e c frame hp hr he hc
  have hport : decide (p < 16) = true := decide_eq_true hp
  have hring : (decide (p < 16) && decide (r < 36)) = true := by simp [hp, hr]
  have hcomb : (decide (e < 8) && decide (c < 2)) = true := by simp [he, hc]
  have hsource : ∀ n, n < 18 → (decide (e < 8) && decide (n < 18)) = true := fun n hn => by simp [he, hn]
  have hline : ∀ n, n < 18 → (decide (p < 16) && decide (n < 18)) = true := fun n hn => by simp [hp, hn]
  refine ⟨?small, ?reacquired, ?fails, ?heater, ?comb, ?source, ?receiver, ?noLane, ?narrows, ?acquired, ?aligned⟩
  case small =>
    intro err again herr
    refine completes_of_onUnit rfl hring ?_
    rw [State.ringError_small herr]
    exact ⟨s.fS_errShown p r herr, State.f_errShown (by decide)⟩
  case reacquired => exact fun err herr hl => completes_of_onUnit rfl hring (State.ringError_reacquired herr hl frame)
  case fails => exact fun err herr hl => completes_of_onUnit rfl hring (State.ringError_fails herr hl frame)
  case heater => exact fun code again hcode => completes_of_onUnit rfl hring (State.heater_spec hcode frame again)
  case comb =>
    exact fun bias temp powers hlit hi0 hauto hbias => completes_of_onUnit rfl hcomb (State.combMonitor_spec hlit hi0 hauto hbias frame)
  case source =>
    intro n hn hc hlow hnew hauto hswap
    refine completes_of_onUnit rfl (hsource n hn) ?_
    rw [State.lineSourceFail_alone hc hlow hnew hauto hswap]
    exact ⟨State.f_setF_of_lt (by decide) (by decide), rfl⟩
  case receiver =>
    exact fun x hl hu => completes_of_onUnit rfl hport (s.rxAll_one p x frame ▸ State.rxLine_spec hl hu s p 0 frame)
  case noLane =>
    intro n hn hlane
    refine completes_of_onUnit rfl (hline n hn) ?_
    rw [State.signalLoss_no_lane hlane]
    exact ⟨s.los_setF p n, rfl⟩
  case narrows =>
    exact fun n k hn hlane hup hs => completes_of_onUnit rfl (hline n hn) (State.signalLoss_up_spec hlane hup hs frame)
  case acquired =>
    intro xs hacquire hwarm hen
    refine completes_of_onUnit rfl hport ?_
    obtain ⟨t, ht⟩ := State.ringsDone_trains hacquire hwarm hen frame xs
    rw [ht]
    exact ⟨t.portState_toTrain p, t.check_toTrain p⟩
  case aligned =>
    exact fun lines htrain hall hfailed hmap hmin =>
      completes_of_onUnit rfl hport (State.aligned_spec htrain hall hfailed hmap hmin)

end Sys2Proof.Claims
end

section
/-! PROOF. Line swaps, narrowing and the lane messages of a port (R291 to R298): what each row leaves in the port's record, its lane map
and its counts, and `LineSwapsComplete` from it. -/

namespace Sys2Proof.Machine

section
variable {s : State} {p k n i j lane m f now num : Nat} {x y : Fld} {w : LSwap} {snd tell verify : Bool}

/-! ### The end of a swap (Table 10-10) -/

theorem State.nextSwap_nothing (h : (s.port p).queue = []) (now : Nat) (snd : Bool) : s.nextSwap p now snd = s := by
  simp [State.nextSwap, h]

/-- Where nothing waits for a swap to end, only the counts of the port follow it. -/
theorem State.afterSwap_nothing (hq : (s.port p).queue = []) (hcut : (s.port p).cutAfter = false) (hdrain : (s.port p).drainAfter = false)
    (now : Nat) (snd : Bool) : s.afterSwap p now snd = s.portCounts p := by
  simp [State.afterSwap, State.nextSwap_nothing hq, hcut, hdrain]

/-! ### Requests and their answers (R292) -/

/-- A request for a used lane and a free spare becomes the transmit swap. -/
theorem State.recvSwapReq_free (htx : (s.port p).tx = none) (hl : s.laneLine p lane ≠ 0x1F) (hm : m ∈ s.spares p) (now : Nat) :
    s.recvSwapReq p lane m now = ((s.setPort p { s.port p with
      tx := some { lane := lane, line := s.laneLine p lane, spare := m, stage := 1, f := frameAfter now, own := false } }).sendLane p
        (.lswapDup lane m (frameAfter now))).portCounts p := by
  simp [State.recvSwapReq, htx, hl, hm]

theorem State.recvSwapReq_spec (htx : (s.port p).tx = none) (hl : s.laneLine p lane ≠ 0x1F) (hm : m ∈ s.spares p) (now : Nat) :
    ((s.recvSwapReq p lane m now).port p).tx =
      some { lane := lane, line := s.laneLine p lane, spare := m, stage := 1, f := frameAfter now, own := false } ∧
    ((s.recvSwapReq p lane m now).port p).seen = (s.port p).seen := by
  rw [State.recvSwapReq_free htx hl hm, State.port_portCounts, State.port_sendLane, State.port_setPort_same]
  exact ⟨rfl, rfl⟩

/-- LSWAP_DUP makes the named swap the receive swap, at stage 1. -/
theorem State.recvSwapDup_spec (hl : s.laneLine p lane ≠ 0x1F) (m f : Nat) : ∃ w, ((s.recvSwapDup p lane m f).port p).rx = some w ∧
    w.lane = lane ∧ w.line = s.laneLine p lane ∧ w.spare = m ∧ w.stage = 1 ∧ w.f = f := by
  rw [State.recvSwapDup, if_neg hl, State.port_portCounts, State.port_setPort_same]
  exact ⟨_, rfl, rfl, rfl, rfl, rfl, rfl⟩

theorem State.verifyDone_ok (hw : (s.port p).rx = some w) (hs : w.stage = 1) (now : Nat) : s.verifyDone p now true =
    (s.setPort p { s.port p with rx := some { w with stage := 2, f := frameAfter now } }).sendLane p
      (.lswapDone w.lane w.spare (frameAfter now)) := by
  simp [State.verifyDone, hw, hs]

theorem State.recvSwapDone_own (hw : (s.port p).tx = some w) (hl : w.lane = lane) (hm : w.spare = m) (f : Nat) :
    s.recvSwapDone p lane m f = s.setPort p { s.port p with tx := some { w with stage := 2, f := f } } := by
  simp [State.recvSwapDone, hw, hl, hm]

/-- A swap for a lane of an UP port, both directions free, begins at the receiver on the first free spare. -/
theorem State.startSwap_receiver {ns : List Nat} (hup : s.portState p = pUp) (hl : s.laneLine p lane ≠ 0x1F) (htx : (s.port p).tx = none)
    (hrx : (s.port p).rx = none) (hs : s.spares p = n :: ns) (now : Nat) : s.startSwap p lane now false =
      ((s.setPort p { s.port p with rx := some { lane := lane, line := s.laneLine p lane, spare := n } }).sendLane p
        (.lswapReq lane n)).portCounts p := by
  simp [State.startSwap, hup, hl, htx, hrx, hs]

theorem State.leLswap_spec {ns : List Nat} (hlane : lane < 16) (hup : s.portState p = pUp) (hl : s.laneLine p lane ≠ 0x1F)
    (htx : (s.port p).tx = none) (hrx : (s.port p).rx = none) (hs : s.spares p = n :: ns) (now : Nat) :
    (s.leLswap p lane now).f F.LE_PORT_CTRL_LSWAP_LANE p = lane ∧
      ∃ w, ((s.leLswap p lane now).port p).rx = some w ∧ w.lane = lane ∧ w.spare = n := by
  have hmap : ∀ k, (s.setF F.LE_PORT_CTRL_LSWAP_LANE lane p).laneLine p k = s.laneLine p k := fun k => State.laneLine_setF (by decide)
  have hup' : (s.setF F.LE_PORT_CTRL_LSWAP_LANE lane p).portState p = pUp := (State.f_setF_spared (by decide)).trans hup
  have hs' : (s.setF F.LE_PORT_CTRL_LSWAP_LANE lane p).spares p = n :: ns :=
    (State.spares_congr hmap rfl fun _ => State.f_setF_spared (by decide)).trans hs
  refine ⟨(State.f_startSwap (by decide)).trans (State.f_setF_of_lt (by decide) hlane), ?_⟩
  rw [State.leLswap, State.startSwap_receiver hup' (by rwa [hmap]) htx hrx hs', State.port_portCounts, State.port_sendLane,
    State.port_setPort_same]
  exact ⟨_, rfl, rfl, rfl⟩

/-! ### The cut-over (R292) -/

/-- The port once its receive swap is over: the old line has failed. -/
def PortSt.received (z : PortSt) (w : LSwap) : PortSt :=
  if z.failed.contains w.line then { z with rx := none } else { z with rx := none, failed := w.line :: z.failed }

theorem PortSt.received_eq (z : PortSt) (w : LSwap) : ∃ l, w.line ∈ l ∧ z.received w = { z with rx := none, failed := l } := by
  unfold PortSt.received
  split
  · exact ⟨z.failed, by simpa using ‹z.failed.contains w.line = true›, rfl⟩
  · exact ⟨_, List.mem_cons_self, rfl⟩

/-- A swap's lane on its spare, the swap counted. -/
def State.laneMoved (s : State) (p : Nat) (w : LSwap) : State :=
  ((s.setF (laneFld w.lane) w.spare p).bump F.LE_PORT_CNT_LSWAPS 1 p).setF F.LE_STATUS_LINE_SWAPPED 1 (p / 2)

theorem State.swapCut_receiver (hw : (s.port p).rx = some w) (hs : w.stage = 2) (now : Nat) :
    s.swapCut p now false = ((s.setPort p ((s.port p).received w)).laneMoved p w).afterSwap p now false := by
  unfold State.swapCut PortSt.received
  simp only [hw, hs, Bool.false_eq_true, if_false, ne_eq, not_true_eq_false]
  rfl

theorem State.laneLine_laneMoved (hm : w.spare < 18) (s : State) (p : Nat) : (s.laneMoved p w).laneLine p w.lane = w.spare := by
  rw [State.laneMoved, State.laneLine_setF (by decide), State.bump, State.laneLine_setF (by decide)]
  exact State.f_setF_of_lt (laneFld_fits _) (show w.spare < 32 by omega)

theorem State.swapCut_spec (hw : (s.port p).rx = some w) (hs : w.stage = 2) (hm : w.spare < 18) (hq : (s.port p).queue = [])
    (hcut : (s.port p).cutAfter = false) (hdrain : (s.port p).drainAfter = false) (now : Nat) :
    (s.swapCut p now false).laneLine p w.lane = w.spare ∧ ((s.swapCut p now false).port p).rx = none ∧
      w.line ∈ ((s.swapCut p now false).port p).failed ∧ (s.swapCut p now false).f F.LE_STATUS_LINE_SWAPPED (p / 2) = 1 := by
  obtain ⟨l, hl, hrec⟩ := (s.port p).received_eq w
  have hport : ((s.setPort p ((s.port p).received w)).laneMoved p w).port p = { s.port p with rx := none, failed := l } :=
    (State.port_setPort_same _ _ _).trans hrec
  have hend : s.swapCut p now false = ((s.setPort p ((s.port p).received w)).laneMoved p w).portCounts p := by
    rw [State.swapCut_receiver hw hs]
    exact State.afterSwap_nothing (by rw [hport]; exact hq) (by rw [hport]; exact hcut) (by rw [hport]; exact hdrain) now false
  rw [hend, State.port_portCounts, hport, State.laneLine_portCounts, State.laneLine_laneMoved hm, State.f_portCounts (by decide)]
  exact ⟨rfl, rfl, hl, State.f_setF_of_lt (by decide) (by decide)⟩

/-! ### Abandoned swaps (R293) -/

/-- The port once its transmit swap is abandoned: the spare has failed where its verification was the cause. -/
def PortSt.abandoned (z : PortSt) (w : LSwap) (verify : Bool) : PortSt :=
  if verify = true ∧ (!z.failed.contains w.spare) = true then { z with tx := none, failed := w.spare :: z.failed } else { z with tx := none }

theorem PortSt.abandoned_eq (z : PortSt) (w : LSwap) (verify : Bool) : ∃ l, z.abandoned w verify = { z with tx := none, failed := l } := by
  unfold PortSt.abandoned
  split
  · exact ⟨_, rfl⟩
  · exact ⟨z.failed, rfl⟩

/-- The transmit swap abandoned, counted and, where this end ends it, told. -/
def State.txAbandoned (s : State) (p : Nat) (w : LSwap) (tell verify : Bool) : State :=
  let s := (s.setPort p ((s.port p).abandoned w verify)).bump F.LE_PORT_CNT_ABANDONS 1 p
  if tell then s.sendLane p (.lswapAbandon w.lane w.spare verify) else s

/-- A swap that the peer asked for is tried again by the peer alone. -/
theorem State.abandon_peers (hw : (s.port p).tx = some w) (hown : w.own = false) (now : Nat) (tell verify : Bool) :
    s.abandon p now true tell verify = (s.txAbandoned p w tell verify).afterSwap p now true := by
  unfold State.abandon State.txAbandoned PortSt.abandoned
  simp only [hw, hown, if_true, Bool.false_eq_true, if_false, ite_self]

theorem State.port_txAbandoned (s : State) (p : Nat) (w : LSwap) (tell verify : Bool) : ∃ l no sent,
    (s.txAbandoned p w tell verify).port p = { s.port p with tx := none, failed := l, msgNo := no, sent := sent } ∧
      (tell = true → ∃ n, (n, LaneMsg.lswapAbandon w.lane w.spare verify) ∈ sent) := by
  obtain ⟨l, hl⟩ := (s.port p).abandoned_eq w verify
  unfold State.txAbandoned
  cases tell with
  | false => exact ⟨l, _, _, (State.port_setPort_same _ _ _).trans hl, nofun⟩
  | true =>
    refine ⟨l, ((s.port p).msgNo + 1) % 256, (s.port p).sent ++ [((s.port p).msgNo, .lswapAbandon w.lane w.spare verify)],
      (State.port_sendLane _ _ _).trans ?_, fun _ => ⟨(s.port p).msgNo, by simp⟩⟩
    rw [State.port_bump, State.port_setPort_same, hl]

theorem State.abandons_txAbandoned (s : State) (p : Nat) (w : LSwap) (tell verify : Bool) :
    (s.txAbandoned p w tell verify).f F.LE_PORT_CNT_ABANDONS p =
      min (s.f F.LE_PORT_CNT_ABANDONS p + 1) (2 ^ F.LE_PORT_CNT_ABANDONS.w - 1) := by
  have hcount : ((s.setPort p ((s.port p).abandoned w verify)).bump F.LE_PORT_CNT_ABANDONS 1 p).f F.LE_PORT_CNT_ABANDONS p =
      min (s.f F.LE_PORT_CNT_ABANDONS p + 1) (2 ^ F.LE_PORT_CNT_ABANDONS.w - 1) := State.f_bump_same _ _ _ _ _ (by decide)
  exact State.f_ite hcount hcount

section
variable (hw : (s.port p).tx = some w) (hown : w.own = false) (hq : (s.port p).queue = []) (hcut : (s.port p).cutAfter = false)
  (hdrain : (s.port p).drainAfter = false)
include hw hown hq hcut hdrain

/-- Where nothing waits for it, the end of a swap that the peer asked for changes the port's record and the counts. -/
theorem State.abandon_alone (now : Nat) (tell verify : Bool) :
    s.abandon p now true tell verify = (s.txAbandoned p w tell verify).portCounts p := by
  obtain ⟨l, no, sent, hport, -⟩ := s.port_txAbandoned p w tell verify
  rw [State.abandon_peers hw hown]
  exact State.afterSwap_nothing (by rw [hport]; exact hq) (by rw [hport]; exact hcut) (by rw [hport]; exact hdrain) now true

theorem State.abandon_spec (now : Nat) (tell verify : Bool) :
    ((s.abandon p now true tell verify).port p).tx = none ∧
      (s.abandon p now true tell verify).f F.LE_PORT_CNT_ABANDONS p =
        min (s.f F.LE_PORT_CNT_ABANDONS p + 1) (2 ^ F.LE_PORT_CNT_ABANDONS.w - 1) := by
  obtain ⟨l, no, sent, hport, -⟩ := s.port_txAbandoned p w tell verify
  rw [State.abandon_alone hw hown hq hcut hdrain, State.port_portCounts, hport, State.f_portCounts (by decide),
    State.abandons_txAbandoned]
  exact ⟨rfl, rfl⟩

theorem State.abandon_told (now : Nat) (verify : Bool) :
    ∃ n, (n, LaneMsg.lswapAbandon w.lane w.spare verify) ∈ ((s.abandon p now true true verify).port p).sent := by
  obtain ⟨l, no, sent, hport, htold⟩ := s.port_txAbandoned p w true verify
  rw [State.abandon_alone hw hown hq hcut hdrain, State.port_portCounts, hport]
  exact htold rfl

end

theorem State.recvAbandon_tx (hw : (s.port p).tx = some w) (hl : w.lane = lane) (hm : w.spare = m) (now : Nat) (verify : Bool) :
    s.recvAbandon p lane m now verify = s.abandon p now true false verify := by
  simp [State.recvAbandon, hw, hl, hm]

/-! ### A striping change (R295) -/

/-- One lane of a striping change to a set of lanes: restored on a free spare, or removed. -/
def State.restripe (s : State) (p : Nat) (lanes : List Nat) (k : Nat) : State :=
  if lanes.contains k then
    if s.laneLine p k = 0x1F then
      match (s.spares p).head? with
      | some m => s.setF (laneFld k) m p
      | none => s
    else s
  else if s.laneLine p k = 0x1F then s
  else (s.setPort p (if (s.port p).failed.contains (s.laneLine p k) then s.port p
    else { s.port p with failed := s.laneLine p k :: (s.port p).failed })).setF (laneFld k) 0x1F p

/-- What follows the lanes of a striping change: NARROWED, and the port's state. -/
def State.striped (s : State) (p was : Nat) : State :=
  let n := (s.lanesOn p).length
  let s := if n < was then (s.setF F.LE_STATUS_NARROWED 1 (p / 2)).bump F.LE_PORT_CNT_NARROWS 1 p else s
  let st := s.portState p
  if n < s.f F.LE_PORT_CTRL_MIN_LANES p ∧ (st = pUp ∨ st = pNarrow ∨ st = pDraining) then s.portDown p
  else if st = pUp ∨ st = pNarrow then s.setPortState p (if n = 16 then pUp else pNarrow) else s

theorem State.stripeChange_eq {lanes : List Nat} (h : (s.port p).stripe = some (lanes, f)) : s.stripeChange p =
    ((foldS (List.range 16) (fun k s => s.restripe p lanes k) (s.setPort p { s.port p with stripe := none })).striped p
      (s.lanesOn p).length).portCounts p := by
  unfold State.stripeChange
  rw [h]
  rfl

theorem State.laneLine_restripe_removed {lanes : List Nat} (h : k ∉ lanes) (s : State) (p : Nat) :
    (s.restripe p lanes k).laneLine p k = 0x1F := by
  rw [State.restripe, if_neg (by simpa using h)]
  split
  · assumption
  · exact State.f_setF_of_lt (laneFld_fits k) (show 0x1F < 2 ^ 5 by decide)

theorem State.laneLine_restripe_other (hk : k < 16) (hj : j < 16) (hne : k ≠ j) (s : State) (p : Nat) (lanes : List Nat) :
    (s.restripe p lanes k).laneLine p j = s.laneLine p j := by
  have hset : ∀ (t : State) v, (t.setF (laneFld k) v p).laneLine p j = t.laneLine p j :=
    fun t v => State.f_setF_spared (laneFld_spares_laneFld k hk j hj hne)
  unfold State.restripe
  refine State.f_ite (State.f_ite ?_ rfl) (State.f_ite rfl (hset _ _))
  split
  · exact hset _ _
  · rfl

theorem State.stripe_restripe (s : State) (p : Nat) (lanes : List Nat) (k : Nat) :
    ((s.restripe p lanes k).port p).stripe = (s.port p).stripe := by
  unfold State.restripe
  split
  · split
    · split <;> rfl
    · rfl
  · split
    · rfl
    · rw [State.port_setF, State.port_setPort_same]
      split <;> rfl

/-- What one element of a fold brings about and every element keeps holds after the fold. -/
theorem foldS_reaches {α σ : Type} {P : σ → Prop} {g : α → σ → σ} {a : α} (hset : ∀ s, P (g a s)) :
    ∀ {l : List α}, a ∈ l → (∀ b ∈ l, ∀ s, P s → P (g b s)) → ∀ s, P (foldS l g s)
  | b :: l, ha, hkeep, s => by
    have hrest : ∀ t, P t → P (foldS l g t) := by
      have hl : ∀ c ∈ l, ∀ t, P t → P (g c t) := fun c hc => hkeep c (List.mem_cons_of_mem _ hc)
      clear hkeep ha
      induction l with
      | nil => exact fun t ht => ht
      | cons c l ih =>
        exact fun t ht => ih (fun d hd => hl d (List.mem_cons_of_mem _ hd)) _ (hl c List.mem_cons_self t ht)
    rcases List.mem_cons.mp ha with rfl | ha
    · exact hrest _ (hset s)
    · exact foldS_reaches hset ha (fun c hc => hkeep c (List.mem_cons_of_mem _ hc)) _

/-- The lanes outside the set are removed, whatever the other lanes do. -/
theorem State.laneLine_restriped {lanes : List Nat} (hk : k < 16) (h : k ∉ lanes) (s : State) (p : Nat) :
    (foldS (List.range 16) (fun k s => s.restripe p lanes k) s).laneLine p k = 0x1F := by
  refine foldS_reaches (P := fun t : State => t.laneLine p k = 0x1F) (fun t => t.laneLine_restripe_removed h p) (List.mem_range.mpr hk)
    (fun j hj t ht => ?_) s
  by_cases hne : j = k
  · exact hne ▸ t.laneLine_restripe_removed (hne ▸ h) p
  · exact (t.laneLine_restripe_other (List.mem_range.mp hj) hk hne p lanes).trans ht

theorem State.laneLine_portDown (s : State) (p k : Nat) : (s.portDown p).laneLine p k = s.laneLine p k := by
  rw [State.portDown, State.laneLine_raiseLevel, State.laneLine_portCounts, State.setPortState, State.laneLine_setF (by decide)]
  rfl

theorem State.stripe_portDown (s : State) (p : Nat) : ((s.portDown p).port p).stripe = none := by
  rw [State.portDown, State.port_raiseLevel, State.port_portCounts, State.setPortState, State.port_setF, State.port_setPort_same]

theorem State.laneLine_striped (s : State) (p was k : Nat) : (s.striped p was).laneLine p k = s.laneLine p k := by
  unfold State.striped
  extract_lets count narrowed st
  have hnarrowed : narrowed.laneLine p k = s.laneLine p k :=
    State.f_ite ((State.laneLine_setF (by decide)).trans (State.laneLine_setF (by decide))) rfl
  exact State.f_ite ((State.laneLine_portDown _ p k).trans hnarrowed)
    (State.f_ite ((State.laneLine_setF (by decide)).trans hnarrowed) hnarrowed)

theorem State.stripe_striped (h : (s.port p).stripe = none) (was : Nat) : ((s.striped p was).port p).stripe = none := by
  unfold State.striped
  extract_lets count narrowed st
  have hnarrowed : (narrowed.port p).stripe = none := by
    unfold narrowed
    split <;> exact h
  split
  · exact State.stripe_portDown _ p
  · split <;> exact hnarrowed

theorem State.stripeChange_spec {lanes : List Nat} (h : (s.port p).stripe = some (lanes, f)) :
    (∀ k, k < 16 → k ∉ lanes → (s.stripeChange p).laneLine p k = 0x1F) ∧ ((s.stripeChange p).port p).stripe = none := by
  rw [State.stripeChange_eq h]
  refine ⟨fun k hk hout => ?_, ?_⟩
  · rw [State.laneLine_portCounts, State.laneLine_striped]
    exact State.laneLine_restriped hk hout _ p
  · refine State.stripe_striped ?_ _
    refine (foldS_keeps (fun t : State => (t.port p).stripe) (fun k t => t.stripe_restripe p lanes k) _ _).trans ?_
    rw [State.port_setPort_same]

/-! ### The peer's identity (R291) -/

theorem State.peerId_again (h : s.f F.LE_PORT_STATUS_PEER_VALID p = 1) (a port : Nat) : s.peerId p a port =
    ((s.setF F.LE_PORT_STATUS_PEER a p).setF F.LE_PORT_STATUS_PEER_PORT port p).setF F.LE_PORT_STATUS_PEER_VALID 1 p := by
  simp [State.peerId, h]

theorem State.peerId_spec {a port : Nat} (h : s.f F.LE_PORT_STATUS_PEER_VALID p = 1) (ha : a < 65536) (hport : port < 16) :
    (s.peerId p (a % 65536) (port % 16)).f F.LE_PORT_STATUS_PEER p = a ∧
      (s.peerId p (a % 65536) (port % 16)).f F.LE_PORT_STATUS_PEER_PORT p = port := by
  rw [Nat.mod_eq_of_lt ha, Nat.mod_eq_of_lt hport, State.peerId_again h]
  constructor
  · rw [State.f_setF_spared (by decide), State.f_setF_spared (by decide)]
    exact State.f_setF_of_lt (by decide) ha
  · rw [State.f_setF_spared (by decide)]
    exact State.f_setF_of_lt (by decide) hport

end

end Sys2Proof.Machine

namespace Sys2Proof.Claims
open Sys2Proof Sys2Proof.Machine

/-! ### The obligation -/

/-- A lane message of a number not seen last acts on the state that has heard it (R291). -/
theorem completes_of_laneMsg {i : Instr} {s : State} {p num : Nat} {ok : Bool} {act : State → State} {P : State → Prop}
    (he : exec i s = onUnit ok (done (s.laneMsg p num act))) (hok : ok = true) (hnew : (s.port p).seen ≠ some num)
    (h : P (act (s.heard p num))) : Completes i s P := completes_of_onUnit he hok (State.laneMsg_new hnew act ▸ h)

/-- Settles O35: each clause is the fact about its operation, for a message in the state that has heard it. -/
theorem lineSwapsComplete : Obligations.LineSwapsComplete := by
  intro s p num lane spare f frame m hp hlane hnew
  have hport : decide (p < 16) = true := decide_eq_true hp
  have hon : (decide (p < 16) && decide (lane < 16)) = true := by simp [hp, hlane]
  have hheard := s.port_heard p num
  refine ⟨?req, ?dup, ?verified, ?done, ?cutover, ?abandon, ?timeout, ?lswap, ?narrow, ?widen, ?stripe, ?ack, ?cswap, ?off, ?peer⟩
  case req =>
    intro htx hl hm
    obtain ⟨hswap, hseen⟩ := State.recvSwapReq_spec (s := s.heard p num) (by rw [hheard]; exact htx) hl (by rwa [s.spares_heard]) frame
    exact completes_of_laneMsg rfl hon hnew ⟨hswap, hseen.trans (by rw [hheard])⟩
  case dup => exact fun hl => completes_of_laneMsg rfl hon hnew (State.recvSwapDup_spec (s := s.heard p num) hl spare f)
  case verified =>
    intro w hw hs
    refine completes_of_onUnit rfl hport ?_
    rw [State.verifyDone_ok hw hs, State.port_sendLane, State.port_setPort_same]
    exact ⟨rfl, rfl⟩
  case done =>
    intro w hw hl hm
    refine completes_of_laneMsg rfl hon hnew ?_
    rw [State.recvSwapDone_own (s := s.heard p num) (by rw [hheard]; exact hw) hl hm, State.port_setPort_same]
  case cutover =>
    exact fun w hw hs _ hm hq hcut hdrain => completes_of_onUnit rfl hport (State.swapCut_spec hw hs hm hq hcut hdrain frame)
  case abandon =>
    intro w verify hw hl hm hown hq hcut hdrain
    have hw' : ((s.heard p num).port p).tx = some w := by rw [hheard]; exact hw
    refine completes_of_laneMsg rfl hon hnew ?_
    rw [State.recvAbandon_tx hw' hl hm]
    exact State.abandon_spec hw' hown (by rw [hheard]; exact hq) (by rw [hheard]; exact hcut) (by rw [hheard]; exact hdrain) frame
      false verify
  case timeout =>
    intro w hw hown hq hcut hdrain
    obtain ⟨htx, -⟩ := State.abandon_spec hw hown hq hcut hdrain frame true false
    exact completes_of_onUnit rfl hport ⟨htx, State.abandon_told hw hown hq hcut hdrain frame false⟩
  case lswap =>
    exact fun hup hl htx hrx n ns hs => completes_of_onUnit rfl hon (State.leLswap_spec hlane hup hl htx hrx hs frame)
  case narrow =>
    intro lanes
    refine completes_of_laneMsg rfl hport hnew ?_
    rw [State.stripeAt, State.port_setPort_same, hheard]
    exact ⟨rfl, rfl⟩
  case widen =>
    intro lanes
    refine completes_of_laneMsg rfl hport hnew ?_
    rw [State.stripeAt, State.port_setPort_same, hheard]
    exact ⟨rfl, rfl⟩
  case stripe => exact fun lanes hs => completes_of_onUnit rfl hport (State.stripeChange_spec hs)
  case ack => exact completes_of_onUnit rfl hport ⟨by rw [State.port_setPort_same], rfl⟩
  case cswap => exact completes_of_laneMsg rfl hport hnew (by rw [State.port_setPort_same])
  case off => exact completes_of_laneMsg rfl hport hnew (by rw [State.port_setPort_same])
  case peer =>
    exact fun a port hv ha hpp => completes_of_laneMsg rfl hport hnew (State.peerId_spec (s := s.heard p num) hv ha hpp)

end Sys2Proof.Claims
end

section
/-! PROOF. Comb swaps, ports off and on, and the light engine's registers (R286, R288, R294, R298): what each row leaves in the combs,
the ports and the registers, and `LightPortsComplete` from it. -/

namespace Sys2Proof.Machine

section
variable {s : State} {p e c v n i j now : Nat} {x y : Fld} {w : CombSwap}

/-! ### Comb swaps (R286, R294) -/

theorem State.swap_setCombState (s : State) (e c v : Nat) : (s.setCombState e c v).le.swap = s.le.swap := by
  unfold State.setCombState
  dsimp only
  split <;> rfl

/-- Lighting a standby that is OFF, with the engine enabled at 0 °C or above. -/
theorem State.lightComb_off (hc : s.combState e c = cOff) (he : s.f F.LE_CTRL_ENABLE e = 1) (ht : 0 ≤ s.fS F.LE_STATUS_TEMP_C e) :
    s.lightComb e c = s.setCombState e c cWarming := if_pos ⟨hc, he, ht⟩

/-- A comb swap as its first step notes it. -/
def State.swapNoted (s : State) (e : Nat) (w : CombSwap) : State :=
  ({ s with le := { s.le with swap := mset s.le.swap e w } } : State).setF F.LE_STATUS_SWAP_BUSY 1 e

theorem State.f_swapNoted (h : F.LE_STATUS_SWAP_BUSY.spares y = true) (w : CombSwap) : (s.swapNoted e w).f y i j = s.f y i j :=
  (State.f_setF_spared h).trans rfl

theorem State.combSwap_off (hs : mget s.le.swap e = none) (he : s.f F.LE_CTRL_ENABLE e = 1) (hc : s.combState e (1 - s.activeComb e) = cOff)
    (ht : 0 ≤ s.fS F.LE_STATUS_TEMP_C e) (now : Nat) (req : Bool) : s.combSwap e now req =
      (s.swapNoted e { comb := 1 - s.activeComb e, requested := req }).setCombState e (1 - s.activeComb e) cWarming := by
  have hc' : (s.swapNoted e { comb := 1 - s.activeComb e, requested := req }).combState e (1 - s.activeComb e) = cOff :=
    (State.f_swapNoted (by decide) _).trans hc
  have he' : (s.swapNoted e { comb := 1 - s.activeComb e, requested := req }).f F.LE_CTRL_ENABLE e = 1 :=
    (State.f_swapNoted (by decide) _).trans he
  have ht' : 0 ≤ (s.swapNoted e { comb := 1 - s.activeComb e, requested := req }).fS F.LE_STATUS_TEMP_C e := by
    rwa [State.fS, State.f_swapNoted (by decide)]
  rw [State.combSwap, if_neg (by simp [hs, he]), ← State.lightComb_off hc' he' ht']
  dsimp only
  rw [hc, if_neg (by decide), if_neg (by decide)]
  rfl

theorem State.combSwap_off_spec (hs : mget s.le.swap e = none) (he : s.f F.LE_CTRL_ENABLE e = 1)
    (hc : s.combState e (1 - s.activeComb e) = cOff) (ht : 0 ≤ s.fS F.LE_STATUS_TEMP_C e) (now : Nat) (req : Bool) :
    (s.combSwap e now req).combState e (1 - s.activeComb e) = cWarming ∧ (s.combSwap e now req).f F.LE_STATUS_SWAP_BUSY e = 1 ∧
      mget (s.combSwap e now req).le.swap e = some { comb := 1 - s.activeComb e, requested := req } := by
  rw [State.combSwap_off hs he hc ht, State.swap_setCombState, State.f_setCombState (by decide)]
  exact ⟨State.combState_setCombState _ _ _ (by decide), State.f_setF_of_lt (by decide) (by decide), mget_mset_same _ _ _⟩

/-- A standby that has locked outside a swap is LOCKED. -/
theorem State.combLocked_standby (hc : s.combState e c = cWarming) (hs : c ≠ s.activeComb e) (hw : mget s.le.swap e = none) (now : Nat) :
    s.combLocked e c now = s.setCombState e c cLocked := by
  rw [State.combLocked, if_neg (by simp [hc, hs])]
  dsimp only
  rw [State.swap_setCombState, hw]

theorem State.f_combDark (h : F.LE_COMB_HEALTH_STATE.spares y = true) (hy : y.reg ≠ .LE_LINEPWR) (s : State) (e c v : Nat) :
    (s.combDark e c v).f y i j = s.f y i j :=
  (FieldsKept.linePowers (.refl [y] _) _ e c (fun _ => 0x8000) (by simpa using hy) y List.mem_cons_self i j).trans (State.f_setCombState h)

/-- The swap's comb, where it is to be dark again. -/
def State.standbyDark (s : State) (e : Nat) (w : CombSwap) : State :=
  if (s.combState e w.comb = cWarming ∨ s.combState e w.comb = cLocked) ∧ s.f F.LE_CTRL_STANDBY_WARM e = 0 then s.combDark e w.comb cOff else s

theorem State.f_standbyDark (h : F.LE_COMB_HEALTH_STATE.spares y = true) (hy : y.reg ≠ .LE_LINEPWR) (w : CombSwap) :
    (s.standbyDark e w).f y i j = s.f y i j := State.f_ite (State.f_combDark h hy s e w.comb cOff) rfl

/-- A swap's refusal as its registers show it. -/
def State.refusalShown (s : State) (e : Nat) : State := (s.setF F.LE_STATUS_SWAP_REFUSED 1 e).setF F.LE_STATUS_SWAP_BUSY 0 e

theorem State.swapRefuse_running (hw : mget s.le.swap e = some w) : ∃ t : State, t = (s.refusalShown e).standbyDark e w ∧
    s.swapRefuse e = ({ t with le := { t.le with swap := mdel t.le.swap e } } : State).raise (srcOf (74 + e) 1) (leCap e 0 0) := by
  refine ⟨_, rfl, ?_⟩
  have hw' : mget (s.refusalShown e).le.swap e = some w := hw
  unfold State.swapRefuse
  dsimp only
  rw [show (s.setF F.LE_STATUS_SWAP_REFUSED 1 e).setF F.LE_STATUS_SWAP_BUSY 0 e = s.refusalShown e from rfl, hw']
  rfl

theorem State.lockTimeout_refuses (hw : mget s.le.swap e = some w) (hc : w.cutting = false) : s.lockTimeout e = s.swapRefuse e := by
  simp [State.lockTimeout, hw, hc]

theorem State.swapRefuse_spec (hw : mget s.le.swap e = some w) : (s.swapRefuse e).f F.LE_STATUS_SWAP_REFUSED e = 1 ∧
    (s.swapRefuse e).f F.LE_STATUS_SWAP_BUSY e = 0 ∧ mget (s.swapRefuse e).le.swap e = none := by
  obtain ⟨t, ht, hr⟩ := State.swapRefuse_running hw
  have hf : ∀ y, eyeReg y.reg = false → F.LE_COMB_HEALTH_STATE.spares y = true → y.reg ≠ .LE_LINEPWR →
      (s.swapRefuse e).f y e = (s.refusalShown e).f y e := by
    intro y heye hstate hpwr
    rw [hr, State.f_raise _ _ _ _ _ _ heye]
    exact ht ▸ State.f_standbyDark hstate hpwr w
  refine ⟨?_, ?_, ?_⟩
  · rw [hf _ rfl (by decide) (by decide), State.refusalShown, State.f_setF_spared (by decide)]
    exact State.f_setF_of_lt (by decide) (by decide)
  · rw [hf _ rfl (by decide) (by decide)]
    exact State.f_setF_of_lt (by decide) (by decide)
  · rw [hr, State.raise_le]
    exact mget_mdel_same _ _

/-- The cut-over of a port whose engine runs no swap is the port's alone. -/
theorem State.combCut_alone (h : (s.port p).cswap.isSome = true) (hs : mget s.le.swap (p / 2) = none) (now : Nat) :
    s.combCut p now = s.setPort p { s.port p with cswap := none, cut := true } := by
  have hs' : mget (s.setPort p { s.port p with cswap := none, cut := true }).le.swap (p / 2) = none := hs
  rw [State.combCut, if_neg (by simpa [Option.isSome_iff_ne_none] using h), State.cutNext, hs']

/-! ### Ports off and on (R298) -/

theorem State.portDisable_up (hp : s.portState p = pUp) (hs : s.swapsDone p = true) :
    s.portDisable p = (s.setF F.LE_PORT_CTRL_DISABLE 1 p).setPortState p pDraining := by
  have hp' : (s.setF F.LE_PORT_CTRL_DISABLE 1 p).portState p = pUp := (State.f_setF_spared (by decide)).trans hp
  have hs' : (s.setF F.LE_PORT_CTRL_DISABLE 1 p).swapsDone p = true := hs
  rw [State.portDisable, State.portDrain]
  dsimp only
  rw [if_pos (.inl hp'), if_pos hs']

theorem State.portDisable_up_spec (hp : s.portState p = pUp) (hs : s.swapsDone p = true) :
    (s.portDisable p).f F.LE_PORT_CTRL_DISABLE p = 1 ∧ (s.portDisable p).portState p = pDraining := by
  rw [State.portDisable_up hp hs]
  exact ⟨(State.f_setF_spared (by decide)).trans (State.f_setF_of_lt (by decide) (by decide)), State.portState_setPortState _ p (by decide)⟩

theorem State.portEnable_disabled (hp : s.portState p = pDisabled) : s.portEnable p =
    ((s.setF F.LE_PORT_CTRL_DISABLE 0 p).setPort p { s.port p with drainAfter := false }).toTrain p := by
  have hp' : ((s.setF F.LE_PORT_CTRL_DISABLE 0 p).setPort p { s.port p with drainAfter := false }).portState p = pDisabled :=
    (State.f_setF_spared (by decide)).trans hp
  exact if_pos (.inl hp')

theorem State.portEnable_disabled_spec (hp : s.portState p = pDisabled) :
    (s.portEnable p).f F.LE_PORT_CTRL_DISABLE p = 0 ∧ (s.portEnable p).portState p = pTrain := by
  rw [State.portEnable_disabled hp, State.disable_toTrain]
  exact ⟨State.f_setF_of_lt (by decide) (by decide), State.portState_toTrain _ p⟩

@[simp] theorem State.link_setLink_same (s : State) (p : Nat) (z : LinkSt) : (s.setLink p z).link p = z := mgetD_mset_same _ _ _ _

theorem State.portState_portOff (s : State) (p : Nat) : (s.portOff p).portState p = pDisabled :=
  (State.portState_portCounts _ p p).trans (State.portState_setPortState _ p (by decide))

theorem State.drainDone_draining (hp : s.portState p = pDraining) : s.drainDone p =
    ((s.setLink p { s.link p with retry := [], fifo := [], resends := 0 }).portOff p).occ := if_neg (not_not_intro hp)

theorem State.drainDone_spec (hp : s.portState p = pDraining) :
    (s.drainDone p).portState p = pDisabled ∧ ((s.drainDone p).link p).retry = [] := by
  rw [State.drainDone_draining hp]
  exact ⟨(State.f_occ (by decide)).trans (State.portState_portOff _ p), congrArg LinkSt.retry (State.link_setLink_same s p _)⟩

/-! ### ENABLE of an engine (R298) -/

theorem State.leEnable_early (he : s.f F.LE_CTRL_ENABLE e = 0) (hb : s.stage < 4) (m : Master) :
    s.leEnable e 1 m = s.setF F.LE_CTRL_ENABLE 1 e := by
  have hb' : (s.setF F.LE_CTRL_ENABLE 1 e).f F.CRU_BOOT_STAGE = s.stage := State.f_setF_spared (by decide)
  rw [State.leEnable, if_neg (by decide), if_neg (by omega)]
  exact if_neg (by omega)

/-- Both combs go dark, RETIRED and FAILED ones in their state. -/
def State.combsDark (s : State) (e : Nat) : State :=
  foldS [0, 1] (fun c s => s.combDark e c (if s.combState e c = cRetired ∨ s.combState e c = cFailed then s.combState e c else cOff)) s

/-- The engine's swap and its wait for 0 °C end. -/
def State.swapEnded (s : State) (e : Nat) : State :=
  ({ s with le := { s.le with waiting := s.le.waiting.filter fun x => x != e, swap := mdel s.le.swap e } } : State).setF
    F.LE_STATUS_SWAP_BUSY 0 e

theorem State.f_swapEnded (h : F.LE_STATUS_SWAP_BUSY.spares y = true) : (s.swapEnded e).f y i j = s.f y i j :=
  (State.f_setF_spared h).trans rfl

/-- A port goes OFF with its engine. -/
def State.goOff (s : State) (p : Nat) : State := (s.setPortState p pOff).portCounts p

theorem State.leEnable_off (he : s.f F.LE_CTRL_ENABLE e = 1) (h0 : s.portState (2 * e) = pDisabled)
    (h1 : s.portState (2 * e + 1) = pDisabled) (m : Master) : s.leEnable e 0 m =
      ((((s.setF F.LE_CTRL_ENABLE 0 e).combsDark e).swapEnded e).goOff (2 * e)).goOff (2 * e + 1) := by
  rw [State.leEnable, if_pos rfl, if_neg (by omega)]
  dsimp only
  rw [if_pos (by simp [h0, h1])]
  rfl

theorem State.portState_goOff_same (s : State) (p : Nat) : (s.goOff p).portState p = pOff :=
  (State.portState_portCounts _ p p).trans (State.portState_setPortState _ p (by decide))

theorem State.portState_goOff_other {q : Nat} (h : q ≠ p) (s : State) : (s.goOff q).portState p = s.portState p :=
  (State.portState_portCounts _ q p).trans (State.f_setF_idx _ _ _ _ (.inl h) (by decide))

theorem State.f_goOff (h : y.besideCounts = true) (hs : F.LE_PORT_STATUS_STATE.spares y = true) (s : State) (p : Nat) :
    (s.goOff p).f y i j = s.f y i j := (State.f_portCounts h).trans (State.f_setF_spared hs)

theorem State.enable_combsDark (s : State) (e i : Nat) : (s.combsDark e).f F.LE_CTRL_ENABLE i = s.f F.LE_CTRL_ENABLE i :=
  foldS_keeps (fun t : State => t.f F.LE_CTRL_ENABLE i) (fun _ t => State.f_combDark (by decide) (by decide) t _ _ _) _ s

theorem State.leEnable_off_spec (he : s.f F.LE_CTRL_ENABLE e = 1) (h0 : s.portState (2 * e) = pDisabled)
    (h1 : s.portState (2 * e + 1) = pDisabled) (m : Master) : (s.leEnable e 0 m).f F.LE_CTRL_ENABLE e = 0 ∧
      (s.leEnable e 0 m).portState (2 * e) = pOff ∧ (s.leEnable e 0 m).portState (2 * e + 1) = pOff := by
  rw [State.leEnable_off he h0 h1]
  refine ⟨?_, ?_, State.portState_goOff_same _ _⟩
  · rw [State.f_goOff (by decide) (by decide), State.f_goOff (by decide) (by decide), State.f_swapEnded (by decide),
      State.enable_combsDark]
    exact State.f_setF_of_lt (by decide) (by decide)
  · rw [State.portState_goOff_other (by omega), State.portState_goOff_same]

/-! ### Thresholds (R288) -/

theorem getBits_lt (z : Word) (l n : Nat) : getBits z l n < 2 ^ n := Nat.mod_lt _ (Nat.two_pow_pos n)

/-- The thresholds of a word in their fields, SER_SWAP_EXP at least 3. -/
def State.threshStored (s : State) (e : Nat) (z : Word) : State :=
  ((((s.setF F.LE_THRESH_BIAS_WARN_PC (getBits z 0 8) e).setF F.LE_THRESH_BIAS_SWAP_PC (getBits z 8 8) e).setF
    F.LE_THRESH_LINE_MIN (getBits z 16 16) e).setF F.LE_THRESH_RX_SWAP (getBits z 32 16) e).setF
      F.LE_THRESH_SER_SWAP_EXP (max 3 (getBits z 48 4)) e

theorem State.leThresh_ordered (hw : getBits (BitVec.ofNat 64 v) 0 8 < getBits (BitVec.ofNat 64 v) 8 8)
    (hs : getBits (BitVec.ofNat 64 v) 8 8 < 160) (m : Master) : s.leThresh e v m = s.threshStored e (BitVec.ofNat 64 v) := if_pos ⟨hw, hs⟩

theorem State.threshStored_spec (s : State) (e : Nat) (z : Word) :
    (s.threshStored e z).f F.LE_THRESH_BIAS_WARN_PC e = getBits z 0 8 ∧ (s.threshStored e z).f F.LE_THRESH_BIAS_SWAP_PC e = getBits z 8 8 ∧
    (s.threshStored e z).f F.LE_THRESH_LINE_MIN e = getBits z 16 16 ∧ (s.threshStored e z).f F.LE_THRESH_RX_SWAP e = getBits z 32 16 ∧
    (s.threshStored e z).f F.LE_THRESH_SER_SWAP_EXP e = max 3 (getBits z 48 4) := by
  unfold State.threshStored
  refine ⟨?_, ?_, ?_, ?_, ?_⟩
  · rw [State.f_setF_spared (by decide), State.f_setF_spared (by decide), State.f_setF_spared (by decide), State.f_setF_spared (by decide)]
    exact State.f_setF_of_lt (by decide) (getBits_lt z 0 8)
  · rw [State.f_setF_spared (by decide), State.f_setF_spared (by decide), State.f_setF_spared (by decide)]
    exact State.f_setF_of_lt (by decide) (getBits_lt z 8 8)
  · rw [State.f_setF_spared (by decide), State.f_setF_spared (by decide)]
    exact State.f_setF_of_lt (by decide) (getBits_lt z 16 16)
  · rw [State.f_setF_spared (by decide)]
    exact State.f_setF_of_lt (by decide) (getBits_lt z 32 16)
  · exact State.f_setF_of_lt (by decide) (max_lt (by decide) (getBits_lt z 48 4))

end

end Sys2Proof.Machine

namespace Sys2Proof.Claims
open Sys2Proof Sys2Proof.Machine

/-! ### The obligation -/

/-- Settles O36: each clause is the fact about its operation. -/
theorem lightPortsComplete : Obligations.LightPortsComplete := by
  intro s e p frame m he hp
  have hengine : decide (e < 8) = true := decide_eq_true he
  have hport : decide (p < 16) = true := decide_eq_true hp
  refine ⟨?swap, ?locked, ?timeout, ?cutover, ?disable, ?enable, ?drained, ?engineOn, ?engineOff, ?thresh⟩
  case swap =>
    exact fun req hs hen hc _ ht => completes_of_onUnit rfl hengine (State.combSwap_off_spec hs hen hc ht frame req)
  case locked =>
    intro c hc hwarm hstandby hs
    refine completes_of_onUnit rfl (by simp [he, hc]) ?_
    rw [State.combLocked_standby hwarm hstandby hs]
    exact State.combState_setCombState s e c (by decide)
  case timeout =>
    intro w hw hcut
    refine completes_of_onUnit rfl hengine ?_
    rw [State.lockTimeout_refuses hw hcut]
    exact State.swapRefuse_spec hw
  case cutover =>
    intro hc hs
    refine completes_of_onUnit rfl hport ?_
    rw [State.combCut_alone hc hs, State.port_setPort_same]
    exact ⟨rfl, rfl⟩
  case disable => exact fun hup hs => completes_of_onUnit rfl hport (State.portDisable_up_spec hup hs)
  case enable => exact fun hd => completes_of_onUnit rfl hport (State.portEnable_disabled_spec hd)
  case drained => exact fun hd => completes_of_onUnit rfl hport (State.drainDone_spec hd)
  case engineOn =>
    intro v hv hen hb
    refine completes_of_onUnit rfl hengine ?_
    rw [hv, State.leEnable_early hen hb]
    exact State.f_setF_of_lt (by decide) (by decide)
  case engineOff =>
    intro v hv hen h0 h1
    refine completes_of_onUnit rfl hengine ?_
    rw [hv]
    exact State.leEnable_off_spec hen h0 h1 m
  case thresh =>
    intro v x hw hs
    refine completes_of_onUnit rfl hengine ?_
    rw [State.leThresh_ordered hw hs]
    exact State.threshStored_spec s e x

end Sys2Proof.Claims
end

section
/-! PROOF. The block as a whole: which commands answer a next state, what every step keeps, what an idle step does, and memory as
data (log entries 1 to 5; R395, R452). -/

namespace Sys2Proof.Machine

section
variable {s : State} {m n : List Host.Cell} {a b : Nat} {v w : Byte}

/-! ### Commands and units (log entries 2 and 3) -/

/-- Every meaning is a completion that is guarded by the units it names. -/
theorem exec_eq_onUnit (i : Instr) (s : State) : ∃ u, exec i s = onUnit i.wf (done u) := by
  cases i
  all_goals exact ⟨_, rfl⟩

theorem exec_of_wf {i : Instr} (h : i.wf = true) (s : State) : ∃ u, exec i s = done u := by
  obtain ⟨u, hu⟩ := exec_eq_onUnit i s
  exact ⟨u, by rw [hu, h, onUnit_true]⟩

theorem exec_of_not_wf {i : Instr} (h : i.wf = false) (s : State) : exec i s = .fault .noSuchUnit := by
  obtain ⟨u, hu⟩ := exec_eq_onUnit i s
  rw [hu, h]
  rfl

/-! ### Steps -/

theorem step_cons {c : Instr} {rest : List Instr} (h : s.pending = c :: rest) : step s = exec c { s with pending := rest } := by
  rw [step, h]

theorem step_idle (h : s.pending = []) : step s = .next s.idle := by
  rw [step, h]

/-- What a step answers meets the invariant and has the queue without its front command: an idle step, or the command at the front. -/
theorem step_kept {t : State} (hs : s.Inv) (h : step s = .next t) : Kept s.pending.tail t := by
  cases hq : s.pending with
  | nil =>
    rw [step_idle hq] at h
    rw [← Host.Outcome.next.inj h]
    exact idle_kept (kept_iff.mpr ⟨hs, hq⟩)
  | cons c rest =>
    rw [step_cons hq] at h
    have hrest : Kept rest { s with pending := rest } := kept_iff.mpr ⟨hs, rfl⟩
    exact exec_kept hrest h

/-! ### An idle nanosecond (R277, R395) -/

/-- A PHY's take changes the port's link and what has been sent. -/
theorem State.phyTake_rest (s : State) (p : Nat) : { s.phyTake p with fab := s.fab, out := s.out } = s := by
  unfold State.phyTake
  dsimp only
  split
  · rfl
  · exact (foldS_keeps (fun t : State => { t with fab := s.fab, out := s.out }) (f := fun (u : LinkUnit × Bool) t => t.send (.unit p u.1 u.2))
      (fun _ _ => rfl) _ _).trans rfl

theorem State.now_phyTake (s : State) (p : Nat) : (s.phyTake p).now = s.now := by
  have h := congrArg State.now (s.phyTake_rest p)
  exact h

theorem State.mem_phyTake (s : State) (p : Nat) : (s.phyTake p).mem = s.mem := by
  have h := congrArg State.mem (s.phyTake_rest p)
  exact h

theorem State.phyTake_of_empty {p : Nat} (h : (s.link p).fifo = []) : s.phyTake p = s := if_pos (.inl (by rw [h]; rfl))

/-- The time base counts in registers; of the rest a tick changes the slewing's state alone. -/
theorem State.tick_rest (s : State) : { s.tick with regs := s.regs, mgt := s.mgt } = s := by
  unfold State.tick
  dsimp only
  split
  · split <;> rfl
  · rfl

theorem State.mem_tick (s : State) : s.tick.mem = s.mem := by
  have h := congrArg State.mem s.tick_rest
  exact h

theorem State.fab_tick (s : State) : s.tick.fab = s.fab := by
  have h := congrArg State.fab s.tick_rest
  exact h

theorem State.now_idle (s : State) : s.idle.now = s.tick.now := foldS_keeps State.now (fun p s => s.now_phyTake p) _ _

theorem State.mem_idle (s : State) : s.idle.mem = s.mem :=
  (foldS_keeps State.mem (fun p s => s.mem_phyTake p) _ _).trans s.mem_tick

theorem State.idle_of_empty (h : ∀ p, p < 16 → (s.link p).fifo = []) : s.idle = s.tick := by
  refine foldS_fixed fun p hp => State.phyTake_of_empty ?_
  rw [State.link, s.fab_tick]
  exact h p (List.mem_range.mp hp)

/-! ### Settling -/

theorem settleN_of_quiet (h : s.quiet = true) : ∀ n, settleN n s = s
  | 0 => rfl
  | _ + 1 => if_pos h

/-! ### Memory as data (log entry 5) -/

/-- Below its first entry a canonical memory reads 0. -/
theorem cellGet_of_lt (h : ∀ p ∈ m, a < p.1) : cellGet m a = 0 := by
  induction m with
  | nil => rfl
  | cons p t ih =>
    obtain ⟨hp, ht⟩ := List.forall_mem_cons.mp h
    exact (if_neg (Nat.ne_of_gt hp)).trans (ih ht)

theorem cellGet_cons_same (t : List Host.Cell) : cellGet ((a, v) :: t) a = v := if_pos rfl

theorem cellGet_cons_ne (h : b ≠ a) (t : List Host.Cell) : cellGet ((b, v) :: t) a = cellGet t a := if_neg h

theorem cellGet_cellSet_same (h : cellsWf m = true) (a : Nat) (b : Byte) : cellGet (cellSet m a b) a = b := by
  induction m with
  | nil =>
    unfold cellSet
    split
    · exact Eq.symm ‹b = 0›
    · exact cellGet_cons_same []
  | cons p t ih =>
    obtain ⟨x, v⟩ := p
    obtain ⟨-, hx, ht⟩ := cellsWf_cons.mp h
    unfold cellSet
    rcases Nat.lt_trichotomy a x with hax | rfl | hax
    · have hbelow : ∀ p ∈ (x, v) :: t, a < p.1 := List.forall_mem_cons.mpr ⟨hax, fun p hp => hax.trans (hx p hp)⟩
      rw [if_pos hax]
      split
      · rw [cellGet_of_lt hbelow, ‹b = 0›]
      · exact cellGet_cons_same _
    · rw [if_neg (Nat.lt_irrefl a), if_pos rfl]
      split
      · rw [cellGet_of_lt hx, ‹b = 0›]
      · exact cellGet_cons_same _
    · rw [if_neg (Nat.not_lt.mpr hax.le), if_neg (Nat.ne_of_gt hax), cellGet_cons_ne (Nat.ne_of_lt hax), ih ht]

theorem cellGet_cellSet_ne {x : Nat} (hne : x ≠ a) (m : List Host.Cell) (b : Byte) : cellGet (cellSet m a b) x = cellGet m x := by
  induction m with
  | nil =>
    unfold cellSet
    split
    · rfl
    · exact cellGet_cons_ne (Ne.symm hne) []
  | cons p t ih =>
    obtain ⟨y, v⟩ := p
    unfold cellSet
    split
    · split
      · rfl
      · exact cellGet_cons_ne (Ne.symm hne) _
    · split
      · have hyx : y ≠ x := fun e => hne (by omega)
        rw [cellGet_cons_ne hyx]
        split
        · rfl
        · exact cellGet_cons_ne (Ne.symm hne) _
      · simp only [cellGet, ih]

/-- A canonical memory that starts at an address another does not list reads differently there. -/
theorem cellGet_head_ne (hm : cellsWf ((a, v) :: m) = true) (hn : ∀ p ∈ n, a < p.1) : cellGet ((a, v) :: m) a ≠ cellGet n a := by
  obtain ⟨hv, -, -⟩ := cellsWf_cons.mp hm
  rw [cellGet_cons_same, cellGet_of_lt hn]
  exact hv

/-- The first entry of a memory that reads the same as another is not below the other's first entry. -/
theorem first_le_of_reads_same (hm : cellsWf ((a, v) :: m) = true) (hn : cellsWf ((b, w) :: n) = true)
    (h : ∀ x, cellGet ((a, v) :: m) x = cellGet ((b, w) :: n) x) : b ≤ a := by
  obtain ⟨-, hb, -⟩ := cellsWf_cons.mp hn
  by_contra hab
  have hlt : a < b := Nat.lt_of_not_le hab
  exact cellGet_head_ne hm (List.forall_mem_cons.mpr ⟨hlt, fun p hp => hlt.trans (hb p hp)⟩) (h a)

theorem eq_of_reads_same (hm : cellsWf m = true) (hn : cellsWf n = true) (h : ∀ a, cellGet m a = cellGet n a) : m = n := by
  induction m generalizing n with
  | nil =>
    cases n with
    | nil => rfl
    | cons q n => exact absurd (h q.1).symm (cellGet_head_ne hn (by simp))
  | cons p m ih =>
    cases n with
    | nil => exact absurd (h p.1) (cellGet_head_ne hm (by simp))
    | cons q n =>
      obtain ⟨a, v⟩ := p
      obtain ⟨b, w⟩ := q
      obtain ⟨-, ha, htm⟩ := cellsWf_cons.mp hm
      obtain ⟨-, hb, htn⟩ := cellsWf_cons.mp hn
      obtain rfl : a = b := Nat.le_antisymm (first_le_of_reads_same hn hm fun x => (h x).symm) (first_le_of_reads_same hm hn h)
      obtain rfl : v = w := by simpa [cellGet] using h a
      have htail : ∀ x, cellGet m x = cellGet n x := by
        intro x
        by_cases hx : x = a
        · subst hx
          rw [cellGet_of_lt ha, cellGet_of_lt hb]
        · simpa only [cellGet_cons_ne (Ne.symm hx)] using h x
      rw [ih htm htn htail]

end

end Sys2Proof.Machine

namespace Sys2Proof.Claims
open Sys2Proof Sys2Proof.Machine

/-! ### The obligations -/

/-- Settles O6: an idle step and every command keep the invariant and the rest of the queue. -/
theorem everyStepKeepsInvariant : Obligations.EveryStepKeepsInvariant := fun _ _ hs h => kept_iff.mp (step_kept hs h)

/-- Settles O3: a well-formed command is a completion. -/
theorem wellFormedCommandsComplete : Obligations.WellFormedCommandsComplete := by
  intro i s h
  obtain ⟨u, hu⟩ := exec_of_wf h s
  exact ⟨settle u, hu⟩

/-- Settles O4: a command that is not well-formed does not reach its meaning. -/
theorem unknownUnitsFault : Obligations.UnknownUnitsFault := fun _ s h => exec_of_not_wf h s

/-- Settles O8, by the order of the entries. -/
theorem memoryReadAfterWrite : Obligations.MemoryReadAfterWrite := fun m a b h =>
  ⟨cellSet_wf m a b h, cellGet_cellSet_same h a b, fun _ hx => cellGet_cellSet_ne hx m b⟩

/-- Settles O9, entry by entry: canonical memories that read the same start at the same address. -/
theorem equalMemoriesAreEqualData : Obligations.EqualMemoriesAreEqualData := fun _ _ hm hn h => eq_of_reads_same hm hn h

/-- Settles O1, by the definition of a step. -/
theorem stepRunsFrontCommand : Obligations.StepRunsFrontCommand := fun _ _ _ h => step_cons h

/-- Settles O2: the ports' FIFOs hold neither the time base nor memory. -/
theorem idleStepIsOneTick : Obligations.IdleStepIsOneTick := fun s h => ⟨step_idle h, s.now_idle, s.mem_idle, State.idle_of_empty⟩

/-- Settles O5: at reset memory, the ring, the log and the poison list are empty. -/
theorem invariantAtReset : Obligations.InvariantAtReset := by
  refine ⟨⟨rfl, ?ring, ?log, ?poison⟩, rfl⟩
  case ring => exact Nat.zero_le _
  case log => exact Nat.zero_le _
  case poison => exact fun _ hx => absurd hx List.not_mem_nil

/-- Settles O7: a quiet state ends settling at once. -/
theorem quietStateIsSettled : Obligations.QuietStateIsSettled := fun _ h => ⟨settle_of_quiet h, settleN_of_quiet h⟩

end Sys2Proof.Claims
end

section
/-! PROOF. The links of the fabric and the router (R306 to R309, R316, R317, R330 to R332): what each row of a port leaves in its link
layer and in the cabling and usability registers, and `FabricLinksComplete` from it. -/

namespace Sys2Proof.Machine

section
variable {s t : State} {p v n lseq fpool : Nat} {x : Fld} {u : LinkUnit} {c cell : Cell} {l : LinkSt}

/-! ### The link layer of a port -/

theorem State.link_of_fab (h : t.fab = s.fab) (p : Nat) : t.link p = s.link p := by rw [State.link, h, State.link]

@[simp] theorem State.link_occ (s : State) (p : Nat) : s.occ.link p = s.link p := rfl

@[simp] theorem State.link_setF (s : State) (x : Fld) (v i j p : Nat) : (s.setF x v i j).link p = s.link p := rfl

@[simp] theorem State.link_bump (s : State) (x : Fld) (k i j p : Nat) : (s.bump x k i j).link p = s.link p := rfl

@[simp] theorem State.fab_injFire (s : State) : s.injFire.fab = s.fab := by
  unfold State.injFire
  exact State.raise_fab _ _ _

theorem State.link_toPhy (h : t.link p = l) (u : LinkUnit) (bad : Bool) : (t.toPhy p u bad).link p = { l with fifo := l.fifo ++ [(u, bad)] } := by
  rw [← h]
  exact State.link_setLink_same _ _ _

/-- The unit that a port sends, with LACK and the credits owed (R306, R307). -/
def State.unitSent (s : State) (p : Nat) (cell : Option Cell) (lseq fpool : Nat) (counts : Option (List Nat × List Nat)) : LinkUnit :=
  let credits := (takeOwed (s.link p).owed).1
  { cell := cell, lseq := lseq, lack := (s.link p).expect, cvc := credits.1, ccnt := credits.2.2, cpool := credits.2.1, fpool := fpool,
    counts := counts }

/-- A unit sent stands last in the crossing FIFO, and the credits it carries are no longer owed; the rest of the link stays. -/
theorem State.link_sendUnit (s : State) (p : Nat) (cell : Option Cell) (lseq fpool : Nat) (counts : Option (List Nat × List Nat)) :
    ∃ bad, (s.sendUnit p cell lseq fpool counts).link p = { s.link p with
      owed := (takeOwed (s.link p).owed).2, fifo := (s.link p).fifo ++ [(s.unitSent p cell lseq fpool counts, bad)] } := by
  unfold State.sendUnit
  dsimp only
  split
  · exact ⟨true, State.link_toPhy ((State.link_of_fab (State.fab_injFire _) p).trans (State.link_setLink_same _ _ _)) _ _⟩
  · split
    · exact ⟨true, State.link_toPhy (State.link_setLink_same _ _ _) _ _⟩
    · exact ⟨false, State.link_toPhy (State.link_setLink_same _ _ _) _ _⟩

/-! ### A received unit (R306 to R308) -/

/-- A unit without changed bits, all of whose lanes' codewords arrive, reaches the link layer as it was sent, its CRC right. -/
theorem State.unitArrives_intact (s : State) (p : Nat) (u : LinkUnit) (first : Nat) :
    s.unitArrives p u 0 first [] = s.unitRecv p u true := by
  have hlost : ((unitLanes (s.lanesOn p) first).any fun k => ([] : List Nat).contains k) = false := by simp
  have hbits : ∀ l w, bitsAt 0 l w = 0 := fun l w => by simp [bitsAt]
  have harrive : unitArrival u 0 = (u, true) := by simp [unitArrival, hbits]
  rw [State.unitArrives, hlost, harrive]
  rfl

/-- LACK and returned credits leave the receiving side of the link alone. -/
theorem State.rx_lackRecv (s : State) (p lack : Nat) :
    ((s.lackRecv p lack).link p).expect = (s.link p).expect ∧ ((s.lackRecv p lack).link p).rx = (s.link p).rx := by
  unfold State.lackRecv
  dsimp only
  split
  · exact ⟨rfl, rfl⟩
  · rw [State.link_occ, State.link_setLink_same]
    exact ⟨rfl, rfl⟩

theorem State.rx_credits (s : State) (p vc pool n : Nat) :
    ((s.credits p vc pool n).link p).expect = (s.link p).expect ∧ ((s.credits p vc pool n).link p).rx = (s.link p).rx := by
  unfold State.credits
  dsimp only
  split
  · rw [State.link_setLink_same]
    exact ⟨rfl, rfl⟩
  · rw [State.link_setLink_same]
    exact ⟨rfl, rfl⟩

/-- The channel of a cell's class and rank (R314). -/
def cellChannel (c : Cell) : Nat := 2 * (c.cls % 4) + (if c.rank = 4 ∨ c.rank = 5 ∨ c.rank = 6 then 1 else 0)

theorem State.unitRecv_expected (hp : s.carries p = true) (hc : u.cell = some cell) (hl : u.lseq = (s.link p).expect) :
    ((s.unitRecv p u true).link p).expect = ((s.link p).expect + 1) % 32768 ∧
    ((s.unitRecv p u true).link p).rx = (s.link p).rx ++ [⟨cellChannel cell, u.fpool, cell⟩] := by
  obtain ⟨hexpect, hrx⟩ := (s.lackRecv p u.lack).rx_credits p u.cvc u.cpool u.ccnt
  obtain ⟨hexpect', hrx'⟩ := s.rx_lackRecv p u.lack
  have htaken : s.unitRecv p u true = (((s.lackRecv p u.lack).credits p u.cvc u.cpool u.ccnt).setLink p
      { ((s.lackRecv p u.lack).credits p u.cvc u.cpool u.ccnt).link p with
        expect := ((((s.lackRecv p u.lack).credits p u.cvc u.cpool u.ccnt).link p).expect + 1) % 32768,
        rx := (((s.lackRecv p u.lack).credits p u.cvc u.cpool u.ccnt).link p).rx ++ [⟨cellChannel cell, u.fpool, cell⟩] }).occ := by
    simp only [State.unitRecv, hp, hc, hl, Bool.not_true, Bool.false_eq_true, if_false, if_true, cellChannel]
  rw [htaken, State.link_occ, State.link_setLink_same, hexpect, hexpect', hrx, hrx']
  exact ⟨rfl, rfl⟩

/-! ### Resends (R308) and link control (R307) -/

/-- A unit in the crossing FIFO as its cell and LSEQ. -/
def fifoKeys (l : LinkSt) : List (Option Cell × Nat) := l.fifo.map fun x => (x.1.cell, x.1.lseq)

/-- Units sent in turn stand in that order in the crossing FIFO; the retry buffer and the count of resends stay. -/
theorem State.link_sendUnits (l : List RetryUnit) (s : State) (p : Nat) :
    let t := foldS l (fun u s => s.sendUnit p (some u.cell) u.lseq u.pool none) s
    (t.link p).resends = (s.link p).resends ∧ (t.link p).retry = (s.link p).retry ∧
    fifoKeys (t.link p) = fifoKeys (s.link p) ++ l.map fun u => (some u.cell, u.lseq) := by
  unfold foldS
  induction l generalizing s with
  | nil => simp
  | cons r l ih =>
    obtain ⟨bad, hlink⟩ := s.link_sendUnit p (some r.cell) r.lseq r.pool none
    obtain ⟨hresends, hretry, hfifo⟩ := ih (s.sendUnit p (some r.cell) r.lseq r.pool none)
    refine ⟨hresends.trans (by rw [hlink]), hretry.trans (by rw [hlink]), hfifo.trans ?_⟩
    rw [hlink]
    simp [fifoKeys, State.unitSent]

/-- The units that a resend from `lseq` on sends. -/
def LinkSt.due (l : LinkSt) (lseq : Nat) : List RetryUnit := l.retry.filter fun u => decide ((u.lseq + 32768 - lseq) % 32768 < 16384)

theorem State.resend_sends (hp : s.carries p = true) (hr : (s.link p).retry ≠ []) (hn : (s.link p).resends + 1 < 16) (lseq : Nat) :
    ((s.resend p lseq).link p).resends = (s.link p).resends + 1 ∧ ((s.resend p lseq).link p).retry = (s.link p).retry ∧
    fifoKeys ((s.resend p lseq).link p) = fifoKeys (s.link p) ++ ((s.link p).due lseq).map fun u => (some u.cell, u.lseq) := by
  have hsent : s.resend p lseq = foldS ((s.link p).due lseq) (fun u s => s.sendUnit p (some u.cell) u.lseq u.pool none)
      ((s.bump F.FAB_PORT_CNT_RESENDS 1 p).setLink p { s.link p with resends := (s.link p).resends + 1 }) := by
    have hlimit : ¬ 16 ≤ (s.link p).resends + 1 := Nat.not_le.mpr hn
    simp [State.resend, hp, hr, hlimit, LinkSt.due]
  obtain ⟨hresends, hretry, hfifo⟩ := State.link_sendUnits ((s.link p).due lseq)
    ((s.bump F.FAB_PORT_CNT_RESENDS 1 p).setLink p { s.link p with resends := (s.link p).resends + 1 }) p
  rw [← hsent, State.link_setLink_same] at hresends hretry hfifo
  exact ⟨hresends, hretry, hfifo⟩

theorem State.resendOldest_cons {r : RetryUnit} {rs : List RetryUnit} (h : (s.link p).retry = r :: rs) :
    s.resendOldest p = s.resend p r.lseq := by rw [State.resendOldest, h]

/-- The credits free in each pool of a receive buffer (R307). -/
def LinkSt.freeCredits (l : LinkSt) : List Nat × List Nat :=
  ((List.range 8).map (fun v => 256 - (l.rx.filter fun u => u.pool == 0 && u.vc == v).length), [22528 - (l.rx.filter fun u => u.pool == 1).length])

theorem State.controlUnit_sends (hp : s.carries p = true) (hroom : s.phyRoom p = true) : ∃ x bad,
    ((s.controlUnit p).link p).fifo = (s.link p).fifo ++ [(x, bad)] ∧ x.cell = none ∧ x.counts = some (s.link p).freeCredits := by
  have hsent : s.controlUnit p = s.sendUnit p none 0 0 (some (s.link p).freeCredits) := by
    simp [State.controlUnit, hp, hroom, LinkSt.freeCredits]
  obtain ⟨bad, hlink⟩ := s.link_sendUnit p none 0 0 (some (s.link p).freeCredits)
  exact ⟨_, bad, by rw [hsent, hlink], rfl, rfl⟩

/-! ### A cell for the module itself (R316) -/

/-- The route of a unicast cell of a fabric kind for an endpoint of this module. -/
theorem State.hops_own (hmc : c.mc = false) (hk : c.kind ∈ [1, 2, 3, 4]) (hr : addrRack c.dst = s.rackNo) (hl : addrLocal c.dst = s.localIdx)
    (hf : addrFunc c.dst < 2) : s.hops c = ([.eject], s) := by
  have hkind : ¬ (5 ≤ c.kind ∨ c.kind = 0) := by
    simp only [List.mem_cons, List.not_mem_nil, or_false] at hk
    omega
  have hfunc : ¬ 2 ≤ addrFunc c.dst := Nat.not_le.mpr hf
  rw [not_or] at hkind
  simp [State.hops, hmc, hkind, hfunc, hr, hl]

theorem State.routeCell_own (hmc : c.mc = false) (hk : c.kind ∈ [1, 2, 3, 4]) (hr : addrRack c.dst = s.rackNo) (hl : addrLocal c.dst = s.localIdx)
    (hf : addrFunc c.dst < 2) (hb : s.bankState c.epoch ∈ [2, 3, 4]) (p : Nat) :
    s.routeCell p c = some { s with fab := { s.fab with eject := s.fab.eject ++ [c] } } := by
  have hbank : s.bankState c.epoch = 2 ∨ s.bankState c.epoch = 3 ∨ s.bankState c.epoch = 4 := by simpa using hb
  simp [State.routeCell, hbank, State.hops_own hmc hk hr hl hf, foldS, State.takeHop]

theorem State.cellRoute_own {x : RxUnit} (hp : p < 16) (he : s.f F.FAB_CTRL_ENABLE = 1) (hx : (s.link p).rx.find? (fun u => u.vc == v) = some x)
    (hmc : x.cell.mc = false) (hk : x.cell.kind ∈ [1, 2, 3, 4]) (hr : addrRack x.cell.dst = s.rackNo) (hl : addrLocal x.cell.dst = s.localIdx)
    (hf : addrFunc x.cell.dst < 2) (hb : s.bankState x.cell.epoch ∈ [2, 3, 4]) :
    (s.cellRoute p v).fab.eject = s.fab.eject ++ [x.cell] ∧ ((s.cellRoute p v).link p).rx = (s.link p).rx.erase x := by
  have hport : p ≠ 16 := Nat.ne_of_lt hp
  have hroute := State.routeCell_own (s := s.setLink p { s.link p with rx := (s.link p).rx.erase x, owed := (s.link p).owed ++ [(x.vc, x.pool)] })
    hmc hk hr hl hf hb p
  have hlink := s.link_setLink_same p { s.link p with rx := (s.link p).rx.erase x, owed := (s.link p).owed ++ [(x.vc, x.pool)] }
  simp only [State.cellRoute, he, hport, hx, hroute, one_ne_zero, if_false]
  exact ⟨rfl, congrArg LinkSt.rx hlink⟩

/-! ### Usability and the cabling check (R317, R330 to R332) -/

theorem State.usable_setUsable (s : State) (p : Nat) : (s.setUsable p).f F.FAB_PORT_STAT_USABLE p = if s.usableNow p then 1 else 0 :=
  State.f_setF_of_lt (by decide) (by split <;> decide)

theorem State.accepted_cableAccept (h : s.f F.FAB_PORT_STAT_CHECK p ∈ [2, 3, 4]) : (s.cableAccept p).f F.FAB_PORT_STAT_ACCEPTED p = 1 := by
  have hcheck : s.f F.FAB_PORT_STAT_CHECK p = 2 ∨ s.f F.FAB_PORT_STAT_CHECK p = 3 ∨ s.f F.FAB_PORT_STAT_CHECK p = 4 := by simpa using h
  rw [State.cableAccept, if_pos hcheck]
  exact State.f_setF_of_lt (by decide) (by decide)

theorem State.check_setCheck (s : State) (p : Nat) (hv : v < 2 ^ F.FAB_PORT_STAT_CHECK.w) : (s.setCheck p v).f F.FAB_PORT_STAT_CHECK p = v := by
  unfold State.setCheck
  dsimp only
  rw [State.f_setF_spared (by decide), State.f_setF_spared (by decide), State.f_setF_spared (by decide), State.f_setF_spared (by decide)]
  exact State.f_setF_of_lt (by decide) hv

/-- A planned port whose peer and peer port are the expected ones, another module, matches (Table 11-10). -/
theorem State.cableCheck_match (hid : s.f F.LE_PORT_STATUS_PEER_VALID p = 1) (hplan : s.f F.FAB_PORT_EXPECT_PLANNED p = 1)
    (hpeer : s.f F.LE_PORT_STATUS_PEER p = s.f F.FAB_PORT_EXPECT_PEER p)
    (hport : s.f F.LE_PORT_STATUS_PEER_PORT p = s.f F.FAB_PORT_EXPECT_PEER_PORT p) (hself : s.f F.LE_PORT_STATUS_PEER p / 4 ≠ s.self / 4) :
    s.cableCheck p = s.setCheck p 1 := by
  rw [hpeer] at hself
  simp only [State.cableCheck, hid, hplan, hpeer, hport, hself, one_ne_zero, if_false, if_true]
  split <;> rfl

end

end Sys2Proof.Machine

namespace Sys2Proof.Claims
open Sys2Proof Sys2Proof.Machine

/-! ### The obligation -/

/-- Settles O37: each clause is the fact about its operation. -/
theorem fabricLinksComplete : Obligations.FabricLinksComplete := by
  intro s p m hp
  have hport : decide (p < 16) = true := decide_eq_true hp
  refine ⟨?receive, ?nak, ?timeout, ?control, ?route, ?usable, ?accept, ?recheck⟩
  case receive =>
    intro u cell first hc hcell hl
    refine completes_of_onUnit rfl hport ?_
    rw [State.unitArrives_intact]
    exact State.unitRecv_expected hc hcell hl
  case nak => exact fun lseq hc hr hn => completes_of_onUnit rfl hport (State.resend_sends hc hr hn lseq)
  case timeout =>
    intro x xs hc hr hn
    refine completes_of_onUnit rfl hport ?_
    rw [State.resendOldest_cons hr]
    obtain ⟨hresends, -, hfifo⟩ := State.resend_sends hc (hr ▸ List.cons_ne_nil x xs) hn x.lseq
    exact ⟨hresends, hfifo⟩
  case control => exact fun hc hroom => completes_of_onUnit rfl hport (State.controlUnit_sends hc hroom)
  case route =>
    intro v x hv he hx hmc hk hr hl hf hb
    exact completes_of_onUnit rfl (by simp [hp.le, hv]) (State.cellRoute_own hp he hx hmc hk hr hl hf hb)
  case usable => exact completes_of_onUnit rfl hport (s.usable_setUsable p)
  case accept => exact fun h => completes_of_onUnit rfl hport (State.accepted_cableAccept h)
  case recheck =>
    intro hid hplan hpeer hpp hself
    refine completes_of_onUnit rfl hport ?_
    rw [State.cableCheck_match hid hplan hpeer hpp hself]
    exact s.check_setCheck p (by decide)

end Sys2Proof.Claims
end

section
/-! PROOF. Routing-table banks, the module's address, the unreachable list and the FENCE time-out (R318, R319, R327 to R329, R333, R334):
what each row leaves, and `FabricTablesComplete` from it. -/

namespace Sys2Proof.Machine

section
variable {s : State} {b c v r : Nat} {y : Fld}

/-! ### Banks (R318, R319) -/

theorem State.bankState_setBank_same (s : State) (b : Nat) (hv : v < 8) : (s.setBank b v).bankState b = v := by
  unfold State.bankState State.setBank
  split
  · exact State.f_setF_of_lt (by decide) hv
  · exact State.f_setF_of_lt (by decide) hv

theorem State.bankState_setBank_other (hc : c < 2) (s : State) (v : Nat) : (s.setBank (1 - c) v).bankState c = s.bankState c := by
  have hbank : c = 0 ∨ c = 1 := by omega
  rcases hbank with rfl | rfl
  · exact State.f_setF_spared (by decide)
  · exact State.f_setF_spared (by decide)

theorem State.f_setBank (h0 : F.FAB_RT_CTRL_STATE0.spares y = true) (h1 : F.FAB_RT_CTRL_STATE1.spares y = true) (s : State) (b v : Nat) :
    (s.setBank b v).f y = s.f y := by
  unfold State.setBank
  split
  · exact State.f_setF_spared h0
  · exact State.f_setF_spared h1

theorem State.cur_setBank (s : State) (b v : Nat) : (s.setBank b v).f F.FAB_RT_CTRL_CUR = s.f F.FAB_RT_CTRL_CUR :=
  State.f_setBank (by decide) (by decide) s b v

theorem State.bankState_setF_cur (s : State) (b v : Nat) : (s.setF F.FAB_RT_CTRL_CUR v).bankState b = s.bankState b := by
  unfold State.bankState
  split
  · exact State.f_setF_spared (by decide)
  · exact State.f_setF_spared (by decide)

theorem State.rtLoad_idle (hc : s.f F.FAB_RT_CTRL_CUR = c) (hb : s.bankState (1 - c) = 0) : s.rtLoad = s.setBank (1 - c) 1 := by
  subst hc
  exact if_pos hb

theorem State.rtArm_loading (hc : s.f F.FAB_RT_CTRL_CUR = c) (hb : s.bankState (1 - c) = 1) : s.rtArm = s.setBank (1 - c) 2 := by
  subst hc
  exact if_pos hb

theorem State.rtFlip_ready (hc : s.f F.FAB_RT_CTRL_CUR = c) (hb : s.bankState (1 - c) = 2) :
    s.rtFlip = ((s.setBank (1 - c) 3).setBank c 4).setF F.FAB_RT_CTRL_CUR (1 - c) := by
  subst hc
  exact if_pos hb

theorem State.rtFlip_spec (hc : s.f F.FAB_RT_CTRL_CUR = c) (hlt : c < 2) (hb : s.bankState (1 - c) = 2) :
    s.rtFlip.bankState (1 - c) = 3 ∧ s.rtFlip.bankState c = 4 ∧ s.rtFlip.f F.FAB_RT_CTRL_CUR = 1 - c := by
  have hother : ((s.setBank (1 - c) 3).setBank c 4).bankState (1 - c) = (s.setBank (1 - c) 3).bankState (1 - c) := by
    have h := (s.setBank (1 - c) 3).bankState_setBank_other (c := 1 - c) (by omega) 4
    rwa [show 1 - (1 - c) = c by omega] at h
  rw [State.rtFlip_ready hc hb, State.bankState_setF_cur, State.bankState_setF_cur, hother]
  exact ⟨s.bankState_setBank_same _ (by decide), State.bankState_setBank_same _ _ (by decide),
    State.f_setF_of_lt (by decide) (Nat.lt_of_le_of_lt (Nat.sub_le 1 c) (by decide))⟩

theorem State.rtDrained_idle (hb : s.bankState b = 4) (ho : s.f (if b = 0 then F.FAB_RT_OCC_OCC0 else F.FAB_RT_OCC_OCC1) = 0) :
    (s.rtDrained b).bankState b = 0 := by
  rw [State.rtDrained, if_pos ⟨hb, ho⟩]
  exact s.bankState_setBank_same b (by decide)

theorem State.rd_rtEntry (hb : s.bankState b = 1) (loc : Bool) (r v : Nat) (m : Master) :
    (s.rtEntry b loc r v m).rd (if loc then .FAB_RT_LOCAL else .FAB_RT_RACK) b r = BitVec.ofNat 64 (v % 256) := by
  unfold State.rtEntry
  dsimp only
  rw [if_pos hb]
  exact State.rd_wr_same _ _ _ _ _

/-! ### Address and enable (R333, R334) -/

theorem State.f_setExpect (hy : y.reg ≠ .FAB_PORT_EXPECT) (p : Nat) (s : State) (i j : Nat) : (s.setExpect p).f y i j = s.f y i j := by
  unfold State.setExpect
  dsimp only
  rw [State.f_setF_reg _ _ _ _ _ _ _ _ (Ne.symm hy) (by decide), State.f_setF_reg _ _ _ _ _ _ _ _ (Ne.symm hy) (by decide),
    State.f_setF_reg _ _ _ _ _ _ _ _ (Ne.symm hy) (by decide)]

/-- RACK and RACKS as a legal write of FAB_ADDR stores them. -/
def State.addrStored (s : State) (rack racks : Nat) : State :=
  ((s.setF F.FAB_ADDR_RACK rack).setF F.FAB_ADDR_RACKS racks).setF F.FAB_ADDR_RACK_VALID 1

theorem State.f_fabAddr (hy : y.reg ≠ .FAB_PORT_EXPECT) (he : s.f F.FAB_CTRL_ENABLE = 0) (hr : getBits (BitVec.ofNat 64 v) 8 8 ≤ 128)
    (hlt : getBits (BitVec.ofNat 64 v) 8 8 < getBits (BitVec.ofNat 64 v) 24 8) (hn : getBits (BitVec.ofNat 64 v) 24 8 ≤ 129) (m : Master) :
    (s.fabAddr v m).f y = (s.addrStored (getBits (BitVec.ofNat 64 v) 8 8) (getBits (BitVec.ofNat 64 v) 24 8)).f y := by
  have hlegal : ¬ (s.f F.FAB_CTRL_ENABLE = 1 ∨ 128 < getBits (BitVec.ofNat 64 v) 8 8 ∨
      getBits (BitVec.ofNat 64 v) 24 8 ≤ getBits (BitVec.ofNat 64 v) 8 8 ∨ getBits (BitVec.ofNat 64 v) 24 8 = 0 ∨
      129 < getBits (BitVec.ofNat 64 v) 24 8) := by omega
  unfold State.fabAddr
  dsimp only
  rw [if_neg hlegal]
  exact foldS_keeps (fun t : State => t.f y) (fun p t => State.f_setExpect hy p t 0 0) _ _

theorem State.fabAddr_spec (he : s.f F.FAB_CTRL_ENABLE = 0) (hr : getBits (BitVec.ofNat 64 v) 8 8 ≤ 128)
    (hlt : getBits (BitVec.ofNat 64 v) 8 8 < getBits (BitVec.ofNat 64 v) 24 8) (hn : getBits (BitVec.ofNat 64 v) 24 8 ≤ 129) (m : Master) :
    (s.fabAddr v m).f F.FAB_ADDR_RACK = getBits (BitVec.ofNat 64 v) 8 8 ∧ (s.fabAddr v m).f F.FAB_ADDR_RACKS = getBits (BitVec.ofNat 64 v) 24 8 ∧
    (s.fabAddr v m).f F.FAB_ADDR_RACK_VALID = 1 := by
  rw [State.f_fabAddr (by decide) he hr hlt hn, State.f_fabAddr (by decide) he hr hlt hn, State.f_fabAddr (by decide) he hr hlt hn]
  unfold State.addrStored
  refine ⟨?_, ?_, State.f_setF_of_lt (by decide) (by decide)⟩
  · rw [State.f_setF_spared (by decide), State.f_setF_spared (by decide)]
    exact State.f_setF_of_lt (by decide) (getBits_lt _ _ _)
  · rw [State.f_setF_spared (by decide)]
    exact State.f_setF_of_lt (by decide) (getBits_lt _ _ _)

theorem State.fabEnable_spec (h : s.f F.FAB_ADDR_RACK_VALID = 1) (v : Nat) :
    (s.fabEnable v).f F.FAB_CTRL_ENABLE = v % 2 ∧ { s.fabEnable v with regs := s.regs } = s := by
  have hvalid : ¬ (v % 2 = 1 ∧ s.f F.FAB_ADDR_RACK_VALID = 0) := by simp [h]
  rw [State.fabEnable, if_neg hvalid]
  exact ⟨State.f_setF_of_lt (by decide) (Nat.mod_lt _ (by decide)), rfl⟩

/-! ### The FENCE time-out (R329) -/

theorem State.cmd_modCmd {q n : Nat} {d : Cmd} {f : Cmd → Cmd} (h : s.cmd q n = some d) (hq : (f d).q = d.q) (hn : (f d).seq = d.seq) :
    (s.modCmd q n f).cmd q n = some (f d) := by
  obtain ⟨rfl, rfl⟩ := State.key_of_cmd h
  rw [State.modCmd_of_cmd h]
  have hput := s.cmd_putCmd_same (f d)
  rwa [hq, hn] at hput

/-- A fence's command that has not retired ends with status and detail. -/
theorem State.cmd_fenceEnd {j : FenceJob} {d : Cmd} (h : s.cmd j.q j.seq = some d) (hr : d.retired = false) (st dt : Nat) :
    (s.fenceEnd j st dt).cmd j.q j.seq = some { d with status := st, detail := dt, execDone := true, noOutputs := true } := by
  have hlive : ¬ d.retired = true := by simp [hr]
  have hd : (s.setFences (s.fab.fences.filter fun x => !(x.q == j.q && x.seq == j.seq))).cmd j.q j.seq = some d := h
  have hend := State.cmd_modCmd (f := fun c => if c.retired then c else { c with status := st, detail := dt, execDone := true, noOutputs := true })
    hd (by rw [if_neg hlive]) (by rw [if_neg hlive])
  rwa [if_neg hlive] at hend

theorem State.fenceTimeout_outstanding {q n : Nat} {j : FenceJob} {d : Cmd} {x : Nat × Nat × Nat}
    (hj : s.fab.fences.find? (fun j => j.q == q && j.seq == n) = some j) (hd : s.cmd q n = some d) (hl : (fenceArgs d.pkt).1.limit ≠ 0)
    (hx : j.targets.find? (fun t => !s.fencePast t) = some x) : s.fenceTimeout q n = s.fenceEnd j 0x39 (x.1 + x.2.1 * 2 ^ 16) := by
  simp [State.fenceTimeout, hj, hd, hl, hx]

theorem State.fenceTimeout_spec {q n : Nat} {j : FenceJob} {d : Cmd} {x : Nat × Nat × Nat}
    (hj : s.fab.fences.find? (fun j => j.q == q && j.seq == n) = some j) (hd : s.cmd q n = some d) (hr : d.retired = false)
    (hl : (fenceArgs d.pkt).1.limit ≠ 0) (hx : j.targets.find? (fun t => !s.fencePast t) = some x) : (s.fenceTimeout q n).cmd q n =
      some { d with status := 0x39, detail := x.1 + x.2.1 * 2 ^ 16, execDone := true, noOutputs := true } := by
  rw [State.fenceTimeout_outstanding hj hd hl hx]
  obtain ⟨rfl, rfl⟩ : j.q = q ∧ j.seq = n := by simpa using List.find?_some hj
  exact State.cmd_fenceEnd hd hr _ _

end

end Sys2Proof.Machine

namespace Sys2Proof.Claims
open Sys2Proof Sys2Proof.Machine

/-! ### The obligation -/

/-- Settles O38: each clause is the fact about its operation. -/
theorem fabricTablesComplete : Obligations.FabricTablesComplete := by
  intro s m
  refine ⟨fun c hc hlt => ⟨?load, ?arm, ?flip⟩, ?drained, ?localEntry, ?rackEntry, ?address, ?enable, ?clear, ?timeout⟩
  case load =>
    exact fun hb => completes_of_done rfl
      (State.rtLoad_idle hc hb ▸ ⟨s.bankState_setBank_same _ (by decide), (s.cur_setBank _ _).trans hc⟩)
  case arm =>
    exact fun hb => completes_of_done rfl
      (State.rtArm_loading hc hb ▸ ⟨s.bankState_setBank_same _ (by decide), (s.cur_setBank _ _).trans hc⟩)
  case flip => exact fun hb => completes_of_done rfl (State.rtFlip_spec hc hlt hb)
  case drained => exact fun b hlt hb ho => completes_of_onUnit rfl (decide_eq_true hlt) (State.rtDrained_idle hb ho)
  case localEntry =>
    exact fun b r v hlt hr hb => completes_of_onUnit rfl (by simp [hlt, hr]) (State.rd_rtEntry hb true r v m)
  case rackEntry =>
    exact fun b r v hlt hr hb => completes_of_onUnit rfl (by simp [hlt, hr]) (State.rd_rtEntry hb false r v m)
  case address => exact fun v he hr hlt hn => completes_of_done rfl (State.fabAddr_spec he hr hlt hn m)
  case enable =>
    intro v hvalid
    obtain ⟨henable, hrest⟩ := State.fabEnable_spec hvalid (v % 2)
    exact completes_of_done rfl ⟨henable.trans (Nat.mod_mod v 2), hrest⟩
  case clear => exact fun a => completes_of_done rfl ⟨rfl, rfl⟩
  case timeout =>
    exact fun q n j d x hq hj hd hr hl hx => completes_of_onUnit rfl (decide_eq_true hq) (State.fenceTimeout_spec hj hd hr hl hx)

end Sys2Proof.Claims
end

section
/-! PROOF. The end-to-end layer (R321 to R327): what a received DATA, CLOSE, ACK and RESET cell, a late acknowledgement, a retransmission
and an eviction leave in the peer entries, the inbox and the cells that wait for injection, and `EndToEndComplete` from it. -/

namespace Sys2Proof.Machine

section
variable {s t : State} {a c g cl : Nat} {x : Cell} {e : TxEnt} {y : TxCls} {r : RxCls}

/-! ### Cells that wait for injection -/

/-- A cell injected takes the current epoch and rank 0 and stands last. -/
theorem State.fab_cellInject (x : Cell) (s : State) : (cellInject x s).fab =
    { s.fab with inject := s.fab.inject ++ [{ x with epoch := s.f F.FAB_RT_CTRL_CUR, rank := 0 }] } := rfl

/-- Injecting changes, of the fabric, only the cells that wait for injection. -/
theorem State.fab_foldS_cellInject {α : Type} (l : List α) (k : α → Cell) (s : State) (i : List Cell) :
    { (foldS l (fun z s => cellInject (k z) s) s).fab with inject := i } = { s.fab with inject := i } :=
  foldS_keeps (fun t : State => { t.fab with inject := i }) (f := fun z s => cellInject (k z) s) (fun _ _ => rfl) l s

/-- Cells injected in turn stand in that order behind the others; `h` reads of a cell neither epoch nor rank. -/
theorem State.inject_foldS_cellInject {α β : Type} (h : Cell → β) (hh : ∀ (x : Cell) n, h { x with epoch := n, rank := 0 } = h x)
    (l : List α) (k : α → Cell) (s : State) :
    (foldS l (fun z s => cellInject (k z) s) s).fab.inject.map h = s.fab.inject.map h ++ l.map fun z => h (k z) := by
  unfold foldS
  induction l generalizing s with
  | nil => simp
  | cons z l ih =>
    rw [List.foldl_cons, ih, State.fab_cellInject]
    simp [hh]

/-! ### What the backlog and the entries' counts leave alone -/

theorem State.fab_pump (h : s.fab.backlog = []) : s.pump.fab = s.fab := by
  unfold State.pump
  rw [h]
  simp only [pumpList, ← h]

theorem State.f_pump (h : s.fab.backlog = []) (z : Fld) (i j : Nat) : s.pump.f z i j = s.f z i j := by
  unfold State.pump
  rw [h]
  rfl

theorem State.mget_setTx (s : State) (a : Nat) (e : TxEnt) : mget (s.setTx a e).fab.tx a = some e := mget_mset_same _ _ _

theorem mem_mset {κ ν : Type} [DecidableEq κ] {m : List (κ × ν)} {k : κ} {v : ν} {z : κ × ν} (h : z ∈ mset m k v) : z = (k, v) ∨ z ∈ m := by
  induction m with
  | nil => simpa [mset] using h
  | cons p m ih =>
    unfold mset at h
    split at h
    · rcases List.mem_cons.mp h with rfl | h
      · exact .inl rfl
      · exact .inr (List.mem_cons_of_mem _ h)
    · rcases List.mem_cons.mp h with rfl | h
      · exact .inr List.mem_cons_self
      · exact (ih h).imp_right (List.mem_cons_of_mem _)

/-- An entry that does not close is not freed. -/
theorem State.freeClosed_open (he : mget s.fab.tx a = some e) (hc : e.closing = false) : s.freeClosed a = s := by
  simp [State.freeClosed, he, hc]

/-! ### The first ejected cell of a class -/

/-- The state without an ejected cell that a row takes. -/
def State.unejected (s : State) (x : Cell) : State := { s with fab := { s.fab with eject := s.fab.eject.erase x } }

theorem State.ejected_eq {kind : Nat → Bool} (hx : s.fab.eject.find? (fun x => x.cls == c) = some x) (hk : kind x.kind = true)
    (k : Cell → State → State) : s.ejected c kind k = k x (s.unejected x) := by
  simp only [State.ejected, hx, hk, if_true]
  rfl

/-! ### DATA and CLOSE (R323, R324) -/

/-- An ACK starts the receiving side's count of acceptances afresh and stands last among the cells for injection. -/
theorem State.sendAck_spec (hr : mget s.fab.rx (a, c, g) = some r) : ∃ k : Cell, (s.sendAck a c g).fab =
    { s.fab with rx := mset s.fab.rx (a, c, g) { r with pend := 0 }, inject := s.fab.inject ++ [k] } ∧
    k.kind = 2 ∧ k.dst = a ∧ k.inc = r.inc ∧ k.seq = s.ackSeq a c g r := by
  unfold State.sendAck
  rw [hr]
  refine ⟨_, State.fab_cellInject _ _, ?_⟩
  exact ⟨rfl, rfl, rfl, rfl⟩

/-- The state in which a DATA cell is in the inbox under its receiving entry. -/
def State.inboxed (s : State) (x : Cell) (r : RxCls) : State :=
  { s with fab := { s.fab with rx := mset s.fab.rx (x.src, x.cls, 0) r, inbox := s.fab.inbox ++ [x] } }

theorem State.accept_of_data (hk : x.kind = 1) (s : State) (r : RxCls) : s.accept x 0 r =
    (if s.f F.FAB_E2E_ACK_EVERY ≤ r.pend then (s.inboxed x r).sendAck x.src x.cls 0 else s.inboxed x r).countPeers := by
  have hdata : ¬ x.kind = 4 := by omega
  unfold State.accept
  dsimp only
  rw [if_neg hdata]
  rfl

/-- An accepted DATA cell stands last in the inbox, and the receiving entry is the new one, perhaps acknowledged. -/
theorem State.accept_data (hk : x.kind = 1) (s : State) (r : RxCls) : (s.accept x 0 r).fab.inbox = s.fab.inbox ++ [x] ∧
    (s.accept x 0 r).fab.eject = s.fab.eject ∧
    ∃ z, mget (s.accept x 0 r).fab.rx (x.src, x.cls, 0) = some z ∧ z.expect = r.expect ∧ z.inc = r.inc := by
  have hr : mget (s.inboxed x r).fab.rx (x.src, x.cls, 0) = some r := mget_mset_same _ _ _
  rw [State.accept_of_data hk]
  split
  · obtain ⟨k, hfab, -⟩ := State.sendAck_spec hr
    have hinbox := congrArg FabSt.inbox hfab
    have heject := congrArg FabSt.eject hfab
    have hrx := congrArg FabSt.rx hfab
    exact ⟨hinbox, heject, _, (congrArg (mget · _) hrx).trans (mget_mset_same _ _ _), rfl, rfl⟩
  · exact ⟨rfl, rfl, r, hr, rfl, rfl⟩

theorem State.accept_close (hk : x.kind = 4) (s : State) (r : RxCls) :
    mget (s.accept x 0 r).fab.rx (x.src, x.cls, 0) = none ∧ (s.accept x 0 r).fab.inbox = s.fab.inbox := by
  unfold State.accept
  dsimp only
  rw [if_pos hk]
  exact ⟨mget_mdel_same _ _, rfl⟩

/-- A DATA or CLOSE cell of a known incarnation that brings the expected SEQ is accepted; DATA of class 2 may wait for room. -/
theorem State.dataRecv_expected (hmc : x.mc = false) (hcls : x.cls ≠ 2 ∨ x.kind ≠ 1) (hr : mget s.fab.rx (x.src, x.cls, 0) = some r)
    (hinc : r.inc = x.inc) (hseq : r.expect = x.seq) :
    s.dataRecv x = s.accept x 0 { r with expect := (x.seq + 1) % 4096, pend := r.pend + 1 } := by
  have hfull : (x.cls == 2 && x.kind == 1) = false := by simpa [imp_iff_not_or] using hcls
  simp [State.dataRecv, Option.filter_some, hmc, hr, hinc, hseq, hfull]

/-- A DATA cell that is neither expected nor among the 256 before is discarded and counted. -/
theorem State.dataRecv_far (hmc : x.mc = false) (hr : mget s.fab.rx (x.src, x.cls, 0) = some r) (hinc : r.inc = x.inc)
    (hseq : r.expect ≠ x.seq) (hfar : 256 ≤ (r.expect + 4095 - x.seq) % 4096) :
    s.dataRecv x = s.bump F.FAB_CNT_OOO_DISCARD 1 (homeFlask x.src) := by
  have hnear : ¬ (r.expect + 4095 - x.seq) % 4096 < 256 := Nat.not_lt.mpr hfar
  simp [State.dataRecv, Option.filter_some, hmc, hr, hinc, Ne.symm hseq, hnear]

/-! ### ACK and RESET (R324, R326) -/

theorem TxEnt.closing_eq_false : e.closing = false ↔ ∀ z ∈ e.cls, z.2.closing = false := by simp [TxEnt.closing]

/-- A class's numbering without the cells that a cumulative SEQ acknowledges. -/
def TxCls.acked (y : TxCls) (seq : Nat) : TxCls := { y with unacked := y.unacked.filter fun z => !ackedBy seq z.cell, expiries := 0 }

theorem State.ackRecv_spec (hcl : cl = (x.payload.getD 0 0).toNat % 4) (huni : (x.payload.getD 2 0).toNat % 2 = 0)
    (he : mget s.fab.tx x.src = some e) (hy : mget e.cls cl = some y)
    (hlen : (y.unacked.filter fun z => !ackedBy x.seq z.cell).length ≠ y.unacked.length) (hc : y.closing = false)
    (hall : ∀ z ∈ e.cls, z.2.closing = false) (hb : s.fab.backlog = []) :
    ∃ e', mget (s.ackRecv x).fab.tx x.src = some e' ∧ mget e'.cls cl = some (y.acked x.seq) := by
  subst hcl
  have hopen : TxEnt.closing { e with cls := mset e.cls ((x.payload.getD 0 0).toNat % 4) (y.acked x.seq), last := s.now } = false := by
    refine TxEnt.closing_eq_false.mpr fun z hz => ?_
    rcases mem_mset hz with rfl | hz
    · exact hc
    · exact hall z hz
  have hacked : s.ackRecv x = (s.setTx x.src { e with cls := mset e.cls ((x.payload.getD 0 0).toNat % 4) (y.acked x.seq), last := s.now }).pump := by
    have huni' : ¬ (x.payload.getD 2 0).toNat % 2 = 1 := by omega
    simp only [State.ackRecv, if_neg huni', he, hy, if_neg hlen]
    exact congrArg State.pump (State.freeClosed_open (State.mget_setTx _ _ _) hopen)
  rw [hacked, State.fab_pump (s := s.setTx _ _) hb]
  exact ⟨_, State.mget_setTx _ _ _, mget_mset_same _ _ _⟩

/-- A RESET of the entry's incarnation gives the entry the next one, sends its cells again and tells the units above. -/
theorem State.resetRecv_eq (he : mget s.fab.tx x.src = some e) (hinc : e.inc = x.inc) : ∃ (l : List (Nat × TxCls)) (e' : TxEnt),
    e'.inc = s.fab.incNext ∧ s.resetRecv x = (foldS l (fun z t => foldS z.2.unacked (fun k t => cellInject k.cell t) t)
      (({ s with fab := { s.fab with incNext := (s.fab.incNext + 1) % 16 } } : State).setTx x.src e')).fabEvent (.reset x.src) := by
  simp only [State.resetRecv, he, hinc, ne_eq, not_true, if_false]
  exact ⟨_, { e with inc := s.fab.incNext, cls := _ }, rfl, rfl⟩

theorem State.resetRecv_spec (he : mget s.fab.tx x.src = some e) (hinc : e.inc = x.inc) :
    (∃ e', mget (s.resetRecv x).fab.tx x.src = some e' ∧ e'.inc = s.fab.incNext) ∧
    (s.resetRecv x).fab.incNext = (s.fab.incNext + 1) % 16 ∧ (s.resetRecv x).fab.events = s.fab.events ++ [.reset x.src] := by
  obtain ⟨l, e', hinc', hreset⟩ := State.resetRecv_eq he hinc
  have hfab := foldS_keeps (fun t : State => { t.fab with inject := [] }) (f := fun (z : Nat × TxCls) t => foldS z.2.unacked (fun k t => cellInject k.cell t) t)
    (fun z t => t.fab_foldS_cellInject z.2.unacked (·.cell) []) l
    (({ s with fab := { s.fab with incNext := (s.fab.incNext + 1) % 16 } } : State).setTx x.src e')
  have htx := congrArg FabSt.tx hfab
  have hnext := congrArg FabSt.incNext hfab
  have hevents := congrArg FabSt.events hfab
  rw [hreset]
  exact ⟨⟨e', (congrArg (mget · x.src) htx).trans (State.mget_setTx _ _ _), hinc'⟩, hnext, congrArg (· ++ [_]) hevents⟩

/-! ### Late acknowledgements, retransmission and eviction (R322, R324, R326, R327) -/

theorem State.ackDelay_owing (hr : mget s.fab.rx (a, c, g) = some r) (hp : r.pend ≠ 0) : s.ackDelay a c g = s.sendAck a c g := by
  simp [State.ackDelay, hr, hp]

theorem State.retransmit_again (he : mget s.fab.tx a = some e) (hy : mget e.cls c = some y) (hu : y.unacked ≠ [])
    (hmax : y.expiries + 1 < s.f F.FAB_E2E_RETRY_MAX) : s.retransmit a c false = foldS y.unacked (fun z s => cellInject z.cell s)
      ((s.setTx a { e with cls := mset e.cls c { y with expiries := y.expiries + 1 } }).bump F.FAB_CNT_RETX y.unacked.length (homeFlask a)) := by
  have hlimit : ¬ s.f F.FAB_E2E_RETRY_MAX ≤ y.expiries + 1 := Nat.not_le.mpr hmax
  simp [State.retransmit, he, hy, hu, hlimit]

theorem State.retransmit_again_spec (he : mget s.fab.tx a = some e) (hy : mget e.cls c = some y) (hu : y.unacked ≠ [])
    (hmax : y.expiries + 1 < s.f F.FAB_E2E_RETRY_MAX) :
    (∃ e', mget (s.retransmit a c false).fab.tx a = some e' ∧ mget e'.cls c = some { y with expiries := y.expiries + 1 }) ∧
    ((s.retransmit a c false).fab.inject.map fun k => (k.dst, k.cls, k.seq)) =
      (s.fab.inject.map fun k => (k.dst, k.cls, k.seq)) ++ y.unacked.map fun z => (z.cell.dst, z.cell.cls, z.cell.seq) := by
  rw [State.retransmit_again he hy hu hmax]
  refine ⟨⟨{ e with cls := mset e.cls c { y with expiries := y.expiries + 1 } }, ?_, mget_mset_same e.cls c _⟩, ?_⟩
  · have htx := congrArg FabSt.tx (State.fab_foldS_cellInject y.unacked (·.cell)
      ((s.setTx a { e with cls := mset e.cls c { y with expiries := y.expiries + 1 } }).bump F.FAB_CNT_RETX y.unacked.length (homeFlask a)) [])
    exact (congrArg (mget · a) htx).trans (State.mget_setTx _ _ _)
  · exact State.inject_foldS_cellInject (fun k => (k.dst, k.cls, k.seq)) (fun _ _ => rfl) y.unacked (·.cell) _

theorem State.retransmit_gives_up (he : mget s.fab.tx a = some e) (hy : mget e.cls c = some y) (hu : y.unacked ≠ [])
    (hmax : s.f F.FAB_E2E_RETRY_MAX ≤ y.expiries + 1) : s.retransmit a c false = s.unreachable a := by
  simp [State.retransmit, he, hy, hu, hmax]

/-- A peer that becomes unreachable stands in the list and has no entry; FAB_STATUS and the units above learn of it (R327). -/
theorem State.unreachable_eq (s : State) (a : Nat) : ∃ (t : State) (owners : List Own), s.unreachable a =
      (((t.setF F.FAB_STATUS_UNREACH 1).setF F.FAB_STATUS_LAST_UNREACH a).countPeers.fabEvent (.unreachable a owners)).pump ∧
    t.fab.backlog = s.fab.backlog.filter (fun r => r.mc || r.dst != a) ∧ t.fab.tx = mdel s.fab.tx a ∧ a ∈ t.fab.unreach := by
  refine ⟨_, _, rfl, rfl, rfl, ?_⟩
  dsimp only
  split
  · exact List.contains_iff_mem.mp ‹_›
  · exact List.mem_cons_self

theorem State.unreachable_spec (hb : s.fab.backlog = []) (a : Nat) : a ∈ (s.unreachable a).fab.unreach ∧
    mget (s.unreachable a).fab.tx a = none ∧ (s.unreachable a).f F.FAB_STATUS_UNREACH = 1 := by
  obtain ⟨t, owners, hlost, hbacklog, htx, hun⟩ := s.unreachable_eq a
  rw [hb] at hbacklog
  have hempty : (((t.setF F.FAB_STATUS_UNREACH 1).setF F.FAB_STATUS_LAST_UNREACH a).countPeers.fabEvent (.unreachable a owners)).fab.backlog = [] :=
    hbacklog
  rw [hlost, State.fab_pump hempty, State.f_pump hempty]
  refine ⟨hun, (congrArg (mget · a) htx).trans (mget_mdel_same _ _), ?_⟩
  refine (State.f_setF_spared (by decide)).trans ((State.f_setF_spared (by decide)).trans ?_)
  exact State.f_setF_of_lt (by decide) (by decide)

theorem State.closePeer_unused (he : mget s.fab.tx a = some e) (hi : e.idle = true) (hc : e.closing = false) (hn : e.cls = []) :
    mget (s.closePeer a).fab.tx a = none := by
  have hfreed : s.closePeer a = ({ s with fab := { s.fab with tx := mdel s.fab.tx a } } : State).countPeers := by
    simp [State.closePeer, he, hi, hc, hn]
  rw [hfreed]
  exact mget_mdel_same _ _

/-- The CLOSE cell of a class (R322). -/
def State.closeCell (s : State) (a : Nat) (e : TxEnt) (z : Nat × TxCls) : Cell :=
  { cls := z.1, kind := 4, inc := e.inc, dst := a, src := s.self, seq := z.2.next, payload := List.replicate 64 0 }

/-- A class whose CLOSE has been sent. -/
def State.shutClass (s : State) (a : Nat) (e : TxEnt) (z : Nat × TxCls) : Nat × TxCls :=
  (z.1, { z.2 with next := (z.2.next + 1) % 4096, closing := true, unacked := [⟨s.closeCell a e z, .none⟩] })

theorem State.closePeer_used (he : mget s.fab.tx a = some e) (hi : e.idle = true) (hc : e.closing = false) (hn : e.cls ≠ []) :
    s.closePeer a = foldS e.cls (fun z t => cellInject (s.closeCell a e z) t) (s.setTx a { e with cls := e.cls.map (s.shutClass a e) }) := by
  simp only [State.closePeer, he, hi, hc, List.isEmpty_iff, hn, Bool.not_true, Bool.false_eq_true, or_self, if_false]
  rfl

theorem State.closePeer_used_spec (he : mget s.fab.tx a = some e) (hi : e.idle = true) (hc : e.closing = false) (hn : e.cls ≠ []) :
    (∃ e', mget (s.closePeer a).fab.tx a = some e' ∧ (∀ z ∈ e'.cls, z.2.closing = true) ∧ e'.cls.map (·.1) = e.cls.map (·.1)) ∧
    ((s.closePeer a).fab.inject.map fun k => (k.kind, k.dst, k.cls)) =
      (s.fab.inject.map fun k => (k.kind, k.dst, k.cls)) ++ e.cls.map fun z => (4, a, z.1) := by
  rw [State.closePeer_used he hi hc hn]
  refine ⟨⟨{ e with cls := e.cls.map (s.shutClass a e) }, ?_, ?_, ?_⟩, ?_⟩
  · have htx := congrArg FabSt.tx (State.fab_foldS_cellInject e.cls (s.closeCell a e) (s.setTx a { e with cls := e.cls.map (s.shutClass a e) }) [])
    exact (congrArg (mget · a) htx).trans (State.mget_setTx _ _ _)
  · intro z hz
    obtain ⟨w, -, rfl⟩ := List.mem_map.mp hz
    rfl
  · simp [State.shutClass]
  · exact State.inject_foldS_cellInject (fun k => (k.kind, k.dst, k.cls)) (fun _ _ => rfl) e.cls (s.closeCell a e) _

end

end Sys2Proof.Machine

namespace Sys2Proof.Claims
open Sys2Proof Sys2Proof.Machine

/-! ### The obligation -/

/-- A row of an ejected cell acts on the first one of its class, if that has the row's kind. -/
theorem completes_of_ejected {i : Instr} {s : State} {c : Nat} {kind : Nat → Bool} {k : Cell → State → State} {x : Cell} {P : State → Prop}
    (he : exec i s = onUnit (decide (c < 4)) (done (s.ejected c kind k))) (hc : c < 4) (hx : s.fab.eject.find? (fun x => x.cls == c) = some x)
    (hk : kind x.kind = true) (h : P (k x (s.unejected x))) : Completes i s P :=
  completes_of_onUnit he (decide_eq_true hc) (State.ejected_eq hx hk k ▸ h)

/-- Settles O39: each clause is the fact about its operation. -/
theorem endToEndComplete : Obligations.EndToEndComplete := by
  intro s c hc
  refine ⟨?data, ?far, ?close, ?ack, ?reset, ?delay, ?again, ?lost, ?unused, ?used⟩
  case data =>
    intro x r hx hk hmc hcls hr hinc hseq
    refine completes_of_ejected rfl hc hx (by simp [hk]) ?_
    rw [State.dataRecv_expected (s := s.unejected x) hmc (.inl hcls) hr hinc hseq]
    obtain ⟨hinbox, heject, z, hz, hexpect, hinc'⟩ := State.accept_data hk (s.unejected x) { r with expect := (x.seq + 1) % 4096, pend := r.pend + 1 }
    exact ⟨hinbox, heject, z, hz, hexpect, hinc'.trans hinc⟩
  case far =>
    intro x r hx hk hmc hcls hr hinc hseq hfar
    refine completes_of_ejected rfl hc hx (by simp [hk]) ?_
    rw [State.dataRecv_far (s := s.unejected x) hmc hr hinc hseq hfar]
    exact ⟨rfl, rfl, rfl, State.f_bump_same _ _ _ _ _ (by decide)⟩
  case close =>
    intro x r hx hk hmc hr hinc hseq
    refine completes_of_ejected rfl hc hx (by simp [hk]) ?_
    rw [State.dataRecv_expected (s := s.unejected x) hmc (.inr (by omega)) hr hinc hseq]
    exact State.accept_close hk _ _
  case ack =>
    intro x e cl y hx hk hcl huni he hy hlen hopen hall hb
    exact completes_of_ejected rfl hc hx (by simp [hk]) (State.ackRecv_spec (s := s.unejected x) hcl huni he hy hlen hopen hall hb)
  case reset =>
    exact fun x e hx hk he hinc => completes_of_ejected rfl hc hx (by simp [hk]) (State.resetRecv_spec (s := s.unejected x) he hinc)
  case delay =>
    intro a g r hr hp
    refine completes_of_onUnit rfl (decide_eq_true hc) ?_
    rw [State.ackDelay_owing hr hp]
    obtain ⟨k, hfab, hk⟩ := State.sendAck_spec hr
    rw [hfab]
    exact ⟨mget_mset_same _ _ _, k, rfl, hk⟩
  case again => exact fun a e y he hy hu hmax => completes_of_onUnit rfl (decide_eq_true hc) (State.retransmit_again_spec he hy hu hmax)
  case lost =>
    intro a e y he hy hu hmax hb
    refine completes_of_onUnit rfl (decide_eq_true hc) ?_
    rw [State.retransmit_gives_up he hy hu hmax]
    exact State.unreachable_spec hb a
  case unused => exact fun a e he hi hcl hn => completes_of_done rfl (State.closePeer_unused he hi hcl hn)
  case used =>
    intro a e he hi hcl hn
    obtain ⟨⟨e', he', hall, hcls⟩, hinject⟩ := State.closePeer_used_spec he hi hcl hn
    exact completes_of_done rfl ⟨e', he', hall, hcls, hinject⟩

end Sys2Proof.Claims
end

section
/-! PROOF. Joining and leaving a tray (R354 to R358): what JOIN, the recalls and write-backs of a leave, and its end leave of the tray's
registers and records, and `TrayMembershipComplete` from it. -/

namespace Sys2Proof.Machine

section
variable {s t : State} {x : Fld} {m g i j : Nat}

/-! ### JOIN -/

/-- A JOIN sent changes, beside the cells issued, only the record of the slots it went to. -/
theorem IssueFrame.sendJoin (s : State) (m : Nat) : ∃ u, IssueFrame s u ∧ s.sendJoin m =
    u.setTray { s.tray with sent := if s.tray.sent.contains m then s.tray.sent else m :: s.tray.sent } := by
  have hissue := (IssueFrame.refl s).issue [mkReq (s.slotEp m) 0 (mkDesc 9 0 0 0 0 0 0 0 0 []) .none]
  refine ⟨_, hissue, ?_⟩
  rw [← hissue.tray_eq]
  rfl

theorem State.f_sendJoin (hx : issueWrites x.reg = false) : (s.sendJoin m).f x i j = s.f x i j :=
  ((IssueFrame.refl s).issue _).f_eq x i j hx

theorem State.mem_sendJoin (m : Nat) (s : State) : (s.sendJoin m).mem = s.mem := ((IssueFrame.refl s).issue _).mem_eq

theorem State.trayState_sendJoin (m : Nat) (s : State) : (s.sendJoin m).trayState = s.trayState := State.f_sendJoin rfl

theorem State.f_setPeer {on : Bool} (hx : F.TRY_STATUS_PEERS.spares x = true) : (s.setPeer m on).f x i j = s.f x i j :=
  State.f_setF_spared hx

theorem State.f_joinCheck (hx : F.TRY_STATUS_PEERS.spares x = true) : (s.joinCheck m).f x i j = s.f x i j := by
  unfold State.joinCheck
  split
  · exact State.f_setPeer hx
  · rfl

theorem State.mem_joinCheck (m : Nat) (s : State) : (s.joinCheck m).mem = s.mem := by
  unfold State.joinCheck
  split <;> rfl

/-- The state in which a join has sent its JOINs. -/
def State.joinSent (s : State) : State :=
  foldS ((List.range 8).filter fun m => m != s.slotNo) (fun m s => s.sendJoin m) ((s.setF F.TRY_CTRL_ENABLE 1).setF F.TRY_STATUS_STATE 1)

theorem State.joinStart_off (hfab : s.f F.FAB_CTRL_ENABLE = 1) (hoff : s.trayState = 0) : s.joinStart =
    foldS ((List.range 8).filter fun m => m != s.slotNo) (fun m s => s.joinCheck m)
      ((s.joinSent.setF F.TRY_STATUS_STATE 2).setPeer s.joinSent.slotNo true) := by
  have hstate : (s.setF F.TRY_CTRL_ENABLE 1).trayState = 0 := (State.f_setF_spared (by decide)).trans hoff
  have hslot : ((s.setF F.TRY_CTRL_ENABLE 1).setF F.TRY_STATUS_STATE 1).slotNo = s.slotNo :=
    (State.f_setF_spared (by decide)).trans (State.f_setF_spared (by decide))
  simp only [State.joinStart, hfab, hstate, hslot, State.joinSent, ne_eq, not_true_eq_false, one_ne_zero, if_false]

theorem State.f_joinSent (hx : issueWrites x.reg = false) : s.joinSent.f x i j = ((s.setF F.TRY_CTRL_ENABLE 1).setF F.TRY_STATUS_STATE 1).f x i j :=
  foldS_keeps (fun t : State => t.f x i j) (f := fun m s => s.sendJoin m) (fun _ _ => State.f_sendJoin hx) _ _

theorem State.f_joinStart (hfab : s.f F.FAB_CTRL_ENABLE = 1) (hoff : s.trayState = 0) (hx : F.TRY_STATUS_PEERS.spares x = true) :
    s.joinStart.f x i j = (s.joinSent.setF F.TRY_STATUS_STATE 2).f x i j := by
  rw [State.joinStart_off hfab hoff, foldS_keeps (fun t : State => t.f x i j) (f := fun m s => s.joinCheck m) fun _ _ => State.f_joinCheck hx]
  exact State.f_setPeer hx

theorem State.mem_joinStart (hfab : s.f F.FAB_CTRL_ENABLE = 1) (hoff : s.trayState = 0) : s.joinStart.mem = s.mem := by
  rw [State.joinStart_off hfab hoff, foldS_keeps State.mem (f := fun m s => s.joinCheck m) State.mem_joinCheck]
  exact foldS_keeps State.mem (f := fun m s => s.sendJoin m) State.mem_sendJoin _ _

/-! ### Recalls and write-backs -/

/-- Whether recalling granules leaves a field alone. -/
def recallSpares (x : Fld) : Bool := F.TRY_DIR_ENTRIES.spares x && F.TRY_CNT_INVALS.spares x && !issueWrites x.reg

theorem State.f_dropHolder (hx : F.TRY_DIR_ENTRIES.spares x = true) : (s.dropHolder g m).f x i j = s.f x i j := by
  unfold State.dropHolder
  split
  · rfl
  · dsimp only
    split <;> exact State.f_setF_spared hx

theorem State.f_recall {o : Option Nat} {l : List Nat} (hx : recallSpares x = true) : (s.recall g o l).f x i j = s.f x i j := by
  simp only [recallSpares, Bool.and_eq_true, Bool.not_eq_true'] at hx
  obtain ⟨⟨hdir, hcnt⟩, hissue⟩ := hx
  have hown : (if l.contains s.slotNo then s.dropHolder g s.slotNo else s).f x i j = s.f x i j := by
    split
    · exact State.f_dropHolder hdir
    · rfl
  unfold State.recall
  dsimp only
  generalize (if l.contains s.slotNo then s.dropHolder g s.slotNo else s) = u at hown ⊢
  split
  · exact hown
  · rw [foldS_keeps (fun t : State => t.f x i j) (f := fun m (s : State) =>
      s.newTag.2.issue [mkReq (s.newTag.2.slotEp m) 0 (mkDesc 8 0 s.newTag.1 0 0 0 (g * 128) 0 0 []) .none])
      fun m s => ((IssueFrame.refl s.newTag.2).issue _).f_eq x i j hissue]
    exact (State.f_bump_spared hcnt).trans hown

theorem State.f_writeBack {c : CacheGran} {o : Own} (hx : issueWrites x.reg = false) : (s.writeBack c o).f x i j = s.f x i j :=
  ((IssueFrame.refl s.newTag.2).issue _).f_eq x i j hx

theorem State.f_leaveStart (hon : s.trayState = 2) (hx : recallSpares x = true) :
    s.leaveStart.f x i j = ((s.setF F.TRY_CTRL_ENABLE 0).setF F.TRY_STATUS_STATE 3).f x i j := by
  have hstate : (s.setF F.TRY_CTRL_ENABLE 0).trayState = 2 := (State.f_setF_spared (by decide)).trans hon
  have hissue : issueWrites x.reg = false := by
    simp only [recallSpares, Bool.and_eq_true, Bool.not_eq_true'] at hx
    exact hx.2
  simp only [State.leaveStart, hstate, ne_eq, not_true_eq_false, if_false]
  refine (foldS_keeps (fun t : State => t.f x i j) (f := fun c (s : State) => s.writeBack c (.recall c.slot 0 c.gran))
    (fun c s => State.f_writeBack hissue) _ _).trans ?_
  refine foldS_keeps (fun t : State => t.f x i j) (f := fun (d : DirEnt) (s : State) =>
    if s.tray.recalls.any fun r => r.gran == d.gran then s else s.recall d.gran none d.holders) (fun d s => ?_) _ _
  split
  · rfl
  · exact State.f_recall hx

theorem State.cache_leaveStart (hon : s.trayState = 2) : s.leaveStart.tray.cache = [] := by
  have hstate : (s.setF F.TRY_CTRL_ENABLE 0).trayState = 2 := (State.f_setF_spared (by decide)).trans hon
  simp only [State.leaveStart, hstate, ne_eq, not_true_eq_false, if_false]
  rfl

/-! ### The end of a leave -/

/-- Telling the peers that the module leaves changes no register outside what issuing may write. -/
def State.leaveTold (s : State) : State :=
  foldS ((List.range 8).filter fun m => m != s.slotNo && s.joined m)
    (fun m s => s.issue [mkReq (s.slotEp m) 0 (mkDesc 10 0 0 0 0 0 0 0 0 []) .none]) s

/-- A leave ends where no cell, request, holder or write-back is out. -/
theorem State.leaveDone_quiet (hst : s.trayState = 3) (hin : s.fab.inbox = []) (htx : s.fab.tx = []) (hbl : s.fab.backlog = [])
    (hreq : s.tray.reqs = []) (hdir : ∀ d ∈ s.tray.dir, ∀ x ∈ d.holders, x = s.slotNo) : s.leaveDone =
    ((s.leaveTold.setF F.TRY_STATUS_PEERS 0).setF F.TRY_STATUS_STATE 0).setTray
      { s.leaveTold.tray with sent := [], recv := [], recalls := [] } := by
  have hout : (s.tray.dir.any fun d => d.holders.any fun m => m != s.slotNo) = false := by
    simpa only [List.any_eq_false, bne_iff_ne, ne_eq, not_not, Bool.not_eq_true, bne_eq_false_iff_eq] using hdir
  simp only [State.leaveDone, hst, hin, htx, hbl, hreq, hout, List.any_nil, Bool.or_self, List.isEmpty_nil, Bool.not_true, ne_eq,
    not_true_eq_false, Bool.false_eq_true, or_self, if_false]
  rfl

/-! ### The window -/

theorem bitsAt_lt (v l n : Nat) : bitsAt v l n < 2 ^ n := Nat.mod_lt _ (Nat.two_pow_pos n)

theorem State.tryWin_ok {v : Nat} (hoff : s.trayState = 0) (hsize : bitsAt v 16 5 ≤ 16)
    (hin : bitsAt v 16 5 = 0 ∨ (0x10000000 ≤ bitsAt v 0 10 * 0x40000000 ∧ (bitsAt v 0 10 + bitsAt v 16 5) * 0x40000000 ≤ s.hbmTop))
    (w : Master) : s.tryWin v w = (s.setF F.TRY_WIN_BASE_G (bitsAt v 0 10)).setF F.TRY_WIN_SIZE_G (bitsAt v 16 5) := by
  unfold State.tryWin
  rw [Nat.min_eq_right hsize]
  dsimp only
  rw [if_neg (by omega)]

end

end Sys2Proof.Machine

namespace Sys2Proof.Claims
open Sys2Proof Sys2Proof.Machine

/-- Settles O41: JOINs, recalls and write-backs change registers only where issuing and the directory's counts may, so the state
field that a join, a leave and its end write last is read back. -/
theorem trayMembershipComplete : Obligations.TrayMembershipComplete := by
  unfold Obligations.TrayMembershipComplete
  intro s m
  refine ⟨fun hfab hoff => ?join, fun hon => ?leave, fun hst hin htx hbl hreq hdir => ?done, fun v => ?win⟩
  case join =>
    refine completes_of_done rfl ⟨?_, ?_, State.mem_joinStart hfab hoff⟩
    · rw [State.f_joinStart hfab hoff (by decide), State.f_setF_spared (by decide), State.f_joinSent rfl, State.f_setF_spared (by decide)]
      exact State.f_setF_of_lt (by decide) (by decide)
    · exact (State.f_joinStart hfab hoff (by decide)).trans (State.f_setF_of_lt (by decide) (by decide))
  case leave =>
    refine completes_of_done rfl ⟨?_, ?_, State.cache_leaveStart hon⟩
    · rw [State.f_leaveStart hon (by decide), State.f_setF_spared (by decide)]
      exact State.f_setF_of_lt (by decide) (by decide)
    · exact (State.f_leaveStart hon (by decide)).trans (State.f_setF_of_lt (by decide) (by decide))
  case done =>
    refine completes_of_done rfl ?_
    rw [State.leaveDone_quiet hst hin htx hbl hreq hdir]
    exact ⟨State.f_setF_of_lt (by decide) (by decide),
      (State.f_setF_spared (by decide)).trans (State.f_setF_of_lt (by decide) (by decide)), rfl, rfl⟩
  case win =>
    intro base size hoff hsize hin
    refine completes_of_done rfl ?_
    rw [State.tryWin_ok hoff hsize hin]
    exact ⟨(State.f_setF_spared (by decide)).trans (State.f_setF_of_lt (by decide) (bitsAt_lt _ _ _)),
      State.f_setF_of_lt (by decide) (bitsAt_lt _ _ _), rfl⟩

end Sys2Proof.Claims
end

section
/-! PROOF. The home of a tray access and the replies (R338, R341 to R347, R353): a request that waits is handled by its row alone, a
granule nobody holds needs no recall, and what serving leaves in memory, inbox and directory; `TrayHomeComplete` and
`TrayRepliesComplete` from it. -/

namespace Sys2Proof.Machine
open Sys2Proof.Claims

section
variable {s t : State} {src cls op a n m g tag : Nat} {d : Cell} {cs : List Cell}

/-! ### The request that a row takes -/

theorem State.onRequest_asked (h : Asked s src cls op d cs) (k : Cell → List Cell → State → State) : s.onRequest src cls op k = k d cs s := by
  obtain ⟨hreq, hop⟩ := h
  simp only [State.onRequest, hreq, hop, if_true]

theorem taken_of_fab (h : t.fab.inbox = s.fab.inbox) : Taken1 t d cs = Taken1 s d cs := by
  unfold Taken1
  rw [h]

theorem State.inbox_takeCells (s : State) (d : Cell) (cs : List Cell) : (s.takeCells (d :: cs)).fab.inbox = Taken1 s d cs := rfl

theorem State.inbox_served (s : State) (d : Cell) (cs : List Cell) : (s.served d cs).fab.inbox = Taken1 s d cs := rfl

theorem IssueFrame.dataReply (s : State) (src tag a n : Nat) : IssueFrame s (s.dataReply src tag a n) := by
  unfold State.dataReply
  dsimp only
  split <;> exact (IssueFrame.refl s).issue _

/-- A DATA reply to a served request leaves memory and tray, and the request is out of the inbox. -/
theorem State.dataReply_served (s : State) (d : Cell) (cs : List Cell) (src tag a n : Nat) :
    ((s.served d cs).dataReply src tag a n).mem = s.mem ∧ ((s.served d cs).dataReply src tag a n).fab.inbox = Taken1 s d cs ∧
      ((s.served d cs).dataReply src tag a n).tray = s.tray := by
  have hreply := IssueFrame.dataReply (s.served d cs) src tag a n
  exact ⟨hreply.mem_eq, hreply.inbox_eq, hreply.tray_eq⟩

/-! ### Granules that nobody holds -/

theorem State.claim_free (h : NoHolders s a n) (o : Option Nat) : s.claim a n o = (s, true) := by
  unfold NoHolders at h
  unfold State.claim
  generalize gransOf a n = l at h
  induction l with
  | nil => rfl
  | cons g l ih =>
    obtain ⟨hent, hrec⟩ := h g List.mem_cons_self
    simp only [List.foldl_cons, hent, hrec]
    exact ih fun g hg => h g (List.mem_cons_of_mem _ hg)

theorem State.claimIf_free (h : NoHolders s a n) (c : Prop) [Decidable c] (o : Option Nat) : s.claimIf c a n o = (s, true) := by
  unfold State.claimIf
  split
  · exact State.claim_free h o
  · rfl

/-! ### READ, READ_LINE and READ_OWN -/

theorem State.homeRead_free (hask : Asked s src 0 1 d cs) (htray : s.inTray src = true) (hcause : s.homeCause src (dAddr d.payload) (dSize d.payload) = 0)
    (hnow : s.readNow (s.xlat (dAddr d.payload)) (dSize d.payload) 0 = true) (hfree : NoHolders s (dAddr d.payload) (dSize d.payload)) :
    s.homeRead src = ((s.checkRead (dAddr d.payload) (dSize d.payload) (Master.mk 3 (epSlot src)).code (atTray + atRead)).served d cs).dataReply
      src (dTag d.payload) (dAddr d.payload) (dSize d.payload) := by
  rw [State.homeRead, State.onRequest_asked hask]
  simp only [htray, hcause, hnow, Bool.not_true, Bool.false_eq_true, if_false, ne_eq, not_true_eq_false,
    State.claimIf_free hfree, if_true]

/-- The entry that a READ_LINE or READ_OWN of an unheld granule makes. -/
def newHolder (own : Bool) (g m : Nat) : DirEnt := if own then ⟨g, [], some m, 0⟩ else ⟨g, [m], none, 0⟩

/-- An entry for a granule without one is found again. -/
theorem State.dirEnt_dirPut (e : DirEnt) (h : s.dirEnt e.gran = none) :
    (s.dirPut e).dirEnt e.gran = some { e with used := s.tray.clock + 1 } := by
  have hno : (s.tray.dir.any fun x => x.gran == e.gran) = false := by
    simpa [State.dirEnt, List.find?_eq_none, List.any_eq_false] using h
  have hdir : (s.dirPut e).tray.dir = s.tray.dir ++ [{ e with used := s.tray.clock + 1 }] := by
    unfold State.dirPut
    dsimp only
    rw [hno]
    rfl
  have hfind : s.tray.dir.find? (fun d => d.gran == e.gran) = none := h
  rw [State.dirEnt, hdir, List.find?_append, hfind]
  simp

theorem State.homeLine_free (own : Bool) (hask : Asked s src 0 (if own then 3 else 2) d cs) (htray : s.inTray src = true)
    (hwin : s.inWindow (dAddr d.payload / 128 * 128) = true) (hcause : s.homeCause src (dAddr d.payload / 128 * 128) 128 = 0)
    (hnow : s.readNow (dAddr d.payload / 128 * 128) 128 0 = true) (hent : s.dirEnt (granOf (dAddr d.payload / 128 * 128)) = none)
    (hrec : s.tray.recalls = []) (hroom : s.tray.dir.length < 16) :
    s.homeLine src own = (((s.dirPut (newHolder own (granOf (dAddr d.payload / 128 * 128)) (epSlot src))).checkRead
      (dAddr d.payload / 128 * 128) 128 (Master.mk 3 (epSlot src)).code (atTray + atRead)).served d cs).dataReply
        src (dTag d.payload) (dAddr d.payload / 128 * 128) 128 := by
  have hset : ∀ p : DirEnt → Bool, (s.tray.dir.filter p).length < 16 := fun p => lt_of_le_of_lt (List.length_filter_le _ _) hroom
  have hspace : s.dirRoom (granOf (dAddr d.payload / 128 * 128)) src = (s, true) := by
    unfold State.dirRoom
    exact if_pos (.inr (hset _))
  have hgran : s.granFree (granOf (dAddr d.payload / 128 * 128)) (some src) [] = (s, true) := by
    simp [State.granFree, hrec]
  rw [State.homeLine, State.onRequest_asked hask]
  cases own with
  | true =>
    simp only [htray, hwin, hcause, hnow, hspace, hent, Bool.not_true, Bool.false_eq_true, and_false, or_self, if_false, ne_eq,
      not_true_eq_false, Option.getD_none, if_true, DirEnt.holders, Option.toList_none, List.append_nil, List.filter_nil, hgran, newHolder]
  | false =>
    simp only [htray, hwin, hcause, hnow, hspace, hent, Bool.not_true, Bool.false_eq_true, and_false, or_self, if_false, ne_eq,
      not_true_eq_false, Option.getD_none, Option.toList_none, List.filter_nil, hgran, newHolder, reduceCtorEq,
      List.contains_nil]

/-! ### WRITE, WRITE_BURST, ATOMIC and WRITEBACK -/

theorem State.acceptPoison_frame (s : State) (l : List (Bool × Nat)) (a : Nat) :
    ReadFrame s (foldS l (fun p s => s.poisonAt (a + 64 * p.2)) s) := .foldS _ (.refl s) fun _ _ h => h.poisonAt _

/-- Data accepted is stored; its poison changes no memory. -/
theorem State.acceptWrite_frame (s : State) (a : Nat) (bs : List Byte) (bad : List Bool) :
    WriteFrame s (s.acceptWrite a bs bad) ∧ (s.acceptWrite a bs bad).mem = (s.store a bs).mem :=
  ⟨((WriteFrame.refl s).store a bs).read (State.acceptPoison_frame _ _ _), (State.acceptPoison_frame _ _ _).mem_eq⟩

theorem State.homeWrite_free (hask : Asked s src 0 op d cs) (ha : dAddr d.payload < hbmEnd)
    (hcause : s.homeCause src (dAddr d.payload) (writeData d cs).1.length = 0)
    (hnow : s.writeNow (s.xlat (dAddr d.payload)) (writeData d cs).1.length = true) (hfree : NoHolders s (dAddr d.payload) (writeData d cs).1.length) :
    s.homeWrite src op = (s.acceptWrite (s.xlat (dAddr d.payload)) (writeData d cs).1 (writeData d cs).2).served d cs := by
  have hlow : ¬ (hbmEnd ≤ dAddr d.payload ∧ dAddr d.payload < tileBase ∧ (trayOf (dAddr d.payload)).isNone) :=
    fun h => Nat.not_lt.mpr h.1 ha
  rw [State.homeWrite, State.onRequest_asked hask]
  simp only [hlow, hcause, if_false, ne_eq, not_true_eq_false, State.homeStore, hnow, Bool.not_true, Bool.false_eq_true,
    State.claim_free hfree, if_true]

theorem State.atomicAt_clean {o : CoreAmo} {x y w : Nat} (h : (s.checkRead a n w atAtomic).poisoned a n = false) :
    s.atomicAt a n o x y w = ((s.checkRead a n w atAtomic).store a (leBytes n (amoApply o n (s.readNat a n) x y)), some (s.readNat a n)) := by
  have hread : (s.checkRead a n w atAtomic).readNat a n = s.readNat a n := by
    unfold State.readNat State.readBytes
    rw [((ReadFrame.refl s).checkRead a n w atAtomic).mem_eq]
  unfold State.atomicAt
  dsimp only
  rw [if_neg (by rw [h]; decide), hread]

/-- ATOMIC on `n` bytes of the own memory that nobody holds. -/
theorem State.homeAtomic_free (hn : n = (if dAop d.payload / 8 % 2 = 1 then 8 else 4)) (hask : Asked s src 0 6 d cs) (htray : s.inTray src = true)
    (hon : s.trayState = 2) (halign : dAddr d.payload % n = 0) (hop : dAop d.payload % 8 < 6) (hin : s.inHbm (dAddr d.payload) n = true)
    (hcause : s.homeCause src (dAddr d.payload) n = 0) (hnow : s.readNow (dAddr d.payload) n 0 = true) (hfree : NoHolders s (dAddr d.payload) n)
    (hclean : (s.checkRead (dAddr d.payload) n (Master.mk 3 (epSlot src)).code atAtomic).poisoned (dAddr d.payload) n = false) :
    ∃ r, s.homeAtomic src = ((((s.checkRead (dAddr d.payload) n (Master.mk 3 (epSlot src)).code atAtomic).store (dAddr d.payload)
      (leBytes n (amoApply (amoOf (dAop d.payload % 8)) n (s.readNat (dAddr d.payload) n) (dOperand d.payload) (dCompare d.payload)))).served d cs).issue r) := by
  have hknown : ¬ 6 ≤ dAop d.payload % 8 := Nat.not_le.mpr hop
  rw [State.homeAtomic, State.onRequest_asked hask]
  dsimp only
  rw [← hn]
  simp only [htray, hon, halign, hknown, hin, hcause, hnow, ne_eq, not_true_eq_false, Bool.not_true, Bool.false_eq_true, or_self, if_false,
    State.claim_free hfree, State.atomicAt_clean hclean]
  exact ⟨_, rfl⟩

theorem State.homeWriteback_owner {e : DirEnt} (hask : Asked s src 0 7 d cs) (hent : s.dirEnt (granOf (dAddr d.payload / 128 * 128)) = some e)
    (hown : e.owner = some (epSlot src)) : s.homeWriteback src =
      (((s.acceptWrite (dAddr d.payload / 128 * 128) (cs.flatMap fun c => c.payload.take 64) (cs.map (·.poison))).dirDel
        (granOf (dAddr d.payload / 128 * 128))).recallAnswered (granOf (dAddr d.payload / 128 * 128)) (epSlot src)).served d cs := by
  rw [State.homeWriteback, State.onRequest_asked hask]
  simp only [hent, Option.any_some, hown, beq_self_eq_true, if_true]

theorem State.dirEnt_dirDel (s : State) (g : Nat) : (s.dirDel g).dirEnt g = none := by
  show (s.tray.dir.filter fun d => d.gran != g).find? (fun d => d.gran == g) = none
  simp [List.find?_eq_none]

/-! ### INVAL and INVAL_ACK -/

theorem State.writeBack_keeps (s : State) (c : CacheGran) (o : Own) : (s.writeBack c o).mem = s.mem ∧
    (s.writeBack c o).fab.inbox = s.fab.inbox ∧ (s.writeBack c o).tray.cache = s.tray.cache := by
  have hissue : IssueFrame s.newTag.2 (s.writeBack c o) := by
    unfold State.writeBack
    exact (IssueFrame.refl _).issue _
  have hcache := congrArg TraySt.cache hissue.tray_eq
  exact ⟨hissue.mem_eq, hissue.inbox_eq, hcache⟩

/-- The granule is in no line of the cache afterwards, and a dirty line goes back without a change to memory. -/
theorem State.holderInval_asked (hask : Asked s src 0 8 d cs) : (s.holderInval src).mem = s.mem ∧
    (s.holderInval src).fab.inbox = Taken1 s d cs ∧ ∀ c ∈ (s.holderInval src).tray.cache, ¬ (c.slot = epSlot src ∧ c.gran = granOf (dAddr d.payload)) := by
  have hack : ∀ (u : State) (r : List TxReq), (u.issue r).mem = u.mem ∧ (u.issue r).fab.inbox = u.fab.inbox ∧ (u.issue r).tray.cache = u.tray.cache :=
    fun u r => ⟨((IssueFrame.refl u).issue r).mem_eq, ((IssueFrame.refl u).issue r).inbox_eq, congrArg TraySt.cache ((IssueFrame.refl u).issue r).tray_eq⟩
  rw [State.holderInval, State.onRequest_asked hask]
  dsimp only
  split
  next hnone =>
    obtain ⟨hmem, hin, hcache⟩ := hack (s.served d cs) [mkReq src 1 (mkDesc 0x82 0 (dTag d.payload) 0 0 0 (granOf (dAddr d.payload) * 128) 0 0 []) .none]
    refine ⟨hmem, hin, fun c hc => ?_⟩
    rw [hcache] at hc
    simpa using List.find?_eq_none.mp hnone c hc
  next line _ =>
    have hgone : ∀ c ∈ ((s.served d cs).tray.cache.filter fun x => !(x.slot == epSlot src && x.gran == granOf (dAddr d.payload))),
        ¬ (c.slot = epSlot src ∧ c.gran = granOf (dAddr d.payload)) := fun c hc => by
      simpa [imp_iff_not_or] using (List.mem_filter.mp hc).2
    split
    · refine ⟨(State.writeBack_keeps _ _ _).1, (State.writeBack_keeps _ _ _).2.1, fun c hc => ?_⟩
      rw [(State.writeBack_keeps _ _ _).2.2] at hc
      exact hgone c hc
    · refine ⟨(hack _ _).1, (hack _ _).2.1, fun c hc => ?_⟩
      rw [(hack _ _).2.2] at hc
      exact hgone c hc

theorem State.dropHolder_keeps (s : State) (g m : Nat) : (s.dropHolder g m).mem = s.mem ∧ (s.dropHolder g m).fab = s.fab := by
  unfold State.dropHolder
  split
  · exact ⟨rfl, rfl⟩
  · dsimp only
    split <;> exact ⟨rfl, rfl⟩

/-- No recall of the granule waits any longer for a slot that has answered. -/
theorem State.recallAnswered_waits (s : State) (g m : Nat) : ∀ r ∈ (s.recallAnswered g m).tray.recalls, r.gran = g → m ∉ r.waits := by
  intro r hr hg
  obtain ⟨z, -, rfl⟩ := List.mem_map.mp (List.mem_filter.mp hr).1
  by_cases hz : z.gran = g
  · simp [hz]
  · simp [hz] at hg

theorem State.homeInvalAck_asked (hask : Asked s src 1 0x82 d cs) : s.homeInvalAck src =
    ((s.takeCells (d :: cs)).dropHolder (granOf (dAddr d.payload)) (epSlot src)).recallAnswered (granOf (dAddr d.payload)) (epSlot src) := by
  rw [State.homeInvalAck, State.onRequest_asked hask]

/-! ### ARRIVE, JOIN and LEAVE -/

theorem State.gate_served (s : State) (d : Cell) (cs : List Cell) (g : Nat) : (s.served d cs).gate g = s.gate g :=
  State.gate_setF (s.takeCells (d :: cs)) (x := F.TRY_CNT_SERVED) _ _ _ _ (by decide)

theorem State.joined_eq_testBit (s : State) (m : Nat) : s.joined m = (s.f F.TRY_STATUS_PEERS).testBit m := by
  rw [Nat.testBit_eq_decide_div_mod_eq]
  rfl

theorem State.joined_setPeer_true (s : State) (hm : m < 8) : (s.setPeer m true).joined m = true := by
  have hfit : s.f F.TRY_STATUS_PEERS ||| 2 ^ m < 2 ^ 8 := Nat.or_lt_two_pow (State.f_lt _ _ _ _) (Nat.pow_lt_pow_right (by decide) hm)
  rw [State.joined_eq_testBit, show (s.setPeer m true).f F.TRY_STATUS_PEERS = _ from State.f_setF_of_lt (by decide) hfit]
  simp [Nat.testBit_or, Nat.testBit_two_pow_self]

theorem State.joined_setPeer_false (s : State) (hm : m < 8) : (s.setPeer m false).joined m = false := by
  have hfit : s.f F.TRY_STATUS_PEERS &&& (255 - 2 ^ m) < 2 ^ 8 := Nat.lt_of_le_of_lt Nat.and_le_left (State.f_lt _ _ _ _)
  have hclear : ∀ m < 8, Nat.testBit (255 - 2 ^ m) m = false := by decide
  rw [State.joined_eq_testBit, show (s.setPeer m false).f F.TRY_STATUS_PEERS = s.f F.TRY_STATUS_PEERS &&& (255 - 2 ^ m) from State.f_setF_of_lt (by decide) hfit, Nat.testBit_and,
    hclear m hm, Bool.and_false]

theorem epSlot_lt (src : Nat) : epSlot src < 8 := bitsAt_lt _ _ _

/-- The state that has noted a peer's JOIN, and sent its own unless that was on its way. -/
def State.joinNoted (s : State) (m : Nat) : State :=
  let s := s.setTray { s.tray with recv := m :: s.tray.recv }
  if s.tray.sent.contains m then s else s.sendJoin m

theorem State.joinNoted_spec (s : State) (m : Nat) : (s.joinNoted m).trayState = s.trayState ∧ (s.joinNoted m).tray.recv = m :: s.tray.recv ∧
    (s.joinNoted m).tray.sent.contains m = true ∧ (s.joinNoted m).fab.inbox = s.fab.inbox := by
  unfold State.joinNoted
  dsimp only
  split
  next h => exact ⟨rfl, rfl, h, rfl⟩
  next h =>
    obtain ⟨u, hu, hsend⟩ := IssueFrame.sendJoin (s.setTray { s.tray with recv := m :: s.tray.recv }) m
    refine ⟨State.trayState_sendJoin _ _, ?_, ?_, ?_⟩
    · rw [hsend]; rfl
    · rw [hsend, if_neg h]; simp [State.setTray]
    · rw [hsend]; exact hu.inbox_eq

theorem State.recvJoin_new (hon : s.trayState = 2) (hj : s.joined m = false) (hr : s.tray.recv.contains m = false) :
    s.recvJoin m = (s.joinNoted m).setPeer m true := by
  obtain ⟨hstate, hrecv, hsent, -⟩ := s.joinNoted_spec m
  have hin : (s.joinNoted m).tray.recv.contains m = true := by simp [hrecv]
  have hnoted : s.recvJoin m = (s.joinNoted m).joinCheck m := by
    have hon' : (s.setTray { s.tray with recv := m :: s.tray.recv }).trayState = 2 := hon
    unfold State.recvJoin State.joinNoted
    simp only [hj, hr, Bool.false_eq_true, or_self, if_false, hon', true_and, Bool.not_eq_true']
    cases (s.setTray { s.tray with recv := m :: s.tray.recv }).tray.sent.contains m <;> rfl
  rw [hnoted, State.joinCheck, if_pos ⟨hstate.trans hon, hsent, hin⟩]

theorem State.depart_left (s : State) (hm : m < 8) : (s.depart m false).joined m = false ∧ (s.depart m false).tray.sent.contains m = false ∧
    (s.depart m false).tray.recv.contains m = false ∧ (s.depart m false).fab = s.fab := by
  unfold State.depart
  dsimp only
  rw [if_neg Bool.false_ne_true]
  refine ⟨?_, by simp [State.setTray], by simp [State.setTray], ?_⟩
  · split
    · refine Eq.trans ?_ (s.joined_setPeer_false hm)
      exact congrArg (fun x => x / 2 ^ m % 2 == 1) (State.f_setF_spared (s := s.setPeer m false) (by decide))
    · exact s.joined_setPeer_false hm
  · split <;> rfl

/-! ### Replies -/

/-- Ending a request that is among the open ones. -/
theorem State.not_mem_dropReq (s : State) (r : TrayReq) : r ∉ (s.dropReq r).tray.reqs := by simp [State.dropReq, State.setTray]

/-- The state after an unpoisoned DATA reply to a hart's request (R338, R341, R345). -/
def State.replied (s : State) (r : TrayReq) (bytes : List Byte) : State :=
  let o := r.addr % traySpan
  match r.kind with
  | 3 => (s.fillCache r.slot (o / 128) false false bytes).send (.core r.hart (.data ((bytes.drop (o % 128)).take r.n)))
  | 4 => (s.fillCache r.slot (o / 128) true true (bytes.take (o % 128) ++ r.data ++ bytes.drop (o % 128 + r.n))).send (.core r.hart .done)
  | _ => s.send (.core r.hart (.data (bytes.take r.n)))

theorem State.replyData_clean {r : TrayReq} (hask : Asked s src 1 0x81 d cs)
    (hfind : s.tray.reqs.find? (fun r => r.tag == dTag d.payload && s.slotEp r.slot == src) = some r) (hd : d.poison = false)
    (hc : cs.any (·.poison) = false) (hk : r.kind = 0 ∨ r.kind = 2 ∨ r.kind = 3 ∨ r.kind = 4) :
    s.replyData src = ((s.takeCells (d :: cs)).dropReq r).replied r (if cs.isEmpty then dInline d.payload else cs.flatMap fun c => c.payload.take 64) := by
  have hopen : (s.takeCells (d :: cs)).tray.reqs.find? (fun r => r.tag == dTag d.payload && (s.takeCells (d :: cs)).slotEp r.slot == src) = some r := hfind
  rw [State.replyData, State.onRequest_asked hask]
  dsimp only
  rw [hopen]
  simp only [hd, hc, Bool.or_self, Bool.false_eq_true, if_false, State.replied]
  rcases hk with hk | hk | hk | hk <;> simp only [hk]

/-- A granule that fills the cache stands in it. -/
theorem State.mem_fillCache (s : State) (m g : Nat) (o w : Bool) (bs : List Byte) : ⟨m, g, o, w, bs⟩ ∈ (s.fillCache m g o w bs).tray.cache :=
  List.mem_append_right _ List.mem_cons_self

/-- A refused access of a hart ends in a fault to it: the request is no longer open, memory is unchanged and the cells are taken. -/
theorem State.replyRefused_hart {r : TrayReq} (hask : Asked s src 1 0x83 d cs)
    (hfind : s.tray.reqs.find? (fun r => r.tag == dTag d.payload && s.slotEp r.slot == src) = some r) (hk : r.kind ≠ 5) :
    OutMsg.core r.hart .fault ∈ (s.replyRefused src).out ∧ r ∉ (s.replyRefused src).tray.reqs ∧ (s.replyRefused src).mem = s.mem ∧
      (s.replyRefused src).fab.inbox = Taken1 s d cs := by
  have hopen : (s.takeCells (d :: cs)).tray.reqs.find?
      (fun r => r.tag == dTag d.payload && (s.takeCells (d :: cs)).slotEp r.slot == src && r.kind != 5) = some r := by
    obtain ⟨hp, as, bs, hreqs, hbefore⟩ := List.find?_eq_some_iff_append.mp hfind
    refine List.find?_eq_some_iff_append.mpr ⟨Bool.and_eq_true_iff.mpr ⟨hp, bne_iff_ne.mpr hk⟩, as, bs, hreqs, fun z hz => ?_⟩
    have hz := hbefore z hz
    rw [Bool.not_eq_true'] at hz ⊢
    exact Bool.and_eq_false_iff.mpr (.inl hz)
  have hfault : EyeFrame (((s.takeCells (d :: cs)).dropReq r).send (.core r.hart .fault))
      (((s.takeCells (d :: cs)).dropReq r).coreFault r.hart r.addr (atTray + atRemote)) := by
    unfold State.coreFault State.accessErr
    exact (EyeFrame.refl _).raise _ _
  rw [State.replyRefused, State.onRequest_asked hask]
  dsimp only
  rw [hopen]
  dsimp only
  generalize ((s.takeCells (d :: cs)).dropReq r).coreFault r.hart r.addr (atTray + atRemote) = u at hfault ⊢
  refine ⟨?_, fun hmem => ?_, hfault.mem_eq, congrArg FabSt.inbox hfault.fab_eq⟩
  · show OutMsg.core r.hart .fault ∈ u.out
    rw [hfault.out_eq]
    exact List.mem_append_right _ List.mem_cons_self
  · have hreqs := (List.mem_filter.mp hmem).1
    rw [hfault.tray_eq] at hreqs
    exact State.not_mem_dropReq (s.takeCells (d :: cs)) r hreqs

end

end Sys2Proof.Machine

namespace Sys2Proof.Claims
open Sys2Proof Sys2Proof.Machine

/-- Settles O42: each row runs on its own request, claims nothing where no module holds a granule, and the reads, replies and counts
that follow leave memory, inbox and directory as the row's own effect made them. -/
theorem trayHomeComplete : Obligations.TrayHomeComplete := by
  unfold Obligations.TrayHomeComplete
  intro s src d cs a n m g w line
  have hm : m < 8 := epSlot_lt src
  refine ⟨fun hask htray hcause hnow hfree => ?read, fun own hask htray hwin hcause hnow hent hrec hroom => ?line,
    fun op hop hask ha hcause hnow hfree => ?write, fun k hk hask htray hon halign hop hin hcause hnow hfree hclean => ?atomic,
    fun e hask hent hown => ?writeback, fun hask => ?inval, fun hask => ?ack, fun hask => ?arrive,
    fun hask htray hon hj hr => ?join, fun hask htray => ?leave⟩
  case read =>
    refine completes_of_done rfl ?_
    rw [State.homeRead_free hask htray hcause hnow hfree]
    have hread := (ReadFrame.refl s).checkRead a n (Master.mk 3 m).code (atTray + atRead)
    obtain ⟨hmem, hinbox, htr⟩ := State.dataReply_served (s.checkRead a n (Master.mk 3 m).code (atTray + atRead)) d cs src (dTag d.payload) a n
    exact ⟨hmem.trans hread.mem_eq, hinbox.trans (taken_of_fab (congrArg FabSt.inbox hread.fab_eq)), htr.trans hread.tray_eq⟩
  case line =>
    have heff : ∀ u, u = s.homeLine src own → u.mem = s.mem ∧ u.fab.inbox = Taken1 s d cs ∧
        (u.dirEnt (granOf line)).map (fun e => (e.shared, e.owner)) = some (if own then ([], some m) else ([m], none)) := by
      rintro u rfl
      rw [State.homeLine_free own hask htray hwin hcause hnow hent hrec hroom]
      have hgran : (newHolder own (granOf line) m).gran = granOf line := by cases own <;> rfl
      have hput := State.dirEnt_dirPut (s := s) (newHolder own (granOf line) m) (by rw [hgran]; exact hent)
      have hread := (ReadFrame.refl (s.dirPut (newHolder own (granOf line) m))).checkRead line 128 (Master.mk 3 m).code (atTray + atRead)
      obtain ⟨hmem, hinbox, htr⟩ := State.dataReply_served
        ((s.dirPut (newHolder own (granOf line) m)).checkRead line 128 (Master.mk 3 m).code (atTray + atRead)) d cs src (dTag d.payload) line 128
      refine ⟨hmem.trans hread.mem_eq, hinbox.trans (taken_of_fab (congrArg FabSt.inbox hread.fab_eq)), ?_⟩
      rw [hgran] at hput
      rw [State.dirEnt, htr.trans hread.tray_eq]
      refine (congrArg (Option.map _) hput).trans ?_
      cases own <;> rfl
    cases own with
    | true => exact completes_of_done rfl (heff _ rfl)
    | false => exact completes_of_done rfl (heff _ rfl)
  case write =>
    obtain ⟨hframe, hmem⟩ := State.acceptWrite_frame s (s.xlat a) w.1 w.2
    have heff : ∀ u, u = s.homeWrite src op → u.mem = (s.store (s.xlat a) w.1).mem ∧ u.fab.inbox = Taken1 s d cs := by
      rintro u rfl
      rw [State.homeWrite_free hask ha hcause hnow hfree]
      exact ⟨hmem, taken_of_fab (congrArg FabSt.inbox hframe.fab_eq)⟩
    rcases hop with rfl | rfl
    · exact completes_of_done rfl (heff _ rfl)
    · exact completes_of_done rfl (heff _ rfl)
  case atomic =>
    obtain ⟨r, hatomic⟩ := State.homeAtomic_free hk hask htray hon halign hop hin hcause hnow hfree hclean
    refine completes_of_done rfl ?_
    rw [hatomic]
    have hframe := ((ReadFrame.refl s).checkRead a k (Master.mk 3 m).code atAtomic).write.store a
      (leBytes k (amoApply (amoOf (dAop d.payload % 8)) k (s.readNat a k) (dOperand d.payload) (dCompare d.payload)))
    have hissue := IssueFrame.issue (.refl (((s.checkRead a k (Master.mk 3 m).code atAtomic).store a
      (leBytes k (amoApply (amoOf (dAop d.payload % 8)) k (s.readNat a k) (dOperand d.payload) (dCompare d.payload)))).served d cs)) r
    exact ⟨hissue.mem_eq, hissue.inbox_eq.trans (taken_of_fab (congrArg FabSt.inbox hframe.fab_eq))⟩
  case writeback =>
    refine completes_of_done rfl ?_
    rw [State.homeWriteback_owner hask hent hown]
    obtain ⟨hframe, hmem⟩ := State.acceptWrite_frame s line (cs.flatMap fun c => c.payload.take 64) (cs.map (·.poison))
    exact ⟨hmem, taken_of_fab (congrArg FabSt.inbox hframe.fab_eq), State.dirEnt_dirDel _ _⟩
  case inval => exact completes_of_done rfl (State.holderInval_asked hask)
  case ack =>
    refine completes_of_done rfl ?_
    rw [State.homeInvalAck_asked hask]
    obtain ⟨hmem, hfab⟩ := State.dropHolder_keeps (s.takeCells (d :: cs)) g m
    exact ⟨hmem, congrArg FabSt.inbox hfab, State.recallAnswered_waits _ g m⟩
  case arrive =>
    refine completes_of_done rfl ?_
    rw [State.homeArrive, State.onRequest_asked hask]
    refine ⟨(State.gate_gateAdd _ _ _).trans ?_, rfl, rfl⟩
    rw [State.gate_served]
  case join =>
    refine completes_of_done rfl ?_
    have hjoin : s.homeJoin src = ((s.takeCells (d :: cs)).joinNoted m).setPeer m true := by
      rw [State.homeJoin, State.onRequest_asked hask]
      exact (if_pos htray).trans (State.recvJoin_new (s := s.takeCells (d :: cs)) hon hj hr)
    obtain ⟨-, hrecv, -, hinbox⟩ := (s.takeCells (d :: cs)).joinNoted_spec m
    rw [hjoin]
    exact ⟨State.joined_setPeer_true _ hm, hrecv, hinbox⟩
  case leave =>
    refine completes_of_done rfl ?_
    have hleave : s.homeLeave src = (s.takeCells (d :: cs)).depart m false := by
      rw [State.homeLeave, State.onRequest_asked hask]
      exact if_pos htray
    rw [hleave]
    obtain ⟨hj, hsent, hrecv, hfab⟩ := State.depart_left (s.takeCells (d :: cs)) hm
    exact ⟨hj, hsent, hrecv, congrArg FabSt.inbox hfab⟩

/-- Settles O43: a reply ends the request it names and answers its hart; only a cached access also fills a line. -/
theorem trayRepliesComplete : Obligations.TrayRepliesComplete := by
  unfold Obligations.TrayRepliesComplete
  intro s src d cs r o bytes hfind
  refine ⟨fun hask hd hc => ⟨fun hk => ?plain, fun hk => ?line, fun hk => ?own⟩,
    fun hask hk => completes_of_done rfl (State.replyRefused_hart hask hfind hk)⟩
  case plain =>
    refine completes_of_done rfl ?_
    rw [State.replyData_clean hask hfind hd hc (by omega)]
    rcases hk with hk | hk <;> simp only [State.replied, hk] <;> exact ⟨rfl, rfl, rfl, rfl⟩
  case line =>
    refine completes_of_done rfl ?_
    rw [State.replyData_clean hask hfind hd hc (by omega)]
    simp only [State.replied, hk]
    exact ⟨rfl, State.mem_fillCache _ _ _ _ _ _, State.not_mem_dropReq _ _⟩
  case own =>
    refine completes_of_done rfl ?_
    rw [State.replyData_clean hask hfind hd hc (by omega)]
    simp only [State.replied, hk]
    exact ⟨rfl, State.mem_fillCache _ _ _ _ _ _, State.not_mem_dropReq _ _⟩

end Sys2Proof.Claims
end

section
/-! PROOF. Groups and the cells of a collective (R359 to R382): what an abort leaves of registers, commands and instances, how a cell
reaches the collective it belongs to, and `GroupsComplete` and `CollectiveCellsComplete` from it. -/

namespace Sys2Proof.Machine
open Sys2Proof.Claims

section
variable {s t u : State} {y : Fld} {g q n i j src gid kind : Nat} {x : ColInst} {c : Cell} {e : ColIn}

/-! ### Sending an abort and undefining its destination -/

/-- Commands, instances and the registers that neither issuing nor storing may write are those of before. -/
structure SpreadFrame (s t : State) : Prop where
  qe_eq : t.qe = s.qe
  coll_eq : t.coll = s.coll
  f_eq : ∀ y i j, issueWrites y.reg = false → readWrites y.reg = false → t.f y i j = s.f y i j

theorem SpreadFrame.refl (s : State) : SpreadFrame s s := ⟨rfl, rfl, fun _ _ _ _ _ => rfl⟩

theorem SpreadFrame.trans (h : SpreadFrame s t) (k : SpreadFrame t u) : SpreadFrame s u :=
  ⟨k.qe_eq.trans h.qe_eq, k.coll_eq.trans h.coll_eq, fun y i j hi hr => (k.f_eq y i j hi hr).trans (h.f_eq y i j hi hr)⟩

theorem SpreadFrame.overList {α : Type} {f : α → State → State} (hf : ∀ a s, SpreadFrame s (f a s)) (l : List α) (s : State) :
    SpreadFrame s (foldS l f s) := by
  unfold foldS
  induction l generalizing s with
  | nil => exact .refl s
  | cons a l ih => exact (hf a s).trans (ih (f a s))

theorem SpreadFrame.issue (s : State) (r : List TxReq) : SpreadFrame s (s.issue r) :=
  have h := (IssueFrame.refl s).issue r
  ⟨h.qe_eq, h.coll_eq, fun y i j hi _ => h.f_eq y i j hi⟩

theorem SpreadFrame.scrambleRange (s : State) (a n : Nat) : SpreadFrame s (s.scrambleRange a n) := by
  refine SpreadFrame.overList (fun i s => ?_) _ s
  have h := (WriteFrame.refl s.draw.2).store i [BitVec.ofNat 8 s.draw.1]
  exact ⟨h.qe_eq, h.coll_eq, fun y i j _ hr => h.f_eq y i j hr⟩

/-! ### The end of a collective by an abort (R374) -/

/-- COL_STATUS and the counter of an abort. -/
def State.abortCounted (s : State) (x : ColInst) (reason : Nat) : State :=
  let s := (s.setF F.COL_STATUS_ABORT_SEEN 1 (x.g % 4)).setF F.COL_STATUS_LAST_GROUP x.g (x.g % 4)
  if reason = 1 then s.bump F.COL_CNT_MISMATCH 1 (x.g % 4) else s.bump F.COL_CNT_ABORTS 1 (x.g % 4)

/-- What an abort writes once the ABORT cells have left: COL_STATUS, its counter, the group's last status and the command's end. -/
def State.abortEnd (s : State) (x : ColInst) (reason cause origin peer : Nat) (mine : Bool) : State :=
  let z := if x.op = 15 ∧ !(mine && (reason == 2 || reason == 6)) then (0x3D, origin + reason * 2 ^ 16)
    else abortStatus reason cause origin peer mine
  ((s.abortCounted x reason).setF F.COL_GRP_STAT_LAST_STATUS z.1 x.g).modCmd x.q x.seq fun c =>
    if c.retired then c else { c with status := z.1, detail := z.2, execDone := true, noOutputs := true }

theorem State.colAbort_eq (s : State) (x : ColInst) (reason cause origin peer : Nat) (mine : Bool) (except : Option Nat) :
    ∃ u, SpreadFrame (s.dropColInst x) u ∧ s.colAbort x reason cause origin peer mine except = u.abortEnd x reason cause origin peer mine := by
  unfold State.colAbort
  extract_lets dropped body extra outsOf sent rank spread
  refine ⟨spread, ?_, rfl⟩
  have hsent : SpreadFrame dropped sent := SpreadFrame.overList (fun o s => SpreadFrame.issue s _) outsOf dropped
  unfold spread
  split
  · exact hsent.trans (.scrambleRange _ _ _)
  · exact hsent

/-- Whether an abort leaves a field alone. -/
def abortSpares (y : Fld) : Bool :=
  F.COL_STATUS_ABORT_SEEN.spares y && F.COL_STATUS_LAST_GROUP.spares y && F.COL_CNT_MISMATCH.spares y && F.COL_CNT_ABORTS.spares y &&
    F.COL_GRP_STAT_LAST_STATUS.spares y && !issueWrites y.reg && !readWrites y.reg

theorem State.f_colAbort {reason cause origin peer : Nat} {mine : Bool} {except : Option Nat} (hy : abortSpares y = true) :
    (s.colAbort x reason cause origin peer mine except).f y i j = s.f y i j := by
  obtain ⟨u, hu, heq⟩ := s.colAbort_eq x reason cause origin peer mine except
  simp only [abortSpares, Bool.and_eq_true, Bool.not_eq_true'] at hy
  obtain ⟨⟨⟨⟨⟨⟨hseen, hgroup⟩, hmis⟩, hab⟩, hlast⟩, hissue⟩, hread⟩ := hy
  rw [heq, State.abortEnd, State.f_modCmd, State.f_setF_spared hlast]
  refine Eq.trans ?_ (hu.f_eq y i j hissue hread)
  unfold State.abortCounted
  dsimp only
  split
  · rw [State.f_bump_spared hmis, State.f_setF_spared hgroup, State.f_setF_spared hseen]
  · rw [State.f_bump_spared hab, State.f_setF_spared hgroup, State.f_setF_spared hseen]

theorem State.abortCounted_spec (s : State) (x : ColInst) (reason : Nat) : (s.abortCounted x reason).qe = s.qe ∧
    (s.abortCounted x reason).coll = s.coll ∧ (s.abortCounted x reason).f F.COL_STATUS_ABORT_SEEN (x.g % 4) = 1 := by
  have hset : ((s.setF F.COL_STATUS_ABORT_SEEN 1 (x.g % 4)).setF F.COL_STATUS_LAST_GROUP x.g (x.g % 4)).f F.COL_STATUS_ABORT_SEEN (x.g % 4) = 1 :=
    (State.f_setF_spared (by decide)).trans (State.f_setF_of_lt (by decide) (by decide))
  unfold State.abortCounted
  dsimp only
  split
  · exact ⟨rfl, rfl, (State.f_bump_spared (by decide)).trans hset⟩
  · exact ⟨rfl, rfl, (State.f_bump_spared (by decide)).trans hset⟩

theorem State.modCmd_coll (s : State) (q n : Nat) (f : Cmd → Cmd) : (s.modCmd q n f).coll = s.coll := by
  unfold State.modCmd
  split <;> rfl

/-- An abort ends the collective's command with its status and leaves no such collective, and ABORT_SEEN is set. -/
theorem State.colAbort_ends {reason cause origin peer st dt : Nat} {mine : Bool} {except : Option Nat} {d : Cmd}
    (hd : s.cmd x.q x.seq = some d) (hr : d.retired = false) (hop : x.op ≠ 15) (hst : abortStatus reason cause origin peer mine = (st, dt)) :
    EndedBy (s.colAbort x reason cause origin peer mine except) x.q x.seq st dt ∧
      (s.colAbort x reason cause origin peer mine except).f F.COL_STATUS_ABORT_SEEN (x.g % 4) = 1 ∧
      ∀ z ∈ (s.colAbort x reason cause origin peer mine except).coll.insts, ¬ (z.g = x.g ∧ z.inst = x.inst) := by
  obtain ⟨u, hu, heq⟩ := s.colAbort_eq x reason cause origin peer mine except
  have hlive : ¬ d.retired = true := by simp [hr]
  have hcmd : u.cmd x.q x.seq = some d := (State.cmd_of_qe hu.qe_eq _ _).trans hd
  obtain ⟨hqe, hcoll, hseen⟩ := u.abortCounted_spec x reason
  rw [heq, State.abortEnd, if_neg (fun h => hop h.1), hst]
  dsimp only
  have hend := State.cmd_modCmd (s := (u.abortCounted x reason).setF F.COL_GRP_STAT_LAST_STATUS st x.g)
    (f := fun c => if c.retired then c else { c with status := st, detail := dt, execDone := true, noOutputs := true })
    ((State.cmd_of_qe hqe _ _).trans hcmd) (by rw [if_neg hlive]) (by rw [if_neg hlive])
  rw [if_neg hlive] at hend
  refine ⟨⟨_, hend, rfl, rfl, rfl, rfl⟩, ?_, ?_⟩
  · rw [State.f_modCmd, State.f_setF_spared (by decide)]
    exact hseen
  · rw [State.modCmd_coll]
    show ∀ z ∈ (u.abortCounted x reason).coll.insts, _
    rw [hcoll, hu.coll_eq]
    intro z hz hsame
    have hne := (List.mem_filter.mp hz).2
    simp [hsame.1, hsame.2] at hne

/-! ### COL_ACT -/

theorem State.collStat_keeps {β : Type} (k : State → β) (hk : ∀ (s : State) (z : Fld) v i, k (s.setF z v i) = k s) (s : State) : k s.collStat = k s :=
  foldS_keeps k (f := fun f (s : State) => (s.setF F.COL_ACT_ACTIVE (s.coll.insts.filter fun x => x.g % 4 == f).length f).setF F.COL_ACT_STAGE_KIB
    (min 4096 (((s.setF F.COL_ACT_ACTIVE (s.coll.insts.filter fun x => x.g % 4 == f).length f).staged f * 72 + 1023) / 1024)) f)
    (fun _ _ => (hk _ _ _ _).trans (hk _ _ _ _)) _ s

theorem State.f_collStat (h1 : F.COL_ACT_ACTIVE.spares y = true) (h2 : F.COL_ACT_STAGE_KIB.spares y = true) : s.collStat.f y i j = s.f y i j :=
  foldS_keeps (fun t : State => t.f y i j) (f := fun f (s : State) =>
    (s.setF F.COL_ACT_ACTIVE (s.coll.insts.filter fun x => x.g % 4 == f).length f).setF F.COL_ACT_STAGE_KIB
    (min 4096 (((s.setF F.COL_ACT_ACTIVE (s.coll.insts.filter fun x => x.g % 4 == f).length f).staged f * 72 + 1023) / 1024)) f)
    (fun _ _ => (State.f_setF_spared h2).trans (State.f_setF_spared h1)) _ s

/-- What ended a collective still stands when COL_ACT follows. -/
theorem endedBy_collStat {st dt : Nat} (h : EndedBy s q n st dt) : EndedBy s.collStat q n st dt := by
  obtain ⟨d, hd, hrest⟩ := h
  exact ⟨d, (State.cmd_of_qe (State.collStat_keeps State.qe (fun _ _ _ _ => rfl) s) q n).trans hd, hrest⟩

/-! ### Groups (R360, R378, R382) -/

theorem State.grpState_setGrp (s : State) {v : Nat} (hv : v < 4) (g : Nat) : (s.setGrp g v).grpState g = v := State.f_setF_of_lt (by decide) hv

theorem State.groupEnable_valid (h0 : s.grpState g = 0) (hv : s.grpValid g = true) (m : Master) :
    s.groupEnable g m = ((s.putGrp g ⟨s.grpList g, []⟩).setF F.COL_GRP_STAT_INST 0 g).setGrp g 1 := by
  rw [State.groupEnable, if_neg (not_not.mpr h0), if_pos hv]

theorem State.groupEnable_invalid (h0 : s.grpState g = 0) (hv : s.grpValid g = false) (m : Master) :
    s.groupEnable g m = (s.setF F.COL_STATUS_CFG_ERR 1 (g % 4)).cfgErr (RegKey.addr ⟨.COL_GRP_CTRL, g, 0⟩) m := by
  rw [State.groupEnable, if_neg (not_not.mpr h0), if_neg (ne_true_of_eq_false hv)]

theorem State.grp_putGrp (s : State) (g : Nat) (x : ColGroup) : (s.putGrp g x).grp g = x := mgetD_mset_same _ _ _ _

/-- The end of a drain leaves no staged cell of the group's GID. -/
theorem State.groupOff_spec (s : State) (g : Nat) : (s.groupOff g).grpState g = 0 ∧ (s.groupOff g).mem = s.mem ∧
    ∀ c ∈ (s.groupOff g).fab.inbox, c.cls = 2 → cellGid c ≠ s.grpGid g := by
  refine ⟨State.f_setF_of_lt (by decide) (by decide), rfl, fun c hc hcls hgid => ?_⟩
  have hkeep := (List.mem_filter.mp hc).2
  simp [hcls, hgid] at hkeep

theorem State.groupDisable_spec (h : s.grpState g = 1 ∨ s.grpState g = 3) :
    (s.groupDisable g).grpState g = (if (s.instOf g).isNone then 0 else 2) ∧ (s.groupDisable g).mem = s.mem := by
  have hinst : (s.setGrp g 2).instOf g = s.instOf g := rfl
  rw [State.groupDisable, if_pos h]
  dsimp only
  rw [hinst]
  split
  · exact ⟨(State.groupOff_spec _ _).1, (State.groupOff_spec _ _).2.1⟩
  · exact ⟨s.grpState_setGrp (by decide) g, rfl⟩

theorem State.f_colStop {peer : Nat} (hy : abortSpares y = true) (ht : F.COL_STATUS_TIMEOUT_SEEN.spares y = true) (reason : Nat) :
    (s.colStop x reason peer).f y i j = s.f y i j := by
  unfold State.colStop
  dsimp only
  rw [State.f_colAbort hy]
  split
  · exact State.f_setF_spared ht
  · rfl

theorem State.groupTimeout_spec (h : s.grpState g = 2) :
    (s.groupTimeout g).grpState g = 0 ∧ ∀ c ∈ (s.groupTimeout g).fab.inbox, c.cls = 2 → cellGid c ≠ s.grpGid g := by
  have hgid := foldS_keeps (fun t : State => t.grpGid g) (f := fun x s => s.colStop x 6)
    (fun x s => State.f_colStop (by decide) (by decide) 6) (s.coll.insts.filter fun x => x.g == g) s
  rw [State.groupTimeout, if_neg (not_not.mpr h)]
  obtain ⟨hoff, -, hstaged⟩ := State.groupOff_spec (foldS (s.coll.insts.filter fun x => x.g == g) (fun x s => s.colStop x 6) s) g
  exact ⟨hoff, fun c hc hcls => hgid ▸ hstaged c hc hcls⟩

theorem State.groupCfg_list (h : s.grpState g = 0) (v : Nat) (m : Master) : s.groupCfg g true v m = s.setF F.COL_GRP_LIST_LIST_ADDR v g := by
  simp [State.groupCfg, h]

theorem getBits_word (v : Nat) {l w : Nat} (hw : l + w ≤ 64) : getBits (BitVec.ofNat 64 v) l w = bitsAt v l w := by
  show bitsAt (v % 2 ^ 64) l w = _
  exact bitsAt_mod_word v hw

theorem EyeFrame.cfgErr (s : State) (a : Nat) (m : Master) : EyeFrame s (s.cfgErr a m) := by
  unfold State.cfgErr
  exact (EyeFrame.refl s).raise _ _

theorem State.groupCfg_fields (h : s.grpState g = 0) (v : Nat) (m : Master) : s.groupCfg g false v m =
    (((s.setF F.COL_GRP_CFG_GID (bitsAt v 0 16) g).setF F.COL_GRP_CFG_N (bitsAt v 16 14) g).setF F.COL_GRP_CFG_RANK (bitsAt v 32 14) g).setF
      F.COL_GRP_CFG_QUEUE (bitsAt v 48 8) g := by
  simp (disch := decide) only [State.groupCfg, h, ne_eq, not_true_eq_false, Bool.false_eq_true, if_false, getBits_word]

theorem State.stageExpire_unnamed (h : ∀ k < 256, s.grpState k = 1 → s.grpGid k ≠ gid) : s.stageExpire gid = s.dropStaged fun c => cellGid c == gid := by
  refine if_neg fun hany => ?_
  obtain ⟨k, hk, hnamed⟩ := List.any_eq_true.mp hany
  rw [Bool.and_eq_true, beq_iff_eq, beq_iff_eq] at hnamed
  exact h k (List.mem_range.mp hk) hnamed.1 hnamed.2

/-! ### Cells of a collective (R371 to R375) -/

theorem State.instOf_g (h : s.instOf g = some x) : x.g = g := beq_iff_eq.mp (List.find?_some (p := fun x : ColInst => x.g == g) h)

/-- A cell that arrives on an edge of the running collective is taken and goes to the row's own action. -/
theorem State.onColCell_arrives (h : Arrives s src gid kind c g x e) (hk : kind < 4) (k : Cell → ColInst → ColIn → State → State)
    (o : Cell → ColInst → State → State) : s.onColCell src gid kind k o = k c x e (s.takeStaged c) := by
  obtain ⟨hhead, hkind, hinst, hbegun, hnum, hedge⟩ := h
  have hknown : ¬ 4 ≤ kind := Nat.not_le.mpr hk
  simp only [State.onColCell, hhead, hknown, hkind, hinst, hbegun, hnum, hedge, if_false, ne_eq, not_true_eq_false, if_true, Bool.not_true,
    Bool.false_eq_true]

theorem State.self_setF (s : State) {z : Fld} (v i : Nat) (hz : z.reg ≠ .FAB_ADDR) (hb : z.reg ≠ .CRU_BOOT) : (s.setF z v i).self = s.self := by
  unfold State.self State.rackNo State.trayNo State.slotNo
  rw [State.f_setF_reg _ _ _ _ _ _ _ _ hz hb, State.f_setF_reg _ _ _ _ _ _ _ _ hz hb, State.f_setF_reg _ _ _ _ _ _ _ _ hz hb]

/-- A mismatch is an abort of reason 1 that names the module, with MISMATCH_SEEN set before. -/
theorem State.colMismatch_eq (s : State) (x : ColInst) (c : Cell) (cause : Nat) : ∃ u : State, s.colMismatch x c cause =
    u.colAbort x 1 cause s.self 0 true none ∧ u.qe = s.qe ∧ u.f F.COL_STATUS_MISMATCH_SEEN (x.g % 4) = 1 := by
  unfold State.colMismatch
  dsimp only
  rw [State.self_setF _ _ _ (by decide) (by decide), State.self_setF _ _ _ (by decide) (by decide), State.self_setF _ _ _ (by decide) (by decide)]
  exact ⟨_, rfl, rfl, (State.f_setF_spared (by decide)).trans ((State.f_setF_spared (by decide)).trans (State.f_setF_of_lt (by decide) (by decide)))⟩

/-- A time-out of a collective is an abort of reason 3, with TIMEOUT_SEEN set before and the collective's edges filled in. -/
theorem State.colStop_timeout (s : State) (x : ColInst) : ∃ (u : State) (o : List (Nat × Nat × Nat)), s.colStop x 3 =
    u.colAbort { x with outs := o } 3 0 s.self 0 true none ∧ u.qe = s.qe ∧ u.f F.COL_STATUS_TIMEOUT_SEEN (x.g % 4) = 1 := by
  have hseen : (s.setF F.COL_STATUS_TIMEOUT_SEEN 1 (x.g % 4)).f F.COL_STATUS_TIMEOUT_SEEN (x.g % 4) = 1 := State.f_setF_of_lt (by decide) (by decide)
  unfold State.colStop
  dsimp only
  rw [if_pos rfl, State.self_setF _ _ _ (by decide) (by decide)]
  split
  · exact ⟨_, x.outs, rfl, rfl, hseen⟩
  · exact ⟨_, _, rfl, rfl, hseen⟩

theorem State.colTimeout_ends {d : Cmd} (hx : s.coll.insts.find? (fun y => y.q == q && y.seq == n) = some x) (hd : s.cmd q n = some d)
    (hr : d.retired = false) (hop : x.op ≠ 15) (hlim : bitsAt (d.pkt.getD 6 0) 0 32 ≠ 0) : s.colTimeout q n = s.colStop x 3 := by
  simp only [State.colTimeout, hx, hd, hop, hlim, hr, if_false, Bool.false_eq_true, or_self]

theorem State.colAbortRecv_present (hhead : s.colHead src gid (fun c => cellKind c == 3) = some (c, g))
    (hx : s.coll.insts.find? (fun y => y.g == g && y.inst % 65536 == cellInst c) = some x) : ∃ o, s.colAbortRecv src gid =
      (s.takeStaged c).colAbort { x with outs := o } (cellByte c 8) (cellByte c 9) (cellHalf c 16) 0 false (some src) := by
  have hpresent : (s.takeStaged c).coll.insts.find? (fun y => y.g == g && y.inst % 65536 == cellInst c) = some x := hx
  unfold State.colAbortRecv
  rw [hhead]
  dsimp only
  rw [hpresent]
  exact ⟨_, rfl⟩

theorem State.colAbortRecv_ahead (hhead : s.colHead src gid (fun c => cellKind c == 3) = some (c, g))
    (hx : s.coll.insts.find? (fun y => y.g == g && y.inst % 65536 == cellInst c) = none) (ha : s.instAhead g (cellInst c) = true)
    (hrecs : (s.grp g).recs = []) : s.colAbortRecv src gid = (s.takeStaged c).putGrp g
      { s.grp g with recs := [⟨cellInst c, cellByte c 8, cellByte c 9, cellHalf c 16, c.src⟩] } := by
  have habsent : (s.takeStaged c).coll.insts.find? (fun y => y.g == g && y.inst % 65536 == cellInst c) = none := hx
  have hahead : (s.takeStaged c).instAhead g (cellInst c) = true := ha
  have hgrp : (s.takeStaged c).grp g = s.grp g := rfl
  unfold State.colAbortRecv
  rw [hhead]
  dsimp only
  rw [habsent]
  dsimp only
  rw [State.colRecord, if_pos hahead, hgrp]
  dsimp only
  rw [hrecs]
  rfl

end

end Sys2Proof.Machine

namespace Sys2Proof.Claims
open Sys2Proof Sys2Proof.Machine

/-- Settles O44: each row writes its group's state field last, and aborting a group's instances leaves its GID. -/
theorem groupsComplete : Obligations.GroupsComplete := by
  unfold Obligations.GroupsComplete
  intro s g m hg
  have hunit : decide (g < 256) = true := decide_eq_true hg
  refine ⟨fun h0 hv => ?valid, fun h0 hv => ?invalid, fun h => completes_of_onUnit rfl hunit (State.groupDisable_spec h),
    fun h => completes_of_onUnit rfl hunit (State.groupTimeout_spec h), fun v h0 => ?list, fun v h0 => ?fields, fun gid h => ?expire⟩
  case valid =>
    refine completes_of_onUnit rfl hunit ?_
    rw [State.groupEnable_valid h0 hv]
    refine ⟨State.f_setF_of_lt (by decide) (by decide), (State.f_setF_spared (by decide)).trans (State.f_setF_of_lt (by decide) (by decide)), ?_, rfl⟩
    exact congrArg ColGroup.members (s.grp_putGrp g ⟨s.grpList g, []⟩)
  case invalid =>
    refine completes_of_onUnit rfl hunit ?_
    rw [State.groupEnable_invalid h0 hv]
    have herr := EyeFrame.cfgErr (s.setF F.COL_STATUS_CFG_ERR 1 (g % 4)) (RegKey.addr ⟨.COL_GRP_CTRL, g, 0⟩) m
    exact ⟨(herr.f_eq _ _ _ rfl).trans ((State.f_setF_spared (by decide)).trans h0),
      (herr.f_eq _ _ _ rfl).trans (State.f_setF_of_lt (by decide) (by decide)), herr.mem_eq⟩
  case list =>
    refine completes_of_onUnit rfl hunit ?_
    rw [State.groupCfg_list h0]
    exact ⟨State.f_setF_same _ _ _ _ _ (by decide), rfl⟩
  case fields =>
    refine completes_of_onUnit rfl hunit ?_
    rw [State.groupCfg_fields h0]
    refine ⟨?_, ?_, ?_, State.f_setF_of_lt (by decide) (bitsAt_lt _ _ _), rfl⟩
    · exact (State.f_setF_spared (by decide)).trans ((State.f_setF_spared (by decide)).trans ((State.f_setF_spared (by decide)).trans
        (State.f_setF_of_lt (by decide) (bitsAt_lt _ _ _))))
    · exact (State.f_setF_spared (by decide)).trans ((State.f_setF_spared (by decide)).trans (State.f_setF_of_lt (by decide) (bitsAt_lt _ _ _)))
    · exact (State.f_setF_spared (by decide)).trans (State.f_setF_of_lt (by decide) (bitsAt_lt _ _ _))
  case expire =>
    refine completes_of_done rfl ?_
    rw [State.stageExpire_unnamed h]
    exact ⟨State.collStat_keeps (fun t => t.fab.inbox) (fun _ _ _ _ => rfl) _, State.collStat_keeps State.mem (fun _ _ _ _ => rfl) _,
      State.collStat_keeps State.coll (fun _ _ _ _ => rfl) _⟩

/-- Settles O45: an arriving cell reaches its collective's edge, and an abort ends the command, marks COL_STATUS and removes the collective. -/
theorem collectiveCellsComplete : Obligations.CollectiveCellsComplete := by
  unfold Obligations.CollectiveCellsComplete
  intro s src gid g c x
  refine ⟨fun e harr hsig hn hrank => ?agrees, fun e d harr hsig hd hr hop => ?differs, fun e harr => ?data, fun e harr hop => ?ended,
    fun d hhead hfind hd hr hop hreason => ?abort, fun hhead hfind hahead hrecs => ?record, fun q n d hq hfind hd hr hop hlim => ?timeout⟩
  case agrees =>
    refine completes_of_done rfl ?_
    rw [State.colSigRecv]
    dsimp only
    rw [State.onColCell_arrives harr (by decide), if_neg (not_not.mpr hsig)]
    have hsize : cellHalf c 16 = (s.takeStaged c).grpN x.g := hn
    rw [if_neg (not_not.mpr hsize), if_neg (by rw [hrank]; exact not_not.mpr rfl)]
  case differs =>
    refine completes_of_done rfl ?_
    rw [State.colSigRecv]
    dsimp only
    rw [State.onColCell_arrives harr (by decide), if_pos hsig]
    dsimp only
    obtain ⟨u, heq, hqe, hseen⟩ := State.colMismatch_eq (s.takeStaged c) x c 1
    obtain ⟨hend, -, hgone⟩ := State.colAbort_ends (except := none) ((State.cmd_of_qe hqe x.q x.seq).trans hd) hr hop
      (if_pos rfl : abortStatus 1 1 s.self 0 true = (0x30, s.self + 1 * 2 ^ 16))
    rw [heq]
    exact ⟨endedBy_collStat hend, (State.f_collStat (by decide) (by decide)).trans ((State.f_colAbort (by decide)).trans hseen),
      (State.collStat_keeps State.coll (fun _ _ _ _ => rfl) _).symm ▸ hgone⟩
  case data =>
    refine completes_of_done rfl ?_
    rw [State.colDataRecv, State.onColCell_arrives harr (by decide)]
  case ended =>
    refine completes_of_done rfl ?_
    rw [State.colEndRecv, State.onColCell_arrives harr (by decide)]
    dsimp only
    rw [if_neg hop]
  case abort =>
    refine completes_of_done rfl ?_
    obtain ⟨o, heq⟩ := State.colAbortRecv_present hhead hfind
    have hst : abortStatus (cellByte c 8) (cellByte c 9) (cellHalf c 16) 0 false = (0x31, cellHalf c 16 + cellByte c 8 * 2 ^ 16) := by
      simp [abortStatus, hreason]
    obtain ⟨hend, hseen, hgone⟩ := State.colAbort_ends (s := s.takeStaged c) (x := { x with outs := o }) (except := some src) hd hr hop hst
    rw [heq]
    exact ⟨endedBy_collStat hend, (State.f_collStat (by decide) (by decide)).trans hseen, (State.collStat_keeps State.coll (fun _ _ _ _ => rfl) _).symm ▸ hgone⟩
  case record =>
    refine completes_of_done rfl ?_
    rw [State.colAbortRecv_ahead hhead hfind hahead hrecs]
    refine ⟨?_, State.collStat_keeps State.mem (fun _ _ _ _ => rfl) _⟩
    have hgrp := State.collStat_keeps (fun t => t.grp g) (fun _ _ _ _ => rfl) ((s.takeStaged c).putGrp g
      { s.grp g with recs := [⟨cellInst c, cellByte c 8, cellByte c 9, cellHalf c 16, c.src⟩] })
    exact congrArg ColGroup.recs (hgrp.trans (State.grp_putGrp _ _ _))
  case timeout =>
    refine completes_of_onUnit rfl (decide_eq_true hq) ?_
    rw [State.colTimeout_ends hfind hd hr hop hlim]
    have hkey := List.find?_some hfind
    rw [Bool.and_eq_true, beq_iff_eq, beq_iff_eq] at hkey
    obtain ⟨rfl, rfl⟩ := hkey
    obtain ⟨u, o, heq, hqe, hseen⟩ := State.colStop_timeout s x
    obtain ⟨hend, -, hgone⟩ := State.colAbort_ends (s := u) (x := { x with outs := o }) (except := none)
      ((State.cmd_of_qe hqe x.q x.seq).trans hd) hr hop (rfl : abortStatus 3 0 s.self 0 true = (0x33, 0))
    rw [heq]
    exact ⟨hend, (State.f_colAbort (by decide)).trans hseen, hgone⟩

end Sys2Proof.Claims
end

section
/-! PROOF. The resilience engine's time-out and registers (R462, R470, R477, R482), and `ResilienceComplete` from them. -/

namespace Sys2Proof.Machine

section
variable {s : State} {q n v : Nat} {m : Master}

/-! ### The end of a job (R482) -/

/-- A job that a fault ends leaves the job list, and its command, not yet retired, ends with status 0x3E. -/
theorem State.jobEnd_failed {j : ResJob} {c : Cmd} (hc : s.cmd j.q j.seq = some c) (hr : c.retired = false) (dt : Nat) :
    (∃ d, (s.jobEnd j 0x3E dt).cmd j.q j.seq = some d ∧ d.status = 0x3E ∧ d.detail = dt ∧ d.execDone = true) ∧
      ∀ x ∈ (s.jobEnd j 0x3E dt).res.jobs, ¬ (x.q = j.q ∧ x.seq = j.seq) := by
  have hlive : ¬ c.retired = true := by simp [hr]
  have hraised := (EyeFrame.refl (s.putJobs (s.res.jobs.filter fun x => !(x.q == j.q && x.seq == j.seq)))).raise (srcOf 86 2) {}
  have heq : s.jobEnd j 0x3E dt = ((s.putJobs (s.res.jobs.filter fun x => !(x.q == j.q && x.seq == j.seq))).raise (srcOf 86 2)).modCmd j.q j.seq
      fun c => if c.retired then c else { c with status := 0x3E, detail := dt, execDone := true, noOutputs := c.noOutputs || !c.committed } := by
    simp [State.jobEnd]
  generalize (s.putJobs (s.res.jobs.filter fun x => !(x.q == j.q && x.seq == j.seq))).raise (srcOf 86 2) = u at hraised heq
  have hend := State.cmd_modCmd (s := u)
    (f := fun c => if c.retired then c else { c with status := 0x3E, detail := dt, execDone := true, noOutputs := c.noOutputs || !c.committed })
    ((State.cmd_of_qe hraised.qe_eq _ _).trans hc) (by rw [if_neg hlive]) (by rw [if_neg hlive])
  rw [if_neg hlive] at hend
  rw [heq]
  refine ⟨⟨_, hend, rfl, rfl, rfl⟩, fun x hx hsame => ?_⟩
  have hres : (u.modCmd j.q j.seq fun c => if c.retired then c else
      { c with status := 0x3E, detail := dt, execDone := true, noOutputs := c.noOutputs || !c.committed }).res = u.res := by
    unfold State.modCmd
    split <;> rfl
  rw [hres, hraised.res_eq] at hx
  have hne := (List.mem_filter.mp hx).2
  simp [hsame.1, hsame.2] at hne

theorem State.buddyTimeout_ends {j : ResJob} {c : Cmd} (hj : s.res.jobs.find? (fun j => j.q == q && j.seq == n) = some j)
    (hc : s.cmd q n = some c) (hlim : bitsAt (c.pkt.getD 7 0) 0 32 ≠ 0) : s.buddyTimeout q n = s.jobEnd j 0x3E (j.ep + 3 * 2 ^ 16) := by
  simp only [State.buddyTimeout, hj, hc, Option.map_some, Option.getD_some, hlim, if_false]

/-! ### The taint and the control register (R462, R470) -/

theorem State.taintNow_taint (s : State) : (s.taint 7).f F.CRU_RES_TAINT_NOW = s.f F.CRU_RES_TAINT_NOW ||| 128 :=
  State.f_setF_of_lt (by decide) (Nat.or_lt_two_pow (State.f_lt s F.CRU_RES_TAINT_NOW 0 0) (by decide))

/-- Whether CRU_RES_CTRL refuses a buddy: another function than the module's, a rack beyond the fabric's, or the own tray (R462). -/
def State.badBuddy (s : State) (b : Nat) : Bool :=
  b != 0 && (addrFunc b != 0 || decide (s.racks ≤ addrRack b) || (b / 32 == s.self / 32))

/-- CRU_RES_CTRL's fields stored. -/
def State.resStored (s : State) (v : Nat) : State :=
  (s.setF F.CRU_RES_CTRL_ENABLE (bitsAt v 0 1)).setF F.CRU_RES_CTRL_BUDDY (bitsAt v 16 16)

theorem State.resCtrl_eq (s : State) (v : Nat) (m : Master) : s.resCtrl v m =
    if s.badBuddy (bitsAt v 16 16) then s.cfgErr (RegKey.addr ⟨.CRU_RES_CTRL, 0, 0⟩) m
    else if bitsAt v 32 1 = 1 then (s.resStored v).taint 7 else s.resStored v := by
  unfold State.resCtrl
  dsimp only
  simp (disch := decide) only [getBits_word]
  rfl

theorem State.resStored_spec (s : State) (v : Nat) : (s.resStored v).f F.CRU_RES_CTRL_ENABLE = bitsAt v 0 1 ∧
    (s.resStored v).f F.CRU_RES_CTRL_BUDDY = bitsAt v 16 16 ∧ (s.resStored v).f F.CRU_RES_TAINT_NOW = s.f F.CRU_RES_TAINT_NOW :=
  ⟨(State.f_setF_spared (by decide)).trans (State.f_setF_of_lt (by decide) (bitsAt_lt _ _ _)), State.f_setF_of_lt (by decide) (bitsAt_lt _ _ _),
    (State.f_setF_spared (by decide)).trans (State.f_setF_spared (by decide))⟩

/-! ### LAST (R477) -/

theorem State.f_commitHeld {y : Fld} {i j : Nat} (hy : F.CRU_RES_HELD_COMMITTED.spares y = true) (step : Nat) :
    (s.commitHeld step).f y i j = s.f y i j := by
  unfold State.commitHeld
  split
  · rfl
  · rw [State.f_setF_spared hy, State.f_setF_spared hy]

/-- The generation that holds the step is marked, the other is not. -/
theorem State.commitHeld_marks {g step : Nat}
    (hg : [0, 1].find? (fun g => s.f F.CRU_RES_HELD_STATE g == 2 && s.f F.CRU_RES_HELD_STEP g == step) = some g) :
    (s.commitHeld step).f F.CRU_RES_HELD_COMMITTED g = 1 ∧ (s.commitHeld step).f F.CRU_RES_HELD_COMMITTED (1 - g) = 0 := by
  have hpair : g = 0 ∨ g = 1 := by simpa using List.mem_of_find?_eq_some hg
  have hne : 1 - g ≠ g := by omega
  unfold State.commitHeld
  rw [hg]
  exact ⟨(State.f_setF_idx _ _ _ _ (.inl hne) (by decide)).trans (State.f_setF_of_lt (by decide) (by decide)),
    State.f_setF_of_lt (by decide) (by decide)⟩

theorem State.lastWrite_stored (h : s.f F.CRU_RES_CTRL_ENABLE = 0 ∨ s.f F.CRU_RES_COMMIT_UNRESOLVED = 1) (v : Nat) (m : Master) :
    s.lastWrite v m = (((s.setF F.CRU_RES_COMMIT_LAST (v % 2 ^ 48)).commitHeld (v % 2 ^ 48)).setF F.CRU_RES_COMMIT_UNRESOLVED 0).lowerLevel (srcOf 86 5) := by
  unfold State.lastWrite
  rw [if_neg (by omega)]

end

end Sys2Proof.Machine

namespace Sys2Proof.Claims
open Sys2Proof Sys2Proof.Machine

/-- Settles O46: the time-out ends its job and command, and each register write stores or refuses its fields. -/
theorem resilienceComplete : Obligations.ResilienceComplete := by
  unfold Obligations.ResilienceComplete
  intro s m
  refine ⟨fun q n j c hq hj hc hr hlim => ?timeout, completes_of_done rfl ⟨s.taintNow_taint, rfl⟩, fun v h => ?last,
    fun v hon hres => ?refused, fun v => ?stored, fun v => ?illegal⟩
  case timeout =>
    refine completes_of_onUnit rfl (decide_eq_true hq) ?_
    have hkey := List.find?_some hj
    rw [Bool.and_eq_true, beq_iff_eq, beq_iff_eq] at hkey
    rw [State.buddyTimeout_ends hj hc hlim]
    obtain ⟨rfl, rfl⟩ := hkey
    exact State.jobEnd_failed hc hr _
  case last =>
    refine completes_of_done rfl ?_
    rw [State.lastWrite_stored h]
    refine ⟨?_, ?_, fun g hg => ?_⟩
    · rw [State.f_lowerLevel _ _ _ _ _ rfl, State.f_setF_spared (by decide), State.f_commitHeld (by decide)]
      exact State.f_setF_of_lt (by decide) (Nat.mod_lt _ (by decide))
    · rw [State.f_lowerLevel _ _ _ _ _ rfl]
      exact State.f_setF_of_lt (by decide) (by decide)
    · rw [State.f_lowerLevel _ _ _ _ _ rfl, State.f_lowerLevel _ _ _ _ _ rfl, State.f_setF_spared (by decide), State.f_setF_spared (by decide)]
      refine State.commitHeld_marks (s := s.setF F.CRU_RES_COMMIT_LAST (v % 2 ^ 48)) (hg ▸ congrArg (List.find? · [0, 1]) (funext fun k => ?_))
      rw [State.f_setF_spared (by decide), State.f_setF_spared (by decide)]
  case refused =>
    refine completes_of_done rfl ?_
    have heq : s.lastWrite v m = s.cfgErr (RegKey.addr ⟨.CRU_RES_COMMIT, 0, 0⟩) m := if_pos ⟨hon, hres⟩
    have herr := EyeFrame.cfgErr s (RegKey.addr ⟨.CRU_RES_COMMIT, 0, 0⟩) m
    rw [heq]
    exact ⟨herr.f_eq _ _ _ rfl, herr.mem_eq⟩
  case stored =>
    intro b hb
    refine completes_of_done rfl ?_
    have hok : s.badBuddy b = false := by
      rcases hb with hb | ⟨hf, hr, ht⟩
      · simp [State.badBuddy, hb]
      · simp [State.badBuddy, hf, Nat.not_le.mpr hr, ht]
    obtain ⟨hen, hbuddy, htaint⟩ := s.resStored_spec v
    rw [State.resCtrl_eq, if_neg (by rw [hok]; decide)]
    split
    · exact ⟨(State.f_setF_spared (by decide)).trans hen, (State.f_setF_spared (by decide)).trans hbuddy,
        (State.taintNow_taint _).trans (congrArg (· ||| 128) htaint), rfl⟩
    · exact ⟨hen, hbuddy, htaint, rfl⟩
  case illegal =>
    intro b hb hbad
    refine completes_of_done rfl ?_
    have hrefused : s.badBuddy b = true := by
      rcases hbad with h | h | h <;> simp [State.badBuddy, hb, h]
    have herr := EyeFrame.cfgErr s (RegKey.addr ⟨.CRU_RES_CTRL, 0, 0⟩) m
    rw [State.resCtrl_eq, if_pos hrefused]
    exact ⟨herr.f_eq _ _ _ rfl, herr.f_eq _ _ _ rfl, herr.mem_eq⟩

end Sys2Proof.Claims
end

section
/-! PROOF. The sources of Eyespot (R443 to R449): TOTAL of an occurrence, the exits from QUIET, latches and configurations, and
`EyeSourcesComplete` from them. -/

namespace Sys2Proof.Machine

section
variable {s : State} {y : Fld} {n i j : Nat} {m : Master}

/-! ### Pins -/

/-- Releasing pins writes no register but EYE_PIN. -/
theorem State.f_releasePins (hy : y.reg ≠ .EYE_PIN) : s.releasePins.f y i j = s.f y i j := by
  have hset : ∀ (t : State) (x : Fld) v, x.reg = .EYE_PIN → (t.setF x v).f y i j = t.f y i j := fun t x v hx =>
    State.f_setF_reg _ _ _ _ _ _ _ _ (by rw [hx]; exact hy.symm) (by rw [hx]; decide)
  unfold State.releasePins
  dsimp only
  split <;> split
  · rw [hset _ _ _ rfl, hset _ _ _ rfl]
  · rw [hset _ _ _ rfl]
  · rw [hset _ _ _ rfl]
  · rfl

/-- What happens to the pins around a change of sources writes no register but EYE_PIN. -/
theorem State.f_withPins {k : State → State} (hy : y.reg ≠ .EYE_PIN) : (s.withPins k).f y i j = (k s).f y i j := by
  have hset : ∀ (c : Bool) (t : State) (x : Fld), x.reg = .EYE_PIN → (if c then t.setF x 0 else t).f y i j = t.f y i j := fun c t x hx => by
    split
    · exact State.f_setF_reg _ _ _ _ _ _ _ _ (by rw [hx]; exact hy.symm) (by rw [hx]; decide)
    · rfl
  unfold State.withPins
  dsimp only
  rw [State.f_refreshPins _ _ _ _ hy, State.f_releasePins hy, hset _ _ _ rfl, hset _ _ _ rfl]

/-! ### An occurrence counts (R443) -/

theorem State.total_raise (s : State) (n : Nat) (c : Cap) (hs : (srcDef n).isSome = true) (hn : n ≠ srcOf 83 12) :
    (s.raise n c).f F.EYE_SRC_STAT_TOTAL n = min (s.f F.EYE_SRC_STAT_TOTAL n + 1) (2 ^ F.EYE_SRC_STAT_TOTAL.w - 1) := s.total_raiseX n c [] hs hn

/-- A level source whose condition arises counts once. -/
theorem State.total_raiseLevel (s : State) (n : Nat) (c : Cap) (hs : (srcDef n).isSome = true) (hn : n ≠ srcOf 83 12)
    (ha : s.f F.EYE_SRC_STAT_ASSERTED n = 0) :
    (s.raiseLevel n c).f F.EYE_SRC_STAT_TOTAL n = min (s.f F.EYE_SRC_STAT_TOTAL n + 1) (2 ^ F.EYE_SRC_STAT_TOTAL.w - 1) := by
  unfold State.raiseLevel
  rw [if_neg (by omega), State.total_raise _ _ _ hs hn, State.f_setF_spared (by decide)]

theorem State.total_arise (s : State) (n : Nat) (c : Cap) (hs : (srcDef n).isSome = true) (hn : n ≠ srcOf 83 12)
    (ha : (srcDef n).any (fun d => d.level == 1) = true → s.f F.EYE_SRC_STAT_ASSERTED n = 0) :
    (s.arise n c).f F.EYE_SRC_STAT_TOTAL n = min (s.f F.EYE_SRC_STAT_TOTAL n + 1) (2 ^ F.EYE_SRC_STAT_TOTAL.w - 1) := by
  unfold State.arise
  split
  next hlevel => exact s.total_raiseLevel n c hs hn (ha hlevel)
  next => exact s.total_raise n c hs hn

/-! ### QUIET and LATCHED (R447 to R449) -/

/-- A field that a raise leaves alone is left alone by a condition that occurs again. -/
theorem State.f_occurAgain (hy : Untouched y = true) (ht : F.EYE_SRC_STAT_TOTAL.apart y = true) : (s.occurAgain n).f y i j = s.f y i j := by
  unfold State.occurAgain
  split
  · exact State.same_raise _ _ _ _ _ _ hy ht
  · rfl

theorem State.f_latchOn (hl : F.EYE_SRC_STAT_LATCHED.spares y = true) (hn : F.EYE_STATUS_LATCHED_NOW.spares y = true)
    (hs : F.EYE_STATUS_LATCH_SEEN.spares y = true) : (s.latchOn n).f y i j = s.f y i j := by
  unfold State.latchOn
  split
  · rfl
  · rw [State.f_setF_spared hs, State.f_bump_spared hn, State.f_setF_spared hl]

theorem State.f_quietOff (hq : F.EYE_SRC_STAT_QUIET.spares y = true) (hn : F.EYE_STATUS_QUIET_NOW.spares y = true) :
    (s.quietOff n).f y i j = s.f y i j := by
  unfold State.quietOff
  split
  · rfl
  · rw [State.f_setF_spared hn, State.f_setF_spared hq]

/-- An exit from QUIET counts one recovery. -/
theorem State.recoveries_quietExit (h : s.f F.EYE_SRC_STAT_QUIET n = 1) :
    (s.quietExit n).f F.EYE_SRC_STAT_RECOVERIES n = (s.f F.EYE_SRC_STAT_RECOVERIES n + 1) % 2 ^ 16 := by
  have hoff : (s.quietOff n).f F.EYE_SRC_STAT_RECOVERIES n = s.f F.EYE_SRC_STAT_RECOVERIES n := State.f_quietOff (by decide) (by decide)
  have hcount : ((s.quietOff n).setF F.EYE_SRC_STAT_RECOVERIES (((s.quietOff n).f F.EYE_SRC_STAT_RECOVERIES n + 1) % 2 ^ 16) n).f
      F.EYE_SRC_STAT_RECOVERIES n = (s.f F.EYE_SRC_STAT_RECOVERIES n + 1) % 2 ^ 16 := by
    rw [hoff]
    exact State.f_setF_of_lt (by decide) (Nat.mod_lt _ (by decide))
  unfold State.quietExit
  rw [if_neg (by omega)]
  extract_lets win exits latch left
  have hleft : left.f F.EYE_SRC_STAT_RECOVERIES n = (s.f F.EYE_SRC_STAT_RECOVERIES n + 1) % 2 ^ 16 := by
    unfold left
    rw [State.f_withPins (by decide)]
    dsimp only
    split
    · exact (State.f_latchOn (by decide) (by decide) (by decide)).trans hcount
    · exact hcount
  split
  · exact (State.same_raise _ _ _ _ _ _ (by decide) (by decide)).trans hleft
  · exact hleft

theorem State.recoveries_quietExpire (h : s.f F.EYE_SRC_STAT_QUIET n = 1) :
    (s.quietExpire n).f F.EYE_SRC_STAT_RECOVERIES n = (s.f F.EYE_SRC_STAT_RECOVERIES n + 1) % 2 ^ 16 := by
  unfold State.quietExpire
  rw [if_neg (by omega)]
  dsimp only
  split
  · exact State.recoveries_quietExit h
  · exact (State.f_occurAgain (by decide) (by decide)).trans (State.recoveries_quietExit h)

/-- Unlatching leaves the source not latched, whatever it was. -/
theorem State.latched_unlatch (s : State) (n : Nat) : (s.unlatch n).f F.EYE_SRC_STAT_LATCHED n = 0 := by
  unfold State.unlatch
  dsimp only
  split
  · assumption
  · rw [State.f_occurAgain (by decide) (by decide), State.f_withPins (by decide)]
    exact (State.f_setF_spared (by decide)).trans (State.f_setF_of_lt (by decide) (by decide))

theorem State.latch_spec (h : s.f F.EYE_SRC_STAT_LATCHED n = 0) :
    (s.latch n).f F.EYE_SRC_STAT_LATCHED n = 1 ∧ (s.latch n).f F.EYE_STATUS_LATCH_SEEN = 1 := by
  have hoff : (s.quietOff n).f F.EYE_SRC_STAT_LATCHED n = 0 := (State.f_quietOff (by decide) (by decide)).trans h
  have heq : (s.quietOff n).latchOn n =
      (((s.quietOff n).setF F.EYE_SRC_STAT_LATCHED 1 n).bump F.EYE_STATUS_LATCHED_NOW).setF F.EYE_STATUS_LATCH_SEEN 1 := if_neg (by omega)
  unfold State.latch State.latchRaise
  rw [if_neg (by omega), State.same_raise _ _ _ _ _ _ (by decide) (by decide), State.same_raise _ _ _ _ _ _ (by decide) (by decide),
    State.f_withPins (by decide), State.f_withPins (by decide), heq]
  exact ⟨(State.f_setF_spared (by decide)).trans ((State.f_bump_spared (by decide)).trans (State.f_setF_of_lt (by decide) (by decide))),
    State.f_setF_of_lt (by decide) (by decide)⟩

/-! ### Configuration (R445) -/

/-- The fields of EYE_SRC_CFG but PIN, stored. -/
def State.srcStored (s : State) (n v : Nat) : State :=
  ((((s.setF F.EYE_SRC_CFG_IRQ (bitsAt v 0 1) n).setF F.EYE_SRC_CFG_NMI (bitsAt v 1 1) n).setF F.EYE_SRC_CFG_BLOCK
    (if srcHasBlock n then bitsAt v 2 1 else 0) n).setF F.EYE_SRC_CFG_MODULE (bitsAt v 3 1) n).setF F.EYE_SRC_CFG_THRESH (max 1 (bitsAt v 8 4)) n

theorem State.srcCfg_eq (hs : (srcDef n).isSome = true) (hm : n / 16 = 82 ∨ n / 16 = 84 ∨ n / 16 = 85 → m.cls = 5) (v : Nat) : s.srcCfg n v m =
    if pinAllowed n (bitsAt v 4 3) then (s.srcStored n v).setF F.EYE_SRC_CFG_PIN (bitsAt v 4 3) n
    else (s.srcStored n v).cfgErr (RegKey.addr ⟨.EYE_SRC_CFG, n, 0⟩) m := by
  have hdef : (srcDef n).isNone = false := by rw [Option.isNone_eq_false_iff]; exact hs
  have hright : ¬ ((n / 16 = 82 ∨ n / 16 = 84 ∨ n / 16 = 85) ∧ m.cls ≠ 5) := fun h => h.2 (hm h.1)
  simp only [State.srcCfg, hdef, hright, Bool.false_eq_true, if_false]
  rfl

theorem State.srcStored_spec (s : State) (n v : Nat) : (s.srcStored n v).f F.EYE_SRC_CFG_IRQ n = bitsAt v 0 1 ∧
    (s.srcStored n v).f F.EYE_SRC_CFG_NMI n = bitsAt v 1 1 ∧ (s.srcStored n v).f F.EYE_SRC_CFG_MODULE n = bitsAt v 3 1 ∧
    (s.srcStored n v).f F.EYE_SRC_CFG_BLOCK n = (if srcHasBlock n then bitsAt v 2 1 else 0) ∧
    (s.srcStored n v).f F.EYE_SRC_CFG_THRESH n = max 1 (bitsAt v 8 4) := by
  have hblock : (if srcHasBlock n then bitsAt v 2 1 else 0) < 2 ^ 1 := by
    split
    · exact bitsAt_lt _ _ _
    · decide
  have hthresh : max 1 (bitsAt v 8 4) < 2 ^ 4 := max_lt (by decide) (bitsAt_lt _ _ _)
  refine ⟨?_, ?_, ?_, ?_, State.f_setF_of_lt (by decide) hthresh⟩
  · exact (State.f_setF_spared (by decide)).trans ((State.f_setF_spared (by decide)).trans ((State.f_setF_spared (by decide)).trans
      ((State.f_setF_spared (by decide)).trans (State.f_setF_of_lt (by decide) (bitsAt_lt _ _ _)))))
  · exact (State.f_setF_spared (by decide)).trans ((State.f_setF_spared (by decide)).trans ((State.f_setF_spared (by decide)).trans
      (State.f_setF_of_lt (by decide) (bitsAt_lt _ _ _))))
  · exact (State.f_setF_spared (by decide)).trans (State.f_setF_of_lt (by decide) (bitsAt_lt _ _ _))
  · exact (State.f_setF_spared (by decide)).trans ((State.f_setF_spared (by decide)).trans (State.f_setF_of_lt (by decide) hblock))

/-- Each stored field of EYE_SRC_CFG but PIN reads the same once PIN is written or refused. -/
theorem State.f_srcCfg (hs : (srcDef n).isSome = true) (hm : n / 16 = 82 ∨ n / 16 = 84 ∨ n / 16 = 85 → m.cls = 5) (v : Nat)
    (hy : F.EYE_SRC_CFG_PIN.spares y = true) (he : eyeReg y.reg = false) : (s.srcCfg n v m).f y i j = (s.srcStored n v).f y i j := by
  rw [State.srcCfg_eq hs hm]
  split
  · exact State.f_setF_spared hy
  · exact State.f_cfgErr _ _ _ _ _ _ he

end

end Sys2Proof.Machine

namespace Sys2Proof.Claims
open Sys2Proof Sys2Proof.Machine

/-- Settles O16: the counts and latches of a source are fields no raise writes but through its TOTAL. -/
theorem eyeSourcesComplete : Obligations.EyeSourcesComplete := by
  unfold Obligations.EyeSourcesComplete
  intro s n m hn hs
  have hunit : decide (n < 2048) = true := decide_eq_true hn
  have hknown : (decide (n < 2048) && (srcDef n).isSome) = true := by rw [hunit, hs]; rfl
  refine ⟨fun a b c h12 hlevel => completes_of_onUnit rfl hknown (s.total_arise n ⟨a, b, c⟩ hs h12 hlevel),
    fun hq => completes_of_onUnit rfl hunit (State.recoveries_quietExpire hq),
    completes_of_onUnit rfl hunit ⟨State.f_setF_of_lt (by decide) (by decide), State.f_setF_spared (by decide)⟩,
    completes_of_onUnit rfl hknown (s.latched_unlatch n), fun h => completes_of_onUnit rfl hknown (State.latch_spec h), fun v hm => ?cfg⟩
  case cfg =>
    refine completes_of_onUnit rfl hknown ?_
    obtain ⟨hirq, hnmi, hmod, hblock, hthresh⟩ := s.srcStored_spec n v
    refine ⟨(State.f_srcCfg hs hm v (by decide) rfl).trans hirq, (State.f_srcCfg hs hm v (by decide) rfl).trans hnmi,
      (State.f_srcCfg hs hm v (by decide) rfl).trans hmod, (State.f_srcCfg hs hm v (by decide) rfl).trans hblock,
      (State.f_srcCfg hs hm v (by decide) rfl).trans hthresh, fun hpin => ?_⟩
    rw [State.srcCfg_eq hs hm, if_pos hpin]
    exact State.f_setF_of_lt (by decide) (bitsAt_lt _ _ _)

end Sys2Proof.Claims
end

section
/-! PROOF. The log, the pins, the watchdogs, injection and margin sweeps of Eyespot (R446, R452 to R459), and `EyeRestComplete` from them. -/

namespace Sys2Proof.Machine

section
variable {s : State} {y : Fld} {n i j w a : Nat} {m : Master} {x : Sweep}

/-! ### The log (R452) -/

/-- The oldest record moves to the end of a log with room. -/
theorem State.logMove_room {r : EyeRec} {rest : List EyeRec} (hring : s.eye.ring = r :: rest) (hroom : s.eye.log.length < 32768) :
    s.logMove = ({ s with eye := { s.eye with ring := rest, log := s.eye.log ++ [r] } }.setF F.EYE_LOG_NEXT
      ((s.f F.EYE_LOG_NEXT + 1) % 32768)).bump F.EYE_LOG_TOTAL := by
  have hfits : ¬ (s.eye.log ++ [r]).length > 32768 := by
    rw [List.length_append, List.length_singleton]
    omega
  unfold State.logMove
  rw [hring]
  dsimp only
  rw [if_neg hfits]
  rfl

/-! ### Pins (R454) -/

theorem State.pins_releasePins (s : State) : s.releasePins.pins = s.pins := by
  unfold State.releasePins
  dsimp only
  split <;> split <;> rfl

/-- Releasing leaves the HOLD fields. -/
theorem State.f_releasePins_hold (ha : F.EYE_PIN_ALERT.spares y = true) (hs : F.EYE_PIN_SECALERT.spares y = true) :
    s.releasePins.f y i j = s.f y i j := by
  have hfirst : (if !s.pins.alertPulse ∧ s.f F.EYE_PIN_ALERT_HOLD = 0 then s.setF F.EYE_PIN_ALERT 0 else s).f y i j = s.f y i j := by
    split
    · exact State.f_setF_spared ha
    · rfl
  unfold State.releasePins
  dsimp only
  generalize (if !s.pins.alertPulse ∧ s.f F.EYE_PIN_ALERT_HOLD = 0 then s.setF F.EYE_PIN_ALERT 0 else s) = u at hfirst ⊢
  split
  · exact (State.f_setF_spared hs).trans hfirst
  · exact hfirst

/-- An alert pin without pulse and hold is released. -/
theorem State.alert_releasePins (hp : s.pins.alertPulse = false) (hh : s.f F.EYE_PIN_ALERT_HOLD = 0) : s.releasePins.f F.EYE_PIN_ALERT = 0 := by
  unfold State.releasePins
  extract_lets u
  have hu : u = s.setF F.EYE_PIN_ALERT 0 := if_pos ⟨by rw [hp]; rfl, hh⟩
  rw [hu]
  split
  · exact (State.f_setF_spared (by decide)).trans (State.f_setF_of_lt (by decide) (by decide))
  · exact State.f_setF_of_lt (by decide) (by decide)

theorem State.secAlert_releasePins (hp : s.pins.secPulse = false) (hh : s.f F.EYE_PIN_SECALERT_HOLD = 0) :
    s.releasePins.f F.EYE_PIN_SECALERT = 0 := by
  have hfirst : ∀ u : State, u = (if !s.pins.alertPulse ∧ s.f F.EYE_PIN_ALERT_HOLD = 0 then s.setF F.EYE_PIN_ALERT 0 else s) →
      u.pins.secPulse = false ∧ u.f F.EYE_PIN_SECALERT_HOLD = 0 := by
    rintro u rfl
    split
    · exact ⟨hp, (State.f_setF_spared (by decide)).trans hh⟩
    · exact ⟨hp, hh⟩
  obtain ⟨hp, hh⟩ := hfirst _ rfl
  unfold State.releasePins
  dsimp only
  rw [if_pos ⟨by rw [hp]; rfl, hh⟩]
  exact State.f_setF_of_lt (by decide) (by decide)

theorem State.pinHold_keel (hm : m.cls = 5) (p q : Nat) :
    s.pinHold p q m = ((s.setF F.EYE_PIN_ALERT_HOLD (p % 2)).setF F.EYE_PIN_SECALERT_HOLD (q % 2)).releasePins := by
  unfold State.pinHold State.class5
  exact if_pos hm

/-! ### Watchdogs (R455) -/

/-- A level source whose condition ends is no longer asserted. -/
theorem State.asserted_lowerLevel (s : State) (n : Nat) : (s.lowerLevel n).f F.EYE_SRC_STAT_ASSERTED n = 0 := by
  unfold State.lowerLevel
  split
  · assumption
  · rw [State.f_withPins (by decide)]
    dsimp only
    split <;> exact State.f_setF_of_lt (by decide) (by decide)

theorem State.total_keelExpire (hst : 2 ≤ s.stage) (ht : s.boot.trial.contains 0 = false) (ha : s.f F.EYE_SRC_STAT_ASSERTED (srcOf 83 8) = 0) :
    s.keelExpire.f F.EYE_SRC_STAT_TOTAL (srcOf 83 8) =
      min (s.f F.EYE_SRC_STAT_TOTAL (srcOf 83 8) + 1) (2 ^ F.EYE_SRC_STAT_TOTAL.w - 1) := by
  have htrial : (s.raiseLevel (srcOf 83 8) ⟨0, Master.sp.code, 0⟩).refreshPins.boot.trial.contains 0 = false := by
    rw [((EyeFrame.refl s).raiseLevel (srcOf 83 8) ⟨0, Master.sp.code, 0⟩).refreshPins.boot_eq]
    exact ht
  unfold State.keelExpire
  rw [if_neg (by omega)]
  dsimp only
  rw [if_neg (fun h => Bool.false_ne_true (htrial.symm.trans h.1)), State.f_refreshPins _ _ _ _ (by decide)]
  exact s.total_raiseLevel _ _ (by decide) (by decide) ha

theorem State.total_osExpire (h : s.f F.EYE_KICK_OS_MS ≠ 0) : s.osExpire.f F.EYE_SRC_STAT_TOTAL (srcOf 83 9) =
    min (s.f F.EYE_SRC_STAT_TOTAL (srcOf 83 9) + 1) (2 ^ F.EYE_SRC_STAT_TOTAL.w - 1) := by
  unfold State.osExpire
  rw [if_neg h]
  exact State.total_raise s.osKickNow _ _ (by decide) (by decide)

/-! ### Injection (R457) and sweeps (R458, R459) -/

theorem State.injArm_armed (h : s.lcs = 1 ∨ s.lcs = 3 ∨ s.lcs = 4) : (s.injArm m).f F.EYE_INJ_CTRL_ARMED = 1 := by
  unfold State.injArm
  rw [if_pos h]
  exact State.f_setF_of_lt (by decide) (by decide)

theorem State.sweepReached_first (hx : s.eye.sweeps = [x]) (hw : x.wing = w) (ha : x.arr = a) (hr : x.reached = false)
    (hs : s.atStress w a = true) : (s.sweepReached w a).eye.sweeps = [{ x with reached := true }] := by
  simp [State.sweepReached, hx, hw, ha, hr, hs]

/-- A wing's tap offsets over. -/
def State.offsOver (s : State) (w : Nat) : State := foldS (List.range 4) (fun a s => s.setF F.MGN_DOM_TAP_SWEEP_OFF 0 (6 * w + a)) s

/-- A wing in TEMPER goes back to READY. -/
def State.temperLeft (s : State) (w : Nat) : State := if s.f F.WNG_STATUS_STATE w = 1 then s.setF F.WNG_STATUS_STATE 2 w else s

/-- A wing that no sweep has. -/
def State.unswept (s : State) (w : Nat) : State := { s with wings := mset s.wings w { mgetD s.wings w ({} : WingSt) with sweep := false } }

theorem State.eye_offsOver (s : State) (w : Nat) : (s.offsOver w).eye = s.eye :=
  foldS_keeps State.eye (f := fun a s => s.setF F.MGN_DOM_TAP_SWEEP_OFF 0 (6 * w + a)) (fun _ _ => rfl) _ s

theorem State.eye_temperLeft (s : State) (w : Nat) : (s.temperLeft w).eye = s.eye := by
  unfold State.temperLeft
  split <;> rfl

theorem State.eye_unswept (s : State) (w : Nat) : (s.unswept w).eye = s.eye := rfl

/-- A running sweep that ends gives its wing back: the offsets, the self-test and TEMPER end (R458). -/
def State.sweepFreed (s : State) (x : Sweep) : State :=
  (((s.offsOver x.wing).setF F.WNG_BIST_BUSY 0 x.wing).temperLeft x.wing).unswept x.wing

theorem State.eye_sweepFreed (s : State) (x : Sweep) : (s.sweepFreed x).eye = s.eye := by
  rw [State.sweepFreed, State.eye_unswept, State.eye_temperLeft, State.setF_eye, State.eye_offsOver]

/-- Registers do not depend on what Eyespot holds outside them. -/
theorem State.f_withEye (s : State) (e : EyeSt) (y : Fld) (i j : Nat) : State.f { s with eye := e } y i j = s.f y i j := rfl

/-- Dropping the only sweep leaves none, and BUSY is clear. -/
theorem State.dropSweeps_only {p : Sweep → Bool} (hx : s.eye.sweeps = [x]) (hp : p x = true) (l : Bool) :
    (s.dropSweeps p l).eye.sweeps = [] ∧ (s.dropSweeps p l).f F.EYE_SWEEP_BUSY = 0 := by
  have hgone : s.eye.sweeps.filter p = [x] := by simp [hx, hp]
  unfold State.dropSweeps
  rw [hgone]
  extract_lets gone freed left marked
  have hfold : freed.eye.sweeps = s.eye.sweeps := congrArg EyeSt.sweeps
    (foldS_keeps State.eye (f := fun x s => s.sweepFreed x) (fun x s => s.eye_sweepFreed x) _ s)
  clear_value freed
  have hleft : left = [] := by simp [left, hfold, hx, hp]
  have hbusy : marked.f F.EYE_SWEEP_BUSY = 0 := by
    unfold marked
    rw [hleft]
    exact State.f_setF_of_lt (by decide) (by decide)
  rw [if_neg (by simp [gone])]
  refine ⟨hleft, ?_⟩
  rw [State.f_withEye]
  exact hbusy

/-- A sweep that ended without a failure has result 1 (R459). -/
theorem State.sweepEnd_passed (hx : s.eye.sweeps = [x]) (hw : x.wing = w) (ha : x.arr = a) (hr : x.running = true) (he : x.ended = true)
    (hf : x.failed = false) : s.sweepEnd w a = ((s.dropSweeps (fun y => y == x) false).setF F.EYE_SWEEP_LAST_RESULT 1).raise (srcOf w 8)
      ⟨0, (Master.mk 1 w).code, atCheck⟩ := by
  simp [State.sweepEnd, hx, hw, ha, hr, he, hf]

end

end Sys2Proof.Machine

namespace Sys2Proof.Claims
open Sys2Proof Sys2Proof.Machine

/-- Settles O17: the pins, watchdogs and sweeps write their own fields last, and a raise counts its source once. -/
theorem eyeRestComplete : Obligations.EyeRestComplete := by
  unfold Obligations.EyeRestComplete
  intro s m w a hw ha
  have hunit : (decide (w < 64) && decide (a < 4)) = true := by rw [decide_eq_true hw, decide_eq_true ha]; rfl
  refine ⟨fun r rest hring hroom => ?log, ?alert, ?sec, fun x y hx hy hm => ?hold, completes_of_done rfl (s.asserted_lowerLevel _),
    completes_of_done rfl rfl, fun hst ht h => completes_of_done rfl (State.total_keelExpire hst ht h),
    fun h => completes_of_done rfl (State.total_osExpire h), fun h => completes_of_done rfl (State.injArm_armed h),
    fun x hx hxw hxa hr hs => completes_of_onUnit rfl hunit (State.sweepReached_first hx hxw hxa hr hs),
    fun x hx hxw hxa hr => completes_of_onUnit rfl hunit (State.dropSweeps_only hx (by simp [hxw, hxa, hr]) true),
    fun x hx hxw hxa hr he hf => ?ended⟩
  case log =>
    refine completes_of_done rfl ?_
    rw [State.logMove_room hring hroom]
    exact ⟨rfl, rfl, (State.f_bump_spared (by decide)).trans (State.f_setF_of_lt (by decide) (Nat.mod_lt _ (by decide)))⟩
  case alert =>
    exact completes_of_done rfl ⟨congrArg Pins.alertPulse (State.pins_releasePins _),
      fun h => State.alert_releasePins (s := { s with pins := { s.pins with alertPulse := false } }) rfl h⟩
  case sec =>
    exact completes_of_done rfl ⟨congrArg Pins.secPulse (State.pins_releasePins _),
      fun h => State.secAlert_releasePins (s := { s with pins := { s.pins with secPulse := false } }) rfl h⟩
  case hold =>
    refine completes_of_done rfl ?_
    rw [State.pinHold_keel hm, Nat.mod_mod, Nat.mod_mod, Nat.mod_eq_of_lt hx, Nat.mod_eq_of_lt hy]
    exact ⟨(State.f_releasePins_hold (by decide) (by decide)).trans ((State.f_setF_spared (by decide)).trans (State.f_setF_of_lt (by decide) hx)),
      (State.f_releasePins_hold (by decide) (by decide)).trans (State.f_setF_of_lt (by decide) hy)⟩
  case ended =>
    refine completes_of_onUnit rfl hunit ?_
    rw [State.sweepEnd_passed hx hxw hxa hr he hf, State.same_raise _ _ _ _ _ _ (by decide) (by decide)]
    exact State.f_setF_of_lt (by decide) (by decide)

end Sys2Proof.Claims
end

section
/-! PROOF. Power-up, stops, trips and resets (R397, R486 to R490, R498, R503 to R506, R514, R517, R518): what each operation leaves in
the power state, the boot stage and memory, and `PowerStatesComplete` from it. -/

namespace Sys2Proof.Machine

section
variable {s : State} {y : Fld} {r i j : Nat}

/-! ### The boot register -/

theorem State.lastReset_setStage (s : State) (n : Nat) : (s.setStage n).f F.CRU_BOOT_LAST_RESET = s.f F.CRU_BOOT_LAST_RESET :=
  (State.f_refreshPins _ _ _ _ (by decide)).trans (State.f_setF_boot_bits _ _ _ _ rfl rfl (by decide) (by decide))

theorem State.pwrState_setStage (s : State) (n : Nat) : (s.setStage n).pwrState = s.pwrState := State.f_setStage _ _ _ _ _ (by decide) (by decide)

/-- What a module reset writes into CRU_BOOT before its stage. -/
def State.resetMarked (s : State) (cause : Nat) : State := (s.setF F.CRU_BOOT_LAST_RESET cause).setF F.CRU_BOOT_POWER_ON 0

theorem State.lastReset_resetMarked (s : State) {cause : Nat} (hc : cause < 16) : (s.resetMarked cause).f F.CRU_BOOT_LAST_RESET = cause :=
  (State.f_setF_boot_bits _ _ _ _ rfl rfl (by decide) (by decide)).trans (State.f_setF_of_lt (by decide) hc)

/-! ### Power-up (R488) -/

theorem State.inputValid_up (hv : s.pins.vstby = false) (hm : s.sec.marker = none) (x : Nat) :
    (s.inputValid x).pins.straps = x % 64 ∧ (s.inputValid x).pins.vstby = true ∧ (s.inputValid x).pins.lost = false ∧ (s.inputValid x).mem = [] ∧
      (s.inputValid x).pw.step = 1 := by
  unfold State.inputValid
  dsimp only
  rw [hv, if_neg (by decide), State.resetPowerOn, State.finishMarker_of_none (by exact hm)]
  exact ⟨rfl, rfl, rfl, rfl, rfl⟩

theorem State.f_railUp (hy : y.reg ≠ .PWR_RAIL) (hm : y.reg ≠ .PWR_RAIL_MEAS) : (s.railUp r).f y i j = s.f y i j := by
  have hrail : ∀ (t : State) (x : Fld) v k, x.reg = .PWR_RAIL → (t.setF x v k).f y i j = t.f y i j := fun t x v k hx =>
    State.f_setF_reg _ _ _ _ _ _ _ _ (by rw [hx]; exact hy.symm) (by rw [hx]; decide)
  have hbase : ((s.setF F.PWR_RAIL_SET_MV (s.railLevel r) r).setF F.PWR_RAIL_MEAS_PGOOD 1 r).f y i j = s.f y i j :=
    (State.f_setF_reg _ _ _ _ _ _ _ _ hm.symm (by decide)).trans (hrail _ _ _ _ rfl)
  unfold State.railUp
  dsimp only
  split
  · rw [hrail _ _ _ _ rfl, hrail _ _ _ _ rfl, hbase]
  · exact hbase

theorem State.pgood_railUp (s : State) (r : Nat) : (s.railUp r).f F.PWR_RAIL_MEAS_PGOOD r = 1 := by
  have hset : ((s.setF F.PWR_RAIL_SET_MV (s.railLevel r) r).setF F.PWR_RAIL_MEAS_PGOOD 1 r).f F.PWR_RAIL_MEAS_PGOOD r = 1 :=
    State.f_setF_of_lt (by decide) (by decide)
  unfold State.railUp
  dsimp only
  split
  · exact (State.f_setF_spared (by decide)).trans ((State.f_setF_spared (by decide)).trans hset)
  · exact hset

/-- Raising one rail leaves the others at power-good. -/
theorem State.pgood_railUp_of (h : s.f F.PWR_RAIL_MEAS_PGOOD r = 1) (k : Nat) : (s.railUp k).f F.PWR_RAIL_MEAS_PGOOD r = 1 := by
  by_cases hk : k = r
  · subst hk
    exact s.pgood_railUp k
  · have hset : ((s.setF F.PWR_RAIL_SET_MV (s.railLevel k) k).setF F.PWR_RAIL_MEAS_PGOOD 1 k).f F.PWR_RAIL_MEAS_PGOOD r = 1 :=
      (State.f_setF_idx _ _ _ _ (.inl hk) (by decide)).trans ((State.f_setF_spared (by decide)).trans h)
    unfold State.railUp
    dsimp only
    split
    · exact (State.f_setF_spared (by decide)).trans ((State.f_setF_spared (by decide)).trans hset)
    · exact hset

theorem State.railUp_keeps {β : Type} (g : State → β) (hg : ∀ (t : State) (x : Fld) v k, g (t.setF x v k) = g t) (r : Nat) (s : State) :
    g (s.railUp r) = g s := by
  unfold State.railUp
  dsimp only
  split
  · rw [hg, hg, hg, hg]
  · rw [hg, hg]

/-- The rails of a power-up step raised. -/
def State.railsUp (s : State) (k : Nat) : State := foldS (powerSteps.getD (k - 1) []) (fun r s => s.railUp r) s

theorem State.railsUp_keeps {β : Type} (g : State → β) (hg : ∀ (t : State) (x : Fld) v k, g (t.setF x v k) = g t) (s : State) (k : Nat) :
    g (s.railsUp k) = g s := foldS_keeps g (State.railUp_keeps g hg) _ _

theorem State.railGood_step (hp : s.pwrState = 1) (h1 : 1 ≤ s.pw.step) (h6 : s.pw.step < 6) :
    s.railGood none = (s.railsUp s.pw.step).setPw { (s.railsUp s.pw.step).pw with step := s.pw.step + 1 } := by
  have hgo : ¬ (s.pwrState ≠ 1 ∨ s.pw.step = 0 ∨ 6 < s.pw.step) := by omega
  have hmore : ¬ s.pw.step = 6 := by omega
  simp only [State.railGood, hgo, hmore, if_false]
  rfl

theorem State.railGood_last (hp : s.pwrState = 1) (h6 : s.pw.step = 6) : s.railGood none = (s.railsUp 6).powerUpDone := by
  simp only [State.railGood, hp, h6, ne_eq, not_true_eq_false, lt_self_iff_false, OfNat.ofNat_ne_zero, or_self, if_false, if_true]
  rfl

theorem State.railGood_bad (hp : s.pwrState = 1) (h1 : 1 ≤ s.pw.step) (h6 : s.pw.step ≤ 6) (hr : r ∈ mainRails) :
    s.railGood (some r) = (s.setF F.PWR_RAIL_MEAS_FAULT 1 r).powerUpFail (r + 1) := by
  have hgo : ¬ (s.pwrState ≠ 1 ∨ s.pw.step = 0 ∨ 6 < s.pw.step) := by omega
  simp only [State.railGood, hgo, hr, if_false, if_true]

/-- With a reference a first power-up ends ON at stage 1. -/
theorem State.powerUpDone_first (hc : s.pins.refclk = true) (hr : s.pw.resume = false) : s.powerUpDone.pwrState = 2 ∧ s.powerUpDone.stage = 1 := by
  have heq : s.powerUpDone = ((s.setPw { s.pw with step := 0, resume := false }).setF F.PWR_STATE_STATE 2).setStage 1 := by
    have hclk : ((s.setPw { s.pw with step := 0, resume := false }).setF F.PWR_STATE_STATE 2).pins.refclk = true := hc
    simp only [State.powerUpDone, hr, Bool.false_eq_true, if_false, hclk, Bool.not_true]
  rw [heq]
  exact ⟨(State.pwrState_setStage _ _).trans (State.f_setF_of_lt (by decide) (by decide)), State.stage_setStage _ (by decide)⟩

theorem State.powerUpFail_spec (s : State) {cause : Nat} (hc : cause < 256) :
    (s.powerUpFail cause).pwrState = 4 ∧ (s.powerUpFail cause).stage = 15 ∧ (s.powerUpFail cause).f F.CRU_BOOT_CAUSE = cause := by
  unfold State.powerUpFail
  refine ⟨?_, State.stage_setStage _ (by decide), (State.cause_setStage _ _).trans (State.f_setF_of_lt (by decide) hc)⟩
  rw [State.pwrState_setStage]
  exact (State.f_setF_boot _ _ _ _ _ _ rfl (by decide) (by decide) (by decide)).trans
    ((State.f_setF_spared (by decide)).trans (State.f_setF_of_lt (by decide) (by decide)))

/-! ### Cuts of the main rails (R489, R498, R506) -/

/-- One rail off: its set point and its measurements, but for its fault, are gone. -/
def State.railCut (s : State) (r : Nat) : State :=
  (s.setF F.PWR_RAIL_SET_MV 0 r).wr .PWR_RAIL_MEAS (BitVec.ofNat 64 (s.f F.PWR_RAIL_MEAS_FAULT r * 2 ^ 49)) r

/-- No step of a power-up runs and memory holds nothing. -/
def State.unpowered (s : State) : State := { s.setPw { step := 0 } with mem := [], poison := [], latent := [] }

theorem State.railsOff_eq (s : State) : s.railsOff = (foldS mainRails (fun r s => s.railCut r) s.resetMain).unpowered := rfl

theorem State.mem_railsOff (s : State) : s.railsOff.mem = [] := rfl

theorem State.pins_resetUnits (s : State) : s.resetUnits.pins = s.pins := rfl
theorem State.pins_resetRegs (s : State) (p : RegName → Bool) : (s.resetRegs p).pins = s.pins := rfl
theorem State.pins_noteWings (s : State) : s.noteWings.pins = s.pins := rfl
theorem State.pins_unpowered (s : State) : s.unpowered.pins = s.pins := rfl
theorem State.pins_railCut (r : Nat) (s : State) : (s.railCut r).pins = s.pins := rfl

theorem State.pins_keepPlans (s : State) : s.keepPlans.pins = s.pins := by
  unfold State.keepPlans
  split
  · exact foldS_keeps State.pins (f := fun d (s : State) => s.wr .MGN_DOM_TAP (s.rd .MGN_DOM_TAP d) d) (fun _ _ => rfl) _ _
  · rfl

/-- Cutting the main rails changes nothing at the module's pins. -/
theorem State.pins_railsOff (s : State) : s.railsOff.pins = s.pins := by
  rw [State.railsOff_eq, State.pins_unpowered, foldS_keeps State.pins (f := fun r s => s.railCut r) State.pins_railCut, State.resetMain,
    State.pins_resetUnits, State.pins_resetRegs, State.pins_noteWings, State.pins_keepPlans]

theorem State.pins_setStage (s : State) (n : Nat) : (s.setStage n).pins = s.pins := rfl

theorem State.cutRails_on (h4 : s.pwrState ≠ 4) (h5 : s.pwrState ≠ 5) : s.cutRails = (s.railsOff.setF F.PWR_STATE_STATE 5).setStage 0 := by
  unfold State.cutRails
  rw [if_neg fun h => h.elim h4 h5]

/-- A cut ends in the power state 5 at stage 0, the stacks' contents lost. -/
theorem State.cutRails_spec (h4 : s.pwrState ≠ 4) (h5 : s.pwrState ≠ 5) :
    s.cutRails.pwrState = 5 ∧ s.cutRails.stage = 0 ∧ s.cutRails.mem = [] := by
  rw [State.cutRails_on h4 h5]
  exact ⟨(State.pwrState_setStage _ _).trans (State.f_setF_of_lt (by decide) (by decide)), State.stage_setStage _ (by decide), s.mem_railsOff⟩

theorem State.railFault_on (hp : s.pwrState = 2) (r : Nat) : (s.railFault r).pwrState = 5 ∧ (s.railFault r).stage = 0 ∧
    (s.railFault r).mem = [] ∧ (s.railFault r).f F.PWR_RAIL_MEAS_FAULT r = 1 := by
  obtain ⟨hstate, hstage, hmem⟩ := State.cutRails_spec (s := s) (by omega) (by omega)
  have hraise := (EyeFrame.refl (s.cutRails.setF F.PWR_RAIL_MEAS_FAULT 1 r)).raise (srcOf 85 5) ⟨0, Master.sp.code, 0⟩
  unfold State.railFault
  rw [if_neg (not_not.mpr hp)]
  exact ⟨(hraise.f_eq _ _ _ rfl).trans ((State.f_setF_spared (by decide)).trans hstate),
    (hraise.f_eq _ _ _ rfl).trans ((State.f_setF_spared (by decide)).trans hstage), hraise.mem_eq.trans hmem,
    (hraise.f_eq _ _ _ rfl).trans (State.f_setF_of_lt (by decide) (by decide))⟩

theorem State.trip_spec (h4 : s.pwrState ≠ 4) (h5 : s.pwrState ≠ 5) :
    s.trip.pwrState = 5 ∧ s.trip.stage = 0 ∧ s.trip.f F.THM_STATUS_TRIP_SEEN = 1 ∧ s.trip.mem = [] := by
  obtain ⟨hstate, hstage, hmem⟩ := State.cutRails_spec h4 h5
  have hraise := (EyeFrame.refl (s.cutRails.setF F.THM_STATUS_TRIP_SEEN 1)).raise (srcOf 84 3) ⟨0, Master.sp.code, 0⟩
  unfold State.trip
  rw [if_neg fun h => h.elim h4 h5]
  exact ⟨(hraise.f_eq _ _ _ rfl).trans ((State.f_setF_spared (by decide)).trans hstate),
    (hraise.f_eq _ _ _ rfl).trans ((State.f_setF_spared (by decide)).trans hstage),
    (hraise.f_eq _ _ _ rfl).trans (State.f_setF_of_lt (by decide) (by decide)), hraise.mem_eq.trans hmem⟩

theorem State.powerDown_spec (hp : s.pwrState = 3) (hl : s.pins.lost = false) :
    s.powerDown.pwrState = 4 ∧ s.powerDown.stage = 0 ∧ s.powerDown.mem = [] := by
  have hlost : ((s.railsOff.setF F.PWR_STATE_STATE 4).setStage 0).pins.lost = false := by
    rw [State.pins_setStage, State.setF_pins, State.pins_railsOff, hl]
  unfold State.powerDown
  rw [if_neg (not_not.mpr hp)]
  dsimp only
  rw [hlost, if_neg (by decide)]
  exact ⟨(State.pwrState_setStage _ _).trans (State.f_setF_of_lt (by decide) (by decide)), State.stage_setStage _ (by decide), s.mem_railsOff⟩

/-! ### The orderly stop (R503, R504) -/

theorem State.f_irq (s : State) (src : Nat) : (s.irq src).f y i j = s.f y i j := by
  unfold State.irq
  dsimp only
  split <;> rfl

theorem State.f_notice (hy : .CRU_NOTICE ≠ y.reg) (code : Nat) : (s.notice code).f y i j = s.f y i j := by
  unfold State.notice
  dsimp only
  rw [State.f_irq, State.f_setF_reg _ _ _ _ _ _ _ _ hy (by decide), State.f_setF_reg _ _ _ _ _ _ _ _ hy (by decide)]
  split
  · exact State.f_setF_reg _ _ _ _ _ _ _ _ hy (by decide)
  · rfl

/-- A stop in ON starts the power state 3 with its cause, and dispatching ends. -/
theorem State.orderlyStop_on (hp : s.pwrState = 2) {trigger : Nat} (ht : trigger < 16) : (s.orderlyStop trigger).pwrState = 3 ∧
    (s.orderlyStop trigger).f F.PWR_STATE_STOP_CAUSE = trigger ∧ (s.orderlyStop trigger).f F.QE_CTRL_DISPATCH_EN = 0 := by
  have hkept : ∀ y : Fld, .PWR_RAIL ≠ y.reg → eyeReg y.reg = false → .CRU_NOTICE ≠ y.reg → (s.orderlyStop trigger).f y =
      (((s.setF F.PWR_STATE_STATE 3).setF F.PWR_STATE_STOP_CAUSE trigger).setF F.QE_CTRL_DISPATCH_EN 0).f y := fun y h1 h2 h3 => by
    unfold State.orderlyStop
    rw [if_neg (not_not.mpr hp)]
    dsimp only
    rw [State.f_setPwrReq _ _ _ _ _ h1, State.f_raise _ _ _ _ _ _ h2, State.f_notice h3]
  refine ⟨(hkept _ (by decide) rfl (by decide)).trans ?_, (hkept _ (by decide) rfl (by decide)).trans ?_, (hkept _ (by decide) rfl (by decide)).trans ?_⟩
  · exact (State.f_setF_spared (by decide)).trans ((State.f_setF_spared (by decide)).trans (State.f_setF_of_lt (by decide) (by decide)))
  · exact (State.f_setF_spared (by decide)).trans (State.f_setF_of_lt (by decide) ht)
  · exact State.f_setF_of_lt (by decide) (by decide)

/-- A stop with its source raised beside it. -/
theorem State.orderlyStop_raise (hp : s.pwrState = 2) {trigger : Nat} (ht : trigger < 16) (n : Nat) (c : Cap) :
    ((s.orderlyStop trigger).raise n c).pwrState = 3 ∧ ((s.orderlyStop trigger).raise n c).f F.PWR_STATE_STOP_CAUSE = trigger := by
  obtain ⟨hstate, hcause, -⟩ := State.orderlyStop_on hp ht
  exact ⟨(State.f_raise _ _ _ _ _ _ rfl).trans hstate, (State.f_raise _ _ _ _ _ _ rfl).trans hcause⟩

/-! ### The input (R490, R517) -/

/-- The input is not lost: no register shows it. -/
theorem State.f_unlost (s : State) (y : Fld) (i j : Nat) : State.f { s with pins := { s.pins with lost := false } } y i j = s.f y i j := rfl

/-- A sample between 42 and 60 V is stored; the peak, the rails and the end of the warning write other fields. -/
theorem State.vin_inputSample (s : State) {mv : Nat} (hm : mv < 65536) (avg : Nat) (rails : List (Nat × Nat × Nat)) (hlo : 42000 ≤ mv)
    (hhi : mv ≤ 60000) : (s.inputSample mv avg rails).f F.PWR_IN_VIN_MV = mv := by
  unfold State.inputSample
  extract_lets stored peak measured pins present level
  have hstored : stored.f F.PWR_IN_VIN_MV = mv := State.f_setF_of_lt (by decide) hm
  have hpeak : peak.f F.PWR_IN_VIN_MV = mv := by
    unfold peak
    split
    · exact (State.f_setF_spared (by decide)).trans hstored
    · exact hstored
  have hmeasured : measured.f F.PWR_IN_VIN_MV = mv := by
    refine (foldS_keeps (fun t : State => t.f F.PWR_IN_VIN_MV) (fun x t => ?_) _ peak).trans hpeak
    dsimp only
    split
    · rfl
    · rw [State.f_setF_spared (by decide), State.f_setF_spared (by decide), State.f_setF_spared (by decide)]
  have hpresent : present.f F.PWR_IN_VIN_MV = mv := by
    unfold present
    rw [if_pos (by omega)]
    exact (State.f_unlost measured _ _ _).trans hmeasured
  have hlevel : level.f F.PWR_IN_VIN_MV = mv := by
    unfold level
    rw [if_neg (by omega), State.f_lowerLevel _ _ _ _ _ rfl, hpresent]
  clear_value level
  rw [if_neg (show ¬ (mv < 40000 ∨ mv > 60000) by omega), if_neg (show ¬ (mv < 38000 ∧ level.pwrState = 2) by omega), ite_self, hlevel]

theorem State.inputLoss_holdup (hv : s.pins.vstby = true) (hp : s.pwrState = 2) (h11 : 11 ≤ s.stage) (h13 : s.stage ≤ 13) : s.inputLoss =
    (({ s with pins := { s.pins with lost := true } } : State).orderlyStop 5).raise (srcOf 85 4) ⟨0, Master.sp.code, 0⟩ := by
  unfold State.inputLoss
  rw [hv, if_neg (by decide), if_neg (by omega), if_pos ⟨hp, h11, h13⟩]

/-! ### Resets and restarts (R397, R505, R514) -/

/-- After the units have reset, a module reset writes registers and draws, and nothing else. -/
theorem State.resetModule_keeps {β : Type} (g : State → β) (hg : ∀ (t : State) r n, g { t with regs := r, free := n } = g t) (s : State) :
    g s.resetModule = g s.resetEye.resetMain := by
  have hset : ∀ (t : State) (x : Fld) v k, g (t.setF x v k) = g t := fun t x v k => hg t _ t.free
  have himg : ∀ c (t : State), g (t.imgStat c) = g t := fun c t =>
    (hset _ _ _ _).trans ((hset _ _ _ _).trans ((hset _ _ _ _).trans (hset _ _ _ _)))
  have hpins : ∀ t : State, g t.releasePins = g t := fun t => by
    unfold State.releasePins
    dsimp only
    split <;> split <;> simp only [hset]
  have hchal : ∀ t : State, g t.newChallenge = g t := fun t =>
    foldS_keeps g (f := fun i s => let z := s.draw; z.2.wr .SEC_CHAL (BitVec.ofNat 64 z.1) i) (fun _ u => hg u _ _) _ _
  unfold State.resetModule
  dsimp only
  rw [hchal, hpins, foldS_keeps g himg, hset, hset, hset]
  exact hg _ _ s.resetEye.resetMain.free

theorem State.moduleReset_on (hp : s.pwrState = 2) (hs : 2 ≤ s.stage) (cause : Nat) :
    s.moduleReset cause = (s.resetModule.resetMarked cause).setStage 2 := by
  unfold State.moduleReset
  rw [if_neg (by omega)]
  rfl

theorem State.qe_resetMain (s : State) : s.resetMain.qe = {} := rfl
theorem State.wings_resetMain (s : State) : s.resetMain.wings = [] := rfl
theorem State.qe_afterReset (s : State) (cause : Nat) : ((s.resetMarked cause).setStage 2).qe = s.qe := rfl
theorem State.wings_afterReset (s : State) (cause : Nat) : ((s.resetMarked cause).setStage 2).wings = s.wings := rfl

theorem State.moduleReset_spec (hp : s.pwrState = 2) (hs : 2 ≤ s.stage) {cause : Nat} (hc : cause < 16) : (s.moduleReset cause).stage = 2 ∧
    (s.moduleReset cause).f F.CRU_BOOT_LAST_RESET = cause ∧ (s.moduleReset cause).qe = {} ∧ (s.moduleReset cause).wings = [] := by
  rw [State.moduleReset_on hp hs, State.stage_setStage _ (by decide), State.lastReset_setStage, State.lastReset_resetMarked _ hc,
    State.qe_afterReset, State.wings_afterReset, State.resetModule_keeps State.qe (fun _ _ _ => rfl),
    State.resetModule_keeps State.wings (fun _ _ _ => rfl), State.qe_resetMain, State.wings_resetMain]
  exact ⟨rfl, rfl, rfl, rfl⟩

/-- What a restart writes after the reset: the power state and the first step of a power-up that resumes. -/
def State.restarted (s : State) : State := (s.setF F.PWR_STATE_STATE 1).setPw { s.pw with step := 1, resume := true }

theorem State.restart_eq (s : State) (cause : Nat) : s.restart cause = ((s.resetModule.resetMarked cause).restarted).setStage 0 := by
  unfold State.restart
  rfl

theorem State.f_restarted (s : State) (y : Fld) : s.restarted.f y = (s.setF F.PWR_STATE_STATE 1).f y := rfl
theorem State.step_restarted (s : State) : (s.restarted.setStage 0).pw.step = 1 := rfl

theorem State.restart_spec (s : State) {cause : Nat} (hc : cause < 16) : (s.restart cause).pwrState = 1 ∧ (s.restart cause).stage = 0 ∧
    (s.restart cause).pw.step = 1 ∧ (s.restart cause).f F.CRU_BOOT_LAST_RESET = cause := by
  rw [State.restart_eq, State.pwrState_setStage, State.stage_setStage _ (by decide), State.step_restarted, State.lastReset_setStage, State.f_restarted,
    State.pwrState, State.f_restarted, State.f_setF_of_lt (by decide) (by decide), State.f_setF_spared (by decide), State.lastReset_resetMarked _ hc]
  exact ⟨rfl, rfl, rfl, rfl⟩

/-! ### The reference (R518) -/

theorem State.refclk_refclkLoss (s : State) : s.refclkLoss.pins.refclk = false := by
  have hlock : ∀ f (t : State), (t.lockLoss f).pins = t.pins := fun f t => by
    unfold State.lockLoss
    split <;> rfl
  have hretrain : ∀ k (t : State), (if t.f F.FLK_MEM_STACK_STAT_STATE k = 2 ∨ t.f F.FLK_MEM_STACK_STAT_STATE k = 3 then t.stackRetrain k else t).pins = t.pins :=
    fun k t => by split <;> rfl
  unfold State.refclkLoss
  split
  next h => simpa using h
  · extract_lets pins unclocked retrained unlocked
    have hunlocked : unlocked.pins = retrained.pins := foldS_keeps State.pins (f := fun f (s : State) => s.lockLoss f) hlock _ _
    have hretrained : retrained.pins = unclocked.pins := foldS_keeps State.pins (f := fun k (s : State) =>
      if s.f F.FLK_MEM_STACK_STAT_STATE k = 2 ∨ s.f F.FLK_MEM_STACK_STAT_STATE k = 3 then s.stackRetrain k else s) hretrain _ _
    clear_value unlocked retrained
    split
    · rfl
    · rw [State.setF_pins, hunlocked, hretrained]

end

end Sys2Proof.Machine

namespace Sys2Proof.Claims
open Sys2Proof Sys2Proof.Machine

/-- Settles O18: each transition writes its power state and stage last, and cuts and power-ons clear memory. -/
theorem powerStatesComplete : Obligations.PowerStatesComplete := by
  unfold Obligations.PowerStatesComplete
  intro s m
  refine ⟨fun x hx hv hm => completes_of_onUnit rfl (decide_eq_true hx) (State.inputValid_up hv hm x), fun r hp h1 h6 hr => ?step,
    fun hp h6 hc hr => ?last, fun r hr hmain hp h1 h6 => ?bad, fun r hr hp => completes_of_onUnit rfl (decide_eq_true hr) (State.railFault_on hp r),
    fun mv avg rails hm => completes_of_done rfl (s.vin_inputSample hm avg rails), fun hp => ?range,
    fun hp => completes_of_done rfl (State.orderlyStop_on hp (by decide)), fun hp hl => completes_of_done rfl (State.powerDown_spec hp hl),
    fun ha hp hok => ?auto, fun hp hs => ?low, completes_of_done rfl rfl, fun hp => completes_of_done rfl (if_pos (.inl hp)),
    fun hv hp h11 h13 => ?loss, fun n hn h4 h5 => completes_of_onUnit rfl (decide_eq_true hn) (State.trip_spec h4 h5),
    completes_of_done rfl s.refclk_refclkLoss, completes_of_done rfl rfl, fun hp hs => completes_of_done rfl (State.moduleReset_spec hp hs (by decide))⟩
  case step =>
    refine completes_of_onUnit rfl rfl ?_
    rw [State.railGood_step hp h1 h6]
    exact ⟨rfl, foldS_reaches (P := fun t : State => t.f F.PWR_RAIL_MEAS_PGOOD r = 1) (g := fun r s => s.railUp r) (fun t => t.pgood_railUp r) hr
      (fun b _ t ht => State.pgood_railUp_of ht b) s⟩
  case last =>
    refine completes_of_onUnit rfl rfl ?_
    rw [State.railGood_last hp h6]
    exact State.powerUpDone_first ((State.railsUp_keeps (fun t => t.pins.refclk) (fun _ _ _ _ => rfl) s 6).trans hc)
      ((State.railsUp_keeps (fun t => t.pw.resume) (fun _ _ _ _ => rfl) s 6).trans hr)
  case bad =>
    refine completes_of_onUnit rfl (decide_eq_true hr) ?_
    rw [State.railGood_bad hp h1 h6 hmain]
    exact State.powerUpFail_spec _ (by omega)
  case range =>
    refine completes_of_done rfl ?_
    have heq : s.inputRange = (s.orderlyStop 4).raise (srcOf 85 3) ⟨0, Master.sp.code, 0⟩ := if_pos hp
    rw [heq]
    exact State.orderlyStop_raise hp (by decide) _ _
  case auto =>
    refine completes_of_done rfl ?_
    have heq : s.autoRestart = s.restart 5 := if_pos ⟨ha, hp, hok⟩
    rw [heq]
    exact s.restart_spec (by decide)
  case low =>
    obtain ⟨hstage, hlast, -⟩ := State.moduleReset_spec (s := { s with pins := { s.pins with resetN := false } }) hp hs (cause := 1) (by decide)
    exact completes_of_done rfl ⟨hstage, hlast⟩
  case loss =>
    refine completes_of_done rfl ?_
    rw [State.inputLoss_holdup hv hp h11 h13]
    exact State.orderlyStop_raise (s := { s with pins := { s.pins with lost := true } }) hp (by decide) _ _

end Sys2Proof.Claims
end

section
/-! PROOF. The management lane's messages and sessions (R401 to R405), attestation (R429), and `SessionsComplete` from them. -/

namespace Sys2Proof.Machine
open Sys2Proof.Claims

section
variable {s : State} {h : MgtHdr} {x y : Sess} {id k : Nat} {sig key nonce cert : List Byte}

/-! ### The lane (R401, R409) -/

/-- A datagram within the load of R409 is served by its command, in the state that counts it. -/
theorem State.mgtArrive_served (hup : s.keelUp = true) (hversion : h.version = 1) (hload : s.loaded.1 = false) (serve busy : State → State) :
    s.mgtArrive h serve busy = serve s.loaded.2 := by
  unfold State.mgtArrive
  rw [if_neg (by simp [hup]), if_neg (not_not.mpr hversion)]
  exact if_neg (by simp [hload])

theorem State.mgtSend_lane (s : State) (bs : List Byte) : s.mgtSend none bs = s.send (.mgt bs) := rfl

theorem State.helloReply_lane (hvia : h.via = none) (s : State) (body : List Byte) (id : Nat) {status : Nat} (hs : status ≠ 2) :
    s.helloReply h status body id = s.send (.mgt (mgtBytes none 0x81 id h.counter status body)) := by
  unfold State.helloReply
  rw [if_neg hs, hvia, State.mgtSend_lane]

/-! ### The session list (R405) -/

theorem State.sess_id (hx : s.sess id = some x) : x.id = id := by simpa using List.find?_some hx

theorem State.sess_putSess (hx : s.sess id = some x) (hy : y.id = id) : (s.putSess y).sess id = some y := by
  have hlist : ∀ l : List Sess, l.find? (fun z => z.id == id) = some x →
      (l.map fun z => if z.id = y.id then y else z).find? (fun z => z.id == id) = some y := by
    intro l
    induction l with
    | nil => simp
    | cons z zs ih =>
      intro hfind
      by_cases hz : z.id = id
      · simp [hz, hy]
      · rw [List.find?_cons_of_neg (by simpa using hz)] at hfind
        rw [List.map_cons, if_neg (by rw [hy]; exact hz), List.find?_cons_of_neg (by simpa using hz)]
        exact ih hfind
  exact hlist _ hx

theorem State.sess_dropSess (s : State) (id : Nat) : (s.dropSess fun y => y.id == id).sess id = none := by
  change (s.mgt.sess.filter fun y => !(y.id == id)).find? (fun y => y.id == id) = none
  rw [List.find?_eq_none]
  intro y hy
  simpa using (List.mem_filter.mp hy).2

/-! ### HELLO and FINISH (R404) -/

theorem State.hello_denied (hvia : h.via = none) (hlen : h.lenOk = true) (hfirst : s.mgt.hellos.1 ≠ s.now / 1000000000) (hroles : s.clientRoles cert = 0) :
    s.hello h key nonce cert = (s.setMgt { s.mgt with hellos := (s.now / 1000000000, 1) }).send (.mgt (mgtBytes none 0x81 0 h.counter 1 [])) := by
  unfold State.hello
  simp only [hfirst, if_false]
  rw [if_neg (by decide), if_neg (by simp [hlen]), if_pos (.inr hroles), State.helloReply_lane hvia _ _ _ (by decide)]

theorem State.mgt_draw (s : State) : s.draw.2.mgt = s.mgt := rfl

theorem State.now_draw (s : State) : s.draw.2.now = s.now := rfl

theorem State.clientRoles_draw (s : State) (cert : List Byte) : s.draw.2.clientRoles cert = s.clientRoles cert := rfl

theorem State.hello_opens (hvia : h.via = none) (hlen : h.lenOk = true) (hfirst : s.mgt.hellos.1 ≠ s.now / 1000000000)
    (hroles : s.clientRoles cert ≠ 0) (hlcs : s.lcs ≠ 5) (hroom : s.mgt.sess.length < 64) :
    ∃ x, (s.hello h key nonce cert).mgt.sess = s.mgt.sess ++ [x] ∧ x.opened = false ∧ x.cert = cert ∧ x.roles = s.clientRoles cert ∧ x.used = s.now := by
  unfold State.hello
  extract_lets sec n _src counted idle kept
  have hn : n = 0 := if_neg hfirst
  have hlist : counted.mgt.sess = s.mgt.sess := rfl
  have hrole : counted.clientRoles cert = s.clientRoles cert := rfl
  have hnow : counted.now = s.now := rfl
  have hstate : counted.lcs = s.lcs := rfl
  have hkept : kept = counted := if_pos hroom
  clear_value kept idle counted
  rw [if_neg (by omega), if_neg (by simp [hlen]), if_neg (by simp [hstate, hrole, hlcs, hroles])]
  subst hkept
  rw [if_neg (by rw [hlist]; omega)]
  simp only [State.helloReply_lane hvia _ _ _ (show (0 : Nat) ≠ 2 by decide), State.mgt_draw, State.now_draw, State.clientRoles_draw,
    hlist, hrole, hnow]
  exact ⟨_, rfl, rfl, rfl, rfl, rfl⟩

theorem State.finish_opens (hvia : h.via = none) (hlen : h.lenOk = true) (hx : s.sess h.session = some x) (hwait : x.opened = false)
    (hsig : Config.ecdsaVerify (certKey x.cert) x.transcript (nats sig) = true) :
    s.finish h sig = (s.putSess { x with opened := true, used := s.now, last := h.counter }).send (.mgt (mgtBytes (some x) 0x83 x.id h.counter 0 [])) := by
  unfold State.finish
  rw [hx]
  refine (if_neg (by simp [hwait])).trans ((if_pos ⟨hlen, hsig⟩).trans ?_)
  rw [hvia]
  rfl

theorem State.finish_fails (hx : s.sess h.session = some x) (hwait : x.opened = false)
    (hsig : Config.ecdsaVerify (certKey x.cert) x.transcript (nats sig) = false) : s.finish h sig = s.dropSess fun y => y.id == h.session := by
  unfold State.finish
  rw [hx, ← State.sess_id hx]
  exact (if_neg (by simp [hwait])).trans (if_neg (by simp [hsig]))

/-! ### Attestation (R429) -/

theorem State.rest_putReport (s : State) (k : Nat) (bs : List Byte) (r : List (RegKey × Word)) : { s.putReport k bs with regs := r } = { s with regs := r } :=
  foldS_keeps (fun t : State => { t with regs := r }) (f := fun i (s : State) => s.wr .SEC_ATT_REPORT (BitVec.ofNat 64 (leNat (cut bs (8 * i) 8))) k i)
    (fun _ _ => rfl) _ s

theorem State.attStart_idle (hbusy : s.f F.SEC_ATT_CTRL_BUSY k = 0) (hz : s.f F.SEC_LCS_ZEROISING = 0) :
    s.attStart k = (s.setF F.SEC_ATT_CTRL_BUSY 1 k).putReport k [] := if_neg (by simp [hbusy, hz])

theorem State.busy_putReport (s : State) (k : Nat) (bs : List Byte) :
    (s.putReport k bs).f F.SEC_ATT_CTRL_BUSY k = s.f F.SEC_ATT_CTRL_BUSY k :=
  foldS_keeps (fun t : State => t.f F.SEC_ATT_CTRL_BUSY k)
    (f := fun i (s : State) => s.wr .SEC_ATT_REPORT (BitVec.ofNat 64 (leNat (cut bs (8 * i) 8))) k i)
    (fun i t => congrArg (getBits · _ _) (t.rd_wr_reg _ k i k 0 (by decide) (by decide))) _ s

/-- The slot's marks after a report of given bytes. -/
def State.attReady (s : State) (k : Nat) (bs : List Byte) : State :=
  ((s.putReport k bs).setF F.SEC_ATT_CTRL_BUSY 0 k).setF F.SEC_ATT_CTRL_DONE 1 k

theorem State.attDone_busy (hbusy : s.f F.SEC_ATT_CTRL_BUSY k = 1) : s.attDone k = s.attReady k (s.report k) := if_neg (by simp [hbusy])

theorem State.rest_setF (s : State) (f : Fld) (v i j : Nat) (r : List (RegKey × Word)) : { s.setF f v i j with regs := r } = { s with regs := r } := rfl

theorem State.attReady_spec (s : State) (k : Nat) (bs : List Byte) : (s.attReady k bs).f F.SEC_ATT_CTRL_BUSY k = 0 ∧
    (s.attReady k bs).f F.SEC_ATT_CTRL_DONE k = 1 ∧ { s.attReady k bs with regs := s.regs } = s := by
  unfold State.attReady
  rw [State.rest_setF, State.rest_setF, State.rest_putReport]
  exact ⟨(State.f_setF_spared (by decide)).trans (State.f_setF_of_lt (by decide) (by decide)), State.f_setF_of_lt (by decide) (by decide), rfl⟩

end

end Sys2Proof.Machine

namespace Sys2Proof.Claims
open Sys2Proof Sys2Proof.Machine

/-- Settles O49: a served datagram acts in the state that counts it, and the sessions are one list. -/
theorem sessionsComplete : Obligations.SessionsComplete := by
  unfold Obligations.SessionsComplete
  intro s h m
  have served : OnLane s h → ∀ serve busy, s.mgtArrive h serve busy = serve s.loaded.2 :=
    fun hlane => State.mgtArrive_served hlane.1 hlane.2.1 hlane.2.2.1
  refine ⟨fun hlane => ?ident, fun key nonce cert hlane hfirst hroles => ?denied, fun key nonce cert hlane hfirst hroles hlcs hroom => ?opens,
    fun x sig hlane hx hwait hsig => ?finish, fun x sig hlane hx hwait hsig => ?fails, completes_of_done rfl rfl,
    fun hslew hrem => ?slewed, fun hslew => completes_of_done rfl (if_neg (by tauto)), fun id => completes_of_done rfl ⟨s.sess_dropSess id, rfl, rfl⟩,
    fun k hk hbusy hz => ?start, fun k hk hbusy => ?refused, fun k hk hbusy => ?report⟩
  case ident =>
    have heq : s.ident h = s.loaded.2.send (.mgt (mgtBytes none 0xA0 h.session h.counter 0 s.loaded.2.identBody)) := by
      obtain ⟨-, -, -, hvia, hlen⟩ := id hlane
      rw [State.ident, served hlane, hvia, if_pos hlen, if_pos hlen, State.mgtSend_lane]
    refine completes_of_done rfl ?_
    rw [heq]
    exact ⟨rfl, rfl⟩
  case denied =>
    obtain ⟨-, -, -, hvia, hlen⟩ := id hlane
    refine completes_of_done rfl ?_
    rw [State.mgtHello, served hlane, State.hello_denied (s := s.loaded.2) hvia hlen hfirst hroles]
    exact ⟨rfl, rfl⟩
  case opens =>
    obtain ⟨-, -, -, hvia, hlen⟩ := id hlane
    refine completes_of_done rfl ?_
    rw [State.mgtHello, served hlane]
    exact State.hello_opens (s := s.loaded.2) hvia hlen hfirst hroles hlcs hroom
  case finish =>
    obtain ⟨-, -, -, hvia, hlen⟩ := id hlane
    refine completes_of_done rfl ?_
    rw [State.mgtFinish, served hlane, State.finish_opens (s := s.loaded.2) hvia hlen hx hwait hsig]
    exact ⟨State.sess_putSess (s := s.loaded.2) (y := { x with opened := true, used := s.now, last := h.counter }) hx (State.sess_id (s := s) hx :), rfl⟩
  case fails =>
    refine completes_of_done rfl ?_
    rw [State.mgtFinish, served hlane, State.finish_fails (s := s.loaded.2) hx hwait hsig]
    exact ⟨s.loaded.2.sess_dropSess h.session, rfl⟩
  case slewed =>
    refine completes_of_done rfl ?_
    rw [State.slewDone, if_pos ⟨hslew, hrem⟩]
    exact ⟨State.f_setF_of_lt (by decide) (by decide), rfl⟩
  case start =>
    refine completes_of_onUnit rfl (decide_eq_true hk) ?_
    rw [State.attStart_idle hbusy hz, State.busy_putReport, State.rest_putReport]
    exact ⟨State.f_setF_of_lt (by decide) (by decide), rfl⟩
  case refused =>
    refine completes_of_onUnit rfl (decide_eq_true hk) ?_
    rw [State.attStart, if_pos hbusy]
    exact ⟨State.f_setF_of_lt (by decide) (by decide), State.f_setF_spared (by decide), rfl⟩
  case report =>
    refine completes_of_onUnit rfl (decide_eq_true hk) ?_
    rw [State.attDone_busy hbusy]
    exact s.attReady_spec k (s.report k)

end Sys2Proof.Claims
end

section
/-! PROOF. The lane's fragments and frames, IPv6 and SMBus (R402, R408, R411 to R413), and `LaneComplete` from them. -/

namespace Sys2Proof.Machine
open Sys2Proof.Claims

section
variable {s : State} {src num n : Nat} {c : Cell} {frame pre target data : List Byte}

/-! ### Fragments (R411) -/

theorem State.fragment_first (hc : s.fab.inbox.find? (fun c => c.src == src && c.cls == 3) = some c) (hup : s.keelUp = true)
    (hi : cellByte c 0 < cellByte c 1) (hmany : 1 < cellByte c 1) (hnew : ∀ f ∈ s.mgt.frags, ¬ (f.src = src ∧ f.num = beNat (cut c.payload 2 2))) :
    s.fragment src = (s.takeCells [c]).setMgt { s.mgt with frags := s.mgt.frags ++
      [{ src := src, num := beNat (cut c.payload 2 2), count := cellByte c 1, time := s.now, parts := [(cellByte c 0, (c.payload.drop 4).take 60)] }] } := by
  have hfind : s.mgt.frags.find? (fun f => f.src == src && f.num == beNat (cut c.payload 2 2)) = none := by
    simpa [List.find?_eq_none] using hnew
  have hrest : s.mgt.frags.filter (fun f => !(f.src == src && f.num == beNat (cut c.payload 2 2))) = s.mgt.frags := by
    simpa [List.filter_eq_self, ← not_and_or] using hnew
  have htook : (s.takeCells [c]).mgt = s.mgt := rfl
  have hup' : (s.takeCells [c]).keelUp = true := hup
  have hnow : (s.takeCells [c]).now = s.now := rfl
  unfold State.fragment
  rw [hc]
  dsimp only
  rw [htook, hup', hnow, hfind, hrest, if_neg (by simp; omega)]
  exact if_pos hmany

theorem State.frags_fragTimeout (s : State) (src num : Nat) : ∀ f ∈ (s.fragTimeout src num).mgt.frags, ¬ (f.src = src ∧ f.num = num) := by
  intro f hf
  simpa [← not_and_or] using (List.mem_filter.mp hf).2

/-! ### The operating system's rings (R408) -/

theorem State.plic_irq (s : State) (n : Nat) : n ∈ (s.irq n).plic.pending := by
  unfold State.irq
  dsimp only
  split
  next h => exact List.contains_iff_mem.mp h
  next h => exact List.mem_append_right _ (List.mem_singleton.mpr rfl)

theorem State.mgt_irq (s : State) (n : Nat) : (s.irq n).mgt = s.mgt := by
  unfold State.irq
  dsimp only
  split <;> rfl

theorem ReadFrame.mgt_eq {t : State} (h : ReadFrame s t) : t.mgt = s.mgt := by
  have e := congrArg State.mgt h.rest
  exact e

theorem WriteFrame.mgt_eq {t : State} (h : WriteFrame s t) : t.mgt = s.mgt := by
  have e := congrArg State.mgt h.rest
  exact e

theorem WriteFrame.osSlots_eq {t : State} (h : WriteFrame s t) : t.osSlots = s.osSlots := by
  rw [State.osSlots, h.f_eq _ 0 0 rfl, State.osSlots]

theorem ReadFrame.osSlots_eq {t : State} (h : ReadFrame s t) : t.osSlots = s.osSlots := h.write.osSlots_eq

/-- The ring slot that the next received frame takes. -/
def State.rxSlot (s : State) : Nat := s.f F.CRU_MGT_OSQ_BASE + s.mgt.osRx % s.osSlots * 2048

/-- The ring slot that the next transmitted frame leaves from. -/
def State.txSlot (s : State) : Nat := s.f F.CRU_MGT_OSQ_BASE + (s.osSlots + s.mgt.osTx % s.osSlots) * 2048

theorem State.osReceive_stored (hup : s.keelUp = true) (hlen : frame.length ≤ 1518) (hos : s.osOn = true) (ha : s.inHbm s.rxSlot 2048 = true) :
    s.osReceive frame false false =
      ((s.store s.rxSlot frame).setMgt { (s.store s.rxSlot frame).mgt with osRx := (s.mgt.osRx + 1) % s.osSlots }).irq 385 := by
  have hstored := (WriteFrame.refl s).store s.rxSlot frame
  unfold State.osReceive
  rw [if_neg (by simp [hup]), if_neg (by omega), if_neg (by simp [hos]), if_neg (by decide)]
  refine (if_neg (by simpa [State.rxSlot] using ha)).trans ?_
  change ((s.store s.rxSlot frame).setMgt { (s.store s.rxSlot frame).mgt with
    osRx := ((s.store s.rxSlot frame).mgt.osRx + 1) % (s.store s.rxSlot frame).osSlots }).irq 385 = _
  rw [hstored.osSlots_eq, hstored.mgt_eq]

theorem State.osReceive_full (hup : s.keelUp = true) (hlen : frame.length ≤ 1518) (hos : s.osOn = true) :
    s.osReceive frame false true = s.bump F.CRU_MGT_CNT_FRAME_DROP := by
  unfold State.osReceive
  rw [if_neg (by simp [hup]), if_neg (by omega), if_neg (by simp [hos]), if_pos rfl]

theorem State.osTransmit_sends (hup : s.keelUp = true) (hos : s.osOn = true) (hn : n ≤ 1518) (ha : s.inHbm s.txSlot 2048 = true)
    (hnow : s.readNow s.txSlot n 0 = true) : (s.osTransmit n).out = s.out ++ [.frame (s.readBytes s.txSlot n)] ∧
      (s.osTransmit n).mgt.osTx = (s.mgt.osTx + 1) % s.osSlots ∧ (s.osTransmit n).mem = s.mem := by
  have hread := (ReadFrame.refl s).checkRead s.txSlot n Master.sp.code atRead
  have heq : s.osTransmit n = (((s.checkRead s.txSlot n Master.sp.code atRead).send (.frame ((s.checkRead s.txSlot n Master.sp.code atRead).readBytes s.txSlot n))).setMgt
      { (s.checkRead s.txSlot n Master.sp.code atRead).mgt with
        osTx := ((s.checkRead s.txSlot n Master.sp.code atRead).mgt.osTx + 1) % (s.checkRead s.txSlot n Master.sp.code atRead).osSlots }) := by
    unfold State.osTransmit
    rw [if_neg (by simp [hup, hos]; omega)]
    refine (if_neg (by simpa [State.txSlot] using ha)).trans ?_
    exact if_neg (by simpa [State.txSlot] using hnow)
  rw [heq]
  generalize s.checkRead s.txSlot n Master.sp.code atRead = t at hread
  refine ⟨?_, ?_, hread.mem_eq⟩
  · change t.out ++ [.frame (cellsRead t.mem s.txSlot n)] = _
    rw [hread.out_eq, hread.mem_eq]
    rfl
  · change (t.mgt.osTx + 1) % t.osSlots = _
    rw [hread.mgt_eq, hread.osSlots_eq]

/-! ### IPv6 (R402) -/

theorem State.ipv6_plain (hup : s.keelUp = true) (k : State → State) : s.ipv6 false k = k s := by simp [State.ipv6, hup]

theorem State.advert_adds (hup : s.keelUp = true) (hpre : pre.length = 8) (hroom : s.mgt.addrs.length < 4)
    (hnew : s.mgt.addrs.contains (pre ++ s.eui) = false) :
    s.advert pre false = (s.setMgt { s.mgt with addrs := s.mgt.addrs ++ [pre ++ s.eui] }).setF F.CRU_MGT_STAT_ADDR_GLOBAL 1 := by
  have htake : pre.take 8 = pre := List.take_of_length_le hpre.le
  rw [State.advert, State.ipv6_plain hup]
  dsimp only
  rw [htake, if_neg (by rw [hnew]; simp [hpre, hroom])]

/-! ### SMBus (R412, R413) -/

theorem State.smb_served (hsmb : OnSmb s) (k : State → State) : s.smb true k = k (s.bump F.CRU_SMB_STAT_TRANSACTIONS) := by
  obtain ⟨hlcs, hpower⟩ := hsmb
  unfold State.smb
  rw [if_neg (by simp [hlcs]; omega), if_neg (by simp)]

theorem State.smb_wrong (hsmb : OnSmb s) (k : State → State) : s.smb false k = s.setF F.CRU_SMB_STAT_PEC_ERR 1 := by
  obtain ⟨hlcs, hpower⟩ := hsmb
  unfold State.smb
  rw [if_neg (by simp [hlcs]; omega), if_pos (by simp)]

/-- Two words of an answer, at the modulus of a 32-bit word. -/
theorem State.smb_words (s : State) (x y : Nat) {p : Nat} (hp : p = 4294967296) : s.send (.smb (leBytes 4 (x % p) ++ leBytes 4 (y % p))) =
    { s with out := s.out ++ [.smb (leBytes 4 (x % 4294967296) ++ leBytes 4 (y % 4294967296))] } := by
  rw [hp, State.send]

theorem State.f_counted {y : Fld} (hy : .CRU_SMB_STAT ≠ y.reg) : (s.bump F.CRU_SMB_STAT_TRANSACTIONS).f y = s.f y :=
  State.f_bump_reg _ _ _ _ _ _ _ _ hy (by decide)

theorem State.pwrState_counted (s : State) : (s.bump F.CRU_SMB_STAT_TRANSACTIONS).pwrState = s.pwrState :=
  State.f_bump_reg _ _ _ _ _ _ _ _ (by decide) (by decide)

theorem State.id_counted (s : State) : (s.bump F.CRU_SMB_STAT_TRANSACTIONS).rd .CRU_ID = s.rd .CRU_ID :=
  State.rd_wr_reg _ _ _ _ _ _ (by decide) (by decide)

end

end Sys2Proof.Machine

namespace Sys2Proof.Claims
open Sys2Proof Sys2Proof.Machine

/-- Settles O50: each message that the lane serves acts alone, on its ring, its list or its counter. -/
theorem laneComplete : Obligations.LaneComplete := by
  unfold Obligations.LaneComplete
  intro s
  refine ⟨fun src c hc hup hi hmany hnew => ?fragment, fun src num => completes_of_done rfl ⟨s.frags_fragTimeout src num, rfl, rfl⟩,
    fun frame hup hlen hos ha => ?receive, fun frame full hup hlen hos hfull => ?full, fun n hup hos hn ha hnow => completes_of_done rfl (State.osTransmit_sends hup hos hn ha hnow),
    fun pre hup hpre hroom hnew => ?advert, fun target hup hown => ?neighbour, fun target data hup hown => ?echo, fun hsmb => ?reads,
    fun hsmb hp => ?stop, fun hsmb hp => ?ignored, fun hsmb => ?wrong, fun up => completes_of_done rfl ⟨?link, rfl⟩⟩
  case fragment =>
    refine completes_of_done rfl ?_
    rw [State.fragment_first hc hup hi hmany hnew]
    exact ⟨rfl, rfl⟩
  case receive =>
    refine completes_of_done rfl ?_
    rw [State.osReceive_stored hup hlen hos ha, State.mgt_irq, State.irq_mem]
    exact ⟨rfl, rfl, State.plic_irq _ _⟩
  case full =>
    subst hfull
    refine completes_of_done rfl ?_
    rw [State.osReceive_full hup hlen hos]
    exact ⟨State.f_bump_same _ _ _ _ _ (by decide), rfl⟩
  case advert =>
    refine completes_of_done rfl ?_
    rw [State.advert_adds hup hpre hroom hnew]
    exact ⟨rfl, State.f_setF_of_lt (by decide) (by decide)⟩
  case neighbour =>
    refine completes_of_done rfl ?_
    rw [State.neighbour, State.ipv6_plain hup, if_pos hown]
    rfl
  case echo =>
    refine completes_of_done rfl ?_
    rw [State.echo, State.ipv6_plain hup, if_pos hown]
    rfl
  case reads =>
    refine ⟨completes_of_done rfl ?_, completes_of_done rfl ?_, completes_of_done rfl ?_, completes_of_done rfl ?_⟩
    · rw [State.smbIdentity, State.smb_served hsmb, State.id_counted]
      exact State.smb_words _ _ _ rfl
    · exact State.smb_served hsmb _
    · rw [State.smbPower, State.smb_served hsmb, State.f_counted (by decide)]
      rfl
    · rw [State.smbTj, State.smb_served hsmb, State.f_counted (by decide)]
      rfl
  case stop =>
    obtain ⟨hstate, hcause, -⟩ := State.orderlyStop_on (s := s.bump F.CRU_SMB_STAT_TRANSACTIONS)
      (s.pwrState_counted.trans hp) (trigger := 6) (by decide)
    refine completes_of_done rfl ?_
    have heq : s.smbStop 0xA5 true = (s.bump F.CRU_SMB_STAT_TRANSACTIONS).orderlyStop 6 := by
      rw [State.smbStop, State.smb_served hsmb, if_neg (by decide)]
      exact if_pos (s.pwrState_counted.trans hp)
    rw [heq]
    exact ⟨hstate, hcause⟩
  case ignored =>
    have heq : s.smbStop 0xA5 true = (s.bump F.CRU_SMB_STAT_TRANSACTIONS).setF F.CRU_SMB_STAT_STOP_IGNORED 1 := by
      rw [State.smbStop, State.smb_served hsmb, if_neg (by decide)]
      exact if_neg (fun h => hp (s.pwrState_counted.symm.trans h))
    refine completes_of_done rfl ?_
    rw [heq]
    exact ⟨State.f_setF_of_lt (by decide) (by decide), rfl⟩
  case wrong =>
    refine completes_of_done rfl ?_
    rw [State.smbTj, State.smb_wrong hsmb]
    exact ⟨State.f_setF_of_lt (by decide) (by decide), rfl⟩
  case link =>
    refine State.f_setF_of_lt (by decide) ?_
    split <;> decide

end Sys2Proof.Claims
end

section
/-! PROOF. Management commands of an open session (R395, R403 to R410, R421, R423, R495), and `SessionCommandsComplete` from them. -/

namespace Sys2Proof.Machine
open Sys2Proof.Claims

section
variable {s t : State} {h : MgtHdr} {x : Sess} {y : Xfer} {c : MgtOp} {a v w cls total : Nat} {off : Int} {data : List Byte}

/-! ### A command's reply (R403, R405) -/

/-- A session keeps its last sixteen replies (R405). -/
def State.cacheReply (s : State) (id counter : Nat) (bs : List Byte) : State :=
  match s.sess id with
  | some y => s.putSess { y with cache := ((counter, bs) :: y.cache).take 16 }
  | none => s

/-- The state once a session's reply has left on the lane. -/
def State.mgtReplied (s : State) (h : MgtHdr) (x : Sess) (type status : Nat) (body : List Byte) : State :=
  (s.cacheReply x.id h.counter (mgtBytes (some x) type x.id h.counter status body)).send (.mgt (mgtBytes (some x) type x.id h.counter status body))

theorem State.cacheReply_keeps {β : Type} (g : State → β) (hg : ∀ (t : State) l n, g (({ t with mgt := { t.mgt with sess := l } }).setF F.CRU_MGT_STAT_SESSIONS n) = g t)
    (s : State) (id counter : Nat) (bs : List Byte) : g (s.cacheReply id counter bs) = g s := by
  unfold State.cacheReply
  split
  · exact hg _ _ _
  · rfl

theorem State.f_mgtReplied (s : State) (h : MgtHdr) (x : Sess) (type status : Nat) (body : List Byte) {f : Fld} (hf : .CRU_MGT_STAT ≠ f.reg) (i j : Nat) :
    (s.mgtReplied h x type status body).f f i j = s.f f i j :=
  s.cacheReply_keeps (fun t => t.f f i j) (fun _ _ _ => State.f_setF_reg _ _ _ _ _ _ _ _ hf (by decide)) _ _ _

theorem State.sec_mgtReplied (s : State) (h : MgtHdr) (x : Sess) (type status : Nat) (body : List Byte) : (s.mgtReplied h x type status body).sec = s.sec :=
  s.cacheReply_keeps State.sec (fun _ _ _ => rfl) _ _ _

theorem State.mem_mgtReplied (s : State) (h : MgtHdr) (x : Sess) (type status : Nat) (body : List Byte) : (s.mgtReplied h x type status body).mem = s.mem :=
  s.cacheReply_keeps State.mem (fun _ _ _ => rfl) _ _ _

theorem State.remain_mgtReplied (s : State) (h : MgtHdr) (x : Sess) (type status : Nat) (body : List Byte) :
    (s.mgtReplied h x type status body).mgt.remain = s.mgt.remain :=
  s.cacheReply_keeps (fun t => t.mgt.remain) (fun _ _ _ => rfl) _ _ _

theorem replied_mgtReplied (s : State) (h : MgtHdr) (x : Sess) (type status : Nat) (body : List Byte) :
    Replied (s.mgtReplied h x type status body) x h type status body := List.mem_append_right _ (List.mem_singleton.mpr rfl)

theorem butReply_mgtReplied (s : State) (h : MgtHdr) (x : Sess) (type status : Nat) (body : List Byte) : ButReply s (s.mgtReplied h x type status body) :=
  ⟨s.mem_mgtReplied _ _ _ _ _, s.sec_mgtReplied _ _ _ _ _, fun _ _ _ hf => s.f_mgtReplied _ _ _ _ _ (Ne.symm hf) _ _⟩

theorem replied_only (s : State) (h : MgtHdr) (x : Sess) (type status : Nat) (body : List Byte) :
    Replied (s.mgtReplied h x type status body) x h type status body ∧ ButReply s (s.mgtReplied h x type status body) :=
  ⟨replied_mgtReplied _ _ _ _ _ _, butReply_mgtReplied _ _ _ _ _ _⟩

/-! ### A new command of an open OPERATOR session (R405) -/

/-- What a command of the session does and answers. -/
def MgtAns.reply (r : MgtAns) (h : MgtHdr) (x : Sess) (c : MgtOp) : State := (r.s.mgtReplied h x (c.type + 0x80) r.status r.body).mgtAfter x.id r

theorem State.mgtCmd_inSession (hin : InSession s h x) (c : MgtOp) : s.mgtCmd h c = ((Acting s h x).mgtDo x.idx true c).reply h x c := by
  obtain ⟨hup, hversion, hload, hvia, hid, hx, hopen, htag, hlen, hcache, hlast, hlcs, hoper⟩ := hin
  have hx' : s.loaded.2.sess h.session = some x := hx
  unfold State.mgtCmd
  rw [State.mgtArrive_served hup hversion hload, if_neg (by simp [hid]), hx', Option.filter_some, if_pos hopen]
  dsimp only
  rw [if_neg (by simp [htag])]
  unfold State.mgtSess
  rw [hcache]
  dsimp only
  rw [if_neg (Nat.not_le.mpr hlast), hvia, hoper]
  rw [if_neg (fun hc => hlcs hc.1), if_neg (by simp), if_neg (by simp [hlen])]
  rfl

/-- The state in which a command acts differs from the one before in the sessions, the load and the count of sessions. -/
theorem State.f_acting (s : State) (h : MgtHdr) (x : Sess) {f : Fld} (hf : .CRU_MGT_STAT ≠ f.reg) (i j : Nat) : (Acting s h x).f f i j = s.f f i j :=
  State.f_setF_reg _ _ _ _ _ _ _ _ hf (by decide)

theorem State.now_eq (s : State) : s.now = s.f F.CRU_TIME_NOW := by
  unfold State.now State.f getBits
  exact (Nat.mod_eq_of_lt (s.rd .CRU_TIME).isLt).symm

theorem State.now_acting (s : State) (h : MgtHdr) (x : Sess) : (Acting s h x).now = s.now := by
  rw [State.now_eq, State.now_eq, State.f_acting _ _ _ (by decide)]

theorem State.sec_acting (s : State) (h : MgtHdr) (x : Sess) : (Acting s h x).sec = s.sec := rfl

/-! ### Registers (R407) -/

theorem State.readReg_up (hup : (ctlBlock a).isNone ∨ t.blockUp a = true) (idx : Nat) : t.mgtDo idx true (.readReg a) =
    match t.ctlRead a 8 ⟨5, idx⟩ with
    | (some v, u) => u.ans 0 (beBytes 8 v)
    | (none, u) => u.ans 5 [] := if_neg (by rcases hup with hup | hup <;> simp_all)

theorem State.readReg_down (hblock : (ctlBlock a).isSome) (hdown : t.blockUp a = false) (idx : Nat) :
    t.mgtDo idx true (.readReg a) = t.ans 4 [] := if_pos (by simp [hblock, hdown])

theorem State.writeReg_up (hup : (ctlBlock a).isNone ∨ t.blockUp a = true) (v idx : Nat) : t.mgtDo idx true (.writeReg a v) =
    match t.ctlWrite a 8 v ⟨5, idx⟩ with
    | (some cl, u) => u.ans 0 (clampBody cl)
    | (none, u) => u.ans 5 [] := if_neg (by rcases hup with hup | hup <;> simp_all)

theorem State.writeReg_down (hblock : (ctlBlock a).isSome) (hdown : t.blockUp a = false) (v idx : Nat) :
    t.mgtDo idx true (.writeReg a v) = t.ans 4 [] := if_pos (by simp [hblock, hdown])

/-! ### The time base (R395) -/

theorem State.f_setRemain (s : State) (r : Int) {f : Fld} (hf : F.CRU_TIME_STAT_REMAIN_NS.spares f = true) (i j : Nat) : (s.setRemain r).f f i j = s.f f i j :=
  State.f_setF_spared hf

theorem State.adjust_slews (hne : off ≠ 0) (hlo : -1000000 ≤ off) (hhi : off ≤ 1000000) :
    (s.adjust off).f F.CRU_TIME_STAT_STATE = 1 ∧ (s.adjust off).mgt.remain = off := by
  unfold State.adjust
  rw [if_neg (by simp; omega), if_neg hne]
  exact ⟨State.f_setF_of_lt (by decide) (by decide), rfl⟩

theorem State.adjust_steps (hoff : 1000000 < off) (hfits : s.now + off.toNat < 2 ^ 64) :
    (s.adjust off).f F.CRU_TIME_STAT_STATE = 2 ∧ (s.adjust off).now = s.now + off.toNat := by
  have hsum : ((s.now : Int) + off).toNat = s.now + off.toNat := by omega
  unfold State.adjust
  rw [if_pos (by simp [hoff]), hsum]
  dsimp only
  rw [State.now_eq (State.notice _ _), State.f_notice (by decide), State.f_notice (by decide)]
  exact ⟨State.f_setF_of_lt (by decide) (by decide),
    (State.f_setF_spared (by decide)).trans ((State.f_setRemain _ _ (by decide) _ _).trans (State.f_setF_of_lt (by decide) hfits))⟩

/-! ### The power cap (R495, R398) -/

theorem State.code_notice (s : State) {code : Nat} (hc : code < 2 ^ 8) : (s.notice code).f F.CRU_NOTICE_CODE = code := by
  unfold State.notice
  dsimp only
  rw [State.f_irq, State.f_setF_spared (by decide)]
  exact State.f_setF_of_lt (by decide) hc

/-! ### Resets (R406, R505) -/

theorem State.mgtReset_on (hp : s.pwrState = 2) : s.mgtReset = { (s.notice 4).ans 0 [] with reset := some false } := by
  unfold State.mgtReset
  rw [if_neg (by omega), if_neg (by omega)]

/-- The notice and the reply leave the power state and the boot stage, in which the reset then acts. -/
theorem State.moduleReset_noticed (hp : s.pwrState = 2) (hs : 2 ≤ s.stage) (h : MgtHdr) (x : Sess) :
    (((s.notice 4).mgtReplied h x 0x95 0 []).moduleReset 2).stage = 2 ∧
      (((s.notice 4).mgtReplied h x 0x95 0 []).moduleReset 2).f F.CRU_BOOT_LAST_RESET = 2 := by
  have hkept : ∀ y : Fld, .CRU_MGT_STAT ≠ y.reg → .CRU_NOTICE ≠ y.reg → ((s.notice 4).mgtReplied h x 0x95 0 []).f y = s.f y :=
    fun _ h1 h2 => (State.f_mgtReplied _ _ _ _ _ _ h1 _ _).trans (State.f_notice h2 _)
  have hstage : ((s.notice 4).mgtReplied h x 0x95 0 []).stage = s.stage := hkept _ (by decide) (by decide)
  obtain ⟨h2, hlast, -⟩ := State.moduleReset_spec ((hkept _ (by decide) (by decide)).trans hp) (hs.trans_eq hstage.symm) (cause := 2) (by decide)
  exact ⟨h2, hlast⟩

/-! ### Image transfers (R421, R423) -/

theorem State.imgBegin_idle (hnone : t.sec.xfer = none) (idx cls total : Nat) : t.mgtDo idx true (.imgBegin cls total) =
    (t.setSec { t.sec with xfer := some { cls := cls, total := total, last := t.now } }).imgAns 0 0 := if_neg (by simp [hnone])

theorem State.imgBegin_busy (hsome : t.sec.xfer ≠ none) (idx cls total : Nat) :
    t.mgtDo idx true (.imgBegin cls total) = (t.bump F.CRU_MGT_CNT_BUSY).imgAns 2 0 := if_pos (Option.isSome_iff_ne_none.mpr hsome)

theorem State.imgChunk_next (hy : t.sec.xfer = some y) (hne : data ≠ []) (hlen : data.length ≤ 1024) (idx : Nat) :
    t.mgtDo idx true (.imgChunk y.cls y.data.length data) = ((t.setSec { t.sec with xfer := some { y with last := t.now } }).setSec
      { t.sec with xfer := some { y with data := y.data ++ data, last := t.now } }).imgAns 0 0 := by
  rw [State.mgtDo, hy]
  exact if_neg (by simp [hne]; omega)

theorem State.imgCancel_own (hy : t.sec.xfer = some y) (idx : Nat) : t.mgtDo idx true (.imgCancel y.cls) = t.dropXfer.imgAns 0 0 := by
  rw [State.mgtDo, hy]
  exact if_pos rfl

theorem State.imgEnd_short (hy : s.sec.xfer = some y) (hshort : y.data.length ≠ y.total) (op : Bool) :
    s.imgEnd y.cls op = (s.dropXfer.objectDenied y.cls 9).imgAns 1 9 := by
  unfold State.imgEnd
  rw [hy]
  dsimp only
  rw [if_neg (not_not.mpr rfl), if_pos hshort, if_neg (by decide)]

theorem State.imgEnd_verified (hy : s.sec.xfer = some y) (hall : y.data.length = y.total) (hcls : y.cls ≤ 3) {op : Bool}
    (hok : s.dropXfer.verify y.cls y.data op = 0) : s.imgEnd y.cls op = (s.dropXfer.installPending y.cls y.data).imgAns 0 0 := by
  unfold State.imgEnd
  rw [hy]
  dsimp only
  rw [if_neg (not_not.mpr rfl), if_neg (not_not.mpr hall), hok, if_pos rfl, State.imgAccept, if_pos hcls]

/-- Missing bytes raise nothing: the refusal is noted in registers alone. -/
theorem State.sec_objectDenied_short (s : State) (cls : Nat) : (s.objectDenied cls 9).sec = s.sec := by
  unfold State.objectDenied
  dsimp only
  rw [if_neg (by omega), if_neg (by omega)]
  split <;> rfl

theorem State.sec_installPending (s : State) (cls : Nat) (o : List Byte) : (s.installPending cls o).sec =
    { s.sec with slots := mset s.sec.slots (cls, 1 - s.activeSlot cls) o, pendImg := if s.imgPending cls then s.sec.pendImg else s.sec.pendImg ++ [cls] } := rfl

theorem State.pending_installPending (s : State) (cls : Nat) (o : List Byte) : (s.installPending cls o).imgPending cls = true := by
  unfold State.imgPending
  rw [State.sec_installPending]
  dsimp only
  split
  next h => exact h
  next => simp

theorem State.slot_installPending (s : State) (cls : Nat) (o : List Byte) :
    (s.installPending cls o).slotObj cls (1 - s.activeSlot cls) = some o := by
  unfold State.slotObj
  rw [State.sec_installPending]
  exact mget_mset_same _ _ _

end

end Sys2Proof.Machine

namespace Sys2Proof.Claims
open Sys2Proof Sys2Proof.Machine

/-- Settles O48: a session's command acts in `Acting`, and its reply changes only the sessions and what has been sent. -/
theorem sessionCommandsComplete : Obligations.SessionCommandsComplete := by
  unfold Obligations.SessionCommandsComplete
  intro s h x hin
  have hdo : ∀ c, s.mgtCmd h c = ((Acting s h x).mgtDo x.idx true c).reply h x c := State.mgtCmd_inSession hin
  have hnow := s.now_acting h x
  have hsec := s.sec_acting h x
  have hpower : (Acting s h x).pwrState = s.pwrState := s.f_acting h x (by decide) 0 0
  have hstage : (Acting s h x).stage = s.stage := s.f_acting h x (by decide) 0 0
  generalize Acting s h x = t at hdo hnow hsec hpower hstage
  dsimp only
  refine ⟨completes_of_done rfl ?status, fun a hup => completes_of_done rfl ?read, fun a v hblock hdown => ⟨completes_of_done rfl ?readDown, completes_of_done rfl ?writeDown⟩,
    fun a v hup => completes_of_done rfl ?write, fun eye first n => completes_of_done rfl ?log, completes_of_done rfl ?measure,
    fun off hne hlo hhi => completes_of_done rfl ?slew, fun off hoff hfits => completes_of_done rfl ?step, fun hp hs => completes_of_done rfl ?reset,
    fun hp => completes_of_done rfl ?stopping, fun w => completes_of_done rfl ?cap, fun c total hx => completes_of_done rfl ?begins,
    fun c total hx => completes_of_done rfl ?busy, fun y data hy hne hlen => completes_of_done rfl ?chunk,
    fun y hy hshort => completes_of_done rfl ?short, fun y hy hall hcls hok => completes_of_done rfl ?verified, fun y hy => completes_of_done rfl ?cancel, completes_of_done rfl ?bye⟩
  case status => rw [hdo]; exact replied_only _ _ _ _ _ _
  case log => rw [hdo]; exact replied_only _ _ _ _ _ _
  case measure => rw [hdo]; exact replied_only _ _ _ _ _ _
  case read =>
    rw [hdo, State.readReg_up hup]
    rcases t.ctlRead a 8 ⟨5, x.idx⟩ with ⟨_ | v, u⟩
    · exact ⟨butReply_mgtReplied _ _ _ _ _ _, replied_mgtReplied _ _ _ _ _ _⟩
    · exact ⟨butReply_mgtReplied _ _ _ _ _ _, replied_mgtReplied _ _ _ _ _ _⟩
  case write =>
    rw [hdo, State.writeReg_up hup]
    rcases t.ctlWrite a 8 v ⟨5, x.idx⟩ with ⟨_ | v, u⟩
    · exact ⟨butReply_mgtReplied _ _ _ _ _ _, replied_mgtReplied _ _ _ _ _ _⟩
    · exact ⟨butReply_mgtReplied _ _ _ _ _ _, replied_mgtReplied _ _ _ _ _ _⟩
  case readDown => rw [hdo, State.readReg_down hblock hdown]; exact replied_only _ _ _ _ _ _
  case writeDown => rw [hdo, State.writeReg_down hblock hdown]; exact replied_only _ _ _ _ _ _
  case slew =>
    obtain ⟨hstate, hremain⟩ := State.adjust_slews (s := t) hne hlo hhi
    rw [hdo]
    exact ⟨replied_mgtReplied _ _ _ _ _ _, (State.f_mgtReplied _ _ _ _ _ _ (by decide) _ _).trans hstate, (State.remain_mgtReplied _ _ _ _ _ _).trans hremain⟩
  case step =>
    rw [← hnow] at hfits ⊢
    obtain ⟨hstate, htime⟩ := State.adjust_steps hoff hfits
    rw [State.now_eq] at htime
    rw [hdo, State.now_eq]
    exact ⟨replied_mgtReplied _ _ _ _ _ _, (State.f_mgtReplied _ _ _ _ _ _ (by decide) _ _).trans hstate,
      (State.f_mgtReplied _ _ _ _ _ _ (by decide) _ _).trans htime⟩
  case reset =>
    rw [hdo, State.mgtDo, State.mgtReset_on (hpower.trans hp)]
    exact State.moduleReset_noticed (hpower.trans hp) (hs.trans_eq hstage.symm) h x
  case stopping =>
    have hans : t.mgtReset = t.ans 4 [] := if_pos (hpower.trans hp)
    rw [hdo, State.mgtDo, hans]
    exact replied_only _ _ _ _ _ _
  case cap =>
    rw [hdo]
    exact ⟨replied_mgtReplied _ _ _ _ _ _, (State.f_mgtReplied _ _ _ _ _ _ (by decide) _ _).trans ((State.f_notice (by decide) _).trans (t.cap_capWrite w)),
      (State.f_mgtReplied _ _ _ _ _ _ (by decide) _ _).trans (State.code_notice _ (by decide))⟩
  case begins =>
    rw [hdo, State.imgBegin_idle (hsec.symm ▸ hx), hsec, hnow]
    exact ⟨replied_mgtReplied _ _ _ _ _ _, State.sec_mgtReplied _ _ _ _ _ _⟩
  case busy =>
    rw [hdo, State.imgBegin_busy (hsec.symm ▸ hx)]
    exact ⟨replied_mgtReplied _ _ _ _ _ _, (State.sec_mgtReplied _ _ _ _ _ _).trans hsec⟩
  case chunk =>
    rw [hdo, State.imgChunk_next (hsec.symm ▸ hy) hne hlen, ← hnow]
    exact ⟨replied_mgtReplied _ _ _ _ _ _, congrArg SecSt.xfer (State.sec_mgtReplied _ _ _ _ _ _)⟩
  case short =>
    rw [hdo, State.mgtDo, State.imgEnd_short (hsec.symm ▸ hy) hshort]
    exact ⟨replied_mgtReplied _ _ _ _ _ _, congrArg SecSt.xfer ((State.sec_mgtReplied _ _ _ _ _ _).trans (State.sec_objectDenied_short _ _))⟩
  case verified =>
    rw [hdo, State.mgtDo, State.imgEnd_verified (hsec.symm ▸ hy) hall hcls hok]
    have hkept := State.sec_mgtReplied (t.dropXfer.installPending y.cls y.data) h x 0x97 0 [0, 0]
    have hactive : t.dropXfer.activeSlot y.cls = s.activeSlot y.cls := by rw [State.activeSlot, State.activeSlot, ← hsec]; rfl
    refine ⟨replied_mgtReplied _ _ _ _ _ _, congrArg SecSt.xfer hkept, ?_, ?_⟩
    · exact (congrArg (fun z : SecSt => z.pendImg.contains y.cls) hkept).trans (State.pending_installPending _ _ _)
    · rw [← hactive]
      exact (congrArg (fun z : SecSt => mget z.slots (y.cls, 1 - t.dropXfer.activeSlot y.cls)) hkept).trans (State.slot_installPending _ _ _)
  case cancel =>
    rw [hdo, State.imgCancel_own (hsec.symm ▸ hy)]
    exact ⟨replied_mgtReplied _ _ _ _ _ _, (State.sec_mgtReplied _ _ _ _ _ _).trans (congrArg (fun z : SecSt => { z with xfer := none }) hsec)⟩
  case bye =>
    rw [hdo]
    exact ⟨replied_mgtReplied t h x 0x98 0 [], State.sess_dropSess _ _⟩

end Sys2Proof.Claims
end
